-- ==== Sys2Proof/Word.lean ====
section
/-! DEFINITION. The words of the part: bytes, and the 32-bit registers of R63. -/

namespace Sys2Proof

/-- A byte. -/
abbrev Byte := BitVec 8

/-- A register word (R63). -/
abbrev Word := BitVec 32

end Sys2Proof
end

