-- ==== Sys2Proof/Syntax.lean ====
section
/-! DEFINITION. The commands of the SY9400 (spec/opcode_table.json), as constructors with their operands.
An operand that a command register carries is a plain number; what a pin, a bus or a partner presents is one of the
records below. -/

namespace Sys2Proof

/-- What ROM samples and finds at the release of a power-on reset: BOOT_SEL[2:0], TEST_EN (R143, R517), and whether the
lockstep self-test of C0 passes (R140). -/
structure BootPins where
  bootSel : Fin 8
  testEn : Bool
  c0Ok : Bool
  deriving DecidableEq, Repr

/-- The three triggers of Brace (R505). -/
inductive WarnSource where
  | core | aon | pwrWarn
  deriving DecidableEq, Repr

/-- The rails that have a detector (R515). -/
inductive IoRail where
  | host (n : Fin 6) | flash | gen
  deriving DecidableEq, Repr

/-- The pins and sensors that Clove samples (R487, R491): levels of IGN_IN, WAKE_IN[1:0], ENCL_SW; the level read on each
TAMPER_SNS; the codes of VBAT_SENSE and the die sensor. -/
structure CloveInputs where
  ign : Bool
  wakeA : Bool
  wakeB : Bool
  encl : Bool
  snsA : Bool
  snsB : Bool
  vbat : Nat
  temp : Nat
  deriving DecidableEq, Repr

/-- One bus access of a core (R63, R141, R167): which core, whether in user mode, address and size in bytes. -/
structure CoreAccess where
  core : Fin 4
  user : Bool
  addr : Nat
  size : Nat
  deriving DecidableEq, Repr

/-- A register of a core pair that the debug module reaches (R130, R138, R165, R167): x0-x31, the program counter, mhartid, and the
configuration and address of a PMP entry. -/
inductive CoreReg where
  | x (i : Fin 32)
  | pc
  | mhartid
  | pmpCfg (i : Fin 16)
  | pmpAddr (i : Fin 16)
  deriving DecidableEq, Repr

/-- What the debug module is asked to do under the TAP instruction DEBUG (R130, R518). -/
inductive DebugAccess where
  | haltCore (c : Fin 4)
  | resumeCore (c : Fin 4)
  | stepCore (c : Fin 4)
  | readCore (c : Fin 4) (r : CoreReg)
  | writeCore (c : Fin 4) (r : CoreReg) (value : Nat)
  | readTcm (c : Fin 4) (off : Nat)
  | writeTcm (c : Fin 4) (off : Nat) (value : Byte)
  | trace
  | readPage (page off : Nat)
  | writePage (page off value : Nat)
  | vaultMeta (slot : Nat)
  | ledgerRaw (addr : Nat)
  | readMailbox (off : Nat)
  | writeMailbox (off : Nat) (value : Byte)
  deriving DecidableEq, Repr


/-- Where ROM takes an image frame from (R391, R392). -/
inductive PushPort where
  | net0 | can0
  deriving DecidableEq, Repr

/-- The payload of an IMAGE_CHUNK frame in ROM (R391), with the sender's address. -/
structure ImageChunk where
  peer : Nat
  part : Nat
  reserved : Nat
  offset : Nat
  data : List Byte
  deriving DecidableEq, Repr

/-- A transaction that a host presents (R264, R267, R288): chip select, whether both are low, whether the decision edge comes
inside the 15 ns guard, opcode or Profile 2.0 index, host address, bytes the host clocks out, bytes it drives, and what the
flash device answers to a command that reads no array data. -/
structure HostTxn where
  cs : Fin 2
  both : Bool
  early : Bool
  opcode : Byte
  addr : Nat
  len : Nat
  data : List Byte
  device : List Byte
  deriving DecidableEq, Repr

/-- The SecTAG and ICV of a protected frame (R380): AN, SCI, PN, the secured data (EtherType first) and the ICV. -/
structure SecTag where
  an : Fin 4
  sci : Nat
  pn : Nat
  data : List Byte
  icv : BitVec 128
  deriving DecidableEq, Repr

/-- A MAC frame as it arrives (R374, R375): length from destination address to FCS, addresses, whether the FCS is correct,
whether a FEC block could not be corrected and how many were, the SecTAG if any, EtherType and payload if unprotected. -/
structure EthFrame where
  len : Nat
  dst : Nat
  src : Nat
  fcsOk : Bool
  fecBad : Bool
  fecCorr : Nat
  sec : Option SecTag
  etype : Nat
  payload : List Byte
  deriving DecidableEq, Repr

/-- A CAN frame: 29-bit identifier or an 11-bit one, and its data (R393, R395). -/
structure CanFrame where
  extended : Bool
  id : Nat
  data : List Byte
  deriving DecidableEq, Repr

/-- A message of the session layer as the link delivers it whole (R387, R409): medium, peer address, session ID, sequence
number of its last frame, whether it came protected with tags that verify, and its payload. -/
structure StxMessage where
  medium : Nat
  peer : Nat
  session : Nat
  seq : Nat
  auth : Bool
  payload : List Byte
  deriving DecidableEq, Repr

/-- The commands of the block: one constructor per row of spec/opcode_table.json, with the operands its rule names. -/
inductive Instr where
  /-- ALWAYS_ON_RESET (R504). VDD_AON falls below its VRESET level, resetting the always-on domain; MRT restarts, TIME_GAP is set and every host becomes OFF. -/
  | alwaysOnReset
  /-- POWER_ON_RESET (R17). VDD_CORE falls below 0.715 V or is first applied; every host output is asserted, port policy is cleared and non-OFF hosts become HELD. -/
  | powerOnReset
  /-- MAIN_RESET_RELEASE (R482). The main-domain reset is released once the supply and PWR_WARN_N conditions have held together for 50 µs. -/
  | mainResetRelease (pins : BootPins)
  /-- LOCKSTEP_MISMATCH (R44). A core pair reports a lockstep mismatch, which causes a device warm reset with LAST_RESET 4. -/
  | lockstepMismatch (pair : Fin 4) (c0Ok : Bool)
  /-- WARM (R44). CORE.FAULT_CMD.WARM requests a device warm reset with LAST_RESET 5. -/
  | warm (c0Ok : Bool)
  /-- WATCHDOG_EXPIRY (R171). The watchdog period expires without a kick and causes a device warm reset with LAST_RESET 6. -/
  | watchdogExpiry (c0Ok : Bool)
  /-- WDT_KICK (R171). CORE.WDT_KICK restarts the watchdog period. -/
  | wdtKick
  /-- VDD_CORE_VRESET (R34). VDD_CORE falls below VRESET while VDD_AON stays valid, and the device enters VIGIL. -/
  | vddCoreVreset
  /-- VDD_CORE_RISE (R53). VDD_CORE rises afresh above VWARN + 15 mV, leaving SHELF or VIGIL through a power-on reset into WAKE. -/
  | vddCoreRise
  /-- BRACE_ENTER (R505). A supply crosses its VWARN level or PWR_WARN_N falls, and the device enters Brace within 200 ns. -/
  | braceEnter (src : WarnSource)
  /-- BRACE_EXIT (R507). The exit conditions have held for 50 µs; every block resumes and the ride-through counters update. -/
  | braceExit (us : Nat)
  /-- BRACE_LONG (R508). Brace has lasted BRACE_LONG_MS, so BRACE_LONG is raised once. -/
  | braceLong
  /-- GLITCH (R510). A 2–100 ns supply excursion is detected, counted and logged, and the selected reaction is taken. -/
  | glitch (core aon : Bool)
  /-- ENCL_OPEN (R501). An opening of ENCL_SW of at least 10 µs sets the enclosure latch and, outside SHELF, the tamper latch. -/
  | enclOpen
  /-- VDDIO_DETECT (R515). A VDDIO rail crosses its detect level; a host port without supply sees no transaction. -/
  | vddioDetect (rail : IoRail) (above : Bool)
  /-- DIST_PULSE (R490). A qualifying DIST_IN rising edge increments PULSE_ACCUM. -/
  | distPulse (phaseNs : Nat)
  /-- CLOVE_SAMPLE (R488). At each Clove sample period the channels are sampled, the filters updated and the 32 rules evaluated on one snapshot. -/
  | cloveSample (inp : CloveInputs)
  /-- WAKE_OUT_END (R494). The WAKE_OUT pulse started by DRIVE expires and the pin is released. -/
  | wakeOutEnd
  /-- AON_SET_TAMPER (R499). AON CMD SET_TAMPER sets the tamper latch from firmware. -/
  | aonSetTamper
  /-- PROGRAM_FUSE (R502). PWR CMD PROGRAM_FUSE blows AON_LOSS_TAMPER in permitted life-cycle states. -/
  | programFuse
  /-- DISCARD (R497). CLOV CMD DISCARD sets LOG_TAIL to LOG_HEAD, and is refused while LEDG is enabled. -/
  | discard
  /-- ATTACH (R49). GLB.MODE_CMD.ATTACH ends WAKE if its three conditions hold; otherwise it is refused. -/
  | attach
  /-- SEAL (R56). GLB.MODE_CMD.SEAL runs the six-step seal sequence and ends in VIGIL. -/
  | seal
  /-- SEAL_TO_SHELF (R51). GLB.MODE_CMD.SEAL_TO_SHELF starts SEAL ending in SHELF if permitted by life cycle or LAY_UP. -/
  | sealToShelf
  /-- SEAL_CLOSE_TIMEOUT (R56). A session that has not reached IDLE within 100 ms of SEAL step 2 is abandoned. -/
  | sealCloseTimeout (session : Nat)
  /-- REATTACH_EXPIRED (R47). REATTACH_LIMIT expires before ATTACH, and every ESCORTED host becomes HELD. -/
  | reattachExpired
  /-- REGISTER_WRITE (R70). A core write to a register field with no row of its own is handled by its field kind. -/
  | registerWrite (acc : CoreAccess) (value : Nat)
  /-- PAGE_CTRL_WRITE (R67). A write to PAGE_CTRL changes ENABLE, UPD_GROUP or LOCK, and starts the consistency check when ENABLE goes 0 to 1. -/
  | pageCtrlWrite (page value : Nat)
  /-- ENABLE_CHECK_DONE (R67). The check started by setting ENABLE ends; ENABLE becomes 1 or CHECK_FAIL is set. -/
  | enableCheckDone (page : Nat)
  /-- CFD_WRITE (R551). A CFD field write is checked at the write, applied or discarded, and opens a grace window. -/
  | cfdWrite (page off value : Nat)
  /-- CROSS_DOMAIN_ACCESS (R85). A core access to an SCK-domain or always-on field waits for CS# high or the crossing and then completes. -/
  | crossDomainAccess (acc : CoreAccess) (write : Option Nat)
  /-- STALL_LIMIT_EXPIRY (R87). A cross-domain access reaches GLB.STALL_LIMIT and ends with a bus error and STALL_ABORT. -/
  | stallLimitExpiry (dom : Nat)
  /-- UPDATE_STROBE (R74). A nonzero write to GLB.UPDATE_STROBE.GROUPS starts a strobe of the selected groups. -/
  | updateStrobe (groups : Nat)
  /-- STROBE_CHECK_DONE (R75). The check phase of a strobe ends, refusing the whole set or moving on to the arm phase. -/
  | strobeCheckDone
  /-- STROBE_ARM (R76). A port page of the set is armed, copying its shadow into the next-state latch while CS# is high. -/
  | strobeArm (page : Nat)
  /-- STROBE_LIMIT_EXPIRY (R80). The arm phase has not ended within STROBE_LIMIT, and the set is refused with STALL_LIMIT. -/
  | strobeLimitExpiry
  /-- AON_APPLY (R79). An always-on page of a committed set finishes its crossing and applies. -/
  | aonApply (page : Nat)
  /-- QUEUED_CMD_START (R72). A queued CMD write starts when the command ahead of it ends. -/
  | queuedCmdStart (page off : Nat)
  /-- WALKER_SCAN_END (R89). The CRC walker finishes a scan, updates CRC_LIVE and decides any pending commit or mismatch. -/
  | walkerScanEnd
  /-- CRC_COMMIT (R93). A write of V to GLB.CRC_COMMIT requests a commit decided at the end of the next full scan. -/
  | crcCommit (value : Nat)
  /-- GRACE_EXPIRED (R94). CRC_GRACE expires without a successful commit, which is a mismatch with GRACE_EXPIRED. -/
  | graceExpired
  /-- APPLY (R107). LCS TRANSITION_CMD APPLY verifies a token and runs the intent, thermometer, action, codeword and close steps. -/
  | apply (addr : Nat)
  /-- RESUME (R112). LCS TRANSITION_CMD RESUME completes an interrupted transition from the open intent slot. -/
  | resume (addr : Nat)
  /-- LCS_PROGRAM_AUTH (R120). LCS TRANSITION_CMD PROGRAM_AUTH programs CUST_AUTH_HASH in ISSUED. -/
  | lcsProgramAuth (addr : Nat)
  /-- TRANSITION_DONE (R109). The sequencer ends step 4 of a transition and requests a power-on reset of the main domain. -/
  | transitionDone
  /-- DBG_CHALLENGE (R126). DBG GRANT_CMD CHALLENGE draws a 16-byte challenge from the CTR_DRBG. -/
  | dbgChallenge
  /-- PRESENT (R128). DBG GRANT_CMD PRESENT verifies a grant and applies its rights or starts the opening order. -/
  | present (addr : Nat)
  /-- REVOKE (R129). DBG GRANT_CMD REVOKE clears RIGHTS_ACTIVE without ending the root switch. -/
  | revoke
  /-- DEBUG_OPEN_FAILED (R133). The DEBUG_OPEN record is not committed within COMMIT_MAX, and the grant is refused. -/
  | debugOpenFailed
  /-- EXTEST (R518). The TAP EXTEST instruction drives boundary scan when JTAG_BSCAN is active. -/
  | extest
  /-- IDCODE (R519). The TAP IDCODE instruction selects the IDCODE register 0xB940_0A6B. -/
  | idcode
  /-- SAMPLE_PRELOAD (R518). The TAP SAMPLE/PRELOAD instruction samples the boundary when JTAG_BSCAN is active. -/
  | samplePreload
  /-- TAP_CHALLENGE (R518). The TAP CHALLENGE instruction draws a challenge by R126. -/
  | tapChallenge
  /-- GRANT_LOAD (R137). The TAP GRANT_LOAD instruction shifts a grant into the grant buffer for verification. -/
  | grantLoad (grant : List Byte)
  /-- DEBUG (R518). The TAP DEBUG instruction gives access to the debug module within the active rights. -/
  | debugIr (acc : DebugAccess)
  /-- TAP_HOST_CMD (R518). The TAP HOST_CMD instruction issues HSV host commands when HOST_HOLD is active. -/
  | tapHostCmd (op host slot : Nat)
  /-- TAP_RESUME (R518). The TAP RESUME instruction presents a token for RESUME when RESUME_TRANSITION is active. -/
  | tapResume (token : List Byte)
  /-- BYPASS (R518). The TAP BYPASS instruction, or any instruction without its right, selects the bypass register. -/
  | bypass (code : Nat)
  /-- CORE_SELFTEST_DONE (R139). A core pair C1–C3 finishes its self-tests, reports in CORE_STATUS and waits for its doorbell. -/
  | coreSelftestDone (c : Fin 4) (lockstep mbist : Bool)
  /-- PUSH_WINDOW_EXPIRY (R159). No manifest arrives within PUSH_WINDOW; SOURCE_ABSENT is recorded and ROM tries the next source. -/
  | pushWindowExpiry
  /-- PUSH_TIMEOUT (R162). A push pauses for more than 1 s and is discarded, so ROM listens on both media again. -/
  | pushTimeout
  /-- IDENTITY (R163). The ROM mailbox IDENTITY request is answered with serial, stepping, state and boot status. -/
  | identity
  /-- PUSH_MANIFEST (R163). The ROM mailbox PUSH_MANIFEST delivers a manifest, which may claim the push. -/
  | pushManifest (data : List Byte)
  /-- PUSH_LEAVES (R163). The ROM mailbox PUSH_LEAVES delivers leaf-table bytes at an offset. -/
  | pushLeaves (off : Nat) (data : List Byte)
  /-- PUSH_DATA (R163). The ROM mailbox PUSH_DATA delivers image bytes at an offset. -/
  | pushData (off : Nat) (data : List Byte)
  /-- PUSH_END (R163). The ROM mailbox PUSH_END ends a push and leads to hand-over or to the reason code. -/
  | pushEnd
  /-- ROM_IMAGE_CHUNK (R391). ROM receives an IMAGE_CHUNK on NET0 or CAN0 and answers it with a LINK_ACK status. -/
  | romImageChunk (port : PushPort) (chunk : ImageChunk)
  /-- GO (R165). BOOT.HANDOVER_CMD.GO sets ROM_LOCK, restarts C0 and rings the doorbells of the masked cores. -/
  | go
  /-- PROGRAM_FIELDS (R145). BOOT OTP_CMD PROGRAM_FIELDS blows the boot OTP fields from a 64-byte record. -/
  | programFields (addr : Nat)
  /-- REVOKE_A (R146). BOOT OTP_CMD REVOKE_A revokes firmware signer entry A. -/
  | revokeA
  /-- REVOKE_B (R146). BOOT OTP_CMD REVOKE_B revokes firmware signer entry B. -/
  | revokeB
  /-- RING (R170). CORE DOORBELL RING starts a waiting or parked core at its entry point. -/
  | ring (c : Fin 4) (entry : Nat)
  /-- DEFINE (R177). KVT CMD DEFINE defines a FREE slot from a usable DERIVE_ONLY parent and a label. -/
  | define (addr : Nat)
  /-- CHAIN (R181). KVT CMD CHAIN defines a slot holding K[s − n] from a CHAIN parent. -/
  | chain (addr : Nat)
  /-- INVALIDATE (R190). KVT CMD INVALIDATE invalidates a slot, orphans its descendants and purges the cache. -/
  | invalidate (addr : Nat)
  /-- SAVE (R200). KVT CMD SAVE rewrites the persistence area with the firmware-defined slot records and its MAC. -/
  | save
  /-- RESTORE (R201). KVT CMD RESTORE verifies the persistence MAC and replays the stored definitions. -/
  | restore
  /-- READ_META (R183). KVT CMD READ_META writes the slot metadata to SRAM and never a value. -/
  | readMeta (addr : Nat)
  /-- MASK_REFRESH (R193). Each cache entry receives a fresh mask within every 1 ms period. -/
  | maskRefresh
  /-- SCRUB (R195). The scrubber checks every slot tag in each SCRUB_PERIOD; a failing slot becomes BAD. -/
  | scrub (bad : List Nat)
  /-- DGE_RUN (R209). DGE CMD RUN starts or continues a hash or HMAC operation part from a descriptor. -/
  | dgeRun (n : Fin 4) (addr : Nat)
  /-- LEAVES (R221). DGE CMD LEAVES binds a DGE to the lane-I digests of an SNP unit for leaf compare. -/
  | leaves (n : Fin 4) (addr : Nat)
  /-- DGE_ABORT (R72). DGE CMD ABORT ends the running operation, zeroes its results and discards the queued command. -/
  | dgeAbort (n : Fin 4)
  /-- DGE_DONE (R214). A DGE operation finishes and writes its digest, vault result or compare verdict. -/
  | dgeDone (n : Fin 4)
  /-- LEAF_VERDICT (R222). A LEAVES operation compares a delivered block digest with its leaf and updates its counters. -/
  | leafVerdict (n : Fin 4)
  /-- SNP_ARM (R227). SNP STAGE_CMD ARM arms lane H on the staging window with a leaf table. -/
  | snpArm (u : Fin 6) (addr : Nat)
  /-- SNP_DISARM (R229). SNP STAGE_CMD DISARM disarms lane H, freezing its counters. -/
  | snpDisarm (u : Fin 6)
  /-- AES_RUN (R239). AES CMD RUN runs a CBC, CTR or GCM part with the key in the engine's DKR. -/
  | aesRun (e : Fin 2) (addr : Nat)
  /-- WRAP (R242). AES CMD WRAP produces a key blob under a WRAP_ONLY KEK. -/
  | wrap (e : Fin 2) (addr : Nat)
  /-- UNWRAP (R242). AES CMD UNWRAP checks a blob and delivers its key to the named register class. -/
  | unwrap (e : Fin 2) (addr : Nat)
  /-- AES_ABORT (R72). AES CMD ABORT ends the running operation and discards the queued command. -/
  | aesAbort (e : Fin 2)
  /-- AES_DONE (R240). An AES operation ends, writing its tag or tag verdict. -/
  | aesDone (e : Fin 2)
  /-- LOAD_REF (R236). AES DKR_CMD LOAD_REF captures a vault slot into the DKR. -/
  | loadRef (e : Fin 2) (attr slot : Nat)
  /-- LOAD_KEY (R236). AES DKR_CMD LOAD_KEY loads KEY[0–7] with an usage code into the DKR. -/
  | loadKey (e : Fin 2) (attr : Nat)
  /-- DKR_CLEAR (R236). AES DKR_CMD CLEAR zeroes the DKR. -/
  | dkrClear (e : Fin 2)
  /-- KEY_CLEAR_TIMEOUT (R236). KEY[0–7] are cleared after 10 µs without a LOAD_KEY. -/
  | keyClearTimeout (e : Fin 3)
  /-- VERIFY (R244). PKE VERIFY checks a signature and writes the verdict pair. -/
  | verify (addr : Nat)
  /-- SIGN (R247). PKE SIGN signs with a key register and self-verifies before writing. -/
  | sign (addr : Nat)
  /-- GENKEY (R246). PKE GENKEY derives a key register from a slot seed or the DRBG. -/
  | genkey (addr : Nat)
  /-- ECDH (R248). PKE ECDH computes a P-384 shared secret into a session context or a vault slot. -/
  | ecdh (addr : Nat)
  /-- PKE_CLEAR (R244). PKE CLEAR zeroes a key register. -/
  | pkeClear (addr : Nat)
  /-- PKE_DONE (R244). A PKE operation ends and writes its result. -/
  | pkeDone
  /-- GEN (R252). RNG CMD GEN writes up to 4 KiB of DRBG output to SRAM. -/
  | gen (addr : Nat)
  /-- RESTART (R253). RNG CMD RESTART reruns the start-up test and re-instantiates the DRBG. -/
  | restart
  /-- HEALTH_FAIL (R253). An entropy health test fails; after three in one collection the source becomes FAILED. -/
  | healthFail
  /-- RESEED (R252). The DRBG reseeds after 65,536 requests or 1 s. -/
  | reseed
  /-- RNG_READY (R251). The start-up test and instantiation end and READY is set. -/
  | rngReady
  /-- HOST_TRANSACTION (R288). A host opens a transaction with CS# falling, and the port decides it on SCK and passes, fills, absorbs or stalls it. -/
  | hostTransaction (n : Fin 6) (t : HostTxn)
  /-- HOST_CS_RISE (R263). Hn_CS_N rises, ending the transaction; counters register, the escort cache is released and the pins may return. -/
  | hostCsRise (n : Fin 6)
  /-- PIN_GRANT (R270). The channel yields at a burst boundary, and the port takes the pins and replays the captured read. -/
  | pinGrant (n : Fin 6) (cycles : Nat)
  /-- HOLD_EXPIRED (R275). A hold reaches DS_HOLD_MAX SCK cycles and the port delivers fill for the rest of the transaction. -/
  | holdExpired (n : Fin 6)
  /-- WBUF_REPLAY (R277). The channel replays a buffered host command under K0 when its current burst ends. -/
  | wbufReplay (n : Fin 6)
  /-- EMU_BUSY_END (R298). The emulated busy time of an absorbed program or erase has been clocked, and WIP reads 0. -/
  | emuBusyEnd (n : Fin 6)
  /-- LEASE (R279). A LEASE message on the management port opens, replaces or ends a lease window on a LEASED channel. -/
  | lease (n : Nat) (dur : Nat)
  /-- LEASE_RETURN_DUE (R279). 2 µs before a lease expires, the channel returns the pins to the port. -/
  | leaseReturnDue (n : Fin 6)
  /-- LEASE_EXPIRY (R279). A lease window expires. -/
  | leaseExpiry (n : Fin 6)
  /-- OPEN (R306). POL STAGE_CTRL OPEN voids the inactive slot's record and sets the staging latch. -/
  | stageOpen (n : Fin 6)
  /-- STAGE_ARM (R307). POL STAGE_CTRL ARM checks the manifest and leaf table and arms lane H. -/
  | stageArm (n : Fin 6) (addr : Nat)
  /-- SWEEP (R308). POL STAGE_CTRL SWEEP clears the latch and reads back the inactive slot under K4. -/
  | sweep (n : Fin 6)
  /-- STAGING_SWEEP_DONE (R308). The read-back sweep ends and staging becomes CONFIRMED or FAILED. -/
  | stagingSweepDone (n : Fin 6)
  /-- COMMIT (R309). POL STAGE_CTRL COMMIT rechecks the slot and appends a slot record. -/
  | commit (n : Fin 6) (addr : Nat)
  /-- STAGE_ABORT (R312). POL STAGE_CTRL ABORT disarms lane H, clears the latch and sets IDLE. -/
  | stageAbort (n : Fin 6)
  /-- HOST_VERIFY (R320). HSV HOST_CMD VERIFY makes a HELD host VERIFYING and starts GATE verification of its slot. -/
  | hostVerify (h : Fin 6)
  /-- QUARANTINE (R336). HSV HOST_CMD QUARANTINE moves a MENDING host to QUARANTINED. -/
  | quarantine (h : Fin 6)
  /-- HOLD (R336). HSV HOST_CMD HOLD moves a QUARANTINED host to HELD. -/
  | hold (h : Fin 6)
  /-- MEND (R336). HSV HOST_CMD MEND moves a QUARANTINED host to MENDING at level 3. -/
  | mend (h : Fin 6)
  /-- ENROLL (R338). HSV HOST_CMD ENROLL verifies a slot's manifest and leaf table and appends its record. -/
  | enroll (h : Fin 6) (slot : Nat)
  /-- OK (R332). HSV HOST_CMD OK counts as an OK for supervision. -/
  | ok (h : Fin 6)
  /-- HOST_RELEASE (R326). After the last success verdict the host's slot is set, its record cleared and its reset released. -/
  | hostRelease (h : Fin 6)
  /-- GATE_LIMIT (R325). GATE_LIMIT expires before release and verification fails. -/
  | gateLimit (h : Fin 6)
  /-- ESCORT_FETCH_DONE (R327). A K1 escort block lands and is compared; on success it is marked verified and served. -/
  | escortFetchDone (h : Fin 6) (corrupt : Bool) (cycles ns : Nat)
  /-- ESCORT_SWEEP_DONE (R331). The background sweep verifies the last block of every window and the host becomes RUNNING. -/
  | escortSweepDone (h : Fin 6)
  /-- BLOCK_TIMEOUT (R339). ESC.BLOCK_TIMEOUT expires on a 1 KiB read, which fails with BLOCK_TIMEOUT. -/
  | blockTimeout (h : Fin 6)
  /-- HOST_OK_CHANGE (R332). Hn_OK changes level, giving an OK or starting the OK_LOSS timing. -/
  | hostOkChange (h : Fin 6) (level : Bool)
  /-- BOOT_TIMEOUT (R332). BOOT_TIMEOUT expires without an OK; the host is retried or fails with OK_TIMEOUT. -/
  | bootTimeout (h : Fin 6)
  /-- RESET_PULSE_END (R332). The retry reset pulse ends and Hn_RST_N is released again. -/
  | resetPulseEnd (h : Fin 6)
  /-- OK_LOSS_EXPIRY (R333). Hn_OK stays low longer than OK_LOSS and is handled as a missed OK. -/
  | okLossExpiry (h : Fin 6)
  /-- MEND_DEADLINE (R336). MEND_DEADLINE expires and the host becomes QUARANTINED. -/
  | mendDeadline (h : Fin 6)
  /-- RESTORE_LIMIT (R341). RESTORE_LIMIT expires and the restore fails with RESTORE_FAIL. -/
  | restoreLimit (h : Fin 6)
  /-- RELOAD (R50). ESC CMD RELOAD reloads a host's escort leaf tables against the retained digests. -/
  | reload (h : Fin 6)
  /-- CMP_RUN (R550). CMP CMD RUN decompresses an ABC stream to SRAM or a channel. -/
  | cmpRun (addr : Nat)
  /-- CMP_ABORT (R550). CMP CMD ABORT ends the stream with ABORTED. -/
  | cmpAbort
  /-- CMP_DONE (R342). A CMP stream ends, with its output or its first fault. -/
  | cmpDone
  /-- FCH_READ (R349). FCH CMD READ issues a firmware read of K3–K5 on a channel. -/
  | fchRead (ch : Fin 8) (addr : Nat)
  /-- FCH_PROGRAM (R350). FCH CMD PROGRAM issues a firmware page program, subject to the host-state restriction. -/
  | fchProgram (ch : Fin 8) (addr : Nat)
  /-- FCH_ERASE (R350). FCH CMD ERASE issues a firmware erase, subject to the host-state restriction. -/
  | fchErase (ch : Fin 8) (addr : Nat)
  /-- INIT (R346). FCH CMD INIT runs the channel's init program and reads SFDP. -/
  | init (ch : Fin 8) (addr : Nat)
  /-- FCH_ABORT (R72). FCH CMD ABORT ends the channel's running request. -/
  | fchAbort (ch : Fin 8)
  /-- CHANNEL_SERVICE_DONE (R356). A burst, page program, erase or engine slice ends, and Sumac chooses the next service. -/
  | channelServiceDone (ch : Fin 8) (corrupt : Bool)
  /-- STROBE_WAIT_EXPIRY (R352). No strobe transition arrives within STROBE_WAIT cycles, and the burst is re-read or fails. -/
  | strobeWaitExpiry (ch : Fin 8)
  /-- ERASE_SUSPEND_DONE (R351). FB reports an erase suspended and the waiting K2 request is served. -/
  | eraseSuspendDone (ch : Fin 8)
  /-- CHANNEL_POLL_DONE (R353). After a warm reset a channel sees WIP 0, or T_ERASE_MAX passes, before its first command. -/
  | channelPollDone (ch : Fin 8)
  /-- AGE_PROMOTION (R358). A request waits AGE_LIMIT and moves to the next higher queue. -/
  | agePromotion (res : Nat) (idx : Nat)
  /-- SHORT_WINDOW_END (R366). At the end of a SHORT_WINDOW each resource judges shortfall and moves its sacrifice level. -/
  | shortWindowEnd (res : Nat) (below : Nat)
  /-- SHORTFALL_DROP (R368). A request of a suspended class waits DROP_LIMIT and is dropped with SHORTFALL_DROPPED. -/
  | shortfallDrop (res : Nat) (idx : Nat)
  /-- LANE_STATUS_CHANGE (R373). BLOCK_LOCK or HI_BER of a lane changes. -/
  | laneStatusChange (l : Fin 2) (lock hiBer : Bool)
  /-- LINK_UP (R373). A lane's good conditions have held for LINK_UP_HOLD and LINK_UP becomes 1. -/
  | linkUp (l : Fin 2)
  /-- LINK_DOWN (R373). A lane's conditions have failed for LINK_DOWN_HOLD; LINK_UP becomes 0 and sessions fail over. -/
  | linkDown (l : Fin 2)
  /-- FRAME_RECEIVED (R374). A lane receives a MAC frame, which is filtered, MACsec-processed and routed by EtherType. -/
  | frameReceived (l : Fin 2) (f : EthFrame)
  /-- NET_SEND (R375). NET CMD SEND transmits a firmware frame on a lane. -/
  | netSend (addr : Nat)
  /-- NET_RECV (R375). NET CMD RECV takes a frame from the firmware receive queue. -/
  | netRecv (addr : Nat)
  /-- SA_LOAD_REF (R381). MSEC SA_CMD LOAD_REF loads a SAK register from a vault slot. -/
  | saLoadRef (x attr slot : Nat)
  /-- SA_LOAD_KEY (R381). MSEC SA_CMD LOAD_KEY loads a SAK register from KEY[0–7]. -/
  | saLoadKey (x attr : Nat)
  /-- SA_CLEAR (R381). MSEC SA_CMD CLEAR zeroes a SAK register. -/
  | saClear (x : Nat)
  /-- ENABLE (R382). MSEC SA_CMD ENABLE enables an SA and latches its salt and SSCI. -/
  | enable (x : Nat)
  /-- DISABLE (R382). MSEC SA_CMD DISABLE disables an SA. -/
  | disable (x : Nat)
  /-- SET_TX_AN (R384). MSEC SA_CMD SET_TX_AN names the transmit SA, releasing queued frames. -/
  | setTxAn (x : Nat)
  /-- RETX_TIMEOUT (R388). RETX_TIMEOUT expires without a LINK_ACK; the frame is retransmitted or LINK_FAIL is reported. -/
  | retxTimeout (session : Nat)
  /-- CAN_FRAME_RECEIVED (R395). A CAN port receives a frame, routed to ISO 15765-2, firmware or the ledger, or dropped. -/
  | canFrameReceived (p : Fin 2) (f : CanFrame)
  /-- TP_TIMEOUT (R394). An ISO 15765-2 N_Bs or N_Cr timer expires and the message is aborted. -/
  | tpTimeout (p : Fin 2) (rx : Bool)
  /-- BUS_OFF (R396). A CAN port enters bus-off and aborts its transmissions. -/
  | busOff (p : Fin 2)
  /-- BUS_OFF_RECOVERED (R396). After 128 occurrences of 11 recessive bits the port rejoins the bus. -/
  | busOffRecovered (p : Fin 2)
  /-- CAN_SEND (R395). CAN CMD SEND transmits a firmware frame, refused in the STX identifier space. -/
  | canSend (p : Fin 2) (addr : Nat)
  /-- CAN_RECV (R395). CAN CMD RECV takes a frame from the firmware queue. -/
  | canRecv (p : Fin 2) (addr : Nat)
  /-- RECOVER (R396). CAN CMD RECOVER starts bus-off recovery. -/
  | recover (p : Fin 2)
  /-- READ_ID (R397). The MGP READ_ID opcode returns the identification bytes. -/
  | readId
  /-- READ_STATUS (R398). The MGP READ_STATUS opcode returns the status byte and clears INT. -/
  | readStatus
  /-- WRITE_MBOX (R399). The MGP WRITE_MBOX opcode writes the mailbox, or sets ERR while the device owns it. -/
  | writeMbox (off : Nat) (data : List Byte)
  /-- READ_MBOX (R397). The MGP READ_MBOX opcode reads the mailbox from an offset. -/
  | readMbox (off len : Nat)
  /-- SUBMIT (R399). The MGP SUBMIT opcode hands the mailbox to the device, which checks the header and CRC and routes the message. -/
  | submit
  /-- PAGE_REQ (R403). The MGP PAGE_REQ opcode requests 1–16 words of a visible page into the read buffer. -/
  | pageReq (page off count : Nat)
  /-- PAGE_REQ_DONE (R403). A page request completes or is denied, setting RDBUF_READY or RDBUF_ERR. -/
  | pageReqDone
  /-- READ_RDBUF (R397). The MGP READ_RDBUF opcode reads the 64-byte read buffer. -/
  | readRdbuf
  /-- CLEAR_ERR (R397). The MGP CLEAR_ERR opcode clears ERR. -/
  | clearErr
  /-- UNKNOWN_OPCODE (R397). Any other MGP opcode sets ERR. -/
  | unknownOpcode (code : Nat)
  /-- MILESTONE (R402). A MILESTONE message counts as an OK for a host whose OK_SOURCE includes milestones. -/
  | milestone (data : List Byte)
  /-- STX_FRAME (R401). An STX_FRAME mailbox message carries one inbound STX frame and returns one queued outbound frame. -/
  | stxFrame (data : List Byte)
  /-- LEDGER_INPUT (R469). A LEDGER_INPUT message delivers an activity, card or recorder event record to the ledger. -/
  | ledgerInput (data : List Byte)
  /-- FETCH (R401). MGP CMD FETCH copies a firmware-code mailbox message to SRAM. -/
  | fetch (addr : Nat)
  /-- REPLY (R399). MGP CMD REPLY writes the response and returns mailbox ownership. -/
  | reply (addr : Nat)
  /-- DOORBELL (R399). MGP CMD DOORBELL asserts MGP_INT_N to the management host. -/
  | doorbell
  /-- STX_OPEN (R409). STX CMD OPEN sends a HELLO from a device-assigned context. -/
  | stxOpen (addr : Nat)
  /-- STX_SEND (R422). STX CMD SEND sends a firmware message on an ACTIVE session. -/
  | stxSend (addr : Nat)
  /-- STX_RECV (R422). STX CMD RECV takes a message from the firmware receive queue. -/
  | stxRecv (addr : Nat)
  /-- STX_CLOSE (R409). STX CMD CLOSE moves an ACTIVE session to CLOSING and sends CLOSE. -/
  | stxClose (addr : Nat)
  /-- READ_CTX (R408). STX CMD READ_CTX writes a context's public record to SRAM. -/
  | readCtx (addr : Nat)
  /-- HELLO (R413). A partner HELLO is checked and takes the lowest IDLE context, or is answered with CLOSE. -/
  | hello (m : StxMessage)
  /-- HELLO_REPLY (R413). A HELLO_REPLY for a device-opened session is checked and leads to the key schedule. -/
  | helloReply (m : StxMessage)
  /-- HANDSHAKE_KEYS_DONE (R415). The session key schedule ends with wrapped keys and salts in the context, and the session is KEYED. -/
  | handshakeKeysDone (session : Nat)
  /-- KEY_CONFIRM (R418). A KEY_CONFIRM is checked and the session becomes ACTIVE or ends with CONFIRM_FAIL. -/
  | keyConfirm (m : StxMessage)
  /-- CLOSE (R423). A received CLOSE returns its session to IDLE. -/
  | close (m : StxMessage)
  /-- SESSION_TIMEOUT (R424). SESSION_TIMEOUT expires on an awaited handshake step or CLOSE acknowledgement. -/
  | sessionTimeout (session : Nat)
  /-- QUOTE (R432). A partner QUOTE received during a round is checked and given a verdict. -/
  | quote (m : StxMessage)
  /-- ATT_IDENTITY (R426). ATT CMD IDENTITY generates the DeviceID and Alias keys and signs the Alias certificate. -/
  | attIdentity (addr : Nat)
  /-- LOCK_RMT (R429). ATT CMD LOCK_RMT checks, indexes, digests and locks the reference measurement table. -/
  | lockRmt
  /-- UNLOCK_RMT (R429). ATT CMD UNLOCK_RMT unlocks the table outside a round. -/
  | unlockRmt
  /-- ROUND (R430). ATT CMD ROUND sends QUOTE_REQ on every ACTIVE session and starts an attestation round. -/
  | round (addr : Nat)
  /-- ROUND_LIMIT (R430). ROUND_LIMIT expires and the round closes, leaving silent components NO_QUOTE. -/
  | roundLimit
  /-- ROUND_DONE (R434). The vehicle quote is built, signed with the Alias keys and written out. -/
  | roundDone
  /-- SEAL_OP (R436). ATT CMD SEAL_OP seals or unseals host data under a host key bound to its SVN. -/
  | sealOp (addr : Nat)
  /-- VERDICTS (R435). ATT CMD VERDICTS writes the full verdict list to SRAM. -/
  | verdicts (addr : Nat)
  /-- TIME_CHALLENGE (R443). TIME CMD CHALLENGE draws a time challenge and records its MRT. -/
  | timeChallenge
  /-- CHALLENGE_EXPIRY (R443). A time or challenge of the ledger output is discarded 60 s after it was drawn. -/
  | challengeExpiry (ledger : Bool)
  /-- TIME_APPLY (R444). TIME CMD APPLY verifies a TIME_SET and slews or steps UTC. -/
  | timeApply (addr : Nat)
  /-- TIME_PROGRAM_AUTH (R447). TIME CMD PROGRAM_AUTH programs BACKEND_AUTH_HASH. -/
  | timeProgramAuth (addr : Nat)
  /-- SLEW_TICK (R446). Every 1,000 MRT ticks during a slew, UTC_OFFSET moves one tick towards the target. -/
  | slewTick
  /-- UTC_SECOND (R449). At each UTC second edge, period boundaries are evaluated, the speed sample is taken and coded, and the per-second checks run. -/
  | utcSecond
  /-- SENSOR_MISMATCH_BEGIN (R471). Wheel speed differs from pulse speed beyond the limit for MISMATCH.SECS seconds. -/
  | sensorMismatchBegin
  /-- SENSOR_MISMATCH_END (R471). Wheel speed stays within the limit for MISMATCH.SECS seconds. -/
  | sensorMismatchEnd
  /-- WHEEL_SPEED_LOST (R471). No wheel-speed frame arrives for 5 s while speed is nonzero. -/
  | wheelSpeedLost
  /-- DISTANCE_INTERVAL (R466). DIST_INTERVAL passes while moving and a DISTANCE record is written. -/
  | distanceInterval
  /-- LEDGER_COMMIT_DUE (R459). 1 s after the oldest uncommitted record, a ledger commit is started under K2. -/
  | ledgerCommitDue
  /-- LEDGER_COMMIT_DONE (R459). A commit block program ends and its journal data leaves the journal. -/
  | ledgerCommitDone
  /-- FREEZE (R475). LEDG CMD FREEZE commits the journal, closes open pages and sets FROZEN. -/
  | freeze
  /-- THAW (R475). LEDG CMD THAW clears FROZEN and EXPORTED and writes a GAP record. -/
  | thaw
  /-- LEDG_INPUT (R469). LEDG CMD INPUT takes a record from firmware when INPUT_STX is 1. -/
  | ledgInput (addr : Nat)
  /-- READ_PAGE (R476). LEDG CMD READ_PAGE copies a closed ledger page into SRAM. -/
  | readPage (addr : Nat)
  /-- EXPORT_CHALLENGE (R478). LEDG CMD EXPORT_CHALLENGE draws an challenge of the ledger output. -/
  | exportChallenge
  /-- EXPORT_ACK (R478). LEDG CMD EXPORT_ACK checks a backend acknowledgement and sets EXPORTED. -/
  | exportAck (addr : Nat)
  /-- SET_ODOMETER (R466). LEDG CMD SET_ODOMETER sets the odometer in PROVISIONED and writes a DISTANCE record. -/
  | setOdometer (addr : Nat)
  /-- VDD_AON_RISE (R481). VDD_AON is applied or returns above its levels, so the always-on domain leaves reset with its reset values and XTAL_AON starts, with MRT counting from the first cycle. -/
  | vddAonRise
  /-- INIT_DONE (R346). A channel's init program, with its timed step waits and SFDP read, ends and sets INIT_DONE or ends with INIT_FAIL. -/
  | initDone (ch : Fin 8) (ok : Bool)
  /-- OTP_DONE (R145). The boot OTP sequencer finishes the blows of PROGRAM_FIELDS, REVOKE_A or REVOKE_B, which may have been deferred by Brace, and raises OTP_DONE. -/
  | otpDone
  /-- KVT_CMD_DONE (R200). A running key-vault command, such as a SAVE of up to 60 ms or a RESTORE, ends; RESULT and PERSIST_STATUS are written and CMD_DONE is raised. -/
  | kvtCmdDone
  /-- MRT_SECOND (R470). While TIME_GAP is 1, at each whole MRT second the ledger takes and codes the speed sample, and MINUTE_MAX counts MRT minutes. -/
  | mrtSecond
  /-- TX_FRAME_END (R383). The transmission of a MAC frame ends, at which point a pending SA withdrawal takes effect, the frame's FCS is inverted if needed, and MACsec can stop at the frame boundary. -/
  | txFrameEnd (l : Fin 2)
  /-- STMIN_EXPIRY (R394). The ISO 15765-2 separation time STMIN between consecutive frames elapses, and the sender transmits its next consecutive frame. -/
  | stminExpiry (p : Fin 2)
  deriving DecidableEq, Repr

end Sys2Proof
end

