-- ==== Sys2Proof/Decode.lean ====
section
/-! DEFINITION. The words of the opcode table.  The table gives no row a bit: a command has no word, and no word spells one. -/

namespace Sys2Proof

/-- The command that a word spells by the table's bits: none, since no row has bits. -/
def decodeTableWord (_nbits _w : Nat) : Option Instr := none

end Sys2Proof
end

