-- ==== Sys2Proof/Machine/Tbl.lean ====
section
/-! DEFINITION. Sparse tables: the one form in which memories, register stores and arrays of records are held.
A table lists (key, value) pairs with strictly rising keys; a key that is not listed reads as a stated default, and
`put` never lists an entry equal to that default, so equal tables are equal lists. -/

namespace Sys2Proof.Machine

/-- A sparse table, keys strictly rising. -/
abbrev Tbl (α : Type) := List (Nat × α)

namespace Tbl

/-- The value at key `k`; `d` where the table lists none. -/
def get {α : Type} (d : α) : Tbl α → Nat → α
  | [], _ => d
  | (k', v) :: t, k => if k < k' then d else if k = k' then v else get d t k

/-- Drop the entries whose key is at most `k`. -/
def after {α : Type} (k : Nat) : Tbl α → Tbl α
  | [] => []
  | (k', v) :: t => if k < k' then (k', v) :: t else after k t

/-- Set key `k` to `v`; setting the default removes the entry. -/
def put {α : Type} [DecidableEq α] (d : α) : Tbl α → Nat → α → Tbl α
  | [], k, v => if v = d then [] else [(k, v)]
  | (k', v') :: t, k, v =>
    if k < k' then (if v = d then (k', v') :: t else (k, v) :: (k', v') :: t)
    else if k = k' then (if v = d then after k t else (k, v) :: t)
    else (k', v') :: put d t k v

/-- Change the value at key `k` by `f`. -/
def upd {α : Type} [DecidableEq α] (d : α) (t : Tbl α) (k : Nat) (f : α → α) : Tbl α :=
  put d t k (f (get d t k))

/-- Every key of `t` lies above `k`. -/
def above {α : Type} (k : Nat) : Tbl α → Bool
  | [] => true
  | (k', _) :: t => decide (k < k') && above k t

/-- The canonical form: keys strictly rising, no entry equal to the default. -/
def wf {α : Type} [DecidableEq α] (d : α) : Tbl α → Bool
  | [] => true
  | (k, v) :: t => decide (v ≠ d) && above k t && wf d t

/-- The listed keys. -/
def keys {α : Type} (t : Tbl α) : List Nat := t.map Prod.fst

/-- Remove the entries whose key lies in `[lo, lo + n)`. -/
def clear {α : Type} (lo n : Nat) : Tbl α → Tbl α
  | [] => []
  | (k, v) :: t => if lo ≤ k ∧ k < lo + n then clear lo n t else (k, v) :: clear lo n t

end Tbl

/-- A byte memory; `Host.Cell` pairs in canonical form. -/
abbrev Mem := Tbl Byte

namespace Mem

/-- The `n` bytes from address `a`, lowest address first. -/
def bytes (d : Byte) (m : Mem) (a : Nat) : Nat → List Byte
  | 0 => []
  | n + 1 => Tbl.get d m a :: bytes d m (a + 1) n

/-- Store a list of bytes from address `a`. -/
def store (d : Byte) (m : Mem) (a : Nat) : List Byte → Mem
  | [] => m
  | b :: bs => store d (Tbl.put d m a b) (a + 1) bs

/-- A little-endian integer of `n` bytes (R565). -/
def le (d : Byte) (m : Mem) (a : Nat) : Nat → Nat
  | 0 => 0
  | n + 1 => (Tbl.get d m a).toNat + 256 * le d m (a + 1) n

/-- The canonical form of a memory whose unlisted bytes read `d`. -/
abbrev wf (d : Byte) (m : Mem) : Prop := Tbl.wf d m = true

end Mem

/-- The `n` little-endian bytes of a number (R565). -/
def leBytes : Nat → Nat → List Byte
  | 0, _ => []
  | n + 1, v => BitVec.ofNat 8 v :: leBytes n (v / 256)

/-- The `n` big-endian bytes of a number (R172, R556). -/
def beBytes (n v : Nat) : List Byte := (leBytes n v).reverse

/-- The number whose little-endian bytes are given. -/
def leNat : List Byte → Nat
  | [] => 0
  | b :: bs => b.toNat + 256 * leNat bs

/-- The number whose big-endian bytes are given. -/
def beNat (bs : List Byte) : Nat := leNat bs.reverse

/-- Bits `hi` down to `lo` of a number. -/
def bits (v hi lo : Nat) : Nat := (v / 2 ^ lo) % 2 ^ (hi - lo + 1)

/-- One bit of a number. -/
def bit (v i : Nat) : Bool := (v / 2 ^ i) % 2 = 1

/-- 1 for true, 0 for false: how a flag reads in a register. -/
def b2n (b : Bool) : Nat := if b then 1 else 0

/-- Insert into a list that ascends by `le`. -/
def insertBy {α : Type} (le : α → α → Bool) (x : α) : List α → List α
  | [] => [x]
  | y :: l => if le x y then x :: y :: l else y :: insertBy le x l

/-- Sort by `le`, keeping the order of equals. -/
def sortBy {α : Type} (le : α → α → Bool) (l : List α) : List α := l.foldr (insertBy le) []

/-- Cut a byte list into pieces of `n` bytes; the last may be shorter. -/
def chunks (n : Nat) : Nat → List Byte → List (List Byte)
  | 0, _ => []
  | k + 1, bs => if bs.isEmpty then [] else bs.take n :: chunks n k (bs.drop n)

end Sys2Proof.Machine
end

