-- ==== Sys2Proof/Config.lean ====
section
/-! DEFINITION. What the spec takes from outside or leaves open, as constants without a body: the bytes of the CTR_DRBG
and of every other free source, and the functions of the standards of R207 and R234, which the spec names and does not
define.  No proof can see a value of theirs, so a claim holds whatever they are.  Values the ROM holds (two signer
hashes) are constants of the same kind. -/

namespace Sys2Proof.Config

/-- The seed of tamper loop `i` from the device serial and MRT (R491); the spec does not give the function. -/
opaque loopSeed : BitVec 128 → Nat → Nat → BitVec 16

/-- Byte `n` of the free source (R252: the CTR_DRBG's output; also every value the spec leaves open). -/
opaque freeByte : Nat → Byte

/-- Hardware updates a LIVE field in the very cycle of a core's write (R88): the order of commands cannot show it. -/
opaque liveClash : Nat → Bool

/-- The place of a cache entry under the permutation key of the epoch (R193): the rule names no permutation. -/
opaque cachePerm : BitVec 384 → Nat → Nat

/-- How many lane-H blocks the comparator queue holds (R232): the rule gives no figure. -/
opaque comparatorQueue : Nat

/-- FIPS 180-4 (R207). -/
opaque sha256 : List Byte → BitVec 256
opaque sha384 : List Byte → BitVec 384
opaque sha512 : List Byte → BitVec 512

/-- FIPS 198-1 (R207): key, message. -/
opaque hmac256 : List Byte → List Byte → BitVec 256
opaque hmac384 : List Byte → List Byte → BitVec 384
opaque hmac512 : List Byte → List Byte → BitVec 512

/-- Signature verification by algorithm code (R244: 1 P-256, 2 P-384, 3 ML-DSA-44, 4 ML-DSA-65): public key, message or
digest, context, signature. -/
opaque sigVerify : Nat → List Byte → List Byte → List Byte → List Byte → Bool

/-- Byte `i` of a signature: algorithm, private key, message or digest, context, drawn randomness (R247). -/
opaque sigByte : Nat → List Byte → List Byte → List Byte → List Byte → Nat → Byte

/-- Iterations of the ML-DSA rejection loop (R247). -/
opaque signLoops : Nat → List Byte → List Byte → List Byte → List Byte → Nat

/-- Byte `i` of the public key of a private key (R244, R245). -/
opaque pubByte : Nat → List Byte → Nat → Byte

/-- The peer point lies on P-384 and is not the point at infinity (R248). -/
opaque ecdhPointOk : List Byte → Bool

/-- The ECDH P-384 shared secret: private scalar, peer point (R248). -/
opaque ecdhSecret : List Byte → List Byte → BitVec 384

/-- Byte `i` of an AES-256 output (R239): mode (1 CBC, 2 CTR, 3 GCM), decryption, key, IV, input. -/
opaque aesByte : Nat → Bool → List Byte → List Byte → List Byte → Nat → Byte

/-- The 128-bit GCM tag: key, IV, associated data, ciphertext (R240). -/
opaque gcmTag : List Byte → List Byte → List Byte → List Byte → BitVec 128

/-- Byte `i` of a KW wrap under a KEK (R242). -/
opaque kwByte : List Byte → List Byte → Nat → Byte

/-- The KW integrity value checks (R242). -/
opaque kwOk : List Byte → List Byte → Bool

/-- Byte `i` of the plaintext of a KW unwrap (R242). -/
opaque kwPlainByte : List Byte → List Byte → Nat → Byte

/-- The test signer's key hash and that of Icaendi's provisioning signer, held in ROM (R100, R153). -/
opaque testSignerHash : BitVec 384
opaque provisioningSignerHash : BitVec 384

/-- The bytes of a 384-bit digest, most significant first (R556). -/
def bytes384 (d : BitVec 384) : List Byte := Machine.beBytes 48 d.toNat

/-- ECDSA P-384 over a SHA-384 digest (R234). -/
def ecdsaVerify (pub : List Byte) (d : BitVec 384) (sig : List Byte) : Bool := sigVerify 2 pub (bytes384 d) [] sig

/-- ML-DSA-65 over the message itself, with the empty context (R234, R244). -/
def mldsaVerify (pub msg sig : List Byte) : Bool := sigVerify 4 pub msg [] sig

end Sys2Proof.Config
end

