-- ==== Sys2Proof/Machine/Regs.lean ====
section
/-! DEFINITION. The register fields of every page of R98, each with its page, offset, low bit, width, kind (R70),
reset value, stated range (R8, R551) and the domain that holds it (R85, R98).  The tables are those of the block chapters;
a field whose reset column is a dash or names OTP, NVM or a decoded value is computed by Machine/View.lean instead. -/

namespace Sys2Proof.Machine

/-- The eight field kinds of R70. -/
inductive Kind where
  | cfg | cfd | cmd | w1c | cnt | live | sta | key
  deriving DecidableEq, Repr

/-- Where a field is held: CLK_SYS (lost at a device warm reset), CLK_SYS but cleared only by a power-on reset, a port's
SCK domain (R262), or the always-on domain. -/
inductive Dom where
  | clk | por | sck | aon
  deriving DecidableEq, Repr

/-- One register field of a page table. -/
structure Fld where
  page : Nat
  off : Nat
  lo : Nat
  width : Nat
  kind : Kind
  reset : Nat
  rmin : Nat
  rmax : Nat
  dom : Dom
  deriving DecidableEq, Repr

/-- The key of a field in a register store: page, extended offset and low bit. -/
def Fld.keyOf (f : Fld) : Nat := (f.page * 0x10000 + f.off) * 32 + f.lo

/-- A register of a page, or an array of them: entry `i` lies at `off + stride * i`. -/
structure RegDesc where
  off : Nat
  stride : Nat
  count : Nat
  flds : Nat → List Fld

namespace Reg

/-! The GLB page (chapter 03). -/
def GLB.STEPPING : Fld := ⟨0x0, 0x40, 0, 32, .sta, 176, 0, 4294967295, .clk⟩
def GLB.MODE : Fld := ⟨0x0, 0x44, 0, 3, .sta, 2, 0, 7, .clk⟩
def GLB.MODE_ATTACHED : Fld := ⟨0x0, 0x44, 4, 1, .sta, 0, 0, 1, .clk⟩
def GLB.MODE_DEV_RECOVERY : Fld := ⟨0x0, 0x44, 5, 1, .sta, 0, 0, 1, .clk⟩
def GLB.MODE_TIME_GAP : Fld := ⟨0x0, 0x44, 6, 1, .sta, 1, 0, 1, .clk⟩
def GLB.MODE_LAST_RESET : Fld := ⟨0x0, 0x44, 8, 4, .sta, 0, 0, 15, .clk⟩
def GLB.MODE_CMD_ATTACH : Fld := ⟨0x0, 0x48, 0, 1, .cmd, 0, 0, 1, .clk⟩
def GLB.MODE_CMD_SEAL : Fld := ⟨0x0, 0x48, 1, 1, .cmd, 0, 0, 1, .clk⟩
def GLB.MODE_CMD_SEAL_TO_SHELF : Fld := ⟨0x0, 0x48, 2, 1, .cmd, 0, 0, 1, .clk⟩
def GLB.WARM_COUNT : Fld := ⟨0x0, 0x4C, 0, 16, .cnt, 0, 0, 65535, .clk⟩
def GLB.UPDATE_STROBE : Fld := ⟨0x0, 0x50, 0, 8, .cmd, 0, 0, 255, .clk⟩
def GLB.STROBE_STATUS_BUSY : Fld := ⟨0x0, 0x54, 0, 1, .sta, 0, 0, 1, .clk⟩
def GLB.STROBE_STATUS_PENDING_GROUPS : Fld := ⟨0x0, 0x54, 8, 8, .sta, 0, 0, 255, .clk⟩
def GLB.STROBE_STATUS_REFUSED_GROUPS : Fld := ⟨0x0, 0x54, 16, 8, .sta, 0, 0, 255, .clk⟩
def GLB.STROBE_REASON : Fld := ⟨0x0, 0x58, 0, 16, .sta, 0, 0, 65535, .clk⟩
def GLB.STALL_LIMIT : Fld := ⟨0x0, 0x5C, 0, 10, .cfd, 20, 1, 1000, .clk⟩
def GLB.STROBE_LIMIT : Fld := ⟨0x0, 0x60, 0, 14, .cfd, 1000, 10, 10000, .clk⟩
def GLB.CRC_LIVE : Fld := ⟨0x0, 0x64, 0, 32, .sta, 0, 0, 4294967295, .clk⟩
def GLB.CRC_REF : Fld := ⟨0x0, 0x68, 0, 32, .sta, 0, 0, 4294967295, .clk⟩
def GLB.CRC_COMMIT : Fld := ⟨0x0, 0x6C, 0, 32, .cmd, 0, 0, 4294967295, .clk⟩
def GLB.CRC_CTRL : Fld := ⟨0x0, 0x70, 0, 2, .cfg, 0, 0, 2, .clk⟩
def GLB.CRC_GRACE : Fld := ⟨0x0, 0x74, 0, 10, .cfg, 10, 1, 1000, .clk⟩
def GLB.CRC_STATUS_ARMED : Fld := ⟨0x0, 0x78, 0, 1, .sta, 0, 0, 1, .clk⟩
def GLB.CRC_STATUS_GRACE_OPEN : Fld := ⟨0x0, 0x78, 1, 1, .sta, 0, 0, 1, .clk⟩
def GLB.CRC_STATUS_COMMIT_BUSY : Fld := ⟨0x0, 0x78, 2, 1, .sta, 0, 0, 1, .clk⟩
def GLB.CRC_MISMATCH_COUNT : Fld := ⟨0x0, 0x7C, 0, 16, .cnt, 0, 0, 65535, .clk⟩

/-! The LCS page (chapter 04). -/
def LCS.STATE : Fld := ⟨0x1, 0x40, 0, 4, .sta, 0, 0, 15, .clk⟩
def LCS.STATE_INTENT_OPEN : Fld := ⟨0x1, 0x40, 4, 1, .sta, 0, 0, 1, .clk⟩
def LCS.STATE_THERM_COUNT : Fld := ⟨0x1, 0x40, 8, 4, .sta, 0, 0, 15, .clk⟩
def LCS.STATE_THERM_VALID : Fld := ⟨0x1, 0x40, 12, 1, .sta, 0, 0, 1, .clk⟩
def LCS.STATE_CODEWORD_VALID : Fld := ⟨0x1, 0x40, 13, 1, .sta, 0, 0, 1, .clk⟩
def LCS.STATE_INTENT_TARGET : Fld := ⟨0x1, 0x40, 16, 4, .sta, 0, 0, 15, .clk⟩
def LCS.SERIAL (i : Nat) : Fld := ⟨0x1, 0x44 + 4 * i, 0, 32, .sta, 0, 0, 4294967295, .clk⟩
def LCS.ROOT_STATUS_FUSE_DONE : Fld := ⟨0x1, 0x54, 0, 1, .sta, 0, 0, 1, .clk⟩
def LCS.ROOT_STATUS_BORN_DONE : Fld := ⟨0x1, 0x54, 1, 1, .sta, 0, 0, 1, .clk⟩
def LCS.ROOT_STATUS_BORN_FAIL : Fld := ⟨0x1, 0x54, 2, 1, .sta, 0, 0, 1, .clk⟩
def LCS.ROOT_STATUS_ROOT_TEST : Fld := ⟨0x1, 0x54, 3, 1, .sta, 0, 0, 1, .clk⟩
def LCS.ROOT_STATUS_ROOT_WITHHELD : Fld := ⟨0x1, 0x54, 4, 1, .sta, 0, 0, 1, .clk⟩
def LCS.BOOT_COUNT : Fld := ⟨0x1, 0x58, 0, 32, .sta, 0, 0, 4294967295, .clk⟩
def LCS.TRANSITION_CMD_OP : Fld := ⟨0x1, 0x5C, 0, 2, .cmd, 0, 0, 3, .clk⟩
def LCS.TRANSITION_CMD_ADDR : Fld := ⟨0x1, 0x5C, 4, 28, .cmd, 0, 0, 268435455, .clk⟩
def LCS.TRANSITION_STATUS_BUSY : Fld := ⟨0x1, 0x60, 0, 1, .sta, 0, 0, 1, .clk⟩
def LCS.TRANSITION_STATUS_DEFERRED : Fld := ⟨0x1, 0x60, 1, 1, .sta, 0, 0, 1, .clk⟩
def LCS.TRANSITION_STATUS_STEP : Fld := ⟨0x1, 0x60, 4, 3, .sta, 0, 0, 7, .clk⟩
def LCS.INTENT_DIGEST (i : Nat) : Fld := ⟨0x1, 0x64 + 4 * i, 0, 32, .sta, 0, 0, 4294967295, .clk⟩

/-! The DBG page (chapter 04). -/
def DBG.DBG_STATE_OPEN : Fld := ⟨0x2, 0x40, 0, 1, .sta, 0, 0, 1, .por⟩
def DBG.DBG_STATE_ROOT_TEST : Fld := ⟨0x2, 0x40, 1, 1, .sta, 0, 0, 1, .por⟩
def DBG.DBG_STATE_GRANT_ACTIVE : Fld := ⟨0x2, 0x40, 2, 1, .sta, 0, 0, 1, .por⟩
def DBG.DBG_STATE_LEDGER_STOPPED : Fld := ⟨0x2, 0x40, 3, 1, .sta, 0, 0, 1, .por⟩
def DBG.RIGHTS_ACTIVE : Fld := ⟨0x2, 0x44, 0, 32, .sta, 0, 0, 4294967295, .por⟩
def DBG.GRANT_CMD_OP : Fld := ⟨0x2, 0x48, 0, 2, .cmd, 0, 0, 3, .clk⟩
def DBG.GRANT_CMD_ADDR : Fld := ⟨0x2, 0x48, 4, 28, .cmd, 0, 0, 268435455, .clk⟩
def DBG.GRANT_STATUS_BUSY : Fld := ⟨0x2, 0x4C, 0, 1, .sta, 0, 0, 1, .clk⟩
def DBG.GRANT_STATUS_CHALLENGE_VALID : Fld := ⟨0x2, 0x4C, 1, 1, .sta, 0, 0, 1, .clk⟩
def DBG.CHALLENGE (i : Nat) : Fld := ⟨0x2, 0x50 + 4 * i, 0, 32, .sta, 0, 0, 4294967295, .clk⟩
def DBG.GRANT_DIGEST (i : Nat) : Fld := ⟨0x2, 0x60 + 4 * i, 0, 32, .sta, 0, 0, 4294967295, .clk⟩

/-! The BOOT page (chapter 05). -/
def BOOT.BOOT_STATUS_SOURCE : Fld := ⟨0x3, 0x40, 0, 3, .sta, 0, 0, 7, .clk⟩
def BOOT.BOOT_STATUS_SLOT : Fld := ⟨0x3, 0x40, 3, 1, .sta, 0, 0, 1, .clk⟩
def BOOT.BOOT_STATUS_AWAIT : Fld := ⟨0x3, 0x40, 4, 1, .sta, 0, 0, 1, .clk⟩
def BOOT.BOOT_STATUS_FATAL : Fld := ⟨0x3, 0x40, 5, 1, .sta, 0, 0, 1, .clk⟩
def BOOT.BOOT_STATUS_FB_SLOW : Fld := ⟨0x3, 0x40, 6, 1, .sta, 0, 0, 1, .clk⟩
def BOOT.BOOT_STATUS_ROOT_WITHHELD : Fld := ⟨0x3, 0x40, 7, 1, .sta, 0, 0, 1, .clk⟩
def BOOT.BOOT_STATUS_RULE_BOTH : Fld := ⟨0x3, 0x40, 8, 1, .sta, 0, 0, 1, .clk⟩
def BOOT.BOOT_STATUS_ECDSA_OK : Fld := ⟨0x3, 0x40, 9, 1, .sta, 0, 0, 1, .clk⟩
def BOOT.BOOT_STATUS_MLDSA_OK : Fld := ⟨0x3, 0x40, 10, 1, .sta, 0, 0, 1, .clk⟩
def BOOT.ORDER_USED_ORDER : Fld := ⟨0x3, 0x44, 0, 15, .sta, 0, 0, 32767, .clk⟩
def BOOT.ORDER_USED_FROM_STRAPS : Fld := ⟨0x3, 0x44, 16, 1, .sta, 0, 0, 1, .clk⟩
def BOOT.ORDER_USED_STRAPS : Fld := ⟨0x3, 0x44, 20, 3, .sta, 0, 0, 7, .por⟩
def BOOT.SEQUENCE : Fld := ⟨0x3, 0x48, 0, 32, .sta, 0, 0, 4294967295, .clk⟩
def BOOT.IMAGE_INFO_SVN : Fld := ⟨0x3, 0x4C, 0, 8, .sta, 0, 0, 255, .clk⟩
def BOOT.IMAGE_INFO_CORE_MASK : Fld := ⟨0x3, 0x4C, 8, 4, .sta, 0, 0, 15, .clk⟩
def BOOT.ATTEMPT_CODE (i : Nat) : Fld := ⟨0x3, 0x50 + 4 * i, 0, 16, .sta, 0, 0, 65535, .clk⟩
def BOOT.ATTEMPT_SOURCE (i : Nat) : Fld := ⟨0x3, 0x50 + 4 * i, 16, 3, .sta, 0, 0, 7, .clk⟩
def BOOT.ATTEMPT_SLOT (i : Nat) : Fld := ⟨0x3, 0x50 + 4 * i, 19, 1, .sta, 0, 0, 1, .clk⟩
def BOOT.MEASUREMENT (i : Nat) : Fld := ⟨0x3, 0x70 + 4 * i, 0, 32, .sta, 0, 0, 4294967295, .clk⟩
def BOOT.ROM_LOCK : Fld := ⟨0x3, 0xA0, 0, 1, .sta, 0, 0, 1, .clk⟩
def BOOT.HANDOVER_CMD : Fld := ⟨0x3, 0xA4, 0, 1, .cmd, 0, 0, 1, .clk⟩
def BOOT.BOOT_TIME : Fld := ⟨0x3, 0xA8, 0, 24, .sta, 0, 0, 16777215, .clk⟩
def BOOT.OTP_CMD_OP : Fld := ⟨0x3, 0xAC, 0, 2, .cmd, 0, 0, 3, .clk⟩
def BOOT.OTP_CMD_ADDR : Fld := ⟨0x3, 0xAC, 4, 28, .cmd, 0, 0, 268435455, .clk⟩
def BOOT.OTP_STATUS_ORDER_LOCKED : Fld := ⟨0x3, 0xB0, 0, 1, .sta, 0, 0, 1, .clk⟩
def BOOT.OTP_STATUS_HASH_SET : Fld := ⟨0x3, 0xB0, 1, 2, .sta, 0, 0, 3, .clk⟩
def BOOT.OTP_STATUS_REVOKED : Fld := ⟨0x3, 0xB0, 3, 2, .sta, 0, 0, 3, .clk⟩
def BOOT.OTP_STATUS_SIG_EITHER : Fld := ⟨0x3, 0xB0, 5, 1, .sta, 0, 0, 1, .clk⟩
def BOOT.OTP_STATUS_PUSH_WINDOW : Fld := ⟨0x3, 0xB0, 8, 8, .sta, 0, 0, 255, .clk⟩

/-! The CORE page (chapter 05). -/
def CORE.CORE_STATUS_STATE (i : Nat) : Fld := ⟨0x4, 0x40 + 4 * i, 0, 3, .sta, 1, 0, 7, .clk⟩
def CORE.CORE_STATUS_LOCKSTEP_OK (i : Nat) : Fld := ⟨0x4, 0x40 + 4 * i, 8, 1, .sta, 0, 0, 1, .clk⟩
def CORE.CORE_STATUS_MBIST_OK (i : Nat) : Fld := ⟨0x4, 0x40 + 4 * i, 9, 1, .sta, 0, 0, 1, .clk⟩
def CORE.DOORBELL_RING (i : Nat) : Fld := ⟨0x4, 0x50 + 4 * i, 0, 1, .cmd, 0, 0, 1, .clk⟩
def CORE.DOORBELL_ENTRY (i : Nat) : Fld := ⟨0x4, 0x50 + 4 * i, 1, 31, .cmd, 0, 0, 2147483647, .clk⟩
def CORE.WDT_PERIOD : Fld := ⟨0x4, 0x60, 0, 14, .cfd, 0, 0, 10000, .clk⟩
def CORE.WDT_KICK : Fld := ⟨0x4, 0x64, 0, 1, .cmd, 0, 0, 1, .clk⟩
def CORE.FAULT_CMD : Fld := ⟨0x4, 0x68, 0, 1, .cmd, 0, 0, 1, .clk⟩

/-! The PWR page (chapter 16). -/
def PWR.STATUS_BRACE : Fld := ⟨0x5, 0x40, 0, 1, .sta, 0, 0, 1, .aon⟩
def PWR.STATUS_CORE_WARN : Fld := ⟨0x5, 0x40, 1, 1, .sta, 0, 0, 1, .aon⟩
def PWR.STATUS_AON_WARN : Fld := ⟨0x5, 0x40, 2, 1, .sta, 0, 0, 1, .aon⟩
def PWR.STATUS_PWR_WARN : Fld := ⟨0x5, 0x40, 3, 1, .sta, 0, 0, 1, .aon⟩
def PWR.STATUS_BRACE_LONG : Fld := ⟨0x5, 0x40, 4, 1, .sta, 0, 0, 1, .aon⟩
def PWR.BROWNOUT_RIDE : Fld := ⟨0x5, 0x44, 0, 16, .cnt, 0, 0, 65535, .aon⟩
def PWR.BRACE_COUNT : Fld := ⟨0x5, 0x48, 0, 16, .cnt, 0, 0, 65535, .aon⟩
def PWR.BRACE_MAX_SEEN : Fld := ⟨0x5, 0x4C, 0, 20, .live, 0, 0, 1048575, .aon⟩
def PWR.BRACE_LONG_MS : Fld := ⟨0x5, 0x50, 0, 10, .cfg, 200, 10, 1000, .clk⟩
def PWR.GLITCH_CTRL : Fld := ⟨0x5, 0x54, 0, 1, .cfg, 0, 0, 1, .clk⟩
def PWR.GLITCH_COUNT : Fld := ⟨0x5, 0x58, 0, 16, .cnt, 0, 0, 65535, .aon⟩
def PWR.GLITCH_LAST : Fld := ⟨0x5, 0x5C, 0, 2, .sta, 0, 0, 3, .aon⟩
def PWR.CMD : Fld := ⟨0x5, 0x60, 0, 1, .cmd, 0, 0, 1, .clk⟩
def PWR.FUSE_STATUS : Fld := ⟨0x5, 0x64, 0, 1, .sta, 0, 0, 1, .clk⟩

/-! The EVT page (chapter 03). -/
def EVT.ROUTE_LINE (i : Nat) : Fld := ⟨0x6, 0x40 + 4 * i, 0, 6, .cfg, 0, 0, 63, .clk⟩
def EVT.ROUTE_PIN_EN (i : Nat) : Fld := ⟨0x6, 0x40 + 4 * i, 8, 1, .cfg, 0, 0, 1, .clk⟩
def EVT.LINE_PEND (i : Nat) : Fld := ⟨0x6, 0x108 + 4 * i, 0, 32, .sta, 0, 0, 4294967295, .clk⟩
def EVT.CORE_ENABLE (i : Nat) : Fld := ⟨0x6, 0x120 + 4 * i, 0, 32, .cfd, 0, 0, 4294967295, .clk⟩
def EVT.PIN_STATUS : Fld := ⟨0x6, 0x140, 0, 1, .sta, 0, 0, 1, .clk⟩

/-! The MGP page (chapter 13). -/
def MGP.CONFIG_PROTOCOL : Fld := ⟨0x7, 0x40, 0, 1, .cfg, 0, 0, 1, .sck⟩
def MGP.CONFIG_MAX_SCK : Fld := ⟨0x7, 0x40, 8, 6, .cfg, 50, 1, 50, .sck⟩
def MGP.STATUS_OWNER : Fld := ⟨0x7, 0x44, 0, 1, .sta, 0, 0, 1, .sck⟩
def MGP.STATUS_SUBMITTED : Fld := ⟨0x7, 0x44, 1, 1, .sta, 0, 0, 1, .clk⟩
def MGP.STATUS_RESET_SEEN : Fld := ⟨0x7, 0x44, 2, 1, .sta, 0, 0, 1, .sck⟩
def MGP.STATUS_INT_PENDING : Fld := ⟨0x7, 0x44, 3, 1, .sta, 0, 0, 1, .sck⟩
def MGP.MSG_INFO_CODE : Fld := ⟨0x7, 0x48, 0, 8, .sta, 0, 0, 255, .clk⟩
def MGP.MSG_INFO_FLAGS : Fld := ⟨0x7, 0x48, 8, 8, .sta, 0, 0, 255, .clk⟩
def MGP.MSG_INFO_LENGTH : Fld := ⟨0x7, 0x48, 16, 13, .sta, 0, 0, 8191, .clk⟩
def MGP.CMD_OP : Fld := ⟨0x7, 0x4C, 0, 2, .cmd, 0, 0, 3, .clk⟩
def MGP.CMD_ADDR : Fld := ⟨0x7, 0x4C, 4, 28, .cmd, 0, 0, 268435455, .clk⟩
def MGP.MSG_COUNT : Fld := ⟨0x7, 0x50, 0, 32, .cnt, 0, 0, 4294967295, .clk⟩
def MGP.CRC_ERR_COUNT : Fld := ⟨0x7, 0x54, 0, 32, .cnt, 0, 0, 4294967295, .clk⟩
def MGP.HW_MSG_COUNT : Fld := ⟨0x7, 0x58, 0, 32, .cnt, 0, 0, 4294967295, .clk⟩
def MGP.PAGE_READ_COUNT : Fld := ⟨0x7, 0x5C, 0, 32, .cnt, 0, 0, 4294967295, .clk⟩

/-! The HFP pages (chapter 09). -/
def HFP.PROFILE_PROTOCOL (n : Nat) : Fld := ⟨0x8 + n, 0x40, 0, 2, .cfg, 0, 0, 3, .sck⟩
def HFP.PROFILE_STALL (n : Nat) : Fld := ⟨0x8 + n, 0x40, 4, 2, .cfg, 0, 0, 2, .sck⟩
def HFP.PROFILE_MAX_SCK (n : Nat) : Fld := ⟨0x8 + n, 0x40, 8, 8, .cfg, 50, 1, 200, .sck⟩
def HFP.PROFILE_DUMMY (n : Nat) : Fld := ⟨0x8 + n, 0x40, 16, 5, .cfg, 8, 3, 31, .sck⟩
def HFP.PROFILE_ADDR_WIDE (n : Nat) : Fld := ⟨0x8 + n, 0x40, 24, 1, .cfg, 0, 0, 1, .sck⟩
def HFP.PROFILE_CMD_EXT (n : Nat) : Fld := ⟨0x8 + n, 0x40, 25, 1, .cfg, 0, 0, 1, .sck⟩
def HFP.DS_HOLD (n : Nat) : Fld := ⟨0x8 + n, 0x44, 0, 13, .cfg, 1200, 64, 8191, .sck⟩
def HFP.FILL (n : Nat) : Fld := ⟨0x8 + n, 0x48, 0, 8, .cfg, 255, 0, 255, .sck⟩
def HFP.CS_BASE (n i : Nat) : Fld := ⟨0x8 + n, 0x4C + 8 * i, 0, 18, .cfg, 0, 0, 262143, .sck⟩
def HFP.CS_SIZE (n i : Nat) : Fld := ⟨0x8 + n, 0x50 + 8 * i, 0, 19, .cfg, 0, 0, 262144, .sck⟩
def HFP.PORT_STATUS_OWNS_PINS (n : Nat) : Fld := ⟨0x8 + n, 0x60, 0, 1, .sta, 1, 0, 1, .sck⟩
def HFP.PORT_STATUS_INTEGRITY_FAIL (n : Nat) : Fld := ⟨0x8 + n, 0x60, 1, 1, .sta, 0, 0, 1, .sck⟩
def HFP.PORT_STATUS_PARKED (n : Nat) : Fld := ⟨0x8 + n, 0x60, 2, 1, .sta, 1, 0, 1, .sck⟩
def HFP.TXN_COUNT (n : Nat) : Fld := ⟨0x8 + n, 0x64, 0, 32, .cnt, 0, 0, 4294967295, .sck⟩
def HFP.DENY_COUNT (n : Nat) : Fld := ⟨0x8 + n, 0x68, 0, 32, .cnt, 0, 0, 4294967295, .sck⟩
def HFP.STALL_COUNT (n : Nat) : Fld := ⟨0x8 + n, 0x6C, 0, 32, .cnt, 0, 0, 4294967295, .sck⟩
def HFP.STALL_MAX_SEEN (n : Nat) : Fld := ⟨0x8 + n, 0x70, 0, 13, .live, 0, 0, 8191, .sck⟩
def HFP.HOLD_EXPIRED_COUNT (n : Nat) : Fld := ⟨0x8 + n, 0x74, 0, 16, .cnt, 0, 0, 65535, .sck⟩
def HFP.OWNERSHIP_DENY_COUNT (n : Nat) : Fld := ⟨0x8 + n, 0x78, 0, 16, .cnt, 0, 0, 65535, .sck⟩
def HFP.GUARD_EARLY_COUNT (n : Nat) : Fld := ⟨0x8 + n, 0x7C, 0, 16, .cnt, 0, 0, 65535, .sck⟩
def HFP.WBUF_OVERFLOW_COUNT (n : Nat) : Fld := ⟨0x8 + n, 0x80, 0, 16, .cnt, 0, 0, 65535, .sck⟩
def HFP.RETAINED_CRC (n : Nat) : Fld := ⟨0x8 + n, 0x84, 0, 32, .sta, 0, 0, 4294967295, .sck⟩

/-! The POL pages (chapter 10). -/
def POL.WINDOW_BASE (n : Nat) : Fld := ⟨0xE + n, 0x40, 0, 2, .cfd, 0, 0, 3, .clk⟩
def POL.STEER_EN (n : Nat) : Fld := ⟨0xE + n, 0x44, 0, 1, .cfg, 0, 0, 1, .sck⟩
def POL.STEER_CS (n : Nat) : Fld := ⟨0xE + n, 0x44, 1, 1, .cfg, 0, 0, 1, .sck⟩
def POL.STEER_SLOT_LOG2 (n : Nat) : Fld := ⟨0xE + n, 0x44, 8, 5, .cfg, 12, 12, 29, .sck⟩
def POL.STEER_BASE (n : Nat) : Fld := ⟨0xE + n, 0x48, 0, 18, .cfg, 0, 0, 262143, .sck⟩
def POL.IMAGE_OFFSET (n : Nat) : Fld := ⟨0xE + n, 0x4C, 0, 17, .cfg, 2, 0, 131071, .sck⟩
def POL.UNADDR (n : Nat) : Fld := ⟨0xE + n, 0x50, 1, 5, .cfg, 0, 0, 31, .sck⟩
def POL.STATUS_EMU_STATUS_OPCODE (n : Nat) : Fld := ⟨0xE + n, 0x54, 0, 8, .cfg, 0, 0, 255, .sck⟩
def POL.STATUS_EMU_FLAG_OPCODE (n : Nat) : Fld := ⟨0xE + n, 0x54, 8, 8, .cfg, 0, 0, 255, .sck⟩
def POL.STATUS_EMU_WREN_OPCODE (n : Nat) : Fld := ⟨0xE + n, 0x54, 16, 8, .cfg, 0, 0, 255, .sck⟩
def POL.STATUS_EMU_CLEAR_OPCODE (n : Nat) : Fld := ⟨0xE + n, 0x54, 24, 8, .cfg, 0, 0, 255, .sck⟩
def POL.STATUS_BITS_WIP_BIT (n : Nat) : Fld := ⟨0xE + n, 0x58, 0, 3, .cfg, 0, 0, 7, .sck⟩
def POL.STATUS_BITS_WEL_BIT (n : Nat) : Fld := ⟨0xE + n, 0x58, 4, 3, .cfg, 1, 0, 7, .sck⟩
def POL.STATUS_BITS_PFAIL_BIT (n : Nat) : Fld := ⟨0xE + n, 0x58, 8, 3, .cfg, 4, 0, 7, .sck⟩
def POL.STATUS_BITS_EFAIL_BIT (n : Nat) : Fld := ⟨0xE + n, 0x58, 12, 3, .cfg, 5, 0, 7, .sck⟩
def POL.STATUS_BITS_FAIL_REG (n : Nat) : Fld := ⟨0xE + n, 0x58, 16, 1, .cfg, 1, 0, 1, .sck⟩
def POL.STATUS_BITS_EMU_EN (n : Nat) : Fld := ⟨0xE + n, 0x58, 20, 1, .cfg, 0, 0, 1, .sck⟩
def POL.EMU_PROGRAM (n : Nat) : Fld := ⟨0xE + n, 0x5C, 0, 20, .cfg, 0x11170, 1, 1048575, .sck⟩
def POL.EMU_ERASE (n : Nat) : Fld := ⟨0xE + n, 0x60, 0, 28, .cfg, 0x2625A00, 1, 268435455, .sck⟩
def POL.STAGE_CTRL_OP (n : Nat) : Fld := ⟨0xE + n, 0x64, 0, 3, .cmd, 0, 0, 7, .clk⟩
def POL.STAGE_CTRL_ADDR (n : Nat) : Fld := ⟨0xE + n, 0x64, 4, 28, .cmd, 0, 0, 268435455, .clk⟩
def POL.STAGE_STATE_STATE (n : Nat) : Fld := ⟨0xE + n, 0x68, 0, 3, .sta, 0, 0, 7, .clk⟩
def POL.STAGE_STATE_SLOT (n : Nat) : Fld := ⟨0xE + n, 0x68, 4, 1, .sta, 0, 0, 1, .clk⟩
def POL.STAGE_STATE_LATCH (n : Nat) : Fld := ⟨0xE + n, 0x68, 5, 1, .sta, 0, 0, 1, .sck⟩
def POL.STAGE_SEQ (n : Nat) : Fld := ⟨0xE + n, 0x6C, 0, 32, .sta, 0, 0, 4294967295, .clk⟩
def POL.STEER_STATUS (n : Nat) : Fld := ⟨0xE + n, 0x70, 0, 1, .sta, 0, 0, 1, .sck⟩
def POL.LAST_DENY_ADDR (n : Nat) : Fld := ⟨0xE + n, 0x74, 0, 30, .sta, 0, 0, 1073741823, .sck⟩
def POL.LAST_DENY_OP_OPCODE (n : Nat) : Fld := ⟨0xE + n, 0x78, 0, 8, .sta, 0, 0, 255, .sck⟩
def POL.LAST_DENY_OP_CLASS (n : Nat) : Fld := ⟨0xE + n, 0x78, 8, 3, .sta, 0, 0, 7, .sck⟩
def POL.LAST_DENY_OP_ACTION (n : Nat) : Fld := ⟨0xE + n, 0x78, 12, 1, .sta, 0, 0, 1, .sck⟩
def POL.READ_DENY_COUNT (n : Nat) : Fld := ⟨0xE + n, 0x7C, 0, 32, .cnt, 0, 0, 4294967295, .sck⟩
def POL.ABSORB_COUNT (n : Nat) : Fld := ⟨0xE + n, 0x80, 0, 32, .cnt, 0, 0, 4294967295, .sck⟩
def POL.MIXED_COUNT (n : Nat) : Fld := ⟨0xE + n, 0x84, 0, 32, .cnt, 0, 0, 4294967295, .sck⟩
def POL.LOG_DROPPED (n : Nat) : Fld := ⟨0xE + n, 0x88, 0, 16, .cnt, 0, 0, 65535, .clk⟩
def POL.RETAINED_CRC (n : Nat) : Fld := ⟨0xE + n, 0x8C, 0, 32, .sta, 0, 0, 4294967295, .sck⟩
def POL.OPCODE_CLASS (q i : Nat) : Fld := ⟨0xE + q, 0x100 + 4 * (i / 4), 8 * (i % 4) + 0, 3, .cfg, 0, 0, 5, .sck⟩
def POL.OPCODE_ADDR (q i : Nat) : Fld := ⟨0xE + q, 0x100 + 4 * (i / 4), 8 * (i % 4) + 3, 1, .cfg, 0, 0, 1, .sck⟩
def POL.OPCODE_ESIZE (q i : Nat) : Fld := ⟨0xE + q, 0x100 + 4 * (i / 4), 8 * (i % 4) + 4, 3, .cfg, 0, 0, 4, .sck⟩
def POL.REGION_BASE (n i : Nat) : Fld := ⟨0xE + n, 0x4000 + 16 * i, 0, 18, .cfg, 0, 0, 262143, .sck⟩
def POL.REGION_SIZE (n i : Nat) : Fld := ⟨0xE + n, 0x4004 + 16 * i, 0, 19, .cfg, 0, 0, 262144, .sck⟩
def POL.REGION_ATTR_CLASSES (n i : Nat) : Fld := ⟨0xE + n, 0x4008 + 16 * i, 0, 4, .cfg, 0, 0, 15, .sck⟩
def POL.REGION_ATTR_ESCORT (n i : Nat) : Fld := ⟨0xE + n, 0x4008 + 16 * i, 8, 1, .cfg, 0, 0, 1, .sck⟩
def POL.REGION_ATTR_STAGING (n i : Nat) : Fld := ⟨0xE + n, 0x4008 + 16 * i, 9, 1, .cfg, 0, 0, 1, .sck⟩
def POL.REGION_ATTR_STEER (n i : Nat) : Fld := ⟨0xE + n, 0x4008 + 16 * i, 10, 1, .cfg, 0, 0, 1, .sck⟩

/-! The FCH pages (chapter 12). -/
def FCH.PROFILE_PROTOCOL (n : Nat) : Fld := ⟨0x14 + n, 0x40, 0, 2, .cfg, 0, 0, 3, .clk⟩
def FCH.PROFILE_ADDR_WIDE (n : Nat) : Fld := ⟨0x14 + n, 0x40, 4, 1, .cfg, 0, 0, 1, .clk⟩
def FCH.PROFILE_SCK_MHZ (n : Nat) : Fld := ⟨0x14 + n, 0x40, 8, 8, .cfg, 50, 1, 200, .clk⟩
def FCH.PROFILE_DUMMY (n : Nat) : Fld := ⟨0x14 + n, 0x40, 16, 5, .cfg, 8, 3, 31, .clk⟩
def FCH.TIMING_T_DESELECT (n : Nat) : Fld := ⟨0x14 + n, 0x44, 0, 8, .cfg, 20, 10, 255, .clk⟩
def FCH.TIMING_STROBE_WAIT (n : Nat) : Fld := ⟨0x14 + n, 0x44, 8, 7, .cfg, 16, 4, 64, .clk⟩
def FCH.TIMING_PAGE_LOG2 (n : Nat) : Fld := ⟨0x14 + n, 0x44, 16, 4, .cfg, 8, 8, 9, .clk⟩
def FCH.TIMING_ERASE_LOG2 (n : Nat) : Fld := ⟨0x14 + n, 0x44, 24, 5, .cfg, 16, 12, 18, .clk⟩
def FCH.T_PP_MAX (n : Nat) : Fld := ⟨0x14 + n, 0x48, 0, 14, .cfg, 600, 10, 10000, .clk⟩
def FCH.T_ERASE_MAX (n : Nat) : Fld := ⟨0x14 + n, 0x4C, 0, 12, .cfg, 1000, 1, 4000, .clk⟩
def FCH.OPCODES_A_READ_OP (n : Nat) : Fld := ⟨0x14 + n, 0x50, 0, 8, .cfg, 0, 0, 255, .clk⟩
def FCH.OPCODES_A_PP_OP (n : Nat) : Fld := ⟨0x14 + n, 0x50, 8, 8, .cfg, 0, 0, 255, .clk⟩
def FCH.OPCODES_A_ERASE_OP (n : Nat) : Fld := ⟨0x14 + n, 0x50, 16, 8, .cfg, 0, 0, 255, .clk⟩
def FCH.OPCODES_A_WREN_OP (n : Nat) : Fld := ⟨0x14 + n, 0x50, 24, 8, .cfg, 0, 0, 255, .clk⟩
def FCH.OPCODES_B_RDSR_OP (n : Nat) : Fld := ⟨0x14 + n, 0x54, 0, 8, .cfg, 0, 0, 255, .clk⟩
def FCH.OPCODES_B_SUSPEND_OP (n : Nat) : Fld := ⟨0x14 + n, 0x54, 8, 8, .cfg, 0, 0, 255, .clk⟩
def FCH.OPCODES_B_RESUME_OP (n : Nat) : Fld := ⟨0x14 + n, 0x54, 16, 8, .cfg, 0, 0, 255, .clk⟩
def FCH.OPCODES_B_WIP_BIT (n : Nat) : Fld := ⟨0x14 + n, 0x54, 24, 3, .cfg, 0, 0, 7, .clk⟩
def FCH.SHARING_MODE (n : Nat) : Fld := ⟨0x14 + n, 0x58, 0, 2, .cfg, 0, 0, 2, .clk⟩
def FCH.SHARING_LEASE_MIN (n : Nat) : Fld := ⟨0x14 + n, 0x58, 8, 7, .cfg, 0, 0, 100, .clk⟩
def FCH.K0_RES (n : Nat) : Fld := ⟨0x14 + n, 0x5C, 0, 7, .cfg, 0, 0, 90, .clk⟩
def FCH.RES_READ (n i : Nat) : Fld := ⟨0x14 + n, 0x60 + 4 * i, 0, 13, .cfg, 0, 0, 8191, .clk⟩
def FCH.RES_PROG (n i : Nat) : Fld := ⟨0x14 + n, 0x74 + 4 * i, 0, 16, .cfg, 0, 0, 65535, .clk⟩
def FCH.D_READ (n : Nat) : Fld := ⟨0x14 + n, 0x88, 0, 13, .sta, 0, 0, 8191, .clk⟩
def FCH.D_PROG (n : Nat) : Fld := ⟨0x14 + n, 0x8C, 0, 16, .sta, 0, 0, 65535, .clk⟩
def FCH.T1K (n : Nat) : Fld := ⟨0x14 + n, 0x90, 0, 20, .sta, 0, 0, 1048575, .clk⟩
def FCH.UTIL (n : Nat) : Fld := ⟨0x14 + n, 0x94, 0, 10, .sta, 0, 0, 1023, .clk⟩
def FCH.QUANTUM_K2 (n : Nat) : Fld := ⟨0x14 + n, 0x98, 0, 8, .sta, 1, 0, 255, .clk⟩
def FCH.QUANTUM_K3 (n : Nat) : Fld := ⟨0x14 + n, 0x98, 8, 8, .sta, 1, 0, 255, .clk⟩
def FCH.QUANTUM_K4 (n : Nat) : Fld := ⟨0x14 + n, 0x98, 16, 8, .sta, 1, 0, 255, .clk⟩
def FCH.QUANTUM_K5 (n : Nat) : Fld := ⟨0x14 + n, 0x98, 24, 8, .sta, 1, 0, 255, .clk⟩
def FCH.CMD_OP (n : Nat) : Fld := ⟨0x14 + n, 0x9C, 0, 3, .cmd, 0, 0, 7, .clk⟩
def FCH.CMD_ADDR (n : Nat) : Fld := ⟨0x14 + n, 0x9C, 4, 28, .cmd, 0, 0, 268435455, .clk⟩
def FCH.STATUS_BUSY (n : Nat) : Fld := ⟨0x14 + n, 0xA0, 0, 1, .sta, 0, 0, 1, .clk⟩
def FCH.STATUS_OWNER (n : Nat) : Fld := ⟨0x14 + n, 0xA0, 1, 1, .sta, 0, 0, 1, .sck⟩
def FCH.STATUS_LEASE_ACTIVE (n : Nat) : Fld := ⟨0x14 + n, 0xA0, 2, 1, .sta, 0, 0, 1, .clk⟩
def FCH.STATUS_SUSPENDED (n : Nat) : Fld := ⟨0x14 + n, 0xA0, 3, 1, .sta, 0, 0, 1, .clk⟩
def FCH.STATUS_INIT_DONE (n : Nat) : Fld := ⟨0x14 + n, 0xA0, 4, 1, .sta, 0, 0, 1, .por⟩
def FCH.STATUS_INIT_PROTOCOL (n : Nat) : Fld := ⟨0x14 + n, 0xA0, 5, 2, .sta, 0, 0, 3, .por⟩
def FCH.STATUS_INIT_ADDR_WIDE (n : Nat) : Fld := ⟨0x14 + n, 0xA0, 7, 1, .sta, 0, 0, 1, .por⟩
def FCH.STATUS_INIT_DUMMY (n : Nat) : Fld := ⟨0x14 + n, 0xA0, 8, 5, .sta, 8, 0, 31, .por⟩
def FCH.RETRY_COUNT (n : Nat) : Fld := ⟨0x14 + n, 0xA4, 0, 32, .cnt, 0, 0, 4294967295, .clk⟩
def FCH.READ_FAIL_COUNT (n : Nat) : Fld := ⟨0x14 + n, 0xA8, 0, 16, .cnt, 0, 0, 65535, .clk⟩
def FCH.YIELD_COUNT (n : Nat) : Fld := ⟨0x14 + n, 0xAC, 0, 32, .cnt, 0, 0, 4294967295, .clk⟩
def FCH.ERASE_SUSPEND_COUNT (n : Nat) : Fld := ⟨0x14 + n, 0xB0, 0, 16, .cnt, 0, 0, 65535, .clk⟩

/-! The XBR page (chapter 12). -/
def XBR.AGE_LIMIT : Fld := ⟨0x1C, 0x40, 0, 17, .cfg, 2000, 100, 100000, .clk⟩
def XBR.SHORT_WINDOW : Fld := ⟨0x1C, 0x44, 0, 10, .cfg, 100, 10, 1000, .clk⟩
def XBR.DROP_LIMIT_3 : Fld := ⟨0x1C, 0x48, 0, 16, .cfg, 500, 10, 60000, .clk⟩
def XBR.DROP_LIMIT_4 : Fld := ⟨0x1C, 0x4C, 0, 16, .cfg, 2000, 10, 60000, .clk⟩
def XBR.DROP_LIMIT_5 : Fld := ⟨0x1C, 0x50, 0, 16, .cfg, 5000, 10, 60000, .clk⟩
def XBR.SHARE_K2 (i : Nat) : Fld := ⟨0x1C, 0x60 + 4 * i, 0, 8, .cfg, 0, 0, 255, .clk⟩
def XBR.SHARE_K3 (i : Nat) : Fld := ⟨0x1C, 0x60 + 4 * i, 8, 8, .cfg, 0, 0, 255, .clk⟩
def XBR.SHARE_K4 (i : Nat) : Fld := ⟨0x1C, 0x60 + 4 * i, 16, 8, .cfg, 0, 0, 255, .clk⟩
def XBR.SHARE_K5 (i : Nat) : Fld := ⟨0x1C, 0x60 + 4 * i, 24, 8, .cfg, 0, 0, 255, .clk⟩
def XBR.CTX_USED : Fld := ⟨0x1C, 0x70, 0, 7, .sta, 0, 0, 127, .clk⟩
def XBR.SACRIFICE : Fld := ⟨0x1C, 0x74, 0, 24, .sta, 0, 0, 16777215, .clk⟩
def XBR.SHORT_WINDOWS (i : Nat) : Fld := ⟨0x1C, 0x80 + 4 * i, 0, 32, .cnt, 0, 0, 4294967295, .clk⟩
def XBR.DROPPED (i : Nat) : Fld := ⟨0x1C, 0x90 + 4 * i, 0, 32, .cnt, 0, 0, 4294967295, .clk⟩
def XBR.PROMOTED_COUNT : Fld := ⟨0x1C, 0xA0, 0, 32, .cnt, 0, 0, 4294967295, .clk⟩
def XBR.K2_MAX_SEEN : Fld := ⟨0x1C, 0xA4, 0, 24, .live, 0, 0, 16777215, .clk⟩

/-! The ESC page (chapter 11). -/
def ESC.WIN_BASE (i : Nat) : Fld := ⟨0x1D, 0x40 + 16 * i, 0, 18, .cfg, 0, 0, 262143, .clk⟩
def ESC.WIN_SIZE (i : Nat) : Fld := ⟨0x1D, 0x44 + 16 * i, 0, 17, .cfg, 0, 0, 131071, .clk⟩
def ESC.WIN_LEAF (i : Nat) : Fld := ⟨0x1D, 0x48 + 16 * i, 0, 17, .cfg, 0, 0, 98303, .clk⟩
def ESC.WIN_STATUS_LOADED (i : Nat) : Fld := ⟨0x1D, 0x4C + 16 * i, 0, 1, .sta, 0, 0, 1, .clk⟩
def ESC.WIN_STATUS_SWEPT (i : Nat) : Fld := ⟨0x1D, 0x4C + 16 * i, 1, 1, .sta, 0, 0, 1, .clk⟩
def ESC.CMD_OP : Fld := ⟨0x1D, 0x1C0, 0, 2, .cmd, 0, 0, 3, .clk⟩
def ESC.CMD_HOST : Fld := ⟨0x1D, 0x1C0, 4, 3, .cmd, 0, 0, 7, .clk⟩
def ESC.BLOCK_TIMEOUT : Fld := ⟨0x1D, 0x1C4, 0, 14, .cfg, 50, 5, 10000, .clk⟩
def ESC.LEAVES_USED : Fld := ⟨0x1D, 0x1C8, 0, 17, .sta, 0, 0, 131071, .clk⟩
def ESC.FIRST_TOUCH_COUNT (i : Nat) : Fld := ⟨0x1D, 0x1D0 + 4 * i, 0, 32, .cnt, 0, 0, 4294967295, .clk⟩
def ESC.FT_MAX_SEEN (i : Nat) : Fld := ⟨0x1D, 0x1E8 + 4 * i, 0, 16, .live, 0, 0, 65535, .clk⟩
def ESC.STREAM_CUT_COUNT (i : Nat) : Fld := ⟨0x1D, 0x200 + 4 * i, 0, 16, .cnt, 0, 0, 65535, .clk⟩
def ESC.VERIFIED_BLOCKS (i : Nat) : Fld := ⟨0x1D, 0x218 + 4 * i, 0, 17, .sta, 0, 0, 131071, .clk⟩

/-! The HSV page (chapter 11). -/
def HSV.HOST_STATE_STATE (i : Nat) : Fld := ⟨0x1E, 0x40 + 4 * i, 0, 3, .sta, 0, 0, 7, .aon⟩
def HSV.HOST_STATE_HOLD_CAUSE (i : Nat) : Fld := ⟨0x1E, 0x40 + 4 * i, 4, 4, .sta, 0, 0, 15, .aon⟩
def HSV.HOST_STATE_RETRY (i : Nat) : Fld := ⟨0x1E, 0x40 + 4 * i, 8, 3, .sta, 0, 0, 7, .aon⟩
def HSV.HOST_STATE_LEVEL (i : Nat) : Fld := ⟨0x1E, 0x40 + 4 * i, 12, 3, .sta, 0, 0, 7, .aon⟩
def HSV.HOST_STATE_OK_SEEN (i : Nat) : Fld := ⟨0x1E, 0x40 + 4 * i, 16, 1, .sta, 0, 0, 1, .aon⟩
def HSV.HOST_CMD_OP : Fld := ⟨0x1E, 0x58, 0, 4, .cmd, 0, 0, 15, .clk⟩
def HSV.HOST_CMD_HOST : Fld := ⟨0x1E, 0x58, 4, 3, .cmd, 0, 0, 7, .clk⟩
def HSV.HOST_CMD_SLOT : Fld := ⟨0x1E, 0x58, 8, 1, .cmd, 0, 0, 1, .clk⟩
def HSV.REATTACH_LIMIT : Fld := ⟨0x1E, 0x5C, 0, 10, .cfg, 20, 10, 1000, .aon⟩
def HSV.GATE_BUF : Fld := ⟨0x1E, 0x60, 17, 15, .cfg, 0, 0, 32767, .clk⟩
def HSV.MGP_VIEW_LO : Fld := ⟨0x1E, 0x64, 0, 32, .cfg, 0, 0, 4294967295, .clk⟩
def HSV.MGP_VIEW_HI : Fld := ⟨0x1E, 0x68, 0, 18, .cfg, 0, 0, 262143, .clk⟩
def HSV.SUPERVISE_OK_SOURCE (i : Nat) : Fld := ⟨0x1E, 0x80 + 32 * i, 0, 2, .cfg, 0, 0, 3, .clk⟩
def HSV.SUPERVISE_BOOT_RETRIES (i : Nat) : Fld := ⟨0x1E, 0x80 + 32 * i, 4, 3, .cfg, 2, 0, 7, .clk⟩
def HSV.SUPERVISE_ALT_EN (i : Nat) : Fld := ⟨0x1E, 0x80 + 32 * i, 8, 1, .cfg, 1, 0, 1, .clk⟩
def HSV.SUPERVISE_RESTORE_EN (i : Nat) : Fld := ⟨0x1E, 0x80 + 32 * i, 9, 1, .cfg, 0, 0, 1, .clk⟩
def HSV.SUPERVISE_NET_EN (i : Nat) : Fld := ⟨0x1E, 0x80 + 32 * i, 10, 1, .cfg, 0, 0, 1, .clk⟩
def HSV.BOOT_TIMEOUT (i : Nat) : Fld := ⟨0x1E, 0x84 + 32 * i, 0, 16, .cfg, 5000, 10, 60000, .clk⟩
def HSV.RESET_PULSE (i : Nat) : Fld := ⟨0x1E, 0x88 + 32 * i, 0, 10, .cfg, 10, 1, 1000, .clk⟩
def HSV.GATE_LIMIT (i : Nat) : Fld := ⟨0x1E, 0x8C + 32 * i, 0, 16, .cfg, 2000, 10, 60000, .clk⟩
def HSV.RESTORE_LIMIT (i : Nat) : Fld := ⟨0x1E, 0x90 + 32 * i, 0, 20, .cfg, 0x7530, 100, 600000, .clk⟩
def HSV.MEND_DEADLINE (i : Nat) : Fld := ⟨0x1E, 0x94 + 32 * i, 0, 12, .cfg, 600, 1, 3600, .clk⟩
def HSV.OK_LOSS (i : Nat) : Fld := ⟨0x1E, 0x98 + 32 * i, 0, 12, .cfg, 0, 0, 4000, .clk⟩
def HSV.GOLDEN_BASE (i : Nat) : Fld := ⟨0x1E, 0x9C + 32 * i, 0, 16, .cfg, 0, 0, 65535, .clk⟩
def HSV.SIGNER_HASH (i : Nat) : Fld := ⟨0x1E, 0x140 + 4 * i, 0, 32, .cfg, 0, 0, 4294967295, .clk⟩
def HSV.SLOT_INFO_SEL (i : Nat) : Fld := ⟨0x1E, 0x260 + 4 * i, 0, 1, .sta, 0, 0, 1, .aon⟩
def HSV.SLOT_INFO_A_VALID (i : Nat) : Fld := ⟨0x1E, 0x260 + 4 * i, 1, 1, .sta, 0, 0, 1, .clk⟩
def HSV.SLOT_INFO_B_VALID (i : Nat) : Fld := ⟨0x1E, 0x260 + 4 * i, 2, 1, .sta, 0, 0, 1, .clk⟩
def HSV.SLOT_INFO_NEXT (i : Nat) : Fld := ⟨0x1E, 0x260 + 4 * i, 3, 1, .sta, 0, 0, 1, .aon⟩
def HSV.SLOT_INFO_NEXT_VALID (i : Nat) : Fld := ⟨0x1E, 0x260 + 4 * i, 4, 1, .sta, 0, 0, 1, .aon⟩
def HSV.FAULT (i : Nat) : Fld := ⟨0x1E, 0x280 + 4 * i, 0, 16, .sta, 0, 0, 65535, .aon⟩

/-! The CMP page (chapter 11). -/
def CMP.STATUS_BUSY : Fld := ⟨0x1F, 0x40, 0, 1, .sta, 0, 0, 1, .clk⟩
def CMP.STATUS_DONE : Fld := ⟨0x1F, 0x40, 1, 1, .sta, 0, 0, 1, .clk⟩
def CMP.CMD_OP : Fld := ⟨0x1F, 0x44, 0, 2, .cmd, 0, 0, 3, .clk⟩
def CMP.CMD_ADDR : Fld := ⟨0x1F, 0x44, 4, 28, .cmd, 0, 0, 268435455, .clk⟩
def CMP.OUT_COUNT : Fld := ⟨0x1F, 0x48, 0, 32, .sta, 0, 0, 4294967295, .clk⟩
def CMP.ERR_OFFSET : Fld := ⟨0x1F, 0x4C, 0, 32, .sta, 0, 0, 4294967295, .clk⟩

/-! The DGE pages (chapter 07). -/
def DGE.STATUS_BUSY (n : Nat) : Fld := ⟨0x20 + n, 0x40, 0, 1, .sta, 0, 0, 1, .clk⟩
def DGE.STATUS_OPEN (n : Nat) : Fld := ⟨0x20 + n, 0x40, 1, 1, .sta, 0, 0, 1, .clk⟩
def DGE.STATUS_SAVED (n : Nat) : Fld := ⟨0x20 + n, 0x40, 2, 1, .sta, 0, 0, 1, .clk⟩
def DGE.STATUS_DONE (n : Nat) : Fld := ⟨0x20 + n, 0x40, 3, 1, .sta, 0, 0, 1, .clk⟩
def DGE.CMD_OP (n : Nat) : Fld := ⟨0x20 + n, 0x44, 0, 4, .cmd, 0, 0, 15, .clk⟩
def DGE.CMD_ADDR (n : Nat) : Fld := ⟨0x20 + n, 0x44, 4, 28, .cmd, 0, 0, 268435455, .clk⟩
def DGE.BYTE_COUNT_LO (n : Nat) : Fld := ⟨0x20 + n, 0x48, 0, 32, .sta, 0, 0, 4294967295, .clk⟩
def DGE.BYTE_COUNT_HI (n : Nat) : Fld := ⟨0x20 + n, 0x4C, 0, 32, .sta, 0, 0, 4294967295, .clk⟩
def DGE.DIGEST (n i : Nat) : Fld := ⟨0x20 + n, 0x50 + 4 * i, 0, 32, .sta, 0, 0, 4294967295, .clk⟩
def DGE.MATCH (n : Nat) : Fld := ⟨0x20 + n, 0x90, 0, 16, .sta, 0, 0, 65535, .clk⟩
def DGE.MATCH_N (n : Nat) : Fld := ⟨0x20 + n, 0x94, 0, 16, .sta, 0, 0, 65535, .clk⟩
def DGE.LEAF_BLOCKS (n : Nat) : Fld := ⟨0x20 + n, 0x98, 0, 32, .sta, 0, 0, 4294967295, .clk⟩
def DGE.LEAF_FIRST_FAIL (n : Nat) : Fld := ⟨0x20 + n, 0x9C, 0, 32, .sta, 0xFFFFFFFF, 0, 4294967295, .clk⟩
def DGE.PREEMPT_COUNT (n : Nat) : Fld := ⟨0x20 + n, 0xA0, 0, 32, .cnt, 0, 0, 4294967295, .clk⟩

/-! The SNP page (chapter 07). -/
def SNP.MODE_LANE_I (i : Nat) : Fld := ⟨0x24, 0x40 + 64 * i, 0, 2, .cfg, 0, 0, 2, .clk⟩
def SNP.MODE_PRE_ALG (i : Nat) : Fld := ⟨0x24, 0x40 + 64 * i, 4, 1, .cfg, 0, 0, 1, .clk⟩
def SNP.MODE_PRE_BLOCK (i : Nat) : Fld := ⟨0x24, 0x40 + 64 * i, 5, 1, .cfg, 1, 0, 1, .clk⟩
def SNP.MODE_STAGE_ALG (i : Nat) : Fld := ⟨0x24, 0x40 + 64 * i, 8, 1, .cfg, 0, 0, 1, .clk⟩
def SNP.MODE_STAGE_BLOCK (i : Nat) : Fld := ⟨0x24, 0x40 + 64 * i, 9, 1, .cfg, 1, 0, 1, .clk⟩
def SNP.STAGE_BASE (i : Nat) : Fld := ⟨0x24, 0x44 + 64 * i, 0, 18, .cfg, 0, 0, 262143, .clk⟩
def SNP.STAGE_SIZE (i : Nat) : Fld := ⟨0x24, 0x48 + 64 * i, 0, 19, .cfg, 0, 0, 262144, .clk⟩
def SNP.STAGE_CMD_ARM (i : Nat) : Fld := ⟨0x24, 0x4C + 64 * i, 0, 1, .cmd, 0, 0, 1, .clk⟩
def SNP.STAGE_CMD_DISARM (i : Nat) : Fld := ⟨0x24, 0x4C + 64 * i, 1, 1, .cmd, 0, 0, 1, .clk⟩
def SNP.STAGE_CMD_ADDR (i : Nat) : Fld := ⟨0x24, 0x4C + 64 * i, 4, 28, .cmd, 0, 0, 268435455, .clk⟩
def SNP.STAGE_STATUS_ARMED (i : Nat) : Fld := ⟨0x24, 0x50 + 64 * i, 0, 1, .sta, 0, 0, 1, .clk⟩
def SNP.STAGE_STATUS_DISARM_CAUSE (i : Nat) : Fld := ⟨0x24, 0x50 + 64 * i, 1, 3, .sta, 0, 0, 7, .clk⟩
def SNP.STAGE_OK (i : Nat) : Fld := ⟨0x24, 0x54 + 64 * i, 0, 32, .cnt, 0, 0, 4294967295, .clk⟩
def SNP.STAGE_FAIL (i : Nat) : Fld := ⟨0x24, 0x58 + 64 * i, 0, 32, .cnt, 0, 0, 4294967295, .clk⟩
def SNP.STAGE_UNSEEN (i : Nat) : Fld := ⟨0x24, 0x5C + 64 * i, 0, 32, .cnt, 0, 0, 4294967295, .clk⟩
def SNP.STAGE_FIRST_FAIL (i : Nat) : Fld := ⟨0x24, 0x60 + 64 * i, 0, 32, .sta, 0xFFFFFFFF, 0, 4294967295, .clk⟩
def SNP.STAGE_MATCH (i : Nat) : Fld := ⟨0x24, 0x64 + 64 * i, 0, 16, .sta, 0x5A3C, 0, 65535, .clk⟩
def SNP.STAGE_MATCH_N (i : Nat) : Fld := ⟨0x24, 0x68 + 64 * i, 0, 16, .sta, 0xA5C3, 0, 65535, .clk⟩
def SNP.LANE_STATUS_I_BUSY (i : Nat) : Fld := ⟨0x24, 0x6C + 64 * i, 0, 1, .sta, 0, 0, 1, .clk⟩
def SNP.LANE_STATUS_H_BUSY (i : Nat) : Fld := ⟨0x24, 0x6C + 64 * i, 1, 1, .sta, 0, 0, 1, .clk⟩
def SNP.LANE_STATUS_FIFO_LEVEL (i : Nat) : Fld := ⟨0x24, 0x6C + 64 * i, 8, 5, .sta, 0, 0, 31, .clk⟩

/-! The KVT page (chapter 06). -/
def KVT.STATUS_BUSY : Fld := ⟨0x25, 0x40, 0, 1, .sta, 0, 0, 1, .clk⟩
def KVT.STATUS_ROOT_SOURCE : Fld := ⟨0x25, 0x40, 1, 2, .sta, 0, 0, 3, .clk⟩
def KVT.STATUS_MASK_STALL : Fld := ⟨0x25, 0x40, 3, 1, .sta, 0, 0, 1, .clk⟩
def KVT.STATUS_TAMPER_SEEN : Fld := ⟨0x25, 0x40, 4, 1, .sta, 0, 0, 1, .clk⟩
def KVT.CMD_OP : Fld := ⟨0x25, 0x44, 0, 4, .cmd, 0, 0, 15, .clk⟩
def KVT.CMD_ADDR : Fld := ⟨0x25, 0x44, 4, 28, .cmd, 0, 0, 268435455, .clk⟩
def KVT.RESULT_SLOT : Fld := ⟨0x25, 0x48, 0, 9, .sta, 0, 0, 511, .clk⟩
def KVT.RESULT_CODE : Fld := ⟨0x25, 0x48, 16, 16, .sta, 0, 0, 65535, .clk⟩
def KVT.EPOCH : Fld := ⟨0x25, 0x4C, 0, 16, .sta, 0, 0, 65535, .por⟩
def KVT.SLOT_COUNTS_FREE : Fld := ⟨0x25, 0x50, 0, 10, .sta, 512, 0, 1023, .clk⟩
def KVT.SLOT_COUNTS_UNUSABLE : Fld := ⟨0x25, 0x50, 16, 10, .sta, 0, 0, 1023, .clk⟩
def KVT.BAD_COUNT : Fld := ⟨0x25, 0x54, 0, 16, .cnt, 0, 0, 65535, .clk⟩
def KVT.CACHE_MISSES : Fld := ⟨0x25, 0x58, 0, 32, .cnt, 0, 0, 4294967295, .clk⟩
def KVT.REVOKED_IN_USE_COUNT : Fld := ⟨0x25, 0x5C, 0, 16, .cnt, 0, 0, 65535, .clk⟩
def KVT.SCRUB_PERIOD : Fld := ⟨0x25, 0x60, 0, 7, .cfg, 10, 1, 100, .clk⟩
def KVT.PERSIST_STATUS_VALID : Fld := ⟨0x25, 0x64, 0, 1, .sta, 0, 0, 1, .clk⟩
def KVT.PERSIST_STATUS_RECORDS : Fld := ⟨0x25, 0x64, 1, 9, .sta, 0, 0, 511, .clk⟩
def KVT.PERSIST_STATUS_DEFERRED : Fld := ⟨0x25, 0x64, 16, 1, .sta, 0, 0, 1, .clk⟩

/-! The AES page (chapter 08). -/
def AES.STATUS_BUSY (i : Nat) : Fld := ⟨0x26, 0x40 + 128 * i, 0, 1, .sta, 0, 0, 1, .clk⟩
def AES.STATUS_SAVED (i : Nat) : Fld := ⟨0x26, 0x40 + 128 * i, 1, 1, .sta, 0, 0, 1, .clk⟩
def AES.STATUS_DONE (i : Nat) : Fld := ⟨0x26, 0x40 + 128 * i, 2, 1, .sta, 0, 0, 1, .clk⟩
def AES.CMD_OP (i : Nat) : Fld := ⟨0x26, 0x44 + 128 * i, 0, 3, .cmd, 0, 0, 7, .clk⟩
def AES.CMD_ADDR (i : Nat) : Fld := ⟨0x26, 0x44 + 128 * i, 4, 28, .cmd, 0, 0, 268435455, .clk⟩
def AES.DKR_CMD_OP (i : Nat) : Fld := ⟨0x26, 0x48 + 128 * i, 0, 2, .cmd, 0, 0, 3, .clk⟩
def AES.DKR_CMD_ATTR (i : Nat) : Fld := ⟨0x26, 0x48 + 128 * i, 4, 2, .cmd, 0, 0, 3, .clk⟩
def AES.DKR_CMD_SLOT (i : Nat) : Fld := ⟨0x26, 0x48 + 128 * i, 16, 9, .cmd, 0, 0, 511, .clk⟩
def AES.DKR_STATUS_LOADED (i : Nat) : Fld := ⟨0x26, 0x4C + 128 * i, 0, 1, .sta, 0, 0, 1, .clk⟩
def AES.DKR_STATUS_ATTR (i : Nat) : Fld := ⟨0x26, 0x4C + 128 * i, 1, 2, .sta, 0, 0, 3, .clk⟩
def AES.DKR_STATUS_SOURCE (i : Nat) : Fld := ⟨0x26, 0x4C + 128 * i, 4, 2, .sta, 0, 0, 3, .clk⟩
def AES.DKR_STATUS_SLOT (i : Nat) : Fld := ⟨0x26, 0x4C + 128 * i, 16, 9, .sta, 0, 0, 511, .clk⟩
def AES.KEY (i : Nat) : Fld := ⟨0x26, 0x50 + 0x80 * (i / 8) + 4 * (i % 8), 0, 32, .key, 0, 0, 4294967295, .clk⟩
def AES.TAG_MATCH (i : Nat) : Fld := ⟨0x26, 0x70 + 128 * i, 0, 16, .sta, 0, 0, 65535, .clk⟩
def AES.TAG_MATCH_N (i : Nat) : Fld := ⟨0x26, 0x74 + 128 * i, 0, 16, .sta, 0, 0, 65535, .clk⟩

/-! The PKE page (chapter 08). -/
def PKE.STATUS_BUSY : Fld := ⟨0x27, 0x40, 0, 1, .sta, 0, 0, 1, .clk⟩
def PKE.STATUS_DONE : Fld := ⟨0x27, 0x40, 1, 1, .sta, 0, 0, 1, .clk⟩
def PKE.CMD_OP : Fld := ⟨0x27, 0x44, 0, 3, .cmd, 0, 0, 7, .clk⟩
def PKE.CMD_ADDR : Fld := ⟨0x27, 0x44, 4, 28, .cmd, 0, 0, 268435455, .clk⟩
def PKE.VERIFY_MATCH : Fld := ⟨0x27, 0x48, 0, 16, .sta, 0, 0, 65535, .clk⟩
def PKE.VERIFY_MATCH_N : Fld := ⟨0x27, 0x4C, 0, 16, .sta, 0, 0, 65535, .clk⟩
def PKE.KEYREG_ALG (i : Nat) : Fld := ⟨0x27, 0x50 + 4 * i, 0, 3, .sta, 0, 0, 7, .clk⟩
def PKE.KEYREG_EPHEMERAL (i : Nat) : Fld := ⟨0x27, 0x50 + 4 * i, 4, 1, .sta, 0, 0, 1, .clk⟩
def PKE.KEYREG_SLOT (i : Nat) : Fld := ⟨0x27, 0x50 + 4 * i, 16, 9, .sta, 0, 0, 511, .clk⟩

/-! The RNG page (chapter 08). -/
def RNG.STATUS_READY : Fld := ⟨0x28, 0x40, 0, 1, .sta, 0, 0, 1, .clk⟩
def RNG.STATUS_STATE : Fld := ⟨0x28, 0x40, 1, 2, .sta, 0, 0, 3, .clk⟩
def RNG.CMD_OP : Fld := ⟨0x28, 0x44, 0, 2, .cmd, 0, 0, 3, .clk⟩
def RNG.CMD_ADDR : Fld := ⟨0x28, 0x44, 4, 28, .cmd, 0, 0, 268435455, .clk⟩
def RNG.HEALTH_RCT_CUTOFF : Fld := ⟨0x28, 0x48, 0, 7, .cfg, 41, 20, 127, .clk⟩
def RNG.HEALTH_APT_CUTOFF : Fld := ⟨0x28, 0x48, 16, 10, .cfg, 800, 600, 1023, .clk⟩
def RNG.HEALTH_FAIL_COUNT : Fld := ⟨0x28, 0x4C, 0, 16, .cnt, 0, 0, 65535, .clk⟩
def RNG.RESEED_COUNT : Fld := ⟨0x28, 0x50, 0, 32, .cnt, 0, 0, 4294967295, .clk⟩

/-! The TIME page (chapter 15). -/
def TIME.MRT_LO : Fld := ⟨0x29, 0x40, 0, 32, .sta, 0, 0, 4294967295, .aon⟩
def TIME.MRT_HI : Fld := ⟨0x29, 0x44, 0, 32, .sta, 0, 0, 4294967295, .aon⟩
def TIME.UTC_LO : Fld := ⟨0x29, 0x48, 0, 32, .sta, 0xFFFFFFFF, 0, 4294967295, .aon⟩
def TIME.UTC_HI : Fld := ⟨0x29, 0x4C, 0, 32, .sta, 0xFFFFFFFF, 0, 4294967295, .aon⟩
def TIME.STATUS_TIME_GAP : Fld := ⟨0x29, 0x50, 0, 1, .sta, 1, 0, 1, .aon⟩
def TIME.STATUS_RETROGRADE : Fld := ⟨0x29, 0x50, 1, 1, .sta, 0, 0, 1, .aon⟩
def TIME.STATUS_SLEWING : Fld := ⟨0x29, 0x50, 2, 1, .sta, 0, 0, 1, .aon⟩
def TIME.STATUS_BUSY : Fld := ⟨0x29, 0x50, 3, 1, .sta, 0, 0, 1, .clk⟩
def TIME.STATUS_AUTH_SET : Fld := ⟨0x29, 0x50, 4, 1, .sta, 0, 0, 1, .clk⟩
def TIME.TIME_TOL : Fld := ⟨0x29, 0x54, 0, 16, .cfg, 2000, 0, 60000, .clk⟩
def TIME.METER_CFG_MODE : Fld := ⟨0x29, 0x58, 0, 1, .cfg, 0, 0, 1, .clk⟩
def TIME.METER_CFG_DAYS : Fld := ⟨0x29, 0x58, 8, 8, .cfg, 30, 1, 255, .clk⟩
def TIME.METER_ANCHOR : Fld := ⟨0x29, 0x5C, 0, 32, .cfg, 0, 0, 4294967295, .clk⟩
def TIME.CMD_OP : Fld := ⟨0x29, 0x60, 0, 2, .cmd, 0, 0, 3, .clk⟩
def TIME.CMD_ADDR : Fld := ⟨0x29, 0x60, 4, 28, .cmd, 0, 0, 268435455, .clk⟩
def TIME.CHALLENGE (i : Nat) : Fld := ⟨0x29, 0x64 + 4 * i, 0, 32, .sta, 0, 0, 4294967295, .clk⟩
def TIME.SLEW_REMAIN : Fld := ⟨0x29, 0x74, 0, 32, .sta, 0, 0, 4294967295, .aon⟩
def TIME.LAST_STEP : Fld := ⟨0x29, 0x78, 0, 32, .sta, 0, 0, 4294967295, .clk⟩
def TIME.SLEW_COUNT : Fld := ⟨0x29, 0x7C, 0, 16, .cnt, 0, 0, 65535, .clk⟩
def TIME.STEP_COUNT : Fld := ⟨0x29, 0x80, 0, 16, .cnt, 0, 0, 65535, .clk⟩
def TIME.LAST_DAY : Fld := ⟨0x29, 0x84, 0, 32, .sta, 0, 0, 4294967295, .aon⟩
def TIME.LAST_WEEK : Fld := ⟨0x29, 0x88, 0, 32, .sta, 0, 0, 4294967295, .aon⟩
def TIME.LAST_METER : Fld := ⟨0x29, 0x8C, 0, 32, .sta, 0, 0, 4294967295, .aon⟩

/-! The LEDG page (chapter 15). -/
def LEDG.STATUS_RECORDING : Fld := ⟨0x2A, 0x40, 0, 1, .sta, 0, 0, 1, .clk⟩
def LEDG.STATUS_FROZEN : Fld := ⟨0x2A, 0x40, 1, 1, .sta, 0, 0, 1, .clk⟩
def LEDG.STATUS_KEY_LOST : Fld := ⟨0x2A, 0x40, 2, 1, .sta, 0, 0, 1, .clk⟩
def LEDG.STATUS_EXPORTED : Fld := ⟨0x2A, 0x40, 3, 1, .sta, 0, 0, 1, .clk⟩
def LEDG.STATUS_CHAIN_FAULT : Fld := ⟨0x2A, 0x40, 4, 1, .sta, 0, 0, 1, .clk⟩
def LEDG.CONFIG_SPEED_TOL : Fld := ⟨0x2A, 0x44, 0, 2, .cfg, 2, 0, 3, .clk⟩
def LEDG.CONFIG_INPUT_MGP : Fld := ⟨0x2A, 0x44, 4, 1, .cfg, 1, 0, 1, .clk⟩
def LEDG.CONFIG_INPUT_STX : Fld := ⟨0x2A, 0x44, 5, 1, .cfg, 0, 0, 1, .clk⟩
def LEDG.K_FACTOR : Fld := ⟨0x2A, 0x48, 0, 20, .cfg, 8000, 500, 1000000, .clk⟩
def LEDG.WS_FORMAT_START : Fld := ⟨0x2A, 0x4C, 0, 6, .cfg, 0, 0, 62, .clk⟩
def LEDG.WS_FORMAT_BIG_ENDIAN : Fld := ⟨0x2A, 0x4C, 6, 1, .cfg, 0, 0, 1, .clk⟩
def LEDG.WS_FORMAT_SCALE : Fld := ⟨0x2A, 0x4C, 16, 16, .cfg, 0, 0, 65535, .clk⟩
def LEDG.MISMATCH_KMH : Fld := ⟨0x2A, 0x50, 0, 8, .cfg, 5, 1, 255, .clk⟩
def LEDG.MISMATCH_SECS : Fld := ⟨0x2A, 0x50, 8, 8, .cfg, 10, 1, 255, .clk⟩
def LEDG.COMMIT_MAX : Fld := ⟨0x2A, 0x54, 0, 14, .cfg, 2000, 1000, 10000, .clk⟩
def LEDG.DIST_INTERVAL : Fld := ⟨0x2A, 0x58, 0, 8, .cfg, 60, 1, 240, .clk⟩
def LEDG.CMD_OP : Fld := ⟨0x2A, 0x5C, 0, 3, .cmd, 0, 0, 7, .clk⟩
def LEDG.CMD_ADDR : Fld := ⟨0x2A, 0x5C, 4, 28, .cmd, 0, 0, 268435455, .clk⟩
def LEDG.HEAD_SEQ (i : Nat) : Fld := ⟨0x2A, 0x60 + 4 * i, 0, 32, .sta, 0, 0, 4294967295, .clk⟩
def LEDG.TAIL_SEQ (i : Nat) : Fld := ⟨0x2A, 0x68 + 4 * i, 0, 32, .sta, 0, 0, 4294967295, .clk⟩
def LEDG.JOURNAL_USED : Fld := ⟨0x2A, 0x70, 0, 16, .sta, 0, 0, 65535, .aon⟩
def LEDG.ODOMETER : Fld := ⟨0x2A, 0x74, 0, 32, .sta, 0, 0, 4294967295, .clk⟩
def LEDG.COMMIT_COUNT : Fld := ⟨0x2A, 0x78, 0, 32, .cnt, 0, 0, 4294967295, .clk⟩
def LEDG.TORN_COUNT : Fld := ⟨0x2A, 0x7C, 0, 16, .cnt, 0, 0, 65535, .clk⟩
def LEDG.MISMATCH_COUNT : Fld := ⟨0x2A, 0x80, 0, 16, .cnt, 0, 0, 65535, .clk⟩
def LEDG.EXPORT_CHALLENGE (i : Nat) : Fld := ⟨0x2A, 0x84 + 4 * i, 0, 32, .sta, 0, 0, 4294967295, .clk⟩

/-! The NET page (chapter 13). -/
def NET.MODE_REDUNDANCY : Fld := ⟨0x2B, 0x40, 0, 1, .cfg, 0, 0, 1, .clk⟩
def NET.MODE_PRIMARY : Fld := ⟨0x2B, 0x40, 1, 1, .cfg, 0, 0, 1, .clk⟩
def NET.MODE_REQUIRE_MACSEC : Fld := ⟨0x2B, 0x40, 2, 1, .cfg, 0, 0, 1, .clk⟩
def NET.STX_ETYPE : Fld := ⟨0x2B, 0x44, 0, 16, .cfg, 0x88B5, 0, 65535, .clk⟩
def NET.HOLD_LINK_DOWN_HOLD : Fld := ⟨0x2B, 0x48, 0, 8, .cfg, 5, 1, 255, .clk⟩
def NET.HOLD_LINK_UP_HOLD : Fld := ⟨0x2B, 0x48, 16, 8, .cfg, 10, 1, 255, .clk⟩
def NET.RETX_TIMEOUT : Fld := ⟨0x2B, 0x4C, 0, 10, .cfg, 10, 1, 1000, .clk⟩
def NET.RETX_LIMIT : Fld := ⟨0x2B, 0x4C, 12, 3, .cfg, 3, 0, 7, .clk⟩
def NET.CMD_OP : Fld := ⟨0x2B, 0x50, 0, 2, .cmd, 0, 0, 3, .clk⟩
def NET.CMD_ADDR : Fld := ⟨0x2B, 0x50, 4, 28, .cmd, 0, 0, 268435455, .clk⟩
def NET.RETX_COUNT : Fld := ⟨0x2B, 0x54, 0, 32, .cnt, 0, 0, 4294967295, .clk⟩
def NET.LINK_FAIL_COUNT : Fld := ⟨0x2B, 0x58, 0, 16, .cnt, 0, 0, 65535, .clk⟩
def NET.LANE_CTRL_EN (i : Nat) : Fld := ⟨0x2B, 0x80 + 64 * i, 0, 1, .cfg, 0, 0, 1, .clk⟩
def NET.LANE_CTRL_FEC_EN (i : Nat) : Fld := ⟨0x2B, 0x80 + 64 * i, 1, 1, .cfg, 0, 0, 1, .clk⟩
def NET.LANE_CTRL_LOOPBACK (i : Nat) : Fld := ⟨0x2B, 0x80 + 64 * i, 4, 2, .cfg, 0, 0, 2, .clk⟩
def NET.LANE_CTRL_TAG_EN (i : Nat) : Fld := ⟨0x2B, 0x80 + 64 * i, 8, 1, .cfg, 0, 0, 1, .clk⟩
def NET.LANE_CTRL_VID (i : Nat) : Fld := ⟨0x2B, 0x80 + 64 * i, 16, 12, .cfg, 0, 0, 4095, .clk⟩
def NET.LANE_CTRL_PCP (i : Nat) : Fld := ⟨0x2B, 0x80 + 64 * i, 28, 3, .cfg, 0, 0, 7, .clk⟩
def NET.MAC_LO (i : Nat) : Fld := ⟨0x2B, 0x84 + 64 * i, 0, 32, .cfg, 0, 0, 4294967295, .clk⟩
def NET.MAC_HI (i : Nat) : Fld := ⟨0x2B, 0x88 + 64 * i, 0, 16, .cfg, 0, 0, 65535, .clk⟩
def NET.LANE_STATUS_BLOCK_LOCK (i : Nat) : Fld := ⟨0x2B, 0x8C + 64 * i, 0, 1, .sta, 0, 0, 1, .clk⟩
def NET.LANE_STATUS_HI_BER (i : Nat) : Fld := ⟨0x2B, 0x8C + 64 * i, 1, 1, .sta, 0, 0, 1, .clk⟩
def NET.LANE_STATUS_LINK_UP (i : Nat) : Fld := ⟨0x2B, 0x8C + 64 * i, 2, 1, .sta, 0, 0, 1, .clk⟩
def NET.LANE_STATUS_CARRYING (i : Nat) : Fld := ⟨0x2B, 0x8C + 64 * i, 3, 1, .sta, 0, 0, 1, .clk⟩
def NET.TX_FRAMES (i : Nat) : Fld := ⟨0x2B, 0x90 + 64 * i, 0, 32, .cnt, 0, 0, 4294967295, .clk⟩
def NET.RX_FRAMES (i : Nat) : Fld := ⟨0x2B, 0x94 + 64 * i, 0, 32, .cnt, 0, 0, 4294967295, .clk⟩
def NET.RX_DROP (i : Nat) : Fld := ⟨0x2B, 0x98 + 64 * i, 0, 32, .cnt, 0, 0, 4294967295, .clk⟩
def NET.FCS_ERR (i : Nat) : Fld := ⟨0x2B, 0x9C + 64 * i, 0, 32, .cnt, 0, 0, 4294967295, .clk⟩
def NET.FEC_CORR (i : Nat) : Fld := ⟨0x2B, 0xA0 + 64 * i, 0, 32, .cnt, 0, 0, 4294967295, .clk⟩
def NET.FEC_UNCORR (i : Nat) : Fld := ⟨0x2B, 0xA4 + 64 * i, 0, 32, .cnt, 0, 0, 4294967295, .clk⟩
def NET.LINK_DOWN_COUNT (i : Nat) : Fld := ⟨0x2B, 0xA8 + 64 * i, 0, 32, .cnt, 0, 0, 4294967295, .clk⟩

/-! The MSEC page (chapter 13). -/
def MSEC.SC_CTRL_EN (i : Nat) : Fld := ⟨0x2C, 0x40 + 64 * i, 0, 1, .cfg, 0, 0, 1, .clk⟩
def MSEC.SC_CTRL_SUITE (i : Nat) : Fld := ⟨0x2C, 0x40 + 64 * i, 1, 1, .cfg, 0, 0, 1, .clk⟩
def MSEC.SC_CTRL_CONF (i : Nat) : Fld := ⟨0x2C, 0x40 + 64 * i, 2, 1, .cfg, 1, 0, 1, .clk⟩
def MSEC.SC_CTRL_REPLAY_PROTECT (i : Nat) : Fld := ⟨0x2C, 0x40 + 64 * i, 3, 1, .cfg, 1, 0, 1, .clk⟩
def MSEC.SCI_LO (i : Nat) : Fld := ⟨0x2C, 0x44 + 64 * i, 0, 32, .cfg, 0, 0, 4294967295, .clk⟩
def MSEC.SCI_HI (i : Nat) : Fld := ⟨0x2C, 0x48 + 64 * i, 0, 32, .cfg, 0, 0, 4294967295, .clk⟩
def MSEC.REPLAY_WINDOW (i : Nat) : Fld := ⟨0x2C, 0x4C + 64 * i, 0, 30, .cfg, 0, 0, 1073741823, .clk⟩
def MSEC.SSCI (i : Nat) : Fld := ⟨0x2C, 0x50 + 64 * i, 0, 32, .cfg, 0, 0, 4294967295, .clk⟩
def MSEC.SA_STATUS_LOADED0 (i : Nat) : Fld := ⟨0x2C, 0x54 + 64 * i, 0, 1, .sta, 0, 0, 1, .clk⟩
def MSEC.SA_STATUS_ENABLED0 (i : Nat) : Fld := ⟨0x2C, 0x54 + 64 * i, 1, 1, .sta, 0, 0, 1, .clk⟩
def MSEC.SA_STATUS_LOADED1 (i : Nat) : Fld := ⟨0x2C, 0x54 + 64 * i, 4, 1, .sta, 0, 0, 1, .clk⟩
def MSEC.SA_STATUS_ENABLED1 (i : Nat) : Fld := ⟨0x2C, 0x54 + 64 * i, 5, 1, .sta, 0, 0, 1, .clk⟩
def MSEC.SA_STATUS_LOADED2 (i : Nat) : Fld := ⟨0x2C, 0x54 + 64 * i, 8, 1, .sta, 0, 0, 1, .clk⟩
def MSEC.SA_STATUS_ENABLED2 (i : Nat) : Fld := ⟨0x2C, 0x54 + 64 * i, 9, 1, .sta, 0, 0, 1, .clk⟩
def MSEC.SA_STATUS_LOADED3 (i : Nat) : Fld := ⟨0x2C, 0x54 + 64 * i, 12, 1, .sta, 0, 0, 1, .clk⟩
def MSEC.SA_STATUS_ENABLED3 (i : Nat) : Fld := ⟨0x2C, 0x54 + 64 * i, 13, 1, .sta, 0, 0, 1, .clk⟩
def MSEC.SA_STATUS_TX_AN (i : Nat) : Fld := ⟨0x2C, 0x54 + 64 * i, 16, 2, .sta, 0, 0, 3, .clk⟩
def MSEC.OK (i : Nat) : Fld := ⟨0x2C, 0x58 + 64 * i, 0, 32, .cnt, 0, 0, 4294967295, .clk⟩
def MSEC.NOT_VALID (i : Nat) : Fld := ⟨0x2C, 0x5C + 64 * i, 0, 32, .cnt, 0, 0, 4294967295, .clk⟩
def MSEC.LATE (i : Nat) : Fld := ⟨0x2C, 0x60 + 64 * i, 0, 32, .cnt, 0, 0, 4294967295, .clk⟩
def MSEC.NO_SA (i : Nat) : Fld := ⟨0x2C, 0x64 + 64 * i, 0, 32, .cnt, 0, 0, 4294967295, .clk⟩
def MSEC.SA_CMD_OP : Fld := ⟨0x2C, 0x140, 0, 3, .cmd, 0, 0, 7, .clk⟩
def MSEC.SA_CMD_INDEX : Fld := ⟨0x2C, 0x140, 8, 4, .cmd, 0, 0, 15, .clk⟩
def MSEC.SA_CMD_ATTR : Fld := ⟨0x2C, 0x140, 12, 2, .cmd, 0, 0, 3, .clk⟩
def MSEC.SA_CMD_SLOT : Fld := ⟨0x2C, 0x140, 16, 9, .cmd, 0, 0, 511, .clk⟩
def MSEC.KEY (i : Nat) : Fld := ⟨0x2C, 0x144 + 4 * i, 0, 32, .key, 0, 0, 4294967295, .clk⟩
def MSEC.SALT (i : Nat) : Fld := ⟨0x2C, 0x164 + 4 * i, 0, 32, .cfd, 0, 0, 4294967295, .clk⟩
def MSEC.PN_WARN : Fld := ⟨0x2C, 0x170, 0, 6, .cfg, 24, 0, 63, .clk⟩
def MSEC.NEXT_PN_LO (i : Nat) : Fld := ⟨0x2C, 0x180 + 8 * i, 0, 32, .live, 1, 0, 4294967295, .clk⟩
def MSEC.NEXT_PN_HI (i : Nat) : Fld := ⟨0x2C, 0x184 + 8 * i, 0, 32, .live, 0, 0, 4294967295, .clk⟩

/-! The CAN page (chapter 13). -/
def CAN.CAN_CTRL_EN (i : Nat) : Fld := ⟨0x2D, 0x40 + 128 * i, 0, 1, .cfg, 0, 0, 1, .clk⟩
def CAN.CAN_CTRL_BRS (i : Nat) : Fld := ⟨0x2D, 0x40 + 128 * i, 1, 1, .cfg, 1, 0, 1, .clk⟩
def CAN.CAN_CTRL_AUTO_RECOVER (i : Nat) : Fld := ⟨0x2D, 0x40 + 128 * i, 2, 1, .cfg, 1, 0, 1, .clk⟩
def CAN.CAN_CTRL_TX_DL (i : Nat) : Fld := ⟨0x2D, 0x40 + 128 * i, 8, 3, .cfg, 7, 0, 7, .clk⟩
def CAN.CAN_CTRL_PAD (i : Nat) : Fld := ⟨0x2D, 0x40 + 128 * i, 16, 8, .cfg, 204, 0, 255, .clk⟩
def CAN.NBT_BRP (i : Nat) : Fld := ⟨0x2D, 0x44 + 128 * i, 0, 8, .cfg, 1, 0, 255, .clk⟩
def CAN.NBT_TSEG1 (i : Nat) : Fld := ⟨0x2D, 0x44 + 128 * i, 8, 8, .cfg, 63, 0, 255, .clk⟩
def CAN.NBT_TSEG2 (i : Nat) : Fld := ⟨0x2D, 0x44 + 128 * i, 16, 7, .cfg, 16, 0, 127, .clk⟩
def CAN.NBT_SJW (i : Nat) : Fld := ⟨0x2D, 0x44 + 128 * i, 24, 7, .cfg, 16, 0, 127, .clk⟩
def CAN.DBT_BRP (i : Nat) : Fld := ⟨0x2D, 0x48 + 128 * i, 0, 5, .cfg, 1, 0, 31, .clk⟩
def CAN.DBT_TSEG1 (i : Nat) : Fld := ⟨0x2D, 0x48 + 128 * i, 8, 5, .cfg, 14, 0, 31, .clk⟩
def CAN.DBT_TSEG2 (i : Nat) : Fld := ⟨0x2D, 0x48 + 128 * i, 16, 4, .cfg, 5, 0, 15, .clk⟩
def CAN.DBT_SJW (i : Nat) : Fld := ⟨0x2D, 0x48 + 128 * i, 20, 4, .cfg, 5, 0, 15, .clk⟩
def CAN.DBT_TDC_EN (i : Nat) : Fld := ⟨0x2D, 0x48 + 128 * i, 24, 1, .cfg, 0, 0, 1, .clk⟩
def CAN.DBT_TDCO (i : Nat) : Fld := ⟨0x2D, 0x48 + 128 * i, 25, 6, .cfg, 0, 0, 63, .clk⟩
def CAN.TP_ADDR_OWN (i : Nat) : Fld := ⟨0x2D, 0x4C + 128 * i, 0, 8, .cfg, 1, 0, 255, .clk⟩
def CAN.TP_ADDR_STMIN (i : Nat) : Fld := ⟨0x2D, 0x4C + 128 * i, 8, 8, .cfg, 0, 0, 255, .clk⟩
def CAN.TP_ADDR_BS (i : Nat) : Fld := ⟨0x2D, 0x4C + 128 * i, 16, 8, .cfg, 0, 0, 255, .clk⟩
def CAN.TP_BASE_RX_BASE (i : Nat) : Fld := ⟨0x2D, 0x50 + 128 * i, 0, 13, .cfg, 8026, 0, 8191, .clk⟩
def CAN.TP_BASE_TX_BASE (i : Nat) : Fld := ⟨0x2D, 0x50 + 128 * i, 16, 13, .cfg, 8026, 0, 8191, .clk⟩
def CAN.TP_TIMING_N_BS (i : Nat) : Fld := ⟨0x2D, 0x54 + 128 * i, 0, 12, .cfg, 150, 0, 4095, .clk⟩
def CAN.TP_TIMING_N_CR (i : Nat) : Fld := ⟨0x2D, 0x54 + 128 * i, 16, 12, .cfg, 150, 0, 4095, .clk⟩
def CAN.RETX_TIMEOUT (i : Nat) : Fld := ⟨0x2D, 0x58 + 128 * i, 0, 13, .cfg, 500, 10, 5000, .clk⟩
def CAN.RETX_LIMIT (i : Nat) : Fld := ⟨0x2D, 0x58 + 128 * i, 16, 3, .cfg, 3, 0, 7, .clk⟩
def CAN.FILTER_ID_ID (i : Nat) : Fld := ⟨0x2D, 0x5C + 0x80 * (i / 8) + 8 * (i % 8), 0, 29, .cfg, 0, 0, 536870911, .clk⟩
def CAN.FILTER_ID_DEST (i : Nat) : Fld := ⟨0x2D, 0x5C + 0x80 * (i / 8) + 8 * (i % 8), 29, 2, .cfg, 0, 0, 2, .clk⟩
def CAN.FILTER_MASK (i : Nat) : Fld := ⟨0x2D, 0x60 + 0x80 * (i / 8) + 8 * (i % 8), 0, 29, .cfg, 0, 0, 536870911, .clk⟩
def CAN.BUS_STATUS_STATE (i : Nat) : Fld := ⟨0x2D, 0x9C + 128 * i, 0, 2, .sta, 2, 0, 3, .clk⟩
def CAN.BUS_STATUS_TEC (i : Nat) : Fld := ⟨0x2D, 0x9C + 128 * i, 8, 8, .sta, 0, 0, 255, .clk⟩
def CAN.BUS_STATUS_REC (i : Nat) : Fld := ⟨0x2D, 0x9C + 128 * i, 16, 8, .sta, 0, 0, 255, .clk⟩
def CAN.RX_FRAMES (i : Nat) : Fld := ⟨0x2D, 0xA0 + 128 * i, 0, 32, .cnt, 0, 0, 4294967295, .clk⟩
def CAN.TX_FRAMES (i : Nat) : Fld := ⟨0x2D, 0xA4 + 128 * i, 0, 32, .cnt, 0, 0, 4294967295, .clk⟩
def CAN.ERR_FRAMES (i : Nat) : Fld := ⟨0x2D, 0xA8 + 128 * i, 0, 32, .cnt, 0, 0, 4294967295, .clk⟩
def CAN.BUS_OFF_COUNT (i : Nat) : Fld := ⟨0x2D, 0xAC + 128 * i, 0, 32, .cnt, 0, 0, 4294967295, .clk⟩
def CAN.TP_ABORT_COUNT (i : Nat) : Fld := ⟨0x2D, 0xB0 + 128 * i, 0, 32, .cnt, 0, 0, 4294967295, .clk⟩
def CAN.CMD_OP : Fld := ⟨0x2D, 0x140, 0, 2, .cmd, 0, 0, 3, .clk⟩
def CAN.CMD_PORT : Fld := ⟨0x2D, 0x140, 2, 1, .cmd, 0, 0, 1, .clk⟩
def CAN.CMD_ADDR : Fld := ⟨0x2D, 0x140, 4, 28, .cmd, 0, 0, 268435455, .clk⟩

/-! The STX page (chapter 14). -/
def STX.SESSION_TIMEOUT : Fld := ⟨0x2E, 0x40, 0, 16, .cfg, 5000, 100, 60000, .clk⟩
def STX.BUF_BASE : Fld := ⟨0x2E, 0x44, 16, 16, .cfg, 0, 0, 65535, .clk⟩
def STX.BUF_COUNT : Fld := ⟨0x2E, 0x44, 0, 6, .cfg, 16, 1, 64, .clk⟩
def STX.SESSION_KEK : Fld := ⟨0x2E, 0x48, 0, 9, .cfg, 0, 0, 511, .clk⟩
def STX.AUTH_FAIL_LIMIT : Fld := ⟨0x2E, 0x4C, 0, 4, .cfg, 3, 1, 15, .clk⟩
def STX.CMD_OP : Fld := ⟨0x2E, 0x50, 0, 3, .cmd, 0, 0, 7, .clk⟩
def STX.CMD_ADDR : Fld := ⟨0x2E, 0x50, 4, 28, .cmd, 0, 0, 268435455, .clk⟩
def STX.RESULT_SESSION : Fld := ⟨0x2E, 0x54, 0, 12, .sta, 0, 0, 4095, .clk⟩
def STX.RESULT_CODE : Fld := ⟨0x2E, 0x54, 16, 16, .sta, 0, 0, 65535, .clk⟩
def STX.SESSIONS_ACTIVE : Fld := ⟨0x2E, 0x58, 0, 13, .sta, 0, 0, 8191, .clk⟩
def STX.SESSIONS_HANDSHAKES : Fld := ⟨0x2E, 0x58, 16, 3, .sta, 0, 0, 7, .clk⟩
def STX.HELLO_BUSY : Fld := ⟨0x2E, 0x5C, 0, 32, .cnt, 0, 0, 4294967295, .clk⟩
def STX.AUTH_FAIL_COUNT : Fld := ⟨0x2E, 0x60, 0, 32, .cnt, 0, 0, 4294967295, .clk⟩
def STX.BUF_FULL : Fld := ⟨0x2E, 0x64, 0, 32, .cnt, 0, 0, 4294967295, .clk⟩
def STX.DROPPED_TYPE : Fld := ⟨0x2E, 0x68, 0, 32, .cnt, 0, 0, 4294967295, .clk⟩
def STX.TIMEOUT_COUNT : Fld := ⟨0x2E, 0x6C, 0, 32, .cnt, 0, 0, 4294967295, .clk⟩
def STX.ABANDONED : Fld := ⟨0x2E, 0x70, 0, 32, .cnt, 0, 0, 4294967295, .clk⟩

/-! The ATT page (chapter 14). -/
def ATT.RMT_BASE : Fld := ⟨0x2F, 0x40, 16, 16, .cfg, 0, 0, 65535, .clk⟩
def ATT.RMT_COUNT : Fld := ⟨0x2F, 0x44, 0, 14, .cfg, 0, 0, 8192, .clk⟩
def ATT.ROUND_LIMIT : Fld := ⟨0x2F, 0x48, 0, 16, .cfg, 2000, 10, 60000, .clk⟩
def ATT.CMD_OP : Fld := ⟨0x2F, 0x4C, 0, 3, .cmd, 0, 0, 7, .clk⟩
def ATT.CMD_ADDR : Fld := ⟨0x2F, 0x4C, 4, 28, .cmd, 0, 0, 268435455, .clk⟩
def ATT.STATUS_IDENTITY_READY : Fld := ⟨0x2F, 0x50, 0, 1, .sta, 0, 0, 1, .clk⟩
def ATT.STATUS_RMT_LOCKED : Fld := ⟨0x2F, 0x50, 1, 1, .sta, 0, 0, 1, .clk⟩
def ATT.STATUS_ROUND_BUSY : Fld := ⟨0x2F, 0x50, 2, 1, .sta, 0, 0, 1, .clk⟩
def ATT.RESULT : Fld := ⟨0x2F, 0x54, 16, 16, .sta, 0, 0, 65535, .clk⟩
def ATT.ROUND_A_CHECKED : Fld := ⟨0x2F, 0x58, 0, 13, .sta, 0, 0, 8191, .clk⟩
def ATT.ROUND_A_ACCEPTED : Fld := ⟨0x2F, 0x58, 16, 13, .sta, 0, 0, 8191, .clk⟩
def ATT.ROUND_B_REJECTED : Fld := ⟨0x2F, 0x5C, 0, 13, .sta, 0, 0, 8191, .clk⟩
def ATT.ROUND_B_UNCHECKED : Fld := ⟨0x2F, 0x5C, 16, 13, .sta, 0, 0, 8191, .clk⟩
def ATT.RMT_DIGEST (i : Nat) : Fld := ⟨0x2F, 0x60 + 4 * i, 0, 32, .sta, 0, 0, 4294967295, .clk⟩
def ATT.QUOTE_LENGTH : Fld := ⟨0x2F, 0x90, 0, 15, .sta, 0, 0, 32767, .clk⟩

/-! The CLOV page (chapter 16). -/
def CLOV.CTRL_EN : Fld := ⟨0x30, 0x40, 0, 1, .cfg, 0, 0, 1, .aon⟩
def CLOV.CTRL_PERIOD : Fld := ⟨0x30, 0x40, 16, 11, .cfg, 1024, 1, 1024, .aon⟩
def CLOV.INPUT_CFG_IGN_DEB : Fld := ⟨0x30, 0x44, 0, 4, .cfg, 3, 1, 15, .aon⟩
def CLOV.INPUT_CFG_WAKE_DEB : Fld := ⟨0x30, 0x44, 4, 4, .cfg, 3, 1, 15, .aon⟩
def CLOV.INPUT_CFG_ENCL_DEB : Fld := ⟨0x30, 0x44, 8, 4, .cfg, 3, 1, 15, .aon⟩
def CLOV.INPUT_CFG_IGN_POL : Fld := ⟨0x30, 0x44, 12, 1, .cfg, 0, 0, 1, .aon⟩
def CLOV.INPUT_CFG_WAKE_POL : Fld := ⟨0x30, 0x44, 13, 1, .cfg, 0, 0, 1, .aon⟩
def CLOV.INPUT_CFG_ENCL_POL : Fld := ⟨0x30, 0x44, 14, 1, .cfg, 0, 0, 1, .aon⟩
def CLOV.INPUT_CFG_DIST_FILT : Fld := ⟨0x30, 0x44, 16, 1, .cfg, 1, 0, 1, .aon⟩
def CLOV.ANALOG_CFG_VBAT_EN : Fld := ⟨0x30, 0x48, 0, 1, .cfg, 0, 0, 1, .aon⟩
def CLOV.ANALOG_CFG_TEMP_EN : Fld := ⟨0x30, 0x48, 1, 1, .cfg, 0, 0, 1, .aon⟩
def CLOV.ANALOG_CFG_VBAT_SHIFT : Fld := ⟨0x30, 0x48, 4, 4, .cfg, 4, 1, 8, .aon⟩
def CLOV.ANALOG_CFG_TEMP_SHIFT : Fld := ⟨0x30, 0x48, 8, 4, .cfg, 4, 1, 8, .aon⟩
def CLOV.LOOP_CFG_LOOP_A_EN : Fld := ⟨0x30, 0x4C, 0, 1, .cfg, 0, 0, 1, .aon⟩
def CLOV.LOOP_CFG_LOOP_B_EN : Fld := ⟨0x30, 0x4C, 1, 1, .cfg, 0, 0, 1, .aon⟩
def CLOV.LOOP_CFG_FAULT_LIMIT : Fld := ⟨0x30, 0x4C, 4, 4, .cfg, 3, 1, 15, .aon⟩
def CLOV.LOOP_CFG_SETTLE : Fld := ⟨0x30, 0x4C, 8, 8, .cfg, 10, 1, 255, .aon⟩
def CLOV.MRT_CMP_LO : Fld := ⟨0x30, 0x50, 0, 32, .cfg, 0xFFFFFFFF, 0, 4294967295, .aon⟩
def CLOV.MRT_CMP_HI : Fld := ⟨0x30, 0x54, 0, 32, .cfg, 0xFFFFFFFF, 0, 4294967295, .aon⟩
def CLOV.WAKE_OUT_CFG_PULSE : Fld := ⟨0x30, 0x58, 0, 8, .cfg, 10, 1, 255, .aon⟩
def CLOV.WAKE_OUT_CFG_POLARITY : Fld := ⟨0x30, 0x58, 8, 1, .cfg, 0, 0, 1, .aon⟩
def CLOV.VALUES_A_FLAGS : Fld := ⟨0x30, 0x60, 0, 8, .sta, 0, 0, 255, .aon⟩
def CLOV.VALUES_A_DIST : Fld := ⟨0x30, 0x60, 16, 16, .sta, 0, 0, 65535, .aon⟩
def CLOV.VALUES_B_VBAT : Fld := ⟨0x30, 0x64, 0, 10, .sta, 0, 0, 1023, .aon⟩
def CLOV.VALUES_B_TEMP : Fld := ⟨0x30, 0x64, 16, 10, .sta, 0, 0, 1023, .aon⟩
def CLOV.PULSE_ACCUM : Fld := ⟨0x30, 0x68, 0, 32, .sta, 0, 0, 4294967295, .aon⟩
def CLOV.LOG_HEAD : Fld := ⟨0x30, 0x6C, 0, 8, .sta, 0, 0, 255, .aon⟩
def CLOV.LOG_TAIL : Fld := ⟨0x30, 0x70, 0, 8, .sta, 0, 0, 255, .aon⟩
def CLOV.LOG_LOST : Fld := ⟨0x30, 0x74, 0, 16, .cnt, 0, 0, 65535, .aon⟩
def CLOV.CMD : Fld := ⟨0x30, 0x78, 0, 1, .cmd, 0, 0, 1, .aon⟩
def CLOV.TERM_A_CHAN (i : Nat) : Fld := ⟨0x30, 0x100 + 16 * i, 0, 4, .cfg, 0, 0, 11, .aon⟩
def CLOV.TERM_A_OP (i : Nat) : Fld := ⟨0x30, 0x100 + 16 * i, 4, 2, .cfg, 0, 0, 3, .aon⟩
def CLOV.TERM_A_VALUE (i : Nat) : Fld := ⟨0x30, 0x100 + 16 * i, 16, 16, .cfg, 0, 0, 65535, .aon⟩
def CLOV.TERM_B_CHAN (i : Nat) : Fld := ⟨0x30, 0x104 + 16 * i, 0, 4, .cfg, 0, 0, 11, .aon⟩
def CLOV.TERM_B_OP (i : Nat) : Fld := ⟨0x30, 0x104 + 16 * i, 4, 2, .cfg, 0, 0, 3, .aon⟩
def CLOV.TERM_B_VALUE (i : Nat) : Fld := ⟨0x30, 0x104 + 16 * i, 16, 16, .cfg, 0, 0, 65535, .aon⟩
def CLOV.TERM_C_CHAN (i : Nat) : Fld := ⟨0x30, 0x108 + 16 * i, 0, 4, .cfg, 0, 0, 11, .aon⟩
def CLOV.TERM_C_OP (i : Nat) : Fld := ⟨0x30, 0x108 + 16 * i, 4, 2, .cfg, 0, 0, 3, .aon⟩
def CLOV.TERM_C_VALUE (i : Nat) : Fld := ⟨0x30, 0x108 + 16 * i, 16, 16, .cfg, 0, 0, 65535, .aon⟩
def CLOV.ACTION_ACTIONS (i : Nat) : Fld := ⟨0x30, 0x10C + 16 * i, 0, 5, .cfg, 0, 0, 31, .aon⟩
def CLOV.ACTION_LEVEL (i : Nat) : Fld := ⟨0x30, 0x10C + 16 * i, 8, 1, .cfg, 0, 0, 1, .aon⟩
def CLOV.ACTION_KIND (i : Nat) : Fld := ⟨0x30, 0x10C + 16 * i, 12, 3, .cfg, 0, 0, 6, .aon⟩
def CLOV.RULE_COUNT (i : Nat) : Fld := ⟨0x30, 0x300 + 4 * i, 0, 16, .cnt, 0, 0, 65535, .aon⟩

/-! The AON page (chapter 16). -/
def AON.TAMPER_LATCH : Fld := ⟨0x31, 0x40, 0, 1, .sta, 0, 0, 1, .aon⟩
def AON.TAMPER_ENCL_LATCH : Fld := ⟨0x31, 0x40, 1, 1, .sta, 0, 0, 1, .aon⟩
def AON.TAMPER_CAUSE : Fld := ⟨0x31, 0x40, 4, 3, .sta, 0, 0, 7, .aon⟩
def AON.TAMPER_RULE : Fld := ⟨0x31, 0x40, 8, 8, .sta, 255, 0, 255, .aon⟩
def AON.TAMPER_CFG : Fld := ⟨0x31, 0x44, 0, 1, .cfg, 0, 0, 1, .aon⟩
def AON.CMD : Fld := ⟨0x31, 0x48, 0, 1, .cmd, 0, 0, 1, .aon⟩
def AON.HANDOVER_MRT_LO : Fld := ⟨0x31, 0x4C, 0, 32, .sta, 0, 0, 4294967295, .aon⟩
def AON.HANDOVER_MRT_HI : Fld := ⟨0x31, 0x50, 0, 32, .sta, 0, 0, 4294967295, .aon⟩
def AON.POWER_STATUS_PWR_EN : Fld := ⟨0x31, 0x54, 0, 1, .sta, 1, 0, 1, .aon⟩
def AON.POWER_STATUS_WAKE_OUT : Fld := ⟨0x31, 0x54, 1, 1, .sta, 0, 0, 1, .aon⟩
def AON.POWER_STATUS_WAKE_RULE : Fld := ⟨0x31, 0x54, 8, 8, .sta, 255, 0, 255, .aon⟩
def AON.VIGIL_COUNT : Fld := ⟨0x31, 0x58, 0, 16, .cnt, 0, 0, 65535, .aon⟩
def AON.TAMPER_SET_COUNT : Fld := ⟨0x31, 0x5C, 0, 16, .cnt, 0, 0, 65535, .aon⟩

/-- The registers of GLB, in offset order (header apart). -/
def GLB.table : List RegDesc := [
  ⟨0x40, 0, 1, fun _ => [GLB.STEPPING]⟩,
  ⟨0x44, 0, 1, fun _ => [GLB.MODE, GLB.MODE_ATTACHED, GLB.MODE_DEV_RECOVERY, GLB.MODE_TIME_GAP, GLB.MODE_LAST_RESET]⟩,
  ⟨0x48, 0, 1, fun _ => [GLB.MODE_CMD_ATTACH, GLB.MODE_CMD_SEAL, GLB.MODE_CMD_SEAL_TO_SHELF]⟩,
  ⟨0x4C, 0, 1, fun _ => [GLB.WARM_COUNT]⟩,
  ⟨0x50, 0, 1, fun _ => [GLB.UPDATE_STROBE]⟩,
  ⟨0x54, 0, 1, fun _ => [GLB.STROBE_STATUS_BUSY, GLB.STROBE_STATUS_PENDING_GROUPS, GLB.STROBE_STATUS_REFUSED_GROUPS]⟩,
  ⟨0x58, 0, 1, fun _ => [GLB.STROBE_REASON]⟩,
  ⟨0x5C, 0, 1, fun _ => [GLB.STALL_LIMIT]⟩,
  ⟨0x60, 0, 1, fun _ => [GLB.STROBE_LIMIT]⟩,
  ⟨0x64, 0, 1, fun _ => [GLB.CRC_LIVE]⟩,
  ⟨0x68, 0, 1, fun _ => [GLB.CRC_REF]⟩,
  ⟨0x6C, 0, 1, fun _ => [GLB.CRC_COMMIT]⟩,
  ⟨0x70, 0, 1, fun _ => [GLB.CRC_CTRL]⟩,
  ⟨0x74, 0, 1, fun _ => [GLB.CRC_GRACE]⟩,
  ⟨0x78, 0, 1, fun _ => [GLB.CRC_STATUS_ARMED, GLB.CRC_STATUS_GRACE_OPEN, GLB.CRC_STATUS_COMMIT_BUSY]⟩,
  ⟨0x7C, 0, 1, fun _ => [GLB.CRC_MISMATCH_COUNT]⟩]

/-- The registers of LCS, in offset order (header apart). -/
def LCS.table : List RegDesc := [
  ⟨0x40, 0, 1, fun _ => [LCS.STATE, LCS.STATE_INTENT_OPEN, LCS.STATE_THERM_COUNT, LCS.STATE_THERM_VALID, LCS.STATE_CODEWORD_VALID, LCS.STATE_INTENT_TARGET]⟩,
  ⟨0x44, 4, 4, fun i => [LCS.SERIAL i]⟩,
  ⟨0x54, 0, 1, fun _ => [LCS.ROOT_STATUS_FUSE_DONE, LCS.ROOT_STATUS_BORN_DONE, LCS.ROOT_STATUS_BORN_FAIL, LCS.ROOT_STATUS_ROOT_TEST, LCS.ROOT_STATUS_ROOT_WITHHELD]⟩,
  ⟨0x58, 0, 1, fun _ => [LCS.BOOT_COUNT]⟩,
  ⟨0x5C, 0, 1, fun _ => [LCS.TRANSITION_CMD_OP, LCS.TRANSITION_CMD_ADDR]⟩,
  ⟨0x60, 0, 1, fun _ => [LCS.TRANSITION_STATUS_BUSY, LCS.TRANSITION_STATUS_DEFERRED, LCS.TRANSITION_STATUS_STEP]⟩,
  ⟨0x64, 4, 12, fun i => [LCS.INTENT_DIGEST i]⟩]

/-- The registers of DBG, in offset order (header apart). -/
def DBG.table : List RegDesc := [
  ⟨0x40, 0, 1, fun _ => [DBG.DBG_STATE_OPEN, DBG.DBG_STATE_ROOT_TEST, DBG.DBG_STATE_GRANT_ACTIVE, DBG.DBG_STATE_LEDGER_STOPPED]⟩,
  ⟨0x44, 0, 1, fun _ => [DBG.RIGHTS_ACTIVE]⟩,
  ⟨0x48, 0, 1, fun _ => [DBG.GRANT_CMD_OP, DBG.GRANT_CMD_ADDR]⟩,
  ⟨0x4C, 0, 1, fun _ => [DBG.GRANT_STATUS_BUSY, DBG.GRANT_STATUS_CHALLENGE_VALID]⟩,
  ⟨0x50, 4, 4, fun i => [DBG.CHALLENGE i]⟩,
  ⟨0x60, 4, 12, fun i => [DBG.GRANT_DIGEST i]⟩]

/-- The registers of BOOT, in offset order (header apart). -/
def BOOT.table : List RegDesc := [
  ⟨0x40, 0, 1, fun _ => [BOOT.BOOT_STATUS_SOURCE, BOOT.BOOT_STATUS_SLOT, BOOT.BOOT_STATUS_AWAIT, BOOT.BOOT_STATUS_FATAL, BOOT.BOOT_STATUS_FB_SLOW, BOOT.BOOT_STATUS_ROOT_WITHHELD, BOOT.BOOT_STATUS_RULE_BOTH, BOOT.BOOT_STATUS_ECDSA_OK, BOOT.BOOT_STATUS_MLDSA_OK]⟩,
  ⟨0x44, 0, 1, fun _ => [BOOT.ORDER_USED_ORDER, BOOT.ORDER_USED_FROM_STRAPS, BOOT.ORDER_USED_STRAPS]⟩,
  ⟨0x48, 0, 1, fun _ => [BOOT.SEQUENCE]⟩,
  ⟨0x4C, 0, 1, fun _ => [BOOT.IMAGE_INFO_SVN, BOOT.IMAGE_INFO_CORE_MASK]⟩,
  ⟨0x50, 4, 8, fun i => [BOOT.ATTEMPT_CODE i, BOOT.ATTEMPT_SOURCE i, BOOT.ATTEMPT_SLOT i]⟩,
  ⟨0x70, 4, 12, fun i => [BOOT.MEASUREMENT i]⟩,
  ⟨0xA0, 0, 1, fun _ => [BOOT.ROM_LOCK]⟩,
  ⟨0xA4, 0, 1, fun _ => [BOOT.HANDOVER_CMD]⟩,
  ⟨0xA8, 0, 1, fun _ => [BOOT.BOOT_TIME]⟩,
  ⟨0xAC, 0, 1, fun _ => [BOOT.OTP_CMD_OP, BOOT.OTP_CMD_ADDR]⟩,
  ⟨0xB0, 0, 1, fun _ => [BOOT.OTP_STATUS_ORDER_LOCKED, BOOT.OTP_STATUS_HASH_SET, BOOT.OTP_STATUS_REVOKED, BOOT.OTP_STATUS_SIG_EITHER, BOOT.OTP_STATUS_PUSH_WINDOW]⟩]

/-- The registers of CORE, in offset order (header apart). -/
def CORE.table : List RegDesc := [
  ⟨0x40, 4, 4, fun i => [CORE.CORE_STATUS_STATE i, CORE.CORE_STATUS_LOCKSTEP_OK i, CORE.CORE_STATUS_MBIST_OK i]⟩,
  ⟨0x50, 4, 4, fun i => [CORE.DOORBELL_RING i, CORE.DOORBELL_ENTRY i]⟩,
  ⟨0x60, 0, 1, fun _ => [CORE.WDT_PERIOD]⟩,
  ⟨0x64, 0, 1, fun _ => [CORE.WDT_KICK]⟩,
  ⟨0x68, 0, 1, fun _ => [CORE.FAULT_CMD]⟩]

/-- The registers of PWR, in offset order (header apart). -/
def PWR.table : List RegDesc := [
  ⟨0x40, 0, 1, fun _ => [PWR.STATUS_BRACE, PWR.STATUS_CORE_WARN, PWR.STATUS_AON_WARN, PWR.STATUS_PWR_WARN, PWR.STATUS_BRACE_LONG]⟩,
  ⟨0x44, 0, 1, fun _ => [PWR.BROWNOUT_RIDE]⟩,
  ⟨0x48, 0, 1, fun _ => [PWR.BRACE_COUNT]⟩,
  ⟨0x4C, 0, 1, fun _ => [PWR.BRACE_MAX_SEEN]⟩,
  ⟨0x50, 0, 1, fun _ => [PWR.BRACE_LONG_MS]⟩,
  ⟨0x54, 0, 1, fun _ => [PWR.GLITCH_CTRL]⟩,
  ⟨0x58, 0, 1, fun _ => [PWR.GLITCH_COUNT]⟩,
  ⟨0x5C, 0, 1, fun _ => [PWR.GLITCH_LAST]⟩,
  ⟨0x60, 0, 1, fun _ => [PWR.CMD]⟩,
  ⟨0x64, 0, 1, fun _ => [PWR.FUSE_STATUS]⟩]

/-- The registers of EVT, in offset order (header apart). -/
def EVT.table : List RegDesc := [
  ⟨0x40, 4, 50, fun i => [EVT.ROUTE_LINE i, EVT.ROUTE_PIN_EN i]⟩,
  ⟨0x108, 4, 2, fun i => [EVT.LINE_PEND i]⟩,
  ⟨0x120, 4, 8, fun i => [EVT.CORE_ENABLE i]⟩,
  ⟨0x140, 0, 1, fun _ => [EVT.PIN_STATUS]⟩]

/-- The registers of MGP, in offset order (header apart). -/
def MGP.table : List RegDesc := [
  ⟨0x40, 0, 1, fun _ => [MGP.CONFIG_PROTOCOL, MGP.CONFIG_MAX_SCK]⟩,
  ⟨0x44, 0, 1, fun _ => [MGP.STATUS_OWNER, MGP.STATUS_SUBMITTED, MGP.STATUS_RESET_SEEN, MGP.STATUS_INT_PENDING]⟩,
  ⟨0x48, 0, 1, fun _ => [MGP.MSG_INFO_CODE, MGP.MSG_INFO_FLAGS, MGP.MSG_INFO_LENGTH]⟩,
  ⟨0x4C, 0, 1, fun _ => [MGP.CMD_OP, MGP.CMD_ADDR]⟩,
  ⟨0x50, 0, 1, fun _ => [MGP.MSG_COUNT]⟩,
  ⟨0x54, 0, 1, fun _ => [MGP.CRC_ERR_COUNT]⟩,
  ⟨0x58, 0, 1, fun _ => [MGP.HW_MSG_COUNT]⟩,
  ⟨0x5C, 0, 1, fun _ => [MGP.PAGE_READ_COUNT]⟩]

/-- The registers of HFP, in offset order (header apart). -/
def HFP.table (n : Nat) : List RegDesc := [
  ⟨0x40, 0, 1, fun _ => [HFP.PROFILE_PROTOCOL n, HFP.PROFILE_STALL n, HFP.PROFILE_MAX_SCK n, HFP.PROFILE_DUMMY n, HFP.PROFILE_ADDR_WIDE n, HFP.PROFILE_CMD_EXT n]⟩,
  ⟨0x44, 0, 1, fun _ => [HFP.DS_HOLD n]⟩,
  ⟨0x48, 0, 1, fun _ => [HFP.FILL n]⟩,
  ⟨0x4C, 8, 2, fun i => [HFP.CS_BASE n i]⟩,
  ⟨0x50, 8, 2, fun i => [HFP.CS_SIZE n i]⟩,
  ⟨0x60, 0, 1, fun _ => [HFP.PORT_STATUS_OWNS_PINS n, HFP.PORT_STATUS_INTEGRITY_FAIL n, HFP.PORT_STATUS_PARKED n]⟩,
  ⟨0x64, 0, 1, fun _ => [HFP.TXN_COUNT n]⟩,
  ⟨0x68, 0, 1, fun _ => [HFP.DENY_COUNT n]⟩,
  ⟨0x6C, 0, 1, fun _ => [HFP.STALL_COUNT n]⟩,
  ⟨0x70, 0, 1, fun _ => [HFP.STALL_MAX_SEEN n]⟩,
  ⟨0x74, 0, 1, fun _ => [HFP.HOLD_EXPIRED_COUNT n]⟩,
  ⟨0x78, 0, 1, fun _ => [HFP.OWNERSHIP_DENY_COUNT n]⟩,
  ⟨0x7C, 0, 1, fun _ => [HFP.GUARD_EARLY_COUNT n]⟩,
  ⟨0x80, 0, 1, fun _ => [HFP.WBUF_OVERFLOW_COUNT n]⟩,
  ⟨0x84, 0, 1, fun _ => [HFP.RETAINED_CRC n]⟩]

/-- The registers of POL, in offset order (header apart). -/
def POL.table (n : Nat) : List RegDesc := [
  ⟨0x40, 0, 1, fun _ => [POL.WINDOW_BASE n]⟩,
  ⟨0x44, 0, 1, fun _ => [POL.STEER_EN n, POL.STEER_CS n, POL.STEER_SLOT_LOG2 n]⟩,
  ⟨0x48, 0, 1, fun _ => [POL.STEER_BASE n]⟩,
  ⟨0x4C, 0, 1, fun _ => [POL.IMAGE_OFFSET n]⟩,
  ⟨0x50, 0, 1, fun _ => [POL.UNADDR n]⟩,
  ⟨0x54, 0, 1, fun _ => [POL.STATUS_EMU_STATUS_OPCODE n, POL.STATUS_EMU_FLAG_OPCODE n, POL.STATUS_EMU_WREN_OPCODE n, POL.STATUS_EMU_CLEAR_OPCODE n]⟩,
  ⟨0x58, 0, 1, fun _ => [POL.STATUS_BITS_WIP_BIT n, POL.STATUS_BITS_WEL_BIT n, POL.STATUS_BITS_PFAIL_BIT n, POL.STATUS_BITS_EFAIL_BIT n, POL.STATUS_BITS_FAIL_REG n, POL.STATUS_BITS_EMU_EN n]⟩,
  ⟨0x5C, 0, 1, fun _ => [POL.EMU_PROGRAM n]⟩,
  ⟨0x60, 0, 1, fun _ => [POL.EMU_ERASE n]⟩,
  ⟨0x64, 0, 1, fun _ => [POL.STAGE_CTRL_OP n, POL.STAGE_CTRL_ADDR n]⟩,
  ⟨0x68, 0, 1, fun _ => [POL.STAGE_STATE_STATE n, POL.STAGE_STATE_SLOT n, POL.STAGE_STATE_LATCH n]⟩,
  ⟨0x6C, 0, 1, fun _ => [POL.STAGE_SEQ n]⟩,
  ⟨0x70, 0, 1, fun _ => [POL.STEER_STATUS n]⟩,
  ⟨0x74, 0, 1, fun _ => [POL.LAST_DENY_ADDR n]⟩,
  ⟨0x78, 0, 1, fun _ => [POL.LAST_DENY_OP_OPCODE n, POL.LAST_DENY_OP_CLASS n, POL.LAST_DENY_OP_ACTION n]⟩,
  ⟨0x7C, 0, 1, fun _ => [POL.READ_DENY_COUNT n]⟩,
  ⟨0x80, 0, 1, fun _ => [POL.ABSORB_COUNT n]⟩,
  ⟨0x84, 0, 1, fun _ => [POL.MIXED_COUNT n]⟩,
  ⟨0x88, 0, 1, fun _ => [POL.LOG_DROPPED n]⟩,
  ⟨0x8C, 0, 1, fun _ => [POL.RETAINED_CRC n]⟩,
  ⟨0x100, 4, 64, fun i => [POL.OPCODE_CLASS n (4 * i + 0), POL.OPCODE_ADDR n (4 * i + 0), POL.OPCODE_ESIZE n (4 * i + 0), POL.OPCODE_CLASS n (4 * i + 1), POL.OPCODE_ADDR n (4 * i + 1), POL.OPCODE_ESIZE n (4 * i + 1), POL.OPCODE_CLASS n (4 * i + 2), POL.OPCODE_ADDR n (4 * i + 2), POL.OPCODE_ESIZE n (4 * i + 2), POL.OPCODE_CLASS n (4 * i + 3), POL.OPCODE_ADDR n (4 * i + 3), POL.OPCODE_ESIZE n (4 * i + 3)]⟩,
  ⟨0x4000, 16, 256, fun i => [POL.REGION_BASE n i]⟩,
  ⟨0x4004, 16, 256, fun i => [POL.REGION_SIZE n i]⟩,
  ⟨0x4008, 16, 256, fun i => [POL.REGION_ATTR_CLASSES n i, POL.REGION_ATTR_ESCORT n i, POL.REGION_ATTR_STAGING n i, POL.REGION_ATTR_STEER n i]⟩]

/-- The registers of FCH, in offset order (header apart). -/
def FCH.table (n : Nat) : List RegDesc := [
  ⟨0x40, 0, 1, fun _ => [FCH.PROFILE_PROTOCOL n, FCH.PROFILE_ADDR_WIDE n, FCH.PROFILE_SCK_MHZ n, FCH.PROFILE_DUMMY n]⟩,
  ⟨0x44, 0, 1, fun _ => [FCH.TIMING_T_DESELECT n, FCH.TIMING_STROBE_WAIT n, FCH.TIMING_PAGE_LOG2 n, FCH.TIMING_ERASE_LOG2 n]⟩,
  ⟨0x48, 0, 1, fun _ => [FCH.T_PP_MAX n]⟩,
  ⟨0x4C, 0, 1, fun _ => [FCH.T_ERASE_MAX n]⟩,
  ⟨0x50, 0, 1, fun _ => [FCH.OPCODES_A_READ_OP n, FCH.OPCODES_A_PP_OP n, FCH.OPCODES_A_ERASE_OP n, FCH.OPCODES_A_WREN_OP n]⟩,
  ⟨0x54, 0, 1, fun _ => [FCH.OPCODES_B_RDSR_OP n, FCH.OPCODES_B_SUSPEND_OP n, FCH.OPCODES_B_RESUME_OP n, FCH.OPCODES_B_WIP_BIT n]⟩,
  ⟨0x58, 0, 1, fun _ => [FCH.SHARING_MODE n, FCH.SHARING_LEASE_MIN n]⟩,
  ⟨0x5C, 0, 1, fun _ => [FCH.K0_RES n]⟩,
  ⟨0x60, 4, 5, fun i => [FCH.RES_READ n i]⟩,
  ⟨0x74, 4, 5, fun i => [FCH.RES_PROG n i]⟩,
  ⟨0x88, 0, 1, fun _ => [FCH.D_READ n]⟩,
  ⟨0x8C, 0, 1, fun _ => [FCH.D_PROG n]⟩,
  ⟨0x90, 0, 1, fun _ => [FCH.T1K n]⟩,
  ⟨0x94, 0, 1, fun _ => [FCH.UTIL n]⟩,
  ⟨0x98, 0, 1, fun _ => [FCH.QUANTUM_K2 n, FCH.QUANTUM_K3 n, FCH.QUANTUM_K4 n, FCH.QUANTUM_K5 n]⟩,
  ⟨0x9C, 0, 1, fun _ => [FCH.CMD_OP n, FCH.CMD_ADDR n]⟩,
  ⟨0xA0, 0, 1, fun _ => [FCH.STATUS_BUSY n, FCH.STATUS_OWNER n, FCH.STATUS_LEASE_ACTIVE n, FCH.STATUS_SUSPENDED n, FCH.STATUS_INIT_DONE n, FCH.STATUS_INIT_PROTOCOL n, FCH.STATUS_INIT_ADDR_WIDE n, FCH.STATUS_INIT_DUMMY n]⟩,
  ⟨0xA4, 0, 1, fun _ => [FCH.RETRY_COUNT n]⟩,
  ⟨0xA8, 0, 1, fun _ => [FCH.READ_FAIL_COUNT n]⟩,
  ⟨0xAC, 0, 1, fun _ => [FCH.YIELD_COUNT n]⟩,
  ⟨0xB0, 0, 1, fun _ => [FCH.ERASE_SUSPEND_COUNT n]⟩]

/-- The registers of XBR, in offset order (header apart). -/
def XBR.table : List RegDesc := [
  ⟨0x40, 0, 1, fun _ => [XBR.AGE_LIMIT]⟩,
  ⟨0x44, 0, 1, fun _ => [XBR.SHORT_WINDOW]⟩,
  ⟨0x48, 0, 1, fun _ => [XBR.DROP_LIMIT_3]⟩,
  ⟨0x4C, 0, 1, fun _ => [XBR.DROP_LIMIT_4]⟩,
  ⟨0x50, 0, 1, fun _ => [XBR.DROP_LIMIT_5]⟩,
  ⟨0x60, 4, 4, fun i => [XBR.SHARE_K2 i, XBR.SHARE_K3 i, XBR.SHARE_K4 i, XBR.SHARE_K5 i]⟩,
  ⟨0x70, 0, 1, fun _ => [XBR.CTX_USED]⟩,
  ⟨0x74, 0, 1, fun _ => [XBR.SACRIFICE]⟩,
  ⟨0x80, 4, 4, fun i => [XBR.SHORT_WINDOWS i]⟩,
  ⟨0x90, 4, 3, fun i => [XBR.DROPPED i]⟩,
  ⟨0xA0, 0, 1, fun _ => [XBR.PROMOTED_COUNT]⟩,
  ⟨0xA4, 0, 1, fun _ => [XBR.K2_MAX_SEEN]⟩]

/-- The registers of ESC, in offset order (header apart). -/
def ESC.table : List RegDesc := [
  ⟨0x40, 16, 24, fun i => [ESC.WIN_BASE i]⟩,
  ⟨0x44, 16, 24, fun i => [ESC.WIN_SIZE i]⟩,
  ⟨0x48, 16, 24, fun i => [ESC.WIN_LEAF i]⟩,
  ⟨0x4C, 16, 24, fun i => [ESC.WIN_STATUS_LOADED i, ESC.WIN_STATUS_SWEPT i]⟩,
  ⟨0x1C0, 0, 1, fun _ => [ESC.CMD_OP, ESC.CMD_HOST]⟩,
  ⟨0x1C4, 0, 1, fun _ => [ESC.BLOCK_TIMEOUT]⟩,
  ⟨0x1C8, 0, 1, fun _ => [ESC.LEAVES_USED]⟩,
  ⟨0x1D0, 4, 6, fun i => [ESC.FIRST_TOUCH_COUNT i]⟩,
  ⟨0x1E8, 4, 6, fun i => [ESC.FT_MAX_SEEN i]⟩,
  ⟨0x200, 4, 6, fun i => [ESC.STREAM_CUT_COUNT i]⟩,
  ⟨0x218, 4, 6, fun i => [ESC.VERIFIED_BLOCKS i]⟩]

/-- The registers of HSV, in offset order (header apart). -/
def HSV.table : List RegDesc := [
  ⟨0x40, 4, 6, fun i => [HSV.HOST_STATE_STATE i, HSV.HOST_STATE_HOLD_CAUSE i, HSV.HOST_STATE_RETRY i, HSV.HOST_STATE_LEVEL i, HSV.HOST_STATE_OK_SEEN i]⟩,
  ⟨0x58, 0, 1, fun _ => [HSV.HOST_CMD_OP, HSV.HOST_CMD_HOST, HSV.HOST_CMD_SLOT]⟩,
  ⟨0x5C, 0, 1, fun _ => [HSV.REATTACH_LIMIT]⟩,
  ⟨0x60, 0, 1, fun _ => [HSV.GATE_BUF]⟩,
  ⟨0x64, 0, 1, fun _ => [HSV.MGP_VIEW_LO]⟩,
  ⟨0x68, 0, 1, fun _ => [HSV.MGP_VIEW_HI]⟩,
  ⟨0x80, 32, 6, fun i => [HSV.SUPERVISE_OK_SOURCE i, HSV.SUPERVISE_BOOT_RETRIES i, HSV.SUPERVISE_ALT_EN i, HSV.SUPERVISE_RESTORE_EN i, HSV.SUPERVISE_NET_EN i]⟩,
  ⟨0x84, 32, 6, fun i => [HSV.BOOT_TIMEOUT i]⟩,
  ⟨0x88, 32, 6, fun i => [HSV.RESET_PULSE i]⟩,
  ⟨0x8C, 32, 6, fun i => [HSV.GATE_LIMIT i]⟩,
  ⟨0x90, 32, 6, fun i => [HSV.RESTORE_LIMIT i]⟩,
  ⟨0x94, 32, 6, fun i => [HSV.MEND_DEADLINE i]⟩,
  ⟨0x98, 32, 6, fun i => [HSV.OK_LOSS i]⟩,
  ⟨0x9C, 32, 6, fun i => [HSV.GOLDEN_BASE i]⟩,
  ⟨0x140, 4, 72, fun i => [HSV.SIGNER_HASH i]⟩,
  ⟨0x260, 4, 6, fun i => [HSV.SLOT_INFO_SEL i, HSV.SLOT_INFO_A_VALID i, HSV.SLOT_INFO_B_VALID i, HSV.SLOT_INFO_NEXT i, HSV.SLOT_INFO_NEXT_VALID i]⟩,
  ⟨0x280, 4, 6, fun i => [HSV.FAULT i]⟩]

/-- The registers of CMP, in offset order (header apart). -/
def CMP.table : List RegDesc := [
  ⟨0x40, 0, 1, fun _ => [CMP.STATUS_BUSY, CMP.STATUS_DONE]⟩,
  ⟨0x44, 0, 1, fun _ => [CMP.CMD_OP, CMP.CMD_ADDR]⟩,
  ⟨0x48, 0, 1, fun _ => [CMP.OUT_COUNT]⟩,
  ⟨0x4C, 0, 1, fun _ => [CMP.ERR_OFFSET]⟩]

/-- The registers of DGE, in offset order (header apart). -/
def DGE.table (n : Nat) : List RegDesc := [
  ⟨0x40, 0, 1, fun _ => [DGE.STATUS_BUSY n, DGE.STATUS_OPEN n, DGE.STATUS_SAVED n, DGE.STATUS_DONE n]⟩,
  ⟨0x44, 0, 1, fun _ => [DGE.CMD_OP n, DGE.CMD_ADDR n]⟩,
  ⟨0x48, 0, 1, fun _ => [DGE.BYTE_COUNT_LO n]⟩,
  ⟨0x4C, 0, 1, fun _ => [DGE.BYTE_COUNT_HI n]⟩,
  ⟨0x50, 4, 16, fun i => [DGE.DIGEST n i]⟩,
  ⟨0x90, 0, 1, fun _ => [DGE.MATCH n]⟩,
  ⟨0x94, 0, 1, fun _ => [DGE.MATCH_N n]⟩,
  ⟨0x98, 0, 1, fun _ => [DGE.LEAF_BLOCKS n]⟩,
  ⟨0x9C, 0, 1, fun _ => [DGE.LEAF_FIRST_FAIL n]⟩,
  ⟨0xA0, 0, 1, fun _ => [DGE.PREEMPT_COUNT n]⟩]

/-- The registers of SNP, in offset order (header apart). -/
def SNP.table : List RegDesc := [
  ⟨0x40, 64, 6, fun i => [SNP.MODE_LANE_I i, SNP.MODE_PRE_ALG i, SNP.MODE_PRE_BLOCK i, SNP.MODE_STAGE_ALG i, SNP.MODE_STAGE_BLOCK i]⟩,
  ⟨0x44, 64, 6, fun i => [SNP.STAGE_BASE i]⟩,
  ⟨0x48, 64, 6, fun i => [SNP.STAGE_SIZE i]⟩,
  ⟨0x4C, 64, 6, fun i => [SNP.STAGE_CMD_ARM i, SNP.STAGE_CMD_DISARM i, SNP.STAGE_CMD_ADDR i]⟩,
  ⟨0x50, 64, 6, fun i => [SNP.STAGE_STATUS_ARMED i, SNP.STAGE_STATUS_DISARM_CAUSE i]⟩,
  ⟨0x54, 64, 6, fun i => [SNP.STAGE_OK i]⟩,
  ⟨0x58, 64, 6, fun i => [SNP.STAGE_FAIL i]⟩,
  ⟨0x5C, 64, 6, fun i => [SNP.STAGE_UNSEEN i]⟩,
  ⟨0x60, 64, 6, fun i => [SNP.STAGE_FIRST_FAIL i]⟩,
  ⟨0x64, 64, 6, fun i => [SNP.STAGE_MATCH i]⟩,
  ⟨0x68, 64, 6, fun i => [SNP.STAGE_MATCH_N i]⟩,
  ⟨0x6C, 64, 6, fun i => [SNP.LANE_STATUS_I_BUSY i, SNP.LANE_STATUS_H_BUSY i, SNP.LANE_STATUS_FIFO_LEVEL i]⟩]

/-- The registers of KVT, in offset order (header apart). -/
def KVT.table : List RegDesc := [
  ⟨0x40, 0, 1, fun _ => [KVT.STATUS_BUSY, KVT.STATUS_ROOT_SOURCE, KVT.STATUS_MASK_STALL, KVT.STATUS_TAMPER_SEEN]⟩,
  ⟨0x44, 0, 1, fun _ => [KVT.CMD_OP, KVT.CMD_ADDR]⟩,
  ⟨0x48, 0, 1, fun _ => [KVT.RESULT_SLOT, KVT.RESULT_CODE]⟩,
  ⟨0x4C, 0, 1, fun _ => [KVT.EPOCH]⟩,
  ⟨0x50, 0, 1, fun _ => [KVT.SLOT_COUNTS_FREE, KVT.SLOT_COUNTS_UNUSABLE]⟩,
  ⟨0x54, 0, 1, fun _ => [KVT.BAD_COUNT]⟩,
  ⟨0x58, 0, 1, fun _ => [KVT.CACHE_MISSES]⟩,
  ⟨0x5C, 0, 1, fun _ => [KVT.REVOKED_IN_USE_COUNT]⟩,
  ⟨0x60, 0, 1, fun _ => [KVT.SCRUB_PERIOD]⟩,
  ⟨0x64, 0, 1, fun _ => [KVT.PERSIST_STATUS_VALID, KVT.PERSIST_STATUS_RECORDS, KVT.PERSIST_STATUS_DEFERRED]⟩]

/-- The registers of AES, in offset order (header apart). -/
def AES.table : List RegDesc := [
  ⟨0x40, 128, 2, fun i => [AES.STATUS_BUSY i, AES.STATUS_SAVED i, AES.STATUS_DONE i]⟩,
  ⟨0x44, 128, 2, fun i => [AES.CMD_OP i, AES.CMD_ADDR i]⟩,
  ⟨0x48, 128, 2, fun i => [AES.DKR_CMD_OP i, AES.DKR_CMD_ATTR i, AES.DKR_CMD_SLOT i]⟩,
  ⟨0x4C, 128, 2, fun i => [AES.DKR_STATUS_LOADED i, AES.DKR_STATUS_ATTR i, AES.DKR_STATUS_SOURCE i, AES.DKR_STATUS_SLOT i]⟩,
  ⟨0x50, 4, 8, fun i => [AES.KEY (0 + i)]⟩,
  ⟨0xD0, 4, 8, fun i => [AES.KEY (8 + i)]⟩,
  ⟨0x70, 128, 2, fun i => [AES.TAG_MATCH i]⟩,
  ⟨0x74, 128, 2, fun i => [AES.TAG_MATCH_N i]⟩]

/-- The registers of PKE, in offset order (header apart). -/
def PKE.table : List RegDesc := [
  ⟨0x40, 0, 1, fun _ => [PKE.STATUS_BUSY, PKE.STATUS_DONE]⟩,
  ⟨0x44, 0, 1, fun _ => [PKE.CMD_OP, PKE.CMD_ADDR]⟩,
  ⟨0x48, 0, 1, fun _ => [PKE.VERIFY_MATCH]⟩,
  ⟨0x4C, 0, 1, fun _ => [PKE.VERIFY_MATCH_N]⟩,
  ⟨0x50, 4, 8, fun i => [PKE.KEYREG_ALG i, PKE.KEYREG_EPHEMERAL i, PKE.KEYREG_SLOT i]⟩]

/-- The registers of RNG, in offset order (header apart). -/
def RNG.table : List RegDesc := [
  ⟨0x40, 0, 1, fun _ => [RNG.STATUS_READY, RNG.STATUS_STATE]⟩,
  ⟨0x44, 0, 1, fun _ => [RNG.CMD_OP, RNG.CMD_ADDR]⟩,
  ⟨0x48, 0, 1, fun _ => [RNG.HEALTH_RCT_CUTOFF, RNG.HEALTH_APT_CUTOFF]⟩,
  ⟨0x4C, 0, 1, fun _ => [RNG.HEALTH_FAIL_COUNT]⟩,
  ⟨0x50, 0, 1, fun _ => [RNG.RESEED_COUNT]⟩]

/-- The registers of TIME, in offset order (header apart). -/
def TIME.table : List RegDesc := [
  ⟨0x40, 0, 1, fun _ => [TIME.MRT_LO]⟩,
  ⟨0x44, 0, 1, fun _ => [TIME.MRT_HI]⟩,
  ⟨0x48, 0, 1, fun _ => [TIME.UTC_LO]⟩,
  ⟨0x4C, 0, 1, fun _ => [TIME.UTC_HI]⟩,
  ⟨0x50, 0, 1, fun _ => [TIME.STATUS_TIME_GAP, TIME.STATUS_RETROGRADE, TIME.STATUS_SLEWING, TIME.STATUS_BUSY, TIME.STATUS_AUTH_SET]⟩,
  ⟨0x54, 0, 1, fun _ => [TIME.TIME_TOL]⟩,
  ⟨0x58, 0, 1, fun _ => [TIME.METER_CFG_MODE, TIME.METER_CFG_DAYS]⟩,
  ⟨0x5C, 0, 1, fun _ => [TIME.METER_ANCHOR]⟩,
  ⟨0x60, 0, 1, fun _ => [TIME.CMD_OP, TIME.CMD_ADDR]⟩,
  ⟨0x64, 4, 4, fun i => [TIME.CHALLENGE i]⟩,
  ⟨0x74, 0, 1, fun _ => [TIME.SLEW_REMAIN]⟩,
  ⟨0x78, 0, 1, fun _ => [TIME.LAST_STEP]⟩,
  ⟨0x7C, 0, 1, fun _ => [TIME.SLEW_COUNT]⟩,
  ⟨0x80, 0, 1, fun _ => [TIME.STEP_COUNT]⟩,
  ⟨0x84, 0, 1, fun _ => [TIME.LAST_DAY]⟩,
  ⟨0x88, 0, 1, fun _ => [TIME.LAST_WEEK]⟩,
  ⟨0x8C, 0, 1, fun _ => [TIME.LAST_METER]⟩]

/-- The registers of LEDG, in offset order (header apart). -/
def LEDG.table : List RegDesc := [
  ⟨0x40, 0, 1, fun _ => [LEDG.STATUS_RECORDING, LEDG.STATUS_FROZEN, LEDG.STATUS_KEY_LOST, LEDG.STATUS_EXPORTED, LEDG.STATUS_CHAIN_FAULT]⟩,
  ⟨0x44, 0, 1, fun _ => [LEDG.CONFIG_SPEED_TOL, LEDG.CONFIG_INPUT_MGP, LEDG.CONFIG_INPUT_STX]⟩,
  ⟨0x48, 0, 1, fun _ => [LEDG.K_FACTOR]⟩,
  ⟨0x4C, 0, 1, fun _ => [LEDG.WS_FORMAT_START, LEDG.WS_FORMAT_BIG_ENDIAN, LEDG.WS_FORMAT_SCALE]⟩,
  ⟨0x50, 0, 1, fun _ => [LEDG.MISMATCH_KMH, LEDG.MISMATCH_SECS]⟩,
  ⟨0x54, 0, 1, fun _ => [LEDG.COMMIT_MAX]⟩,
  ⟨0x58, 0, 1, fun _ => [LEDG.DIST_INTERVAL]⟩,
  ⟨0x5C, 0, 1, fun _ => [LEDG.CMD_OP, LEDG.CMD_ADDR]⟩,
  ⟨0x60, 4, 2, fun i => [LEDG.HEAD_SEQ i]⟩,
  ⟨0x68, 4, 2, fun i => [LEDG.TAIL_SEQ i]⟩,
  ⟨0x70, 0, 1, fun _ => [LEDG.JOURNAL_USED]⟩,
  ⟨0x74, 0, 1, fun _ => [LEDG.ODOMETER]⟩,
  ⟨0x78, 0, 1, fun _ => [LEDG.COMMIT_COUNT]⟩,
  ⟨0x7C, 0, 1, fun _ => [LEDG.TORN_COUNT]⟩,
  ⟨0x80, 0, 1, fun _ => [LEDG.MISMATCH_COUNT]⟩,
  ⟨0x84, 4, 4, fun i => [LEDG.EXPORT_CHALLENGE i]⟩]

/-- The registers of NET, in offset order (header apart). -/
def NET.table : List RegDesc := [
  ⟨0x40, 0, 1, fun _ => [NET.MODE_REDUNDANCY, NET.MODE_PRIMARY, NET.MODE_REQUIRE_MACSEC]⟩,
  ⟨0x44, 0, 1, fun _ => [NET.STX_ETYPE]⟩,
  ⟨0x48, 0, 1, fun _ => [NET.HOLD_LINK_DOWN_HOLD, NET.HOLD_LINK_UP_HOLD]⟩,
  ⟨0x4C, 0, 1, fun _ => [NET.RETX_TIMEOUT, NET.RETX_LIMIT]⟩,
  ⟨0x50, 0, 1, fun _ => [NET.CMD_OP, NET.CMD_ADDR]⟩,
  ⟨0x54, 0, 1, fun _ => [NET.RETX_COUNT]⟩,
  ⟨0x58, 0, 1, fun _ => [NET.LINK_FAIL_COUNT]⟩,
  ⟨0x80, 64, 2, fun i => [NET.LANE_CTRL_EN i, NET.LANE_CTRL_FEC_EN i, NET.LANE_CTRL_LOOPBACK i, NET.LANE_CTRL_TAG_EN i, NET.LANE_CTRL_VID i, NET.LANE_CTRL_PCP i]⟩,
  ⟨0x84, 64, 2, fun i => [NET.MAC_LO i]⟩,
  ⟨0x88, 64, 2, fun i => [NET.MAC_HI i]⟩,
  ⟨0x8C, 64, 2, fun i => [NET.LANE_STATUS_BLOCK_LOCK i, NET.LANE_STATUS_HI_BER i, NET.LANE_STATUS_LINK_UP i, NET.LANE_STATUS_CARRYING i]⟩,
  ⟨0x90, 64, 2, fun i => [NET.TX_FRAMES i]⟩,
  ⟨0x94, 64, 2, fun i => [NET.RX_FRAMES i]⟩,
  ⟨0x98, 64, 2, fun i => [NET.RX_DROP i]⟩,
  ⟨0x9C, 64, 2, fun i => [NET.FCS_ERR i]⟩,
  ⟨0xA0, 64, 2, fun i => [NET.FEC_CORR i]⟩,
  ⟨0xA4, 64, 2, fun i => [NET.FEC_UNCORR i]⟩,
  ⟨0xA8, 64, 2, fun i => [NET.LINK_DOWN_COUNT i]⟩]

/-- The registers of MSEC, in offset order (header apart). -/
def MSEC.table : List RegDesc := [
  ⟨0x40, 64, 4, fun i => [MSEC.SC_CTRL_EN i, MSEC.SC_CTRL_SUITE i, MSEC.SC_CTRL_CONF i, MSEC.SC_CTRL_REPLAY_PROTECT i]⟩,
  ⟨0x44, 64, 4, fun i => [MSEC.SCI_LO i]⟩,
  ⟨0x48, 64, 4, fun i => [MSEC.SCI_HI i]⟩,
  ⟨0x4C, 64, 4, fun i => [MSEC.REPLAY_WINDOW i]⟩,
  ⟨0x50, 64, 4, fun i => [MSEC.SSCI i]⟩,
  ⟨0x54, 64, 4, fun i => [MSEC.SA_STATUS_LOADED0 i, MSEC.SA_STATUS_ENABLED0 i, MSEC.SA_STATUS_LOADED1 i, MSEC.SA_STATUS_ENABLED1 i, MSEC.SA_STATUS_LOADED2 i, MSEC.SA_STATUS_ENABLED2 i, MSEC.SA_STATUS_LOADED3 i, MSEC.SA_STATUS_ENABLED3 i, MSEC.SA_STATUS_TX_AN i]⟩,
  ⟨0x58, 64, 4, fun i => [MSEC.OK i]⟩,
  ⟨0x5C, 64, 4, fun i => [MSEC.NOT_VALID i]⟩,
  ⟨0x60, 64, 4, fun i => [MSEC.LATE i]⟩,
  ⟨0x64, 64, 4, fun i => [MSEC.NO_SA i]⟩,
  ⟨0x140, 0, 1, fun _ => [MSEC.SA_CMD_OP, MSEC.SA_CMD_INDEX, MSEC.SA_CMD_ATTR, MSEC.SA_CMD_SLOT]⟩,
  ⟨0x144, 4, 8, fun i => [MSEC.KEY i]⟩,
  ⟨0x164, 4, 3, fun i => [MSEC.SALT i]⟩,
  ⟨0x170, 0, 1, fun _ => [MSEC.PN_WARN]⟩,
  ⟨0x180, 8, 16, fun i => [MSEC.NEXT_PN_LO i]⟩,
  ⟨0x184, 8, 16, fun i => [MSEC.NEXT_PN_HI i]⟩]

/-- The registers of CAN, in offset order (header apart). -/
def CAN.table : List RegDesc := [
  ⟨0x40, 128, 2, fun i => [CAN.CAN_CTRL_EN i, CAN.CAN_CTRL_BRS i, CAN.CAN_CTRL_AUTO_RECOVER i, CAN.CAN_CTRL_TX_DL i, CAN.CAN_CTRL_PAD i]⟩,
  ⟨0x44, 128, 2, fun i => [CAN.NBT_BRP i, CAN.NBT_TSEG1 i, CAN.NBT_TSEG2 i, CAN.NBT_SJW i]⟩,
  ⟨0x48, 128, 2, fun i => [CAN.DBT_BRP i, CAN.DBT_TSEG1 i, CAN.DBT_TSEG2 i, CAN.DBT_SJW i, CAN.DBT_TDC_EN i, CAN.DBT_TDCO i]⟩,
  ⟨0x4C, 128, 2, fun i => [CAN.TP_ADDR_OWN i, CAN.TP_ADDR_STMIN i, CAN.TP_ADDR_BS i]⟩,
  ⟨0x50, 128, 2, fun i => [CAN.TP_BASE_RX_BASE i, CAN.TP_BASE_TX_BASE i]⟩,
  ⟨0x54, 128, 2, fun i => [CAN.TP_TIMING_N_BS i, CAN.TP_TIMING_N_CR i]⟩,
  ⟨0x58, 128, 2, fun i => [CAN.RETX_TIMEOUT i, CAN.RETX_LIMIT i]⟩,
  ⟨0x5C, 8, 8, fun i => [CAN.FILTER_ID_ID (0 + i), CAN.FILTER_ID_DEST (0 + i)]⟩,
  ⟨0xDC, 8, 8, fun i => [CAN.FILTER_ID_ID (8 + i), CAN.FILTER_ID_DEST (8 + i)]⟩,
  ⟨0x60, 8, 8, fun i => [CAN.FILTER_MASK (0 + i)]⟩,
  ⟨0xE0, 8, 8, fun i => [CAN.FILTER_MASK (8 + i)]⟩,
  ⟨0x9C, 128, 2, fun i => [CAN.BUS_STATUS_STATE i, CAN.BUS_STATUS_TEC i, CAN.BUS_STATUS_REC i]⟩,
  ⟨0xA0, 128, 2, fun i => [CAN.RX_FRAMES i]⟩,
  ⟨0xA4, 128, 2, fun i => [CAN.TX_FRAMES i]⟩,
  ⟨0xA8, 128, 2, fun i => [CAN.ERR_FRAMES i]⟩,
  ⟨0xAC, 128, 2, fun i => [CAN.BUS_OFF_COUNT i]⟩,
  ⟨0xB0, 128, 2, fun i => [CAN.TP_ABORT_COUNT i]⟩,
  ⟨0x140, 0, 1, fun _ => [CAN.CMD_OP, CAN.CMD_PORT, CAN.CMD_ADDR]⟩]

/-- The registers of STX, in offset order (header apart). -/
def STX.table : List RegDesc := [
  ⟨0x40, 0, 1, fun _ => [STX.SESSION_TIMEOUT]⟩,
  ⟨0x44, 0, 1, fun _ => [STX.BUF_BASE, STX.BUF_COUNT]⟩,
  ⟨0x48, 0, 1, fun _ => [STX.SESSION_KEK]⟩,
  ⟨0x4C, 0, 1, fun _ => [STX.AUTH_FAIL_LIMIT]⟩,
  ⟨0x50, 0, 1, fun _ => [STX.CMD_OP, STX.CMD_ADDR]⟩,
  ⟨0x54, 0, 1, fun _ => [STX.RESULT_SESSION, STX.RESULT_CODE]⟩,
  ⟨0x58, 0, 1, fun _ => [STX.SESSIONS_ACTIVE, STX.SESSIONS_HANDSHAKES]⟩,
  ⟨0x5C, 0, 1, fun _ => [STX.HELLO_BUSY]⟩,
  ⟨0x60, 0, 1, fun _ => [STX.AUTH_FAIL_COUNT]⟩,
  ⟨0x64, 0, 1, fun _ => [STX.BUF_FULL]⟩,
  ⟨0x68, 0, 1, fun _ => [STX.DROPPED_TYPE]⟩,
  ⟨0x6C, 0, 1, fun _ => [STX.TIMEOUT_COUNT]⟩,
  ⟨0x70, 0, 1, fun _ => [STX.ABANDONED]⟩]

/-- The registers of ATT, in offset order (header apart). -/
def ATT.table : List RegDesc := [
  ⟨0x40, 0, 1, fun _ => [ATT.RMT_BASE]⟩,
  ⟨0x44, 0, 1, fun _ => [ATT.RMT_COUNT]⟩,
  ⟨0x48, 0, 1, fun _ => [ATT.ROUND_LIMIT]⟩,
  ⟨0x4C, 0, 1, fun _ => [ATT.CMD_OP, ATT.CMD_ADDR]⟩,
  ⟨0x50, 0, 1, fun _ => [ATT.STATUS_IDENTITY_READY, ATT.STATUS_RMT_LOCKED, ATT.STATUS_ROUND_BUSY]⟩,
  ⟨0x54, 0, 1, fun _ => [ATT.RESULT]⟩,
  ⟨0x58, 0, 1, fun _ => [ATT.ROUND_A_CHECKED, ATT.ROUND_A_ACCEPTED]⟩,
  ⟨0x5C, 0, 1, fun _ => [ATT.ROUND_B_REJECTED, ATT.ROUND_B_UNCHECKED]⟩,
  ⟨0x60, 4, 12, fun i => [ATT.RMT_DIGEST i]⟩,
  ⟨0x90, 0, 1, fun _ => [ATT.QUOTE_LENGTH]⟩]

/-- The registers of CLOV, in offset order (header apart). -/
def CLOV.table : List RegDesc := [
  ⟨0x40, 0, 1, fun _ => [CLOV.CTRL_EN, CLOV.CTRL_PERIOD]⟩,
  ⟨0x44, 0, 1, fun _ => [CLOV.INPUT_CFG_IGN_DEB, CLOV.INPUT_CFG_WAKE_DEB, CLOV.INPUT_CFG_ENCL_DEB, CLOV.INPUT_CFG_IGN_POL, CLOV.INPUT_CFG_WAKE_POL, CLOV.INPUT_CFG_ENCL_POL, CLOV.INPUT_CFG_DIST_FILT]⟩,
  ⟨0x48, 0, 1, fun _ => [CLOV.ANALOG_CFG_VBAT_EN, CLOV.ANALOG_CFG_TEMP_EN, CLOV.ANALOG_CFG_VBAT_SHIFT, CLOV.ANALOG_CFG_TEMP_SHIFT]⟩,
  ⟨0x4C, 0, 1, fun _ => [CLOV.LOOP_CFG_LOOP_A_EN, CLOV.LOOP_CFG_LOOP_B_EN, CLOV.LOOP_CFG_FAULT_LIMIT, CLOV.LOOP_CFG_SETTLE]⟩,
  ⟨0x50, 0, 1, fun _ => [CLOV.MRT_CMP_LO]⟩,
  ⟨0x54, 0, 1, fun _ => [CLOV.MRT_CMP_HI]⟩,
  ⟨0x58, 0, 1, fun _ => [CLOV.WAKE_OUT_CFG_PULSE, CLOV.WAKE_OUT_CFG_POLARITY]⟩,
  ⟨0x60, 0, 1, fun _ => [CLOV.VALUES_A_FLAGS, CLOV.VALUES_A_DIST]⟩,
  ⟨0x64, 0, 1, fun _ => [CLOV.VALUES_B_VBAT, CLOV.VALUES_B_TEMP]⟩,
  ⟨0x68, 0, 1, fun _ => [CLOV.PULSE_ACCUM]⟩,
  ⟨0x6C, 0, 1, fun _ => [CLOV.LOG_HEAD]⟩,
  ⟨0x70, 0, 1, fun _ => [CLOV.LOG_TAIL]⟩,
  ⟨0x74, 0, 1, fun _ => [CLOV.LOG_LOST]⟩,
  ⟨0x78, 0, 1, fun _ => [CLOV.CMD]⟩,
  ⟨0x100, 16, 32, fun i => [CLOV.TERM_A_CHAN i, CLOV.TERM_A_OP i, CLOV.TERM_A_VALUE i]⟩,
  ⟨0x104, 16, 32, fun i => [CLOV.TERM_B_CHAN i, CLOV.TERM_B_OP i, CLOV.TERM_B_VALUE i]⟩,
  ⟨0x108, 16, 32, fun i => [CLOV.TERM_C_CHAN i, CLOV.TERM_C_OP i, CLOV.TERM_C_VALUE i]⟩,
  ⟨0x10C, 16, 32, fun i => [CLOV.ACTION_ACTIONS i, CLOV.ACTION_LEVEL i, CLOV.ACTION_KIND i]⟩,
  ⟨0x300, 4, 32, fun i => [CLOV.RULE_COUNT i]⟩]

/-- The registers of AON, in offset order (header apart). -/
def AON.table : List RegDesc := [
  ⟨0x40, 0, 1, fun _ => [AON.TAMPER_LATCH, AON.TAMPER_ENCL_LATCH, AON.TAMPER_CAUSE, AON.TAMPER_RULE]⟩,
  ⟨0x44, 0, 1, fun _ => [AON.TAMPER_CFG]⟩,
  ⟨0x48, 0, 1, fun _ => [AON.CMD]⟩,
  ⟨0x4C, 0, 1, fun _ => [AON.HANDOVER_MRT_LO]⟩,
  ⟨0x50, 0, 1, fun _ => [AON.HANDOVER_MRT_HI]⟩,
  ⟨0x54, 0, 1, fun _ => [AON.POWER_STATUS_PWR_EN, AON.POWER_STATUS_WAKE_OUT, AON.POWER_STATUS_WAKE_RULE]⟩,
  ⟨0x58, 0, 1, fun _ => [AON.VIGIL_COUNT]⟩,
  ⟨0x5C, 0, 1, fun _ => [AON.TAMPER_SET_COUNT]⟩]

end Reg

/-- The registers of page `p` (R98); none for an index that is not implemented. -/
def pageTable (p : Nat) : List RegDesc :=
  if p = 0x0 then Reg.GLB.table
  else if p = 0x1 then Reg.LCS.table
  else if p = 0x2 then Reg.DBG.table
  else if p = 0x3 then Reg.BOOT.table
  else if p = 0x4 then Reg.CORE.table
  else if p = 0x5 then Reg.PWR.table
  else if p = 0x6 then Reg.EVT.table
  else if p = 0x7 then Reg.MGP.table
  else if 0x8 ≤ p ∧ p < 0xE then Reg.HFP.table (p - 0x8)
  else if 0xE ≤ p ∧ p < 0x14 then Reg.POL.table (p - 0xE)
  else if 0x14 ≤ p ∧ p < 0x1C then Reg.FCH.table (p - 0x14)
  else if p = 0x1C then Reg.XBR.table
  else if p = 0x1D then Reg.ESC.table
  else if p = 0x1E then Reg.HSV.table
  else if p = 0x1F then Reg.CMP.table
  else if 0x20 ≤ p ∧ p < 0x24 then Reg.DGE.table (p - 0x20)
  else if p = 0x24 then Reg.SNP.table
  else if p = 0x25 then Reg.KVT.table
  else if p = 0x26 then Reg.AES.table
  else if p = 0x27 then Reg.PKE.table
  else if p = 0x28 then Reg.RNG.table
  else if p = 0x29 then Reg.TIME.table
  else if p = 0x2A then Reg.LEDG.table
  else if p = 0x2B then Reg.NET.table
  else if p = 0x2C then Reg.MSEC.table
  else if p = 0x2D then Reg.CAN.table
  else if p = 0x2E then Reg.STX.table
  else if p = 0x2F then Reg.ATT.table
  else if p = 0x30 then Reg.CLOV.table
  else if p = 0x31 then Reg.AON.table
  else []

end Sys2Proof.Machine
end

