-- ==== Sys2Proof/Machine/Hdr.lean ====
section
/-! DEFINITION. The common header of every page (R65), as fields that take the page index. A header lies in CLK_SYS (R68). -/

namespace Sys2Proof.Machine.Hdr

def ENABLE (p : Nat) : Fld := ⟨p, 0x004, 0, 1, .cfd, 0, 0, 1, .clk⟩
def UPD_GROUP (p : Nat) : Fld := ⟨p, 0x004, 4, 3, .cfd, 0, 0, 7, .clk⟩
def LOCK (p : Nat) : Fld := ⟨p, 0x004, 8, 1, .cfd, 0, 0, 1, .clk⟩
def ACTIVE (p : Nat) : Fld := ⟨p, 0x008, 0, 1, .sta, 0, 0, 1, .clk⟩
def CHECK_BUSY (p : Nat) : Fld := ⟨p, 0x008, 1, 1, .sta, 0, 0, 1, .clk⟩
def CHECK_FAIL (p : Nat) : Fld := ⟨p, 0x008, 2, 1, .sta, 0, 0, 1, .clk⟩
def PENDING (p : Nat) : Fld := ⟨p, 0x008, 3, 1, .sta, 0, 0, 1, .clk⟩
def STALL_ABORT (p : Nat) : Fld := ⟨p, 0x008, 4, 1, .w1c, 0, 0, 1, .clk⟩
def WRITE_LOST (p : Nat) : Fld := ⟨p, 0x008, 5, 1, .w1c, 0, 0, 1, .clk⟩
def LOCKED (p : Nat) : Fld := ⟨p, 0x008, 6, 1, .sta, 0, 0, 1, .clk⟩
def CMD_LOST (p : Nat) : Fld := ⟨p, 0x008, 7, 1, .w1c, 0, 0, 1, .clk⟩
def REASON_CODE (p : Nat) : Fld := ⟨p, 0x00C, 0, 16, .sta, 0, 0, 65535, .clk⟩
def REASON_OFFSET (p : Nat) : Fld := ⟨p, 0x00C, 16, 16, .sta, 0, 0, 65535, .clk⟩
/-- One bit of PAGE_EVENTS: 0-4 are those of the header, 8-31 the block events. -/
def EVENT (p b : Nat) : Fld := ⟨p, 0x010, b, 1, .w1c, 0, 0, 1, .clk⟩
/-- One bit of PAGE_EVENT_EN. -/
def EVENT_EN (p b : Nat) : Fld := ⟨p, 0x014, b, 1, .cfd, 0, 0, 1, .clk⟩
def WRITE_LOST_AT (p : Nat) : Fld := ⟨p, 0x018, 0, 12, .sta, 0, 0, 4095, .clk⟩

/-- The header of page `p` as registers (PAGE_ID and PAGE_CRC are computed, R65, R66). -/
def table (p : Nat) : List RegDesc := [
  ⟨0x004, 0, 1, fun _ => [ENABLE p, UPD_GROUP p, LOCK p]⟩,
  ⟨0x008, 0, 1, fun _ => [ACTIVE p, CHECK_BUSY p, CHECK_FAIL p, PENDING p, STALL_ABORT p, WRITE_LOST p, LOCKED p, CMD_LOST p]⟩,
  ⟨0x00C, 0, 1, fun _ => [REASON_CODE p, REASON_OFFSET p]⟩,
  ⟨0x010, 0, 1, fun _ => (List.range 32).map (EVENT p)⟩,
  ⟨0x014, 0, 1, fun _ => (List.range 32).map (EVENT_EN p)⟩,
  ⟨0x018, 0, 1, fun _ => [WRITE_LOST_AT p]⟩]

end Sys2Proof.Machine.Hdr

namespace Sys2Proof.Machine

/-! The page indexes of R98. -/
def pgGLB : Nat := 0x00
def pgLCS : Nat := 0x01
def pgDBG : Nat := 0x02
def pgBOOT : Nat := 0x03
def pgCORE : Nat := 0x04
def pgPWR : Nat := 0x05
def pgEVT : Nat := 0x06
def pgMGP : Nat := 0x07
def pgHFP (n : Nat) : Nat := 0x08 + n
def pgPOL (n : Nat) : Nat := 0x0E + n
def pgFCH (c : Nat) : Nat := 0x14 + c
def pgXBR : Nat := 0x1C
def pgESC : Nat := 0x1D
def pgHSV : Nat := 0x1E
def pgCMP : Nat := 0x1F
def pgDGE (n : Nat) : Nat := 0x20 + n
def pgSNP : Nat := 0x24
def pgKVT : Nat := 0x25
def pgAES : Nat := 0x26
def pgPKE : Nat := 0x27
def pgRNG : Nat := 0x28
def pgTIME : Nat := 0x29
def pgLEDG : Nat := 0x2A
def pgNET : Nat := 0x2B
def pgMSEC : Nat := 0x2C
def pgCAN : Nat := 0x2D
def pgSTX : Nat := 0x2E
def pgATT : Nat := 0x2F
def pgCLOV : Nat := 0x30
def pgAON : Nat := 0x31

end Sys2Proof.Machine
end

