-- ==== Sys2Proof/Machine/Reasons.lean ====
section
/-! DEFINITION. The reason codes: the common ones of R84 and the block ones of each chapter (0x40 and up). -/

namespace Sys2Proof.Machine.Reason

def FIELD_RANGE : Nat := 0x01
def OVERSUBSCRIBED : Nat := 0x02
def CONFLICT_WITH_PAGE : Nat := 0x03
def NOT_IN_LIFECYCLE : Nat := 0x04
def NOT_IN_MODE : Nat := 0x05
def KEY_ATTR : Nat := 0x06
def TIMEOUT_BELOW_RETRY : Nat := 0x07
def NO_STALL_MECHANISM : Nat := 0x08
def ALIGNMENT : Nat := 0x09
def PAGE_LOCKED : Nat := 0x0A
def CRC_UNCOMMITTED : Nat := 0x0B
def STALL_LIMIT : Nat := 0x0C

/-! GLB (03). -/
def COMMIT_MISMATCH : Nat := 0x40
def GRACE_EXPIRED : Nat := 0x41

/-! LCS (04). -/
def TOKEN_SIGNATURE : Nat := 0x40
def TOKEN_SERIAL : Nat := 0x41
def TOKEN_STATE : Nat := 0x42
def TARGET_NOT_OFFERED : Nat := 0x43
def LEDGER_NOT_EXPORTED : Nat := 0x44
def INTENT_MISMATCH : Nat := 0x45
def NO_INTENT : Nat := 0x46
def ROOT_INCOMPLETE : Nat := 0x47
def TOKEN_AUTHORITY : Nat := 0x48
def AUTH_MISSING : Nat := 0x49

/-! DBG (04). -/
def GRANT_SIGNATURE : Nat := 0x40
def GRANT_SERIAL : Nat := 0x41
def GRANT_STATE : Nat := 0x42
def GRANT_RIGHTS : Nat := 0x43
def BOOT_WINDOW : Nat := 0x44
def MRT_WINDOW : Nat := 0x45
def GRANT_CHALLENGE : Nat := 0x46
def DEBUG_OPEN_FAILED : Nat := 0x47
def GRANT_AUTHORITY : Nat := 0x48

/-! BOOT (05). -/
def MANIFEST_FORMAT : Nat := 0x40
def SIGNER_UNKNOWN : Nat := 0x41
def SIGNATURE : Nat := 0x42
def LEAF_TABLE : Nat := 0x43
def BLOCK_MISMATCH : Nat := 0x44
def IMAGE_DIGEST : Nat := 0x45
def SEQUENCE_INVALID : Nat := 0x46
def SOURCE_ABSENT : Nat := 0x47
def PUSH_ABORTED : Nat := 0x48
def SELFTEST_FAIL : Nat := 0x49
def LOAD_RANGE : Nat := 0x4A

/-! CLOV (16). -/
def LEDG_ENABLED : Nat := 0x40

end Sys2Proof.Machine.Reason
end

