-- ==== Sys2Proof/Machine/Blocks.lean ====
section
/-! DEFINITION. The records that State is made of, block by block; each names the rule that gives the machine the thing. -/

namespace Sys2Proof.Machine

/-! ### Registers (R62, R70-R90) -/

/-- The register store.  `clk`, `por`, `sck`, `aon` hold the fields that are not CFG, by the domain that loses them;
`shadow` the CFG shadows; `applied` the applied CFG copies in CLK_SYS (R90); `inSck` and `inAon` the CFG fields in force
in a port's SCK domain and in the always-on domain (R76-R79); `latch` the next-state latches of armed pages (R76);
`rsvd` the reserved bits written to shadow words (R7). -/
structure RegFile where
  clk : Tbl Nat
  por : Tbl Nat
  sck : Tbl Nat
  aon : Tbl Nat
  shadow : Tbl Nat
  applied : Tbl Nat
  inSck : Tbl Nat
  inAon : Tbl Nat
  latch : Tbl Nat
  rsvd : Tbl Nat
  deriving DecidableEq, Repr

/-- One CMD register: the command that runs and the one queued behind it (R72). -/
structure CmdSlot where
  running : Option Instr
  queued : Option Instr
  deriving DecidableEq, Repr

/-- The phases of a strobe (R74, R76). -/
inductive StrobePhase where
  | idle | waitEnable | check | arm
  deriving DecidableEq, Repr

/-- The strobe in progress: phase, group mask, the enabled pages of its set, those whose ENABLE it clears, those armed. -/
structure Strobe where
  phase : StrobePhase
  groups : Nat
  set : List Nat
  clr : List Nat
  armed : List Nat
  deriving DecidableEq, Repr

/-- The CRC walker (R89-R95): the value of a pending commit and the value of the scan that raised the last mismatch. -/
structure Walker where
  commit : Option Nat
  lastMismatch : Option Nat
  deriving DecidableEq, Repr

/-- A core access that waits for a port's CS# (R85-R87); `dom` is 0-5 for a host port and 6 for the management port. -/
structure XAccess where
  dom : Nat
  acc : CoreAccess
  write : Option Nat
  deriving DecidableEq, Repr

/-- How the last completed bus access ended (R61, R63, R87): with a bus error, or with data. -/
structure BusResult where
  error : Bool
  data : Nat
  deriving DecidableEq, Repr

/-! ### Supplies, resets and modes (02, 16) -/

/-- A supply against its two comparators (R504). -/
inductive Level where
  | reset | warn | ok
  deriving DecidableEq, Repr

/-- Supplies, the main-domain switch and reset, and what is held for the next wake; `wake` is MRT and PULSE_ACCUM at the last wake
from VIGIL, until Clove's log is imported (R472) (R481-R486, R494, R504-R510, R515). -/
structure Power where
  core : Level
  aon : Level
  pwrWarn : Bool
  ioHost : Tbl Bool
  ioFlash : Bool
  ioGen : Bool
  mainOn : Bool
  mainReset : Bool
  wakePending : Option Nat
  nextCause : Nat
  enclInShelf : Bool
  torn : Bool
  fromVigil : Bool
  wake : Option (Nat × Nat)
  deriving DecidableEq, Repr

/-- The device phase behind GLB.MODE (R34, R37, R38). -/
inductive Phase where
  | shelf | vigil | wake | run | await | seal
  deriving DecidableEq, Repr

/-- The mode logic: phase, seal step and target (R56), SEAL_PENDING in the always-on domain, attachment and what ATTACH
needs (R45-R49), the LAY_UP memory of R51, and device recovery (R39). -/
structure ModeSt where
  phase : Phase
  sealStep : Nat
  sealShelf : Bool
  sealPending : Bool
  attached : Bool
  afterWarm : Bool
  appliedPages : List Nat
  reattach : Bool
  layUp : Bool
  deriving DecidableEq, Repr

/-! ### OTP and internal NVM (R103-R120, R143-R146, R502) -/

/-- A root bank: 384 value bits and a 16-bit DONE marker (R115). -/
structure RootBank where
  value : BitVec 384
  done : BitVec 16
  deriving DecidableEq, Repr

/-- The OTP fields. A hash of zero is blank. -/
structure Otp where
  macBase : Nat
  serial : BitVec 128
  icaendiHash : BitVec 384
  icaendiLock : Bool
  custHash : BitVec 384
  custLock : Bool
  backendHash : BitVec 384
  trims : BitVec 64
  trimLock : Bool
  therm : BitVec 16
  fuseA : RootBank
  fuseB : RootBank
  bornA : RootBank
  bornB : RootBank
  bootOrder : Nat
  orderLock : Bool
  sigEither : Bool
  pushWindow : Nat
  fwHashA : BitVec 384
  fwHashB : BitVec 384
  revokedA : Bool
  revokedB : Bool
  lossTamper : Bool
  deriving DecidableEq, Repr

/-- One intent slot (R106): its VALID marker, target, count, digest, CRC and CLOSED marker. -/
structure Intent where
  target : Nat
  count : Nat
  digest : BitVec 384
  crcOk : Bool
  valid : BitVec 64
  closed : BitVec 64
  deriving DecidableEq, Repr

/-- Why an entry of the security event log was written (R22, R135, R510). -/
inductive SecKind where
  | grantAccepted | grantRefused | transition | glitch | slotBad | absorbed | compareFault
  deriving DecidableEq, Repr

/-- One entry of the security event log: kind, reason, leading 16 bytes of the digest, MRT. -/
structure SecEntry where
  kind : SecKind
  reason : Nat
  digest : BitVec 128
  mrt : Nat
  deriving DecidableEq, Repr

/-! ### Life cycle, debug, boot (04, 05, 17) -/

/-- The LCS sequencer between APPLY or RESUME and TRANSITION_DONE (R107-R112): intent slot, token digest, and whether it waits
for Brace exit before its checks and actions (R121). -/
structure LcsSt where
  busy : Bool
  slot : Nat
  deferred : Bool
  digest : BitVec 384
  deriving DecidableEq, Repr

/-- The debug logic: challenge, the opening order that waits for its DEBUG_OPEN record, and the internal grant buffer
(R126-R137). -/
structure DbgSt where
  challenge : Option (BitVec 128)
  opening : Option (BitVec 384)
  openRights : Nat
  grantBuf : List Byte
  deriving DecidableEq, Repr

/-- The TAP (R518): instruction register, the selected instruction, captured data. -/
structure Tap where
  ir : Nat
  selected : Nat
  dr : Nat
  result : BusResult
  deriving DecidableEq, Repr

/-- What ROM loaded and verified, until the hand-over (R164). -/
structure BootImage where
  source : Nat
  slot : Nat
  sequence : Nat
  svn : Nat
  coreMask : Nat
  entry : List Nat
  digest : BitVec 384
  deriving DecidableEq, Repr

/-- Where ROM is (R139-R165); `born` waits for the CTR_DRBG to give BORN_ROOT, `paused` is a load that waits for Brace exit (R158). -/
inductive BootPhase where
  | off | testMode | fatal | scrap | sealing | born | paused | waitPush | await | loaded | handover | done
  deriving DecidableEq, Repr

/-- A push in progress (R159-R163): its medium (0 MGP, 1 NET0, 2 CAN0), the manifest, and the bytes received so far. -/
structure Push where
  medium : Nat
  manifest : List Byte
  leaves : List Byte
  image : List Byte
  deriving DecidableEq, Repr

/-- A message of a push that Brace holds back (R158): the one in the mailbox, or an image chunk. -/
inductive RomHeld where
  | mailbox | chunk (medium peer seq : Nat) (c : ImageChunk)
  deriving DecidableEq, Repr

/-- ROM's progress: phase, sources still to try, straps sampled, the push in progress, the pieces of a manifest by medium, the image to
hand over, the running boot OTP command (R145), the CAN peer that ROM answers (R392), how many entries the log of attempts has had (R567),
and what Brace holds back. -/
structure BootSt where
  phase : BootPhase
  sources : List Nat
  straps : Nat
  push : Option Push
  gathered : Tbl (List Byte)
  image : Option BootImage
  otpBusy : Option Instr
  otpRecord : List Byte
  canPeer : Option Nat
  attempts : Nat
  held : List RomHeld
  deriving DecidableEq, Repr

/-- A core pair: entry point, whether a debugger halted it, whether it runs in machine mode, its program counter and registers x1-x31,
and its 16 PMP entries (R138, R165, R167). -/
structure CoreSt where
  entry : Nat
  halted : Bool
  machine : Bool
  pc : Nat
  x : Tbl Nat
  pmpCfg : Tbl Nat
  pmpAddr : Tbl Nat
  deriving DecidableEq, Repr

/-- A core pair as it leaves reset (R138): at address 0 in machine mode, its registers and PMP entries 0 (log entry 136). -/
def CoreSt.reset : CoreSt := ⟨0, false, true, 0, [], [], []⟩

/-! ### Clove (16) -/

/-- A debounced input (R489): filtered level, run of differing samples, whether the first sample has come. -/
structure Debounce where
  value : Bool
  run : Nat
  started : Bool
  deriving DecidableEq, Repr

/-- An IIR filter with 8 fraction bits (R489). -/
structure Iir where
  y : Nat
  started : Bool
  deriving DecidableEq, Repr

/-- A tamper loop (R491): LFSR, run of mismatches, channel. -/
structure LoopSt where
  lfsr : BitVec 16
  run : Nat
  fault : Bool
  deriving DecidableEq, Repr

/-- Clove's own state: filters, loops, pulse counter at the last sample, previous condition of each rule, rules whose
previous state is not known yet, WAKE_OUT pulse. -/
structure Clove where
  ign : Debounce
  wakeA : Debounce
  wakeB : Debounce
  encl : Debounce
  vbat : Iir
  temp : Iir
  loopA : LoopSt
  loopB : LoopSt
  pulseAt : Nat
  prev : Tbl Bool
  fresh : List Nat
  mrtHit : Bool
  deriving DecidableEq, Repr

/-! ### Key vault (06) -/

/-- A slot record (R183).  `tag` is none where it is the tag that the vault wrote with the record, which checks; a disturbed record
carries another (R195, R196).  `order` is the order of definition (R200); `users` counts the operations that captured it (R191). -/
structure Slot where
  state : Nat
  parent : Nat
  ld : BitVec 384
  keyAttr : Nat
  pgen : Nat
  gen : Nat
  depth : Nat
  chain : Bool
  svn : Nat
  tag : Option (BitVec 32)
  order : Nat
  users : Nat
  deriving DecidableEq, Repr

/-- A value held masked (R176, R193): value ⊕ mask, and the mask. -/
structure Masked where
  masked : BitVec 384
  mask : BitVec 384
  deriving DecidableEq, Repr

/-- The value that a masked pair holds. -/
def Masked.value (m : Masked) : BitVec 384 := m.masked ^^^ m.mask

/-- A value under a mask. -/
def Masked.under (v mask : BitVec 384) : Masked := ⟨v ^^^ mask, mask⟩

/-- An entry of the masked key cache (R193, R216): its slot, its physical entry, whether it is pinned, and the masked value. -/
structure CacheEntry where
  slot : Nat
  entry : Nat
  pinned : Bool
  val : Masked
  deriving DecidableEq, Repr

/-- A record of the persistence area (R200). -/
structure PersistRec where
  target : Nat
  parent : Nat
  keyAttr : Nat
  chain : Bool
  steps : Nat
  ld : BitVec 384
  deriving DecidableEq, Repr

/-- The persistence area: its records and MAC (R200). -/
structure Persist where
  records : List PersistRec
  mac : BitVec 384
  deriving DecidableEq, Repr

/-- The vault of one epoch (R174-R196): the masked root register, slots, cache (most recent first), tag key and permutation key (zero
until the CTR_DRBG has given them), the next definition order, whether the keys of the epoch are drawn, and whether a root load waits
for the CTR_DRBG or for Brace exit (R194, R205). -/
structure VaultSt where
  root : Option Masked
  slots : Tbl Slot
  cache : List CacheEntry
  tagKey : BitVec 384
  permKey : BitVec 384
  nextOrder : Nat
  keyed : Bool
  due : Bool
  deriving DecidableEq, Repr

/-! ### Digest engines and snoop units (07) -/

/-- A DGE descriptor (chapter 07). -/
structure DgeDesc where
  alg : Nat
  hmac : Bool
  first : Bool
  last : Bool
  compare : Bool
  dest : Nat
  source : Nat
  keySource : Nat
  targetAttr : Nat
  keySlot : Nat
  target : Nat
  src : Nat
  len : Nat
  ref : Nat
  label : BitVec 384
  deriving DecidableEq, Repr

/-- A LEAVES binding (R221, R222): unit, algorithm, table address, number of leaves, the blocks with a final verdict. -/
structure LeavesOp where
  unit : Nat
  alg : Nat
  table : Nat
  count : Nat
  final : List Nat
  deriving DecidableEq, Repr

/-- A digest engine: the message so far (its chaining state is a function of it, R230), the captured key (erased while the context is
saved), where it came from (0 none, 1 a vault slot, 2 a DKR), its attribute and slot, the running descriptor, a pending withdrawal, a
LEAVES binding, and the sequencer that owns it. -/
structure DgeSt where
  alg : Nat
  hmac : Bool
  msg : List Byte
  key : List Byte
  keyFrom : Nat
  keyAttr : Option Nat
  keySlot : Option Nat
  run : Option DgeDesc
  revoked : Option Nat
  leaves : Option LeavesOp
  owner : Option Nat
  deriving DecidableEq, Repr

/-- An entry of the lane-I FIFO (R225): block index and digest. -/
structure LaneDigest where
  index : Nat
  digest : List Byte
  deriving DecidableEq, Repr

/-- A snoop unit (R208, R225-R232).  Lane I: what the sequencer set (0 off, 1 PRE, 2 ESCORT), its FIFO, the bytes so far of the
blocks being hashed of a READ of firmware, by block, and the blocks of it to read again with how often each has been.  Lane H: the values latched at ARM, the leaf table,
the block being accumulated, the blocks already counted, those that wait for the comparator in Brace, and those counted as unseen. -/
structure SnpSt where
  laneI : Nat
  fifo : List LaneDigest
  base : Nat
  size : Nat
  alg : Nat
  block : Nat
  leafTable : Nat
  cur : Option (Nat × List Byte)
  counted : List Nat
  laneAcc : Tbl (List Byte)
  reread : List Nat
  tries : Tbl Nat
  waiting : List (Nat × List Byte)
  unseen : List Nat
  deriving DecidableEq, Repr

/-! ### Ciphers, signatures, entropy (08) -/

/-- A Direct Key Register (R202, R236): key, attribute, how it was loaded (0 none, 1 reference, 2 KEY write, 3 unwrap),
its source slot and that slot's GEN. -/
structure Dkr where
  loaded : Bool
  key : List Byte
  keyAttr : Nat
  kind : Nat
  source : Option Nat
  gen : Nat
  deriving DecidableEq, Repr

/-- What an AES engine runs (R237): a part of RUN, a WRAP or an UNWRAP, with its descriptor as it was read at the start. -/
inductive AesRun where
  | part (desc : List Byte) | wrap (desc : List Byte) | unwrap (desc : List Byte)
  deriving DecidableEq, Repr

/-- The saved context of a pre-empted RUN (R243): the running part and its command, mode, direction, IV, associated data, input so far (of which the
counter, the GHASH state, the lengths and the partial block are functions), the working key under a mask, its slot, and whether that was
withdrawn before. -/
structure AesCtx where
  run : Option AesRun
  cmd : Option Instr
  mode : Nat
  decrypt : Bool
  iv : List Byte
  aad : List Byte
  msg : List Byte
  key : List Byte
  mask : List Byte
  keySlot : Option Nat
  revoked : Option Nat
  deriving DecidableEq, Repr

/-- An AES engine: its DKR, the running part, the open operation (mode, direction, IV, associated data, input so far, working
key), the captured slot, a pending withdrawal, whether the DKR is zeroed at the end (R204), and the context of a pre-empted RUN. -/
structure AesSt where
  dkr : Dkr
  run : Option AesRun
  mode : Nat
  decrypt : Bool
  iv : List Byte
  aad : List Byte
  msg : List Byte
  key : List Byte
  keySlot : Option Nat
  revoked : Option Nat
  zeroDkr : Bool
  saved : Option AesCtx
  deriving DecidableEq, Repr

/-- A PKE key register (R198, R245, R246): algorithm (0 empty), private key in seed form, ephemeral, seed slot and its GEN, and the
attribute of a key that was unwrapped. -/
structure KeyReg where
  alg : Nat
  seed : List Byte
  ephemeral : Bool
  source : Option Nat
  gen : Nat
  keyAttr : Option Nat
  deriving DecidableEq, Repr

/-- The PKE: key registers, running operation (op and its descriptor as it was read at the start), the slot it depends on, a pending withdrawal. -/
structure PkeSt where
  regs : Tbl KeyReg
  run : Option (Nat × List Byte)
  keySlot : Option Nat
  revoked : Option Nat
  deriving DecidableEq, Repr

/-- The entropy source and the CTR_DRBG (R250-R253): failures in the running collection, generate requests since the last reseed. -/
structure RngSt where
  fails : Nat
  requests : Nat
  deriving DecidableEq, Repr

/-! ### Host ports, policy, staging (09, 10) -/

/-- How the port serves the transaction in progress (R288, R269-R277, R327). -/
inductive Serve where
  | pass | fill | absorb | waitPins | waitLookup | touch | buffered
  deriving DecidableEq, Repr

/-- Why a transaction was refused, for the counters of the HFP page. -/
inductive DenyWhy where
  | none | policy | guardEarly | ownership | port
  deriving DecidableEq, Repr

/-- A first touch being served (R327, R328): the first block, the blocks in the cache in order, and how many re-reads the
block in flight has had; `failed` once no further byte is served. -/
structure Touch where
  start : Nat
  window : Nat
  cached : List Nat
  retries : Nat
  failed : Bool
  deriving DecidableEq, Repr

/-- The transaction between a falling and a rising edge of CS# (R263): what it is, how it is served, the bytes delivered so
far, and what its end will count, a broken lease (R280) with it. -/
structure Live where
  txn : HostTxn
  serve : Serve
  why : DenyWhy
  out : List Byte
  held : Bool
  holdCycles : Nat
  mixed : Bool
  cut : Bool
  fillAt : Option Nat
  touch : Option Touch
  broke : Bool
  deriving DecidableEq, Repr

/-- Status emulation (R298): the override of WIP and of WEL, and the fail bit (0 none, 1 PFAIL, 2 EFAIL). -/
structure Emu where
  wip : Bool
  wel : Bool
  fail : Nat
  deriving DecidableEq, Repr

/-- A host port: the transaction in progress, the bytes the host last received, the write buffer (R277), the verified-block
record by 1 KiB block of policy addresses (R319), status emulation, the MRT of the last security-log entry for an absorbed command (R299),
and the pages, by page index, that have swapped since the port's reset (R265). -/
structure Port where
  live : Option Live
  received : List Byte
  wbuf : List HostTxn
  verified : Tbl Bool
  emu : Option Emu
  loggedAt : Option Nat
  swapped : Tbl Bool
  deriving DecidableEq, Repr

/-- A port at a power-on reset. -/
def Port.idle : Port := ⟨none, [], [], [], none, none, []⟩

/-- A slot record in internal NVM (R310). -/
structure SlotRec where
  host : Nat
  slot : Nat
  svn : Nat
  seq : Nat
  digest : BitVec 384
  wellFormed : Bool
  void : BitVec 64
  deriving DecidableEq, Repr

/-- What Brace defers of staging and of the hosts (R313, R337, R506), programs of internal NVM, and the leaf-table digests of ARM and
COMMIT, which also wait for an engine (R307, R309). -/
inductive Deferred where
  | stageOpen (n : Nat) | void (host slot : Nat) | stageArm (n : Nat) (addr : Nat) | stageCheck (n : Nat) (addr : Nat)
  deriving DecidableEq, Repr

/-- Staging on a port (R305-R312): the copies ARM accepted, the bytes of the block or manifest in flight, its re-reads, and how
the read-back sweep ended. -/
structure Stage where
  manifest : Nat
  leafTable : Nat
  acc : List Byte
  retries : Nat
  verdict : Option Bool
  deriving DecidableEq, Repr

/-- No staging. -/
def Stage.none : Stage := ⟨0, 0, [], 0, Option.none⟩

/-! ### Hosts, GATE, mending (11) -/

/-- Where a verification is (R323). -/
inductive GatePhase where
  | wait | manifest | signatures | stream | escort | ready
  deriving DecidableEq, Repr

/-- A verification in progress (R320-R326): slot, place in the order of commands, bytes of the manifest, bytes of the leaf
table and of the block in flight, the next block, the blocks with a final verdict, the verdicts on the tables, the copy of
the last block, the escort table in flight, the engines, the buffer half, and the blocks to read again with the bytes of the first
of them and how often each has been read again. -/
structure Gate where
  phase : GatePhase
  slot : Nat
  order : Nat
  manifest : List Byte
  sigStep : Nat
  mldsaOk : Bool
  table : List Byte
  tableDone : Option Bool
  blk : Nat
  acc : List Byte
  final : List Nat
  last : List Byte
  window : Nat
  esc : List Byte
  engines : List Nat
  half : Nat
  reread : List Nat
  racc : List Byte
  tries : Tbl Nat
  deriving DecidableEq, Repr

/-- A restore in progress (R341): target slot, step (4 the golden manifest, 5 its signatures, 6 its leaf table, 7 that table's digest, then 0
erase, 1 read, 2 decompress, 3 program, 8 ENROLL), bytes erased or programmed, the golden manifest, leaf table and blocks read, the block in
flight, its re-reads, the output, and the DGE that the read of FG feeds (R224, R361). -/
structure Restore where
  slot : Nat
  step : Nat
  done : Nat
  manifest : List Byte
  table : List Byte
  engine : Option Nat
  golden : List Byte
  acc : List Byte
  retries : Nat
  output : List Byte
  deriving DecidableEq, Repr

/-- What a host's channel reads under K5 apart from verifications, sweeps and restores: the slot that ENROLL checks (`kind` 0), the
escort tables that RELOAD brings back (1), the restored slot (2) (R338, R341, R569).  `step` is 0 while the manifest is read, 1 while its
signatures wait for the PKE, 2 while the leaf table, or an escort table, is read, 3 while its digest waits for a DGE; `idx` is the
position of the escort table. -/
structure HostRead where
  kind : Nat
  slot : Nat
  step : Nat
  manifest : List Byte
  acc : List Byte
  idx : Nat
  deriving DecidableEq, Repr

/-- Supervision (R332, R333): whether an OK is awaited, whether the retry pulse asserts the reset output, the level of Hn_OK,
whether it has been high since the release, and whether OK_LOSS is being timed. -/
structure Sup where
  waiting : Bool
  pulse : Bool
  okPin : Bool
  okHigh : Bool
  okLow : Bool
  deriving DecidableEq, Repr

/-- A mending (R334-R337, R570): whether it lasts, whether MEND_DEADLINE runs, the failed-slot memory, and the failed slots
whose kept record the first OK voids. -/
structure Mend where
  active : Bool
  timer : Bool
  failed : List Nat
  toVoid : List Nat
  deriving DecidableEq, Repr

/-- A host as the release logic holds it.  `digests` are the directory digests retained in the always-on domain, with the
table offset and size of each window (R323, R569); `wins` the windows (index, base, size, first leaf) it was released under (R318). -/
structure HostSt where
  gate : Option Gate
  restore : Option Restore
  read : Option HostRead
  sup : Sup
  mend : Mend
  digests : List (Nat × Nat × BitVec 384)
  sweepAcc : List Byte
  wins : List (Nat × Nat × Nat × Nat)
  deriving DecidableEq, Repr

/-- No supervision. -/
def Sup.idle : Sup := ⟨false, false, false, false, false⟩

/-- No mending. -/
def Mend.idle : Mend := ⟨false, false, [], []⟩

/-- A host after an always-on reset. -/
def HostSt.idle : HostSt := ⟨none, none, none, Sup.idle, Mend.idle, [], [], []⟩

/-- CMP (R550): the running descriptor, the restore it serves, and what its stream gave. -/
structure CmpSt where
  run : Option (List Byte)
  host : Option Nat
  deriving DecidableEq, Repr

/-! ### Channels and Sumac (12) -/

/-- The device's own work on an engine that had to wait for it (R19, R29, R356): the life-cycle sequencer's check of a token, the check
of a grant, TIME APPLY, EXPORT_ACK, a command of ATT or STX, a message that STX holds, and the signatures of an image that ENROLL or a
restore of host `h` checks. -/
inductive Job where
  | lcs | grant | time | ledger | att | stx | held | host (h : Nat)
  deriving DecidableEq, Repr

/-- What a request of Sumac does when it is served (R354, R361). -/
inductive ReqKind where
  | fwRead | fwProgram | fwErase | init | gate | sweep | stageSweep | restore | hostRead | ledger | measure | readPage | session | quote
  | job (j : Job)
  deriving DecidableEq, Repr

/-- A request: what, class of issue, queue it stands in now (1 is promoted K1), issuer, an address or, for a stream that lane I
compares, whether its next burst reads a block again (R352), for the ledger 0 a commit block or the ring to erase plus 1, bytes served, the MRT at
which it was issued, and a firmware command's descriptor as it was read at the start. -/
structure Req where
  kind : ReqKind
  cls : Nat
  lvl : Nat
  issuer : Nat
  addr : Nat
  pos : Nat
  issued : Nat
  desc : List Byte
  deriving DecidableEq, Repr

/-- The scheduler of one resource (R356): queue in order of arrival, the request in service, deficits, round pointer, the
issuer served last in each class, sacrifice level, and whether Brace overlapped the window (R366). -/
structure Sched where
  queue : List Req
  running : Option Req
  deficit : Tbl Nat
  ptr : Nat
  rotor : Tbl Nat
  level : Nat
  braced : Bool
  deriving DecidableEq, Repr

/-- An idle scheduler. -/
def Sched.idle : Sched := ⟨[], none, [], 2, [], 0, false⟩

/-- A flash channel beyond its scheduler: an own K1 fetch in flight, a suspended erase or program, whether its suspend is
still awaited (R351), the poll after a warm reset (R353), re-reads of the burst in service, the lease in units of 0.1 ms, the MRT at which it
arrived, and whether the channel is returning the pins (R279). -/
structure Chan where
  k1Run : Bool
  suspended : Option Req
  suspending : Bool
  polling : Bool
  retries : Nat
  lease : Nat
  leaseAt : Nat
  closing : Bool
  deriving DecidableEq, Repr

/-- An idle channel. -/
def Chan.idle : Chan := ⟨false, none, false, false, 0, 0, 0, false⟩

/-- Idle engines. -/
def DgeSt.idle : DgeSt := ⟨0, false, [], [], 0, none, none, none, none, none, none⟩
def SnpSt.idle : SnpSt := ⟨0, [], 0, 0, 0, 0, 0, none, [], [], [], [], [], []⟩
def Dkr.empty : Dkr := ⟨false, [], 0, 0, none, 0⟩
def AesSt.idle : AesSt := ⟨Dkr.empty, none, 0, false, [], [], [], [], none, none, false, none⟩
def KeyReg.empty : KeyReg := ⟨0, [], false, none, 0, none⟩

/-! ### Network, CAN, management port (13) -/

/-- A SAK register and its SA (R381-R384): key, permission, source slot and its GEN, the salt and SSCI latched at ENABLE, whether
a withdrawal waits for the end of the frame in progress. -/
structure Sa where
  loaded : Bool
  enabled : Bool
  key : List Byte
  keyAttr : Nat
  source : Option Nat
  gen : Nat
  salt : List Byte
  ssci : Nat
  withdrawn : Bool
  deriving DecidableEq, Repr

/-- An empty SAK register. -/
def Sa.empty : Sa := ⟨false, false, [], 0, none, 0, [], 0, false⟩

/-- A lane (R373-R384): frames waiting to be sent, the frame on the wire, the last frame that left, the firmware receive queue. -/
structure Lane where
  txq : List (List Byte)
  wire : Option (List Byte)
  wireAn : Option Nat
  spoil : Bool
  sent : List Byte
  rxq : List (List Byte)
  deriving DecidableEq, Repr

/-- A lane without traffic. -/
def Lane.idle : Lane := ⟨[], none, none, false, [], []⟩

/-- An ISO 15765-2 message being received from a peer (R394). -/
structure TpRx where
  peer : Nat
  len : Nat
  data : List Byte
  sn : Nat
  left : Nat
  deriving DecidableEq, Repr

/-- An ISO 15765-2 message being sent to a peer: what is left, the next sequence nibble, whether a flow control is awaited, the
frames left in the block (0 without a limit), and the separation time in force. -/
structure TpTx where
  peer : Nat
  rest : List Byte
  sn : Nat
  waitFc : Bool
  left : Nat
  limited : Bool
  deriving DecidableEq, Repr

/-- A CAN port (R393-R396): messages in both directions, the firmware queue, the frames it put on the bus since the last one
was taken off, whether it is recovering. -/
structure CanPort where
  rx : List TpRx
  tx : List TpTx
  fwq : List CanFrame
  bus : List CanFrame
  recovering : Bool
  deriving DecidableEq, Repr

/-- A CAN port without traffic. -/
def CanPort.idle : CanPort := ⟨[], [], [], [], false⟩

/-- The management port (R397-R406): mailbox, status bits, read buffer, the bytes the host last read, the page request in
flight, and outbound STX frames. -/
structure Mgp where
  mbox : Mem
  response : Bool
  rdReady : Bool
  rdErr : Bool
  err : Bool
  rdbuf : List Byte
  out : List Byte
  req : Option (Nat × Nat × Nat)
  stxOut : List (List Byte)
  code : Nat
  tag : Nat
  deriving DecidableEq, Repr

/-- The management port after a power-on reset. -/
def Mgp.idle : Mgp := ⟨[], false, false, false, false, [], [], none, [], 0, 0⟩

/-! ### Sessions and attestation (14) -/

/-- A frame received and not yet consumed by a message; `body` is none where the message it belongs to is abandoned (R420,
R421). -/
structure Part where
  seq : Nat
  type : Nat
  more : Bool
  body : Option (List Byte)
  deriving DecidableEq, Repr

/-- A frame sent and not yet acknowledged (R388). -/
structure Unacked where
  seq : Nat
  frame : List Byte
  tries : Nat
  deriving DecidableEq, Repr

/-- A session context (R408): the public record, then the handshake messages, the identity digest, the ephemeral key register,
the wrapped keys and salts, and what the link and the message layer keep. -/
structure Sess where
  state : Nat
  medium : Nat
  partner : Nat
  component : Nat
  suite : Nat
  peer : Nat
  txSeq : Nat
  rxHigh : Nat
  cause : Nat
  initiator : Bool
  hello : List Byte
  reply : List Byte
  idDigest : BitVec 384
  ephReg : Option Nat
  transcript : BitVec 384
  blobTx : List Byte
  blobRx : List Byte
  saltTx : List Byte
  saltRx : List Byte
  authFails : Nat
  seen : List Nat
  parts : List Part
  next : Nat
  buf : Option Nat
  unacked : List Unacked
  closing : Nat
  deriving DecidableEq, Repr

/-- A context in IDLE that no session has used. -/
def Sess.idle : Sess :=
  ⟨0, 0, 0, 0, 0, 0, 1, 0, 0, false, [], [], 0, none, 0, [], [], [], [], 0, [], [], 1, none, [], 0⟩

/-- Frames of a HELLO from a peer without a context (R410). -/
structure Prelim where
  medium : Nat
  peer : Nat
  parts : List Part
  buf : Nat
  deriving DecidableEq, Repr

/-- A message for firmware (R422): session, partner, component, type, bytes. -/
structure FwMsg where
  session : Nat
  partner : Nat
  component : Nat
  type : Nat
  data : List Byte
  deriving DecidableEq, Repr

/-- An entry of a verdict list (R432, R434): partner, component, verdict. -/
structure Verdict where
  partner : Nat
  component : Nat
  code : Nat
  deriving DecidableEq, Repr

/-- A round (R430): descriptor, the sessions asked and those still silent, the verdicts so far, the hosts whose manifest
matched, whether it has closed, quotes waiting for the PKE. -/
structure Round where
  addr : Nat
  nonce : List Byte
  out : Nat
  remeasure : Bool
  silent : List Nat
  verdicts : List Verdict
  passed : List Nat
  closed : Bool
  waiting : List (Nat × List Byte)
  lost : Bool
  deriving DecidableEq, Repr

/-- What arrives and needs an engine that it cannot have at once waits (R255, R417, R425, R506): a frame, a HELLO or another message that
came whole, and the HELLO_REPLY of a session. -/
inductive Held where
  | frame (medium peer : Nat) (f : List Byte) | hello (m : StxMessage) | whole (m : StxMessage) (type : Nat)
  | reply (sid : Nat) (m : List Byte)
  deriving DecidableEq, Repr

/-- STX and ATT: contexts, frames before a context, the firmware queue, the Alias certificate, the round, the last full
verdict list, a SEAL_OP waiting for or holding its AES engine with the firmware key it displaced, what waits for an engine, and the index of the
IDENTITY entries that LOCK_RMT built (R429). -/
structure StxSt where
  sessions : Tbl Sess
  prelim : List Prelim
  fwq : List FwMsg
  cert : List Byte
  round : Option Round
  verdicts : List Verdict
  sealWait : Option Nat
  sealRun : Option (Nat × Nat)
  savedDkr : Option Dkr
  held : List Held
  index : List (List Byte)
  deriving DecidableEq, Repr

/-- STX and ATT after a reset. -/
def StxSt.idle : StxSt := ⟨[], [], [], [], none, [], none, none, none, [], []⟩

/-! ### Time and ledger (15) -/

/-- The totals of a period that is open (R452): metres with the remainder in thousandths of a pulse-length, moving and
ignition-on seconds. -/
structure Totals where
  metres : Nat
  rem : Nat
  moving : Nat
  ign : Nat
  deriving DecidableEq, Repr

/-- Nothing accrued. -/
def Totals.zero : Totals := ⟨0, 0, 0, 0⟩

/-- The time base (R439-R452), in the always-on domain: MRT, UTC_OFFSET, the MRT at which TIME_GAP began, the correction still
to slew, the metering rule in force, the open totals by kind, and the challenge with the MRT it was drawn at. -/
structure TimeSt where
  mrt : Nat
  utcOffset : Int
  gapFrom : Nat
  slew : Int
  meterMode : Nat
  meterDays : Nat
  meterAnchor : Nat
  totals : Tbl Totals
  challenge : Option (BitVec 128 × Nat)
  latchMrt : Nat
  latchUtc : Nat
  deriving DecidableEq, Repr

/-- A record in the journal (R459): its ring and bytes. -/
structure JRec where
  ring : Nat
  urgent : Bool
  data : List Byte
  deriving DecidableEq, Repr

/-- A ring on FB (R454-R457, R460): open page sequence, oldest sequence, offset of the next block, whether the page is open,
the last commit tag, the commit tag before the open page, the last page tag. -/
structure Ring where
  head : Nat
  tail : Nat
  off : Nat
  isOpen : Bool
  c : List Byte
  c0 : List Byte
  p : List Byte
  due : Bool
  deriving DecidableEq, Repr

/-- A ring never written. -/
def Ring.blank : Ring := ⟨0, 0, 0x20, false, List.replicate 10 0, List.replicate 10 0, List.replicate 32 0, false⟩

/-- The speed coder (R473), in retention SRAM: running, knot, previous sample, slope bounds as fractions, the minute and its
maximum. -/
structure Coder where
  on : Bool
  kt : Nat
  kv : Nat
  pt : Nat
  pv : Nat
  lo : Option (Int × Nat)
  hi : Option (Int × Nat)
  minute : Option (Nat × Nat)
  deriving DecidableEq, Repr

/-- The coder before its first sample. -/
def Coder.idle : Coder := ⟨false, 0, 0, 0, 0, none, none, none⟩

/-- The ledger.  Journal, coder and period state lie in the always-on domain; `key` is K_L (R458) and the block in flight. -/
structure LedgerSt where
  key : Option (List Byte)
  keyGen : Nat
  journal : List JRec
  coder : Coder
  committing : Bool
  block : Option (Nat × Nat × List Byte × Nat)
  stoppedAt : Option Nat
  stopCause : Nat
  tailLost : Bool
  overflow : Option Nat
  pulseAt : Nat
  distPulses : Nat
  speed : Nat
  ignOn : Bool
  wsSum : Nat
  wsCount : Nat
  wsSilent : Nat
  missRun : Nat
  matchRun : Nat
  missMax : Nat
  inMiss : Bool
  lostTold : Bool
  challenge : Option (BitVec 128 × Nat)
  debugIn : Bool
  deriving DecidableEq, Repr

end Sys2Proof.Machine
end

