-- ==== Sys2Proof/Machine/State.lean ====
section
/-! DEFINITION. The state of the block: every register, memory, queue and engine the spec names, and the queue of commands
that wait; the two closed types of what a step can stop with; the state right after reset. -/

namespace Sys2Proof.Machine

/-- Internal NVM (R103, R106, R135, R200, R310, R475, R478): codeword, intents, BOOT_COUNT, security event log, EXPORTED and
FROZEN, the odometer with its remainder, persistence area, wrapped blobs, slot records, and where the two rings on FB stand. -/
structure Nvm where
  codeword : BitVec 64
  intents : Tbl Intent
  bootCount : Nat
  secLog : List SecEntry
  exported : Bool
  frozen : Bool
  odometer : Nat
  odoRem : Nat
  persist : Option Persist
  blobs : Mem
  slotRecs : List SlotRec
  rings : Tbl Ring
  deriving DecidableEq, Repr

/-- Internal NVM as it leaves the factory: erased (log entry 9). -/
def Nvm.blank : Nvm := ⟨BitVec.allOnes 64, [], 0, [], false, false, 0, 0, none, [], [], []⟩

/-- OTP with nothing blown (log entry 9). -/
def Otp.blank : Otp :=
  { macBase := 0, serial := 0, icaendiHash := 0, icaendiLock := false, custHash := 0, custLock := false, backendHash := 0,
    trims := 0, trimLock := false, therm := 0, fuseA := ⟨0, 0⟩, fuseB := ⟨0, 0⟩, bornA := ⟨0, 0⟩, bornB := ⟨0, 0⟩,
    bootOrder := 0, orderLock := false, sigEither := false, pushWindow := 0, fwHashA := 0, fwHashB := 0, revokedA := false,
    revokedB := false, lossTamper := false }

/-- The machine's state. -/
structure State where
  /-- Commands that wait, first in, first out. -/
  pending : List Instr
  /-- The model's own field: how many bytes of the free source have been drawn (log entry 2). -/
  free : Nat
  regs : RegFile
  /-- CMD registers in use (R72). -/
  cmds : Tbl CmdSlot
  strobe : Strobe
  /-- Pages whose ENABLE check runs, with the PAGE_CTRL value that takes effect when it passes (R67, R551). -/
  enableChecks : Tbl Nat
  walker : Walker
  /-- Core accesses that wait for a port (R85). -/
  waits : List XAccess
  bus : BusResult
  power : Power
  mode : ModeSt
  otp : Otp
  nvm : Nvm
  lcs : LcsSt
  dbg : DbgSt
  tap : Tap
  boot : BootSt
  cores : Tbl CoreSt
  /-- Tightly coupled memory, by core (R141). -/
  tcm : Tbl Mem
  wdtStart : Nat
  clove : Clove
  sram : Mem
  retention : Mem
  /-- The fitted flash devices: channel and chip select in bits 35:32 of the key (R344). -/
  flash : Mem
  /-- FB and FG report octal DTR support (R150), by channel; a device fitted as R147 asks does. -/
  octal : Tbl Bool
  vault : VaultSt
  dge : Tbl DgeSt
  snp : Tbl SnpSt
  aes : Tbl AesSt
  pke : PkeSt
  rng : RngSt
  /-- The ECDH secret that PKE ECDH with destination 0 wrote to session context i (R248). -/
  ecdhOut : Tbl (BitVec 384)
  ports : Tbl Port
  stages : Tbl Stage
  /-- Work of staging, and VOID markers, that wait for Brace exit or for an engine (R307, R309, R313, R506). -/
  deferred : List Deferred
  hosts : Tbl HostSt
  /-- Leaf data memory (R318): leaf to digest. -/
  ldm : Tbl (BitVec 256)
  cmp : CmpSt
  /-- Schedulers by XBR resource number: DGE, AES, PKE, CMP, F0-F5, FB, FG (R356). -/
  scheds : Tbl Sched
  chans : Tbl Chan
  sas : Tbl Sa
  lanes : Tbl Lane
  cans : Tbl CanPort
  mgp : Mgp
  stx : StxSt
  time : TimeSt
  ledger : LedgerSt
  deriving DecidableEq, Repr

/-- What stops a run with the machine as it was.  No meaning raises it: the spec gives every command of the table an effect. -/
inductive Fault where
  /-- Nothing raises this; the type only has to be there.  Safe: no run ends in it. -/
  | impossible
  deriving DecidableEq, Repr

/-- What the model declines. -/
inductive Refusal where
  /-- A command without a meaning; the dispatch table alone may answer it.  Safe: a run stops where it stands. -/
  | notModelled (mnemonic : String)
  deriving DecidableEq, Repr

/-- The register stores with every field at its reset value. -/
def RegFile.reset : RegFile := ⟨[], [], [], [], [], [], [], [], [], []⟩

/-- Nothing of a strobe. -/
def Strobe.idle : Strobe := ⟨.idle, 0, [], [], []⟩

/-- Supplies valid, main domain on, its reset held (R482; log entry 3). -/
def Power.reset : Power :=
  { core := .ok, aon := .ok, pwrWarn := false, ioHost := [], ioFlash := true, ioGen := true, mainOn := true, mainReset := true,
    wakePending := none, nextCause := 0, enclInShelf := false, torn := false, fromVigil := false,
    wake := none }

/-- The mode logic after an always-on reset. -/
def ModeSt.reset : ModeSt :=
  { phase := .wake, sealStep := 0, sealShelf := false, sealPending := false, attached := false, afterWarm := false,
    appliedPages := [], reattach := false, layUp := false }

/-- ROM before it runs. -/
def BootSt.idle : BootSt := ⟨.off, [], 0, none, [], none, none, [], none, 0, []⟩

/-- Clove before its first sample. -/
def Clove.reset : Clove :=
  { ign := ⟨false, 0, false⟩, wakeA := ⟨false, 0, false⟩, wakeB := ⟨false, 0, false⟩, encl := ⟨false, 0, false⟩,
    vbat := ⟨0, false⟩, temp := ⟨0, false⟩, loopA := ⟨0, 0, false⟩, loopB := ⟨0, 0, false⟩, pulseAt := 0, prev := [],
    fresh := List.range 32, mrtHit := false }

/-- A vault that has loaded no root (R175, R185). -/
def VaultSt.empty : VaultSt := ⟨none, [], [], 0, 0, 0, false, false⟩

/-- The time base after an always-on reset (R439, R54). -/
def TimeSt.reset : TimeSt :=
  { mrt := 0, utcOffset := 0, gapFrom := 0, slew := 0, meterMode := 0, meterDays := 30, meterAnchor := 0, totals := [],
    challenge := none, latchMrt := 0, latchUtc := 0 }

/-- The ledger with an empty journal. -/
def LedgerSt.reset : LedgerSt :=
  { key := none, keyGen := 0, journal := [], coder := Coder.idle, committing := false, block := none,
    stoppedAt := none, stopCause := 3, tailLost := true, overflow := none, pulseAt := 0, distPulses := 0, speed := 0,
    ignOn := false, wsSum := 0, wsCount := 0, wsSilent := 0, missRun := 0, matchRun := 0, missMax := 0, inMiss := false,
    lostTold := false, challenge := none, debugIn := false }

/-- The machine right after reset: an always-on and power-on reset with the supplies valid, before MAIN_RESET_RELEASE. -/
def State.reset : State :=
  { pending := [], free := 0, regs := RegFile.reset, cmds := [], strobe := Strobe.idle, enableChecks := [],
    walker := ⟨none, none⟩, waits := [], bus := ⟨false, 0⟩, power := Power.reset, mode := ModeSt.reset, otp := Otp.blank,
    nvm := Nvm.blank, lcs := ⟨false, 0, false, 0⟩, dbg := ⟨none, none, 0, []⟩,
    tap := ⟨1, 1, 0, ⟨false, 0⟩⟩, boot := BootSt.idle, cores := [], tcm := [], wdtStart := 0, clove := Clove.reset, sram := [],
    retention := [], flash := [], octal := [], vault := VaultSt.empty, dge := [], snp := [], aes := [],
    pke := ⟨[], none, none, none⟩, rng := ⟨0, 0⟩, ecdhOut := [], ports := [], stages := [], deferred := [], hosts := [],
    ldm := [], cmp := ⟨none, none⟩, scheds := [], chans := [], sas := [], lanes := [], cans := [], mgp := Mgp.idle,
    stx := StxSt.idle, time := TimeSt.reset, ledger := LedgerSt.reset }

end Sys2Proof.Machine
end

