-- ==== Sys2Proof/Machine/Ops.lean ====
section
/-! DEFINITION. The named operations every meaning goes through: reading and writing a register field in its store,
raising an event, recording a refusal, counting, queueing a command (R72), drawing random bytes, and the memories. -/

namespace Sys2Proof.Machine

namespace RegFile

/-- The store that holds the fields of a domain. -/
def live (r : RegFile) : Dom → Tbl Nat
  | .clk => r.clk
  | .por => r.por
  | .sck => r.sck
  | .aon => r.aon

/-- Replace the store of a domain. -/
def setLive (r : RegFile) (d : Dom) (t : Tbl Nat) : RegFile :=
  match d with
  | .clk => { r with clk := t }
  | .por => { r with por := t }
  | .sck => { r with sck := t }
  | .aon => { r with aon := t }

/-- The store in which a CFG field is in force (R76-R79). -/
def inForce (r : RegFile) : Dom → Tbl Nat
  | .clk => r.applied
  | .por => r.applied
  | .sck => r.inSck
  | .aon => r.inAon

/-- Replace the store in which the CFG fields of a domain are in force. -/
def setInForce (r : RegFile) (d : Dom) (t : Tbl Nat) : RegFile :=
  match d with
  | .clk => { r with applied := t }
  | .por => { r with applied := t }
  | .sck => { r with inSck := t }
  | .aon => { r with inAon := t }

end RegFile

namespace State

/-- The value of a field that is not CFG. -/
def rd (s : State) (f : Fld) : Nat := Tbl.get f.reset (s.regs.live f.dom) f.keyOf

/-- Write a field that is not CFG, cut to its width. -/
def wr (s : State) (f : Fld) (v : Nat) : State :=
  { s with regs := s.regs.setLive f.dom (Tbl.put f.reset (s.regs.live f.dom) f.keyOf (v % 2 ^ f.width)) }

/-- The value of a CFG field in force in its own domain. -/
def cfg (s : State) (f : Fld) : Nat := Tbl.get f.reset (s.regs.inForce f.dom) f.keyOf

/-- Put a CFG value in force. -/
def setCfg (s : State) (f : Fld) (v : Nat) : State :=
  { s with regs := s.regs.setInForce f.dom (Tbl.put f.reset (s.regs.inForce f.dom) f.keyOf (v % 2 ^ f.width)) }

/-- The shadow of a CFG field (R62, R70). -/
def shadowOf (s : State) (f : Fld) : Nat := Tbl.get f.reset s.regs.shadow f.keyOf

/-- Write the shadow of a CFG field. -/
def setShadow (s : State) (f : Fld) (v : Nat) : State :=
  { s with regs := { s.regs with shadow := Tbl.put f.reset s.regs.shadow f.keyOf (v % 2 ^ f.width) } }

/-- The applied copy of a CFG field in CLK_SYS (R90). -/
def appliedOf (s : State) (f : Fld) : Nat := Tbl.get f.reset s.regs.applied f.keyOf

/-- Write the applied copy of a CFG field. -/
def setApplied (s : State) (f : Fld) (v : Nat) : State :=
  { s with regs := { s.regs with applied := Tbl.put f.reset s.regs.applied f.keyOf (v % 2 ^ f.width) } }

/-- The next-state latch of a CFG field (R76). -/
def latchOf (s : State) (f : Fld) : Nat := Tbl.get f.reset s.regs.latch f.keyOf

/-- Write the next-state latch of a CFG field. -/
def setLatch (s : State) (f : Fld) (v : Nat) : State :=
  { s with regs := { s.regs with latch := Tbl.put f.reset s.regs.latch f.keyOf (v % 2 ^ f.width) } }

/-- A one-bit field read as a flag. -/
def flag (s : State) (f : Fld) : Bool := s.rd f = 1

/-- Write a one-bit field. -/
def wrb (s : State) (f : Fld) (b : Bool) : State := s.wr f (b2n b)

/-- A one-bit CFG field in force, as a flag. -/
def cfgb (s : State) (f : Fld) : Bool := s.cfg f = 1

/-- Count by `n`, saturating at the largest value the width holds (R563). -/
def bumpBy (s : State) (f : Fld) (n : Nat) : State := s.wr f (min (s.rd f + n) (2 ^ f.width - 1))

/-- Count one happening (R563). -/
def bump (s : State) (f : Fld) : State := s.bumpBy f 1

/-- Keep the larger of a LIVE maximum and a new sample. -/
def peak (s : State) (f : Fld) (v : Nat) : State := s.wr f (min (max (s.rd f) v) (2 ^ f.width - 1))

/-- Set an event bit of a page (R65, R69). -/
def raise (s : State) (p b : Nat) : State := s.wr (Hdr.EVENT p b) 1

/-- The event bit is set. -/
def raised (s : State) (p b : Nat) : Bool := s.flag (Hdr.EVENT p b)

/-- Record a refusal or a reason: CODE = (page << 8) | reason, and the active-view offset (R65, R83). -/
def refuse (s : State) (p code off : Nat) : State :=
  (s.wr (Hdr.REASON_CODE p) (p * 256 + code)).wr (Hdr.REASON_OFFSET p) off

/-- A write that the device discards (R65, R71): WRITE_LOST, its event and WRITE_LOST_AT. -/
def writeLost (s : State) (p off : Nat) : State :=
  ((s.wr (Hdr.WRITE_LOST p) 1).raise p 2).wr (Hdr.WRITE_LOST_AT p) off

/-- A write discarded with a reason (R68, R551). -/
def writeLostWith (s : State) (p off code : Nat) : State := (s.writeLost p off).refuse p code off

/-- A CMD write dropped with the queue full (R72). -/
def cmdLost (s : State) (p : Nat) : State := (s.wr (Hdr.CMD_LOST p) 1).raise p 3

/-- The page is in force. -/
def active (s : State) (p : Nat) : Bool := s.flag (Hdr.ACTIVE p)

/-- The page is enabled. -/
def enabled (s : State) (p : Nat) : Bool := s.flag (Hdr.ENABLE p)

/-- The main domain is on and out of reset: registers, cores and engines work (R482, R486). -/
def up (s : State) : Bool := s.power.mainOn && !s.power.mainReset

/-- The key of a CMD register. -/
def cmdKey (p off : Nat) : Nat := p * 0x1000 + off

/-- A CMD register's running and queued command. -/
def cmdSlot (s : State) (p off : Nat) : CmdSlot := Tbl.get ⟨none, none⟩ s.cmds (cmdKey p off)

/-- Replace a CMD register's slot. -/
def setCmdSlot (s : State) (p off : Nat) (c : CmdSlot) : State :=
  { s with cmds := Tbl.put ⟨none, none⟩ s.cmds (cmdKey p off) c }

/-- A command runs in this CMD register. -/
def cmdRuns (s : State) (p off : Nat) : Bool := (s.cmdSlot p off).running.isSome

/-- Mark a command as running. -/
def cmdStart (s : State) (p off : Nat) (i : Instr) : State :=
  s.setCmdSlot p off { s.cmdSlot p off with running := some i }

/-- The running command of a CMD register ends. -/
def cmdEnd (s : State) (p off : Nat) : State :=
  s.setCmdSlot p off { s.cmdSlot p off with running := none }

/-- An ABORT discards the running and the queued command (R72). -/
def cmdDrop (s : State) (p off : Nat) : State := s.setCmdSlot p off ⟨none, none⟩

/-- A CMD write of command `i` (R72): dropped with CMD_LOST when one is queued, queued when one runs, else started.
Without a main domain in operation no core writes. -/
def issue (s : State) (p off : Nat) (i : Instr) (start : State → State) : State :=
  if !s.up then s
  else if (s.cmdSlot p off).queued.isSome then s.cmdLost p
  else if (s.cmdSlot p off).running.isSome then s.setCmdSlot p off { s.cmdSlot p off with queued := some i }
  else start s

/-- `n` bytes of the CTR_DRBG, or of any other free source: the model does not fix them. -/
def freeBytes (s : State) : Nat → List Byte
  | 0 => []
  | n + 1 => freeBytes s n ++ [Config.freeByte (s.free + n)]

/-- Advance the free-value counter past `n` bytes. -/
def spend (s : State) (n : Nat) : State := { s with free := s.free + n }

/-! #### Memories (R141, R565) -/

/-- Base and size of the main SRAM. -/
def sramBase : Nat := 0x20000000
def sramSize : Nat := 0x400000
/-- Base and size of the always-on retention SRAM. -/
def retBase : Nat := 0x30000000
def retSize : Nat := 0x10000

/-- `[a, a + n)` lies in main SRAM. -/
def inSram (a n : Nat) : Bool := decide (sramBase ≤ a) && decide (a + n ≤ sramBase + sramSize)

/-- Bytes of main SRAM. -/
def sramBytes (s : State) (a n : Nat) : List Byte := Mem.bytes 0 s.sram a n

/-- A little-endian field of main SRAM (R565). -/
def sramLe (s : State) (a n : Nat) : Nat := Mem.le 0 s.sram a n

/-- Write bytes to main SRAM. -/
def sramStore (s : State) (a : Nat) (bs : List Byte) : State := { s with sram := Mem.store 0 s.sram a bs }

/-- Clear a range of main SRAM. -/
def sramClear (s : State) (a n : Nat) : State := { s with sram := Tbl.clear a n s.sram }

/-- Bytes of the retention SRAM. -/
def retBytes (s : State) (a n : Nat) : List Byte := Mem.bytes 0 s.retention a n

/-- Write bytes to the retention SRAM. -/
def retStore (s : State) (a : Nat) (bs : List Byte) : State := { s with retention := Mem.store 0 s.retention a bs }

end State

/-! #### Numbers and byte strings -/

/-- The bytes of a digest, most significant first (R556). -/
def digestBytes {w : Nat} (d : BitVec w) : List Byte := beBytes (w / 8) d.toNat

/-- A digest from its bytes (R556). -/
def digestOf (w : Nat) (bs : List Byte) : BitVec w := BitVec.ofNat w (beNat bs)

/-- Word `i` of a byte string held in registers: bytes 4i to 4i + 3, the first in bits 31:24 (R556). -/
def digestWord {w : Nat} (d : BitVec w) (i : Nat) : Nat := beNat (((digestBytes d).drop (4 * i)).take 4)

/-- All bytes are zero (reserved fields). -/
def allZero (bs : List Byte) : Bool := bs.all (fun b => b = 0)

/-- A slice of a byte string. -/
def slice (bs : List Byte) (off n : Nat) : List Byte := (bs.drop off).take n

/-- A little-endian field of a byte string (R565). -/
def fieldLe (bs : List Byte) (off n : Nat) : Nat := leNat (slice bs off n)

/-- A host port. -/
def State.port (s : State) (n : Nat) : Port := Tbl.get Port.idle s.ports n
def State.setPort (s : State) (n : Nat) (p : Port) : State := { s with ports := Tbl.put Port.idle s.ports n p }

end Sys2Proof.Machine
end

