-- ==== Sys2Proof/Machine/Sumac.lean ====
section
/-! DEFINITION. Flash contents, channels and the Sumac scheduler (chapter 12): bandwidth figures, requests, the deficit
round robin, who holds the pins, and when a request may start. -/

namespace Sys2Proof.Machine

/-! Host states (R40). -/
def hsOFF : Nat := 0
def hsHELD : Nat := 1
def hsVERIFYING : Nat := 2
def hsESCORTED : Nat := 3
def hsRUNNING : Nat := 4
def hsQUARANTINED : Nat := 5
def hsMENDING : Nat := 6

/-! FCH and XBR block reasons. -/
def fcREAD_FAIL : Nat := 0x40
def fcHOST_ACTIVE : Nat := 0x41
def fcINIT_FAIL : Nat := 0x42
def fcADDRESS_RANGE : Nat := 0x43
def fcCLASS_NOT_PERMITTED : Nat := 0x44
def fcNOT_INIT : Nat := 0x45
def xbSHORTFALL_DROPPED : Nat := 0x40

/-- Offset of FCH CMD. -/
def fchCmdOff : Nat := 0x9C

/-- The issuer number of firmware in the rotation of R356; hosts are 0 to 5. -/
def fwIssuer : Nat := 100

/-- Twice the eighths of a byte per SCK cycle of a protocol (R347): 0.125, 0.5, 2, 2 bytes. -/
def protoEighths (p : Nat) : Nat := if p = 0 then 1 else if p = 1 then 4 else 16

/-- Command and address cycles (R347). -/
def protoCycles (p : Nat) (wide : Bool) : Nat :=
  if p = 0 then (if wide then 40 else 32) else if p = 1 then (if wide then 16 else 14) else 3

namespace State

/-! ### Host and port state that others read -/

/-- HSV.HOST_STATE[n].STATE (R40). -/
def hostSt (s : State) (n : Nat) : Nat := s.rd (Reg.HSV.HOST_STATE_STATE n)

/-- A host release record. -/
def host (s : State) (n : Nat) : HostSt := Tbl.get HostSt.idle s.hosts n
def setHost (s : State) (n : Nat) (h : HostSt) : State := { s with hosts := Tbl.put HostSt.idle s.hosts n h }

/-- The host's reset output is released (R40). -/
def released (s : State) (n : Nat) : Bool := s.hostSt n = hsESCORTED || s.hostSt n = hsRUNNING

/-- Hn_CS_N is low. -/
def csLow (s : State) (n : Nat) : Bool := (s.port n).live.isSome

/-- The port is parked (R77): reset output asserted, by the host's state or by a retry pulse (R332), or port disabled. -/
def parked (s : State) (n : Nat) : Bool := !s.released n || (s.host n).sup.pulse

/-- Digest engine `n`. -/
def dgeOf (s : State) (n : Nat) : DgeSt := Tbl.get DgeSt.idle s.dge n
def setDge (s : State) (n : Nat) (d : DgeSt) : State := { s with dge := Tbl.put DgeSt.idle s.dge n d }

/-- Snoop unit `u`. -/
def snpOf (s : State) (u : Nat) : SnpSt := Tbl.get SnpSt.idle s.snp u
def setSnp (s : State) (u : Nat) (d : SnpSt) : State := { s with snp := Tbl.put SnpSt.idle s.snp u d }

/-- A LEAVES operation of firmware is bound to unit `u` (R221). -/
def leavesOn (s : State) (u : Nat) : Bool :=
  [0, 1, 2, 3].any (fun m => match (s.dgeOf m).leaves with | some l => l.unit = u | none => false)

/-- Lane I of unit `c` is firmware's and hashes its READs in PRE mode (R225, R324). -/
def laneFw (s : State) (c : Nat) : Bool :=
  decide (c < 6) && s.cfg (Reg.SNP.MODE_LANE_I c) = 1 && !(s.hostSt c = hsVERIFYING || s.hostSt c = hsESCORTED || s.hostSt c = hsMENDING)

/-- A READ that lane I hashes is held: the FIFO is full (R225), or all is read and verdicts are awaited that may ask for a block
again within the same request (R352; log entry 45). -/
def fwHeld (s : State) (c : Nat) (r : Req) : Bool :=
  let p := s.snpOf c
  r.kind = .fwRead && s.laneFw c
  && (decide (16 ≤ p.fifo.length)
      || (decide (fieldLe r.desc 0x0C 4 ≤ r.pos) && p.reread.isEmpty && s.leavesOn c && !p.fifo.isEmpty))

/-- Brace lasts. -/
def brace (s : State) : Bool := s.flag Reg.PWR.STATUS_BRACE

/-! ### Flash devices -/

/-- The key of a byte of the device on a chip select of a channel. -/
def flashKey (ch cs a : Nat) : Nat := (ch * 2 + cs) * 2 ^ 32 + a

/-- Bytes of a flash device. -/
def flashBytes (s : State) (ch cs a n : Nat) : List Byte := Mem.bytes 0xFF s.flash (flashKey ch cs a) n

/-- Programming clears bits (log entry 12). -/
def flashProgram (s : State) (ch cs a : Nat) (bs : List Byte) : State :=
  let old := s.flashBytes ch cs a bs.length
  { s with flash := Mem.store 0xFF s.flash (flashKey ch cs a) ((old.zip bs).map (fun p => p.1 &&& p.2)) }

/-- Erasing sets every bit of the range. -/
def flashErase (s : State) (ch cs a n : Nat) : State := { s with flash := Tbl.clear (flashKey ch cs a) n s.flash }

/-- What a read delivers: the bytes, or bytes the spec leaves open where the environment says they came corrupted. -/
def delivered (s : State) (corrupt : Bool) (bs : List Byte) : State × List Byte :=
  if corrupt then (s.spend bs.length, s.freeBytes bs.length) else (s, bs)

/-! ### Figures of a channel (R347, R348, R357, R364), as a numerator and a denominator -/

/-- D_READ in MB/s of a profile: T_DESELECT, SCK_MHZ, PROTOCOL, ADDR_WIDE, DUMMY. -/
def dReadOf (tdes f p : Nat) (wide : Bool) (l : Nat) : Nat × Nat :=
  let k := protoEighths p
  (512000 * f * k, tdes * f * k + (3 + protoCycles p wide + l) * 1000 * k + 512 * 8000)

/-- D_PROG in MB/s: page and erase log2, T_PP_MAX in µs and T_ERASE_MAX in ms. -/
def dProgOf (tdes f p : Nat) (wide : Bool) (pl el tpp ter : Nat) : Nat × Nat :=
  let k := protoEighths p
  let pages := 2 ^ el / 2 ^ pl
  (2 ^ el * 1000 * f * k,
   ter * 1000000 * f * k + pages * (tpp * 1000 * f * k + tdes * f * k + (3 + protoCycles p wide) * 1000 * k + 2 ^ pl * 8000))

/-- t1K in ns, rounded up: `s` is STROBE_WAIT on protocols 2 and 3. -/
def t1kOf (tdes f p : Nat) (wide : Bool) (l sw : Nat) : Nat :=
  let k := protoEighths p
  let sw := if p < 2 then 0 else sw
  (2 * (tdes * f * k + (3 + protoCycles p wide + l + sw) * 1000 * k) + 1024 * 8000 + f * k - 1) / (f * k)

/-- Figures of channel `c` under a view of its CFG fields (in force, or the shadow that a strobe judges). -/
def dReadBy (v : Fld → Nat) (c : Nat) : Nat × Nat :=
  dReadOf (v (Reg.FCH.TIMING_T_DESELECT c)) (v (Reg.FCH.PROFILE_SCK_MHZ c)) (v (Reg.FCH.PROFILE_PROTOCOL c))
    (v (Reg.FCH.PROFILE_ADDR_WIDE c) = 1) (v (Reg.FCH.PROFILE_DUMMY c))
def dProgBy (v : Fld → Nat) (c : Nat) : Nat × Nat :=
  dProgOf (v (Reg.FCH.TIMING_T_DESELECT c)) (v (Reg.FCH.PROFILE_SCK_MHZ c)) (v (Reg.FCH.PROFILE_PROTOCOL c))
    (v (Reg.FCH.PROFILE_ADDR_WIDE c) = 1) (v (Reg.FCH.TIMING_PAGE_LOG2 c)) (v (Reg.FCH.TIMING_ERASE_LOG2 c))
    (v (Reg.FCH.T_PP_MAX c)) (v (Reg.FCH.T_ERASE_MAX c))
def t1kBy (v : Fld → Nat) (c : Nat) : Nat :=
  t1kOf (v (Reg.FCH.TIMING_T_DESELECT c)) (v (Reg.FCH.PROFILE_SCK_MHZ c)) (v (Reg.FCH.PROFILE_PROTOCOL c))
    (v (Reg.FCH.PROFILE_ADDR_WIDE c) = 1) (v (Reg.FCH.PROFILE_DUMMY c)) (v (Reg.FCH.TIMING_STROBE_WAIT c))

/-- UTIL as a fraction of one (R364): K0_RES in percent, reads in 0.1 MB/s, programs in 0.0001 MB/s. -/
def utilBy (v : Fld → Nat) (c : Nat) : Nat × Nat :=
  let dr := dReadBy v c
  let dp := dProgBy v c
  let rr := ((List.range 5).map (fun i => v (Reg.FCH.RES_READ c i))).sum
  let rp := ((List.range 5).map (fun i => v (Reg.FCH.RES_PROG c i))).sum
  (v (Reg.FCH.K0_RES c) * 100 * dr.1 * dp.1 + rr * 1000 * dr.2 * dp.1 + rp * dp.2 * dr.1, 10000 * dr.1 * dp.1)

/-- The quantum of class `k` on channel `c` in 512 B units (R357): a program reservation is converted at D_PROG. -/
def quantumBy (v : Fld → Nat) (c k : Nat) : Nat :=
  let dr := dReadBy v c
  let dp := dProgBy v c
  let num := v (Reg.FCH.RES_READ c (k - 1)) * 1000 * dr.2 * dp.1 + v (Reg.FCH.RES_PROG c (k - 1)) * dp.2 * dr.1
  let den := 10000 * dr.1 * dp.1
  max 1 ((64 * num + den - 1) / den)

/-! ### Schedulers and requests -/

/-- The resource number of channel `c` (XBR: DGE, AES, PKE, CMP, F0-F5, FB, FG). -/
def chanRes (c : Nat) : Nat := 4 + c

/-- A scheduler. -/
def sched (s : State) (x : Nat) : Sched := Tbl.get Sched.idle s.scheds x
def setSched (s : State) (x : Nat) (v : Sched) : State := { s with scheds := Tbl.put Sched.idle s.scheds x v }

/-- A channel. -/
def chan (s : State) (c : Nat) : Chan := Tbl.get Chan.idle s.chans c
def setChan (s : State) (c : Nat) (v : Chan) : State := { s with chans := Tbl.put Chan.idle s.chans c v }

/-- The sharing mode in force: 0 SHARED, 1 LEASED, 2 INTERNAL. -/
def sharing (s : State) (c : Nat) : Nat := s.cfg (Reg.FCH.SHARING_MODE c)

/-- Page and erase size of a channel. -/
def pageSize (s : State) (c : Nat) : Nat := 2 ^ s.cfg (Reg.FCH.TIMING_PAGE_LOG2 c)
def eraseSize (s : State) (c : Nat) : Nat := 2 ^ s.cfg (Reg.FCH.TIMING_ERASE_LOG2 c)

/-- The classes that a sacrifice level suspends (R367). -/
def suspendedAt (level k : Nat) : Bool := (k = 5 && decide (1 ≤ level)) || (k = 4 && decide (2 ≤ level)) || (k = 3 && decide (3 ≤ level))

/-- A request erases or programs, as its next service. -/
def reqErases (s : State) (r : Req) : Bool :=
  r.kind = .fwErase || (r.kind = .ledger && r.addr ≠ 0) || (r.kind = .restore && (match (s.host r.issuer).restore with | some t => t.step = 0 | none => false))
def reqPrograms (s : State) (r : Req) : Bool :=
  r.kind = .fwProgram || (r.kind = .ledger && r.addr = 0)
  || (r.kind = .restore && (match (s.host r.issuer).restore with | some t => t.step = 3 | none => false))

/-- What Sumac charges the next service of a request, in bytes (R359). -/
def reqCost (s : State) (c : Nat) (r : Req) : Nat :=
  if s.reqErases r then s.eraseSize c
  else if s.reqPrograms r then (s.pageSize c + 511) / 512 * 512
  else 512

/-- Time that is left of a lease, in µs (R279). -/
def leaseLeft (s : State) (c : Nat) : Nat := (s.chan c).lease * 100 - (s.time.mrt - (s.chan c).leaseAt) * 1000000 / 32768

/-- A lease window is open and the channel does not have to return the pins. -/
def inLease (s : State) (c : Nat) : Bool := decide (0 < (s.chan c).lease) && !(s.chan c).closing

/-- How long the next service of a request takes at most, in µs: an erase, a page program with its transfer, or a burst of 512 B
(R347, R348). -/
def svcMicros (s : State) (c : Nat) (r : Req) : Nat :=
  if s.reqErases r then s.cfg (Reg.FCH.T_ERASE_MAX c) * 1000
  else
    let d := dReadBy s.cfg c
    let move := (s.reqCost c r * d.2 + d.1 - 1) / d.1
    if s.reqPrograms r then s.cfg (Reg.FCH.T_PP_MAX c) + move else move

/-- A service inside a lease ends at least 2 µs before its expiry (R279). -/
def endsInLease (s : State) (c : Nat) (r : Req) : Bool := s.inLease c && decide (s.svcMicros c r + 2 ≤ s.leaseLeft c)

/-- A request may start its next service (R225, R278, R279, R350, R367, R370). -/
def mayStart (s : State) (c : Nat) (r : Req) : Bool :=
  !suspendedAt (s.sched (chanRes c)).level r.lvl
  && (!s.brace || (r.cls = 2 && r.kind ≠ .ledger))
  && (decide (6 ≤ c) || !s.released c || s.sharing c ≠ 1 || s.endsInLease c r)
  && (decide (6 ≤ c) || !(s.reqErases r || s.reqPrograms r) || !s.released c || s.sharing c = 1)
  && (!(s.chan c).suspended.isSome || r.cls = 2)
  && !s.fwHeld c r

/-- The port owns the pins. -/
def portOwns (s : State) (c : Nat) : Bool := decide (c < 6) && s.flag (Reg.HFP.PORT_STATUS_OWNS_PINS c)

/-- The host port of channel `c` asks for the pins, which it does with CS# low and the pins not its own, a first touch apart (R270,
R327), or it holds a read, or has commands to replay (R277). -/
def portWants (s : State) (c : Nat) : Bool :=
  decide (c < 6) && ((match (s.port c).live with | some l => l.touch.isNone && (l.serve = .waitPins || !s.portOwns c) | none => false)
    || !(s.port c).wbuf.isEmpty)

end State

/-- The next issuer of a class in rotation: the lowest above the last one served, else the lowest (R356). -/
def nextIssuer (last : Nat) (is : List Nat) : Option Nat :=
  match (is.filter (fun i => decide (last < i))).min? with
  | some i => some i
  | none => is.min?

/-- The head of a class: the oldest request of the next issuer in rotation. -/
def classHead (rotor : Tbl Nat) (q : List Req) (k : Nat) : Option Req :=
  let q := q.filter (fun r => r.lvl = k)
  match nextIssuer (Tbl.get 1000 rotor k) (q.map (fun r => r.issuer)) with
  | some i => q.find? (fun r => r.issuer = i)
  | none => none

/-- The loop of R356 over the classes K2 to K5, visiting at most `fuel` classes. -/
def drrPick (q : List Req) (cost : Req → Nat) (quantum : Nat → Nat) : Nat → Sched → Sched × Option Req
  | 0, d => (d, none)
  | fuel + 1, d =>
    let k := d.ptr
    let next (d : Sched) : Sched := { d with ptr := if k = 5 then 2 else k + 1 }
    match classHead d.rotor q k with
    | none => drrPick q cost quantum fuel (next { d with deficit := Tbl.put 0 d.deficit k 0 })
    | some r =>
      let have_ := Tbl.get 0 d.deficit k
      let have_ := if have_ < cost r then have_ + quantum k else have_
      if have_ < cost r then drrPick q cost quantum fuel (next { d with deficit := Tbl.put 0 d.deficit k have_ })
      else
        let left := if (q.filter (fun x => x.lvl = k)).length ≤ 1 then 0 else have_ - cost r
        ({ d with deficit := Tbl.put 0 d.deficit k left, rotor := Tbl.put 1000 d.rotor k r.issuer }, some r)

/-- The choice of R356 among the requests that may start: promoted K1 before the round. -/
def drrChoose (q : List Req) (cost : Req → Nat) (quantum : Nat → Nat) (d : Sched) : Sched × Option Req :=
  if q.isEmpty then ({ d with deficit := [] }, none)
  else match classHead d.rotor q 1 with
    | some r => ({ d with rotor := Tbl.put 1000 d.rotor 1 r.issuer }, some r)
    | none => drrPick q cost quantum 4096 d

namespace State

/-- The channel takes the pins from the port (R270). -/
def takePins (s : State) (c : Nat) : State :=
  let s := s.wr (Reg.FCH.STATUS_OWNER c) 1
  if c < 6 then s.wr (Reg.HFP.PORT_STATUS_OWNS_PINS c) 0 else s

/-- The channel returns the pins to the port (R270). -/
def givePins (s : State) (c : Nat) : State :=
  let s := s.wr (Reg.FCH.STATUS_OWNER c) 0
  if c < 6 then s.wr (Reg.HFP.PORT_STATUS_OWNS_PINS c) 1 else s

/-- The channel has nothing that may start: it returns the pins (R270), an INTERNAL channel keeps them (R558), and so does one whose
port serves a first touch, until its chip select rises (R327, R328). -/
def chanRest (s : State) (c : Nat) : State :=
  let s := s.wrb (Reg.FCH.STATUS_BUSY c) (s.chan c).suspended.isSome
  let touched := decide (c < 6) && (match (s.port c).live with | some l => l.touch.isSome | none => false)
  if (s.sharing c = 2 && decide (c < 6)) || touched then s else s.givePins c

/-- A service opportunity of channel `c` (R356): nothing where a service or an own K1 fetch is in progress, where the channel
polls after a warm reset (R353), where the port waits for the pins or holds them with CS# low. -/
def pumpCh (s : State) (c : Nat) : State :=
  let d := s.sched (chanRes c)
  let ch := s.chan c
  if !s.up || d.running.isSome || ch.k1Run || ch.polling || s.portWants c then s
  else
    let r := drrChoose (d.queue.filter (s.mayStart c)) (s.reqCost c) (fun k => 512 * quantumBy s.cfg c k) d
    match r.2 with
    | none =>
      match ch.suspended with
      | some e => if s.brace then (s.setSched (chanRes c) r.1).chanRest c else
          ((s.setSched (chanRes c) { d with running := some e }).setChan c { ch with suspended := none, suspending := false }).wr
            (Reg.FCH.STATUS_SUSPENDED c) 0
      | none => (s.setSched (chanRes c) r.1).chanRest c
    | some q =>
      if s.portOwns c && s.csLow c then s
      else
        let s := s.setSched (chanRes c) { r.1 with queue := d.queue.erase q, running := some q }
        let s := if q.cls = 2 then s.peak Reg.XBR.K2_MAX_SEEN ((s.time.mrt - q.issued) * 1000000 / 32768) else s
        (s.takePins c).wr (Reg.FCH.STATUS_BUSY c) 1

/-- Put a request at the end of a queue of its class; on a channel it may start at once.  A K2 request that finds an erase on FB
asks for its suspend (R351). -/
def enqueue (s : State) (x : Nat) (r : Req) : State :=
  let d := s.sched x
  let s := s.setSched x { d with queue := d.queue ++ [{ r with lvl := r.cls, issued := s.time.mrt }] }
  if x < 4 then s
  else
    let c := x - 4
    let s := match d.running with
      | some e =>
        if c = 6 && r.cls = 2 && s.reqErases e && !(s.chan c).suspending then
          (s.setChan c { s.chan c with suspending := true }).bump (Reg.FCH.ERASE_SUSPEND_COUNT c)
        else s
      | none => s
    s.pumpCh c

/-- The service in progress on channel `c` ends: nothing runs, re-reads start afresh.  A k1Run fetch or a port that waits makes
a request with more to do yield (R362). -/
def serviceEnd (s : State) (c : Nat) : State :=
  (s.setSched (chanRes c) { s.sched (chanRes c) with running := none }).setChan c { s.chan c with retries := 0 }

/-- A request goes back to its class for its next service (R358). -/
def requeue (s : State) (c : Nat) (r : Req) : State :=
  let s := if (s.chan c).k1Run || s.portWants c then s.bump (Reg.FCH.YIELD_COUNT c) else s
  let d := s.sched (chanRes c)
  s.setSched (chanRes c) { d with queue := d.queue ++ [{ r with lvl := r.cls }] }

/-- The next burst of the waiting requests that satisfy `p` reads a block again (R352); a burst in progress completes as it began. -/
def retag (s : State) (x : Nat) (p : Req → Bool) : State :=
  let d := s.sched x
  s.setSched x { d with queue := d.queue.map (fun r => if p r then { r with addr := 1 } else r) }

/-- Take the requests that satisfy `p` out of a resource: waiting, running or suspended. -/
def dropReqs (s : State) (x : Nat) (p : Req → Bool) : State :=
  let d := s.sched x
  let s := s.setSched x { d with
    queue := d.queue.filter (fun r => !p r), running := (match d.running with | some r => if p r then none else some r | none => none) }
  if x < 4 then s
  else
    let c := x - 4
    match (s.chan c).suspended with
    | some r => if p r then (s.setChan c { s.chan c with suspended := none, suspending := false }).wr (Reg.FCH.STATUS_SUSPENDED c) 0 else s
    | none => s

/-- Take every request of an issuer and of the given kinds off all channels, and let the channels go on. -/
def dropIssuer (s : State) (n : Nat) (ks : List ReqKind) : State :=
  (List.range 8).foldl (fun s c =>
    let p (r : Req) : Bool := r.issuer = n && ks.contains r.kind
    let d := s.sched (chanRes c)
    if d.queue.any p || (match d.running with | some r => p r | none => false) || (match (s.chan c).suspended with | some r => p r | none => false) then
      (s.dropReqs (chanRes c) p).pumpCh c
    else s) s

/-- A PKE service opportunity: a sequencer's request starts where neither firmware nor another request runs (R356). -/
def pumpPke (s : State) : State :=
  let d := s.sched 2
  if s.pke.run.isSome || d.running.isSome || s.brace then s
  else
    let share (k : Nat) : Nat := s.cfg (if k = 2 then Reg.XBR.SHARE_K2 2 else if k = 3 then Reg.XBR.SHARE_K3 2 else if k = 4 then Reg.XBR.SHARE_K4 2 else Reg.XBR.SHARE_K5 2)
    let r := drrChoose (d.queue.filter (fun q => !suspendedAt d.level q.lvl)) (fun _ => 1000) (fun k => 10 * max 1 (share k)) d
    match r.2 with
    | none => s.setSched 2 r.1
    | some q => s.setSched 2 { r.1 with queue := d.queue.erase q, running := some q }

/-- A request for the PKE. -/
def enqueuePke (s : State) (r : Req) : State := (s.enqueue 2 r).pumpPke

/-- The PKE takes work of class `k` at once: nothing runs on it, the class is not suspended, and no Brace lasts (R255, R356, R367). -/
def pkeFree (s : State) (k : Nat) : Bool :=
  !s.brace && s.pke.run.isNone && (s.sched 2).running.isNone && !suspendedAt (s.sched 2).level k

/-- The device's own work waits for the PKE, one request for each kind of it and issuer. -/
def awaitPke (s : State) (j : Job) (k issuer : Nat) : State :=
  let mine (r : Req) : Bool := r.kind = .job j && r.issuer = issuer
  if (s.sched 2).queue.any mine || (match (s.sched 2).running with | some r => mine r | none => false) then s
  else s.enqueuePke ⟨.job j, k, k, issuer, 0, 0, 0, []⟩

/-- A request of this kind and issuer is in service on a channel. -/
def serving (s : State) (c : Nat) (k : ReqKind) (n : Nat) : Bool :=
  match (s.sched (chanRes c)).running with
  | some r => r.kind = k && r.issuer = n
  | none => false

end State

end Sys2Proof.Machine
end

