-- ==== Sys2Proof/Machine/Lcs.lean ====
section
/-! DEFINITION. Life cycle (chapter 04): decoding the state, tokens, the transition order, RESUME. -/

namespace Sys2Proof.Machine

/-! ### How the state is held (R103-R106) -/

/-- The life-cycle state codes of R100. -/
def lcWAFER : Nat := 0
def lcCHARACTERISED : Nat := 1
def lcISSUED : Nat := 2
def lcPROVISIONED : Nat := 3
def lcFIELD : Nat := 4
def lcRMA : Nat := 5
def lcSCRAP : Nat := 6
def lcINVALID : Nat := 0xF

/-- State code and ordinal of a codeword (R103); none where the word is no codeword. -/
def codewordOf (w : BitVec 64) : Option (Nat × Nat) :=
  if w = 0xFFFFFFFFFFFFFFFF then some (lcWAFER, 0)
  else if w = 0xFFFFFFFFFFFFFF00 then some (lcCHARACTERISED, 1)
  else if w = 0xFFFFFFFFFFFF0000 then some (lcISSUED, 2)
  else if w = 0xFFFFFFFFFF000000 then some (lcPROVISIONED, 3)
  else if w = 0xFFFFFFFF00000000 then some (lcFIELD, 4)
  else if w = 0xFFFFFF0000000000 then some (lcRMA, 5)
  else if w = 0xFFFF000000000000 then some (lcSCRAP, 6)
  else if w = 0xFF0000FF00000000 then some (lcSCRAP, 5)
  else none

/-- The codeword of a target state; SCRAP depends on the count before the transition, 4 from FIELD and 5 from RMA (R103). -/
def targetCodeword (target count : Nat) : BitVec 64 :=
  if target = lcCHARACTERISED then 0xFFFFFFFFFFFFFF00
  else if target = lcISSUED then 0xFFFFFFFFFFFF0000
  else if target = lcPROVISIONED then 0xFFFFFFFFFF000000
  else if target = lcFIELD then 0xFFFFFFFF00000000
  else if target = lcRMA then 0xFFFFFF0000000000
  else if count = 4 then 0xFF0000FF00000000
  else 0xFFFF000000000000

/-- The number of blown thermometer bits (R104). -/
def Otp.thermCount (o : Otp) : Nat := ((List.range 16).filter (fun i => o.therm.getLsbD i)).length

/-- The blown bits are contiguous from bit 0 (R104). -/
def Otp.thermValid (o : Otp) : Bool := o.therm.toNat + 1 = 2 ^ o.thermCount

/-- An intent slot is open (R106). -/
def Intent.isOpen (t : Intent) : Bool := t.valid = 0 && t.crcOk && t.closed = BitVec.allOnes 64

/-- A slot as it leaves the factory: erased. -/
def Intent.blank : Intent := ⟨0xFF, 0xFF, BitVec.allOnes 384, false, BitVec.allOnes 64, BitVec.allOnes 64⟩

namespace State

/-- Intent slot `i`. -/
def intent (s : State) (i : Nat) : Intent := Tbl.get Intent.blank s.nvm.intents i

/-- The open intent slots (R106). -/
def openIntents (s : State) : List Nat := (List.range 16).filter (fun i => (s.intent i).isOpen)

/-- The life-cycle state that ROM decodes at a reset (R105). -/
def decodeLc (s : State) : Nat :=
  match codewordOf s.nvm.codeword with
  | some (st, ord) =>
    if s.otp.thermValid && ord = s.otp.thermCount && s.openIntents.isEmpty then st else lcINVALID
  | none => lcINVALID

/-- The state in force, as decoded at the last reset (R105, R109). -/
def lc (s : State) : Nat := s.rd Reg.LCS.STATE

/-- In PROVISIONED or FIELD. -/
def inService (s : State) : Bool := s.lc = lcPROVISIONED || s.lc = lcFIELD

/-- The DONE marker of a bank is fully blown (R115). -/
def bankDone (b : RootBank) : Bool := b.done = BitVec.allOnes 16

end State

/-- A bank overblown to all ones, value and DONE marker (R114, R115). -/
def RootBank.overblown : RootBank := ⟨BitVec.allOnes 384, BitVec.allOnes 16⟩

/-- A bank holds a root: DONE and not overblown, since an overblown bank takes no part in any derivation (R118; log entry 137). -/
def RootBank.holdsRoot (b : RootBank) : Bool := State.bankDone b && b.value ≠ BitVec.allOnes 384

/-- A bank that holds blown value bits without DONE, or is overblown, can take no root (R115, R118). -/
def RootBank.spent (b : RootBank) : Bool := b.value ≠ 0

namespace State

/-- BORN_ROOT is DONE in one bank. -/
def bornDone (s : State) : Bool := s.otp.bornA.holdsRoot || s.otp.bornB.holdsRoot

/-- FUSE_ROOT is DONE in one bank. -/
def fuseDone (s : State) : Bool := s.otp.fuseA.holdsRoot || s.otp.fuseB.holdsRoot

/-- The CTR_DRBG is FAILED (R253). -/
def rngFailed (s : State) : Bool := s.rd Reg.RNG.STATUS_STATE = 2

/-- The CTR_DRBG is instantiated and serves (R251, R253). -/
def rngServes (s : State) : Bool := s.flag Reg.RNG.STATUS_READY

/-- The CTR_DRBG is seeded anew (R252): counted, and the next period begins. -/
def reseed (s : State) : State := { s.bump Reg.RNG.RESEED_COUNT with rng := ⟨0, 0⟩ }

/-- `n` bytes of the CTR_DRBG in one generate request, after a reseed where 65,536 requests have been served since the last (R252). -/
def draw (s : State) (n : Nat) : State × List Byte :=
  let s := if 65536 ≤ s.rng.requests then s.reseed else s
  ({ s.spend n with rng := { s.rng with requests := s.rng.requests + 1 } }, s.freeBytes n)

end State

/-- RNG_UNAVAILABLE, the AES page's reason, as other pages record it (R253). -/
def rngUNAVAILABLE : Nat := 0x2646

/-- Generating a root in its two banks from 48 drawn bytes (R115); the Bool says whether a bank is DONE afterwards. -/
def genRoot (a b : RootBank) (v : BitVec 384) : RootBank × RootBank × Bool :=
  if a.holdsRoot || b.holdsRoot then (a, b, true)
  else
    let a' := if a.spent then RootBank.overblown else a
    let b' := if b.spent then RootBank.overblown else b
    if !a'.spent then (⟨v, BitVec.allOnes 16⟩, b', true)
    else if !b'.spent then (a', ⟨v, BitVec.allOnes 16⟩, true)
    else (a', b', false)

/-! ### Tokens (R122-R124) -/

/-- Length of a token (R122). -/
def tokenLen : Nat := 5489

/-- Magic, version and reserved fields of a token (R122). -/
def tokenFormatOk (t : List Byte) : Bool :=
  t.length = tokenLen && slice t 0 4 = [0x53, 0x59, 0x54, 0x4B] && fieldLe t 4 2 = 1 && fieldLe t 6 2 < 2
  && allZero (slice t 0x1C 4) && allZero (slice t 0x821 3)

/-- The token's fields. -/
def tokenWaive (t : List Byte) : Bool := bit (fieldLe t 6 2) 0
def tokenSerial (t : List Byte) : BitVec 128 := digestOf 128 (slice t 8 16)
def tokenFrom (t : List Byte) : Nat := fieldLe t 0x18 1
def tokenTarget (t : List Byte) : Nat := fieldLe t 0x19 1
def tokenCount (t : List Byte) : Nat := fieldLe t 0x1A 1
def tokenAuthority (t : List Byte) : Nat := fieldLe t 0x1B 1

/-- The authority a target asks for (R123). -/
def authorityFor (target : Nat) : Nat := if target = lcCHARACTERISED || target = lcISSUED then 1 else 2

/-- Both signatures over the leading bytes verify (R122, R124, R125): the public keys lie `keys` bytes in, the signatures
after them, 3 reserved bytes between. -/
def bothSigsOk (t : List Byte) (keys sigs : Nat) : Bool :=
  Config.mldsaVerify (slice t (keys + 97) 1952) (t.take sigs) (slice t (sigs + 96) 3309)
  && Config.ecdsaVerify (slice t keys 97) (Config.sha384 (t.take sigs)) (slice t sigs 96)

/-- The hash of the two public keys. -/
def keysHash (t : List Byte) (keys : Nat) : BitVec 384 := Config.sha384 (slice t keys 2049)

/-- The transitions offered (R100). -/
def offered (frm target : Nat) : Bool :=
  (frm = lcWAFER && target = lcCHARACTERISED) || (frm = lcCHARACTERISED && target = lcISSUED)
  || (frm = lcISSUED && target = lcPROVISIONED) || (frm = lcPROVISIONED && target = lcFIELD)
  || (frm = lcFIELD && (target = lcRMA || target = lcSCRAP)) || (frm = lcRMA && target = lcSCRAP)

namespace State

/-- The first failing condition of R123 for APPLY; none where the token verifies. -/
def tokenFault (s : State) (t : List Byte) : Option Nat :=
  if !tokenFormatOk t then some Reason.FIELD_RANGE
  else if tokenAuthority t ≠ authorityFor (tokenTarget t) then some Reason.TOKEN_AUTHORITY
  else if keysHash t 0x20 ≠ (if tokenAuthority t = 1 then s.otp.icaendiHash else s.otp.custHash) then some Reason.TOKEN_AUTHORITY
  else if !bothSigsOk t 0x20 0x824 then some Reason.TOKEN_SIGNATURE
  else if tokenSerial t ≠ s.otp.serial && !(tokenSerial t = 0 && authorityFor (tokenTarget t) = 1) then some Reason.TOKEN_SERIAL
  else if tokenFrom t ≠ s.lc || tokenCount t ≠ s.otp.thermCount then some Reason.TOKEN_STATE
  else if !offered (tokenFrom t) (tokenTarget t) then some Reason.TARGET_NOT_OFFERED
  else none

/-- The precondition of the target (R114).  Neither TRIM locks nor a BORN_ROOT that is not DONE have a reason of their own (DESIGN
CHOICE; log entry 21). -/
def preconditionFault (s : State) (t : List Byte) : Option Nat :=
  let g := tokenTarget t
  if g = lcCHARACTERISED && s.otp.icaendiHash = 0 then some Reason.AUTH_MISSING
  else if g = lcISSUED && !s.otp.trimLock then some Reason.NOT_IN_LIFECYCLE
  else if g = lcPROVISIONED && s.otp.custHash = 0 then some Reason.AUTH_MISSING
  else if g = lcFIELD && !s.bornDone then some Reason.ROOT_INCOMPLETE
  else if g = lcRMA && !s.nvm.exported && !tokenWaive t then some Reason.LEDGER_NOT_EXPORTED
  else none

/-- Write intent slot `c` (step 1, R107): VALID last. -/
def writeIntent (s : State) (c target : Nat) (d : BitVec 384) : State :=
  { s with nvm := { s.nvm with intents := Tbl.put Intent.blank s.nvm.intents c ⟨target, c, d, true, 0, BitVec.allOnes 64⟩ } }

/-- Blow thermometer bit `c` (step 2). -/
def blowTherm (s : State) (c : Nat) : State :=
  { s with otp := { s.otp with therm := s.otp.therm ||| (BitVec.ofNat 16 (2 ^ c)) } }

/-- The full code of a reason on the LCS page. -/
def lcsCode (reason : Nat) : Nat := pgLCS * 256 + reason

/-- The actions of a transition (R114), each idempotent (R110); the code of the reason where a root cannot be generated (R117), or
where the CTR_DRBG, which serves nothing then (R253), would have to give it (DESIGN CHOICE; log entry 138). -/
def lcsActions (s : State) (target : Nat) : State × Option Nat :=
  if target = lcCHARACTERISED then ({ s with otp := { s.otp with icaendiLock := true } }, none)
  else if target = lcISSUED then
    if !s.fuseDone && !s.rngServes then (s, some rngUNAVAILABLE)
    else
      let d := s.draw 48
      let r := genRoot s.otp.fuseA s.otp.fuseB (digestOf 384 d.2)
      ({ d.1 with otp := { s.otp with fuseA := r.1, fuseB := r.2.1 } }, if r.2.2 then none else some (lcsCode Reason.ROOT_INCOMPLETE))
  else if target = lcPROVISIONED then ({ s with otp := { s.otp with custLock := true } }, none)
  else if target = lcFIELD then ({ s with otp := { s.otp with orderLock := true } }, none)
  else if target = lcRMA then
    ({ s with
        otp := { s.otp with bornA := RootBank.overblown, bornB := RootBank.overblown },
        nvm := { s.nvm with persist := none, blobs := [] } }, none)
  else
    ({ s with
        otp := { s.otp with bornA := RootBank.overblown, bornB := RootBank.overblown,
                            fuseA := RootBank.overblown, fuseB := RootBank.overblown,
                            trims := BitVec.allOnes 64 },
        nvm := { Nvm.blank with codeword := s.nvm.codeword, intents := s.nvm.intents } }, none)

/-- Step 3: program the codeword. -/
def programCodeword (s : State) (target count : Nat) : State :=
  { s with nvm := { s.nvm with codeword := targetCodeword target count } }

/-- Record an entry of the security event log: the newest 4,096 are held (R22, R135). -/
def secLog (s : State) (k : SecKind) (reason : Nat) (d : BitVec 384) : State :=
  let e : SecEntry := ⟨k, reason, BitVec.ofNat 128 (d.toNat / 2 ^ 256), s.time.mrt⟩
  let l := s.nvm.secLog ++ [e]
  { s with nvm := { s.nvm with secLog := l.drop (l.length - 4096) } }

/-- End a refused LCS command: the full code of its reason, event, idle (R108). -/
def lcsFails (s : State) (code : Nat) : State :=
  ((((s.wr (Hdr.REASON_CODE pgLCS) code).wr (Hdr.REASON_OFFSET pgLCS) 0x5C).raise pgLCS 9).wr Reg.LCS.TRANSITION_STATUS_BUSY 0).cmdEnd pgLCS 0x5C

/-- End a refused LCS command with a reason of its own page. -/
def lcsRefuse (s : State) (code : Nat) : State := s.lcsFails (lcsCode code)

/-- Steps 1 to 3 with the actions between 2 and 3 (R107). -/
def lcsRun (s : State) (i : Instr) (c target : Nat) (d : BitVec 384) (fresh : Bool) : State :=
  let s := (s.cmdStart pgLCS 0x5C i).wr Reg.LCS.TRANSITION_STATUS_BUSY 1
  let s := if fresh then s.writeIntent c target d else s
  let s := s.blowTherm c
  let r := s.lcsActions target
  match r.2 with
  | none => { ((r.1.programCodeword target c).wr Reg.LCS.TRANSITION_STATUS_STEP 4) with lcs := ⟨true, c, false, d⟩ }
  | some code => r.1.lcsFails code

/-- The sequencer is BUSY with a command that goes on later, DEFERRED while Brace holds it back (R121). -/
def lcsHold (i : Instr) (s : State) : State :=
  ((s.cmdStart pgLCS 0x5C i).wr Reg.LCS.TRANSITION_STATUS_BUSY 1).wrb Reg.LCS.TRANSITION_STATUS_DEFERRED s.brace

/-- The sequencer waits for the PKE, which it uses under class K2, and in Brace for its exit (R121, R255). -/
def lcsWait (i : Instr) (s : State) : State :=
  ({ s.lcsHold i with lcs := ⟨true, 0, true, 0⟩ } : State).awaitPke .lcs 2 fwIssuer

/-- PROGRAM_AUTH, when it starts (R120): accepted only in ISSUED with CUST_AUTH_HASH blank; in Brace no blow starts, and the
command waits, DEFERRED (R121, R506). -/
def startProgramAuth (addr : Nat) (s : State) : State :=
  if s.lc ≠ lcISSUED || s.otp.custHash ≠ 0 then s.lcsRefuse Reason.NOT_IN_LIFECYCLE
  else if !inSram addr 48 then s.lcsRefuse Reason.FIELD_RANGE
  else if s.brace then s.lcsHold (.lcsProgramAuth addr)
  else { s with otp := { s.otp with custHash := digestOf 384 (s.sramBytes addr 48) } }

/-- APPLY, when it starts: verify on the PKE, preconditions, then the steps (R107, R108, R123). -/
def startApply (addr : Nat) (s : State) : State :=
  let t := s.sramBytes addr tokenLen
  if !inSram addr tokenLen then s.lcsRefuse Reason.FIELD_RANGE
  else if !s.pkeFree 2 then s.lcsWait (.apply addr)
  else match s.tokenFault t with
    | some r => s.lcsRefuse r
    | none =>
      match s.preconditionFault t with
      | some r => s.lcsRefuse r
      | none => s.lcsRun (.apply addr) s.otp.thermCount (tokenTarget t) (Config.sha384 t) true

/-- RESUME with a token, when it starts (R112).  The open slot stands for the decoded state in R123.  The spec names no reason for a
RESUME outside INVALID (DESIGN CHOICE; log entry 21). -/
def resumeWith (t : List Byte) (i : Instr) (s : State) : State :=
  if s.lc ≠ lcINVALID then s.lcsRefuse Reason.NOT_IN_LIFECYCLE
  else match s.openIntents with
    | [c] =>
      let slot := s.intent c
      if !s.pkeFree 2 then s.lcsWait i
      else if Config.sha384 t ≠ slot.digest then s.lcsRefuse Reason.INTENT_MISMATCH
      else if !tokenFormatOk t then s.lcsRefuse Reason.FIELD_RANGE
      else if tokenAuthority t ≠ authorityFor (tokenTarget t) then s.lcsRefuse Reason.TOKEN_AUTHORITY
      else if keysHash t 0x20 ≠ (if tokenAuthority t = 1 then s.otp.icaendiHash else s.otp.custHash) then s.lcsRefuse Reason.TOKEN_AUTHORITY
      else if !bothSigsOk t 0x20 0x824 then s.lcsRefuse Reason.TOKEN_SIGNATURE
      else if tokenSerial t ≠ s.otp.serial && !(tokenSerial t = 0 && authorityFor (tokenTarget t) = 1) then s.lcsRefuse Reason.TOKEN_SERIAL
      else if tokenCount t ≠ slot.count then s.lcsRefuse Reason.TOKEN_STATE
      else if !offered (tokenFrom t) (tokenTarget t) then s.lcsRefuse Reason.TARGET_NOT_OFFERED
      else if tokenTarget t ≠ slot.target then s.lcsRefuse Reason.INTENT_MISMATCH
      else s.lcsRun i c slot.target slot.digest false
    | _ => s.lcsRefuse Reason.NO_INTENT

/-- RESUME from SRAM, when it starts. -/
def startResume (addr : Nat) (s : State) : State :=
  if !inSram addr tokenLen then s.lcsRefuse Reason.FIELD_RANGE
  else s.resumeWith (s.sramBytes addr tokenLen) (.resume addr)

/-- The sequencer has the PKE: the APPLY or RESUME that waited goes on. -/
def lcsGranted (s : State) : State :=
  match (s.cmdSlot pgLCS 0x5C).running with
  | some i =>
    if s.lcs.busy && s.lcs.deferred then
      let s := { ((s.cmdEnd pgLCS 0x5C).wr Reg.LCS.TRANSITION_STATUS_BUSY 0) with lcs := ⟨false, 0, false, 0⟩ }
      match i with
      | .apply a => s.startApply a
      | .resume a => s.startResume a
      | .tapResume t => s.resumeWith t i
      | _ => s
    else s
  | none => s

/-- What a Brace exit continues (R121, R506): a PROGRAM_AUTH that waited; what needs the PKE waits for it as a request. -/
def lcsContinue (s : State) : State :=
  let s := s.wr Reg.LCS.TRANSITION_STATUS_DEFERRED 0
  match (s.cmdSlot pgLCS 0x5C).running with
  | some (.lcsProgramAuth a) => ((s.cmdEnd pgLCS 0x5C).wr Reg.LCS.TRANSITION_STATUS_BUSY 0).startProgramAuth a
  | _ => s

end State

/-- APPLY (R107): a write of LCS.TRANSITION_CMD with OP 1. -/
def execApply (addr : Nat) (s : State) : Host.Outcome State Fault Refusal :=
  .next (s.issue pgLCS 0x5C (.apply addr) (State.startApply addr))

/-- RESUME (R112): OP 2. -/
def execResume (addr : Nat) (s : State) : Host.Outcome State Fault Refusal :=
  .next (s.issue pgLCS 0x5C (.resume addr) (State.startResume addr))

/-- PROGRAM_AUTH (R120): OP 3. -/
def execLcsProgramAuth (addr : Nat) (s : State) : Host.Outcome State Fault Refusal :=
  .next (s.issue pgLCS 0x5C (.lcsProgramAuth addr) (State.startProgramAuth addr))

end Sys2Proof.Machine
end

