-- ==== Sys2Proof/Machine/Vault.lean ====
section
/-! DEFINITION. The key vault (chapter 06): roots, derivation, slots, the cache, capture and withdrawal, persistence. -/

namespace Sys2Proof.Machine

/-! ### Derivation (R172-R181) -/

/-- The bytes of an ASCII label (R178). -/
def asciiBytes (t : String) : List Byte := t.toList.map (fun c => BitVec.ofNat 8 c.toNat)

/-- The SP 800-108 counter-mode block of R177: HMAC-SHA-384 over counter, label, zero, context and length. -/
def kdf (parent : BitVec 384) (label ctx : List Byte) : BitVec 384 :=
  Config.hmac384 (digestBytes parent) (beBytes 4 1 ++ label ++ [0] ++ ctx ++ beBytes 4 0x180)

/-- R177: the value of a slot from its parent's value, label digest and usage byte. -/
def kdfLd (parent ld : BitVec 384) (usage : Nat) : BitVec 384 := kdf parent (digestBytes ld) [BitVec.ofNat 8 usage]

/-- The usage byte of an attribute (R177): ENC_ONLY and DEC_ONLY 0x01, WRAP_ONLY 0x02, DERIVE_ONLY 0x03. -/
def usageByte (a : Nat) : Nat := if a = 2 then 2 else if a = 3 then 3 else 1

/-- `n` chain steps: K[v-1] = SHA-384(K[v] ‖ "down") (R180). -/
def chainDown (k : BitVec 384) : Nat → BitVec 384
  | 0 => k
  | n + 1 => chainDown (Config.sha384 (digestBytes k ++ asciiBytes "down")) n

/-- TEST_ROOT (R173). -/
def testRoot : BitVec 384 := Config.sha384 (asciiBytes "SY9400/TEST_ROOT")

/-- A derivation that hardware makes from the root register without a slot (R179). -/
def kdfRoot (root : BitVec 384) (label : List Byte) (usage : Nat) : BitVec 384 := kdfLd root (Config.sha384 label) usage

/-- K[v] under a root (R179, R180). -/
def chainKey (root : BitVec 384) (v : Nat) : BitVec 384 :=
  chainDown (kdfRoot root (asciiBytes "SY9400/seal-seed") 5) (255 - v)

/-! The slot states and attributes of R183. -/
def slFREE : Nat := 0
def slDEFINED : Nat := 1
def slIN_USE : Nat := 2
def slINVALID : Nat := 3
def slORPHAN : Nat := 4
def slBAD : Nat := 5
def atENC : Nat := 0
def atDEC : Nat := 1
def atWRAP : Nat := 2
def atDERIVE : Nat := 3

/-! KVT block reasons. -/
def kvWRITE_ONCE : Nat := 0x40
def kvREVOKED : Nat := 0x41
def kvNOT_USABLE : Nat := 0x42
def kvDEPTH_LIMIT : Nat := 0x43
def kvRESERVED : Nat := 0x44
def kvSLOT_BAD : Nat := 0x45
def kvCHAIN_RANGE : Nat := 0x46
def kvROOT_UNAVAILABLE : Nat := 0x47
def kvPERSIST_MAC : Nat := 0x48
def kvPERSIST_FULL : Nat := 0x49
def kvMASK_STALL : Nat := 0x4A

/-- A slot no command has defined in this epoch. -/
def Slot.blank : Slot := ⟨0, 0, 0, 0, 0, 0, 0, false, 0, none, 0, 0⟩

/-- The tag of a record: the first 4 bytes of HMAC-SHA-384 under the epoch's tag key over every item but TAG (R195). -/
def slotTag (key : BitVec 384) (i : Nat) (r : Slot) : BitVec 32 :=
  BitVec.ofNat 32 ((Config.hmac384 (digestBytes key)
    (leBytes 2 i ++ leBytes 1 r.state ++ leBytes 2 r.parent ++ digestBytes r.ld ++ leBytes 1 r.keyAttr ++ leBytes 1 r.pgen
      ++ leBytes 1 r.gen ++ leBytes 1 r.depth ++ leBytes 1 (b2n r.chain) ++ leBytes 1 r.svn)).toNat / 2 ^ 352)

namespace State

/-- Slot record `i`. -/
def slot (s : State) (i : Nat) : Slot := Tbl.get Slot.blank s.vault.slots i

/-- Store a record with its tag (R195). -/
def setSlot (s : State) (i : Nat) (r : Slot) : State :=
  { s with vault := { s.vault with slots := Tbl.put Slot.blank s.vault.slots i { r with tag := none } } }

/-- The tag of a record checks (R195): it is the one that was written with it, or equals the tag of the record as it stands. -/
def slotTagOk (s : State) (i : Nat) : Bool :=
  match (s.slot i).tag with
  | none => true
  | some t => t = slotTag s.vault.tagKey i (s.slot i)

/-- A disturbance of record `i`: its stored tag is no longer the tag of the record. -/
def slotDisturb (s : State) (i : Nat) : State :=
  let r := s.slot i
  { s with vault := { s.vault with slots := Tbl.put Slot.blank s.vault.slots i { r with tag := some (~~~ slotTag s.vault.tagKey i r) } } }

/-- BORN_FAIL: both banks are abandoned in a state that generates BORN_ROOT or uses it (R116, R117). -/
def bornFail (s : State) : Bool := s.inService && !s.bornDone && s.otp.bornA.spent && s.otp.bornB.spent

/-- The device root of R172. -/
def deviceRoot (s : State) : BitVec 384 :=
  let fuse := if s.otp.fuseA.holdsRoot then s.otp.fuseA.value else s.otp.fuseB.value
  let born := if s.lc = lcISSUED then List.replicate 48 0
    else digestBytes (if s.otp.bornA.holdsRoot then s.otp.bornA.value else s.otp.bornB.value)
  kdf fuse (asciiBytes "SY9400/device-root") (born ++ [if s.lc = lcISSUED then 2 else 3, 0])

/-- The root source of R174: 0 none, 1 device root, 2 TEST_ROOT, 3 withheld; the first row that applies.  In service a BORN_ROOT that
is not DONE withholds the root, whether both banks failed (R117) or the entropy source did (R254). -/
def rootSource (s : State) : Nat :=
  if s.lc = lcSCRAP then 0
  else if s.lc = lcINVALID || s.flag Reg.AON.TAMPER_LATCH || (s.inService && !s.bornDone) then 3
  else if s.lc = lcWAFER || s.lc = lcCHARACTERISED || s.lc = lcRMA || s.flag Reg.DBG.DBG_STATE_ROOT_TEST then 2
  else 1

/-- The root is withheld (R142, R174). -/
def rootWithheld (s : State) : Bool := s.rootSource = 3

/-- A slot that a root load defines (R164, R175). -/
def rootSlot (a : Nat) (label : List Byte) : Slot :=
  { Slot.blank with state := slDEFINED, parent := 0, ld := Config.sha384 label, keyAttr := a, depth := 1 }

/-- The fresh keys of the epoch, drawn once the CTR_DRBG serves: the slot tag key (R178, R195) and the key that permutes the cache
entries (R193).  Records written before carry tags that check. -/
def epochKeys (s : State) : State :=
  if s.vault.keyed || !s.rngServes then s
  else
    let d := s.draw 96
    { d.1 with vault := { d.1.vault with tagKey := digestOf 384 (d.2.take 48), permKey := digestOf 384 (d.2.drop 48), keyed := true } }

/-- A root load that can be made now (R175): the root register, masked (R176), then slots 0-5, which stay FREE where the source is
withheld or none.  The load of the hand-over defines them for its image even after a load that CLEAR_TAMPER asked for. -/
def rootLoadNow (s : State) : State :=
  let src := s.rootSource
  let s := (s.wr Reg.KVT.STATUS_ROOT_SOURCE src).raise pgKVT 11
  let s := { s with vault := { s.vault with due := false } }
  if src = 0 || src = 3 then s
  else
    let root := if src = 2 then testRoot else s.deviceRoot
    let svn := s.rd Reg.BOOT.IMAGE_INFO_SVN
    let meas := (List.range 12).flatMap (fun i => beBytes 4 (s.rd (Reg.BOOT.MEASUREMENT i)))
    let d := s.draw 48
    let s := { d.1 with vault := { d.1.vault with root := some (Masked.under root (digestOf 384 d.2)), cache := [] } }
    let s := s.setSlot 0 { Slot.blank with state := slDEFINED, keyAttr := atDERIVE, depth := 0 }
    let s := s.setSlot 1 { rootSlot atDERIVE (asciiBytes "SY9400/seal-seed") with chain := true, svn := svn }
    let s := s.setSlot 2 (rootSlot atDERIVE (asciiBytes "SY9400/device-id"))
    let s := s.setSlot 3 (rootSlot atDERIVE (asciiBytes "SY9400/alias" ++ meas ++ [BitVec.ofNat 8 svn]))
    let s := s.setSlot 4 (rootSlot atDERIVE (asciiBytes "SY9400/ledger"))
    let s := s.setSlot 5 (rootSlot atWRAP (asciiBytes "SY9400/blob-kek"))
    s.wr Reg.BOOT.BOOT_STATUS_ROOT_WITHHELD 0

/-- A root load (R175): at once where the vault can derive and mask, else when Brace has ended and the CTR_DRBG serves (R194, R205). -/
def rootLoad (s : State) : State :=
  let s := s.epochKeys
  if s.brace || !s.rngServes then { s with vault := { s.vault with due := true } } else s.rootLoadNow

/-- What waited for the CTR_DRBG or for Brace exit in the vault: the keys of the epoch, and a root load. -/
def vaultGo (s : State) : State :=
  let s := s.epochKeys
  if s.vault.due && !s.brace && s.rngServes then s.rootLoadNow else s

/-- A CLEAR_TAMPER grant releases the root: a root load if none took place in this epoch (R175). -/
def releaseRoot (s : State) : State := if s.vault.root.isSome then s else s.rootLoad

/-- The root that the root register holds. -/
def rootValue (s : State) : BitVec 384 := match s.vault.root with | some m => m.value | none => 0

/-- The cache entry of a slot. -/
def cached (s : State) (i : Nat) : Option CacheEntry := s.vault.cache.find? (fun e => e.slot = i)

/-- The value of a slot (R193): of its cache entry, else computed by R177 and R180 from the nearest ancestor whose value is cached
or in the root register; `fuel` bounds the depth (R188). -/
def slotValue (s : State) : Nat → Nat → BitVec 384
  | 0, _ => 0
  | fuel + 1, i =>
    let r := s.slot i
    match s.cached i with
    | some e => e.val.value
    | none =>
      if i = 0 then s.rootValue
      else if i = 1 then chainKey s.rootValue r.svn
      else
        let p := s.slotValue fuel r.parent
        if r.chain then chainDown p ((s.slot r.parent).svn - r.svn)
        else kdfLd p r.ld (usageByte r.keyAttr)

/-- The value of a slot at any permitted depth. -/
def keyOf (s : State) (i : Nat) : BitVec 384 := s.slotValue 10 i

/-- The slot is FREE. -/
def slotFree (s : State) (i : Nat) : Bool := (s.slot i).state = slFREE

/-- Usable (R184), the tag apart: DEFINED or IN_USE, and PGEN equals the parent's GEN. -/
def slotUsable (s : State) (i : Nat) : Bool :=
  let r := s.slot i
  (r.state = slDEFINED || r.state = slIN_USE) && (i = 0 || r.pgen = (s.slot r.parent).gen)

/-- The descendants of slot `i` among the usable states, level by level down to depth 8 (R190). -/
def descendants (s : State) : Nat → List Nat → List Nat
  | 0, _ => []
  | n + 1, from_ =>
    let kids := (List.range 512).filter (fun j =>
      j ≠ 0 && ((s.slot j).state = slDEFINED || (s.slot j).state = slIN_USE) && from_.contains (s.slot j).parent && !from_.contains j)
    if kids.isEmpty then [] else kids ++ s.descendants n kids

/-- Set the state of a slot and increment its GEN (R190, R196). -/
def slotGone (s : State) (i st : Nat) : State :=
  let r := s.slot i
  s.setSlot i { r with state := st, gen := (r.gen + 1) % 256 }

/-- Purge cache entries (R190). -/
def cachePurge (s : State) (l : List Nat) : State :=
  { s with vault := { s.vault with cache := s.vault.cache.filter (fun e => !l.contains e.slot) } }

/-- Count an operation out of a slot: IN_USE ends with its last user (R191).  A slot of a new epoch has no user of an old one. -/
def slotRelease (s : State) (o : Option Nat) : State :=
  match o with
  | none => s
  | some i =>
    let r := s.slot i
    if r.state = slFREE || r.users = 0 then s
    else s.setSlot i { r with users := r.users - 1, state := if r.state = slIN_USE && r.users ≤ 1 then slDEFINED else r.state }

/-- Count an operation into a slot (R191): the slot is IN_USE. -/
def slotUse (s : State) (o : Option Nat) : State :=
  match o with
  | none => s
  | some i =>
    let r := s.slot i
    if r.state = slDEFINED || r.state = slIN_USE then s.setSlot i { r with state := slIN_USE, users := r.users + 1 } else s

/-- AES engine `e`. -/
def aesOf (s : State) (e : Nat) : AesSt := Tbl.get AesSt.idle s.aes e
def setAes (s : State) (e : Nat) (a : AesSt) : State := { s with aes := Tbl.put AesSt.idle s.aes e a }

/-- Engine `e` is busy (R237): a part, a WRAP or an UNWRAP runs, or an operation is open between its parts; a saved context alone is
not. -/
def aesBusy (s : State) (e : Nat) : Bool := s.flag (Reg.AES.STATUS_BUSY e)

/-- Show a DKR in DKR_STATUS. -/
def showDkr (s : State) (e : Nat) (k : Dkr) : State :=
  ((((s.setAes e { s.aesOf e with dkr := k }).wrb (Reg.AES.DKR_STATUS_LOADED e) k.loaded).wr (Reg.AES.DKR_STATUS_ATTR e) k.keyAttr).wr
    (Reg.AES.DKR_STATUS_SOURCE e) k.kind).wr (Reg.AES.DKR_STATUS_SLOT e) (k.source.getD 0)

/-- The DKR of engine `e` loses its key: zeroed at once where the engine is idle, else when its operation ends (R204). -/
def dkrGone (s : State) (e : Nat) : State :=
  if s.aesBusy e then s.setAes e { s.aesOf e with zeroDkr := true } else s.showDkr e Dkr.empty

/-- The engines mark the operations whose key is withdrawn (R191, R231); a referenced DKR of an idle AES engine is zeroed,
that of a busy one when its operation ends (R204). -/
def revokeOps (s : State) (gone : Nat → Bool) (reason : Nat) : State :=
  let hit (o : Option Nat) : Bool := match o with | some i => gone i | none => false
  let dge (d : DgeSt) : DgeSt := if hit d.keySlot then { d with revoked := some reason } else d
  let aes (a : AesSt) : AesSt := if hit a.keySlot then { a with revoked := some reason } else a
  let pke (p : PkeSt) : PkeSt := if hit p.keySlot then { p with revoked := some reason } else p
  let s : State :=
    { s with dge := [0, 1, 2, 3].foldl (fun t n => Tbl.put DgeSt.idle t n (dge (Tbl.get DgeSt.idle t n))) s.dge,
             aes := [0, 1].foldl (fun t n => Tbl.put AesSt.idle t n (aes (Tbl.get AesSt.idle t n))) s.aes,
             pke := pke s.pke }
  [0, 1].foldl (fun s e => if hit (s.aesOf e).dkr.source then s.dkrGone e else s) s

/-- Slots are withdrawn: `i` with state `st`, its descendants as ORPHAN (R190, R196). -/
def withdraw (s : State) (i st reason : Nat) : State :=
  let ds := s.descendants 8 [i]
  let s := s.slotGone i st
  let s := ds.foldl (fun s j => s.slotGone j slORPHAN) s
  (s.cachePurge (i :: ds)).revokeOps (fun j => j = i || ds.contains j) reason

/-- A tag failure (R196): BAD, event, count, security log. -/
def slotFails (s : State) (i : Nat) : State :=
  ((((s.withdraw i slBAD kvSLOT_BAD).raise pgKVT 9).bump Reg.KVT.BAD_COUNT).secLog .slotBad kvSLOT_BAD 0)

/-- Why a slot cannot be captured, with the state the check leaves (R184, R195, R196); no command may name slot 0 (R187). -/
def captureFault (s : State) (i : Nat) : State × Option Nat :=
  let r := s.slot i
  if i = 0 then (s, some kvRESERVED)
  else if r.state = slFREE || 512 ≤ i then (s, some kvNOT_USABLE)
  else if (r.state = slDEFINED || r.state = slIN_USE) && !s.slotTagOk i then (s.slotFails i, some kvSLOT_BAD)
  else if !(r.state = slDEFINED || r.state = slIN_USE) then (s, some kvNOT_USABLE)
  else if !s.slotUsable i then (s.withdraw i slORPHAN kvREVOKED, some kvNOT_USABLE)
  else (s, none)

/-- The physical entry that the next value takes: the first index, in the order that the permutation key of the epoch gives, that no
entry of the cache holds (R193). -/
def freeEntry (s : State) (old : List CacheEntry) : Nat :=
  (((List.range 64).map (Config.cachePerm s.vault.permKey)).find? (fun x => !(old.any (fun e => e.entry = x)))).getD 0

/-- Put a value in the cache (R193, R194, R216): under a fresh mask, most recent first, in the place of the slot's own entry, else in
a free one, else in that of the least recently used entry that is not pinned. -/
def cachePut (s : State) (i : Nat) (v : BitVec 384) (pin : Bool) : State :=
  let d := s.draw 48
  let s := d.1
  let rest := s.vault.cache.filter (fun e => e.slot ≠ i)
  let keep := if rest.length < 64 then rest
    else match rest.reverse.find? (fun e => !e.pinned) with
      | some w => rest.filter (fun e => e.slot ≠ w.slot)
      | none => rest
  let x := match s.cached i with | some e => e.entry | none => s.freeEntry keep
  { s with vault := { s.vault with cache := ⟨i, x, pin, Masked.under v (digestOf 384 d.2)⟩ :: keep } }

/-- The value of a slot comes to stand in the cache, as the most recently used (R193, R194); one that needed computation counts. -/
def cacheFill (s : State) (i : Nat) : State :=
  match s.cached i with
  | some e => { s with vault := { s.vault with cache := e :: s.vault.cache.filter (fun x => x.slot ≠ i) } }
  | none => (s.bump Reg.KVT.CACHE_MISSES).cachePut i (s.keyOf i) false

/-- Capture a usable slot (R191): the slot is IN_USE, the value goes to the engine. -/
def capture (s : State) (i : Nat) : State × BitVec 384 :=
  let s := s.cacheFill i
  (s.slotUse (some i), s.keyOf i)

/-- Record a vault reason on an engine's page: 0x25 in the page byte (R191, R203). -/
def refuseVault (s : State) (page code off : Nat) : State :=
  (s.wr (Hdr.REASON_CODE page) (pgKVT * 256 + code)).wr (Hdr.REASON_OFFSET page) off

/-- An operation with a withdrawn key ends (R191): 0x2541 or SLOT_BAD on the engine page, the event and its count. -/
def revokedEnd (s : State) (page code off : Nat) : State :=
  ((s.refuseVault page code off).raise pgKVT 10).bump Reg.KVT.REVOKED_IN_USE_COUNT

/-- The vault can supply no mask (R194): a capture waits until the CTR_DRBG supplies one. -/
def maskStalled (s : State) : Bool := !s.rngServes

/-- A capture waits for a mask (R194), and in Brace for a value that the cache does not hold, since no derivation starts then
(R205). -/
def captureWaits (s : State) (i : Nat) : Bool := s.maskStalled || (s.brace && (s.cached i).isNone)

/-- A capture that waits for a mask shows it (R194): MASK_STALL and its event. -/
def maskStall (s : State) : State :=
  if s.maskStalled then (s.wr Reg.KVT.STATUS_MASK_STALL 1).raise pgKVT 13 else s

/-- A child of the slot would lie deeper than 8 (R188). -/
def tooDeep (s : State) (i : Nat) : Bool := decide (8 < (s.slot i).depth + 1)

/-! ### Commands -/

/-- End a vault command with its RESULT (0 on success) and CMD_DONE. -/
def kvtResult (s : State) (sl code : Nat) : State :=
  let s := if code = 0 then s else s.refuse pgKVT code 0x44
  ((((s.wr Reg.KVT.RESULT_SLOT sl).wr Reg.KVT.RESULT_CODE code).wr Reg.KVT.STATUS_BUSY 0).raise pgKVT 8).cmdEnd pgKVT 0x44

/-- Define a slot under a checked parent. -/
def defineSlot (s : State) (t : Nat) (r : Slot) : State :=
  let s := s.setSlot t { r with order := s.vault.nextOrder }
  { s with vault := { s.vault with nextOrder := s.vault.nextOrder + 1 } }

/-- The reason DEFINE or CHAIN is refused before its parent is looked at (R186-R188). -/
def defineFault (s : State) (t p : Nat) : Option Nat :=
  if s.vault.root.isNone then some kvROOT_UNAVAILABLE
  else if t ≤ 5 || p = 0 then some kvRESERVED
  else if 512 ≤ t || 512 ≤ p then some Reason.FIELD_RANGE
  else if !s.slotFree t then some kvWRITE_ONCE
  else none

/-- What the check of a parent leaves, and the reason where it is not usable (R188, R195, R196): SLOT_NOT_USABLE, whatever it lacks. -/
def parentFault (s : State) (p : Nat) : State × Option Nat :=
  let c := s.captureFault p
  (c.1, c.2.map (fun _ => kvNOT_USABLE))

/-- DEFINE with a label digest (R177, R186-R188); the reason, 0 on success. -/
def defineLd (s : State) (t p a : Nat) (ld : BitVec 384) : State × Nat :=
  match s.defineFault t p with
  | some c => (s, c)
  | none =>
    if 3 < a then (s, Reason.FIELD_RANGE)
    else
      let c := s.parentFault p
      match c.2 with
      | some r => (c.1, r)
      | none =>
        let pr := c.1.slot p
        if pr.keyAttr ≠ atDERIVE then (c.1, Reason.KEY_ATTR)
        else if 8 < pr.depth + 1 then (c.1, kvDEPTH_LIMIT)
        else (c.1.defineSlot t { Slot.blank with state := slDEFINED, parent := p, ld := ld, keyAttr := a, pgen := pr.gen, depth := pr.depth + 1 }, 0)

/-- CHAIN by `n` steps (R181); the reason, 0 on success.  The spec gives the slot no label: its LD is 0 (DESIGN CHOICE; log entry 139). -/
def chainTo (s : State) (t p n : Nat) : State × Nat :=
  match s.defineFault t p with
  | some c => (s, c)
  | none =>
    if n = 0 || 255 < n then (s, Reason.FIELD_RANGE)
    else
      let c := s.parentFault p
      match c.2 with
      | some r => (c.1, r)
      | none =>
        let pr := c.1.slot p
        if pr.keyAttr ≠ atDERIVE || !pr.chain then (c.1, Reason.KEY_ATTR)
        else if 8 < pr.depth + 1 then (c.1, kvDEPTH_LIMIT)
        else if pr.svn < n then (c.1, kvCHAIN_RANGE)
        else (c.1.defineSlot t { Slot.blank with state := slDEFINED, parent := p, ld := 0, keyAttr := atDERIVE, pgen := pr.gen, depth := pr.depth + 1, chain := true, svn := pr.svn - n }, 0)

/-- DEFINE, when it starts. -/
def startDefine (addr : Nat) (s : State) : State :=
  let len := s.sramLe (addr + 6) 2
  let t := s.sramLe addr 2
  if s.vault.root.isNone then s.kvtResult t kvROOT_UNAVAILABLE
  else if !inSram addr (8 + len) || len = 0 || 256 < len then s.kvtResult t Reason.FIELD_RANGE
  else
    let r := s.defineLd t (s.sramLe (addr + 2) 2) (s.sramLe (addr + 4) 1) (Config.sha384 (s.sramBytes (addr + 8) len))
    r.1.kvtResult t r.2

/-- CHAIN, when it starts. -/
def startChain (addr : Nat) (s : State) : State :=
  let t := s.sramLe addr 2
  if s.vault.root.isNone then s.kvtResult t kvROOT_UNAVAILABLE
  else if !inSram addr 8 then s.kvtResult t Reason.FIELD_RANGE
  else
    let r := s.chainTo t (s.sramLe (addr + 2) 2) (s.sramLe (addr + 5) 1)
    r.1.kvtResult t r.2

/-- READ_META, when it starts: 16 B per slot, never a value (chapter 06). -/
def metaBytes (s : State) (i : Nat) : List Byte :=
  let r := s.slot i
  leBytes 1 r.state ++ leBytes 1 r.keyAttr ++ leBytes 2 r.parent ++ leBytes 1 r.gen ++ leBytes 1 r.pgen ++ leBytes 1 r.depth
  ++ leBytes 1 (b2n r.chain) ++ leBytes 1 r.svn ++ leBytes 3 0 ++ (digestBytes r.ld).take 4

/-- READ_META, when it starts. -/
def startReadMeta (addr : Nat) (s : State) : State :=
  let f := s.sramLe addr 2
  let n := s.sramLe (addr + 2) 2
  let out := s.sramLe (addr + 8) 4
  if !inSram addr 12 || n = 0 || 512 < f + n || !inSram out (16 * n) then s.kvtResult f Reason.FIELD_RANGE
  else (s.sramStore out ((List.range n).flatMap (fun k => s.metaBytes (f + k)))).kvtResult f 0

/-- SAVE and RESTORE run until KVT_CMD_DONE; SAVE erases the area first (R200), in Brace only at its exit, DEFERRED until then (R205). -/
def startSaveRestore (i : Instr) (s : State) : State :=
  let s := (s.cmdStart pgKVT 0x44 i).wr Reg.KVT.STATUS_BUSY 1
  match i with
  | .save => if s.brace then s.wr Reg.KVT.PERSIST_STATUS_DEFERRED 1 else { s with nvm := { s.nvm with persist := none } }
  | _ => s

/-- Brace exit: a SAVE that was deferred goes on (R205). -/
def saveContinue (s : State) : State :=
  let s := s.wr Reg.KVT.PERSIST_STATUS_DEFERRED 0
  match (s.cmdSlot pgKVT 0x44).running with
  | some .save => { s with nvm := { s.nvm with persist := none } }
  | _ => s

/-- The persistence key (R179). -/
def persistKey (s : State) : BitVec 384 := kdfRoot s.rootValue (asciiBytes "SY9400/vault-persist") 7

/-- The bytes of a persistence record (R200). -/
def persistBytes (r : PersistRec) : List Byte :=
  leBytes 2 r.target ++ leBytes 2 r.parent ++ leBytes 1 r.keyAttr ++ leBytes 1 (b2n r.chain) ++ leBytes 1 r.steps ++ [0]
  ++ digestBytes r.ld ++ List.replicate 8 0

/-- The MAC of the area (R200). -/
def persistMac (s : State) (rs : List PersistRec) : BitVec 384 :=
  Config.hmac384 (digestBytes s.persistKey)
    (asciiBytes "SYKP" ++ leBytes 2 1 ++ leBytes 2 rs.length ++ List.replicate 8 0 ++ rs.flatMap persistBytes)

/-- The records SAVE writes, in order of definition (R200). -/
def persistRecords (s : State) : List PersistRec :=
  let live := (List.range 512).filter (fun i => 5 < i && ((s.slot i).state = slDEFINED || (s.slot i).state = slIN_USE))
  let sorted := sortBy (fun a b => decide ((s.slot a).order ≤ (s.slot b).order)) live
  sorted.map (fun i =>
    let r := s.slot i
    ⟨i, r.parent, r.keyAttr, r.chain, if r.chain then (s.slot r.parent).svn - r.svn else 0, r.ld⟩)

/-- Replay the records in order until one is refused (R201). -/
def replay (s : State) : List PersistRec → State × Nat × Nat
  | [] => (s, 0, 0)
  | r :: rs =>
    let o := if r.chain then s.chainTo r.target r.parent r.steps else s.defineLd r.target r.parent r.keyAttr r.ld
    if o.2 = 0 then replay o.1 rs else (o.1, r.target, o.2)

/-- A running SAVE or RESTORE ends (R200, R201); in Brace a SAVE is deferred, and a RESTORE, which derives
the persistence key, waits (R205). -/
def kvtFinish (s : State) : State :=
  match (s.cmdSlot pgKVT 0x44).running with
  | some .save =>
    if s.brace then s.wr Reg.KVT.PERSIST_STATUS_DEFERRED 1
    else if s.vault.root.isNone then (s.wr Reg.KVT.PERSIST_STATUS_DEFERRED 0).kvtResult 0 kvROOT_UNAVAILABLE
    else
      let rs := s.persistRecords
      let s := { s with nvm := { s.nvm with persist := some ⟨rs, s.persistMac rs⟩ } }
      let s := (s.wr Reg.KVT.PERSIST_STATUS_DEFERRED 0).wr Reg.KVT.PERSIST_STATUS_VALID 1
      (s.wr Reg.KVT.PERSIST_STATUS_RECORDS rs.length).kvtResult 0 0
  | some .restore =>
    if s.brace then s
    else if s.vault.root.isNone then s.kvtResult 0 kvROOT_UNAVAILABLE
    else match s.nvm.persist with
      | none => (s.wr Reg.KVT.PERSIST_STATUS_VALID 0).kvtResult 0 kvPERSIST_MAC
      | some p =>
        if p.mac ≠ s.persistMac p.records then (s.wr Reg.KVT.PERSIST_STATUS_VALID 0).kvtResult 0 kvPERSIST_MAC
        else
          let s := (s.wr Reg.KVT.PERSIST_STATUS_VALID 1).wr Reg.KVT.PERSIST_STATUS_RECORDS p.records.length
          let r := s.replay p.records
          r.1.kvtResult r.2.1 r.2.2
  | _ => s

/-- A masked value under a fresh mask. -/
def remask (s : State) (m : Masked) : State × Masked :=
  let d := s.draw 48
  (d.1, Masked.under m.value (digestOf 384 d.2))

/-- The root register and each cache entry receive a fresh mask; the values are unchanged (R176, R193).  The CTR_DRBG gives none before
it is instantiated nor while FAILED (R251, R253). -/
def refreshMasks (s : State) : State :=
  if !s.rngServes then s
  else
    let step (st : State × List CacheEntry) (e : CacheEntry) : State × List CacheEntry :=
      let m := st.1.remask e.val
      (m.1, st.2 ++ [{ e with val := m.2 }])
    let r := s.vault.cache.foldl step (s, [])
    let s := { r.1 with vault := { r.1.vault with cache := r.2 } }
    match s.vault.root with
    | some m => let x := s.remask m; { x.1 with vault := { x.1.vault with root := some x.2 } }
    | none => s

/-- The vault's epoch ends and a new one begins (R185): slots FREE, root, cache and tag key cleared, fresh keys drawn as soon as the
CTR_DRBG serves. -/
def vaultEpoch (s : State) : State :=
  let s := { s with vault := VaultSt.empty }
  (((s.wr Reg.KVT.EPOCH (s.rd Reg.KVT.EPOCH + 1)).wr Reg.KVT.STATUS_ROOT_SOURCE 0).wr Reg.KVT.STATUS_TAMPER_SEEN 0).epochKeys

end State

/-- DEFINE (R177): KVT CMD with OP 1. -/
def execDefine (addr : Nat) (s : State) : Host.Outcome State Fault Refusal :=
  .next (s.issue pgKVT 0x44 (.define addr) (State.startDefine addr))

/-- CHAIN (R181): OP 2. -/
def execChain (addr : Nat) (s : State) : Host.Outcome State Fault Refusal :=
  .next (s.issue pgKVT 0x44 (.chain addr) (State.startChain addr))

/-- SAVE (R200): OP 4. -/
def execSave (s : State) : Host.Outcome State Fault Refusal :=
  .next (s.issue pgKVT 0x44 .save (State.startSaveRestore .save))

/-- RESTORE (R201): OP 5. -/
def execRestore (s : State) : Host.Outcome State Fault Refusal :=
  .next (s.issue pgKVT 0x44 .restore (State.startSaveRestore .restore))

/-- READ_META (R183): OP 6. -/
def execReadMeta (addr : Nat) (s : State) : Host.Outcome State Fault Refusal :=
  .next (s.issue pgKVT 0x44 (.readMeta addr) (State.startReadMeta addr))

/-- KVT_CMD_DONE (R200, R201). -/
def execKvtCmdDone (s : State) : Host.Outcome State Fault Refusal := .next s.kvtFinish

/-- MASK_REFRESH (R193). -/
def execMaskRefresh (s : State) : Host.Outcome State Fault Refusal :=
  .next (if s.up then s.refreshMasks else s)

end Sys2Proof.Machine
end

