-- ==== Sys2Proof/Machine/Digest.lean ====
section
/-! DEFINITION. Digest engines and snoop units (chapter 07): descriptors, capture, results, compares, LEAVES, the lanes. -/

namespace Sys2Proof.Machine

/-! DGE block reasons. -/
def dgCONTEXT_LOST : Nat := 0x40
def dgADDRESS_RANGE : Nat := 0x41
def dgSEQUENCE : Nat := 0x42
def dgPIN_FULL : Nat := 0x43
def dgABORTED : Nat := 0x44
def dgSNP_BOUND : Nat := 0x45
def dgDEST_KEY : Nat := 0x46

/-- The success and failure pairs of R218. -/
def matchOK : Nat := 0xA5C3
def matchNOK : Nat := 0x5A3C

/-- The digest of a message by algorithm code (R207): 0 SHA-256, 1 SHA-384, 2 SHA-512. -/
def shaBytes (alg : Nat) (m : List Byte) : List Byte :=
  if alg = 0 then digestBytes (Config.sha256 m) else if alg = 1 then digestBytes (Config.sha384 m) else digestBytes (Config.sha512 m)

/-- HMAC by algorithm code (R207, R211). -/
def hmacBytes (alg : Nat) (k m : List Byte) : List Byte :=
  if alg = 0 then digestBytes (Config.hmac256 k m) else if alg = 1 then digestBytes (Config.hmac384 k m) else digestBytes (Config.hmac512 k m)

/-- Digest length in bytes. -/
def shaLen (alg : Nat) : Nat := if alg = 0 then 32 else if alg = 1 then 48 else 64

namespace State

/-- A range of main or retention SRAM (R210). -/
def inRam (a n : Nat) : Bool := inSram a n || (decide (retBase ≤ a) && decide (a + n ≤ retBase + retSize))

/-- Bytes of main or retention SRAM. -/
def ramBytes (s : State) (a n : Nat) : List Byte := if a < retBase then s.sramBytes a n else s.retBytes a n

/-- The descriptor at an address (chapter 07). -/
def dgeDescAt (s : State) (a : Nat) : DgeDesc :=
  let fl := s.sramLe (a + 2) 1
  ⟨s.sramLe a 1, s.sramLe (a + 1) 1 = 1, bit fl 0, bit fl 1, bit fl 2, bits fl 4 3, s.sramLe (a + 3) 1, s.sramLe (a + 4) 1,
   s.sramLe (a + 5) 1, s.sramLe (a + 6) 2, s.sramLe (a + 8) 2, s.sramLe (a + 0x10) 4, s.sramLe (a + 0x14) 4, s.sramLe (a + 0x18) 4,
   digestOf 384 (s.sramBytes (a + 0x20) 48)⟩

/-- The descriptor's reserved fields and encodings. -/
def dgeDescOk (s : State) (a : Nat) : Bool :=
  inSram a 80 && decide (s.sramLe a 1 < 3) && decide (s.sramLe (a + 1) 1 < 2) && decide (s.sramLe (a + 2) 1 < 32)
  && decide (bits (s.sramLe (a + 2) 1) 4 3 < 3) && decide (s.sramLe (a + 4) 1 < 4) && allZero (s.sramBytes (a + 0x0A) 6)
  && allZero (s.sramBytes (a + 0x1C) 4)

/-- The engine's DIGEST, MATCH and MATCH_N read 0 (R214, R218). -/
def dgeClearResults (s : State) (n : Nat) : State :=
  let s := (List.range 16).foldl (fun s i => s.wr (Reg.DGE.DIGEST n i) 0) s
  (s.wr (Reg.DGE.MATCH n) 0).wr (Reg.DGE.MATCH_N n) 0

/-- Record a refusal of a DGE command; nothing else changes. -/
def dgeRefuse (s : State) (n code : Nat) : State := (s.refuse (pgDGE n) code 0x44).cmdEnd (pgDGE n) 0x44

/-- What the key's attribute permits (R189, R212); a compare is asked of the part that ends the operation. -/
def dgeUseOk (a : Option Nat) (d : DgeDesc) : Bool :=
  match a with
  | none => d.dest ≠ 1
  | some k =>
    if k = atENC then d.dest = 0
    else if k = atDEC then d.dest = 2 && (d.compare || !d.last)
    else if k = atDERIVE then d.dest = 1 && !d.compare
    else false

/-- Cache entries that are pinned, and those that operations in progress will pin (R216). -/
def pinnedCount (s : State) : Nat :=
  (s.vault.cache.filter (fun e => e.pinned)).length
  + ([0, 1, 2, 3].filter (fun n => match (s.dgeOf n).run with | some d => d.dest = 1 | none => false)).length
  + (match s.pke.run with | some (op, d) => if op = 4 && fieldLe d 2 1 = 1 then 1 else 0 | none => 0)

/-- Capture the key of a first part (R211): value, attribute and slot; or the reason that refuses it and whether it is the
vault's. -/
def dgeKey (s : State) (d : DgeDesc) : State × Except (Bool × Nat) (List Byte × Option Nat × Option Nat) :=
  if !d.hmac then (s, .ok ([], none, none))
  else if d.keySource = 1 then
    let c := s.captureFault d.keySlot
    match c.2 with
    | some r => (c.1, .error (true, r))
    | none =>
      let a := (c.1.slot d.keySlot).keyAttr
      (c.1, .ok ([], some a, some d.keySlot))
  else
    let k := (Tbl.get AesSt.idle s.aes (d.keySource - 2)).dkr
    if !k.loaded then (s, .error (false, Reason.KEY_ATTR))
    else (s, .ok (k.key, some k.keyAttr, k.source))

/-- The length of a message that an algorithm does not reach (R210). -/
def msgLimit (alg : Nat) : Nat := if alg = 0 then 2 ^ 61 else 2 ^ 64

/-- The first reason to refuse a part that rests on its descriptor and the open operation alone (R209, R210). -/
def dgeDescFault (s : State) (n : Nat) (a : Nat) : Option Nat :=
  let d := s.dgeDescAt a
  let e := if d.first then DgeSt.idle else s.dgeOf n
  let alg := if d.first then d.alg else e.alg
  let isOpen := s.flag (Reg.DGE.STATUS_OPEN n)
  if !s.dgeDescOk a then some Reason.FIELD_RANGE
  else if d.source ≠ 0 || (d.hmac && d.keySource = 0) || (!d.hmac && d.keySource ≠ 0) then some Reason.FIELD_RANGE
  else if d.first == isOpen then some dgSEQUENCE
  else if d.len = 0 || 0x400000 < d.len || msgLimit alg ≤ e.msg.length + d.len then some Reason.FIELD_RANGE
  else if !inRam d.src d.len || (d.compare && !inRam d.ref (shaLen alg)) then some dgADDRESS_RANGE
  else none

/-- Why a part whose key permits a vault result may not have it (R186, R187, R188, R215, R216), and whether the reason is the vault's:
`a` is its algorithm, `k` its key source, `p` its key slot. -/
def destFault (s : State) (d : DgeDesc) (a k p : Nat) : Option (Bool × Nat) :=
  if d.dest ≠ 1 then none
  else if a ≠ 1 || k ≠ 1 then some (false, dgDEST_KEY)
  else if 512 ≤ d.target || 3 < d.targetAttr then some (false, Reason.FIELD_RANGE)
  else if d.target ≤ 5 then some (true, kvRESERVED)
  else if !s.slotFree d.target then some (true, kvWRITE_ONCE)
  else if 16 ≤ s.pinnedCount then some (false, dgPIN_FULL)
  else if s.tooDeep p then some (true, kvDEPTH_LIMIT)
  else none

/-- Begin a part that has passed every check: results cleared; at FIRST the count is reset and the key captured (R191, R209, R211).
The operation is open unless one part is the whole of it. -/
def dgeBegin (s : State) (n : Nat) (i : Instr) (d : DgeDesc) (k : List Byte) (a sl : Option Nat) : State :=
  let e := s.dgeOf n
  let e := if d.first then { DgeSt.idle with alg := d.alg, hmac := d.hmac, key := k, keyFrom := d.keySource, keyAttr := a, keySlot := sl } else e
  let s := if d.first then ((s.slotUse sl).wr (Reg.DGE.BYTE_COUNT_LO n) 0).wr (Reg.DGE.BYTE_COUNT_HI n) 0 else s
  let e := { e with msg := e.msg ++ s.ramBytes d.src d.len, run := some d }
  let s := (s.setDge n e).dgeClearResults n
  let s := (s.wr (Reg.DGE.STATUS_BUSY n) 1).wr (Reg.DGE.STATUS_DONE n) 0
  let s := if d.first then s.wrb (Reg.DGE.STATUS_OPEN n) (!d.last) else s
  s.cmdStart (pgDGE n) 0x44 i

/-- Record a refusal of a DGE command with a reason of its page or of the vault. -/
def dgeRefuseWith (s : State) (n : Nat) (r : Bool × Nat) : State :=
  if r.1 then (s.refuseVault (pgDGE n) r.2 0x44).cmdEnd (pgDGE n) 0x44 else s.dgeRefuse n r.2

/-- RUN, when it starts (R209-R216); it waits while a sequencer holds the engine (R362), and for the vault where that waits (R194,
R205). -/
def startDgeRun (n : Fin 4) (addr : Nat) (s : State) : State :=
  let wait (s : State) : State := s.setCmdSlot (pgDGE n) 0x44 { s.cmdSlot (pgDGE n) 0x44 with queued := some (.dgeRun n addr) }
  if (s.dgeOf n).owner.isSome then wait s
  else match s.dgeDescFault n addr with
  | some c => s.dgeRefuse n c
  | none =>
    let d := s.dgeDescAt addr
    let e := s.dgeOf n
    if !d.first then
      if !dgeUseOk e.keyAttr d then s.dgeRefuse n Reason.KEY_ATTR
      else match s.destFault d e.alg e.keyFrom (e.keySlot.getD 0) with
        | some r => s.dgeRefuseWith n r
        | none => s.dgeBegin n (.dgeRun n addr) d [] none none
    else
      let r := s.dgeKey d
      match r.2 with
      | .error c => r.1.dgeRefuseWith n c
      | .ok (k, a, sl) =>
        if !dgeUseOk a d then r.1.dgeRefuse n Reason.KEY_ATTR
        else match r.1.destFault d d.alg d.keySource (sl.getD 0) with
          | some c => r.1.dgeRefuseWith n c
          | none =>
            if d.keySource ≠ 1 then r.1.dgeBegin n (.dgeRun n addr) d k a sl
            else if r.1.captureWaits d.keySlot then wait r.1.maskStall
            else
              let s := r.1.cacheFill d.keySlot
              s.dgeBegin n (.dgeRun n addr) d (digestBytes (s.keyOf d.keySlot)) a sl

/-- Write a verdict pair (R218); a failed compare raises MISMATCH (R220). -/
def dgeVerdict (s : State) (n : Nat) (good : Bool) : State :=
  let s := (s.wr (Reg.DGE.MATCH n) (if good then matchOK else matchNOK)).wr (Reg.DGE.MATCH_N n) (if good then matchNOK else matchOK)
  if good then s else s.raise (pgDGE n) 9

/-- Show a digest in DIGEST[0-15] (R214, R556). -/
def dgeShow (s : State) (n : Nat) (d : List Byte) : State :=
  (List.range 16).foldl (fun s i => s.wr (Reg.DGE.DIGEST n i) (beNat ((d.drop (4 * i)).take 4))) s

/-- Firmware's operation is gone from the engine: key released (R191), no context; a sequencer that holds the engine keeps it. -/
def dgeIdle (s : State) (n : Nat) : State :=
  let s := s.slotRelease (s.dgeOf n).keySlot
  let o := (s.dgeOf n).owner
  let s := s.setDge n { DgeSt.idle with owner := o }
  (((s.wrb (Reg.DGE.STATUS_BUSY n) o.isSome).wr (Reg.DGE.STATUS_OPEN n) 0).wr (Reg.DGE.STATUS_SAVED n) 0).cmdEnd (pgDGE n) 0x44

/-- The vault takes the result of an HMAC (R215): the slot is defined under its key slot, the value goes into a pinned entry. -/
def vaultResult (s : State) (t p a : Nat) (label v : BitVec 384) : State :=
  let pr := s.slot p
  (s.defineSlot t { Slot.blank with state := slDEFINED, parent := p, ld := label, keyAttr := a, pgen := pr.gen, depth := pr.depth + 1 }).cachePut t v true

/-- A part ends (R209); the one with LAST ends the operation with its result (R214, R215, R218), one with a withdrawn key by R191. -/
def dgeFinish (s : State) (n : Nat) : State :=
  let e := s.dgeOf n
  match e.run with
  | none => s
  | some d =>
    let s := (s.wr (Reg.DGE.BYTE_COUNT_LO n) e.msg.length).wr (Reg.DGE.BYTE_COUNT_HI n) (e.msg.length / 2 ^ 32)
    if !d.last then ((s.setDge n { e with run := none }).wr (Reg.DGE.STATUS_BUSY n) 0).cmdEnd (pgDGE n) 0x44
    else match e.revoked with
    | some r => (((s.dgeClearResults n).dgeIdle n).revokedEnd (pgDGE n) r 0x44).wr (Reg.DGE.STATUS_DONE n) 1
    | none =>
      let r := if e.hmac then hmacBytes e.alg e.key e.msg else shaBytes e.alg e.msg
      let s := if d.dest = 0 then s.dgeShow n r else s
      let s := if d.dest = 1 then
          if s.slotFree d.target then s.vaultResult d.target (e.keySlot.getD 0) d.targetAttr d.label (digestOf 384 r)
          else s.refuseVault (pgDGE n) kvWRITE_ONCE 0x44
        else s
      let s := if d.compare then s.dgeVerdict n (r = s.ramBytes d.ref (shaLen e.alg)) else s
      ((s.dgeIdle n).wr (Reg.DGE.STATUS_DONE n) 1).raise (pgDGE n) 8

/-- What a pair of fields says to the logic that acts on it (R218, R219): success only on the success pair. -/
def pairGood (m mn : Nat) : Bool := m = matchOK && mn = matchNOK

/-- The pair is one of the two verdicts, or the pair of an operation without one. -/
def pairKnown (m mn : Nat) : Bool := pairGood m mn || (m = matchNOK && mn = matchOK) || (m = 0 && mn = 0)

/-- A pair is judged (R219): any other raises COMPARE_FAULT on page `p` and writes a security-log entry. -/
def judgePair (s : State) (p m mn : Nat) : State :=
  if pairKnown m mn then s else (s.raise p 10).secLog .compareFault 0 0

/-- A sequencer of the device begins an operation on its engine; it shows on the page as firmware's do, unless an operation of firmware
is saved there. -/
def seqBegin (o : Option Nat) (leaves : Bool) (s : State) : State :=
  match o with
  | some n =>
    if s.flag (Reg.DGE.STATUS_SAVED n) then s
    else
      let s := s.dgeClearResults n
      let s := if leaves then (s.wr (Reg.DGE.LEAF_BLOCKS n) 0).wr (Reg.DGE.LEAF_FIRST_FAIL n) 0xFFFFFFFF else s
      (s.wr (Reg.DGE.STATUS_BUSY n) 1).wr (Reg.DGE.STATUS_DONE n) 0
  | none => s

/-- The operation of a sequencer ends with its verdict (R218, R222). -/
def seqVerdict (o : Option Nat) (good : Bool) (s : State) : State :=
  match o with
  | some n =>
    if s.flag (Reg.DGE.STATUS_SAVED n) then s
    else (((s.dgeVerdict n good).wr (Reg.DGE.STATUS_BUSY n) 0).wr (Reg.DGE.STATUS_DONE n) 1).raise (pgDGE n) 8
  | none => s

/-- The counters of a sequencer's LEAVES operation (R222): blocks with a final verdict, and the index `f` of one that failed, else
0xFFFFFFFF. -/
def seqLeaf (o : Option Nat) (blocks f : Nat) (s : State) : State :=
  match o with
  | some n =>
    if s.flag (Reg.DGE.STATUS_SAVED n) then s
    else (s.wr (Reg.DGE.LEAF_BLOCKS n) blocks).wr (Reg.DGE.LEAF_FIRST_FAIL n) (min f (s.rd (Reg.DGE.LEAF_FIRST_FAIL n)))
  | none => s

/-- A LEAVES descriptor, when it starts (R221-R223); it waits while a sequencer holds the engine. -/
def startLeaves (n : Fin 4) (addr : Nat) (s : State) : State :=
  let d := s.dgeDescAt addr
  let u := d.source - 0x10
  if (s.dgeOf n).owner.isSome then s.setCmdSlot (pgDGE n) 0x44 { s.cmdSlot (pgDGE n) 0x44 with queued := some (.leaves n addr) }
  else if !inSram addr 80 || d.source < 0x10 || 0x15 < d.source || 1 < d.alg || d.len = 0 || d.len % shaLen d.alg ≠ 0 then s.dgeRefuse n Reason.FIELD_RANGE
  else if s.flag (Reg.DGE.STATUS_OPEN n) then s.dgeRefuse n dgSEQUENCE
  else if !inSram d.src d.len then s.dgeRefuse n dgADDRESS_RANGE
  else if (s.snpOf u).laneI = 1 || s.leavesOn u then s.dgeRefuse n dgSNP_BOUND
  else
    let s := s.setSnp u { s.snpOf u with tries := [], reread := [] }
    let s := s.setDge n { DgeSt.idle with leaves := some ⟨u, d.alg, d.src, d.len / shaLen d.alg, []⟩ }
    let s := (s.dgeClearResults n).wr (Reg.DGE.LEAF_BLOCKS n) 0
    let s := (s.wr (Reg.DGE.LEAF_FIRST_FAIL n) 0xFFFFFFFF).wr (Reg.DGE.STATUS_BUSY n) 1
    (s.wr (Reg.DGE.STATUS_DONE n) 0).cmdStart (pgDGE n) 0x44 (.leaves n addr)

/-- The leaf of a block in the bound table. -/
def leafOf (s : State) (l : LeavesOp) (i : Nat) : List Byte := s.sramBytes (l.table + shaLen l.alg * i) (shaLen l.alg)

/-- A final verdict of a block under LEAVES (R222); with the last one the operation ends with the window verdict. -/
def leafFinal (s : State) (n : Nat) (l : LeavesOp) (i : Nat) (good : Bool) : State :=
  let fin := if l.final.contains i then l.final else i :: l.final
  let s := s.wr (Reg.DGE.LEAF_BLOCKS n) fin.length
  let s := if good then s else s.wr (Reg.DGE.LEAF_FIRST_FAIL n) (min i (s.rd (Reg.DGE.LEAF_FIRST_FAIL n)))
  let s := s.setDge n { s.dgeOf n with leaves := some { l with final := fin } }
  if fin.length < l.count then s
  else
    let s := s.dgeVerdict n (s.rd (Reg.DGE.LEAF_FIRST_FAIL n) = 0xFFFFFFFF)
    ((s.dgeIdle n).wr (Reg.DGE.STATUS_DONE n) 1).raise (pgDGE n) 8

/-- ABORT (R72): the running or open operation ends with its results zeroed; the queued command is discarded. -/
def abortDge (n : Nat) (s : State) : State :=
  let e := s.dgeOf n
  if e.run.isSome || e.leaves.isSome || s.flag (Reg.DGE.STATUS_OPEN n) then
    let s := ((s.dgeClearResults n).dgeIdle n).refuse (pgDGE n) dgABORTED 0x44
    (s.wr (Reg.DGE.STATUS_DONE n) 1).cmdDrop (pgDGE n) 0x44
  else s.cmdDrop (pgDGE n) 0x44

/-- ROM clears every DGE context at hand-over (R164). -/
def clearDge (s : State) : State := { s with dge := [] }

/-! ### Lane H (R227-R229) -/

/-- Lane H of unit `u` is armed. -/
def armed (s : State) (u : Nat) : Bool := s.flag (Reg.SNP.STAGE_STATUS_ARMED u)

/-- Arm lane H with a leaf table (R227): counters cleared, the window latched from the applied page. -/
def armLaneH (s : State) (u table : Nat) : State :=
  let s := s.setSnp u { s.snpOf u with
    base := s.cfg (Reg.SNP.STAGE_BASE u) * 4096, size := s.cfg (Reg.SNP.STAGE_SIZE u) * 4096, alg := s.cfg (Reg.SNP.MODE_STAGE_ALG u),
    block := if s.cfgb (Reg.SNP.MODE_STAGE_BLOCK u) then 4096 else 1024, leafTable := table, cur := none, counted := [],
    waiting := [], unseen := [] }
  let s := ((s.wr (Reg.SNP.STAGE_OK u) 0).wr (Reg.SNP.STAGE_FAIL u) 0).wr (Reg.SNP.STAGE_UNSEEN u) 0
  let s := (s.wr (Reg.SNP.STAGE_FIRST_FAIL u) 0xFFFFFFFF).wr (Reg.SNP.STAGE_MATCH u) matchNOK
  let s := (s.wr (Reg.SNP.STAGE_MATCH_N u) matchOK).wr (Reg.SNP.STAGE_STATUS_DISARM_CAUSE u) 0
  s.wr (Reg.SNP.STAGE_STATUS_ARMED u) 1

/-- Disarm lane H (R229): cause, frozen counters, the failure pair. -/
def disarmLaneH (s : State) (u cause : Nat) : State :=
  if s.armed u then
    let s := (s.wr (Reg.SNP.STAGE_STATUS_ARMED u) 0).wr (Reg.SNP.STAGE_STATUS_DISARM_CAUSE u) cause
    let s := (s.wr (Reg.SNP.STAGE_MATCH u) matchNOK).wr (Reg.SNP.STAGE_MATCH_N u) matchOK
    ((s.setSnp u { s.snpOf u with cur := none, waiting := [] }).wr (Reg.SNP.LANE_STATUS_H_BUSY u) 0).raise pgSNP 9
  else s

/-- A staging block is left to the read-back sweep (R228): it is counted once. -/
def stageUnseen (s : State) (u blk : Nat) : State :=
  let p := s.snpOf u
  if p.unseen.contains blk then s
  else
    let s := s.setSnp u { p with counted := if p.counted.contains blk then p.counted else blk :: p.counted, unseen := blk :: p.unseen }
    (s.bump (Reg.SNP.STAGE_UNSEEN u)).raise pgSNP 10

/-- The comparator judges a staging block by its digest (R227). -/
def stageCompare (s : State) (u blk : Nat) (digest : List Byte) : State :=
  let p := s.snpOf u
  if digest = s.sramBytes (p.leafTable + shaLen p.alg * blk) (shaLen p.alg) then s.bump (Reg.SNP.STAGE_OK u)
  else
    let s := (s.bump (Reg.SNP.STAGE_FAIL u)).raise pgSNP 8
    s.wr (Reg.SNP.STAGE_FIRST_FAIL u) (min blk (s.rd (Reg.SNP.STAGE_FIRST_FAIL u)))

/-- A staging block is whole: its digest goes to the comparator (R227).  In Brace digests wait there, and a block that would overflow
a full queue is unseen (R232). -/
def stageVerdict (s : State) (u blk : Nat) (data : List Byte) : State :=
  let p := s.snpOf u
  let s := s.setSnp u { p with cur := none, counted := blk :: p.counted }
  if !s.flag Reg.PWR.STATUS_BRACE then s.stageCompare u blk (shaBytes p.alg data)
  else if p.waiting.length < Config.comparatorQueue then
    s.setSnp u { s.snpOf u with waiting := p.waiting ++ [(blk, shaBytes p.alg data)] }
  else s.stageUnseen u blk

/-- Brace exit: the comparators judge what waits. -/
def stageResume (s : State) : State :=
  (List.range 6).foldl (fun s u =>
    let q := (s.snpOf u).waiting
    q.foldl (fun s x => s.stageCompare u x.1 x.2) (s.setSnp u { s.snpOf u with waiting := [] })) s

/-- One byte of program data at a policy address (R227, R228). -/
def stageByte (s : State) (u a : Nat) (b : Byte) : State :=
  let p := s.snpOf u
  if !s.armed u || a < p.base || p.base + p.size ≤ a || p.block = 0 then s
  else
    let blk := (a - p.base) / p.block
    let off := (a - p.base) % p.block
    if p.counted.contains blk then
      match p.cur with
      | some (k, _) => if k = blk then s.setSnp u { p with cur := none } else s
      | none => s
    else match p.cur with
      | some (k, d) =>
        if k = blk then
          if off = d.length then
            (if d.length + 1 = p.block then s.stageVerdict u blk (d ++ [b]) else s.setSnp u { p with cur := some (k, d ++ [b]) })
          else (s.setSnp u { p with cur := none }).stageUnseen u blk
        else
          let s := (s.setSnp u { p with cur := none }).stageUnseen u k
          if off = 0 then s.setSnp u { s.snpOf u with cur := some (blk, [b]) } else s.stageUnseen u blk
      | none => if off = 0 then s.setSnp u { p with cur := some (blk, [b]) } else s.stageUnseen u blk

/-- Program data enters lane H byte by byte. -/
def stageData (s : State) (u a : Nat) : List Byte → State
  | [] => s
  | b :: bs => stageData (s.stageByte u a b) u (a + 1) bs

/-- Lane H shows whether it hashes a block. -/
def showLaneH (s : State) (u : Nat) : State := s.wrb (Reg.SNP.LANE_STATUS_H_BUSY u) (s.snpOf u).cur.isSome

/-- A staging erase: a block whose data is erased after its first byte was taken is unseen, also one that was already compared (R228);
one that waits for the comparator is not compared. -/
def stageErase (s : State) (u a n : Nat) : State :=
  let p := s.snpOf u
  let hit (k : Nat) : Bool := decide (a < p.base + k * p.block + p.block) && decide (p.base + k * p.block < a + n)
  if !s.armed u then s
  else
    let started := match p.cur with | some (k, _) => if hit k then [k] else [] | none => []
    let s := if started.isEmpty then s else s.setSnp u { p with cur := none }
    let s := s.setSnp u { s.snpOf u with waiting := (s.snpOf u).waiting.filter (fun x => !hit x.1) }
    ((p.counted.filter hit) ++ started).foldl (fun s k => s.stageUnseen u k) s

/-- STAGE_CMD.ARM, when it starts. -/
def startSnpArm (u : Fin 6) (addr : Nat) (s : State) : State :=
  if inSram addr 1 then s.armLaneH u addr else s.refuse pgSNP Reason.FIELD_RANGE (0x4C + 0x40 * u)

/-- STAGE_CMD.DISARM, when it starts: an unarmed lane refuses it (NOT_ARMED). -/
def startSnpDisarm (u : Fin 6) (s : State) : State :=
  if s.armed u then s.disarmLaneH u 1 else s.refuse pgSNP 0x40 (0x4C + 0x40 * u)

end State

/-- DGE_RUN (R209): DGEn.CMD with OP 1. -/
def execDgeRun (n : Fin 4) (addr : Nat) (s : State) : Host.Outcome State Fault Refusal :=
  .next (s.issue (pgDGE n) 0x44 (.dgeRun n addr) (State.startDgeRun n addr))

/-- LEAVES (R221): OP 2. -/
def execLeaves (n : Fin 4) (addr : Nat) (s : State) : Host.Outcome State Fault Refusal :=
  .next (s.issue (pgDGE n) 0x44 (.leaves n addr) (State.startLeaves n addr))

/-- SNP_ARM (R227). -/
def execSnpArm (u : Fin 6) (addr : Nat) (s : State) : Host.Outcome State Fault Refusal :=
  .next (s.issue pgSNP (0x4C + 0x40 * u.val) (.snpArm u addr) (State.startSnpArm u addr))

/-- SNP_DISARM (R229). -/
def execSnpDisarm (u : Fin 6) (s : State) : Host.Outcome State Fault Refusal :=
  .next (s.issue pgSNP (0x4C + 0x40 * u.val) (.snpDisarm u) (State.startSnpDisarm u))

end Sys2Proof.Machine
end

