-- ==== Sys2Proof/Machine/Macsec.lean ====
section
/-! DEFINITION. SAK registers and security associations (R380-R384): loads, ENABLE, DISABLE, CLEAR, withdrawal. -/

namespace Sys2Proof.Machine

/-! MSEC block reasons. -/
def msSAK_IN_USE : Nat := 0x40
def msSA_EMPTY : Nat := 0x41
def msPN_EXHAUSTED : Nat := 0x42

/-- Lane, direction (0 transmit, 1 receive) and AN of SAK register x = 8l + 4d + a (R381); its SC is 2l + d. -/
def saLane (x : Nat) : Nat := x / 8
def saDir (x : Nat) : Nat := x / 4 % 2
def saSc (x : Nat) : Nat := x / 4

namespace State

/-- SAK register `x`. -/
def sa (s : State) (x : Nat) : Sa := Tbl.get Sa.empty s.sas x

/-- The LOADED and ENABLED bits of SAK register `x` in SA_STATUS. -/
def saLoadedFld (x : Nat) : Fld :=
  if x % 4 = 0 then Reg.MSEC.SA_STATUS_LOADED0 (saSc x) else if x % 4 = 1 then Reg.MSEC.SA_STATUS_LOADED1 (saSc x)
  else if x % 4 = 2 then Reg.MSEC.SA_STATUS_LOADED2 (saSc x) else Reg.MSEC.SA_STATUS_LOADED3 (saSc x)
def saEnabledFld (x : Nat) : Fld :=
  if x % 4 = 0 then Reg.MSEC.SA_STATUS_ENABLED0 (saSc x) else if x % 4 = 1 then Reg.MSEC.SA_STATUS_ENABLED1 (saSc x)
  else if x % 4 = 2 then Reg.MSEC.SA_STATUS_ENABLED2 (saSc x) else Reg.MSEC.SA_STATUS_ENABLED3 (saSc x)

/-- Store a SAK register and show it. -/
def setSa (s : State) (x : Nat) (a : Sa) : State :=
  let s := { s with sas := Tbl.put Sa.empty s.sas x a }
  (s.wrb (saLoadedFld x) a.loaded).wrb (saEnabledFld x) a.enabled

/-- Why a load is refused (R381, R382): an enabled SA, or a key whose permission does not fit the direction. -/
def saLoadFault (s : State) (x a : Nat) : Option Nat :=
  if (s.sa x).enabled then some msSAK_IN_USE
  else if (saDir x = 0 && a ≠ atENC) || (saDir x = 1 && a ≠ atDEC) then some Reason.KEY_ATTR
  else none

/-- Put a key with its permission into SAK register `x`; a key from a slot records the slot and its GEN (R202, R381). -/
def setSakKey (s : State) (x : Nat) (key : List Byte) (a : Nat) (src : Option Nat) : State :=
  s.setSa x { Sa.empty with
    loaded := true, key := key, keyAttr := a, source := src, gen := (match src with | some i => (s.slot i).gen | none => 0) }

/-- Record a refusal of SA_CMD. -/
def saRefuse (s : State) (code : Nat) : State := s.refuse pgMSEC code 0x140

/-- KEY[0-7] of MSEC as a key. -/
def msecKey (s : State) : List Byte := (List.range 8).flatMap (fun i => beBytes 4 (s.rd (Reg.MSEC.KEY i)))

/-- KEY[0-7] of MSEC read 0 (R236). -/
def clearMsecKey (s : State) : State := (List.range 8).foldl (fun s i => s.wr (Reg.MSEC.KEY i) 0) s

/-- LOAD_REF, when it starts (R381, R382, R202). -/
def startSaLoadRef (x a sl : Nat) (s : State) : State :=
  if 16 ≤ x then s.saRefuse Reason.FIELD_RANGE
  else if (s.sa x).enabled then s.saRefuse msSAK_IN_USE
  else
    let c := s.captureFault sl
    match c.2 with
    | some r => c.1.refuseVault pgMSEC r 0x140
    | none =>
      match c.1.saLoadFault x (c.1.slot sl).keyAttr with
      | some r => c.1.saRefuse r
      | none =>
        if c.1.captureWaits sl then
          c.1.maskStall.setCmdSlot pgMSEC 0x140 { c.1.cmdSlot pgMSEC 0x140 with queued := some (.saLoadRef x a sl) }
        else
          let s := c.1.cacheFill sl
          s.setSakKey x ((digestBytes (s.keyOf sl)).take 32) (s.slot sl).keyAttr (some sl)

/-- LOAD_KEY, when it starts (R381, R382, R236). -/
def startSaLoadKey (x a : Nat) (s : State) : State :=
  if 16 ≤ x then s.saRefuse Reason.FIELD_RANGE
  else match s.saLoadFault x (a % 4) with
    | some c => s.saRefuse c
    | none => (s.setSakKey x s.msecKey (a % 4) none).clearMsecKey

/-- CLEAR, when it starts: the register is zeroed (R381). -/
def startSaClear (x : Nat) (s : State) : State :=
  if 16 ≤ x then s.saRefuse Reason.FIELD_RANGE
  else s.setSa x Sa.empty

/-- ENABLE, when it starts: an SA without a key is refused; the salt and the SC's SSCI are latched (R382). -/
def startSaEnable (x : Nat) (s : State) : State :=
  if 16 ≤ x then s.saRefuse Reason.FIELD_RANGE
  else if !(s.sa x).loaded then s.saRefuse msSA_EMPTY
  else s.setSa x { s.sa x with
    enabled := true, salt := (List.range 3).flatMap (fun i => beBytes 4 (s.rd (Reg.MSEC.SALT i))), ssci := s.cfg (Reg.MSEC.SSCI (saSc x)) }

/-- DISABLE, when it starts. -/
def startSaDisable (x : Nat) (s : State) : State :=
  if 16 ≤ x then s.saRefuse Reason.FIELD_RANGE else s.setSa x { s.sa x with enabled := false }

/-- The SA is disabled and zeroed because its source slot is gone (R383). -/
def saWithdrawn (s : State) (x : Nat) : State :=
  ((s.setSa x Sa.empty).refuseVault pgMSEC kvREVOKED 0x140).raise pgMSEC 10

/-- A lane. -/
def lane (s : State) (l : Nat) : Lane := Tbl.get Lane.idle s.lanes l
def setLane (s : State) (l : Nat) (v : Lane) : State := { s with lanes := Tbl.put Lane.idle s.lanes l v }

/-- The SA protects the frame on the wire. -/
def saOnWire (s : State) (x : Nat) : Bool :=
  saDir x = 0 && (s.lane (saLane x)).wire.isSome && (s.lane (saLane x)).wireAn = some (x % 4)

/-- SAs whose source slot satisfies `gone` are withdrawn (R383): at once, or at the end of the frame in progress. -/
def saRevoke (s : State) (gone : Nat → Bool) : State :=
  (List.range 16).foldl (fun s x =>
    let a := s.sa x
    let hit := match a.source with | some i => gone i | none => false
    if !hit then s
    else if a.enabled && s.saOnWire x then
      (s.setSa x { a with withdrawn := true }).setLane (saLane x) { s.lane (saLane x) with spoil := true }
    else s.saWithdrawn x) s

end State

/-- SA_LOAD_REF (R381): MSEC SA_CMD with OP 1. -/
def execSaLoadRef (x attr slot : Nat) (s : State) : Host.Outcome State Fault Refusal :=
  .next (s.issue pgMSEC 0x140 (.saLoadRef x attr slot) (State.startSaLoadRef x attr slot))

/-- SA_LOAD_KEY (R381): OP 2. -/
def execSaLoadKey (x attr : Nat) (s : State) : Host.Outcome State Fault Refusal :=
  .next (s.issue pgMSEC 0x140 (.saLoadKey x attr) (State.startSaLoadKey x attr))

/-- SA_CLEAR (R381): OP 3. -/
def execSaClear (x : Nat) (s : State) : Host.Outcome State Fault Refusal :=
  .next (s.issue pgMSEC 0x140 (.saClear x) (State.startSaClear x))

/-- DISABLE (R382): OP 5. -/
def execDisable (x : Nat) (s : State) : Host.Outcome State Fault Refusal :=
  .next (s.issue pgMSEC 0x140 (.disable x) (State.startSaDisable x))

end Sys2Proof.Machine
end

