-- ==== Sys2Proof/Machine/Cipher.lean ====
section
/-! DEFINITION. AES engines, PKE, entropy source (chapter 08). -/

namespace Sys2Proof.Machine

/-! AES block reasons. -/
def aeKEY_IN_USE : Nat := 0x40
def aeADDRESS_RANGE : Nat := 0x41
def aeSEQUENCE : Nat := 0x42
def aeDKR_EMPTY : Nat := 0x43
def aeUNWRAP_FAIL : Nat := 0x44
def aeABORTED : Nat := 0x45
def aeRNG_UNAVAILABLE : Nat := 0x46

/-! PKE block reasons. -/
def pkKEYREG_EMPTY : Nat := 0x40
def pkPOINT_INVALID : Nat := 0x41
def pkSIGN_LOOP : Nat := 0x42
def pkSELF_VERIFY_FAIL : Nat := 0x43
def pkADDRESS_RANGE : Nat := 0x44
def pkRNG_UNAVAILABLE : Nat := 0x45

/-- Lengths by algorithm code 1-4 (R234, R244): public key, signature, private key in seed form, ECDSA digest. -/
def pubLen (a : Nat) : Nat := if a = 1 then 65 else if a = 2 then 97 else if a = 3 then 1312 else 1952
def sigLen (a : Nat) : Nat := if a = 1 then 64 else if a = 2 then 96 else if a = 3 then 2420 else 3309
def seedLen (a : Nat) : Nat := if a = 2 then 48 else 32

/-- The orders of P-256 and P-384 (FIPS 186-5; log entry 6). -/
def orderP256 : Nat := 0xFFFFFFFF00000000FFFFFFFFFFFFFFFFBCE6FAADA7179E84F3B9CAC2FC632551
def orderP384 : Nat := 0xFFFFFFFFFFFFFFFFFFFFFFFFFFFFFFFFFFFFFFFFFFFFFFFFC7634D81F4372DDF581A0DB248B0A77AECEC196ACCC52973

/-- GENKEY from a value V (R246). -/
def seedFrom (alg : Nat) (v : List Byte) : List Byte :=
  if alg = 1 then beBytes 32 (beNat (v.take 40) % (orderP256 - 1) + 1)
  else if alg = 2 then
    beBytes 48 (beNat (v ++ (digestBytes (Config.sha384 (v ++ asciiBytes "SY9400/ec"))).take 8) % (orderP384 - 1) + 1)
  else v.take 32

/-- The public key of a private key. -/
def pubKey (alg : Nat) (seed : List Byte) : List Byte := (List.range (pubLen alg)).map (Config.pubByte alg seed)

/-- A signature with drawn randomness. -/
def signature (alg : Nat) (seed msg ctx rnd : List Byte) : List Byte :=
  (List.range (sigLen alg)).map (Config.sigByte alg seed msg ctx rnd)

/-- An AES output of the length of its input. -/
def aesOut (mode : Nat) (dec : Bool) (key iv input : List Byte) : List Byte :=
  (List.range input.length).map (Config.aesByte mode dec key iv input)

/-- A KW wrap: 8 bytes longer than its plaintext (R197). -/
def kwWrap (kek plain : List Byte) : List Byte := (List.range (plain.length + 8)).map (Config.kwByte kek plain)

/-- The plaintext of a KW unwrap. -/
def kwPlain (kek blob : List Byte) : List Byte := (List.range (blob.length - 8)).map (Config.kwPlainByte kek blob)

/-- The plaintext of a wrapped key blob (R197). -/
def blobPlain (a dest : Nat) (key : List Byte) : List Byte :=
  asciiBytes "SYKB" ++ leBytes 1 a ++ leBytes 1 dest ++ leBytes 2 key.length ++ List.replicate 8 0 ++ key

namespace State

/-- Offsets of an engine's CMD and DKR_CMD. -/
def aesCmdOff (e : Nat) : Nat := 0x44 + 0x80 * e
def dkrCmdOff (e : Nat) : Nat := 0x48 + 0x80 * e

/-- Record a refusal of a DKR_CMD. -/
def dkrRefuse (s : State) (e code : Nat) : State := s.refuse pgAES code (dkrCmdOff e)

/-- LOAD_REF, when it starts (R202, R203, R236). -/
def startLoadRef (e : Fin 2) (a sl : Nat) (s : State) : State :=
  if s.aesBusy e then s.dkrRefuse e aeKEY_IN_USE
  else
    let c := s.captureFault sl
    match c.2 with
    | some r => c.1.refuseVault pgAES r (dkrCmdOff e)
    | none =>
      let r := c.1.slot sl
      if r.keyAttr ≠ atENC && r.keyAttr ≠ atDEC then c.1.dkrRefuse e Reason.KEY_ATTR
      else if c.1.captureWaits sl then
        c.1.maskStall.setCmdSlot pgAES (dkrCmdOff e) { c.1.cmdSlot pgAES (dkrCmdOff e) with queued := some (.loadRef e a sl) }
      else
        let s := c.1.cacheFill sl
        s.showDkr e ⟨true, (digestBytes (s.keyOf sl)).take 32, r.keyAttr, 1, some sl, r.gen⟩

/-- KEY[0-7] as a key, word 0 most significant. -/
def keyWords (s : State) (e : Nat) : List Byte := (List.range 8).flatMap (fun i => beBytes 4 (s.rd (Reg.AES.KEY (8 * e + i))))

/-- KEY[0-7] are cleared (R236). -/
def clearKeyWords (s : State) (e : Nat) : State := (List.range 8).foldl (fun s i => s.wr (Reg.AES.KEY (8 * e + i)) 0) s

/-- LOAD_KEY, when it starts (R203, R236). -/
def startLoadKey (e : Fin 2) (a : Nat) (s : State) : State :=
  if s.aesBusy e then s.dkrRefuse e aeKEY_IN_USE
  else (s.showDkr e ⟨true, s.keyWords e, a % 4, 2, none, 0⟩).clearKeyWords e

/-- CLEAR, when it starts; a busy engine's DKR is left to R203. -/
def startDkrClear (e : Fin 2) (s : State) : State :=
  if s.aesBusy e then s.dkrRefuse e aeKEY_IN_USE else s.showDkr e Dkr.empty

/-- What a DKR attribute permits (R189, R238). -/
def aesUseOk (a mode : Nat) (dec : Bool) : Bool :=
  if a = atENC then mode = 2 || !dec else if a = atDEC then mode = 2 || dec else false

/-- Record a refusal of an AES CMD. -/
def aesRefuse (s : State) (e code : Nat) : State := (s.refuse pgAES code (aesCmdOff e)).cmdEnd pgAES (aesCmdOff e)

/-- The first reason to refuse a RUN part (R238, R239). -/
def aesRunFault (s : State) (e : Nat) (a : Nat) : Option Nat :=
  let x := s.aesOf e
  let mode := s.sramLe a 1
  let fl := s.sramLe (a + 1) 1
  let len := s.sramLe (a + 0x0C) 4
  let last := bit fl 1
  let isOpen := s.aesBusy e
  let m := if bit fl 0 then mode else x.mode
  if !inSram a 48 || mode = 0 || 3 < mode || 7 < fl || s.sramLe (a + 3) 1 ≠ 0 || s.sramLe (a + 0x1C) 4 ≠ 0 then some Reason.FIELD_RANGE
  else if bit fl 0 == isOpen then some aeSEQUENCE
  else if bit fl 0 && !x.dkr.loaded then some aeDKR_EMPTY
  else if bit fl 0 && !aesUseOk x.dkr.keyAttr mode (bit fl 2) then some Reason.KEY_ATTR
  else if len = 0 || 0x400000 < len || (m = 1 && len % 16 ≠ 0) || (m = 2 && 2 ^ 36 < x.msg.length + len)
      || (m = 3 && last && (s.sramLe (a + 2) 1 < 12 || 16 < s.sramLe (a + 2) 1)) then some Reason.FIELD_RANGE
  else if !inRam (s.sramLe (a + 4) 4) len || !inRam (s.sramLe (a + 8) 4) len
      || (m = 3 && bit fl 0 && s.sramLe (a + 0x14) 4 ≠ 0 && !inRam (s.sramLe (a + 0x10) 4) (s.sramLe (a + 0x14) 4))
      || (m = 3 && last && !inRam (s.sramLe (a + 0x18) 4) (s.sramLe (a + 2) 1)) then some aeADDRESS_RANGE
  else none

/-- RUN, when it starts (R238, R239): FIRST takes the key from the DKR, whose source slot is IN_USE from then on (R191). -/
def startAesRun (e : Fin 2) (addr : Nat) (s : State) : State :=
  match s.aesRunFault e addr with
  | some c => s.aesRefuse e c
  | none =>
    let x := s.aesOf e
    let fl := s.sramLe (addr + 1) 1
    let x := if bit fl 0 then
        { x with mode := s.sramLe addr 1, decrypt := bit fl 2, iv := s.sramBytes (addr + 0x20) 16, msg := [], key := x.dkr.key,
                 keySlot := x.dkr.source, revoked := none,
                 aad := if s.sramLe addr 1 = 3 then s.ramBytes (s.sramLe (addr + 0x10) 4) (s.sramLe (addr + 0x14) 4) else [] }
      else x
    let s := (if bit fl 0 then s.slotUse x.keySlot else s).setAes e { x with run := some (.part (s.sramBytes addr 48)) }
    let s := (s.wr (Reg.AES.STATUS_BUSY e) 1).wr (Reg.AES.STATUS_DONE e) 0
    let s := (s.wr (Reg.AES.TAG_MATCH e) 0).wr (Reg.AES.TAG_MATCH_N e) 0
    s.cmdStart pgAES (aesCmdOff e) (.aesRun e addr)

/-- A RUN of firmware: it waits while ATT holds the engine, or a context of the engine is saved (R243, R417). -/
def fwAesRun (e : Fin 2) (addr : Nat) (s : State) : State :=
  if (s.aesOf e).saved.isSome then s.setCmdSlot pgAES (aesCmdOff e) { s.cmdSlot pgAES (aesCmdOff e) with queued := some (.aesRun e addr) }
  else State.startAesRun e addr s

/-- The KEK of WRAP and UNWRAP: a usable WRAP_ONLY slot (R189, R242). -/
def kekFault (s : State) (sl : Nat) : State × Option (Bool × Nat) :=
  let c := s.captureFault sl
  match c.2 with
  | some r => (c.1, some (true, r))
  | none => if (c.1.slot sl).keyAttr ≠ atWRAP then (c.1, some (false, Reason.KEY_ATTR)) else (c.1, none)

/-- The destination of an UNWRAP exists and holds a key of the length (R242, R245): a DKR, a SAK register, a PKE key register. -/
def unwrapTargetOk (dst idx len : Nat) : Bool :=
  if dst = 1 then decide (idx < 2) && len = 32 else if dst = 2 then decide (idx < 16) && len = 32 else decide (idx < 8)

/-- WRAP or UNWRAP, when it starts (R242, R253); in Brace one that is not in progress waits (R255, R506), and so it does while a context
of the engine is saved. -/
def startWrapUnwrap (e : Fin 2) (addr : Nat) (isWrap : Bool) (s : State) : State :=
  let i : Instr := if isWrap then .wrap e addr else .unwrap e addr
  let dst := s.sramLe (addr + 2) 1
  let ksrc := s.sramLe (addr + 4) 1
  let klen := s.sramLe (addr + 5) 1
  if s.aesBusy e then s.aesRefuse e aeSEQUENCE
  else if !inSram addr 16 || dst = 0 || 3 < dst || 1 < ksrc || (klen ≠ 32 && klen ≠ 48) || 3 < s.sramLe (addr + 6) 1
      || s.sramLe (addr + 7) 1 ≠ 0 || s.sramLe (addr + 0x0C) 4 ≠ 0
      || (isWrap && ksrc = 1 && klen ≠ 32) || (!isWrap && !unwrapTargetOk dst (s.sramLe (addr + 3) 1) klen) then s.aesRefuse e Reason.FIELD_RANGE
  else if !inSram (s.sramLe (addr + 8) 4) (klen + 24) then s.aesRefuse e aeADDRESS_RANGE
  else if isWrap && ksrc = 0 && s.rngFailed then s.aesRefuse e aeRNG_UNAVAILABLE
  else if isWrap && ksrc = 1 && !(s.aesOf e).dkr.loaded then s.aesRefuse e aeDKR_EMPTY
  else
    let k := s.kekFault (s.sramLe addr 2)
    match k.2 with
    | some (true, c) => (k.1.refuseVault pgAES c (aesCmdOff e)).cmdEnd pgAES (aesCmdOff e)
    | some (false, c) => k.1.aesRefuse e c
    | none =>
      if k.1.brace || (k.1.aesOf e).saved.isSome || k.1.captureWaits (s.sramLe addr 2) then
        k.1.maskStall.setCmdSlot pgAES (aesCmdOff e) { k.1.cmdSlot pgAES (aesCmdOff e) with queued := some i }
      else
        let c := k.1.capture (s.sramLe addr 2)
        let s := c.1.setAes e { c.1.aesOf e with
          run := some (if isWrap then .wrap (c.1.sramBytes addr 16) else .unwrap (c.1.sramBytes addr 16)), key := (digestBytes c.2).take 32, keySlot := some (s.sramLe addr 2), revoked := none }
        ((s.wr (Reg.AES.STATUS_BUSY e) 1).wr (Reg.AES.STATUS_DONE e) 0).cmdStart pgAES (aesCmdOff e) i

/-- The engine is idle: its slot is released (R191), and a DKR whose source was withdrawn is zeroed now (R204). -/
def aesIdle (s : State) (e : Nat) : State :=
  let x := s.aesOf e
  let s := (s.slotRelease x.keySlot).setAes e { AesSt.idle with dkr := x.dkr, saved := x.saved }
  let s := if x.zeroDkr then s.showDkr e Dkr.empty else s
  (((s.wr (Reg.AES.STATUS_BUSY e) 0).wr (Reg.AES.STATUS_DONE e) 1).raise pgAES 8).cmdEnd pgAES (aesCmdOff e)

/-- The tag verdict of a GCM decryption (R240). -/
def tagVerdict (s : State) (e : Nat) (good : Bool) : State :=
  let s := (s.wr (Reg.AES.TAG_MATCH e) (if good then matchOK else matchNOK)).wr (Reg.AES.TAG_MATCH_N e) (if good then matchNOK else matchOK)
  if good then s else s.raise pgAES 9

/-- Write to main or retention SRAM. -/
def ramStore (s : State) (a : Nat) (bs : List Byte) : State := if a < retBase then s.sramStore a bs else s.retStore a bs

/-- The operation with a withdrawn key ends (R191): no verdict, no tag. -/
def aesRevoked (s : State) (e c : Nat) : State :=
  (((s.wr (Reg.AES.TAG_MATCH e) 0).wr (Reg.AES.TAG_MATCH_N e) 0).aesIdle e).revokedEnd pgAES c (aesCmdOff e)

/-- A RUN part ends (R239, R240): output, and at LAST the tag or its verdict, but with a withdrawn key only its end (R191). -/
def aesPartDone (s : State) (e : Nat) (d : List Byte) : State :=
  let x := s.aesOf e
  let fl := fieldLe d 1 1
  let len := fieldLe d 0x0C 4
  let input := s.ramBytes (fieldLe d 4 4) len
  let before := x.msg.length
  let msg := x.msg ++ input
  let iv := if x.mode = 3 then x.iv.take 12 else x.iv
  let out := aesOut x.mode x.decrypt x.key iv msg
  let tagLen := fieldLe d 2 1
  let tagAt := fieldLe d 0x18 4
  let s := s.ramStore (fieldLe d 8 4) (out.drop before)
  let s := s.setAes e { x with msg := msg, run := none }
  if !bit fl 1 then s.cmdEnd pgAES (aesCmdOff e)
  else match x.revoked with
  | some c => s.aesRevoked e c
  | none =>
    let s := if x.mode = 3 then
        let t := (digestBytes (Config.gcmTag x.key iv x.aad (if x.decrypt then msg else out))).take tagLen
        if x.decrypt then s.tagVerdict e (t = s.ramBytes tagAt tagLen) else s.ramStore tagAt t
      else s
    s.aesIdle e

/-- The first 16 bytes of a blob's plaintext name what it holds (R197, R198); an attribute byte that encodes none fails as a wrong magic
does (DESIGN CHOICE; log entry 140). -/
def blobOk (p : List Byte) (dest klen : Nat) : Bool :=
  p.take 4 = asciiBytes "SYKB" && fieldLe p 4 1 < 4 && fieldLe p 5 1 = dest && fieldLe p 6 2 = klen && allZero (slice p 8 8)

/-- PKE key register `r`. -/
def keyReg (s : State) (r : Nat) : KeyReg := Tbl.get KeyReg.empty s.pke.regs r

/-- Store a key register. -/
def setKeyReg (s : State) (r : Nat) (k : KeyReg) : State :=
  let s := { s with pke := { s.pke with regs := Tbl.put KeyReg.empty s.pke.regs r k } }
  ((s.wr (Reg.PKE.KEYREG_ALG r) k.alg).wrb (Reg.PKE.KEYREG_EPHEMERAL r) k.ephemeral).wr (Reg.PKE.KEYREG_SLOT r) (k.source.getD 0)

/-- The algorithm of an unwrapped private key (R197, R245): 48 bytes are P-384; a blob of 32 bytes does not say which of the other
three, so the model leaves it free. -/
def blobAlg (s : State) (len : Nat) : Nat :=
  if len = 48 then 2 else match (Config.freeByte s.free).toNat % 3 with | 0 => 1 | 1 => 3 | _ => 4

/-- Deliver an unwrapped key to its register class (R198, R242); the full code of the reason where the target refuses it: a busy DKR
(R203), or a SAK register for the key's attribute or its enabled SA (R381, R382). -/
def deliverKey (s : State) (e dst idx : Nat) (key : List Byte) (a : Nat) : Except Nat State :=
  if dst = 1 then
    if idx < 2 && (idx = e || !s.aesBusy idx) && key.length = 32 then .ok (s.showDkr idx ⟨true, key, a, 3, none, 0⟩)
    else .error (pgAES * 256 + aeKEY_IN_USE)
  else if dst = 2 then
    match s.saLoadFault idx a with
    | some c => .error (pgMSEC * 256 + c)
    | none => .ok (s.setSakKey idx key a none)
  else .ok ((s.spend 1).setKeyReg idx ⟨s.blobAlg key.length, key, false, none, 0, some a⟩)

/-- In Brace a RUN part stops at its next 16-byte block, while a WRAP or UNWRAP in progress completes (R255). -/
def aesPaused (s : State) (r : AesRun) : Bool :=
  s.brace && (match r with | .part _ => true | .wrap _ => false | .unwrap _ => false)

/-- A WRAP ends (R242): the blob of a drawn key, or of the DKR's with its attribute.  A draw waits until the CTR_DRBG is instantiated,
and fails while it is FAILED (R251, R253). -/
def wrapDone (s : State) (e : Nat) (d : List Byte) : State :=
  let x := s.aesOf e
  let klen := fieldLe d 5 1
  if fieldLe d 4 1 ≠ 0 then (s.sramStore (fieldLe d 8 4) (kwWrap x.key (blobPlain x.dkr.keyAttr (fieldLe d 2 1) x.dkr.key))).aesIdle e
  else if s.rngFailed then (s.aesIdle e).refuse pgAES aeRNG_UNAVAILABLE (aesCmdOff e)
  else if !s.rngServes then s
  else
    let k := s.draw klen
    (k.1.sramStore (fieldLe d 8 4) (kwWrap x.key (blobPlain (fieldLe d 6 1) (fieldLe d 2 1) k.2))).aesIdle e

/-- An UNWRAP ends (R198, R242). -/
def unwrapDone (s : State) (e : Nat) (d : List Byte) : State :=
  let x := s.aesOf e
  let klen := fieldLe d 5 1
  let blob := s.sramBytes (fieldLe d 8 4) (klen + 24)
  let p := kwPlain x.key blob
  let dst := fieldLe d 2 1
  if !Config.kwOk x.key blob || !blobOk p dst klen then (s.aesIdle e).refuse pgAES aeUNWRAP_FAIL (aesCmdOff e)
  else
    match s.deliverKey e dst (fieldLe d 3 1) (slice p 16 klen) (fieldLe p 4 1) with
    | .ok s' => s'.aesIdle e
    | .error c => ((s.aesIdle e).wr (Hdr.REASON_CODE pgAES) c).wr (Hdr.REASON_OFFSET pgAES) (aesCmdOff e)

/-- AES_DONE (R240, R242, R255): what runs on engine `e` ends; a WRAP or UNWRAP with a withdrawn key by R191. -/
def aesFinish (s : State) (e : Nat) : State :=
  let x := s.aesOf e
  match x.run with
  | none => s
  | some r =>
    if s.aesPaused r then s
    else match r with
    | .part d => s.aesPartDone e d
    | .wrap d => (match x.revoked with | some c => s.aesRevoked e c | none => s.wrapDone e d)
    | .unwrap d => (match x.revoked with | some c => s.aesRevoked e c | none => s.unwrapDone e d)

/-! ### Pre-emption of a RUN (R243, R362) -/

/-- ATT holds engine `e` for a SEAL_OP (R417). -/
def aesLent (s : State) (e : Nat) : Bool := match s.stx.sealRun with | some (x, _) => x = e | none => false

/-- The RUN of firmware on engine `e` can give the engine up at its next 16-byte block: a part or an open operation, no WRAP or UNWRAP;
the mask of its saved key comes from the CTR_DRBG. -/
def aesYields (s : State) (e : Nat) : Bool :=
  s.aesBusy e && s.rngServes && !s.brace && (s.aesOf e).saved.isNone && !s.aesLent e
  && (match (s.aesOf e).run with | some (.wrap _) => false | some (.unwrap _) => false | _ => true)

/-- The context of the RUN on engine `e` goes to the context store, its working key masked; the engine is free, so a DKR that was to be
zeroed is zeroed now (R204). -/
def aesSave (s : State) (e : Nat) : State :=
  let x := s.aesOf e
  let d := s.draw x.key.length
  let c : AesCtx := ⟨x.run, (s.cmdSlot pgAES (aesCmdOff e)).running, x.mode, x.decrypt, x.iv, x.aad, x.msg,
    (x.key.zip d.2).map (fun p => p.1 ^^^ p.2), d.2, x.keySlot, x.revoked⟩
  let s := d.1.setAes e { AesSt.idle with dkr := x.dkr, saved := some c }
  let s := if x.zeroDkr then s.showDkr e Dkr.empty else s
  ((s.wr (Reg.AES.STATUS_SAVED e) 1).wr (Reg.AES.STATUS_BUSY e) 0).cmdEnd pgAES (aesCmdOff e)

/-- The saved RUN goes on, with the working key of its context and not of the DKR. -/
def aesRestore (s : State) (e : Nat) : State :=
  let x := s.aesOf e
  match x.saved with
  | none => s
  | some c =>
    let s := s.setAes e { x with run := c.run, mode := c.mode, decrypt := c.decrypt, iv := c.iv, aad := c.aad, msg := c.msg,
                                 key := (c.key.zip c.mask).map (fun p => p.1 ^^^ p.2), keySlot := c.keySlot, revoked := c.revoked, saved := none }
    let s := ((s.wr (Reg.AES.STATUS_SAVED e) 0).wr (Reg.AES.STATUS_BUSY e) 1).wr (Reg.AES.STATUS_DONE e) 0
    s.setCmdSlot pgAES (aesCmdOff e) { s.cmdSlot pgAES (aesCmdOff e) with running := c.cmd }

/-- A session operation can take an engine at once (R417): one is free, or its RUN yields; in Brace none starts (R255). -/
def aesTakes (s : State) : Bool := !s.brace && [0, 1].any (fun e => !s.aesBusy e || s.aesYields e)

/-- A session operation takes an engine and gives it back (R416, R417): the one that is free, else one whose RUN is saved and goes on
afterwards.  The firmware key of its DKR is moved to the save register and back, unseen. -/
def aesBorrow (s : State) : State :=
  if [0, 1].any (fun e => !s.aesBusy e) then s
  else match [0, 1].find? s.aesYields with
    | some e => (s.aesSave e).aesRestore e
    | none => s

/-- A saved RUN whose slot satisfies `gone` ends at once, its context discarded (R191, R243). -/
def aesSavedGone (s : State) (gone : Nat → Bool) : State :=
  [0, 1].foldl (fun s e =>
    match (s.aesOf e).saved with
    | some c =>
      if (match c.keySlot with | some i => gone i | none => false) then
        let s := (s.setAes e { s.aesOf e with saved := none }).wr (Reg.AES.STATUS_SAVED e) 0
        ((((s.wr (Reg.AES.TAG_MATCH e) 0).wr (Reg.AES.TAG_MATCH_N e) 0).wr (Reg.AES.STATUS_DONE e) 1).raise pgAES 8).revokedEnd pgAES kvREVOKED (aesCmdOff e)
      else s
    | none => s) s

/-- ABORT (R72): the running or open operation ends with ABORTED. -/
def abortAes (e : Fin 2) (s : State) : State :=
  if s.aesBusy e then
    ((s.aesIdle e).refuse pgAES aeABORTED (aesCmdOff e)).cmdDrop pgAES (aesCmdOff e)
  else s.cmdDrop pgAES (aesCmdOff e)

/-- ABORT of a RUN whose context is saved: the operation ends with ABORTED, its context discarded (R72, R243). -/
def abortSaved (e : Nat) (s : State) : State :=
  match (s.aesOf e).saved with
  | some c =>
    let s := ((s.slotRelease c.keySlot).setAes e { s.aesOf e with saved := none }).wr (Reg.AES.STATUS_SAVED e) 0
    s.refuse pgAES aeABORTED (aesCmdOff e)
  | none => s

/-! ### PKE -/

/-- Record a refusal of a PKE command. -/
def pkeRefuse (s : State) (code : Nat) : State := (s.refuse pgPKE code 0x44).cmdEnd pgPKE 0x44

/-- The descriptor's message: a digest of the curve's size, or the ML-DSA message (R244). -/
def pkeMsgLen (d : List Byte) : Nat :=
  let alg := fieldLe d 0 1
  if alg = 1 then 32 else if alg = 2 then 48 else fieldLe d 0x1C 4

/-- The message, context and addresses lie in main SRAM and keep their bounds. -/
def pkeRangeOk (op : Nat) (d : List Byte) : Bool :=
  let alg := fieldLe d 0 1
  let ctxOk := alg < 3 || fieldLe d 3 1 = 0 || inSram (fieldLe d 0x18 4) (fieldLe d 3 1)
  if op = 1 then inSram (fieldLe d 8 4) (pubLen alg) && inSram (fieldLe d 0x0C 4) (pkeMsgLen d)
    && inSram (fieldLe d 0x10 4) (sigLen alg) && ctxOk
  else if op = 2 then inSram (fieldLe d 0x0C 4) (pkeMsgLen d) && inSram (fieldLe d 0x10 4) (sigLen alg) && ctxOk
  else if op = 3 then inSram (fieldLe d 8 4) (pubLen alg)
  else if op = 4 then inSram (fieldLe d 8 4) 97
  else true

/-- The reason to refuse a PKE operation, the vault's apart (R244-R248). -/
def pkeFault (s : State) (op a : Nat) : Option Nat :=
  let d := s.sramBytes a 32
  let alg := fieldLe d 0 1
  let r := fieldLe d 1 1
  let k := s.keyReg r
  if !inSram a 32 || fieldLe d 6 2 ≠ 0 || 7 < r then some Reason.FIELD_RANGE
  else if op = 3 && 1 < fieldLe d 2 1 then some Reason.FIELD_RANGE
  else if op = 4 && fieldLe d 2 1 = 0 && 4096 ≤ fieldLe d 0x18 4 then some Reason.FIELD_RANGE
  else if op ≠ 5 && (alg = 0 || 4 < alg || (2 < alg && 0x10000 < pkeMsgLen d && op < 3)) then some Reason.FIELD_RANGE
  else if (op = 2 || op = 4) && k.alg = 0 then some pkKEYREG_EMPTY
  else if (op = 2 && k.alg ≠ alg) || (op = 4 && (alg ≠ 2 || k.alg ≠ 2 || 1 < fieldLe d 2 1)) then some Reason.FIELD_RANGE
  else if op = 4 && fieldLe d 2 1 = 1 && (k.ephemeral || k.source.isNone) then some Reason.KEY_ATTR
  else if !pkeRangeOk op d then some pkADDRESS_RANGE
  else if ((op = 2) || (op = 3 && fieldLe d 2 1 = 1)) && s.rngFailed then some pkRNG_UNAVAILABLE
  else none

/-- Why an ECDH secret may not go to the vault slot `t` as a child of `p` (R187, R248), and whether the reason is a vault refusal. -/
def ecdhFault (s : State) (t p : Nat) : Option (Bool × Nat) :=
  if 512 ≤ t then some (false, Reason.FIELD_RANGE)
  else if t ≤ 5 then some (true, kvRESERVED)
  else if !s.slotFree t then some (true, kvWRITE_ONCE)
  else if 16 ≤ s.pinnedCount then some (false, Reason.OVERSUBSCRIBED)
  else if s.tooDeep p then some (true, kvDEPTH_LIMIT)
  else none

/-- A PKE operation, when it starts (R244): one at a time, a later one queued (R72). -/
def startPke (op addr : Nat) (i : Instr) (s : State) : State :=
  let d := s.sramBytes addr 32
  if (s.sched 2).running.isSome then s.setCmdSlot pgPKE 0x44 { s.cmdSlot pgPKE 0x44 with queued := some i }
  else match s.pkeFault op addr with
  | some c => s.pkeRefuse c
  | none =>
    let go (s : State) (sl : Option Nat) : State :=
      let s := { s.slotUse sl with pke := { s.pke with run := some (op, d), keySlot := sl, revoked := none } }
      let s := if op = 1 then (s.wr Reg.PKE.VERIFY_MATCH 0).wr Reg.PKE.VERIFY_MATCH_N 0 else s
      ((s.wr Reg.PKE.STATUS_BUSY 1).wr Reg.PKE.STATUS_DONE 0).cmdStart pgPKE 0x44 i
    if op = 3 && fieldLe d 2 1 = 0 then
      let sl := fieldLe d 4 2
      let c := s.captureFault sl
      match c.2 with
      | some r => (c.1.refuseVault pgPKE r 0x44).cmdEnd pgPKE 0x44
      | none =>
        if (c.1.slot sl).keyAttr ≠ atDERIVE then c.1.pkeRefuse Reason.KEY_ATTR
        else if c.1.captureWaits sl then c.1.maskStall.setCmdSlot pgPKE 0x44 { c.1.cmdSlot pgPKE 0x44 with queued := some i }
        else go (c.1.cacheFill sl) (some sl)
    else if op = 4 && fieldLe d 2 1 = 1 then
      match s.ecdhFault (fieldLe d 4 2) ((s.keyReg (fieldLe d 1 1)).source.getD 0) with
      | some (true, c) => (s.refuseVault pgPKE c 0x44).cmdEnd pgPKE 0x44
      | some (false, c) => s.pkeRefuse c
      | none => go s (s.keyReg (fieldLe d 1 1)).source
    else go s (if op = 2 || op = 4 then (s.keyReg (fieldLe d 1 1)).source else none)

/-- The PKE is idle: the slot of its operation is released, DONE, event. -/
def pkeIdle (s : State) : State :=
  let s := s.slotRelease s.pke.keySlot
  let s := { s with pke := { s.pke with run := none, keySlot := none, revoked := none } }
  (((s.wr Reg.PKE.STATUS_BUSY 0).wr Reg.PKE.STATUS_DONE 1).raise pgPKE 8).cmdEnd pgPKE 0x44

/-- The context string of a descriptor. -/
def pkeCtx (s : State) (d : List Byte) : List Byte := if fieldLe d 0 1 < 3 then [] else s.sramBytes (fieldLe d 0x18 4) (fieldLe d 3 1)

end State

/-- How many bytes of the CTR_DRBG a signature takes (R247): ECDSA k, or the ML-DSA rnd. -/
def signRandom (alg : Nat) : Nat := if alg = 2 then 48 else 32

/-- Signing with a private key (R247): the signature, or the reason of the PKE where the rejection loop reaches its cap or the
signature does not verify under the matching public key. -/
def signChecked (alg : Nat) (seed msg ctx rnd : List Byte) : Except Nat (List Byte) :=
  let sig := signature alg seed msg ctx rnd
  if 2 < alg && 814 ≤ Config.signLoops alg seed msg ctx rnd then .error pkSIGN_LOOP
  else if !Config.sigVerify alg (pubKey alg seed) msg ctx sig then .error pkSELF_VERIFY_FAIL
  else .ok sig

namespace State

/-- VERIFY ends (R244, R249). -/
def verifyDone (s : State) (d : List Byte) : State :=
  let alg := fieldLe d 0 1
  let good := Config.sigVerify alg (s.sramBytes (fieldLe d 8 4) (pubLen alg)) (s.sramBytes (fieldLe d 0x0C 4) (pkeMsgLen d)) (s.pkeCtx d)
    (s.sramBytes (fieldLe d 0x10 4) (sigLen alg))
  ((s.wr Reg.PKE.VERIFY_MATCH (if good then matchOK else matchNOK)).wr Reg.PKE.VERIFY_MATCH_N (if good then matchNOK else matchOK)).pkeIdle

/-- SIGN ends (R247); it waits until the CTR_DRBG is instantiated (R251) and fails while it is FAILED (R253). -/
def signDone (s : State) (d : List Byte) : State :=
  let alg := fieldLe d 0 1
  if s.rngFailed then s.pkeIdle.refuse pgPKE pkRNG_UNAVAILABLE 0x44
  else if !s.rngServes then s
  else
    let r := s.draw (signRandom alg)
    match signChecked alg (s.keyReg (fieldLe d 1 1)).seed (s.sramBytes (fieldLe d 0x0C 4) (pkeMsgLen d)) (s.pkeCtx d) r.2 with
    | .error c => r.1.pkeIdle.refuse pgPKE c 0x44
    | .ok sig => (r.1.sramStore (fieldLe d 0x10 4) sig).pkeIdle

/-- A generated private key goes to its register, its public key to main SRAM (R244, R246). -/
def genkeyTo (s : State) (d v : List Byte) (src : Option Nat) : State :=
  let alg := fieldLe d 0 1
  let seed := seedFrom alg v
  let s := s.setKeyReg (fieldLe d 1 1) ⟨alg, seed, src.isNone, src, (match src with | some i => (s.slot i).gen | none => 0), none⟩
  (s.sramStore (fieldLe d 8 4) (pubKey alg seed)).pkeIdle

/-- GENKEY ends (R246): from its slot's value, or from the CTR_DRBG, for which it waits as SIGN does. -/
def genkeyDone (s : State) (d : List Byte) : State :=
  if fieldLe d 2 1 = 0 then s.genkeyTo d (digestBytes (s.keyOf (fieldLe d 4 2))) (some (fieldLe d 4 2))
  else if s.rngFailed then s.pkeIdle.refuse pgPKE pkRNG_UNAVAILABLE 0x44
  else if !s.rngServes then s
  else
    let r := s.draw 48
    r.1.genkeyTo d r.2 none

/-- ECDH ends (R248): the secret goes to a session context, or to a vault slot that is defined with it in a pinned cache entry, for
whose mask it waits. -/
def ecdhDone (s : State) (d : List Byte) : State :=
  let k := s.keyReg (fieldLe d 1 1)
  let peer := s.sramBytes (fieldLe d 8 4) 97
  let secret := Config.ecdhSecret k.seed peer
  let t := fieldLe d 4 2
  if !Config.ecdhPointOk peer || secret = 0 then s.pkeIdle.refuse pgPKE pkPOINT_INVALID 0x44
  else if fieldLe d 2 1 = 0 then ({ s with ecdhOut := Tbl.put 0 s.ecdhOut (fieldLe d 0x18 4) secret }).pkeIdle
  else if !s.rngServes then s
  else if s.slotFree t then (s.vaultResult t (k.source.getD 0) atDERIVE 0 secret).pkeIdle
  else s.pkeIdle.refuseVault pgPKE kvWRITE_ONCE 0x44

/-- PKE_DONE (R244-R249): the operation ends and writes its result; with a withdrawn seed slot it ends by R191. -/
def pkeFinish (s : State) : State :=
  match s.pke.run with
  | none => s
  | some (op, d) =>
    let r := fieldLe d 1 1
    match s.pke.revoked with
    | some c => ((if op = 2 || op = 4 then s.setKeyReg r KeyReg.empty else s).pkeIdle).revokedEnd pgPKE c 0x44
    | none =>
      if op = 1 then s.verifyDone d
      else if op = 2 then s.signDone d
      else if op = 3 then s.genkeyDone d
      else if op = 4 then s.ecdhDone d
      else (s.setKeyReg r KeyReg.empty).pkeIdle

/-! ### Entropy source (R250-R253) -/

/-- GEN, when it starts (R252); it waits until the CTR_DRBG is instantiated (R251) and fails while it is FAILED (R253). -/
def startGen (addr : Nat) (s : State) : State :=
  let out := s.sramLe addr 4
  let n := s.sramLe (addr + 4) 4
  if !inSram addr 8 || n = 0 || 4096 < n || !inSram out n then s.refuse pgRNG Reason.FIELD_RANGE 0x44
  else if s.rngFailed then (s.wr (Hdr.REASON_CODE pgRNG) rngUNAVAILABLE).wr (Hdr.REASON_OFFSET pgRNG) 0x44
  else if !s.rngServes then s.setCmdSlot pgRNG 0x44 { s.cmdSlot pgRNG 0x44 with queued := some (.gen addr) }
  else
    let d := s.draw n
    d.1.sramStore out d.2

/-- RESTART, when it starts (R253): a new collection and its start-up test, until RNG_READY or until it fails. -/
def startRestart (s : State) : State :=
  { (((s.wr Reg.RNG.STATUS_STATE 0).wr Reg.RNG.STATUS_READY 0).cmdStart pgRNG 0x44 .restart) with rng := ⟨0, 0⟩ }

end State

/-- AES_RUN (R239): CMD[e] with OP 1. -/
def execAesRun (e : Fin 2) (addr : Nat) (s : State) : Host.Outcome State Fault Refusal :=
  .next (s.issue pgAES (State.aesCmdOff e) (.aesRun e addr) (State.fwAesRun e addr))

/-- WRAP (R242): OP 2. -/
def execWrap (e : Fin 2) (addr : Nat) (s : State) : Host.Outcome State Fault Refusal :=
  .next (s.issue pgAES (State.aesCmdOff e) (.wrap e addr) (State.startWrapUnwrap e addr true))

/-- UNWRAP (R242): OP 3. -/
def execUnwrap (e : Fin 2) (addr : Nat) (s : State) : Host.Outcome State Fault Refusal :=
  .next (s.issue pgAES (State.aesCmdOff e) (.unwrap e addr) (State.startWrapUnwrap e addr false))

/-- LOAD_REF (R236): DKR_CMD[e] with OP 1. -/
def execLoadRef (e : Fin 2) (attr slot : Nat) (s : State) : Host.Outcome State Fault Refusal :=
  .next (s.issue pgAES (State.dkrCmdOff e) (.loadRef e attr slot) (State.startLoadRef e attr slot))

/-- LOAD_KEY (R236): OP 2. -/
def execLoadKey (e : Fin 2) (attr : Nat) (s : State) : Host.Outcome State Fault Refusal :=
  .next (s.issue pgAES (State.dkrCmdOff e) (.loadKey e attr) (State.startLoadKey e attr))

/-- DKR_CLEAR (R236): OP 3. -/
def execDkrClear (e : Fin 2) (s : State) : Host.Outcome State Fault Refusal :=
  .next (s.issue pgAES (State.dkrCmdOff e) (.dkrClear e) (State.startDkrClear e))

/-- KEY_CLEAR_TIMEOUT (R236): KEY[0-7] of an AES engine (0, 1) or of MSEC (2) after 10 µs without a load. -/
def execKeyClearTimeout (e : Fin 3) (s : State) : Host.Outcome State Fault Refusal :=
  .next (if e.val < 2 then s.clearKeyWords e.val
    else (List.range 8).foldl (fun s i => s.wr (Reg.MSEC.KEY i) 0) s)

/-- VERIFY (R244): PKE CMD with OP 1. -/
def execVerify (addr : Nat) (s : State) : Host.Outcome State Fault Refusal :=
  .next (s.issue pgPKE 0x44 (.verify addr) (State.startPke 1 addr (.verify addr)))

/-- SIGN (R247): OP 2. -/
def execSign (addr : Nat) (s : State) : Host.Outcome State Fault Refusal :=
  .next (s.issue pgPKE 0x44 (.sign addr) (State.startPke 2 addr (.sign addr)))

/-- GENKEY (R246): OP 3. -/
def execGenkey (addr : Nat) (s : State) : Host.Outcome State Fault Refusal :=
  .next (s.issue pgPKE 0x44 (.genkey addr) (State.startPke 3 addr (.genkey addr)))

/-- ECDH (R248): OP 4. -/
def execEcdh (addr : Nat) (s : State) : Host.Outcome State Fault Refusal :=
  .next (s.issue pgPKE 0x44 (.ecdh addr) (State.startPke 4 addr (.ecdh addr)))

/-- PKE_CLEAR (R244): OP 5. -/
def execPkeClear (addr : Nat) (s : State) : Host.Outcome State Fault Refusal :=
  .next (s.issue pgPKE 0x44 (.pkeClear addr) (State.startPke 5 addr (.pkeClear addr)))

/-- GEN (R252): RNG CMD with OP 1. -/
def execGen (addr : Nat) (s : State) : Host.Outcome State Fault Refusal :=
  .next (s.issue pgRNG 0x44 (.gen addr) (State.startGen addr))

/-- RESTART (R253): OP 2. -/
def execRestart (s : State) : Host.Outcome State Fault Refusal :=
  .next (s.issue pgRNG 0x44 .restart State.startRestart)

/-- HEALTH_FAIL (R250, R253): a health test of the raw bits has failed (log entry 149), from the moment the main domain is on, so that ROM
can find the source FAILED (R254): counted; the third failure of one collection makes the source FAILED, and the vault stalls (R194). -/
def execHealthFail (s : State) : Host.Outcome State Fault Refusal :=
  .next (if !s.power.mainOn || s.rngFailed then s
    else
      let s := (s.bump Reg.RNG.HEALTH_FAIL_COUNT).raise pgRNG 8
      let s := { s with rng := { s.rng with fails := s.rng.fails + 1 } }
      if s.rng.fails < 3 then s
      else
        let s := ((s.wr Reg.RNG.STATUS_STATE 2).wr Reg.RNG.STATUS_READY 0).raise pgRNG 9
        ((s.wr Reg.KVT.STATUS_MASK_STALL 1).raise pgKVT 13).cmdEnd pgRNG 0x44)

/-- RESEED (R252): a second has passed since the last reseed; draws count towards one of their own. -/
def execReseed (s : State) : Host.Outcome State Fault Refusal :=
  .next (if s.up && s.rd Reg.RNG.STATUS_STATE = 1 then s.reseed else s)

end Sys2Proof.Machine
end

