-- ==== Sys2Proof/Machine/Crc.lean ====
section
/-! DEFINITION. The CRC-32C of R89 and the walk of R92: PAGE_CRC, the CRC retained at an arm, the integrity evaluator and
the walker's scan; the copy of a page from one register store to another, and the swap of a port page (R77). -/

namespace Sys2Proof.Machine

/-- One bit of the reflected CRC-32C. -/
def crcBit (c : BitVec 32) : BitVec 32 := if c.getLsbD 0 then (c >>> 1) ^^^ 0x82F63B78 else c >>> 1

/-- One byte. -/
def crcByte (c : BitVec 32) (b : Byte) : BitVec 32 :=
  crcBit (crcBit (crcBit (crcBit (crcBit (crcBit (crcBit (crcBit (c ^^^ b.setWidth 32))))))))

/-- CRC-32C of a byte string: initial value and final XOR 0xFFFFFFFF (R89). -/
def crc32c (bs : List Byte) : Nat := ((bs.foldl crcByte 0xFFFFFFFF) ^^^ 0xFFFFFFFF).toNat

/-- The words of a page's active view in ascending offset, a windowed array at the position of its window (R92). -/
def pageWords (p : Nat) : List (Nat × List Fld) :=
  sortBy (fun a b => decide (a.1 ≤ b.1)) ((pageTable p).flatMap (fun d => (List.range d.count).map (fun i => (d.off + d.stride * i, d.flds i))))

/-- The fields of a page, header apart. -/
def pageFields (p : Nat) : List Fld := (pageTable p).flatMap (fun d => (List.range d.count).flatMap d.flds)

/-- A word as fields show it. -/
def wordOf (v : Fld → Nat) (fs : List Fld) : Nat := fs.foldl (fun a f => a + v f % 2 ^ f.width * 2 ^ f.lo) 0

/-- The bytes of the words that hold a field of one of the kinds, with every other bit 0 (R92). -/
def walkBytes (v : Fld → Nat) (ks : List Kind) (ws : List (List Fld)) : List Byte :=
  ws.flatMap (fun fs =>
    let fs := fs.filter (fun f => ks.contains f.kind)
    if fs.isEmpty then [] else leBytes 4 (wordOf v fs))

/-- The CRC over a page's CFG bits under a view of them (R66, R92). -/
def pageCrc (v : Fld → Nat) (p : Nat) : Nat := crc32c (walkBytes v [.cfg] ((pageWords p).map Prod.snd))

/-- Replace the entries of page `p` in `dst` by those of `src`. -/
def copyPage (p : Nat) (src dst : Tbl Nat) : Tbl Nat :=
  let lo := p * 0x10000 * 32
  let hi := (p + 1) * 0x10000 * 32
  dst.filter (fun e => e.1 < lo) ++ src.filter (fun e => lo ≤ e.1 && e.1 < hi) ++ dst.filter (fun e => hi ≤ e.1)

/-- The number of implemented pages (R61). -/
def pageCount : Nat := 0x32

namespace State

/-- PAGE_CRC of a page (R66). -/
def shadowCrc (s : State) (p : Nat) : Nat := pageCrc s.shadowOf p

/-- The walker's scan over the applied CFG and the CFD fields of every page (R89, R90, R92). -/
def scanCrc (s : State) : Nat :=
  let v (f : Fld) : Nat := if f.kind = .cfg then s.appliedOf f else s.rd f
  crc32c ((List.range pageCount).flatMap (fun p =>
    walkBytes v [.cfg, .cfd] ([Hdr.ENABLE p, Hdr.UPD_GROUP p, Hdr.LOCK p] :: (List.range 32).map (Hdr.EVENT_EN p) :: (pageWords p).map Prod.snd)))

/-- The pages whose active state lies in a host's or the management port's SCK domain (R98). -/
def sckPage (p : Nat) : Bool := decide (7 ≤ p) && decide (p ≤ 0x13)

/-- The port that holds an SCK page: 0-5, or 6 for the management port. -/
def sckPort (p : Nat) : Nat := if p = pgMGP then 6 else if p < 0xE then p - 8 else p - 0xE

/-- The pages whose active state lies in the always-on domain, or spans it (R98, R99). -/
def aonPage (p : Nat) : Bool := [pgPWR, pgHSV, pgTIME, pgCLOV, pgAON].contains p

/-- The CRC retained with a port page (R265). -/
def retainedFld (p : Nat) : Fld := if p < 0xE then Reg.HFP.RETAINED_CRC (p - 8) else Reg.POL.RETAINED_CRC (p - 0xE)

/-- The CRC of a port page's active state, as the integrity evaluator computes it (R265). -/
def activeCrc (s : State) (p : Nat) : Nat := pageCrc s.cfg p

/-- A port page has swapped since the port's reset (R265). -/
def hasSwapped (s : State) (p : Nat) : Bool := Tbl.get false (s.port (sckPort p)).swapped p

/-- Both pages of port `n` agree with their retained CRCs; inactive until a page's first swap (R265). -/
def integrityOk (s : State) (n : Nat) : Bool :=
  [pgHFP n, pgPOL n].all (fun p => !s.hasSwapped p || s.activeCrc p = s.rd (retainedFld p))

/-- The armed copy of a page becomes current (R77, R90): its CRC is the retained one, PENDING ends, the integrity flag of a
failing page clears. -/
def swapPage (s : State) (p : Nat) : State :=
  if !s.flag (Hdr.PENDING p) then s
  else
    let crc := pageCrc s.latchOf p
    let s := { s with regs := { s.regs with inSck := copyPage p s.regs.latch s.regs.inSck } }
    let s := (s.wr (Hdr.PENDING p) 0).raise p 4
    if p = pgMGP then s
    else
      let s := s.wr (retainedFld p) crc
      let s := s.setPort (sckPort p) { s.port (sckPort p) with swapped := Tbl.put false (s.port (sckPort p)).swapped p true }
      if s.integrityOk (sckPort p) then s.wr (Reg.HFP.PORT_STATUS_INTEGRITY_FAIL (sckPort p)) 0 else s

/-- The pages of port `n` swap (R77): at a rising edge of its chip select, or at a commit. -/
def swapPort (s : State) (n : Nat) : State := if n = 6 then s.swapPage pgMGP else (s.swapPage (pgHFP n)).swapPage (pgPOL n)

end State

end Sys2Proof.Machine
end

