-- ==== Sys2Proof/Machine/Manifest.lean ====
section
/-! DEFINITION. The Aelsia manifest that device, host and golden images share (R151-R154, R560). -/

namespace Sys2Proof.Machine

/-! ### The Aelsia manifest (R151, R152, R560) -/

/-- Length of a manifest (R151). -/
def manifestLen : Nat := 5713

def mfSequence (m : List Byte) : Nat := fieldLe m 0x008 4
def mfSvn (m : List Byte) : Nat := fieldLe m 0x00C 1
def mfBlockLog2 (m : List Byte) : Nat := fieldLe m 0x00D 1
def mfBlocks (m : List Byte) : Nat := fieldLe m 0x010 4
def mfLoad (m : List Byte) : Nat := fieldLe m 0x014 4
def mfEntry (m : List Byte) (c : Nat) : Nat := fieldLe m (0x018 + 4 * c) 4
def mfLeafDigest (m : List Byte) : BitVec 384 := digestOf 384 (slice m 0x028 48)
def mfImageDigest (m : List Byte) : BitVec 384 := digestOf 384 (slice m 0x058 48)
def mfSigner (m : List Byte) : BitVec 384 := digestOf 384 (slice m 0x088 48)
def mfLeafSha384 (m : List Byte) : Bool := bit (fieldLe m 0x0B8 4) 0
def mfCoreMask (m : List Byte) : Nat := bits (fieldLe m 0x0B8 4) 7 4

/-- Magic, version and reserved fields (R151, first row of R152), and the image type. -/
def mfHeaderOk (m : List Byte) (type : Nat) : Bool :=
  m.length = manifestLen && slice m 0 4 = [0x41, 0x45, 0x4C, 0x53] && fieldLe m 4 2 = 1 && fieldLe m 6 2 = type
  && allZero (slice m 0x00E 2) && fieldLe m 0x0B8 4 / 256 = 0 && bits (fieldLe m 0x0B8 4) 3 1 = 0
  && allZero (slice m 0x0BC 68) && allZero (slice m 0x1C1 3)

/-- The SHA-384 of the embedded keys (R151, R560). -/
def mfKeysHash (m : List Byte) : BitVec 384 := Config.sha384 (slice m 0x100 97 ++ slice m 0x1C4 1952)

/-- The two signatures over bytes 0x000-0x0FF (R151). -/
def mfMldsaOk (m : List Byte) : Bool := Config.mldsaVerify (slice m 0x1C4 1952) (m.take 256) (slice m 0x964 3309)
def mfEcdsaOk (m : List Byte) : Bool := Config.ecdsaVerify (slice m 0x100 97) (Config.sha384 (m.take 256)) (slice m 0x161 96)

/-- A sequence number that is valid for every source (R149). -/
def sequenceValid (q : Nat) : Bool := q ≠ 0 && q ≠ 0xFFFFFFFF

/-- The load range and entry points of R152. -/
def loadRangeOk (m : List Byte) : Bool :=
  decide (1 ≤ mfBlocks m) && decide (mfBlocks m ≤ 1008) && mfLoad m % 4096 = 0
  && decide (0x20000000 ≤ mfLoad m) && decide (mfLoad m + 4096 * mfBlocks m ≤ 0x203F0000)
  && (List.range 4).all (fun c => !bit (mfCoreMask m) c
      || (mfEntry m c % 2 = 0 && decide (mfLoad m ≤ mfEntry m c) && decide (mfEntry m c < mfLoad m + 4096 * mfBlocks m)))

namespace State

/-- The acceptance rule is BOTH (R154). -/
def ruleBoth (s : State) : Bool :=
  (s.lc = lcPROVISIONED || s.lc = lcFIELD || s.lc = lcINVALID) && !s.otp.sigEither

/-- The acceptance rule over the two results, and the results as BOOT_STATUS records them: under BOTH both are verified,
under EITHER the ECDSA signature only where the ML-DSA-65 one fails (R155). -/
def acceptSigs (both ml ec : Bool) : Bool × Bool × Bool :=
  if both then (ml && ec, ml, ec) else if ml then (true, true, false) else (ec, false, ec)

end State

end Sys2Proof.Machine
end

