-- ==== Sys2Proof/Machine/Hosts.lean ====
section
/-! DEFINITION. Hosts as every block sees them (chapters 02, 10, 11): slots and their records, holding a host, the start of a
verification, the failure of a host, the recovery ladder, OKs, ENROLL and the first step of a restore. -/

namespace Sys2Proof.Machine

/-! HSV block reasons. -/
def hvHOST_STATE : Nat := 0x40
def hvNO_STEER : Nat := 0x41
def hvNO_RECORD : Nat := 0x42
def hvRECORD_MISMATCH : Nat := 0x43
def hvMANIFEST_FORMAT : Nat := 0x44
def hvSIGNER_UNKNOWN : Nat := 0x45
def hvSIGNATURE : Nat := 0x46
def hvLEAF_TABLE : Nat := 0x47
def hvPRE_MISMATCH : Nat := 0x48
def hvDIRECTORY_MISMATCH : Nat := 0x49
def hvESCORT_TABLE : Nat := 0x4A
def hvESCORT_MISMATCH : Nat := 0x4B
def hvGATE_LIMIT : Nat := 0x4C
def hvBLOCK_TIMEOUT : Nat := 0x4D
def hvOK_TIMEOUT : Nat := 0x4E
def hvOK_LOST : Nat := 0x4F
def hvRESTORE_FAIL : Nat := 0x50
def hvREAD_FAIL : Nat := 0x51

/-! Hold causes (chapter 02). -/
def hcPOWER_ON : Nat := 0
def hcFIRMWARE : Nat := 1
def hcDETACHED_TOUCH : Nat := 2
def hcREATTACH_EXPIRED : Nat := 3
def hcSEAL : Nat := 4
def hcRECOVERY : Nat := 5
def hcCRC_REACTION : Nat := 6

/-- Offset of HSV HOST_CMD, and of ESC CMD. -/
def hostCmdOff : Nat := 0x58
def escCmdOff : Nat := 0x1C0

/-- ESC block reason RELOAD_STATE. -/
def esRELOAD_STATE : Nat := 0x43

/-- The reasons after which R334 voids the failed slot's record. -/
def voidsRecord (reason : Nat) : Bool :=
  [hvRECORD_MISMATCH, hvMANIFEST_FORMAT, hvSIGNER_UNKNOWN, hvSIGNATURE, hvLEAF_TABLE, hvPRE_MISMATCH, hvESCORT_TABLE,
   hvESCORT_MISMATCH].contains reason

/-- The length of a leaf of a host manifest: SHA-256, or SHA-384 (R151). -/
def mfLeafLen (m : List Byte) : Nat := if mfLeafSha384 m then 48 else 32

/-- A leaf digest of a block. -/
def leafHash (sha384 : Bool) (d : List Byte) : List Byte := shaBytes (if sha384 then 1 else 0) d

/-- The verification unit of a window: 4 KiB image blocks. -/
def blkLen : Nat := 4096

namespace State

/-! ### Slots (R300-R303, R310) -/

/-- The chip select of the steer block, the size of a slot and the device address of slot `sl` of host `n` (R300). -/
def slotCs (s : State) (n : Nat) : Nat := s.cfg (Reg.POL.STEER_CS n)
def slotSize (s : State) (n : Nat) : Nat := 2 ^ s.cfg (Reg.POL.STEER_SLOT_LOG2 n)
def slotBase (s : State) (n sl : Nat) : Nat := s.cfg (Reg.POL.STEER_BASE n) * 4096 + sl * s.slotSize n

/-- The image lies IMAGE_OFFSET × 4 KiB into a slot (R303). -/
def imageOff (s : State) (n : Nat) : Nat := s.cfg (Reg.POL.IMAGE_OFFSET n) * 4096

/-- Bytes of a slot. -/
def slotBytes (s : State) (n sl off len : Nat) : List Byte := s.flashBytes n (s.slotCs n) (s.slotBase n sl + off) len

/-- ACTIVE_SLOT (R302) and the inactive slot. -/
def activeSlot (s : State) (n : Nat) : Nat := s.rd (Reg.POL.STEER_STATUS n)
def inactiveSlot (s : State) (n : Nat) : Nat := 1 - s.activeSlot n

/-- The last well-formed record of a host slot (R310). -/
def lastRec (s : State) (n sl : Nat) : Option SlotRec :=
  (s.nvm.slotRecs.filter (fun r => r.wellFormed && r.host = n && r.slot = sl)).getLast?

/-- The current record of a host slot (R310): the last well-formed one, unless it is voided. -/
def currentRec (s : State) (n sl : Nat) : Option SlotRec :=
  match s.lastRec n sl with
  | some r => if r.void = BitVec.allOnes 64 then some r else none
  | none => none

end State

/-- Program the VOID marker of the last well-formed record of a slot; the list is in reverse order of appending. -/
def voidIn (n sl : Nat) : List SlotRec → List SlotRec
  | [] => []
  | r :: rs => if r.wellFormed && r.host = n && r.slot = sl then { r with void := 0 } :: rs else r :: voidIn n sl rs

namespace State

/-- Void the current record of a slot now. -/
def voidNow (s : State) (n sl : Nat) : State :=
  if (s.currentRec n sl).isSome then { s with nvm := { s.nvm with slotRecs := (voidIn n sl s.nvm.slotRecs.reverse).reverse } } else s

/-- Void a record; Brace defers the program (R313, R568). -/
def voidRec (s : State) (n sl : Nat) : State :=
  if s.brace then { s with deferred := s.deferred ++ [.void n sl] } else s.voidNow n sl

/-- Append a record, VALID last (R310). -/
def appendNow (s : State) (r : SlotRec) : State := { s with nvm := { s.nvm with slotRecs := s.nvm.slotRecs ++ [r] } }

/-- The slot that a verification takes (R322): NEXT without a fallback, else the higher sequence number, A on a tie. -/
def chooseSlot (s : State) (n : Nat) : Option Nat :=
  if s.flag (Reg.HSV.SLOT_INFO_NEXT_VALID n) then
    let sl := s.rd (Reg.HSV.SLOT_INFO_NEXT n)
    if (s.currentRec n sl).isSome then some sl else none
  else match s.currentRec n 0, s.currentRec n 1 with
    | some a, some b => some (if a.seq < b.seq then 1 else 0)
    | some _, none => some 0
    | none, some _ => some 1
    | none, none => none

/-! ### Windows (R315) -/

/-- The windows of a host: the indexes w = 4n + j whose size is not 0, while the ESC page is in force. -/
def windowsOf (s : State) (n : Nat) : List Nat :=
  if s.active pgESC then ([0, 1, 2, 3].map (fun j => 4 * n + j)).filter (fun w => s.cfg (Reg.ESC.WIN_SIZE w) ≠ 0) else []

/-- First policy address and length of a window in bytes. -/
def winBase (s : State) (w : Nat) : Nat := s.cfg (Reg.ESC.WIN_BASE w) * 4096
def winLen (s : State) (w : Nat) : Nat := s.cfg (Reg.ESC.WIN_SIZE w) * 4096

/-- The LDM leaf of the 1 KiB block of window `w` that holds policy address `a` (R318). -/
def leafAt (s : State) (w a : Nat) : Nat := s.cfg (Reg.ESC.WIN_LEAF w) + (a - s.winBase w) / 1024

/-- The window of a host that holds a policy address. -/
def windowAt (s : State) (n a : Nat) : Option Nat :=
  (s.windowsOf n).find? (fun w => s.winBase w ≤ a && a < s.winBase w + s.winLen w)

/-- The policy address of image block 0 (R317). -/
def imagePolicy (s : State) (n : Nat) : Nat := (s.cfg (Reg.HFP.CS_BASE n (s.slotCs n)) + s.cfg (Reg.POL.STEER_BASE n)) * 4096 + s.imageOff n

/-- The 1 KiB block at policy address `p` has matched (R319); the record is held by block, so that it outlives the ESC page at a
device warm reset (R42). -/
def blockVerified (s : State) (n p : Nat) : Bool := Tbl.get false (s.port n).verified (p / 1024)

/-- Set the record bit of the block at a policy address. -/
def setVerified (s : State) (n p : Nat) : State :=
  s.setPort n { s.port n with verified := Tbl.put false (s.port n).verified (p / 1024) true }

/-- Every block of a window has matched. -/
def windowSwept (s : State) (n w : Nat) : Bool :=
  (List.range (4 * s.cfg (Reg.ESC.WIN_SIZE w))).all (fun i => s.blockVerified n (s.winBase w + 1024 * i))

/-- A block has matched: its record bit, and SWEPT of a window that is whole (R319, R331). -/
def markVerified (s : State) (n w p : Nat) : State :=
  let s := s.setVerified n p
  if s.windowSwept n w then s.wr (Reg.ESC.WIN_STATUS_SWEPT w) 1 else s

/-! ### Engines that a sequencer takes (R362) -/

/-- Take a DGE for host `h`: an idle one, else one whose firmware operation is saved to the context store, its captured key erased
(R230; log entry 141). -/
def claimDge (s : State) (h : Nat) : State × Option Nat :=
  let free := [0, 1, 2, 3].filter (fun n => (s.dgeOf n).owner.isNone)
  let idle := free.filter (fun n => (s.dgeOf n).run.isNone && (s.dgeOf n).leaves.isNone && !s.flag (Reg.DGE.STATUS_OPEN n))
  match idle ++ free with
  | [] => (s, none)
  | n :: _ =>
    let e := s.dgeOf n
    if idle.contains n then (s.setDge n { e with owner := some h }, some n)
    else
      let s := (s.wr (Reg.DGE.STATUS_SAVED n) 1).bump (Reg.DGE.PREEMPT_COUNT n)
      (s.setDge n { e with owner := some h, key := if e.keySlot.isSome then [] else e.key }, some n)

/-- The key of a saved operation, captured again from its slot: the value, or its first 32 bytes where a DKR gave it (R211, R230). -/
def keyAgain (s : State) (e : DgeSt) : List Byte :=
  match e.keySlot with
  | some i => if e.keyFrom = 1 then digestBytes (s.keyOf i) else (digestBytes (s.keyOf i)).take 32
  | none => e.key

/-- Give a DGE back; a saved operation goes on. -/
def releaseDge (s : State) (n : Nat) : State :=
  let e := s.dgeOf n
  if s.flag (Reg.DGE.STATUS_SAVED n) then
    (s.setDge n { e with owner := none, key := s.keyAgain e }).wr (Reg.DGE.STATUS_SAVED n) 0
  else (s.setDge n { e with owner := none }).wr (Reg.DGE.STATUS_BUSY n) 0

/-- A DGE can be taken now; in Brace none starts (R232). -/
def dgeFree (s : State) : Bool := !s.brace && [0, 1, 2, 3].any (fun n => (s.dgeOf n).owner.isNone)

/-- One digest on a DGE, compared (R218): the engine is taken for host `h`, shows its verdict and is given back. -/
def hashOn (s : State) (h : Nat) (good : Bool) : State :=
  let c := s.claimDge h
  match c.2 with
  | some e => (seqVerdict (some e) good (seqBegin (some e) false c.1)).releaseDge e
  | none => s

/-- A private computation on a DGE (R415, R437): the engine is taken and given back. -/
def dgeBorrow (s : State) (h : Nat) : State :=
  let c := s.claimDge h
  match c.2 with
  | some e => c.1.releaseDge e
  | none => s

/-- Lane I of a host's snoop unit: 0 off, 1 PRE, 2 ESCORT (R324). -/
def setLaneI (s : State) (n mode : Nat) : State :=
  let s := s.setSnp n { s.snpOf n with laneI := mode, fifo := [] }
  (s.wrb (Reg.SNP.LANE_STATUS_I_BUSY n) (mode ≠ 0)).wr (Reg.SNP.LANE_STATUS_FIFO_LEVEL n) 0

/-! ### Work in progress for a host -/

/-- The verification of a host is given up: its engines, lane and requests are released. -/
def gateEnd (s : State) (n : Nat) : State :=
  match (s.host n).gate with
  | none => s
  | some g =>
    let s := g.engines.foldl releaseDge s
    let s := (s.setHost n { s.host n with gate := none }).setLaneI n 0
    let s := (s.dropReqs 2 (fun r => r.kind = .gate && r.issuer = n)).pumpPke
    s.dropIssuer n [.gate]

/-- The signatures of an image that ENROLL or a restore of host `n` checks wait no longer for the PKE. -/
def pkeLeave (s : State) (n : Nat) : State := (s.dropReqs 2 (fun r => r.kind = .job (.host n))).pumpPke

/-- What the channel reads for a host apart from verifications, sweeps and restores is given up: ENROLL and RELOAD end as a command
in a state that does not permit it (DESIGN CHOICE; log entry 50). -/
def readEnd (s : State) (n : Nat) : State :=
  match (s.host n).read with
  | none => s
  | some r =>
    let s := (s.setHost n { s.host n with read := none }).pkeLeave n
    let s := if r.kind = 0 then (s.refuse pgHSV hvHOST_STATE hostCmdOff).cmdEnd pgHSV hostCmdOff
      else if r.kind = 1 then (s.refuse pgESC esRELOAD_STATE escCmdOff).cmdEnd pgESC escCmdOff else s
    s.dropIssuer n [.hostRead]

/-- A restore is given up; its engine is given back and its stream on CMP ends. -/
def restoreEnd (s : State) (n : Nat) : State :=
  match (s.host n).restore with
  | none => s
  | some t =>
    let s := match t.engine with | some e => s.releaseDge e | none => s
    let s := (s.setHost n { s.host n with restore := none }).pkeLeave n
    let s := if s.cmp.host = some n then ({ s with cmp := { s.cmp with host := none } } : State).wr Reg.CMP.STATUS_BUSY 0 else s
    s.dropIssuer n [.restore]

/-- A first touch in service is cut: fill from here, the channel's fetch ends, the cache is lost (R329, R334). -/
def touchEnd (s : State) (n : Nat) : State :=
  match (s.port n).live with
  | some l =>
    if l.touch.isSome then
      let s := s.setPort n { s.port n with live := some { l with serve := .fill, touch := none, fillAt := some l.out.length } }
      s.setChan n { s.chan n with k1Run := false }
    else s
  | none => s

/-- Every kind of work for a host ends (R40, R336). -/
def hostWorkEnd (s : State) (n : Nat) : State :=
  let s := (((s.gateEnd n).restoreEnd n).readEnd n).touchEnd n
  let s := (s.setHost n { s.host n with sup := { Sup.idle with okPin := (s.host n).sup.okPin }, sweepAcc := [] }).setLaneI n 0
  s.dropIssuer n [.sweep]

/-- Set the state of a host. -/
def setHostSt (s : State) (n st : Nat) : State := s.wr (Reg.HSV.HOST_STATE_STATE n) st

end State

/-- The hosts with a verification, in the order of their commands, that wait for one of the two places (R320). -/
def gateWaiting (s : State) : List Nat :=
  let ws := (List.range 6).filter (fun n => match (s.host n).gate with | some g => g.phase = .wait | none => false)
  sortBy (fun a b => (match (s.host a).gate, (s.host b).gate with | some x, some y => decide (x.order ≤ y.order) | _, _ => true)) ws

/-- How many verifications run. -/
def gateRunning (s : State) : Nat :=
  ((List.range 6).filter (fun n => match (s.host n).gate with | some g => g.phase ≠ .wait | none => false)).length

namespace State

/-- A verification that can start does (R320, R322): its slot is chosen, SEL names it, the channel reads its manifest; the
hosts that find no record are answered for the caller to fail. -/
def gateKick (s : State) : Nat → State × List Nat
  | 0 => (s, [])
  | fuel + 1 =>
    match gateWaiting s with
    | [] => (s, [])
    | n :: _ =>
      if 2 ≤ gateRunning s then (s, [])
      else
        match s.chooseSlot n, (s.host n).gate with
        | some sl, some g =>
          let s := s.wr (Reg.HSV.SLOT_INFO_SEL n) sl
          let s := (s.windowsOf n).foldl (fun s w => (s.wr (Reg.ESC.WIN_STATUS_LOADED w) 0).wr (Reg.ESC.WIN_STATUS_SWEPT w) 0) s
          let s := s.setHost n { s.host n with gate := some { g with phase := .manifest, slot := sl }, digests := [] }
          gateKick (s.enqueue (chanRes n) ⟨.gate, 5, 5, n, 0, 0, 0, []⟩) fuel
        | _, _ =>
          let s := s.setHost n { s.host n with gate := none }
          let r := gateKick s fuel
          (r.1, n :: r.2)

/-! ### Signatures of host and golden images -/

/-- SIGNER_HASH[n] as a digest. -/
def signerHash (s : State) (n : Nat) : BitVec 384 :=
  digestOf 384 ((List.range 12).flatMap (fun i => beBytes 4 (s.cfg (Reg.HSV.SIGNER_HASH (12 * n + i)))))

/-- Step 2 of R323 but for the signatures: the embedded keys hash to the signer field, and that is SIGNER_HASH[n]. -/
def hostSignerOk (s : State) (n : Nat) (m : List Byte) : Bool := mfKeysHash m = mfSigner m && mfSigner m = s.signerHash n

/-- Both signatures under the rule of R154 and R155. -/
def manifestSigsOk (s : State) (m : List Byte) : Bool := (acceptSigs s.ruleBoth (mfMldsaOk m) (mfEcdsaOk m)).1

/-- The manifest format of step 1 of R323: type 0x0002, blocks of 4 KiB, an image inside one slot. -/
def hostManifestOk (s : State) (n : Nat) (m : List Byte) : Bool :=
  mfHeaderOk m 2 && mfBlockLog2 m = 12 && decide (s.imageOff n + 4096 * mfBlocks m ≤ s.slotSize n)

/-- The record that ENROLL appends for a slot whose manifest it has verified (R310, R338). -/
def enrollRec (n sl : Nat) (m : List Byte) : SlotRec := ⟨n, sl, mfSvn m, mfSequence m, Config.sha384 m, true, BitVec.allOnes 64⟩

/-! ### The ladder (R334-R337) -/

/-- Record a failure: FAULT[n] and its event. -/
def recordFault (s : State) (n reason : Nat) : State := (s.wr (Reg.HSV.FAULT n) (pgHSV * 256 + reason)).raise pgHSV 10

/-- A level has an image ready: HELD with cause RECOVERY, NEXT names it (R335). -/
def imageReady (s : State) (n sl : Nat) : State :=
  let s := (s.wr (Reg.HSV.SLOT_INFO_NEXT n) sl).wr (Reg.HSV.SLOT_INFO_NEXT_VALID n) 1
  ((s.setHostSt n hsHELD).wr (Reg.HSV.HOST_STATE_HOLD_CAUSE n) hcRECOVERY).raise pgHSV 14

/-- Step 1 of a restore (R341) on the golden manifest `m` as it was read: its format, signer and signatures. -/
def goldenOk (s : State) (n : Nat) (m : List Byte) : Bool :=
  mfHeaderOk m 3 && mfBlockLog2 m = 12 && s.hostSignerOk n m && s.manifestSigsOk m

/-- Level 5: a network image is asked for, if NET_EN (R335). -/
def ladder5 (s : State) (n : Nat) : State :=
  if s.cfgb (Reg.HSV.SUPERVISE_NET_EN n) then (s.wr (Reg.HSV.HOST_STATE_LEVEL n) 5).raise pgHSV 13 else s

/-- A restore fails (R341): RESTORE_FAIL, then level 5. -/
def restoreFail (s : State) (n : Nat) : State := (((s.readEnd n).restoreEnd n).recordFault n hvRESTORE_FAIL).ladder5 n

/-- Level 4: a restore into the slot that ACTIVE_SLOT does not name, where it applies (R335, R341). -/
def ladder4 (s : State) (n : Nat) : State :=
  if s.cfgb (Reg.HSV.SUPERVISE_RESTORE_EN n) && s.cfg (Reg.HSV.GOLDEN_BASE n) ≠ 0 then
    let s := s.wr (Reg.HSV.HOST_STATE_LEVEL n) 4
    let s := s.setHost n { s.host n with restore := some ⟨s.inactiveSlot n, 4, 0, [], [], none, [], [], 0, []⟩ }
    s.enqueue (chanRes 7) ⟨.restore, 5, 5, n, 0, 0, 0, []⟩
  else s.ladder5 n

/-- Level 3: the other slot, where it applies. -/
def ladder3 (s : State) (n : Nat) : State :=
  let other := 1 - s.rd (Reg.HSV.SLOT_INFO_SEL n)
  if s.cfgb (Reg.HSV.SUPERVISE_ALT_EN n) && (s.currentRec n other).isSome && !(s.host n).mend.failed.contains other then
    (s.wr (Reg.HSV.HOST_STATE_LEVEL n) 3).imageReady n other
  else s.ladder4 n

/-- The levels from `l` on (R335). -/
def ladder (s : State) (n l : Nat) : State :=
  if l ≤ 3 then s.ladder3 n else if l = 4 then s.ladder4 n else if l = 5 then s.ladder5 n else s

/-- A host fails (R334): MENDING, FAULT, the failed slot's record, and the next level of the ladder. -/
def hostFail (s : State) (n reason : Nat) : State :=
  let sl := s.rd (Reg.HSV.SLOT_INFO_SEL n)
  let s := (s.hostWorkEnd n).setHostSt n hsMENDING
  let s := (s.recordFault n reason).raise pgHSV 11
  let m := (s.host n).mend
  let kept := !voidsRecord reason && reason ≠ hvNO_RECORD && reason ≠ hvDIRECTORY_MISMATCH
  let m := { m with active := true, timer := true,
                    failed := if reason = hvNO_RECORD || m.failed.contains sl then m.failed else sl :: m.failed,
                    toVoid := if kept && !m.toVoid.contains sl then sl :: m.toVoid else m.toVoid }
  let s := s.setHost n { s.host n with mend := m, digests := [] }
  let s := if voidsRecord reason then s.voidRec n sl else s
  s.ladder n (max 3 (s.rd (Reg.HSV.HOST_STATE_LEVEL n) + 1))

/-- Start what can start, and fail the hosts that find no record. -/
def gateStart (s : State) : State :=
  let r := s.gateKick 7
  r.2.foldl (fun s n => s.hostFail n hvNO_RECORD) r.1

/-- A host that fails frees its place for the next verification. -/
def hostFailed (s : State) (n reason : Nat) : State := (s.hostFail n reason).gateStart

/-- Hold a host (R40): HELD with a cause, its reset output asserted, its work abandoned, its verified-block record and what SWEPT says of it
discarded (R60); a mending continues (R573). -/
def holdHost (s : State) (n cause : Nat) : State :=
  if s.hostSt n = hsOFF then s
  else
    let s := s.hostWorkEnd n
    let s := s.setPort n { s.port n with verified := [] }
    let s := [0, 1, 2, 3].foldl (fun s j => s.wr (Reg.ESC.WIN_STATUS_SWEPT (4 * n + j)) 0) s
    let s := s.setHost n { s.host n with digests := [] }
    (s.setHostSt n hsHELD).wr (Reg.HSV.HOST_STATE_HOLD_CAUSE n) cause

/-- Hold every host that is not OFF. -/
def holdAll (s : State) (cause : Nat) : State := (List.range 6).foldl (fun s n => s.holdHost n cause) s

/-- A host is switched off (R40): its work ends and its mending ends. -/
def hostOff (s : State) (n : Nat) : State :=
  if s.hostSt n = hsOFF then s
  else
    let s := s.hostWorkEnd n
    let s := s.setHost n { HostSt.idle with sup := { Sup.idle with okPin := (s.host n).sup.okPin } }
    let s := (s.setHostSt n hsOFF).wr (Reg.HSV.HOST_STATE_LEVEL n) 0
    s.wr (Reg.HSV.SLOT_INFO_NEXT_VALID n) 0

/-- A host is quarantined (R336). -/
def quarantineHost (s : State) (n : Nat) : State :=
  let s := (s.hostWorkEnd n).setHostSt n hsQUARANTINED
  let h := s.host n
  (s.setHost n { h with mend := { h.mend with timer := false }, digests := [] }).raise pgHSV 12

/-- An OK for a released host (R332, R337): supervision is content, and a mending ends. -/
def okHost (s : State) (n : Nat) : State :=
  if !s.released n then s
  else
    let s := s.wr (Reg.HSV.HOST_STATE_OK_SEEN n) 1
    let h := s.host n
    let s := s.setHost n { h with sup := { h.sup with waiting := false } }
    if h.mend.active then
      let s := s.setHost n { s.host n with mend := Mend.idle }
      let s := s.wr (Reg.HSV.HOST_STATE_LEVEL n) 0
      (h.mend.toVoid.filter (fun sl => sl ≠ s.activeSlot n)).foldl (fun s sl => s.voidRec n sl) s
    else s

/-- An OK from a milestone or from firmware counts when OK_SOURCE includes milestones (R332, R402). -/
def okMilestone (s : State) (n : Nat) : State := if bit (s.cfg (Reg.HSV.SUPERVISE_OK_SOURCE n)) 1 then s.okHost n else s

end State

end Sys2Proof.Machine
end

