-- ==== Sys2Proof/Machine/Channel.lean ====
section
/-! DEFINITION. The flash channels' commands (chapter 12): READ, PROGRAM, ERASE, INIT, ABORT, leases, Brace and warm reset on a
channel, and what Sumac does at a window's end, on aging and on a drop. -/

namespace Sys2Proof.Machine

namespace State

/-! ### Firmware commands (R346, R349, R350, R566) -/

/-- Fields of the READ, PROGRAM and ERASE descriptor.  A SNOOP flag of firmware's feeds no engine: R224 leaves sources 1 and 2 to ROM and
to restores. -/
def fdClass (d : List Byte) : Nat := fieldLe d 0 1
def fdCs (d : List Byte) : Nat := fieldLe d 1 1
def fdFlags (d : List Byte) : Nat := fieldLe d 2 1
def fdDev (d : List Byte) : Nat := fieldLe d 4 4
def fdSram (d : List Byte) : Nat := fieldLe d 8 4
def fdLen (d : List Byte) : Nat := fieldLe d 0x0C 4

/-- Addresses that the channel's applied address width reaches. -/
def addrSpan (s : State) (c : Nat) : Nat :=
  if 2 ≤ s.cfg (Reg.FCH.PROFILE_PROTOCOL c) || s.cfgb (Reg.FCH.PROFILE_ADDR_WIDE c) then 2 ^ 32 else 2 ^ 24

/-- The first failing check of R566 for READ (`k` 0), PROGRAM (1) and ERASE (2). -/
def fchFault (s : State) (c k a : Nat) : Option Nat :=
  let d := s.ramBytes a 16
  let len := fdLen d
  if 6 ≤ fdClass d || 8 ≤ fdFlags d || fieldLe d 3 1 ≠ 0 then some Reason.FIELD_RANGE
  else if fdClass d < 3 then some fcCLASS_NOT_PERMITTED
  else if !s.flag (Reg.FCH.STATUS_INIT_DONE c) then some fcNOT_INIT
  else if (if c < 6 then 1 else 0) < fdCs d then some fcADDRESS_RANGE
  else if (k = 0 && (len = 0 || 0x400000 < len)) || (k = 1 && (len = 0 || len % s.pageSize c ≠ 0)) || (k = 2 && len ≠ s.eraseSize c) then
    some Reason.FIELD_RANGE
  else if (k = 1 && fdDev d % s.pageSize c ≠ 0) || (k = 2 && fdDev d % s.eraseSize c ≠ 0) then some Reason.ALIGNMENT
  else if !inRam a 16 || (k ≠ 2 && !inRam (fdSram d) len) || s.addrSpan c < fdDev d + len then some fcADDRESS_RANGE
  else if k ≠ 0 && decide (c < 6) && s.sharing c = 0 && s.released c then some fcHOST_ACTIVE
  else none

/-- The first failing check of R566 for INIT. -/
def initFault (s : State) (c a : Nat) : Option Nat :=
  let n := leNat (s.ramBytes a 4)
  if n = 0 || 16 < n || (List.range n).any (fun i => 1 < leNat (s.ramBytes (a + 5 + 8 * i) 1) || 4 < leNat (s.ramBytes (a + 6 + 8 * i) 1)) then some Reason.FIELD_RANGE
  else if !inRam a (4 + 8 * n) then some fcADDRESS_RANGE
  else if c < 6 && s.hostSt c ≠ hsOFF && s.hostSt c ≠ hsHELD then some fcHOST_ACTIVE
  else none

/-- A FCH command is refused, or ends with a reason. -/
def fchRefuse (s : State) (c code : Nat) : State := (s.refuse (pgFCH c) code fchCmdOff).cmdEnd (pgFCH c) fchCmdOff

/-- Lane I has nothing of firmware's left to hash. -/
def laneEnd (s : State) (c : Nat) : State :=
  if decide (6 ≤ c) || (s.snpOf c).laneI ≠ 0 then s
  else (s.setSnp c { s.snpOf c with laneAcc := [], reread := [], tries := [] }).wr (Reg.SNP.LANE_STATUS_I_BUSY c) 0

/-- A FCH command ends: CMD_DONE. -/
def fchDone (s : State) (c : Nat) : State := ((s.laneEnd c).cmdEnd (pgFCH c) fchCmdOff).raise (pgFCH c) 10

/-- READ, PROGRAM or ERASE, when it starts: judged, then a request of its class. -/
def startFch (c : Fin 8) (k addr : Nat) (i : Instr) (s : State) : State :=
  match s.fchFault c k addr with
  | some r => s.fchRefuse c r
  | none =>
    let d := s.ramBytes addr 16
    let kind : ReqKind := if k = 0 then .fwRead else if k = 1 then .fwProgram else .fwErase
    (s.cmdStart (pgFCH c) fchCmdOff i).enqueue (chanRes c) ⟨kind, fdClass d, fdClass d, fwIssuer, 0, 0, 0, d⟩

/-- INIT, when it starts: one service of class K5 (R575). -/
def startInit (c : Fin 8) (addr : Nat) (s : State) : State :=
  match s.initFault c addr with
  | some r => s.fchRefuse c r
  | none => (s.cmdStart (pgFCH c) fchCmdOff (.init c addr)).enqueue (chanRes c) ⟨.init, 5, 5, fwIssuer, 0, 0, 0, []⟩

/-- The request of firmware on a channel. -/
def isFw (r : Req) : Bool := r.kind = .fwRead || r.kind = .fwProgram || r.kind = .fwErase || r.kind = .init

/-- ABORT (R72): the running request ends, the queued command is discarded. -/
def abortFch (c : Nat) (s : State) : State :=
  let s := if s.cmdRuns (pgFCH c) fchCmdOff then ((s.dropReqs (chanRes c) isFw).laneEnd c).raise (pgFCH c) 10 else s
  (s.cmdDrop (pgFCH c) fchCmdOff).pumpCh c

/-- The verification block of lane I under firmware. -/
def laneBlk (s : State) (c : Nat) : Nat := if s.cfgb (Reg.SNP.MODE_PRE_BLOCK c) then 4096 else 1024

/-- Lane I in PRE mode under firmware (R225): the bytes that a burst delivered at offset `pos` of a READ join their block, whose digest
goes to the FIFO when it is whole. -/
def fwLane (s : State) (c pos : Nat) (bs : List Byte) : State :=
  let p := s.snpOf c
  let i := pos / s.laneBlk c
  let acc := (if pos % s.laneBlk c = 0 then [] else Tbl.get [] p.laneAcc i) ++ bs
  let s := s.wr (Reg.SNP.LANE_STATUS_I_BUSY c) 1
  if acc.length < s.laneBlk c then s.setSnp c { p with laneAcc := Tbl.put [] p.laneAcc i acc }
  else
    let q := p.fifo ++ [⟨i, shaBytes (s.cfg (Reg.SNP.MODE_PRE_ALG c)) acc⟩]
    (s.setSnp c { p with laneAcc := Tbl.put [] p.laneAcc i [], fifo := q }).wr (Reg.SNP.LANE_STATUS_FIFO_LEVEL c) q.length

/-- One burst of firmware's READ, `n` bytes at offset `pos`: the data lands in SRAM and passes lane I. -/
def fwBurst (s : State) (c : Nat) (d : List Byte) (pos n : Nat) (corrupt : Bool) : State :=
  let got := s.delivered corrupt (s.flashBytes c (fdCs d) (fdDev d + pos) n)
  let s := got.1.ramStore (fdSram d + pos) got.2
  if s.laneFw c && n ≠ 0 then s.fwLane c pos got.2 else s

/-- What follows a burst of firmware's READ: the next one, of a block to read again where there is one (R352), or the end. -/
def fwReadOn (s : State) (c : Nat) (r : Req) : State :=
  let p := s.snpOf c
  let again := s.laneFw c && !p.reread.isEmpty
  if again then s.requeue c { r with addr := 1 }
  else if r.pos < fdLen r.desc || (s.laneFw c && s.leavesOn c && !p.fifo.isEmpty) then s.requeue c { r with addr := 0 }
  else s.fchDone c

/-- A burst of firmware's READ ends: the next of the stream, or of the block that is read again. -/
def fwReadServed (s : State) (c : Nat) (r : Req) (corrupt : Bool) : State :=
  let d := r.desc
  match (if r.addr = 1 && s.laneFw c then (s.snpOf c).reread else []) with
  | i :: is =>
    let k := (Tbl.get [] (s.snpOf c).laneAcc i).length
    let s := s.fwBurst c d (i * s.laneBlk c + k) 512 corrupt
    let s := if k + 512 < s.laneBlk c then s else s.setSnp c { s.snpOf c with reread := is }
    s.fwReadOn c r
  | [] =>
    let n := min 512 (fdLen d - r.pos)
    (s.fwBurst c d r.pos n corrupt).fwReadOn c { r with pos := r.pos + n }

/-- A service of a firmware request ends: the data of a burst, a page or an erase unit; then its next service, or CMD_DONE. -/
def fwServed (s : State) (c : Nat) (r : Req) (corrupt : Bool) : State :=
  let d := r.desc
  match r.kind with
  | .fwRead => s.fwReadServed c r corrupt
  | .fwProgram =>
    let n := min (s.pageSize c) (fdLen d - r.pos)
    let s := s.flashProgram c (fdCs d) (fdDev d + r.pos) (s.ramBytes (fdSram d + r.pos) n)
    if n < fdLen d - r.pos then s.requeue c { r with pos := r.pos + n } else s.fchDone c
  | _ => (s.flashErase c (fdCs d) (fdDev d) (s.eraseSize c)).fchDone c

/-- A READ of firmware on channel `c` that a verdict can ask for a block again (R352). -/
def fwReads (s : State) (c : Nat) : Bool :=
  let d := s.sched (chanRes c)
  s.laneFw c && (d.queue.any (fun r => r.kind = .fwRead) || (match d.running with | some r => r.kind = .fwRead | none => false))

/-- A verdict, or the end of a LEAVES operation, lets the channel's READ go on, or ends it where nothing is left of it. -/
def laneGo (s : State) (u : Nat) : State :=
  let p := s.snpOf u
  let whole (r : Req) : Bool := r.kind = .fwRead && decide (fdLen r.desc ≤ r.pos)
  if 6 ≤ u then s
  else if (s.sched (chanRes u)).queue.any whole && p.reread.isEmpty && (p.fifo.isEmpty || !s.leavesOn u) then
    ((s.dropReqs (chanRes u) whole).fchDone u).pumpCh u
  else s.pumpCh u

/-- Every channel whose READ a LEAVES operation held. -/
def lanesGo (s : State) : State := (List.range 6).foldl laneGo s

/-- A final fault of a read (R352): the channel's event and count. -/
def readFailed (s : State) (c : Nat) : State := (s.bump (Reg.FCH.READ_FAIL_COUNT c)).raise (pgFCH c) 8

/-- The oldest digest of unit `l.unit` meets its leaf (R221, R222): a match, or a mismatch after the fourth read, is final; before it
the channel reads the block again, three times at most (R352). -/
def leafVerdict (s : State) (n : Nat) (l : LeavesOp) : State :=
  let u := l.unit
  let p := s.snpOf u
  match p.fifo with
  | [] => s
  | e :: q =>
    let s := (s.setSnp u { p with fifo := q }).wr (Reg.SNP.LANE_STATUS_FIFO_LEVEL u) q.length
    let k := Tbl.get 0 p.tries e.index
    let s :=
      if l.count ≤ e.index then s
      else if e.digest = s.leafOf l e.index then s.leafFinal n l e.index true
      else if k < 3 && s.fwReads u then
        let s := (s.setSnp u { s.snpOf u with reread := p.reread ++ [e.index], tries := Tbl.put 0 p.tries e.index (k + 1) }).bump (Reg.FCH.RETRY_COUNT u)
        s.retag (chanRes u) (fun r => r.kind = .fwRead)
      else
        let s := if k < 3 then s else s.readFailed u
        s.leafFinal n l e.index false
    s.laneGo u

/-- INIT ends (R346, R557): the device is left in the profile's protocol, or the SFDP read failed. -/
def initFinish (s : State) (c : Nat) (ok : Bool) : State :=
  match (s.sched (chanRes c)).running with
  | some r =>
    if r.kind ≠ .init then s
    else
      let s := s.serviceEnd c
      let s := if ok then
          let s := (s.wr (Reg.FCH.STATUS_INIT_DONE c) 1).wr (Reg.FCH.STATUS_INIT_PROTOCOL c) (s.cfg (Reg.FCH.PROFILE_PROTOCOL c))
          let s := s.wr (Reg.FCH.STATUS_INIT_ADDR_WIDE c) (s.cfg (Reg.FCH.PROFILE_ADDR_WIDE c))
          ((s.wr (Reg.FCH.STATUS_INIT_DUMMY c) (s.cfg (Reg.FCH.PROFILE_DUMMY c))).raise (pgFCH c) 9).fchDone c
        else (s.fchRefuse c fcINIT_FAIL).raise (pgFCH c) 10
      s.pumpCh c
  | none => s

/-- ROM brings FB or FG up (R150, R557): INIT_DONE and the values in which it left the device; the dummy count and the address
width are the device's and are left open. -/
def romBringUp (s : State) (c : Nat) : State :=
  let oct := Tbl.get true s.octal c
  let s := if s.flag (Reg.FCH.STATUS_INIT_DONE c) then s
    else
      let b := leNat (s.freeBytes 1)
      let s := s.spend 1
      let s := (s.wr (Reg.FCH.STATUS_INIT_DONE c) 1).wr (Reg.FCH.STATUS_INIT_PROTOCOL c) (if oct then 2 else 0)
      (s.wr (Reg.FCH.STATUS_INIT_DUMMY c) (b % 32)).wr (Reg.FCH.STATUS_INIT_ADDR_WIDE c) (b / 32)
  if c = 6 && !oct then s.wr Reg.BOOT.BOOT_STATUS_FB_SLOW 1 else s

/-! ### Leases (R279) -/

/-- A lease of `dur` units of 0.1 ms for port `n`; 0 ends the current one. -/
def leaseOp (s : State) (n dur : Nat) : State :=
  if s.sharing n ≠ 1 then s
  else
    let s := s.setChan n { s.chan n with lease := dur, leaseAt := s.time.mrt, closing := false }
    (s.wrb (Reg.FCH.STATUS_LEASE_ACTIVE n) (dur ≠ 0)).pumpCh n

/-- A lease ends (R279, R283). -/
def leaseEnd (s : State) (n : Nat) : State :=
  (s.setChan n { s.chan n with lease := 0, closing := false }).wr (Reg.FCH.STATUS_LEASE_ACTIVE n) 0

/-! ### Brace (R370) -/

/-- Brace entry on a channel: an erase, and a program of a class other than K2, is suspended; a burst goes on to its end. -/
def braceChannel (s : State) (c : Nat) : State :=
  let d := s.sched (chanRes c)
  let s := s.setSched (chanRes c) { d with braced := true }
  match d.running with
  | some r =>
    if s.reqErases r || (s.reqPrograms r && r.cls ≠ 2) then
      let s := s.setSched (chanRes c) { s.sched (chanRes c) with running := none }
      ((s.setChan c { s.chan c with suspended := some r }).wr (Reg.FCH.STATUS_SUSPENDED c) 1).pumpCh c
    else s
  | none => s

/-- Brace entry: every channel; the windows in progress are not judged (R366). -/
def braceChannels (s : State) : State :=
  let s := (List.range 4).foldl (fun s x => s.setSched x { s.sched x with braced := true }) s
  (List.range 8).foldl braceChannel s

/-- Brace exit: suspended work resumes and every channel and the PKE choose again. -/
def resumeChannels (s : State) : State := ((List.range 8).foldl pumpCh s).pumpPke

/-! ### Aging, shortfall, drops (R358, R366-R368) -/

/-- Replace the element at position `i`. -/
def setNth (i : Nat) (v : Req) (q : List Req) : List Req := q.take i ++ v :: q.drop (i + 1)

/-- A request that has waited AGE_LIMIT moves to the tail of the next higher queue. -/
def ageReq (s : State) (x i : Nat) : State :=
  let d := s.sched x
  match d.queue[i]? with
  | some r =>
    if r.lvl ≤ 1 || suspendedAt d.level r.lvl then s
    else
      let s := s.setSched x { d with queue := d.queue.eraseIdx i ++ [{ r with lvl := r.lvl - 1 }] }
      let s := s.bump Reg.XBR.PROMOTED_COUNT
      if x < 4 then s else s.pumpCh (x - 4)
  | none => s

/-- Show the sacrifice levels in SACRIFICE. -/
def showLevels (s : State) : State :=
  s.wr Reg.XBR.SACRIFICE ((List.range 12).foldl (fun a x => a + (s.sched x).level * 4 ^ x) 0)

/-- The classes in shortfall: those the environment measured below their reservation, backlogged and not suspended (R366). -/
def shortClasses (s : State) (x below : Nat) : List Nat :=
  let d := s.sched x
  [2, 3, 4, 5].filter (fun k => bit below k && !suspendedAt d.level k && d.queue.any (fun r => r.cls = k))

/-- The end of a SHORT_WINDOW of resource `x` (R366, R367). -/
def windowEnd (s : State) (x below : Nat) : State :=
  let d := s.sched x
  if d.braced then s.setSched x { d with braced := s.brace }
  else
    let ks := s.shortClasses x below
    let s := ks.foldl (fun s k => s.bump (Reg.XBR.SHORT_WINDOWS (k - 2))) s
    let lv := if ks.isEmpty then d.level - 1 else min 3 (d.level + 1)
    let s := if ks.isEmpty then s else s.raise pgXBR 8
    let s := if lv = d.level then s else s.raise pgXBR 10
    let s := (s.setSched x { s.sched x with level := lv }).showLevels
    if x = 2 then s.pumpPke else if 4 ≤ x && x < 12 then s.pumpCh (x - 4) else s

end State

/-- DGE_ABORT (R72): OP 3, never queued. -/
def execDgeAbort (n : Fin 4) (s : State) : Host.Outcome State Fault Refusal :=
  .next (if s.up then (s.abortDge n).lanesGo else s)

/-- FCH_READ (R349): FCH CMD with OP 1. -/
def execFchRead (ch : Fin 8) (addr : Nat) (s : State) : Host.Outcome State Fault Refusal :=
  .next (s.issue (pgFCH ch) fchCmdOff (.fchRead ch addr) (State.startFch ch 0 addr (.fchRead ch addr)))

/-- FCH_PROGRAM (R350): OP 2. -/
def execFchProgram (ch : Fin 8) (addr : Nat) (s : State) : Host.Outcome State Fault Refusal :=
  .next (s.issue (pgFCH ch) fchCmdOff (.fchProgram ch addr) (State.startFch ch 1 addr (.fchProgram ch addr)))

/-- FCH_ERASE (R350): OP 3. -/
def execFchErase (ch : Fin 8) (addr : Nat) (s : State) : Host.Outcome State Fault Refusal :=
  .next (s.issue (pgFCH ch) fchCmdOff (.fchErase ch addr) (State.startFch ch 2 addr (.fchErase ch addr)))

/-- INIT (R346): OP 4. -/
def execInit (ch : Fin 8) (addr : Nat) (s : State) : Host.Outcome State Fault Refusal :=
  .next (s.issue (pgFCH ch) fchCmdOff (.init ch addr) (State.startInit ch addr))

/-- FCH_ABORT (R72): OP 5, never queued. -/
def execFchAbort (ch : Fin 8) (s : State) : Host.Outcome State Fault Refusal := .next (if s.up then s.abortFch ch else s)

/-- INIT_DONE (R346). -/
def execInitDone (ch : Fin 8) (ok : Bool) (s : State) : Host.Outcome State Fault Refusal := .next (s.initFinish ch ok)

/-- ERASE_SUSPEND_DONE (R351): FB reports the suspend; the erase waits and the K2 request is served. -/
def execEraseSuspendDone (ch : Fin 8) (s : State) : Host.Outcome State Fault Refusal :=
  .next (if (s.chan ch).suspending then
    match (s.sched (State.chanRes ch)).running with
    | some r =>
      let s := s.setSched (State.chanRes ch) { s.sched (State.chanRes ch) with running := none }
      ((s.setChan ch { s.chan ch with suspended := some r, suspending := false }).wr (Reg.FCH.STATUS_SUSPENDED ch) 1).pumpCh ch
    | none => s.setChan ch { s.chan ch with suspending := false }
  else s)

/-- CHANNEL_POLL_DONE (R353): WIP reads 0 or T_ERASE_MAX has passed; the channel issues its first command. -/
def execChannelPollDone (ch : Fin 8) (s : State) : Host.Outcome State Fault Refusal :=
  .next (if (s.chan ch).polling then (s.setChan ch { s.chan ch with polling := false }).pumpCh ch else s)

/-- AGE_PROMOTION (R358). -/
def execAgePromotion (res idx : Nat) (s : State) : Host.Outcome State Fault Refusal := .next (s.ageReq res idx)

/-- SHORT_WINDOW_END (R366): `below` is the mask of the classes whose service fell short of their reservation. -/
def execShortWindowEnd (res below : Nat) (s : State) : Host.Outcome State Fault Refusal :=
  .next (if s.up && res < 12 then s.windowEnd res below else s)

/-- LEASE_RETURN_DUE (R279): 2 µs before expiry the channel returns the pins. -/
def execLeaseReturnDue (n : Fin 6) (s : State) : Host.Outcome State Fault Refusal :=
  .next (if 0 < (s.chan n).lease then
    let s := s.setChan n { s.chan n with closing := true }
    if (s.sched (State.chanRes n)).running.isNone && s.released n then s.chanRest n else s
  else s)

/-- LEASE_EXPIRY (R279). -/
def execLeaseExpiry (n : Fin 6) (s : State) : Host.Outcome State Fault Refusal :=
  .next (if 0 < (s.chan n).lease then (s.leaseEnd n).pumpCh n else s)

end Sys2Proof.Machine
end

