-- ==== Sys2Proof/Machine/Port.lean ====
section
/-! DEFINITION. Host flash ports (chapter 09), the policy decision and status emulation (chapter 10), and the escort first touch
as the port sees it (chapter 11). -/

namespace Sys2Proof.Machine

/-! Opcode classes (R287). -/
def opFORBIDDEN : Nat := 0
def opREAD : Nat := 1
def opPROGRAM : Nat := 2
def opERASE : Nat := 3
def opREGISTER : Nat := 4
def opRESET : Nat := 5

/-- Erase sizes by ESIZE (R287). -/
def esizeBytes (e : Nat) : Nat := if e = 0 then 4096 else 32768 * 2 ^ (e - 1)

/-- The bit of a class set that judges a command class (R288): READ, PROG, ERASE, REG. -/
def classBit (c : Nat) : Option Nat :=
  if c = opREAD then some 0 else if c = opPROGRAM then some 1 else if c = opERASE then some 2 else if c = opREGISTER then some 3 else none

/-- A class set permits a class. -/
def setHas (set c : Nat) : Bool := match classBit c with | some b => bit set b | none => false

/-- What the policy decides (R288). -/
inductive Verd where
  | pass | fill | absorb
  deriving DecidableEq, Repr

/-- The refusal of a class: READ receives fill, every other class is absorbed (R288, R297). -/
def refusal (c : Nat) : Verd := if c = opREAD then .fill else .absorb

namespace State

/-! ### Tables in force (R286-R293) -/

/-- Class, ADDR and ESIZE of an opcode. -/
def opClass (s : State) (n op : Nat) : Nat := s.cfg (Reg.POL.OPCODE_CLASS n op)
def opAddressed (s : State) (n op : Nat) : Bool := s.cfgb (Reg.POL.OPCODE_ADDR n op)
def opEsize (s : State) (n op : Nat) : Nat := esizeBytes (s.cfg (Reg.POL.OPCODE_ESIZE n op))

/-- The enabled region entry of lowest index that contains a granule (R286). -/
def regionAt (s : State) (n g : Nat) : Option Nat :=
  (List.range 256).find? (fun i => s.cfg (Reg.POL.REGION_SIZE n i) ≠ 0 && s.cfg (Reg.POL.REGION_BASE n i) ≤ g
    && g < s.cfg (Reg.POL.REGION_BASE n i) + s.cfg (Reg.POL.REGION_SIZE n i))

/-- The class set and the ESCORT flag of the governing entry; nothing without one. -/
def regionClasses (s : State) (n g : Nat) : Nat × Bool :=
  match s.regionAt n g with
  | some i => (s.cfg (Reg.POL.REGION_ATTR_CLASSES n i), s.cfgb (Reg.POL.REGION_ATTR_ESCORT n i))
  | none => (0, false)

/-- An enabled region reaches beyond the map (R292). -/
def beyondMap (s : State) (n : Nat) : Bool :=
  (List.range 256).any (fun i => s.cfg (Reg.POL.REGION_SIZE n i) ≠ 0 && 65536 < s.cfg (Reg.POL.REGION_BASE n i) + s.cfg (Reg.POL.REGION_SIZE n i))

/-- The Anise code of a granule: 0 DENY, 1 READ, 2 FULL, 3 MIXED (R292); the map is a function of the region table in force. -/
def anise (s : State) (n g : Nat) : Nat :=
  if 65536 ≤ g then (if s.beyondMap n then 3 else 0)
  else
    let r := s.regionClasses n g
    if r.1 = 0 then 0 else if r.1 = 1 && !r.2 then 1 else if r.1 = 7 && !r.2 then 2 else 3

/-- The class set that decides a granule: the code's, or at MIXED that of the full lookup (R288, R293). -/
def granuleSet (s : State) (n g : Nat) : Nat :=
  let a := s.anise n g
  if a = 0 then 0 else if a = 1 then 1 else if a = 2 then 7 else (s.regionClasses n g).1

/-- The host address as the protocol carries it. -/
def hostAddr (s : State) (n : Nat) (t : HostTxn) : Nat :=
  if s.cfg (Reg.HFP.PROFILE_PROTOCOL n) < 2 && !s.cfgb (Reg.HFP.PROFILE_ADDR_WIDE n) then t.addr % 2 ^ 24 else t.addr % 2 ^ 32

/-- The policy address of a host address on a chip select (R264). -/
def policyAddr (s : State) (n cs a : Nat) : Nat := s.cfg (Reg.HFP.CS_BASE n cs) * 4096 + a

/-- An address lies beyond the chip select's size (R264). -/
def beyondCs (s : State) (n cs a : Nat) : Bool := decide (s.cfg (Reg.HFP.CS_SIZE n cs) * 4096 ≤ a)

/-- A policy address lies in the staging half, in host view (R300). -/
def inStagingHalf (s : State) (n p : Nat) : Bool :=
  let lo := (s.cfg (Reg.HFP.CS_BASE n (s.slotCs n)) + s.cfg (Reg.POL.STEER_BASE n)) * 4096 + s.slotSize n
  s.cfgb (Reg.POL.STEER_EN n) && decide (lo ≤ p) && decide (p < lo + s.slotSize n)

/-- The device address of a host address: bit b is inverted inside the steer block while ACTIVE_SLOT is B (R300). -/
def steered (s : State) (n cs a : Nat) : Nat :=
  let lo := s.cfg (Reg.POL.STEER_BASE n) * 4096
  let z := s.slotSize n
  if s.cfgb (Reg.POL.STEER_EN n) && s.slotCs n = cs && s.activeSlot n = 1 then
    (if lo ≤ a && a < lo + z then a + z else if lo + z ≤ a && a < lo + 2 * z then a - z else a)
  else a

/-- The decision of R288 for the command of a transaction. -/
def decideTxn (s : State) (n : Nat) (t : HostTxn) : Verd :=
  let op := t.opcode.toNat
  let c := s.opClass n op
  let a := s.hostAddr n t
  if c = opFORBIDDEN then .absorb
  else if s.cfg (Reg.HFP.CS_SIZE n t.cs) = 0 then refusal c
  else if !s.opAddressed n op then (if bit (s.cfg (Reg.POL.UNADDR n)) (c - 1) then .pass else refusal c)
  else if s.beyondCs n t.cs a then refusal c
  else
    let p := s.policyAddr n t.cs a
    let stageOk := !(s.inStagingHalf n p) || s.flag (Reg.POL.STAGE_STATE_LATCH n)
    if setHas (s.granuleSet n (p / 4096)) c && ((c ≠ opPROGRAM && c ≠ opERASE) || stageOk) then .pass else refusal c

/-- The transaction is decided by a full lookup (R293). -/
def mixedTxn (s : State) (n : Nat) (t : HostTxn) : Bool :=
  let op := t.opcode.toNat
  let a := s.hostAddr n t
  s.opClass n op ≠ opFORBIDDEN && s.opAddressed n op && !s.beyondCs n t.cs a && s.anise n (s.policyAddr n t.cs a / 4096) = 3

/-! ### Reads (R295, R327, R574) -/

/-- The 1 KiB block at a policy address lies in a window of the host, or in an ESCORT region of the port's own table (the same
granules, R318, which the port keeps through a device warm reset), and has not matched. -/
def unverifiedAt (s : State) (n p : Nat) : Bool :=
  ((s.windowAt n p).isSome || (s.regionClasses n (p / 4096)).2) && !s.blockVerified n p

/-- A read that starts at `p` is a first touch (R327). -/
def firstTouch (s : State) (n p : Nat) : Bool := s.unverifiedAt n p || s.unverifiedAt n (p / 1024 * 1024 + 1024)

/-- The first byte of a read, beyond its start, whose granule does not include READ (R295); offsets from the host address. -/
def readStops (s : State) (n cs a len : Nat) : Option Nat :=
  let k := (a % 4096 + len + 4095) / 4096
  ((List.range k).drop 1).map (fun i => i * 4096 - a % 4096) |>.find? (fun o =>
    s.beyondCs n cs (a + o) || !setHas (s.granuleSet n (s.policyAddr n cs (a + o) / 4096)) opREAD)

/-- The first byte of a live read that lies in an unverified window block (R574). -/
def readCuts (s : State) (n cs a len : Nat) : Option Nat :=
  let k := (a % 1024 + len + 1023) / 1024
  ((List.range k).drop 1).map (fun i => i * 1024 - a % 1024) |>.find? (fun o => s.unverifiedAt n (s.policyAddr n cs (a + o)))

/-- The fill byte. -/
def fillByte (s : State) (n : Nat) : Byte := BitVec.ofNat 8 (s.cfg (Reg.HFP.FILL n))

end State

/-- Set one bit of a byte. -/
def setBit (b : Byte) (i : Nat) (v : Bool) : Byte :=
  let m : Byte := BitVec.ofNat 8 (2 ^ (i % 8))
  if v then b ||| m else b &&& ~~~m

namespace State

/-- Status emulation is on for the port (R298). -/
def emuOn (s : State) (n : Nat) : Bool := s.cfgb (Reg.POL.STATUS_BITS_EMU_EN n) && decide (s.cfg (Reg.HFP.PROFILE_PROTOCOL n) < 3)

/-- A status or flag-status byte with the overrides of R298. -/
def emuByte (s : State) (n : Nat) (e : Emu) (isFlag : Bool) (b : Byte) : Byte :=
  let b := if isFlag then b
    else
      let b := setBit b (s.cfg (Reg.POL.STATUS_BITS_WIP_BIT n)) e.wip
      if e.wip then setBit b (s.cfg (Reg.POL.STATUS_BITS_WEL_BIT n)) true
      else if e.wel then setBit b (s.cfg (Reg.POL.STATUS_BITS_WEL_BIT n)) false else b
  if e.wip || e.fail = 0 || isFlag ≠ s.cfgb (Reg.POL.STATUS_BITS_FAIL_REG n) then b
  else setBit b (s.cfg (if e.fail = 1 then Reg.POL.STATUS_BITS_PFAIL_BIT n else Reg.POL.STATUS_BITS_EFAIL_BIT n)) true

/-- What the device returns to a command that reads no array data, as the host sees it. -/
def deviceBytes (s : State) (n : Nat) (t : HostTxn) : List Byte :=
  let op := t.opcode.toNat
  let fl := s.cfg (Reg.POL.STATUS_EMU_FLAG_OPCODE n)
  match (s.port n).emu with
  | some e =>
    if !s.emuOn n then t.device
    else if op = s.cfg (Reg.POL.STATUS_EMU_STATUS_OPCODE n) then t.device.map (s.emuByte n e false)
    else if fl ≠ 0 && op = fl then t.device.map (s.emuByte n e true)
    else t.device
  | none => t.device

/-- The bytes that a permitted read delivers: the array from the steered address, fill from a stop or a cut on; a read
without an address returns what the device gives. -/
def readOut (s : State) (n : Nat) (t : HostTxn) (fillAt : Option Nat) : List Byte :=
  if !s.opAddressed n t.opcode.toNat then s.deviceBytes n t
  else
    let a := s.hostAddr n t
    let m := match fillAt with | some k => min k t.len | none => t.len
    s.flashBytes n t.cs (s.steered n t.cs a) m ++ List.replicate (t.len - m) (s.fillByte n)

/-- A host program or erase takes effect on the device. -/
def hostWrite (s : State) (n : Nat) (t : HostTxn) : State :=
  let op := t.opcode.toNat
  let d := s.steered n t.cs (s.hostAddr n t)
  if s.opClass n op = opPROGRAM then s.flashProgram n t.cs d t.data
  else if s.opClass n op = opERASE then s.flashErase n t.cs (d / s.opEsize n op * s.opEsize n op) (s.opEsize n op)
  else s

/-- Lane H sees a permitted program or erase at its policy address (R227, R228). -/
def laneHSees (s : State) (n : Nat) (t : HostTxn) : State :=
  let op := t.opcode.toNat
  let p := s.policyAddr n t.cs (s.hostAddr n t)
  if s.opClass n op = opPROGRAM then (s.stageData n p t.data).showLaneH n
  else if s.opClass n op = opERASE then (s.stageErase n (p / s.opEsize n op * s.opEsize n op) (s.opEsize n op)).showLaneH n
  else s

/-- Staging ends with FAILED and a reason on the POL page. -/
def stageFail (s : State) (n code cause : Nat) : State :=
  let s := (s.disarmLaneH n cause).wr (Reg.POL.STAGE_STATE_LATCH n) 0
  ((s.wr (Reg.POL.STAGE_STATE_STATE n) 6).raise (pgPOL n) 12).refuse (pgPOL n) code 0x64

/-- An absorbed PROGRAM or ERASE in the staging half ends a staging that is OPEN, ARMED or SWEEPING (R311). -/
def policyAbort (s : State) (n : Nat) (t : HostTxn) : State :=
  let st := s.rd (Reg.POL.STAGE_STATE_STATE n)
  let c := s.opClass n t.opcode.toNat
  if (c = opPROGRAM || c = opERASE) && s.opAddressed n t.opcode.toNat && 1 ≤ st && st ≤ 3
      && s.inStagingHalf n (s.policyAddr n t.cs (s.hostAddr n t)) then
    (s.stageFail n 0x4C 2).dropIssuer n [.stageSweep]
  else s

/-- An absorbed command is logged, at most one entry in 100 ms for each port (R299). -/
def logAbsorbed (s : State) (n : Nat) : State :=
  let fresh := match (s.port n).loggedAt with | some t => decide (t + 3277 ≤ s.time.mrt) | none => true
  if fresh then (s.setPort n { s.port n with loggedAt := some s.time.mrt }).secLog .absorbed 0 0
  else s.bump (Reg.POL.LOG_DROPPED n)

/-- The write buffer holds `d` more bytes (R277). -/
def wbufFits (s : State) (n d : Nat) : Bool := decide ((((s.port n).wbuf.map (fun t => t.data.length)).sum) + d ≤ 512)

/-- The transaction as it stands when CS# has fallen. -/
def openTxn (s : State) (n : Nat) (l : Live) : State := s.setPort n { s.port n with live := some l }

/-- A transaction of `t` served in a way, nothing delivered yet. -/
def liveOf (t : HostTxn) (v : Serve) (w : DenyWhy) (mixed : Bool) : Live := ⟨t, v, w, [], false, 0, mixed, false, none, none, false⟩

/-- An absorbed command, whatever denied it (R268): emulation, the end of a staging, the log (R298, R299, R311). -/
def absorbTxn (s : State) (n : Nat) (t : HostTxn) (w : DenyWhy) (mixed : Bool) : State :=
  let c := s.opClass n t.opcode.toNat
  let s := s.policyAbort n t
  let s := if s.emuOn n && (c = opPROGRAM || c = opERASE) then
      s.setPort n { s.port n with emu := some ⟨true, true, if c = opPROGRAM then 1 else 2⟩ } else s
  (s.openTxn n (liveOf t .absorb w mixed)).logAbsorbed n

/-- A denied transaction (R268, R269). -/
def denyTxn (s : State) (n : Nat) (t : HostTxn) (w : DenyWhy) (mixed : Bool) : State :=
  match refusal (s.opClass n t.opcode.toNat) with
  | .fill => s.openTxn n { liveOf t .fill w mixed with out := List.replicate t.len (s.fillByte n) }
  | _ => s.absorbTxn n t w mixed

/-- A first touch begins (R327): the port withholds the data and the pins go to the channel while CS# stays low; on a detached device
the host's run ends and the block is never served (R46). -/
def beginTouch (s : State) (n p : Nat) (t : HostTxn) (mixed : Bool) : State :=
  let s := s.bump (Reg.ESC.FIRST_TOUCH_COUNT n)
  let l := { liveOf t .touch .none mixed with held := true }
  if !s.mode.attached then (s.openTxn n l).holdHost n hcDETACHED_TOUCH
  else
    let w := match s.windowAt n p with | some w => w | none => (s.windowAt n (p / 1024 * 1024 + 1024)).getD 0
    let s := s.openTxn n { l with touch := some ⟨p / 1024 * 1024, w, [], 0, false⟩ }
    (s.takePins n).setChan n { s.chan n with k1Run := true }

/-- SCK cycles for which a read decided by full lookup waits: the rest of its 6 cycles after the dummy cycles (R294). -/
def lookupWait (s : State) (n : Nat) (addressed mixed : Bool) : Nat := if addressed && mixed then 6 - s.cfg (Reg.HFP.PROFILE_DUMMY n) else 0

/-- A permitted read (R271, R273, R277, R294, R295, R327, R574). -/
def passRead (s : State) (n : Nat) (t : HostTxn) (mixed : Bool) : State :=
  let a := s.hostAddr n t
  let p := s.policyAddr n t.cs a
  let addressed := s.opAddressed n t.opcode.toNat
  if addressed && s.firstTouch n p then s.beginTouch n p t mixed
  else
    let stop := if addressed then s.readStops n t.cs a t.len else none
    let cut := if addressed then s.readCuts n t.cs a t.len else none
    let isCut := match cut, stop with | some c, some k => decide (c < k) | some _, none => true | none, _ => false
    let wait := s.lookupWait n addressed mixed
    let l := { liveOf t .pass (if stop.isSome && !isCut then .policy else .none) mixed with cut := isCut, fillAt := if isCut then cut else stop }
    if s.portOwns n && (s.port n).wbuf.isEmpty then
      s.openTxn n { l with out := s.readOut n t l.fillAt, held := decide (0 < wait), holdCycles := wait }
    else if s.cfg (Reg.HFP.PROFILE_STALL n) = 0 then s.denyTxn n t .port mixed
    else s.openTxn n { l with serve := .waitPins, held := true }

/-- A permitted command other than a read (R277, R294): live where the port owns the pins and no lookup is needed, else through
the write buffer. -/
def passWrite (s : State) (n : Nat) (t : HostTxn) (mixed : Bool) : State :=
  let s := match (s.port n).emu with
    | some e =>
      if !e.wip && (s.opClass n t.opcode.toNat = opPROGRAM || s.opClass n t.opcode.toNat = opERASE) then
        s.setPort n { s.port n with emu := some { e with fail := 0 } } else s
    | none => s
  if s.portOwns n && (s.port n).wbuf.isEmpty && !mixed then
    let out := s.deviceBytes n t
    ((s.laneHSees n t).hostWrite n t).openTxn n { liveOf t .pass .none mixed with out := out }
  else if !s.wbufFits n t.data.length then
    ((s.bump (Reg.HFP.WBUF_OVERFLOW_COUNT n)).raise (pgHFP n) 12).absorbTxn n t .policy mixed
  else
    let s := s.laneHSees n t
    (s.setPort n { s.port n with wbuf := (s.port n).wbuf ++ [t] }).openTxn n (liveOf t .buffered .none mixed)

/-- Opcodes that the emulation watches (R298). -/
def emuOpcode (s : State) (n : Nat) (t : HostTxn) : State :=
  match (s.port n).emu with
  | none => s
  | some e =>
    let op := t.opcode.toNat
    let e := if op = s.cfg (Reg.POL.STATUS_EMU_WREN_OPCODE n) && !e.wip then { e with wel := false } else e
    let e := if op = s.cfg (Reg.POL.STATUS_EMU_CLEAR_OPCODE n) && !e.wip then { e with fail := 0 } else e
    s.setPort n { s.port n with emu := some e }

/-- The port registers the integrity evaluator's result at the falling edge (R265). -/
def registerIntegrity (s : State) (n : Nat) : State :=
  if s.integrityOk n then s
  else (s.wr (Reg.HFP.PORT_STATUS_INTEGRITY_FAIL n) 1).raise (pgHFP n) 8

/-- A lease has given the pins to the channel (R280). -/
def leaseBroken (s : State) (n : Nat) : Bool := s.released n && s.sharing n = 1 && decide (0 < (s.chan n).lease) && !s.portOwns n

/-- Why a port denies every access (R17, R40, R265): parked, no policy swapped in, or an integrity failure. -/
def portDenies (s : State) (n : Nat) : Bool :=
  s.parked n || !s.hasSwapped (pgHFP n) || !s.hasSwapped (pgPOL n) || s.flag (Reg.HFP.PORT_STATUS_INTEGRITY_FAIL n)

/-- The transaction in progress broke a lease, whatever denied it (R280). -/
def markBroken (s : State) (n : Nat) (broke : Bool) : State :=
  match (s.port n).live with
  | some l => s.openTxn n { l with broke := broke }
  | none => s

/-- CS# falls and the port decides (R267, R280, R288). -/
def beginTxn (s : State) (n : Nat) (t : HostTxn) : State :=
  let s := (s.registerIntegrity n).emuOpcode n t
  let mixed := s.mixedTxn n t
  let broke := s.leaseBroken n
  let s :=
    if t.both || t.early then s.denyTxn n t .guardEarly false
    else if s.portDenies n then s.denyTxn n t .port false
    else if broke then s.denyTxn n t .ownership mixed
    else match s.decideTxn n t with
      | .absorb => s.absorbTxn n t .policy mixed
      | .fill => s.denyTxn n t .policy mixed
      | .pass => if s.opClass n t.opcode.toNat = opREAD then s.passRead n t mixed else s.passWrite n t mixed
  s.markBroken n broke

/-- A host transaction reaches a port that has supply, while CS# is high (R515). -/
def hostTxn (s : State) (n : Nat) (t : HostTxn) : State :=
  if !s.up || s.csLow n || !Tbl.get true s.power.ioHost n then s else s.beginTxn n t

/-- The counters and records of a refused command (R297). -/
def countRefused (s : State) (n : Nat) (l : Live) : State :=
  let t := l.txn
  let op := t.opcode.toNat
  let fill := l.serve ≠ .absorb
  let a := s.hostAddr n t + l.fillAt.getD 0
  let where_ := if s.opAddressed n op then s.policyAddr n t.cs a else a
  let s := s.bump (if fill then Reg.POL.READ_DENY_COUNT n else Reg.POL.ABSORB_COUNT n)
  let s := (s.wr (Reg.POL.LAST_DENY_ADDR n) where_).wr (Reg.POL.LAST_DENY_OP_OPCODE n) op
  let s := (s.wr (Reg.POL.LAST_DENY_OP_CLASS n) (s.opClass n op)).wrb (Reg.POL.LAST_DENY_OP_ACTION n) (!fill)
  s.raise (pgPOL n) (if fill then 9 else 8)

/-- The counters of a transaction, registered at the rising edge that ends it (R263). -/
def countTxn (s : State) (n : Nat) (l : Live) : State :=
  let s := s.bump (Reg.HFP.TXN_COUNT n)
  let s := if l.why ≠ .none then s.bump (Reg.HFP.DENY_COUNT n) else s
  let s := if l.why = .policy then s.countRefused n l else s
  let s := if l.why = .guardEarly then (s.bump (Reg.HFP.GUARD_EARLY_COUNT n)).raise (pgHFP n) 11 else s
  let s := if l.broke then (s.bump (Reg.HFP.OWNERSHIP_DENY_COUNT n)).raise (pgHFP n) 10 else s
  let s := if l.mixed then s.bump (Reg.POL.MIXED_COUNT n) else s
  let s := if l.held then (s.bump (Reg.HFP.STALL_COUNT n)).peak (Reg.HFP.STALL_MAX_SEEN n) l.holdCycles else s
  let short := l.touch.isSome && l.serve = .touch && decide (l.out.length < l.txn.len)
  if l.cut || short then (s.bump (Reg.ESC.STREAM_CUT_COUNT n)).raise pgESC 10 else s

/-- The rising edge of CS# (R263, R270, R328): counters, what the host received, the escort cache and the pins, a pending swap. -/
def portEnd (s : State) (n : Nat) : State :=
  match (s.port n).live with
  | none => s
  | some l =>
    let s := s.countTxn n l
    let got := l.out.take l.txn.len
    let pad := if l.serve = .absorb || l.serve = .buffered then [] else List.replicate (l.txn.len - got.length) (s.fillByte n)
    let s := s.setPort n { s.port n with live := none, received := got ++ pad }
    let s := if l.touch.isSome then
        let s := s.setChan n { s.chan n with k1Run := false }
        if (s.sched (chanRes n)).running.isSome then s else s.givePins n
      else s
    (s.swapPort n).pumpCh n

/-- A hold reaches DS_HOLD_MAX (R275): fill to the end; a fetch goes on, but its block is not served. -/
def holdExpired (s : State) (n : Nat) : State :=
  match (s.port n).live with
  | some l =>
    if (l.serve = .waitPins || l.serve = .touch) && l.out.isEmpty then
      let s := s.openTxn n { l with serve := .fill, holdCycles := s.cfg (Reg.HFP.DS_HOLD n) }
      (s.bump (Reg.HFP.HOLD_EXPIRED_COUNT n)).raise (pgHFP n) 9
    else s
  | none => s

/-- The pins are granted to a port that asks for them, once its buffered commands are replayed (R270, R277): a read that waits is
replayed (R271), unless its hold has lasted longer than DS_HOLD_MAX (R275); a hold of no cycle is none (R273). -/
def pinGrant (s : State) (n cycles : Nat) : State :=
  match (s.port n).live with
  | some l =>
    if s.portOwns n && l.serve ≠ .waitPins || l.touch.isSome || (s.sched (chanRes n)).running.isSome || !(s.port n).wbuf.isEmpty then s
    else
      let s := s.givePins n
      if l.serve ≠ .waitPins then s
      else if s.cfg (Reg.HFP.DS_HOLD n) < cycles then s.holdExpired n
      else
        let hold := cycles + s.lookupWait n (s.opAddressed n l.txn.opcode.toNat) l.mixed
        s.openTxn n { l with serve := .pass, held := decide (0 < hold), holdCycles := hold, out := s.readOut n l.txn l.fillAt }
  | none => s

/-- The channel replays the oldest buffered command under K0, and returns the pins after the last (R277). -/
def wbufReplay (s : State) (n : Nat) : State :=
  match (s.port n).wbuf with
  | [] => s
  | t :: rest =>
    if (s.sched (chanRes n)).running.isSome then s
    else
      let s := (s.hostWrite n t).setPort n { s.port n with wbuf := rest }
      if rest.isEmpty && (match (s.port n).live with | some l => l.touch.isNone | none => true) then (s.givePins n).pumpCh n else s

end State

/-- HOST_TRANSACTION (R288). -/
def execHostTransaction (n : Fin 6) (t : HostTxn) (s : State) : Host.Outcome State Fault Refusal := .next (s.hostTxn n t)

/-- PIN_GRANT (R270); `cycles` is the hold as the host's clock counts it. -/
def execPinGrant (n : Fin 6) (cycles : Nat) (s : State) : Host.Outcome State Fault Refusal := .next (s.pinGrant n cycles)

/-- HOLD_EXPIRED (R275). -/
def execHoldExpired (n : Fin 6) (s : State) : Host.Outcome State Fault Refusal := .next (s.holdExpired n)

/-- WBUF_REPLAY (R277). -/
def execWbufReplay (n : Fin 6) (s : State) : Host.Outcome State Fault Refusal := .next (s.wbufReplay n)

/-- EMU_BUSY_END (R298): WIP reads 0, WEL reads 0, and the fail bit shows; the cycles count only with a chip select low (R261). -/
def execEmuBusyEnd (n : Fin 6) (s : State) : Host.Outcome State Fault Refusal :=
  .next (match (s.port n).emu with
    | some e => if s.csLow n then s.setPort n { s.port n with emu := some { e with wip := false } } else s
    | none => s)

end Sys2Proof.Machine
end

