-- ==== Sys2Proof/Machine/Net.lean ====
section
/-! DEFINITION. Ethernet lanes (R372-R384, R405): links, which lane carries STX, the transmit queue, MACsec protection, firmware's
SEND and RECV. -/

namespace Sys2Proof.Machine

/-! NET block reasons. -/
def ntLANE_DOWN : Nat := 0x40
def ntFW_QUEUE_FULL : Nat := 0x41

/-- One bit of the CRC-32 of IEEE 802.3, reflected. -/
def fcsBit (c : BitVec 32) : BitVec 32 := if c.getLsbD 0 then (c >>> 1) ^^^ 0xEDB88320 else c >>> 1

/-- One byte of it. -/
def fcsByte (c : BitVec 32) (b : Byte) : BitVec 32 :=
  fcsBit (fcsBit (fcsBit (fcsBit (fcsBit (fcsBit (fcsBit (fcsBit (c ^^^ b.zeroExtend 32))))))))

/-- The frame check sequence of a frame, as it is sent. -/
def fcs (f : List Byte) : List Byte := leBytes 4 ((f.foldl fcsByte 0xFFFFFFFF) ^^^ 0xFFFFFFFF).toNat

/-- EtherType of a frame that starts with its two addresses. -/
def etherType (f : List Byte) : Nat := beNat (slice f 12 2)

/-- Bytewise exclusive or. -/
def xorBytes (a b : List Byte) : List Byte := (a.zip b).map (fun p => p.1 ^^^ p.2)

namespace State

/-! ### Links -/

/-- The MAC address of a lane. -/
def laneMac (s : State) (l : Nat) : Nat := s.cfg (Reg.NET.MAC_LO l) + 2 ^ 32 * s.cfg (Reg.NET.MAC_HI l)

/-- ROM runs: image frames come to it (R391). -/
def romRuns (s : State) : Bool := s.boot.phase ≠ .done

/-- The lane is in use: enabled, or NET0 under ROM (R391). -/
def laneOn (s : State) (l : Nat) : Bool := s.up && (s.cfgb (Reg.NET.LANE_CTRL_EN l) || (s.romRuns && l = 0))

/-- LINK_UP of a lane. -/
def linkUp (s : State) (l : Nat) : Bool := s.flag (Reg.NET.LANE_STATUS_LINK_UP l)

/-- The lanes that carry STX (R377, R379): both that are up, or the one that carried as long as it is up, else PRIMARY, else the
other. -/
def carriers (s : State) : List Nat :=
  let ups := [0, 1].filter s.linkUp
  if s.cfgb Reg.NET.MODE_REDUNDANCY then ups
  else match ups.filter (fun l => s.flag (Reg.NET.LANE_STATUS_CARRYING l)) with
    | [l] => [l]
    | _ =>
      let p := s.cfg Reg.NET.MODE_PRIMARY
      if s.linkUp p then [p] else if s.linkUp (1 - p) then [1 - p] else []

/-- Show which lanes carry STX. -/
def showCarrying (s : State) : State :=
  let c := s.carriers
  [0, 1].foldl (fun s l => s.wrb (Reg.NET.LANE_STATUS_CARRYING l) (c.contains l)) s

/-! ### MACsec on transmit (R380, R384) -/

/-- The transmit SC of a lane is in use, in XPN or not, its AN and SAK register. -/
def txSc (l : Nat) : Nat := 2 * l
def scOn (s : State) (sc : Nat) : Bool := s.cfgb (Reg.MSEC.SC_CTRL_EN sc)
def scXpn (s : State) (sc : Nat) : Bool := s.cfgb (Reg.MSEC.SC_CTRL_SUITE sc)
def txAn (s : State) (l : Nat) : Nat := s.rd (Reg.MSEC.SA_STATUS_TX_AN (txSc l))
def txSa (s : State) (l : Nat) : Nat := 8 * l + s.txAn l

/-- NEXT_PN of SAK register `x`, and the last number of its SC. -/
def nextPn (s : State) (x : Nat) : Nat :=
  s.rd (Reg.MSEC.NEXT_PN_LO x) + (if s.scXpn (saSc x) then 2 ^ 32 * s.rd (Reg.MSEC.NEXT_PN_HI x) else 0)
def lastPn (s : State) (x : Nat) : Nat := if s.scXpn (saSc x) then 2 ^ 64 - 1 else 2 ^ 32 - 1

/-- Store NEXT_PN. -/
def setPn (s : State) (x pn : Nat) : State :=
  let s := s.wr (Reg.MSEC.NEXT_PN_LO x) pn
  if s.scXpn (saSc x) then s.wr (Reg.MSEC.NEXT_PN_HI x) (pn / 2 ^ 32) else s

/-- The SCI of an SC. -/
def sci (s : State) (sc : Nat) : Nat := s.cfg (Reg.MSEC.SCI_LO sc) + 2 ^ 32 * s.cfg (Reg.MSEC.SCI_HI sc)

/-- The GCM nonce of a frame: SCI and PN, or under XPN the SSCI and the 64-bit PN with the salt added. -/
def macsecIv (xpn : Bool) (a : Sa) (sci pn : Nat) : List Byte :=
  if xpn then xorBytes (beBytes 4 a.ssci ++ beBytes 8 pn) a.salt else beBytes 8 sci ++ beBytes 4 pn

/-- The SecTAG with its EtherType: SCI present, E and C under confidentiality. -/
def secTag (conf : Bool) (an len pn sci : Nat) : List Byte :=
  beBytes 2 0x88E5 ++ leBytes 1 (0x20 + (if conf then 0x0C else 0) + an) ++ leBytes 1 (if len < 48 then len else 0)
  ++ beBytes 4 (pn % 2 ^ 32) ++ beBytes 8 sci

/-- What is authenticated beside the ciphertext, and the ciphertext (all of the secured data under confidentiality, none of it under
integrity only). -/
def macsecParts (conf : Bool) (head data : List Byte) : List Byte × List Byte := if conf then (head, data) else (head ++ data, [])

/-- The frame as the current transmit SA protects it. -/
def protectFrame (s : State) (l : Nat) (f : List Byte) : List Byte :=
  let x := s.txSa l
  let sc := txSc l
  let a := s.sa x
  let pn := s.nextPn x
  let conf := s.cfgb (Reg.MSEC.SC_CTRL_CONF sc)
  let iv := macsecIv (s.scXpn sc) a (s.sci sc) pn
  let data := f.drop 12
  let tag := secTag conf (s.txAn l) data.length pn (s.sci sc)
  let ct := if conf then aesOut 3 false a.key iv data else []
  let aad := (macsecParts conf (f.take 12 ++ tag) data).1
  f.take 12 ++ tag ++ (if conf then ct else data) ++ digestBytes (Config.gcmTag a.key iv aad ct)

/-- An 802.1Q tag outside the SecTAG (R374). -/
def tagFrame (s : State) (l : Nat) (f : List Byte) : List Byte :=
  if s.cfgb (Reg.NET.LANE_CTRL_TAG_EN l) then
    f.take 12 ++ beBytes 2 0x8100 ++ beBytes 2 (s.cfg (Reg.NET.LANE_CTRL_PCP l) * 2 ^ 13 + s.cfg (Reg.NET.LANE_CTRL_VID l)) ++ f.drop 12
  else f

/-- A frame leaves protected: the SC is enabled and the frame is not of EtherType 0x888E. -/
def protects (s : State) (l : Nat) (f : List Byte) : Bool := s.scOn (txSc l) && etherType f ≠ 0x888E

/-- The current transmit SA can send (R384). -/
def txUsable (s : State) (l : Nat) : Bool :=
  let x := s.txSa l
  (s.sa x).enabled && !(s.sa x).withdrawn && decide (s.nextPn x < s.lastPn x)

/-- A packet number is used up: PN_WARN when 2^PN_WARN remain, PN_EXHAUSTED at the last (R384). -/
def usePn (s : State) (l : Nat) : State :=
  let x := s.txSa l
  let left := s.lastPn x - s.nextPn x
  let w := 2 ^ s.cfg Reg.MSEC.PN_WARN
  let s := s.setPn x (s.nextPn x + 1)
  let s := if w < left && left - 1 ≤ w then s.raise pgMSEC 8 else s
  if left = 1 then (s.raise pgMSEC 9).refuse pgMSEC msPN_EXHAUSTED 0 else s

/-- The first frame of a queue that may leave, and the rest. -/
def takeFirst (p : List Byte → Bool) : List (List Byte) → Option (List Byte × List (List Byte))
  | [] => none
  | f :: fs => if p f then some (f, fs) else (takeFirst p fs).map (fun r => (r.1, f :: r.2))

/-- The lane starts its next frame, where it may (R373, R384, R405). -/
def pumpLane (s : State) (l : Nat) : State :=
  let v := s.lane l
  if !s.laneOn l || !s.linkUp l || v.wire.isSome || s.brace then s
  else match takeFirst (fun f => !s.protects l f || s.txUsable l) v.txq with
    | none => s
    | some (f, rest) =>
      if s.protects l f then
        let w := s.tagFrame l (s.protectFrame l f)
        let an := s.txAn l
        (s.usePn l).setLane l { v with txq := rest, wire := some w, wireAn := some an, spoil := false }
      else s.setLane l { v with txq := rest, wire := some (s.tagFrame l f), wireAn := none, spoil := false }

/-- A frame arrives at the transmit queue of 64; beyond that it is dropped and counted in NO_SA (R384). -/
def sendFrame (s : State) (l : Nat) (f : List Byte) : State :=
  let v := s.lane l
  if 64 ≤ v.txq.length then s.bump (Reg.MSEC.NO_SA (txSc l))
  else (s.setLane l { v with txq := v.txq ++ [f] }).pumpLane l

/-- A frame with STX bytes to a peer (R385). -/
def sendEth (s : State) (l peer : Nat) (bs : List Byte) : State :=
  s.sendFrame l (beBytes 6 peer ++ beBytes 6 (s.laneMac l) ++ beBytes 2 (s.cfg Reg.NET.STX_ETYPE) ++ bs)

/-- The frame on the wire ends (R383): its FCS is inverted where its SA was withdrawn, and the SA is zeroed now. -/
def frameEnd (s : State) (l : Nat) : State :=
  let v := s.lane l
  match v.wire with
  | none => s
  | some f =>
    let padded := f ++ List.replicate (60 - f.length) 0
    let c := fcs padded
    let s := s.setLane l { v with wire := none, wireAn := none, spoil := false, sent := padded ++ (if v.spoil then c.map (fun b => ~~~ b) else c) }
    let s := s.bump (Reg.NET.TX_FRAMES l)
    let s := match v.wireAn with
      | some an => if (s.sa (8 * l + an)).withdrawn then s.saWithdrawn (8 * l + an) else s
      | none => s
    s.pumpLane l

/-! ### Links come and go (R373, R377-R379) -/

/-- Sessions move from a lane to the other (R377, R378); FAILOVER where one moves. -/
def repin (s : State) (l : Nat) : State :=
  let hit := (Tbl.keys s.stx.sessions).filter (fun i =>
    let c := Tbl.get Sess.idle s.stx.sessions i
    c.medium = l && c.state ≠ 0)
  if hit.isEmpty then s
  else
    let t := hit.foldl (fun t i => Tbl.upd Sess.idle t i (fun c => { c with medium := 1 - l })) s.stx.sessions
    ({ s with stx := { s.stx with sessions := t } }).raise pgNET 10

/-- LINK_UP_HOLD has passed (R373). -/
def linkRises (s : State) (l : Nat) : State :=
  if s.laneOn l && !s.linkUp l && s.flag (Reg.NET.LANE_STATUS_BLOCK_LOCK l) && !s.flag (Reg.NET.LANE_STATUS_HI_BER l) then
    (((s.wr (Reg.NET.LANE_STATUS_LINK_UP l) 1).raise pgNET 9).showCarrying).pumpLane l
  else s

/-- The lane is down. -/
def linkFalls (s : State) (l : Nat) : State :=
  let was := s.flag (Reg.NET.LANE_STATUS_CARRYING l)
  let s := (((s.wr (Reg.NET.LANE_STATUS_LINK_UP l) 0).bump (Reg.NET.LINK_DOWN_COUNT l)).raise pgNET 8).showCarrying
  if was && s.linkUp (1 - l) then s.repin l else s

/-- A lane loses its lock and its link (R406, or a lane that is switched off). -/
def laneOff (s : State) (l : Nat) : State :=
  ((s.wr (Reg.NET.LANE_STATUS_BLOCK_LOCK l) 0).wr (Reg.NET.LANE_STATUS_HI_BER l) 0).wr (Reg.NET.LANE_STATUS_LINK_UP l) 0

/-- The lanes that are off have no link, and the carrying lanes are chosen. -/
def lanesFollow (s : State) : State :=
  let s := [0, 1].foldl (fun s l => if s.laneOn l then s else s.laneOff l) s
  (s.showCarrying.pumpLane 0).pumpLane 1

/-- The NET page applies: the link of a lane that it switches off falls first (R373, R378). -/
def netApplied (s : State) : State :=
  ([0, 1].foldl (fun s l => if s.laneOn l || !s.linkUp l then s else s.linkFalls l) s).lanesFollow

/-! ### Firmware -/

/-- Record a refusal of NET CMD. -/
def netRefuse (s : State) (code : Nat) : State := s.refuse pgNET code 0x50

/-- The length of a firmware frame on the wire, FCS included. -/
def wireLen (s : State) (l : Nat) (f : List Byte) : Nat :=
  max 64 (f.length + 4 + (if s.cfgb (Reg.NET.LANE_CTRL_TAG_EN l) then 4 else 0) + (if s.protects l f then 32 else 0))

/-- SEND, when it starts: a frame from its destination address to its last payload byte (R375, R384). -/
def startNetSend (addr : Nat) (s : State) : State :=
  let l := s.sramLe addr 1
  let a := s.sramLe (addr + 4) 4
  let n := s.sramLe (addr + 8) 4
  if !inSram addr 12 || 1 < l || s.sramLe (addr + 1) 3 ≠ 0 || n < 14 || 2044 < n || !inSram a n then s.netRefuse Reason.FIELD_RANGE
  else if 2048 < s.wireLen l (s.sramBytes a n) then s.netRefuse Reason.FIELD_RANGE
  else if !s.laneOn l || !s.linkUp l then s.netRefuse ntLANE_DOWN
  else if 64 ≤ (s.lane l).txq.length then (s.sendFrame l (s.sramBytes a n)).netRefuse ntFW_QUEUE_FULL
  else s.sendFrame l (s.sramBytes a n)

/-- RECV, when it starts: the oldest frame of the firmware queue, cut at the buffer, and its length in the descriptor; an empty queue
gives length 0. -/
def startNetRecv (addr : Nat) (s : State) : State :=
  let l := s.sramLe addr 1
  let a := s.sramLe (addr + 4) 4
  let n := s.sramLe (addr + 8) 4
  if !inSram addr 12 || 1 < l || s.sramLe (addr + 1) 3 ≠ 0 || !inSram a n then s.netRefuse Reason.FIELD_RANGE
  else match (s.lane l).rxq with
    | [] => s.sramStore (addr + 8) (leBytes 4 0)
    | f :: fs => ((s.sramStore a (f.take n)).sramStore (addr + 8) (leBytes 4 f.length)).setLane l { s.lane l with rxq := fs }

/-- ENABLE, when it starts; frames that waited for this SA leave (R382, R384). -/
def startEnable (x : Nat) (s : State) : State := (startSaEnable x s).pumpLane (saLane x)

/-- SET_TX_AN, when it starts: it names a transmit SA (R384). -/
def startSetTxAn (x : Nat) (s : State) : State :=
  if 16 ≤ x || saDir x = 1 then s.saRefuse Reason.FIELD_RANGE
  else (s.wr (Reg.MSEC.SA_STATUS_TX_AN (saSc x)) (x % 4)).pumpLane (saLane x)

end State

/-- LANE_STATUS_CHANGE (R373): BLOCK_LOCK and HI_BER as the PCS finds them. -/
def execLaneStatusChange (l : Fin 2) (lock hiBer : Bool) (s : State) : Host.Outcome State Fault Refusal :=
  .next (if s.laneOn l then
    (s.wrb (Reg.NET.LANE_STATUS_BLOCK_LOCK l) lock).wrb (Reg.NET.LANE_STATUS_HI_BER l) hiBer else s)

/-- LINK_UP (R373). -/
def execLinkUp (l : Fin 2) (s : State) : Host.Outcome State Fault Refusal := .next (s.linkRises l)

/-- LINK_DOWN (R373, R377): a condition has failed for LINK_DOWN_HOLD. -/
def execLinkDown (l : Fin 2) (s : State) : Host.Outcome State Fault Refusal :=
  .next (if s.linkUp l && !(s.flag (Reg.NET.LANE_STATUS_BLOCK_LOCK l) && !s.flag (Reg.NET.LANE_STATUS_HI_BER l)) then s.linkFalls l else s)

/-- NET_SEND (R375): NET CMD with OP 1. -/
def execNetSend (addr : Nat) (s : State) : Host.Outcome State Fault Refusal :=
  .next (s.issue pgNET 0x50 (.netSend addr) (State.startNetSend addr))

/-- NET_RECV (R375): OP 2. -/
def execNetRecv (addr : Nat) (s : State) : Host.Outcome State Fault Refusal :=
  .next (s.issue pgNET 0x50 (.netRecv addr) (State.startNetRecv addr))

/-- ENABLE (R382): SA_CMD with OP 4. -/
def execEnable (x : Nat) (s : State) : Host.Outcome State Fault Refusal :=
  .next (s.issue pgMSEC 0x140 (.enable x) (State.startEnable x))

/-- SET_TX_AN (R384): OP 6. -/
def execSetTxAn (x : Nat) (s : State) : Host.Outcome State Fault Refusal :=
  .next (s.issue pgMSEC 0x140 (.setTxAn x) (State.startSetTxAn x))

/-- TX_FRAME_END (R383, R384): the frame on the wire of a lane has left. -/
def execTxFrameEnd (l : Fin 2) (s : State) : Host.Outcome State Fault Refusal := .next (s.frameEnd l)

end Sys2Proof.Machine
end

