-- ==== Sys2Proof/Machine/Can.lean ====
section
/-! DEFINITION. CAN ports (R392-R396): ISO 15765-2 on transmit, bus-off, firmware's SEND, RECV and RECOVER. -/

namespace Sys2Proof.Machine

/-! CAN block reasons. -/
def cnBUS_OFF : Nat := 0x40
def cnID_RESERVED : Nat := 0x41

/-- Data lengths a CAN FD frame can have. -/
def canLens : List Nat := [0, 1, 2, 3, 4, 5, 6, 7, 8, 12, 16, 20, 24, 32, 48, 64]

/-- Pad to the next length of at least 8 bytes that a frame can have (R394). -/
def canPad (pad : Byte) (d : List Byte) : List Byte :=
  let n := ((canLens.filter (fun n => decide (8 ≤ n) && decide (d.length ≤ n))).head?).getD 64
  d ++ List.replicate (n - d.length) pad

namespace State

/-- A CAN port. -/
def can (s : State) (p : Nat) : CanPort := Tbl.get CanPort.idle s.cans p
def setCan (s : State) (p : Nat) (v : CanPort) : State := { s with cans := Tbl.put CanPort.idle s.cans p v }

/-- ROM has CAN0 (R392). -/
def romCan (s : State) (p : Nat) : Bool := s.romRuns && p = 0

/-- The port is on the bus. -/
def canUp (s : State) (p : Nat) : Bool :=
  s.up && ((s.cfgb (Reg.CAN.CAN_CTRL_EN p) && s.rd (Reg.CAN.BUS_STATUS_STATE p) ≠ 2) || s.romCan p)

/-- Frames go onto the bus; the last 64 are held. -/
def canPut (s : State) (p : Nat) (fs : List CanFrame) : State :=
  let b := (s.can p).bus ++ fs
  (s.setCan p { s.can p with bus := b.drop (b.length - 64) }).bumpBy (Reg.CAN.TX_FRAMES p) fs.length

/-- The identifier of a frame to a peer (R394). -/
def tpId (s : State) (p peer : Nat) : Nat :=
  s.cfg (Reg.CAN.TP_BASE_TX_BASE p) * 2 ^ 16 + peer * 256 + s.cfg (Reg.CAN.TP_ADDR_OWN p)

/-- A padded frame of ISO 15765-2 to a peer. -/
def tpFrame (s : State) (p peer : Nat) (d : List Byte) : CanFrame :=
  ⟨true, s.tpId p peer, canPad (BitVec.ofNat 8 (s.cfg (Reg.CAN.CAN_CTRL_PAD p))) d⟩

/-- Bytes of a frame: TX_DL. -/
def txDl (s : State) (p : Nat) : Nat := [8, 12, 16, 20, 24, 32, 48, 64].getD (s.cfg (Reg.CAN.CAN_CTRL_TX_DL p)) 64

/-- The first message for a peer starts: a single frame, which ends it, or a first frame, after which a flow control is awaited. -/
def tpStart (s : State) (p : Nat) (t : TpTx) : State × Option TpTx :=
  let n := t.rest.length
  let dl := s.txDl p
  if n ≤ 7 then (s.canPut p [s.tpFrame p t.peer (leBytes 1 n ++ t.rest)], none)
  else if 8 < dl && n ≤ dl - 2 then (s.canPut p [s.tpFrame p t.peer (0 :: leBytes 1 n ++ t.rest)], none)
  else
    let head := leBytes 1 (0x10 + n / 256) ++ leBytes 1 n
    (s.canPut p [s.tpFrame p t.peer (head ++ t.rest.take (dl - 2))],
     some { t with rest := t.rest.drop (dl - 2), sn := 1, waitFc := true })

/-- Replace the first message to a peer, or take it off. -/
def tpReplace (peer : Nat) (v : Option TpTx) : List TpTx → List TpTx
  | [] => []
  | t :: ts => if t.peer = peer then (match v with | some x => x :: ts | none => ts) else t :: tpReplace peer v ts

/-- The next waiting messages to a peer start, until one awaits a flow control. -/
def tpNext (p peer : Nat) : Nat → State → State
  | 0, s => s
  | k + 1, s =>
    match (s.can p).tx.find? (fun t => t.peer = peer) with
    | none => s
    | some t =>
      let r := s.tpStart p t
      let s := r.1.setCan p { r.1.can p with tx := tpReplace peer r.2 (r.1.can p).tx }
      match r.2 with
      | some _ => s
      | none => tpNext p peer k s

/-- A message to a peer (R394): at most 16 at once; a further one is not sent, and retransmission recovers it. -/
def sendCan (s : State) (p peer : Nat) (bs : List Byte) : State :=
  if !s.canUp p || 16 ≤ (s.can p).tx.length then s
  else
    let idle := !(s.can p).tx.any (fun t => t.peer = peer)
    let s := s.setCan p { s.can p with tx := (s.can p).tx ++ [⟨peer, bs, 0, false, 0, false⟩] }
    if idle then tpNext p peer 16 s else s

/-- One consecutive frame of the message to a peer that is under way. -/
def tpStep (s : State) (p : Nat) (t : TpTx) : State :=
  if t.waitFc || t.sn = 0 then s
  else
    let dl := s.txDl p
    let s := s.canPut p [s.tpFrame p t.peer (leBytes 1 (0x20 + t.sn % 16) ++ t.rest.take (dl - 1))]
    let rest := t.rest.drop (dl - 1)
    if rest.isEmpty then
      let s := s.setCan p { s.can p with tx := tpReplace t.peer none (s.can p).tx }
      tpNext p t.peer 16 s
    else
      let left := t.left - 1
      let t := { t with rest := rest, sn := (if t.sn = 15 then 16 else t.sn % 16 + 1), left := left, waitFc := t.limited && decide (left = 0) }
      s.setCan p { s.can p with tx := tpReplace t.peer (some t) (s.can p).tx }

/-- The messages under way, one per peer. -/
def tpHeads (ts : List TpTx) : List TpTx :=
  ts.foldl (fun acc t => if acc.any (fun a => a.peer = t.peer) then acc else acc ++ [t]) []

/-- The separation time has passed: every message under way sends its next frame. -/
def tpTick (s : State) (p : Nat) : State := (tpHeads (s.can p).tx).foldl (fun s t => s.tpStep p t) s

/-- A flow control from a peer: 0 clear to send, 1 wait, 2 overflow, which ends the message. -/
def tpFlow (s : State) (p peer st bs : Nat) : State :=
  match (s.can p).tx.find? (fun t => t.peer = peer) with
  | none => s
  | some t =>
    if !t.waitFc then s
    else if st = 0 then
      let t := { t with waitFc := false, left := bs, limited := decide (bs ≠ 0) }
      (s.setCan p { s.can p with tx := tpReplace peer (some t) (s.can p).tx }).tpStep p t
    else if st = 1 then s
    else
      let s := s.setCan p { s.can p with tx := tpReplace peer none (s.can p).tx }
      tpNext p peer 16 ((s.bump (Reg.CAN.TP_ABORT_COUNT p)).raise pgCAN 9)

/-- N_Bs or N_Cr expires: the message that waited longest is aborted and counted (R394). -/
def tpAbort (s : State) (p : Nat) (rx : Bool) : State :=
  if rx then
    match (s.can p).rx with
    | [] => s
    | _ :: rs => ((s.setCan p { s.can p with rx := rs }).bump (Reg.CAN.TP_ABORT_COUNT p)).raise pgCAN 9
  else
    match (s.can p).tx.find? (fun t => t.waitFc) with
    | none => s
    | some t =>
      let s := s.setCan p { s.can p with tx := tpReplace t.peer none (s.can p).tx }
      tpNext p t.peer 16 ((s.bump (Reg.CAN.TP_ABORT_COUNT p)).raise pgCAN 9)

/-- Bus-off (R396): every transmission is aborted. -/
def busOff (s : State) (p : Nat) : State :=
  if s.canUp p && !s.romCan p then
    let n := (s.can p).tx.length
    let s := s.setCan p { s.can p with tx := [], recovering := s.cfgb (Reg.CAN.CAN_CTRL_AUTO_RECOVER p) }
    let s := (s.wr (Reg.CAN.BUS_STATUS_STATE p) 2).bump (Reg.CAN.BUS_OFF_COUNT p)
    let s := if n = 0 then s else (s.bumpBy (Reg.CAN.TP_ABORT_COUNT p) n).raise pgCAN 9
    s.raise pgCAN 8
  else s

/-- The port rejoins after 128 occurrences of 11 recessive bits (R396). -/
def busBack (s : State) (p : Nat) : State :=
  if s.up && (s.can p).recovering then
    (((s.setCan p { s.can p with recovering := false }).wr (Reg.CAN.BUS_STATUS_STATE p) 0).wr (Reg.CAN.BUS_STATUS_TEC p) 0).wr
      (Reg.CAN.BUS_STATUS_REC p) 0
  else s

/-- A port leaves the bus and loses its queues (R406, or a port that is disabled). -/
def canOff (s : State) (p : Nat) : State := (s.setCan p CanPort.idle).wr (Reg.CAN.BUS_STATUS_STATE p) 2

/-- The CAN page applies: a port that was disabled joins the bus, one that is disabled leaves it. -/
def canApplied (old s : State) : State :=
  [0, 1].foldl (fun s p =>
    if !s.cfgb (Reg.CAN.CAN_CTRL_EN p) then s.canOff p
    else if old.cfgb (Reg.CAN.CAN_CTRL_EN p) then s else s.wr (Reg.CAN.BUS_STATUS_STATE p) 0) s

/-- Record a refusal of CAN CMD. -/
def canRefuse (s : State) (code : Nat) : State := s.refuse pgCAN code 0x140

/-- An identifier lies in the STX space of a port (R394, R395). -/
def stxSpace (s : State) (p : Nat) (ext : Bool) (id : Nat) : Bool :=
  ext && (id / 2 ^ 16 = s.cfg (Reg.CAN.TP_BASE_RX_BASE p) || id / 2 ^ 16 = s.cfg (Reg.CAN.TP_BASE_TX_BASE p))

/-- SEND, when it starts: the frame's identifier (bit 31 extended), length, three reserved bytes and data lie at the address. -/
def startCanSend (p : Fin 2) (addr : Nat) (s : State) : State :=
  let w := s.sramLe addr 4
  let ext := decide (2 ^ 31 ≤ w)
  let id := w % 2 ^ 31
  let n := s.sramLe (addr + 4) 1
  if !inSram addr 72 || s.sramLe (addr + 5) 3 ≠ 0 || !canLens.contains n || (if ext then 2 ^ 29 else 2 ^ 11) ≤ id then s.canRefuse Reason.FIELD_RANGE
  else if s.stxSpace p ext id then s.canRefuse cnID_RESERVED
  else if !s.canUp p then s.canRefuse cnBUS_OFF
  else s.canPut p [⟨ext, id, s.sramBytes (addr + 8) n⟩]

/-- RECV, when it starts: the oldest frame of the firmware queue in the same form; an empty queue gives length 0xFF. -/
def startCanRecv (p : Fin 2) (addr : Nat) (s : State) : State :=
  if !inSram addr 72 then s.canRefuse Reason.FIELD_RANGE
  else match (s.can p).fwq with
    | [] => s.sramStore (addr + 4) [0xFF]
    | f :: fs =>
      (s.sramStore addr (leBytes 4 ((if f.extended then 2 ^ 31 else 0) + f.id) ++ leBytes 1 f.data.length ++ leBytes 3 0 ++ f.data)).setCan p
        { s.can p with fwq := fs }

/-- RECOVER, when it starts (R396): a port that is off the bus and enabled begins to rejoin. -/
def startRecover (p : Fin 2) (s : State) : State :=
  if s.cfgb (Reg.CAN.CAN_CTRL_EN p) && s.rd (Reg.CAN.BUS_STATUS_STATE p) = 2 then s.setCan p { s.can p with recovering := true } else s

end State

/-- TP_TIMEOUT (R394): N_Cr of a message being received, or N_Bs of one being sent. -/
def execTpTimeout (p : Fin 2) (rx : Bool) (s : State) : Host.Outcome State Fault Refusal := .next (s.tpAbort p rx)

/-- BUS_OFF (R396). -/
def execBusOff (p : Fin 2) (s : State) : Host.Outcome State Fault Refusal := .next (s.busOff p)

/-- BUS_OFF_RECOVERED (R396). -/
def execBusOffRecovered (p : Fin 2) (s : State) : Host.Outcome State Fault Refusal := .next (s.busBack p)

/-- CAN_SEND (R395): CAN CMD with OP 1. -/
def execCanSend (p : Fin 2) (addr : Nat) (s : State) : Host.Outcome State Fault Refusal :=
  .next (s.issue pgCAN 0x140 (.canSend p addr) (State.startCanSend p addr))

/-- CAN_RECV (R395): OP 2. -/
def execCanRecv (p : Fin 2) (addr : Nat) (s : State) : Host.Outcome State Fault Refusal :=
  .next (s.issue pgCAN 0x140 (.canRecv p addr) (State.startCanRecv p addr))

/-- RECOVER (R396): OP 3. -/
def execRecover (p : Fin 2) (s : State) : Host.Outcome State Fault Refusal :=
  .next (s.issue pgCAN 0x140 (.recover p) (State.startRecover p))

/-- STMIN_EXPIRY (R394): the separation time of the messages under way has passed. -/
def execStminExpiry (p : Fin 2) (s : State) : Host.Outcome State Fault Refusal :=
  .next (if s.canUp p then s.tpTick p else s)

end Sys2Proof.Machine
end

