-- ==== Sys2Proof/Machine/Staging.lean ====
section
/-! DEFINITION. Snooped staging on a port (chapter 10): OPEN, ARM, SWEEP, COMMIT, ABORT, the read-back sweep. -/

namespace Sys2Proof.Machine

/-! POL block reasons of staging. -/
def poSTAGE_STATE : Nat := 0x44
def poHOST_STATE : Nat := 0x45
def poNO_STEER : Nat := 0x46
def poLEAF_FORMAT : Nat := 0x47
def poLEAF_DIGEST : Nat := 0x48
def poMANIFEST_CHANGED : Nat := 0x49
def poSEQUENCE_NOT_HIGHER : Nat := 0x4A
def poSWEEP_FAIL : Nat := 0x4B
def poADDRESS_RANGE : Nat := 0x4D

/-- Offset of STAGE_CTRL. -/
def stageOff : Nat := 0x64

namespace State

/-- The staging of port `n`. -/
def stage (s : State) (n : Nat) : Stage := Tbl.get Stage.none s.stages n
def setStage (s : State) (n : Nat) (g : Stage) : State := { s with stages := Tbl.put Stage.none s.stages n g }

/-- STAGE_STATE.STATE. -/
def stageSt (s : State) (n : Nat) : Nat := s.rd (Reg.POL.STAGE_STATE_STATE n)
def setStageSt (s : State) (n v : Nat) : State := s.wr (Reg.POL.STAGE_STATE_STATE n) v

/-- A staging command is refused; the command ends. -/
def stageRefuse (s : State) (n code : Nat) : State := (s.refuse (pgPOL n) code stageOff).cmdEnd (pgPOL n) stageOff

/-- OPEN's effect (R306): the inactive slot's record is voided, then the latch is set. -/
def stageOpenNow (s : State) (n : Nat) : State :=
  let sl := s.inactiveSlot n
  let s := s.voidNow n sl
  let s := ((s.wr (Reg.POL.STAGE_STATE_SLOT n) sl).wr (Reg.POL.STAGE_STATE_LATCH n) 1).setStageSt n 1
  (s.setStage n Stage.none).cmdEnd (pgPOL n) stageOff

/-- OPEN, when it starts (R306); Brace defers the program (R313). -/
def startStageOpen (n : Fin 6) (s : State) : State :=
  if s.mode.phase = .seal then s.stageRefuse n Reason.NOT_IN_MODE
  else if !s.cfgb (Reg.POL.STEER_EN n) then s.stageRefuse n poNO_STEER
  else if !s.released n then s.stageRefuse n poHOST_STATE
  else if 1 ≤ s.stageSt n && s.stageSt n ≤ 3 then s.stageRefuse n poSTAGE_STATE
  else
    let s := s.disarmLaneH n 1
    if s.brace then { s.cmdStart (pgPOL n) stageOff (.stageOpen n) with deferred := s.deferred ++ [.stageOpen n] }
    else s.stageOpenNow n

/-- The manifest copy that a descriptor names. -/
def sdManifest (s : State) (a : Nat) : List Byte := s.sramBytes (s.sramLe a 4) manifestLen

/-- The descriptor, the manifest copy and the leaf-table copy lie in main SRAM (R307). -/
def stageRangeOk (s : State) (a : Nat) : Bool :=
  inSram a 8 && inSram (s.sramLe a 4) manifestLen
  && inSram (s.sramLe (a + 4) 4) (mfBlocks (s.sdManifest a) * mfLeafLen (s.sdManifest a))

/-- The leaf-table copy agrees with the manifest's digest. -/
def stageLeafOk (s : State) (a : Nat) : Bool :=
  let m := s.sdManifest a
  Config.sha384 (s.sramBytes (s.sramLe (a + 4) 4) (mfBlocks m * mfLeafLen m)) = mfLeafDigest m

/-- The SNP staging window of a port, in 4 KiB units, lies inside a STAGING region. -/
def windowStaged (s : State) (n : Nat) : Bool :=
  let b := s.cfg (Reg.SNP.STAGE_BASE n)
  let z := s.cfg (Reg.SNP.STAGE_SIZE n)
  (List.range 256).any (fun i => s.cfg (Reg.POL.REGION_SIZE n i) ≠ 0 && s.cfgb (Reg.POL.REGION_ATTR_STAGING n i)
    && decide (s.cfg (Reg.POL.REGION_BASE n i) ≤ b)
    && decide (b + z ≤ s.cfg (Reg.POL.REGION_BASE n i) + s.cfg (Reg.POL.REGION_SIZE n i)))

/-- The checks of ARM before the leaf-table digest (R305, R307). -/
def armEarly (s : State) (n a : Nat) : Option Nat :=
  let m := s.sdManifest a
  if s.stageSt n ≠ 1 then some poSTAGE_STATE
  else if !s.stageRangeOk a then some poADDRESS_RANGE
  else if slice m 0 4 ≠ [0x41, 0x45, 0x4C, 0x53] || fieldLe m 4 2 ≠ 1 || fieldLe m 6 2 ≠ 2 then some poLEAF_FORMAT
  else if mfBlockLog2 m ≠ (if s.cfgb (Reg.SNP.MODE_STAGE_BLOCK n) then 12 else 10)
      || s.cfg (Reg.SNP.MODE_STAGE_ALG n) ≠ b2n (mfLeafSha384 m) then some poLEAF_FORMAT
  else if s.cfg (Reg.SNP.STAGE_SIZE n) * 4096 < mfBlocks m * 2 ^ mfBlockLog2 m then some Reason.FIELD_RANGE
  else none

/-- The first failing check of ARM (R305, R307). -/
def armFault (s : State) (n a : Nat) : Option Nat :=
  match s.armEarly n a with
  | some r => some r
  | none =>
  if !s.stageLeafOk a then some poLEAF_DIGEST
  else if !s.windowStaged n then some Reason.CONFLICT_WITH_PAGE
  else none

/-- ARM's verdict and effect (R307); the leaf table is hashed on a DGE, for which ARM waits, in Brace too (R232). -/
def stageArmNow (s : State) (n addr : Nat) : State :=
  match s.armEarly n addr with
  | some r => s.stageRefuse n r
  | none =>
    if !s.dgeFree then { s with deferred := s.deferred ++ [.stageArm n addr] }
    else
      let fault := s.armFault n addr
      let s := s.hashOn n (s.stageLeafOk addr)
      match fault with
      | some r => s.stageRefuse n r
      | none =>
        let t := s.sramLe (addr + 4) 4
        let s := (s.wr (Reg.POL.STAGE_SEQ n) (mfSequence (s.sdManifest addr))).setStage n { Stage.none with manifest := s.sramLe addr 4, leafTable := t }
        ((s.armLaneH n t).setStageSt n 2).cmdEnd (pgPOL n) stageOff

/-- ARM, when it starts (R307). -/
def startStageArm (n : Fin 6) (addr : Nat) (s : State) : State := (s.cmdStart (pgPOL n) stageOff (.stageArm n addr)).stageArmNow n addr

/-- The number of image blocks of the armed manifest, and their length. -/
def stageBlocks (s : State) (n : Nat) : Nat := mfBlocks (s.sramBytes (s.stage n).manifest manifestLen)
def stageBlock (s : State) (n : Nat) : Nat := max 512 (s.snpOf n).block

/-- SWEEP, when it starts (R308): the latch is cleared and the read-back asked for. -/
def startSweep (n : Fin 6) (s : State) : State :=
  if s.stageSt n ≠ 2 then s.stageRefuse n poSTAGE_STATE
  else
    let s := (s.wr (Reg.POL.STAGE_STATE_LATCH n) 0).setStageSt n 3
    let s := s.setStage n { s.stage n with acc := [], retries := 0, verdict := if s.stageBlocks n = 0 then some true else none }
    if s.stageBlocks n = 0 then s else s.enqueue (chanRes n) ⟨.stageSweep, 4, 4, n, 0, 0, 0, []⟩

/-- Staging ends FAILED without a change of lane H, its reason as a whole code. -/
def sweepFail (s : State) (n code : Nat) : State :=
  let s := ((s.wr (Reg.POL.STAGE_STATE_LATCH n) 0).setStageSt n 6).raise (pgPOL n) 12
  (s.wr (Hdr.REASON_CODE (pgPOL n)) code).wr (Hdr.REASON_OFFSET (pgPOL n)) stageOff

/-- A burst of the read-back sweep has ended: at the end of a block it is compared with its leaf and read again up to three
times (R308, R352). -/
def sweepServed (s : State) (n : Nat) (r : Req) (corrupt : Bool) : State :=
  let sl := s.rd (Reg.POL.STAGE_STATE_SLOT n)
  let d := s.delivered corrupt (s.slotBytes n sl (s.imageOff n + r.pos) 512)
  let s := d.1
  let g := s.stage n
  let acc := g.acc ++ d.2
  let blk := s.stageBlock n
  if acc.length < blk then (s.setStage n { g with acc := acc }).requeue n { r with pos := r.pos + 512 }
  else
    let p := s.snpOf n
    let i := r.pos / blk
    if shaBytes p.alg acc = s.sramBytes (g.leafTable + shaLen p.alg * i) (shaLen p.alg) then
      if i + 1 = s.stageBlocks n then s.setStage n { g with acc := [], retries := 0, verdict := some true }
      else (s.setStage n { g with acc := [], retries := 0 }).requeue n { r with pos := r.pos + 512 }
    else if g.retries < 3 then
      ((s.bump (Reg.FCH.RETRY_COUNT n)).setStage n { g with acc := [], retries := g.retries + 1 }).requeue n { r with pos := i * blk }
    else (s.readFailed n).setStage n { g with acc := [], retries := 0, verdict := some false }

/-- The sweep's end (R308); the failure pair of a lane H that was disarmed meanwhile stands (R229). -/
def sweepEnd (s : State) (n : Nat) : State :=
  match (s.stage n).verdict with
  | none => s
  | some good =>
    if s.stageSt n ≠ 3 then s
    else
      let s := s.setStage n { s.stage n with verdict := none }
      if good && s.rd (Reg.SNP.STAGE_FAIL n) = 0 && s.armed n then
        let s := (s.wr (Reg.SNP.STAGE_MATCH n) matchOK).wr (Reg.SNP.STAGE_MATCH_N n) matchNOK
        (s.setStageSt n 4).raise (pgPOL n) 10
      else s.sweepFail n (pgPOL n * 256 + poSWEEP_FAIL)

/-- The sequence rule of COMMIT (R309). -/
def commitSeqOk (s : State) (n seq : Nat) : Bool :=
  sequenceValid seq && (match s.currentRec n (s.activeSlot n) with | some r => decide (r.seq < seq) | none => true)

/-- COMMIT, when it starts (R309): its first two checks, then the slot's manifest is read under K4.  A pair that is no verdict shows as
COMPARE_FAULT (R219) on the page of DGE0, since the SNP page has no such event (DESIGN CHOICE; log entry 142). -/
def startCommit (n : Fin 6) (addr : Nat) (s : State) : State :=
  let s := s.judgePair (pgDGE 0) (s.rd (Reg.SNP.STAGE_MATCH n)) (s.rd (Reg.SNP.STAGE_MATCH_N n))
  if s.stageSt n ≠ 4 || !pairGood (s.rd (Reg.SNP.STAGE_MATCH n)) (s.rd (Reg.SNP.STAGE_MATCH_N n)) then s.stageRefuse n poSTAGE_STATE
  else if !s.stageRangeOk addr then s.stageRefuse n poADDRESS_RANGE
  else
    let s := s.setStage n { s.stage n with acc := [] }
    (s.cmdStart (pgPOL n) stageOff (.commit n addr)).enqueue (chanRes n) ⟨.stageSweep, 4, 4, n, addr, 0, 0, []⟩

/-- COMMIT's effect: the record, lane H disarmed, COMMITTED. -/
def commitNow (s : State) (n addr : Nat) : State :=
  let m := s.sdManifest addr
  let s := s.appendNow ⟨n, s.rd (Reg.POL.STAGE_STATE_SLOT n), mfSvn m, mfSequence m, Config.sha384 m, true, BitVec.allOnes 64⟩
  (((s.disarmLaneH n 1).setStageSt n 5).raise (pgPOL n) 11).cmdEnd (pgPOL n) stageOff

/-- The last two checks of COMMIT; the leaf table is hashed on a DGE, for which COMMIT waits, and Brace defers both it and the record
(R232, R313). -/
def commitCheck (s : State) (n addr : Nat) : State :=
  if !s.dgeFree then { s with deferred := s.deferred ++ [.stageCheck n addr] }
  else
    let s := s.hashOn n (s.stageLeafOk addr)
    if !s.stageLeafOk addr then s.stageRefuse n poLEAF_DIGEST
    else if !s.commitSeqOk n (mfSequence (s.sdManifest addr)) then s.stageRefuse n poSEQUENCE_NOT_HIGHER
    else s.commitNow n addr

/-- The checks of COMMIT on the manifest that was read. -/
def commitFinish (s : State) (n addr : Nat) (m : List Byte) : State :=
  if m ≠ s.sdManifest addr then s.stageRefuse n poMANIFEST_CHANGED else s.commitCheck n addr

/-- A burst of COMMIT's manifest read has ended. -/
def commitServed (s : State) (n : Nat) (r : Req) (corrupt : Bool) : State :=
  let k := min 512 (manifestLen - r.pos)
  let d := s.delivered corrupt (s.slotBytes n (s.rd (Reg.POL.STAGE_STATE_SLOT n)) r.pos k)
  let acc := (d.1.stage n).acc ++ d.2
  let s := d.1.setStage n { d.1.stage n with acc := if r.pos + k < manifestLen then acc else [] }
  if r.pos + k < manifestLen then s.requeue n { r with pos := r.pos + k } else s.commitFinish n r.addr acc

/-- A staging request's read ends for good without data (R308, R309, R352). -/
def stageReadFail (s : State) (n : Nat) (r : Req) : State :=
  let code := pgFCH n * 256 + 0x40
  if r.addr ≠ 0 then
    let s := (s.wr (Hdr.REASON_CODE (pgPOL n)) code).wr (Hdr.REASON_OFFSET (pgPOL n)) stageOff
    s.cmdEnd (pgPOL n) stageOff
  else s.sweepFail n code

/-- Staging of a port stops: lane H disarmed with a cause, latch cleared, IDLE (R312, R56). -/
def stageStop (s : State) (n cause : Nat) : State :=
  let s := (s.disarmLaneH n cause).wr (Reg.POL.STAGE_STATE_LATCH n) 0
  let s := { (s.setStageSt n 0).setStage n Stage.none with
    deferred := s.deferred.filter (fun d => match d with | .stageOpen k => k ≠ n | .stageCheck k _ => k ≠ n | .stageArm k _ => k ≠ n | .void _ _ => true) }
  (s.cmdDrop (pgPOL n) stageOff).dropIssuer n [.stageSweep]

end State

/-- OPEN (R306): STAGE_CTRL with OP 1. -/
def execStageOpen (n : Fin 6) (s : State) : Host.Outcome State Fault Refusal :=
  .next (s.issue (pgPOL n) stageOff (.stageOpen n) (State.startStageOpen n))

/-- ARM (R307): OP 2. -/
def execStageArm (n : Fin 6) (addr : Nat) (s : State) : Host.Outcome State Fault Refusal :=
  .next (s.issue (pgPOL n) stageOff (.stageArm n addr) (State.startStageArm n addr))

/-- SWEEP (R308): OP 3. -/
def execSweep (n : Fin 6) (s : State) : Host.Outcome State Fault Refusal :=
  .next (s.issue (pgPOL n) stageOff (.sweep n) (State.startSweep n))

/-- STAGING_SWEEP_DONE (R308). -/
def execStagingSweepDone (n : Fin 6) (s : State) : Host.Outcome State Fault Refusal := .next (s.sweepEnd n)

/-- COMMIT (R309): OP 4. -/
def execCommit (n : Fin 6) (addr : Nat) (s : State) : Host.Outcome State Fault Refusal :=
  .next (s.issue (pgPOL n) stageOff (.commit n addr) (State.startCommit n addr))

/-- STAGE_ABORT (R312): OP 5, accepted in every state and never queued. -/
def execStageAbort (n : Fin 6) (s : State) : Host.Outcome State Fault Refusal := .next (if s.up then s.stageStop n 1 else s)

end Sys2Proof.Machine
end

