-- ==== Sys2Proof/Machine/Release.lean ====
section
/-! DEFINITION. Host release, escort verification and recovery (chapter 11): HOST_CMD, the steps of GATE, release, first touches,
the background sweep, supervision, mending, restores. -/

namespace Sys2Proof.Machine

namespace State

/-! ### HOST_CMD (R320, R336, R338) -/

/-- A host command is refused. -/
def hostRefuse (s : State) (code : Nat) : State := s.refuse pgHSV code hostCmdOff

/-- VERIFY, MEND and ENROLL need the HSV page in force and the channel initialised (R321, R557). -/
def hostCmdBlocked (s : State) (n : Nat) : Bool := !s.active pgHSV || !s.flag (Reg.FCH.STATUS_INIT_DONE n)

/-- The place of a new verification in the order of commands. -/
def gateOrder (s : State) : Nat :=
  (List.range 6).foldl (fun m n => match (s.host n).gate with | some g => max m (g.order + 1) | none => m) 0

/-- VERIFY, when it starts (R320); SEAL has closed GATE (R56). -/
def startVerify (n : Fin 6) (s : State) : State :=
  if s.mode.phase = .seal then s.hostRefuse Reason.NOT_IN_MODE
  else if s.hostCmdBlocked n then s.hostRefuse Reason.CONFLICT_WITH_PAGE
  else if s.hostSt n ≠ hsHELD then s.hostRefuse hvHOST_STATE
  else if !s.cfgb (Reg.POL.STEER_EN n) then s.hostRefuse hvNO_STEER
  else
    let g : Gate := ⟨.wait, 0, s.gateOrder, [], 0, false, [], none, 0, [], [], [], 0, [], [], 0, [], [], []⟩
    let s := (s.setHostSt n hsVERIFYING).wr (Reg.HSV.HOST_STATE_RETRY n) 0
    (s.setHost n { s.host n with gate := some g }).gateStart

/-- QUARANTINE, when it starts: only in MENDING. -/
def startQuarantine (n : Fin 6) (s : State) : State :=
  if s.hostSt n ≠ hsMENDING then s.hostRefuse hvHOST_STATE else s.quarantineHost n

/-- HOLD, when it starts: only in QUARANTINED; MEND_DEADLINE starts again. -/
def startHold (n : Fin 6) (s : State) : State :=
  if s.hostSt n ≠ hsQUARANTINED then s.hostRefuse hvHOST_STATE
  else
    let s := s.setHost n { s.host n with mend := { (s.host n).mend with active := true, timer := true } }
    (s.setHostSt n hsHELD).wr (Reg.HSV.HOST_STATE_HOLD_CAUSE n) hcFIRMWARE

/-- MEND, when it starts: QUARANTINED becomes MENDING at level 3. -/
def startMend (n : Fin 6) (s : State) : State :=
  if s.mode.phase = .seal then s.hostRefuse Reason.NOT_IN_MODE
  else if s.hostCmdBlocked n then s.hostRefuse Reason.CONFLICT_WITH_PAGE
  else if s.hostSt n ≠ hsQUARANTINED then s.hostRefuse hvHOST_STATE
  else
    let s := s.setHost n { s.host n with mend := { (s.host n).mend with active := true, timer := true } }
    (((s.setHostSt n hsMENDING).wr (Reg.HSV.HOST_STATE_LEVEL n) 3).raise pgHSV 11).ladder n 3

/-- What a host's channel reads under K5 for ENROLL or RELOAD goes on. -/
def setRead (s : State) (n : Nat) (r : HostRead) : State := s.setHost n { s.host n with read := some r }
def readAsk (s : State) (n : Nat) : State := s.enqueue (chanRes n) ⟨.hostRead, 5, 5, n, 0, 0, 0, []⟩

/-- ENROLL, when it starts (R338): it runs while the channel reads the manifest and the leaf table under K5. -/
def startEnroll (n : Nat) (sl : Nat) (i : Instr) (s : State) : State :=
  let st := s.hostSt n
  if s.mode.phase = .seal then s.hostRefuse Reason.NOT_IN_MODE
  else if s.hostCmdBlocked n then s.hostRefuse Reason.CONFLICT_WITH_PAGE
  else if !(st = hsHELD || st = hsQUARANTINED || (st = hsMENDING && s.rd (Reg.HSV.HOST_STATE_LEVEL n) = 5)) then s.hostRefuse hvHOST_STATE
  else if !s.cfgb (Reg.POL.STEER_EN n) then s.hostRefuse hvNO_STEER
  else ((s.cmdStart pgHSV hostCmdOff i).setRead n ⟨0, sl % 2, 0, [], [], 0⟩).readAsk n

/-! ### GATE (R323) -/

/-- Replace the verification of a host. -/
def setGate (s : State) (n : Nat) (g : Gate) : State := s.setHost n { s.host n with gate := some g }

/-- Length of the main leaf table of a manifest. -/
def tableLen (m : List Byte) : Nat := mfLeafLen m * mfBlocks m

/-- The escort window that holds an image block, if any (R315, R317). -/
def blockWindow (s : State) (n b : Nat) : Option Nat := s.windowAt n (s.imagePolicy n + 4096 * b)

/-- The first PRE block at or after `b` (R315). -/
def nextPre (s : State) (n blocks b : Nat) : Option Nat :=
  (List.range' b (blocks - b)).find? (fun i => (s.blockWindow n i).isNone)

/-- How many PRE blocks an image has. -/
def preCount (s : State) (n blocks : Nat) : Nat := ((List.range blocks).filter (fun i => (s.blockWindow n i).isNone)).length

/-- What the stream reads next (R323 step 3, R225): 1 the leaf table, 2 a PRE block that the table read so far covers; none where
nothing is left or the FIFO is full. -/
def streamOn (s : State) (n : Nat) (g : Gate) : Option (Nat × Nat) :=
  let covered := if g.table.length < tableLen g.manifest then g.table.length / mfLeafLen g.manifest else mfBlocks g.manifest
  let pre := s.nextPre n (mfBlocks g.manifest) g.blk
  let room := decide ((s.snpOf n).fifo.length < 16)
  if !g.acc.isEmpty then (if room then some (2, g.blk) else none)
  else
    let tableLeft := decide (g.table.length < tableLen g.manifest)
    let due := match pre with | some b => decide (covered ≤ b) | none => true
    if tableLeft && (g.table.length % 65536 ≠ 0 || due) then some (1, 0)
    else match pre with
      | some b => if room && decide (b < covered) then some (2, b) else none
      | none => none

/-- What a service of the streaming step reads next (R352): 0 a block to read again, else what the stream reads. -/
def streamNext (s : State) (n : Nat) (g : Gate) : Option (Nat × Nat) :=
  match g.reread with
  | i :: _ => if (s.snpOf n).fifo.length < 16 then some (0, i) else none
  | [] => s.streamOn n g

/-- The channel reads on, unless its request already waits or runs. -/
def gateAsk (s : State) (n : Nat) : State :=
  let d := s.sched (chanRes n)
  let mine (r : Req) : Bool := r.kind = .gate && r.issuer = n
  let again := match (s.host n).gate with | some g => !g.reread.isEmpty | none => false
  if d.queue.any mine || (match d.running with | some r => mine r | none => false) then s
  else s.enqueue (chanRes n) ⟨.gate, 5, 5, n, b2n again, 0, 0, []⟩

/-- The streaming step begins: two engines, for which it waits (step 2 of `sigStep`), lane I in PRE mode, the half of the GATE buffer that
no other host uses. -/
def streamStart (s : State) (n : Nat) (g : Gate) : State :=
  if s.brace || ([0, 1, 2, 3].filter (fun e => (s.dgeOf e).owner.isNone)).length < 2 then s.setGate n { g with phase := .signatures, sigStep := 2 }
  else
  let used := (List.range 6).any (fun m => m ≠ n && (match (s.host m).gate with | some o => o.phase ≠ .wait && !o.engines.isEmpty && o.half = 0 | none => false))
  let a := s.claimDge n
  let b := a.1.claimDge n
  let es := a.2.toList ++ b.2.toList
  let s := b.1.setGate n { g with phase := .stream, half := if used then 1 else 0, engines := es }
  let s := seqBegin a.2 false s
  let s := seqBegin b.2 true s
  (s.setLaneI n 1).gateAsk n

/-- The steps of R323 that follow a verified table and a verified PRE range. -/
def dirField (g : Gate) (w off len : Nat) : Nat := fieldLe g.last (0x10 + 0x40 * w + off) len

/-- The escort directory agrees with the ESC windows (R316, R317). -/
def directoryOk (s : State) (n : Nat) (g : Gate) : Bool :=
  let ws := s.windowsOf n
  let d := g.last
  let count := fieldLe d 6 2
  d.length = 4096 && slice d 0 4 = [0x53, 0x59, 0x45, 0x44] && fieldLe d 4 2 = 1 && decide (1 ≤ count) && decide (count ≤ 4)
  && allZero (slice d 8 8) && allZero (d.drop (0x10 + 0x40 * count))
  && (s.blockWindow n (mfBlocks g.manifest - 1)).isNone
  && ws.all (fun w => decide (w - 4 * n < count))
  && (List.range count).all (fun j =>
      let w := 4 * n + j
      allZero (slice d (0x10 + 0x40 * j + 0x0C) 4)
      && dirField g j 4 4 = s.cfg (Reg.ESC.WIN_SIZE w)
      && (dirField g j 4 4 = 0 || (s.imagePolicy n + 4096 * dirField g j 0 4 = s.winBase w
          && decide (dirField g j 8 4 + 128 * dirField g j 4 4 ≤ s.imageOff n))))

/-- Every verdict is in: the host may be released; its engines are given back. -/
def gateReady (s : State) (n : Nat) (g : Gate) : State :=
  let s := g.engines.foldl releaseDge s
  s.setGate n { g with phase := .ready, engines := [] }

/-- The next escort table after window position `k`, or the end (R323 step 4). -/
def escortNext (s : State) (n : Nat) (g : Gate) (k : Nat) : State :=
  match (s.windowsOf n).drop k with
  | [] => s.gateReady n g
  | _ :: _ =>
    let s := s.setGate n { g with phase := .escort, window := k, esc := [], tableDone := none }
    (seqBegin g.engines.head? false s).gateAsk n

/-- After a verdict of the streaming step: on with the directory and the escort tables once both the table and every PRE block
have matched. -/
def gateAdvance (s : State) (n : Nat) : State :=
  match (s.host n).gate with
  | some g =>
    if g.phase = .stream && g.tableDone = some true && decide (s.preCount n (mfBlocks g.manifest) ≤ g.final.length) && g.reread.isEmpty then
      if (s.windowsOf n).isEmpty then s.gateReady n g
      else if s.directoryOk n g then s.escortNext n g 0
      else s.hostFailed n hvDIRECTORY_MISMATCH
    else s
  | none => s

/-- The manifest has been read: step 1 of R323 and the signer, then the signatures on the PKE. -/
def manifestRead (s : State) (n : Nat) (g : Gate) : State :=
  let m := g.manifest
  if (s.currentRec n g.slot).map (fun r => r.digest) ≠ some (Config.sha384 m) then s.hostFailed n hvRECORD_MISMATCH
  else if !s.hostManifestOk n m then s.hostFailed n hvMANIFEST_FORMAT
  else if !s.hostSignerOk n m then s.hostFailed n hvSIGNER_UNKNOWN
  else (s.setGate n { g with phase := .signatures, sigStep := 0 }).enqueuePke ⟨.gate, 5, 5, n, 0, 0, 0, []⟩

/-- A block has passed lane I: its digest joins the FIFO (R225); the sequencer keeps the last block. -/
def laneBlock (s : State) (n i : Nat) (g : Gate) (d : List Byte) : State × Gate :=
  let q := (s.snpOf n).fifo ++ [⟨i, leafHash (mfLeafSha384 g.manifest) d⟩]
  let s := (s.setSnp n { s.snpOf n with fifo := q }).wr (Reg.SNP.LANE_STATUS_FIFO_LEVEL n) q.length
  (s, { g with last := if i + 1 = mfBlocks g.manifest then d else g.last })

/-- A burst of the streaming step has ended. -/
def streamServed (s : State) (n : Nat) (g : Gate) (again corrupt : Bool) : State :=
  match (if again then g.reread.head?.map (fun i => (0, i)) else s.streamOn n g) with
  | none => s
  | some (1, _) =>
    let at_ := g.table.length
    let k := min 512 (tableLen g.manifest - at_)
    let d := s.delivered corrupt (s.slotBytes n g.slot (0x2000 + at_) k)
    let s := d.1.sramStore (d.1.cfg Reg.HSV.GATE_BUF * 0x20000 + g.half * 0x10000 + at_ % 0x10000) d.2
    s.setGate n { g with table := g.table ++ d.2 }
  | some (k, i) =>
    let acc := if k = 0 then g.racc else g.acc
    let d := s.delivered corrupt (s.slotBytes n g.slot (s.imageOff n + 4096 * i + acc.length) 512)
    let acc := acc ++ d.2
    let s := d.1
    if acc.length < blkLen then s.setGate n (if k = 0 then { g with racc := acc } else { g with acc := acc, blk := i })
    else
      let g := if k = 0 then { g with racc := [], reread := g.reread.drop 1 } else { g with acc := [], blk := i + 1 }
      let r := s.laneBlock n i g acc
      r.1.setGate n r.2

/-- Leaves of an escort table go to LDM from a leaf on (R318). -/
def loadLeaves (s : State) (first : Nat) (bs : List Byte) : State :=
  { s with ldm := ((chunks 32 (bs.length / 32) bs).zipIdx).foldl (fun (t : Tbl (BitVec 256)) (p : List Byte × Nat) => Tbl.put 0 t (first + p.2) (digestOf 256 p.1)) s.ldm }

/-- A burst of an escort table has ended: its leaves go to LDM (R323 step 4). -/
def escortServed (s : State) (n : Nat) (g : Gate) (corrupt : Bool) : State :=
  match (s.windowsOf n).drop g.window with
  | [] => s
  | w :: _ =>
    let j := w - 4 * n
    let len := 128 * s.cfg (Reg.ESC.WIN_SIZE w)
    let k := min 512 (len - g.esc.length)
    let d := s.delivered corrupt (s.slotBytes n g.slot (dirField g j 8 4 + g.esc.length) k)
    let s := d.1.loadLeaves (s.cfg (Reg.ESC.WIN_LEAF w) + g.esc.length / 32) d.2
    s.setGate n { g with esc := g.esc ++ d.2 }

/-- A burst of a verification has ended (R323). -/
def gateServed (s : State) (n : Nat) (r : Req) (corrupt : Bool) : State :=
  match (s.host n).gate with
  | none => s
  | some g =>
    match g.phase with
    | .manifest =>
      let k := min 512 (manifestLen - g.manifest.length)
      let d := s.delivered corrupt (s.slotBytes n g.slot g.manifest.length k)
      let g := { g with manifest := g.manifest ++ d.2 }
      let s := d.1.setGate n g
      if g.manifest.length < manifestLen then s.requeue n r else s.manifestRead n g
    | .stream =>
      let s := s.streamServed n g (r.addr = 1) corrupt
      match (s.host n).gate with
      | some g => if (s.streamNext n g).isSome then s.requeue n { r with addr := b2n (!g.reread.isEmpty) } else s
      | none => s
    | .escort =>
      let s := s.escortServed n g corrupt
      match (s.host n).gate, (s.windowsOf n).drop g.window with
      | some g, w :: _ => if g.esc.length < 128 * s.cfg (Reg.ESC.WIN_SIZE w) then s.requeue n r else s
      | _, _ => s
    | _ => s

/-- The PKE ends a verification of the sequencer's (R323 step 2, R154, R155). -/
def gateSigned (s : State) (n : Nat) : State :=
  match (s.host n).gate with
  | some g =>
    if g.phase ≠ .signatures then s
    else
      let ask (s : State) : State := s.enqueuePke ⟨.gate, 5, 5, n, 0, 0, 0, []⟩
      let on (s : State) (g : Gate) (good : Bool) : State := if good then s.streamStart n g else s.hostFailed n hvSIGNATURE
      if g.sigStep = 2 then s
      else if g.sigStep = 0 then
        let ml := mfMldsaOk g.manifest
        if !s.ruleBoth && ml then on s { g with mldsaOk := ml } true
        else ask (s.setGate n { g with mldsaOk := ml, sigStep := 1 })
      else on s g (acceptSigs s.ruleBoth g.mldsaOk (mfEcdsaOk g.manifest)).1
  | none => s

/-- The engine that hashes a table has finished (R323): the main table's verdict, or that of an escort table. -/
def tableVerdict (s : State) (n : Nat) : State :=
  match (s.host n).gate with
  | some g =>
    match g.phase with
    | .stream =>
      if g.table.length < tableLen g.manifest || g.tableDone.isSome then s
      else if Config.sha384 g.table = mfLeafDigest g.manifest then
        (seqVerdict g.engines.head? true (s.setGate n { g with tableDone := some true })).gateAdvance n
      else (seqVerdict g.engines.head? false s).hostFailed n hvLEAF_TABLE
    | .escort =>
      match (s.windowsOf n).drop g.window with
      | w :: _ =>
        let j := w - 4 * n
        let len := 128 * s.cfg (Reg.ESC.WIN_SIZE w)
        if g.esc.length < len then s
        else if Config.sha384 g.esc ≠ digestOf 384 (slice g.last (0x10 + 0x40 * j + 0x10) 48) then
          (seqVerdict g.engines.head? false s).hostFailed n hvESCORT_TABLE
        else
          let s := seqVerdict g.engines.head? true s
          let s := s.wr (Reg.ESC.WIN_STATUS_LOADED w) 1
          let s := s.setHost n { s.host n with digests := (s.host n).digests ++ [(dirField g j 8 4, len, Config.sha384 g.esc)] }
          s.escortNext n g (g.window + 1)
      | [] => s
    | _ => s
  | none => s

/-- The stream goes on where the FIFO or a verdict held it. -/
def gateMore (s : State) (n : Nat) : State :=
  match (s.host n).gate with
  | some g => if g.phase = .stream && (s.streamNext n g).isSome then s.gateAsk n else s
  | none => s

/-- The engine that runs LEAVES for a verification compares the oldest digest of lane I (R222, R323, R352). -/
def preVerdict (s : State) (n : Nat) : State :=
  match (s.host n).gate, (s.snpOf n).fifo with
  | some g, e :: q =>
    if g.phase ≠ .stream then s
    else
      let s := (s.setSnp n { s.snpOf n with fifo := q }).wr (Reg.SNP.LANE_STATUS_FIFO_LEVEL n) q.length
      let l := mfLeafLen g.manifest
      if e.digest = slice g.table (l * e.index) l then
        let fin := if g.final.contains e.index then g.final else e.index :: g.final
        let s := seqLeaf g.engines.getLast? fin.length 0xFFFFFFFF (s.setGate n { g with final := fin })
        let s := if s.preCount n (mfBlocks g.manifest) ≤ fin.length then seqVerdict g.engines.getLast? true s else s
        (s.gateMore n).gateAdvance n
      else if Tbl.get 0 g.tries e.index < 3 then
        let s := s.bump (Reg.FCH.RETRY_COUNT n)
        let s := s.setGate n { g with reread := g.reread ++ [e.index], tries := Tbl.upd 0 g.tries e.index (· + 1) }
        (s.retag (chanRes n) (fun r => r.kind = .gate && r.issuer = n)).gateMore n
      else
        let s := seqVerdict g.engines.getLast? false (seqLeaf g.engines.getLast? (g.final.length + 1) e.index s)
        (s.readFailed n).hostFailed n hvPRE_MISMATCH
  | _, _ => s

/-! ### Release (R326, R331) -/

/-- The host runs without an unverified block: RUNNING (R331). -/
def hostRuns (s : State) (n : Nat) : State :=
  let s := (s.setHostSt n hsRUNNING).raise pgHSV 9
  (s.setHost n { s.host n with digests := [], sweepAcc := [] }).setLaneI n 0

/-- The windows under which a host is released: index, base, size and first leaf of each (R318). -/
def releaseWins (s : State) (n : Nat) : List (Nat × Nat × Nat × Nat) :=
  (s.windowsOf n).map (fun w => (w, s.cfg (Reg.ESC.WIN_BASE w), s.cfg (Reg.ESC.WIN_SIZE w), s.cfg (Reg.ESC.WIN_LEAF w)))

/-- Release (R326), then supervision (R332) and the background sweep (R331). -/
def hostRelease (s : State) (n : Nat) : State :=
  match (s.host n).gate with
  | some g =>
    if g.phase ≠ .ready || s.hostSt n ≠ hsVERIFYING then s
    else
      let s := (s.wr (Reg.POL.STEER_STATUS n) g.slot).wr (Reg.HSV.SLOT_INFO_NEXT_VALID n) 0
      let s := s.setPort n { s.port n with verified := [] }
      let h := s.host n
      let src := s.cfg (Reg.HSV.SUPERVISE_OK_SOURCE n)
      let s := s.setHost n { h with gate := none, sup := ⟨src ≠ 0, false, h.sup.okPin, h.sup.okPin, false⟩, sweepAcc := [], wins := s.releaseWins n }
      let s := ((s.wr (Reg.HSV.HOST_STATE_OK_SEEN n) 0).setHostSt n hsESCORTED).raise pgHSV 8
      let s := if (s.windowsOf n).isEmpty then s.hostRuns n
        else (s.setLaneI n 2).enqueue (chanRes n) ⟨.sweep, 5, 5, n, 0, 0, 0, []⟩
      let s := if bit src 0 && h.sup.okPin then s.okHost n else s
      s.gateStart
  | none => s

/-- The first unverified block of the windows of a host, in order: window and policy address. -/
def sweepNext (s : State) (n : Nat) : Option (Nat × Nat) :=
  (s.windowsOf n).findSome? (fun w =>
    ((List.range (4 * s.cfg (Reg.ESC.WIN_SIZE w))).find? (fun i => !s.blockVerified n (s.winBase w + 1024 * i))).map
      (fun i => (w, s.winBase w + 1024 * i)))

/-- The bytes at a policy address of the image that the host runs (R300, R317). -/
def imageBytes (s : State) (n p len : Nat) : List Byte :=
  s.slotBytes n (s.activeSlot n) (p - (s.imagePolicy n - s.imageOff n)) len

/-- A leaf of LDM as bytes. -/
def ldmLeaf (s : State) (l : Nat) : List Byte := digestBytes (Tbl.get (0 : BitVec 256) s.ldm l)

/-- The sweep asks for its next burst, if a block is left. -/
def sweepOn (s : State) (n : Nat) (r : Req) : State := if (s.sweepNext n).isSome then s.requeue n r else s

/-- A burst of the background sweep has ended (R331, R352): `pos` is the policy address of the block in flight and `addr` how
often it has been read again. -/
def sweepBurst (s : State) (n : Nat) (r : Req) (corrupt : Bool) : State :=
  match s.sweepNext n with
  | none => s
  | some (w0, p0) =>
    let acc := (s.host n).sweepAcc
    let p := if acc.isEmpty then p0 else r.pos
    let w := (s.windowAt n p).getD w0
    if !acc.isEmpty && s.blockVerified n p then (s.setHost n { s.host n with sweepAcc := [] }).sweepOn n { r with addr := 0 }
    else
      let d := s.delivered corrupt (s.imageBytes n (p + acc.length) 512)
      let s := d.1
      let acc := acc ++ d.2
      if acc.length < 1024 then (s.setHost n { s.host n with sweepAcc := acc }).requeue n { r with pos := p }
      else
        let s := s.setHost n { s.host n with sweepAcc := [] }
        if shaBytes 0 acc = s.ldmLeaf (s.leafAt w p) then (s.markVerified n w p).sweepOn n { r with addr := 0 }
        else if r.addr < 3 then (s.bump (Reg.FCH.RETRY_COUNT n)).requeue n { r with addr := r.addr + 1, pos := p }
        else (s.readFailed n).hostFailed n hvESCORT_MISMATCH

/-- The sweep's end (R331): every block verified, RUNNING. -/
def sweepFinish (s : State) (n : Nat) : State :=
  if s.hostSt n ≠ hsESCORTED || (s.windowsOf n).isEmpty || (s.sweepNext n).isSome then s
  else (s.dropIssuer n [.sweep]).hostRuns n |>.raise pgESC 9

/-! ### First touch (R327-R329) -/

/-- The fetch of a first touch has all it may hold: the channel is free for other work, the pins stay with it. -/
def fetchEnds (s : State) (n : Nat) : State := (s.setChan n { s.chan n with k1Run := false, retries := 0 }).pumpCh n

/-- A first touch fails for good (R329, R334): fill to the end, and the host fails. -/
def touchFail (s : State) (n reason : Nat) : State := ((s.readFailed n).raise pgESC 8).hostFailed n reason

/-- A block of a first touch has landed (R327, R328). -/
def fetchDone (s : State) (n : Nat) (corrupt : Bool) (cycles ns : Nat) : State :=
  match (s.port n).live with
  | some l =>
    match l.touch with
    | some t =>
      if !(s.chan n).k1Run || (s.sched (chanRes n)).running.isSome then s
      else
        let p := t.start + 1024 * t.cached.length
        let a := p - s.cfg (Reg.HFP.CS_BASE n l.txn.cs) * 4096
        let d := s.delivered corrupt (s.flashBytes n l.txn.cs (s.steered n l.txn.cs a) 1024)
        let s := d.1
        let w := s.windowAt n p
        let compare := match w with | some _ => !s.blockVerified n p | none => false
        let good := match w with | some w => !compare || shaBytes 0 d.2 = s.ldmLeaf (s.leafAt w p) | none => true
        if !good then
          if t.retries < 3 then
            (s.bump (Reg.FCH.RETRY_COUNT n)).openTxn n { l with touch := some { t with retries := t.retries + 1 } }
          else s.touchFail n hvESCORT_MISMATCH
        else
          let s := match w with | some w => if compare then s.markVerified n w p else s | none => s
          let off := if t.cached.isEmpty then s.policyAddr n l.txn.cs (s.hostAddr n l.txn) - t.start else 0
          let served := l.serve = .touch
          let l := { l with out := if served then l.out ++ d.2.drop off else l.out, touch := some { t with cached := t.cached ++ [p], retries := 0 } }
          let first := t.cached.isEmpty && served
          let l := if first then { l with holdCycles := cycles } else l
          let s := if first then s.peak (Reg.ESC.FT_MAX_SEEN n) ns else s
          let s := s.openTxn n l
          let q := p + 1024
          if 128 ≤ t.cached.length + 1 || s.windowAt n q ≠ some t.window then s.fetchEnds n else s
    | none => s
  | none => s

/-! ### Supervision (R332, R333) -/

/-- A missed OK: a retry pulse, or the failure that its kind names once BOOT_RETRIES are used. -/
def missedOk (s : State) (n reason : Nat) : State :=
  let k := s.rd (Reg.HSV.HOST_STATE_RETRY n)
  if k < s.cfg (Reg.HSV.SUPERVISE_BOOT_RETRIES n) then
    let h := s.host n
    (s.setHost n { h with sup := { h.sup with waiting := true, pulse := true, okHigh := false, okLow := false } }).wr
      (Reg.HSV.HOST_STATE_RETRY n) (k + 1)
  else s.hostFailed n reason

/-- The pin is part of OK_SOURCE. -/
def pinWatched (s : State) (n : Nat) : Bool := bit (s.cfg (Reg.HSV.SUPERVISE_OK_SOURCE n)) 0

/-- Hn_OK changes (R332, R333). -/
def okPin (s : State) (n : Nat) (level : Bool) : State :=
  let h := s.host n
  let s := s.setHost n { h with sup := { h.sup with okPin := level } }
  if !s.released n || !s.pinWatched n || h.sup.pulse then s
  else if level then
    let h := s.host n
    (s.setHost n { h with sup := { h.sup with okHigh := true, okLow := false } }).okHost n
  else
    let h := s.host n
    let watch := h.sup.okHigh && s.flag (Reg.HSV.HOST_STATE_OK_SEEN n) && s.cfg (Reg.HSV.OK_LOSS n) ≠ 0
    s.setHost n { h with sup := { h.sup with okLow := watch } }

/-- The retry pulse ends: the reset output is released again. -/
def pulseEnd (s : State) (n : Nat) : State :=
  let h := s.host n
  if !h.sup.pulse then s
  else
    let s := s.setHost n { h with sup := { h.sup with pulse := false, okHigh := h.sup.okPin } }
    if s.pinWatched n && h.sup.okPin then s.okHost n else s

/-- BOOT_TIMEOUT expires (R332). -/
def bootTimeout (s : State) (n : Nat) : State :=
  if s.released n && (s.host n).sup.waiting && !(s.host n).sup.pulse then s.missedOk n hvOK_TIMEOUT else s

/-- OK_LOSS expires (R333). -/
def okLost (s : State) (n : Nat) : State :=
  if s.released n && (s.host n).sup.okLow then s.missedOk n hvOK_LOST else s

/-! ### Deadlines (R325, R336, R339, R341) -/

/-- GATE_LIMIT expires on a verification that has started; it pauses in Brace. -/
def gateLimit (s : State) (n : Nat) : State :=
  match (s.host n).gate with
  | some g => if g.phase = .wait || s.brace || s.hostSt n ≠ hsVERIFYING then s else s.hostFailed n hvGATE_LIMIT
  | none => s

/-- MEND_DEADLINE expires in any state of the mending. -/
def mendDeadline (s : State) (n : Nat) : State :=
  if (s.host n).mend.timer && s.up && s.hostSt n ≠ hsOFF then
    (s.quarantineHost n).gateStart
  else s

/-! ### Restore (R340, R341) -/

/-- Replace the restore of a host. -/
def setRestore (s : State) (n : Nat) (t : Restore) : State := s.setHost n { s.host n with restore := some t }

/-- FG address of the golden entry of a host. -/
def goldenAddr (s : State) (n : Nat) : Nat := s.cfg (Reg.HSV.GOLDEN_BASE n) * 0x10000

/-- CMP takes the oldest restore that waits for it (R361). -/
def pumpCmp (s : State) : State :=
  if s.cmp.run.isSome || s.cmp.host.isSome then s
  else match (List.range 6).find? (fun n => match (s.host n).restore with | some t => t.step = 2 | none => false) with
    | some n => (({ s with cmp := { s.cmp with host := some n } } : State).wr Reg.CMP.STATUS_BUSY 1).wr Reg.CMP.STATUS_DONE 0
    | none => s

/-- A restore advances where it waited: for the PKE with the golden signatures, for a DGE with the leaf table's digest and with the read
of the golden blocks, which feeds one from source 2 (R224, R341, R361); in Brace no engine starts. -/
def restoreGo (s : State) (n : Nat) : State :=
  match (s.host n).restore with
  | none => s
  | some t =>
    let readFG (s : State) : State := s.enqueue (chanRes 7) ⟨.restore, 5, 5, n, 0, 0, 0, []⟩
    if t.step = 5 then
      if !s.pkeFree 5 then s.awaitPke (.host n) 5 n
      else if s.goldenOk n t.manifest then readFG (s.setRestore n { t with step := 6 })
      else s.restoreFail n
    else if t.step = 7 then
      if !s.dgeFree then s
      else
        let good : Bool := Config.sha384 t.table = mfLeafDigest t.manifest
        let s := s.hashOn n good
        if good then ((s.voidRec n t.slot).setRestore n { t with step := 0 }).enqueue (chanRes n) ⟨.restore, 5, 5, n, 0, 0, 0, []⟩
        else s.restoreFail n
    else if t.step = 1 && t.engine.isNone then
      if !s.dgeFree then s
      else
        let c := s.claimDge n
        readFG (seqBegin c.2 false (c.1.setRestore n { t with engine := c.2 }))
    else s

/-- A golden block has been read whole: its leaf decides (R341 step 3, R352). -/
def goldenBlock (s : State) (c n : Nat) (t : Restore) (r : Req) : State :=
  let m := t.manifest
  let i := t.golden.length / 4096
  let good : Bool := leafHash (mfLeafSha384 m) t.acc = slice t.table (mfLeafLen m * i) (mfLeafLen m)
  let s := seqVerdict t.engine good s
  if good then
    let t := { t with acc := [], retries := 0, golden := t.golden ++ t.acc }
    if i + 1 < mfBlocks m then (seqBegin t.engine false (s.setRestore n t)).requeue c r
    else
      let s := match t.engine with | some e => s.releaseDge e | none => s
      (s.setRestore n { t with step := 2, engine := none }).pumpCmp
  else if t.retries < 3 then
    (seqBegin t.engine false ((s.bump (Reg.FCH.RETRY_COUNT 7)).setRestore n { t with acc := [], retries := t.retries + 1 })).requeue c r
  else (s.readFailed 7).restoreFail n

/-- A burst, erase or program of a restore has ended (R341); the block that a burst completes in Brace is compared at the next service. -/
def restoreServed (s : State) (c n : Nat) (r : Req) (corrupt : Bool) : State :=
  match (s.host n).restore with
  | none => s
  | some t =>
    if t.step = 4 then
      let d := s.delivered corrupt (s.flashBytes 7 0 (s.goldenAddr n + t.manifest.length) (min 512 (manifestLen - t.manifest.length)))
      let t := { t with manifest := t.manifest ++ d.2 }
      if t.manifest.length < manifestLen then (d.1.setRestore n t).requeue c r else (d.1.setRestore n { t with step := 5 }).restoreGo n
    else if t.step = 6 then
      let len := tableLen t.manifest
      let d := s.delivered corrupt (s.flashBytes 7 0 (s.goldenAddr n + 0x2000 + t.table.length) (min 512 (len - t.table.length)))
      let t := { t with table := t.table ++ d.2 }
      if t.table.length < len then (d.1.setRestore n t).requeue c r else (d.1.setRestore n { t with step := 7 }).restoreGo n
    else if t.step = 0 then
      let e := s.eraseSize n
      let s := s.flashErase n (s.slotCs n) (s.slotBase n t.slot + t.done) e
      if t.done + e < s.slotSize n then (s.setRestore n { t with done := t.done + e }).requeue c r
      else (s.setRestore n { t with step := 1, done := 0 }).restoreGo n
    else if t.step = 1 then
      if t.acc.length = 4096 then s.goldenBlock c n t r
      else
        let d := s.delivered corrupt (s.flashBytes 7 0 (s.goldenAddr n + 0x10000 + t.golden.length + t.acc.length) 512)
        let t := { t with acc := t.acc ++ d.2 }
        let s := d.1.setRestore n t
        if t.acc.length < 4096 || s.brace then s.requeue c r else s.goldenBlock c n t r
    else if t.step = 3 then
      let k := min (s.pageSize n) (t.output.length - t.done)
      let s := s.flashProgram n (s.slotCs n) (s.slotBase n t.slot + t.done) (slice t.output t.done k)
      if t.done + k < t.output.length then (s.setRestore n { t with done := t.done + k }).requeue c r
      else ((s.setRestore n { t with step := 8 }).setRead n ⟨2, t.slot, 0, [], [], 0⟩).readAsk n
    else s

/-! ### What ENROLL and RELOAD read (R338, R341, R569) -/

/-- Such a read fails with a reason: ENROLL ends with it, a RELOAD or a restore fails its host's work. -/
def readFail (s : State) (n reason : Nat) : State :=
  match (s.host n).read with
  | none => s
  | some h =>
    let s := s.setHost n { s.host n with read := none }
    if h.kind = 0 then (s.hostRefuse reason).cmdEnd pgHSV hostCmdOff
    else if h.kind = 1 then (s.cmdEnd pgESC escCmdOff).hostFailed n reason
    else s.restoreFail n

/-- ENROLL has verified its slot: the record; in MENDING the host has an image ready, and so it has after a restore. -/
def enrollDone (s : State) (n : Nat) (h : HostRead) : State :=
  let s := (s.setHost n { s.host n with read := none, restore := if h.kind = 2 then none else (s.host n).restore }).appendNow (enrollRec n h.slot h.manifest)
  let s := if s.hostSt n = hsMENDING then s.imageReady n h.slot else s
  if h.kind = 0 then s.cmdEnd pgHSV hostCmdOff else s

/-- Every escort table is back in LDM (R569): RELOADED, and the sweep begins again. -/
def reloadDone (s : State) (n : Nat) : State :=
  let s := ((s.setHost n { s.host n with read := none, sweepAcc := [] }).cmdEnd pgESC escCmdOff).raise pgESC 11
  let s := (s.windowsOf n).foldl (fun s w => if s.windowSwept n w then s.wr (Reg.ESC.WIN_STATUS_SWEPT w) 1 else s) s
  ((s.dropIssuer n [.sweep]).setLaneI n 2).enqueue (chanRes n) ⟨.sweep, 5, 5, n, 0, 0, 0, []⟩

/-- The escort table that a RELOAD reads: its window, and table offset, length and digest as retained at the release. -/
def reloadAt (s : State) (n : Nat) (h : HostRead) : Option (Nat × (Nat × Nat × BitVec 384)) :=
  ((s.windowsOf n).zip (s.host n).digests)[h.idx]?

/-- The digest of a table is known: ENROLL is done, or RELOAD takes the next window. -/
def readHashed (s : State) (n : Nat) (h : HostRead) : State :=
  if h.kind ≠ 1 then
    let good : Bool := Config.sha384 h.acc = mfLeafDigest h.manifest
    let s := s.hashOn n good
    if good then s.enrollDone n h else s.readFail n hvLEAF_TABLE
  else match s.reloadAt n h with
  | none => s.readFail n hvESCORT_TABLE
  | some x =>
    let good : Bool := Config.sha384 h.acc = x.2.2.2
    let s := s.hashOn n good
    if !good then s.readFail n hvESCORT_TABLE
    else
      let s := s.wr (Reg.ESC.WIN_STATUS_LOADED x.1) 1
      if h.idx + 1 < (s.host n).digests.length then (s.setRead n { h with step := 2, acc := [], idx := h.idx + 1 }).readAsk n
      else s.reloadDone n

/-- Such a read advances where it waited for the PKE or for a DGE; in Brace neither starts. -/
def readGo (s : State) (n : Nat) : State :=
  match (s.host n).read with
  | none => s
  | some h =>
    if h.step = 1 then
      if !s.pkeFree 5 then s.awaitPke (.host n) 5 n
      else if s.manifestSigsOk h.manifest then (s.setRead n { h with step := 2, acc := [] }).readAsk n
      else s.readFail n hvSIGNATURE
    else if h.step = 3 then (if s.dgeFree then s.readHashed n h else s)
    else s

/-- A burst of such a read has ended. -/
def hostReadServed (s : State) (n : Nat) (r : Req) (corrupt : Bool) : State :=
  match (s.host n).read with
  | none => s
  | some h =>
    if h.step = 0 then
      let d := s.delivered corrupt (s.slotBytes n h.slot h.manifest.length (min 512 (manifestLen - h.manifest.length)))
      let m := h.manifest ++ d.2
      let s := d.1.setRead n { h with manifest := m }
      if m.length < manifestLen then s.requeue n r
      else if !s.hostManifestOk n m || !sequenceValid (mfSequence m) then s.readFail n hvMANIFEST_FORMAT
      else if !s.hostSignerOk n m then s.readFail n hvSIGNER_UNKNOWN
      else (s.setRead n { h with step := 1, manifest := m }).readGo n
    else if h.kind ≠ 1 then
      let len := tableLen h.manifest
      let d := s.delivered corrupt (s.slotBytes n h.slot (0x2000 + h.acc.length) (min 512 (len - h.acc.length)))
      let h := { h with acc := h.acc ++ d.2 }
      if h.acc.length < len then (d.1.setRead n h).requeue n r else (d.1.setRead n { h with step := 3 }).readGo n
    else match s.reloadAt n h with
    | none => s.readFail n hvESCORT_TABLE
    | some x =>
      let d := s.delivered corrupt (s.slotBytes n h.slot (x.2.1 + h.acc.length) (min 512 (x.2.2.1 - h.acc.length)))
      let s := d.1.loadLeaves (s.cfg (Reg.ESC.WIN_LEAF x.1) + h.acc.length / 32) d.2
      let h := { h with acc := h.acc ++ d.2 }
      if h.acc.length < x.2.2.1 then (s.setRead n h).requeue n r else (s.setRead n { h with step := 3 }).readGo n

/-- A verification that waits for its engines has them. -/
def streamGo (s : State) (n : Nat) : State :=
  match (s.host n).gate with
  | some g => if g.phase = .signatures && g.sigStep = 2 then s.streamStart n g else s
  | none => s

/-- The work of a host goes on where it waited for an engine. -/
def hostGo (s : State) (n : Nat) : State := ((s.readGo n).restoreGo n).streamGo n

/-- BLOCK_TIMEOUT expires on a read that holds the channel: a first touch, a sweep, a verification or a restore. -/
def blockTimeout (s : State) (n : Nat) : State :=
  if (s.chan n).k1Run && (match (s.port n).live with | some l => l.touch.isSome | none => false) then (s.raise pgESC 8).hostFailed n hvBLOCK_TIMEOUT
  else if s.serving n .sweep n || s.serving n .gate n then s.hostFailed n hvBLOCK_TIMEOUT
  else if s.serving n .hostRead n then s.readFail n hvBLOCK_TIMEOUT
  else if s.serving 7 .restore n then s.restoreFail n
  else s

/-- A host's verification holds engines of which `p` is true. -/
def gateEngine (s : State) (n : Nat) (p : List Nat → Bool) : Bool :=
  match (s.host n).gate with
  | some g => p g.engines
  | none => false

/-! ### RELOAD (R569) -/

/-- RELOAD, when it starts: it runs while the channel reads the escort tables under K5. -/
def startReload (n : Nat) (i : Instr) (s : State) : State :=
  let h := s.host n
  if s.hostSt n ≠ hsESCORTED || !s.cfgb (Reg.POL.STEER_EN n) || h.digests.isEmpty || h.digests.length ≠ (s.windowsOf n).length then
    s.refuse pgESC esRELOAD_STATE escCmdOff
  else ((s.cmdStart pgESC escCmdOff i).setRead n ⟨1, s.activeSlot n, 2, [], [], 0⟩).readAsk n

/-- What Brace or the want of an engine deferred is done (R232, R313). -/
def doDeferred (s : State) (d : Deferred) : State :=
  match d with
  | .stageOpen n => s.stageOpenNow n
  | .void h sl => s.voidNow h sl
  | .stageArm n addr => s.stageArmNow n addr
  | .stageCheck n addr => s.commitCheck n addr

/-- The deferred work in order, Brace having ended. -/
def runDeferred (s : State) : State := s.deferred.foldl doDeferred { s with deferred := [] }

/-- What waited for an engine, for Brace exit or for a place (R320) in staging and in the release logic goes on. -/
def hostsGo (s : State) : State :=
  if s.brace then s else ((List.range 6).foldl hostGo s.runDeferred).gateStart

end State

/-- HOST_VERIFY (R320): HOST_CMD with OP 1. -/
def execHostVerify (h : Fin 6) (s : State) : Host.Outcome State Fault Refusal :=
  .next (s.issue pgHSV hostCmdOff (.hostVerify h) (State.startVerify h))

/-- QUARANTINE (R336): OP 2. -/
def execQuarantine (h : Fin 6) (s : State) : Host.Outcome State Fault Refusal :=
  .next (s.issue pgHSV hostCmdOff (.quarantine h) (State.startQuarantine h))

/-- HOLD (R336): OP 3. -/
def execHold (h : Fin 6) (s : State) : Host.Outcome State Fault Refusal :=
  .next (s.issue pgHSV hostCmdOff (.hold h) (State.startHold h))

/-- MEND (R336): OP 4. -/
def execMend (h : Fin 6) (s : State) : Host.Outcome State Fault Refusal :=
  .next (s.issue pgHSV hostCmdOff (.mend h) (State.startMend h))

/-- ENROLL (R338): OP 5. -/
def execEnroll (h : Fin 6) (slot : Nat) (s : State) : Host.Outcome State Fault Refusal :=
  .next (s.issue pgHSV hostCmdOff (.enroll h slot) (State.startEnroll h slot (.enroll h slot)))

/-- OK (R332): OP 6. -/
def execOk (h : Fin 6) (s : State) : Host.Outcome State Fault Refusal :=
  .next (s.issue pgHSV hostCmdOff (.ok h) (fun s => s.okMilestone h))

/-- HOST_RELEASE (R326). -/
def execHostRelease (h : Fin 6) (s : State) : Host.Outcome State Fault Refusal := .next (s.hostRelease h)

/-- GATE_LIMIT (R325). -/
def execGateLimit (h : Fin 6) (s : State) : Host.Outcome State Fault Refusal := .next (s.gateLimit h)

/-- ESCORT_FETCH_DONE (R327): `cycles` is the hold as the host's clock counts it, `ns` the time since CS# fell. -/
def execEscortFetchDone (h : Fin 6) (corrupt : Bool) (cycles ns : Nat) (s : State) : Host.Outcome State Fault Refusal :=
  .next (s.fetchDone h corrupt cycles ns)

/-- ESCORT_SWEEP_DONE (R331). -/
def execEscortSweepDone (h : Fin 6) (s : State) : Host.Outcome State Fault Refusal := .next (s.sweepFinish h)

/-- BLOCK_TIMEOUT (R339). -/
def execBlockTimeout (h : Fin 6) (s : State) : Host.Outcome State Fault Refusal := .next (s.blockTimeout h)

/-- HOST_OK_CHANGE (R332). -/
def execHostOkChange (h : Fin 6) (level : Bool) (s : State) : Host.Outcome State Fault Refusal := .next (s.okPin h level)

/-- BOOT_TIMEOUT (R332). -/
def execBootTimeout (h : Fin 6) (s : State) : Host.Outcome State Fault Refusal := .next (s.bootTimeout h)

/-- RESET_PULSE_END (R332). -/
def execResetPulseEnd (h : Fin 6) (s : State) : Host.Outcome State Fault Refusal := .next (s.pulseEnd h)

/-- OK_LOSS_EXPIRY (R333). -/
def execOkLossExpiry (h : Fin 6) (s : State) : Host.Outcome State Fault Refusal := .next (s.okLost h)

/-- MEND_DEADLINE (R336). -/
def execMendDeadline (h : Fin 6) (s : State) : Host.Outcome State Fault Refusal := .next (s.mendDeadline h)

/-- RESTORE_LIMIT (R341): a restore fails; the limit pauses in Brace. -/
def execRestoreLimit (h : Fin 6) (s : State) : Host.Outcome State Fault Refusal :=
  .next (if (s.host h).restore.isSome && !s.brace then s.restoreFail h else s)

/-- RELOAD (R50, R569): ESC CMD with OP 1. -/
def execReload (h : Fin 6) (s : State) : Host.Outcome State Fault Refusal :=
  .next (s.issue pgESC escCmdOff (.reload h) (State.startReload h (.reload h)))

/-- DGE_DONE (R214): firmware's operation, or the table that a verification hashes on the engine; in Brace the engine is
stopped (R232). -/
def execDgeDone (n : Fin 4) (s : State) : Host.Outcome State Fault Refusal :=
  .next (if s.brace then s else match (s.dgeOf n).owner with
    | some h => if s.gateEngine h (fun es => es.head? = some n.val) then s.tableVerdict h else s
    | none => s.dgeFinish n)

/-- LEAF_VERDICT (R222): the oldest digest of the bound unit's FIFO is compared with its leaf; in Brace the engine is stopped
(R232). -/
def execLeafVerdict (n : Fin 4) (s : State) : Host.Outcome State Fault Refusal :=
  .next (if s.brace then s else match (s.dgeOf n).owner with
    | some h => if s.gateEngine h (fun es => es.getLast? = some n.val) then s.preVerdict h else s
    | none => match (s.dgeOf n).leaves with | some l => s.leafVerdict n l | none => s)

end Sys2Proof.Machine
end

