-- ==== Sys2Proof/Machine/Checks.lean ====
section
/-! DEFINITION. The consistency check (chapter 03): ranges and reserved bits (R7, R8), the life-cycle rules, and every
cross-page rule of the block chapters, judged over a set of pages (R67, R75, R552) and recorded by R83 and R564. -/

namespace Sys2Proof.Machine

/-- A failure of the check: page, active-view offset, reason. -/
structure Fail where
  page : Nat
  off : Nat
  code : Nat
  deriving DecidableEq, Repr

/-- What the check is run over: the pages judged in their shadow state, and those whose ENABLE is being cleared. -/
structure CheckSet where
  set : List Nat
  clr : List Nat
  deriving DecidableEq, Repr

/-- The offset an entry has when WINDOW_BASE selects it (R83). -/
def viewOff (off : Nat) : Nat := if 0x4000 ≤ off then 0x400 + (off - 0x4000) % 0x400 else off

/-- The granules of the policy space (R22). -/
def policySpace : Nat := 262144

/-- Largest SCK of a protocol in MHz (R257). -/
def maxSck (p : Nat) : Nat := if p < 2 then 133 else 200

/-- The stall mechanism is offered by the protocol (R257): NONE on every one, LATENCY_DOUBLE on 3, DS_HOLD on 2. -/
def stallOffered (p m : Nat) : Bool := m = 0 || (p = 2 && m = 2) || (p = 3 && m = 1)

/-- `[a, a + n)` and `[b, b + m)` meet. -/
def overlaps (a n b m : Nat) : Bool := decide (0 < n) && decide (0 < m) && decide (a < b + m) && decide (b < a + n)

/-- A rule's reason on its recording page, or CONFLICT_WITH_PAGE on the lowest of its other pages in the set (R564). -/
def recordOn (cs : CheckSet) (code : Nat) (page : Nat × Nat) (others : List (Nat × Nat)) : List Fail :=
  if cs.set.contains page.1 then [⟨page.1, page.2, code⟩]
  else match ((others.filter (fun o => cs.set.contains o.1)).map Prod.fst).min? with
    | some p => match others.find? (fun o => o.1 = p) with
      | some o => [⟨o.1, o.2, Reason.CONFLICT_WITH_PAGE⟩]
      | none => []
    | none => []

/-- A rule's failures where it is broken. -/
def failIf (b : Bool) (l : List Fail) : List Fail := if b then l else []

namespace State

/-- The page is in force after the commit (R75, R552). -/
def inView (s : State) (cs : CheckSet) (p : Nat) : Bool := !cs.clr.contains p && (cs.set.contains p || s.active p)

/-- The value of a CFG field that the check judges: the shadow of a page of the set, else the applied copy. -/
def judged (s : State) (cs : CheckSet) (f : Fld) : Nat := if cs.set.contains f.page then s.shadowOf f else s.appliedOf f

/-- The key of a word in the record of reserved bits. -/
def wordKey (p off : Nat) : Nat := p * 0x10000 + off

/-- Ranges, reserved encodings and reserved bits of every CFG word of a page (R7, R8). -/
def rangeFails (s : State) (cs : CheckSet) (p : Nat) : List Fail :=
  (pageWords p).flatMap (fun w =>
    let fs := w.2.filter (fun f => f.kind = .cfg)
    failIf (fs.any (fun f => s.judged cs f < f.rmin || f.rmax < s.judged cs f)
        || (!fs.isEmpty && Tbl.get 0 s.regs.rsvd (wordKey p w.1) ≠ 0)) [⟨p, viewOff w.1, Reason.FIELD_RANGE⟩])

/-- Values that PROVISIONED and FIELD do not permit on a page of the set (R96, R250, R376, R502). -/
def lifeFails (s : State) (cs : CheckSet) : List Fail :=
  let v := s.judged cs
  let on (p : Nat) : Bool := s.inService && cs.set.contains p
  let bad (p off : Nat) : List Fail := [⟨p, off, Reason.NOT_IN_LIFECYCLE⟩]
  failIf (on pgGLB && v Reg.GLB.CRC_CTRL < s.appliedOf Reg.GLB.CRC_CTRL) (bad pgGLB 0x070)
  ++ failIf (on pgPWR && v Reg.PWR.GLITCH_CTRL < s.appliedOf Reg.PWR.GLITCH_CTRL) (bad pgPWR 0x054)
  ++ failIf (on pgAON && v Reg.AON.TAMPER_CFG < s.appliedOf Reg.AON.TAMPER_CFG) (bad pgAON 0x044)
  ++ failIf (on pgRNG && (41 < v Reg.RNG.HEALTH_RCT_CUTOFF || 800 < v Reg.RNG.HEALTH_APT_CUTOFF)) (bad pgRNG 0x048)
  ++ failIf (on pgNET && (v (Reg.NET.LANE_CTRL_EN 0) = 1 || v (Reg.NET.LANE_CTRL_EN 1) = 1) && v Reg.NET.MODE_REQUIRE_MACSEC = 0) (bad pgNET 0x040)

/-! ### Host ports (R258, R264, R276, R278) -/

/-- DS_HOLD_MAX / MAX_SCK is below the bound of R281, or with an escort window below that of R330. -/
def holdBelow (v : Fld → Nat) (n : Nat) (window : Bool) : Bool :=
  let f := v (Reg.FCH.PROFILE_SCK_MHZ n)
  let p := v (Reg.FCH.PROFILE_PROTOCOL n)
  let k := protoEighths p
  let t := v (Reg.FCH.TIMING_T_DESELECT n)
  let c := protoCycles p (v (Reg.FCH.PROFILE_ADDR_WIDE n) = 1)
  let hold := v (Reg.HFP.DS_HOLD n) * 1000 * (f * k)
  let m := v (Reg.HFP.PROFILE_MAX_SCK n)
  decide (hold < m * (512 * 8000 + t * f * k + 7000 * k))
  || (window && decide (hold < m * (500 * f * k + t * f * k + (3 + c + v (Reg.FCH.PROFILE_DUMMY n)) * 1000 * k + 1536 * 8000)))

/-- The windows of host `n` under a view: index, base, size, first leaf. -/
def winsBy (v : Fld → Nat) (n : Nat) : List (Nat × Nat × Nat × Nat) :=
  ([0, 1, 2, 3].map (fun j => 4 * n + j)).filterMap (fun w =>
    if v (Reg.ESC.WIN_SIZE w) = 0 then none else some (w, v (Reg.ESC.WIN_BASE w), v (Reg.ESC.WIN_SIZE w), v (Reg.ESC.WIN_LEAF w)))

/-- The lowest offset of the windows of host `n` that hold granules, else that of its first window. -/
def winOff (v : Fld → Nat) (n : Nat) : Nat := match winsBy v n with | w :: _ => 0x40 + 16 * w.1 | [] => 0x40 + 64 * n

/-- The rules of an HFP page. -/
def hfpFails (s : State) (cs : CheckSet) (n : Nat) : List Fail :=
  let v := s.judged cs
  let p := pgHFP n
  let proto := v (Reg.HFP.PROFILE_PROTOCOL n)
  let stall := v (Reg.HFP.PROFILE_STALL n)
  let base (k : Nat) : Nat := v (Reg.HFP.CS_BASE n k)
  let size (k : Nat) : Nat := v (Reg.HFP.CS_SIZE n k)
  let win := s.inView cs pgESC && !(winsBy v n).isEmpty
  failIf (s.inView cs p)
    (failIf (!stallOffered proto stall) (recordOn cs 0x42 (p, 0x040) [])
     ++ failIf (maxSck proto < v (Reg.HFP.PROFILE_MAX_SCK n)) (recordOn cs Reason.FIELD_RANGE (p, 0x040) [])
     ++ [0, 1].flatMap (fun k => failIf (policySpace < base k + size k) (recordOn cs Reason.FIELD_RANGE (p, 0x04C + 8 * k) []))
     ++ failIf (overlaps (base 0) (size 0) (base 1) (size 1)) (recordOn cs 0x41 (p, 0x04C) [])
     ++ failIf (s.inView cs (pgFCH n))
       (failIf (stall = 0 && v (Reg.FCH.SHARING_MODE n) = 0) (recordOn cs Reason.NO_STALL_MECHANISM (p, 0x040) [(pgFCH n, 0x058)])
        ++ failIf (stall ≠ 0 && holdBelow v n win)
          (recordOn cs 0x40 (p, 0x040) ((pgFCH n, 0x040) :: (if win then [(pgESC, winOff v n)] else [])))))

/-! ### Policy (R286-R301, R562) -/

/-- The enabled region of lowest index that holds a granule, under a view. -/
def regionBy (v : Fld → Nat) (n g : Nat) : Option Nat :=
  (List.range 256).find? (fun i => v (Reg.POL.REGION_SIZE n i) ≠ 0 && v (Reg.POL.REGION_BASE n i) ≤ g
    && g < v (Reg.POL.REGION_BASE n i) + v (Reg.POL.REGION_SIZE n i))

/-- The enabled regions under a view. -/
def regionsBy (v : Fld → Nat) (n : Nat) : List Nat := (List.range 256).filter (fun i => v (Reg.POL.REGION_SIZE n i) ≠ 0)

/-- The granules at which what governs can change: the starts and the ends of the enabled regions. -/
def breaksBy (v : Fld → Nat) (n : Nat) : List Nat :=
  0 :: (regionsBy v n).flatMap (fun i => [v (Reg.POL.REGION_BASE n i), v (Reg.POL.REGION_BASE n i) + v (Reg.POL.REGION_SIZE n i)])

/-- Those that lie inside the policy space. -/
def bordersBy (v : Fld → Nat) (n : Nat) : List Nat := (breaksBy v n).filter (fun x => decide (x < policySpace))

/-- The class set at a granule includes ERASE. -/
def erasesBy (v : Fld → Nat) (n g : Nat) : Bool :=
  match regionBy v n g with | some i => bit (v (Reg.POL.REGION_ATTR_CLASSES n i)) 2 | none => false

/-- The largest ESIZE of an ERASE opcode with the first opcode that has it (R290). -/
def largestErase (v : Fld → Nat) (n : Nat) : Option (Nat × Nat) :=
  let ops := (List.range 256).filter (fun o => v (Reg.POL.OPCODE_CLASS n o) = opERASE)
  match (ops.map (fun o => v (Reg.POL.OPCODE_ESIZE n o))).max? with
  | some e => (ops.find? (fun o => v (Reg.POL.OPCODE_ESIZE n o) = e)).map (fun o => (e, o))
  | none => none

/-- R290 is broken: a border between granules of the policy space with and without ERASE lies inside an aligned block of the
largest erase. -/
def eraseSpan (v : Fld → Nat) (n e : Nat) : Bool :=
  let g := esizeBytes e / 4096
  (bordersBy v n).any (fun x => x % g ≠ 0 && erasesBy v n (x - 1) != erasesBy v n x)

/-- Region `i` yields a MIXED granule (R292): within the map where it governs with a class set the map cannot hold, or beyond it. -/
def yieldsMixed (v : Fld → Nat) (n i : Nat) : Bool :=
  let c := v (Reg.POL.REGION_ATTR_CLASSES n i)
  let mixed := c ≠ 0 && ((c ≠ 1 && c ≠ 7) || v (Reg.POL.REGION_ATTR_ESCORT n i) = 1)
  decide (65536 < v (Reg.POL.REGION_BASE n i) + v (Reg.POL.REGION_SIZE n i))
  || (mixed && (breaksBy v n).any (fun g => decide (g < 65536) && regionBy v n g = some i))

/-- The rules of a region (R291, R301, R562, R33); offsets of the entry in its window.  An ESCORT region on a port without a stall
mechanism is recorded on ESC where that page is in view (R33, R564), and on POL where it is not (log entry 132). -/
def regionFails (s : State) (cs : CheckSet) (n i : Nat) : List Fail :=
  let v := s.judged cs
  let p := pgPOL n
  let o := 0x400 + 16 * (i % 64)
  let b := v (Reg.POL.REGION_BASE n i)
  let z := v (Reg.POL.REGION_SIZE n i)
  let cs_ := v (Reg.POL.STEER_CS n)
  let half := 2 ^ (v (Reg.POL.STEER_SLOT_LOG2 n) - 12)
  let lo := v (Reg.HFP.CS_BASE n cs_) + v (Reg.POL.STEER_BASE n)
  let en := v (Reg.POL.STEER_EN n) = 1
  let escort := v (Reg.POL.REGION_ATTR_ESCORT n i) = 1
  let staging := v (Reg.POL.REGION_ATTR_STAGING n i) = 1
  let steer := v (Reg.POL.REGION_ATTR_STEER n i) = 1
  let inside := en && decide (lo ≤ b) && decide (b + z ≤ lo + 2 * half)
  let base := [(pgHFP n, 0x04C + 8 * cs_)]
  failIf (policySpace < b + z) (recordOn cs Reason.FIELD_RANGE (p, o) [])
  ++ failIf (escort && (v (Reg.POL.REGION_ATTR_CLASSES n i) ≠ 1 || staging)) (recordOn cs 0x43 (p, o + 8) [])
  ++ failIf (s.inView cs (pgHFP n))
    (failIf ((en && overlaps b z lo (2 * half) && !(inside && steer)) || (steer && !inside)) (recordOn cs 0x41 (p, 0x044) base)
     ++ failIf (staging && !(en && decide (lo + half ≤ b) && decide (b + z ≤ lo + 2 * half))) (recordOn cs 0x42 (p, 0x044) base)
     ++ failIf (escort && v (Reg.HFP.PROFILE_STALL n) = 0)
       (if s.inView cs pgESC then recordOn cs Reason.NO_STALL_MECHANISM (pgESC, winOff v n) [(pgHFP n, 0x040), (p, o + 8)]
        else recordOn cs Reason.NO_STALL_MECHANISM (p, o + 8) [(pgHFP n, 0x040)]))

/-- The steer block of an enabled STEER reaches beyond the policy space (R22). -/
def steerBeyond (s : State) (cs : CheckSet) (n : Nat) : List Fail :=
  let v := s.judged cs
  let c := v (Reg.POL.STEER_CS n)
  let hfp := s.inView cs (pgHFP n)
  let lo := (if hfp then v (Reg.HFP.CS_BASE n c) else 0) + v (Reg.POL.STEER_BASE n)
  failIf (v (Reg.POL.STEER_EN n) = 1 && decide (policySpace < lo + 2 * 2 ^ (v (Reg.POL.STEER_SLOT_LOG2 n) - 12)))
    (recordOn cs Reason.FIELD_RANGE (pgPOL n, 0x044) (if hfp then [(pgHFP n, 0x04C + 8 * c)] else []))

/-- The rules of a POL page. -/
def polFails (s : State) (cs : CheckSet) (n : Nat) : List Fail :=
  let v := s.judged cs
  let p := pgPOL n
  let b := v (Reg.POL.STEER_SLOT_LOG2 n)
  let en := v (Reg.POL.STEER_EN n) = 1
  let img := v (Reg.POL.IMAGE_OFFSET n)
  let mixed := (regionsBy v n).filter (yieldsMixed v n)
  failIf (s.inView cs p)
    ((List.range 256).flatMap (fun o => failIf (v (Reg.POL.OPCODE_CLASS n o) = opRESET && v (Reg.POL.OPCODE_ADDR n o) = 1)
        (recordOn cs Reason.FIELD_RANGE (p, 0x100 + 4 * (o / 4)) []))
     ++ failIf (en && v (Reg.POL.STEER_BASE n) * 4096 % 2 ^ (b + 1) ≠ 0) (recordOn cs Reason.ALIGNMENT (p, 0x044) [])
     ++ failIf (en && (img < 2 || 2 ^ (b - 12) - 1 < img)) (recordOn cs Reason.FIELD_RANGE (p, 0x044) [])
     ++ s.steerBeyond cs n
     ++ (regionsBy v n).flatMap (s.regionFails cs n)
     ++ (match largestErase v n with
       | some (e, o) => failIf (eraseSpan v n e) (recordOn cs 0x40 (p, 0x100 + 4 * (o / 4)) [])
       | none => [])
     ++ failIf (s.inView cs (pgHFP n) && v (Reg.HFP.PROFILE_STALL n) = 0 && v (Reg.HFP.PROFILE_DUMMY n) < 6 && !mixed.isEmpty)
       (recordOn cs Reason.NO_STALL_MECHANISM (p, ((mixed.map (fun i => 0x400 + 16 * (i % 64))).min?).getD 0x400) [(pgHFP n, 0x040)]))

/-! ### Snoop units, channels, crossbar -/

/-- The staging window reaches beyond the policy space (chapter 07); units of 4 KiB are aligned to either block size. -/
def snpFails (s : State) (cs : CheckSet) : List Fail :=
  (List.range 6).flatMap (fun u => failIf (policySpace < s.judged cs (Reg.SNP.STAGE_BASE u) + s.judged cs (Reg.SNP.STAGE_SIZE u))
    (recordOn cs Reason.FIELD_RANGE (pgSNP, 0x44 + 64 * u) []))

/-- The lowest offset among the fields that enter UTIL (R83). -/
def utilOff (v : Fld → Nat) (c : Nat) : Nat :=
  let rs := (List.range 5).filterMap (fun i => if v (Reg.FCH.RES_READ c i) = 0 then none else some (0x60 + 4 * i))
  let ps := (List.range 5).filterMap (fun i => if v (Reg.FCH.RES_PROG c i) = 0 then none else some (0x74 + 4 * i))
  if v (Reg.FCH.SHARING_MODE c) = 1 then 0x58 else if v (Reg.FCH.K0_RES c) ≠ 0 then 0x5C else (rs ++ ps).headD 0x5C

/-- UTIL exceeds 90 %, or 0.9 × LEASE_MIN on a LEASED channel (R364). -/
def utilExceeded (v : Fld → Nat) (c : Nat) : Bool :=
  let u := utilBy v c
  decide (u.2 * (if v (Reg.FCH.SHARING_MODE c) = 1 then 9 * v (Reg.FCH.SHARING_LEASE_MIN c) else 900) < u.1 * 1000)

/-- Channel and port profile differ (R345). -/
def profileDiffers (v : Fld → Nat) (n : Nat) : Bool :=
  let p := v (Reg.FCH.PROFILE_PROTOCOL n)
  p ≠ v (Reg.HFP.PROFILE_PROTOCOL n) || v (Reg.FCH.PROFILE_DUMMY n) ≠ v (Reg.HFP.PROFILE_DUMMY n)
  || v (Reg.HFP.PROFILE_MAX_SCK n) < v (Reg.FCH.PROFILE_SCK_MHZ n)
  || (p < 2 && v (Reg.FCH.PROFILE_ADDR_WIDE n) ≠ v (Reg.HFP.PROFILE_ADDR_WIDE n))

/-- The rules of a channel page (R345, R364, R558). -/
def fchFails (s : State) (cs : CheckSet) (c : Nat) : List Fail :=
  let v := s.judged cs
  let p := pgFCH c
  let mode := v (Reg.FCH.SHARING_MODE c)
  failIf (s.inView cs p)
    (failIf (decide (6 ≤ c) && mode ≠ 2) (recordOn cs Reason.FIELD_RANGE (p, 0x058) [])
     ++ failIf ((decide (6 ≤ c) || mode = 1) && v (Reg.FCH.K0_RES c) ≠ 0) (recordOn cs Reason.FIELD_RANGE (p, 0x05C) [])
     ++ failIf (decide (c < 6) && s.inView cs (pgHFP c))
       (failIf (mode = 2) (recordOn cs Reason.CONFLICT_WITH_PAGE (p, 0x058) [(pgHFP c, 0x004)])
        ++ failIf (profileDiffers v c) (recordOn cs Reason.CONFLICT_WITH_PAGE (p, 0x040) [(pgHFP c, 0x040)]))
     ++ failIf (utilExceeded v c) (recordOn cs Reason.OVERSUBSCRIBED (p, utilOff v c) []))

/-- SHARE totals at most 100 % on each engine (R363). -/
def xbrFails (s : State) (cs : CheckSet) : List Fail :=
  let v := s.judged cs
  (List.range 4).flatMap (fun i =>
    failIf (100 < v (Reg.XBR.SHARE_K2 i) + v (Reg.XBR.SHARE_K3 i) + v (Reg.XBR.SHARE_K4 i) + v (Reg.XBR.SHARE_K5 i))
      (recordOn cs Reason.OVERSUBSCRIBED (pgXBR, 0x60 + 4 * i) []))

/-! ### Escort and hosts (R318, R321, R339, R404) -/

/-- Granule ranges cover a granule. -/
def covers (l : List (Nat × Nat)) (g : Nat) : Bool := l.any (fun r => decide (r.1 ≤ g) && decide (g < r.1 + r.2))

/-- Two lists of granule ranges cover the same granules. -/
def sameCover (a b : List (Nat × Nat)) : Bool :=
  ((a ++ b).flatMap (fun r => [r.1, r.1 + r.2])).all (fun g => covers a g == covers b g)

/-- The rules of R318 and R22 on the windows of all hosts: leaves of LDM, the policy space. -/
def ldmFails (s : State) (cs : CheckSet) : List Fail :=
  let ws := (List.range 6).flatMap (winsBy (s.judged cs))
  let leaves := (ws.map (fun w => 4 * w.2.2.1)).sum
  let pairs := ws.flatMap (fun a => (ws.filter (fun b => decide (a.1 < b.1))).map (fun b => (a, b)))
  failIf (98304 < leaves) (recordOn cs Reason.OVERSUBSCRIBED (pgESC, 0x44 + 16 * ((ws.map Prod.fst).headD 0)) [])
  ++ ws.flatMap (fun w => failIf (98304 < w.2.2.2 + 4 * w.2.2.1) (recordOn cs Reason.FIELD_RANGE (pgESC, 0x44 + 16 * w.1) []))
  ++ ws.flatMap (fun w => failIf (policySpace < w.2.1 + w.2.2.1) (recordOn cs Reason.FIELD_RANGE (pgESC, 0x40 + 16 * w.1) []))
  ++ pairs.flatMap (fun q =>
    failIf (overlaps q.1.2.2.2 (4 * q.1.2.2.1) q.2.2.2.2 (4 * q.2.2.2.1)) (recordOn cs 0x42 (pgESC, 0x44 + 16 * q.1.1) [])
    ++ failIf (q.1.1 / 4 = q.2.1 / 4 && overlaps q.1.2.1 q.1.2.2.1 q.2.2.1 q.2.2.2.1) (recordOn cs 0x40 (pgESC, 0x40 + 16 * q.1.1) []))

/-- The first field of window `w` that differs from the window a host was released under (R318, R83). -/
def changedField (ws old : List (Nat × Nat × Nat × Nat)) (w : Nat) : Option Nat :=
  match ws.find? (fun x => x.1 = w), old.find? (fun x => x.1 = w) with
  | none, none => none
  | some a, some b =>
    if a.2.1 ≠ b.2.1 then some (0x40 + 16 * w) else if a.2.2.1 ≠ b.2.2.1 then some (0x44 + 16 * w)
    else if a.2.2.2 ≠ b.2.2.2 then some (0x48 + 16 * w) else none
  | _, _ => some (0x44 + 16 * w)

/-- The rules of host `n`'s windows (R33, R318, first pairing of R339). -/
def windowFails (s : State) (cs : CheckSet) (n : Nat) : List Fail :=
  let v := s.judged cs
  let ws := winsBy v n
  let es := (regionsBy v n).filter (fun i => v (Reg.POL.REGION_ATTR_ESCORT n i) = 1)
  let polOff := match es with | i :: _ => 0x400 + 16 * (i % 64) | [] => 0x400
  failIf (s.inView cs (pgPOL n) && !sameCover (ws.map (fun w => (w.2.1, w.2.2.1))) (es.map (fun i => (v (Reg.POL.REGION_BASE n i), v (Reg.POL.REGION_SIZE n i)))))
    (recordOn cs 0x41 (pgESC, winOff v n) [(pgPOL n, polOff)])
  ++ failIf (s.inView cs (pgHFP n) && v (Reg.HFP.PROFILE_STALL n) = 0 && !ws.isEmpty)
    (recordOn cs Reason.NO_STALL_MECHANISM (pgESC, winOff v n) [(pgHFP n, 0x040)])
  ++ (if s.released n && cs.set.contains pgESC then
      ([0, 1, 2, 3].filterMap (fun j => changedField ws (s.host n).wins (4 * n + j))).flatMap (fun o =>
        recordOn cs Reason.CONFLICT_WITH_PAGE (pgESC, o) []) else [])
  ++ failIf (s.inView cs (pgHFP n) && s.inView cs (pgFCH n) && v (Reg.FCH.SHARING_MODE n) ≠ 2
      && v Reg.ESC.BLOCK_TIMEOUT * 1000 ≤ 4 * t1kBy v n)
    (recordOn cs Reason.TIMEOUT_BELOW_RETRY (pgESC, 0x1C4) [(pgHFP n, 0x004), (pgFCH n, 0x040)])

/-- The rules of the ESC page. -/
def escFails (s : State) (cs : CheckSet) : List Fail :=
  failIf (s.inView cs pgESC) (s.ldmFails cs ++ (List.range 6).flatMap (s.windowFails cs))

/-- The worst case of ladder levels 1 to 4 in ms (R339). -/
def ladderWorst (v : Fld → Nat) (n : Nat) : Nat :=
  let a := (v (Reg.HSV.SUPERVISE_BOOT_RETRIES n) + 1) * (v (Reg.HSV.BOOT_TIMEOUT n) + v (Reg.HSV.RESET_PULSE n))
  2 * (v (Reg.HSV.GATE_LIMIT n) + a) + v (Reg.HSV.RESTORE_LIMIT n)

/-- The STX reassembly buffers (R421) and the reference measurement table (R428): base and length. -/
def stxRange (v : Fld → Nat) : Nat × Nat := (v Reg.STX.BUF_BASE * 0x10000, v Reg.STX.BUF_COUNT * 0x4000)
def rmtRange (v : Fld → Nat) : Nat × Nat := (v Reg.ATT.RMT_BASE * 0x10000, v Reg.ATT.RMT_COUNT * 64)

/-- The rules of the HSV page (R321, R339, R404). -/
def hsvFails (s : State) (cs : CheckSet) : List Fail :=
  let v := s.judged cs
  let buf := v Reg.HSV.GATE_BUF * 0x20000
  let stx := stxRange v
  let rmt := rmtRange v
  failIf (s.inView cs pgHSV)
    (failIf (!inSram buf 0x20000) (recordOn cs Reason.FIELD_RANGE (pgHSV, 0x060) [])
     ++ failIf (s.inView cs pgSTX && overlaps buf 0x20000 stx.1 stx.2) (recordOn cs Reason.CONFLICT_WITH_PAGE (pgHSV, 0x060) [(pgSTX, 0x044)])
     ++ failIf (s.inView cs pgATT && overlaps buf 0x20000 rmt.1 rmt.2) (recordOn cs Reason.CONFLICT_WITH_PAGE (pgHSV, 0x060) [(pgATT, 0x040)])
     ++ failIf (bit (v Reg.HSV.MGP_VIEW_LO) 2) (recordOn cs Reason.FIELD_RANGE (pgHSV, 0x064) [])
     ++ failIf (bit (v Reg.HSV.MGP_VIEW_HI) 5) (recordOn cs Reason.FIELD_RANGE (pgHSV, 0x068) [])
     ++ (List.range 6).flatMap (fun n => failIf (v (Reg.HSV.MEND_DEADLINE n) * 1000 ≤ ladderWorst v n)
       (recordOn cs Reason.TIMEOUT_BELOW_RETRY (pgHSV, 0x80 + 32 * n) [])))

/-! ### Network, CAN, sessions, attestation -/

/-- The rules of the NET and CAN pages (R375, R390, R393), and METER_ANCHOR at whole days (R448). -/
def linkFails (s : State) (cs : CheckSet) : List Fail :=
  let v := s.judged cs
  let e := v Reg.NET.STX_ETYPE
  failIf (s.inView cs pgNET && (e < 0x600 || e = 0x8100 || e = 0x88E5 || e = 0x888E)) (recordOn cs Reason.FIELD_RANGE (pgNET, 0x044) [])
  ++ failIf (s.inView cs pgTIME && v Reg.TIME.METER_ANCHOR % 86400 ≠ 0) (recordOn cs Reason.ALIGNMENT (pgTIME, 0x05C) [])
  ++ failIf (s.inView cs pgCAN) ([0, 1].flatMap (fun i =>
    let nom := v (Reg.CAN.NBT_BRP i) * (1 + v (Reg.CAN.NBT_TSEG1 i) + v (Reg.CAN.NBT_TSEG2 i))
    let dat := v (Reg.CAN.DBT_BRP i) * (1 + v (Reg.CAN.DBT_TSEG1 i) + v (Reg.CAN.DBT_TSEG2 i))
    failIf (nom < 40 || nom < dat) (recordOn cs Reason.FIELD_RANGE (pgCAN, 0x044 + 128 * i) [])
    ++ failIf (dat < 8) (recordOn cs Reason.FIELD_RANGE (pgCAN, 0x048 + 128 * i) [])
    ++ failIf (v (Reg.CAN.RETX_TIMEOUT i) ≤ v (Reg.CAN.TP_TIMING_N_BS i) + v (Reg.CAN.TP_TIMING_N_CR i))
      (recordOn cs Reason.TIMEOUT_BELOW_RETRY (pgCAN, 0x054 + 128 * i) [])))

/-- SESSION_KEK names a usable WRAP_ONLY slot. -/
def kekOk (s : State) (i : Nat) : Bool := s.slotUsable i && s.slotTagOk i && (s.slot i).keyAttr = atWRAP

/-- The rules of the STX page, and R389 with the media that are enabled. -/
def stxFails (s : State) (cs : CheckSet) : List Fail :=
  let v := s.judged cs
  let t := v Reg.STX.SESSION_TIMEOUT
  let buf := stxRange v
  let rmt := rmtRange v
  failIf (s.inView cs pgSTX)
    (failIf (!s.kekOk (v Reg.STX.SESSION_KEK)) (recordOn cs Reason.KEY_ATTR (pgSTX, 0x048) [])
     ++ failIf (!inSram buf.1 buf.2) (recordOn cs Reason.FIELD_RANGE (pgSTX, 0x044) [])
     ++ failIf (s.inView cs pgATT && overlaps buf.1 buf.2 rmt.1 rmt.2) (recordOn cs Reason.FIELD_RANGE (pgSTX, 0x044) [(pgATT, 0x040)])
     ++ failIf (s.inView cs pgNET && (v (Reg.NET.LANE_CTRL_EN 0) = 1 || v (Reg.NET.LANE_CTRL_EN 1) = 1)
        && t ≤ (v Reg.NET.RETX_LIMIT + 1) * v Reg.NET.RETX_TIMEOUT)
       (recordOn cs Reason.TIMEOUT_BELOW_RETRY (pgSTX, 0x040) [(pgNET, 0x04C)])
     ++ failIf (s.inView cs pgCAN) ([0, 1].flatMap (fun i =>
       failIf (v (Reg.CAN.CAN_CTRL_EN i) = 1 && t ≤ (v (Reg.CAN.RETX_LIMIT i) + 1) * v (Reg.CAN.RETX_TIMEOUT i))
         (recordOn cs Reason.TIMEOUT_BELOW_RETRY (pgSTX, 0x040) [(pgCAN, 0x040 + 128 * i)]))))

/-! ### Ledger (R365, R461, R498) -/

/-- An enabled rule of Clove logs this kind (R498). -/
def ruleLogs (v : Fld → Nat) (kind : Nat) : Bool :=
  (List.range 32).any (fun r => !(v (Reg.CLOV.TERM_A_CHAN r) = 0 && v (Reg.CLOV.TERM_B_CHAN r) = 0 && v (Reg.CLOV.TERM_C_CHAN r) = 0)
    && bit (v (Reg.CLOV.ACTION_ACTIONS r)) 1 && v (Reg.CLOV.ACTION_KIND r) = kind)

/-- The rules that hold while the LEDG page is enabled; each is CONFLICT_WITH_PAGE on LEDG, or on FCHB or CLOV where LEDG is not in
the set.  A page of theirs that is being cleared breaks them (R552). -/
def ledgFails (s : State) (cs : CheckSet) : List Fail :=
  let v := s.judged cs
  let put (page off : Nat) : List Fail :=
    if cs.set.contains pgLEDG then [⟨pgLEDG, 0x004, Reason.CONFLICT_WITH_PAGE⟩]
    else if cs.set.contains page || cs.clr.contains page then [⟨page, off, Reason.CONFLICT_WITH_PAGE⟩] else []
  let pl := v (Reg.FCH.TIMING_PAGE_LOG2 6)
  let fb := pgFCH 6
  failIf (s.inView cs pgLEDG)
    (failIf (cs.clr.contains fb) (put fb 0x004)
     ++ failIf (s.inView cs fb && v (Reg.FCH.RES_PROG 6 1) = 0) (put fb 0x078)
     ++ failIf (s.inView cs fb && ((pl ≠ 8 && pl ≠ 9) || v (Reg.FCH.TIMING_ERASE_LOG2 6) ≠ 16 || 600 < v (Reg.FCH.T_PP_MAX 6))) (put fb 0x044)
     ++ failIf (cs.clr.contains pgCLOV) (put pgCLOV 0x004)
     ++ failIf (s.inView cs pgCLOV && v Reg.CLOV.CTRL_EN = 0) (put pgCLOV 0x040)
     ++ failIf (s.inView cs pgCLOV && !(ruleLogs v 1 && ruleLogs v 2 && ruleLogs v 3 && ruleLogs v 4)) (put pgCLOV 0x100))

/-! ### Clearing (R553) and detached strobes (R48) -/

/-- A host has a window in force and is being verified or runs. -/
def windowLive (s : State) (n : Nat) : Bool :=
  !(s.windowsOf n).isEmpty && (s.hostSt n = hsVERIFYING || s.released n)

/-- Pages whose ENABLE may not be cleared (R553). -/
def clearFails (s : State) (cs : CheckSet) : List Fail :=
  (List.range 6).flatMap (fun n => [pgHFP n, pgPOL n].flatMap (fun p =>
    failIf (cs.clr.contains p && s.released n) [⟨p, 0x004, Reason.CONFLICT_WITH_PAGE⟩]))
  ++ failIf (cs.clr.contains pgESC && (List.range 6).any s.windowLive) [⟨pgESC, 0x004, Reason.CONFLICT_WITH_PAGE⟩]

/-- While detached, a policy page of a live host applies only if its shadow is the retained policy (R48). -/
def detachedFails (s : State) (cs : CheckSet) : List Fail :=
  failIf (!s.mode.attached) ((List.range 6).flatMap (fun n => [pgHFP n, pgPOL n].flatMap (fun p =>
    failIf (cs.set.contains p && s.released n && s.shadowCrc p ≠ s.rd (retainedFld p)) [⟨p, 0, Reason.CONFLICT_WITH_PAGE⟩])))

/-! ### The check -/

/-- Every failure of a set. -/
def checkFails (s : State) (cs : CheckSet) : List Fail :=
  cs.set.flatMap (s.rangeFails cs) ++ s.lifeFails cs
  ++ (List.range 6).flatMap (fun n => s.hfpFails cs n ++ s.polFails cs n)
  ++ failIf (s.inView cs pgSNP) (s.snpFails cs) ++ (List.range 8).flatMap (s.fchFails cs)
  ++ failIf (s.inView cs pgXBR) (s.xbrFails cs) ++ s.escFails cs ++ s.hsvFails cs ++ s.linkFails cs ++ s.stxFails cs ++ s.ledgFails cs
  ++ s.clearFails cs

/-- The check of a strobe. -/
def strobeFails (s : State) (cs : CheckSet) : List Fail := s.checkFails cs ++ s.detachedFails cs

end State

/-- The failure that a page records: its first in offset order (R83); of two at one offset the one that `checkFails` lists first
(DESIGN CHOICE, log entry 133). -/
def firstFail (l : List Fail) (p : Nat) : Option Fail :=
  l.foldl (fun a f => if f.page ≠ p then a else match a with | some g => if f.off < g.off then some f else some g | none => some f) none

namespace State

/-- The reason of a CFD write's refusal by its own field and word (R551), the grace window apart: range, reserved bits, WDT_PERIOD. -/
def cfdFault (s : State) (p : Nat) (fs : List Fld) (value : Nat) : Option Nat :=
  let known := fs.foldl (fun a f => a + (2 ^ f.width - 1) * 2 ^ f.lo) 0
  let bad (f : Fld) : Bool := f.kind = .cfd && (bits value (f.lo + f.width - 1) f.lo < f.rmin || f.rmax < bits value (f.lo + f.width - 1) f.lo)
  if fs.any bad || (Nat.land value (2 ^ 32 - 1 - known)) ≠ 0 then some Reason.FIELD_RANGE
  else if p = pgCORE && fs.contains Reg.CORE.WDT_PERIOD && s.inService && bits value 13 0 = 0 then some Reason.NOT_IN_LIFECYCLE
  else none

end State

end Sys2Proof.Machine
end

