-- ==== Sys2Proof/Machine/Stx.lean ====
section
/-! DEFINITION. Session contexts and what the device sends in them (R385-R388, R408-R411, R416, R419, R422-R424): frames, messages,
retransmission, the way back to IDLE, the firmware queue and the STX commands other than OPEN. -/

namespace Sys2Proof.Machine

/-! STX block reasons. -/
def sxNOT_READY : Nat := 0x40
def sxUNKNOWN_IDENTITY : Nat := 0x41
def sxHANDSHAKE_BUSY : Nat := 0x42
def sxHANDSHAKE_SIGNATURE : Nat := 0x43
def sxCONFIRM_FAIL : Nat := 0x44
def sxAUTH_FAIL : Nat := 0x45
def sxSEQ_EXHAUSTED : Nat := 0x46
def sxKEY_LOST : Nat := 0x47
def sxBUF_FULL : Nat := 0x48
def sxNO_CONTEXT : Nat := 0x49
def sxSESSION_TIMEOUT : Nat := 0x4A
def sxLINK_FAIL : Nat := 0x4B
def sxSUITE : Nat := 0x4C

/-! Session states (R408). -/
def ssIDLE : Nat := 0
def ssHELLO : Nat := 1
def ssKEYED : Nat := 2
def ssACTIVE : Nat := 3
def ssCLOSING : Nat := 4

/-! Frame types (R387). -/
def ftHELLO : Nat := 0x01
def ftHELLO_REPLY : Nat := 0x02
def ftKEY_CONFIRM : Nat := 0x03
def ftCLOSE : Nat := 0x04
def ftLINK_ACK : Nat := 0x05
def ftQUOTE_REQ : Nat := 0x10
def ftQUOTE : Nat := 0x11
def ftIMAGE_CHUNK : Nat := 0x20

/-- The types of R387. -/
def frameType (t : Nat) : Bool := [0x01, 0x02, 0x03, 0x04, 0x05, 0x10, 0x11, 0x12, 0x20, 0x21, 0x22, 0x23, 0x24].contains t

/-- An STX header (R385). -/
def stxHeader (type sid : Nat) (more : Bool) (seq len : Nat) : List Byte :=
  [1] ++ leBytes 1 type ++ leBytes 2 (sid + (if more then 4096 else 0)) ++ leBytes 4 seq ++ leBytes 2 len ++ List.replicate 6 0

/-- The issuer number of a session's requests (R425). -/
def sessIssuer (sid : Nat) : Nat := 1000 + sid

/-! Verdicts (R432). -/
def vdACCEPT : Nat := 0
def vdMEASUREMENT : Nat := 1
def vdSVN_LOW : Nat := 2
def vdSIGNATURE : Nat := 3
def vdNONCE : Nat := 4
def vdNO_QUOTE : Nat := 5
def vdMISSING : Nat := 6
def vdNOT_CHECKED : Nat := 7
def vdFORMAT : Nat := 8
def vdIDENTITY : Nat := 9

namespace State

/-- Context `i`. -/
def sess (s : State) (i : Nat) : Sess := Tbl.get Sess.idle s.stx.sessions i

/-- The contexts that are not as IDLE leaves them, those in a state, and those that hold an ephemeral key register. -/
def sessIds (s : State) : List Nat := Tbl.keys s.stx.sessions
def sessIn (s : State) (st : Nat) : List Nat := s.sessIds.filter (fun i => (s.sess i).state = st)
def ephUsed (s : State) : List Nat := s.sessIds.filterMap (fun i => (s.sess i).ephReg)

/-- Store a context; SESSIONS counts. -/
def setSess (s : State) (i : Nat) (c : Sess) : State :=
  let s := { s with stx := { s.stx with sessions := Tbl.put Sess.idle s.stx.sessions i c } }
  (s.wr Reg.STX.SESSIONS_ACTIVE (s.sessIn ssACTIVE).length).wr Reg.STX.SESSIONS_HANDSHAKES s.ephUsed.length

/-- The lowest-numbered IDLE context (R410). -/
def idleCtx (s : State) : Option Nat := (List.range 4096).find? (fun i => (s.sess i).state = ssIDLE)

/-- The lowest free ephemeral key register (R413). -/
def freeEph (s : State) : Option Nat := [4, 5, 6, 7].find? (fun r => !s.ephUsed.contains r && (s.keyReg r).alg = 0)

/-- Reassembly buffers in use, and the lowest free one (R421): one for each message under way in a session, and one for each HELLO. -/
def bufsUsed (s : State) : List Nat := s.sessIds.filterMap (fun i => (s.sess i).buf) ++ s.stx.prelim.map (fun p => p.buf)
def freeBuf (s : State) : Option Nat := (List.range (s.cfg Reg.STX.BUF_COUNT)).find? (fun b => !s.bufsUsed.contains b)

/-- Frame `i` of a message goes to its place in buffer `b`, frames being `size` bytes long (R386, R421); what would lie beyond the buffer's
16 KiB is not stored. -/
def bufStore (s : State) (b i size : Nat) (body : List Byte) : State :=
  s.sramStore (s.cfg Reg.STX.BUF_BASE * 0x10000 + b * 0x4000 + i * size) (body.take (0x4000 - i * size))

/-- Count a frame that is dropped (R387, R409, R411). -/
def dropFrame (s : State) : State := s.bump Reg.STX.DROPPED_TYPE

/-! ### Rounds, as far as a session that ends is concerned (R430, R432) -/

/-- The round has nothing more to wait for. -/
def roundCheck (r : Round) : Round := if r.silent.isEmpty && r.waiting.isEmpty then { r with closed := true } else r

/-- A component's verdict. -/
def roundVerdict (s : State) (sid code : Nat) : State :=
  match s.stx.round with
  | none => s
  | some r =>
    let c := s.sess sid
    let r := { r with verdicts := r.verdicts ++ [(⟨c.partner, c.component, code⟩ : Verdict)], silent := r.silent.filter (· ≠ sid), waiting := r.waiting.filter (fun w => w.1 ≠ sid) }
    { s with stx := { s.stx with round := some (roundCheck r) } }

/-- A session leaves a round: its component is NO_QUOTE unless it has been checked. -/
def roundLeave (s : State) (sid : Nat) : State :=
  match s.stx.round with
  | none => s
  | some r => if r.closed || !(r.silent.contains sid || r.waiting.any (fun w => w.1 = sid)) then s else s.roundVerdict sid vdNO_QUOTE

/-! ### Back to IDLE (R409) -/

/-- A context returns to IDLE: its keys, key register, buffers and requests are released. -/
def toIdle (s : State) (sid cause : Nat) : State :=
  let c := s.sess sid
  if c.state = ssIDLE then s
  else
    let s := s.roundLeave sid
    let s := match c.ephReg with | some r => s.setKeyReg r KeyReg.empty | none => s
    let s := { s with ecdhOut := Tbl.put 0 s.ecdhOut sid 0 }
    let s := s.setSess sid { Sess.idle with cause := cause % 256 }
    let s := if c.state = ssACTIVE || c.state = ssCLOSING then s.raise pgSTX 9 else s
    (s.dropReqs 2 (fun r => (r.kind = .session || r.kind = .quote) && r.issuer = sessIssuer sid)).pumpPke

/-- Every context that is not IDLE returns to IDLE (R426, KEY_LOST). -/
def allIdle (s : State) (cause : Nat) : State := s.sessIds.foldl (fun s i => s.toIdle i cause) s

/-! ### Sending -/

/-- Bytes to a peer on a medium (R408): a lane, a CAN port, or the mailbox. -/
def sendOn (s : State) (medium peer : Nat) (f : List Byte) : State :=
  if medium < 2 then s.sendEth medium peer f
  else if medium < 4 then s.sendCan (medium - 2) peer f
  else { s with mgp := { s.mgp with stxOut := s.mgp.stxOut ++ [f] } }

/-- A LINK_ACK (R388); the mailbox delivers reliably, so none goes there. -/
def sendAck (s : State) (medium peer sid seq : Nat) (payload : List Byte) : State :=
  if medium = 4 then s else s.sendOn medium peer (stxHeader ftLINK_ACK sid false seq payload.length ++ payload)

/-- The key of a direction, unwrapped under the slot in SESSION_KEK (R416). -/
def sessKek (s : State) : List Byte := (digestBytes (s.keyOf (s.cfg Reg.STX.SESSION_KEK))).take 32
def sessKey (s : State) (blob : List Byte) : List Byte := slice (kwPlain s.sessKek blob) 16 32

/-- A protected operation of a session can start (R194, R416, R417): an engine can be taken, and the slot in SESSION_KEK captured. -/
def sessAes (s : State) : Bool := s.aesTakes && !s.captureWaits (s.cfg Reg.STX.SESSION_KEK)

/-- A protected operation takes its engine, and the slot in SESSION_KEK is captured for it (R416). -/
def sessEngine (s : State) : State :=
  let k := s.cfg Reg.STX.SESSION_KEK
  if s.slotUsable k then s.aesBorrow.cacheFill k else s.aesBorrow

/-- A frame's payload as it is sent: from KEYED on under GCM, with the header as associated data (R416). -/
def sealPart (s : State) (c : Sess) (head plain : List Byte) (seq : Nat) : List Byte :=
  let key := s.sessKey c.blobTx
  let iv := c.saltTx ++ leBytes 4 seq
  let ct := aesOut 3 false key iv plain
  ct ++ digestBytes (Config.gcmTag key iv head ct)

/-- One frame of a message leaves and waits for its LINK_ACK (R388, R419). -/
def sendPart (s : State) (sid type : Nat) (prot more : Bool) (part : List Byte) : State :=
  let c := s.sess sid
  let n := part.length + (if prot then 16 else 0)
  let head := stxHeader type sid more c.txSeq n
  let f := head ++ (if prot then s.sealPart c head part c.txSeq else part)
  let s := if prot then s.sessEngine else s
  let c := { c with txSeq := c.txSeq + 1, unacked := if c.medium = 4 then c.unacked else c.unacked ++ [(⟨c.txSeq, f, 0⟩ : Unacked)] }
  (s.setSess sid c).sendOn c.medium c.peer f

/-- The frames of a message (R386): MORE in every one but the last. -/
def sendParts (sid type : Nat) (prot : Bool) : List (List Byte) → State → State
  | [], s => s
  | [p], s => s.sendPart sid type prot false p
  | p :: ps, s => sendParts sid type prot ps (s.sendPart sid type prot true p)

/-- Cut a message into the payloads of its frames; an empty message has one. -/
def partsOf (prot : Bool) (m : List Byte) : List (List Byte) :=
  if m.isEmpty then [[]] else chunks (if prot then 1952 else 1968) m.length m

/-- Send a message (R386, R416, R419); sequence numbers that run out end the session. -/
def sendMsg (s : State) (sid type : Nat) (m : List Byte) : State :=
  let c := s.sess sid
  let prot := decide (ssKEYED ≤ c.state)
  let ps := partsOf prot m
  if 0xFFFFFFFF ≤ c.txSeq + ps.length then s.toIdle sid sxSEQ_EXHAUSTED
  else sendParts sid type prot ps s

/-- An unprotected CLOSE to a peer that gets no context (R410, R413). -/
def refuseHello (s : State) (medium peer sid code : Nat) : State :=
  s.sendOn medium peer (stxHeader ftCLOSE sid false 1 2 ++ leBytes 2 (pgSTX * 256 + code))

/-! ### Acknowledgements and retransmission (R388, R424) -/

/-- A LINK_ACK arrives; that of a CLOSE ends the session. -/
def linkAck (s : State) (medium peer sid seq : Nat) : State :=
  let c := s.sess sid
  if c.state = ssIDLE || c.medium ≠ medium || c.peer ≠ peer then s.dropFrame
  else
    let s := s.setSess sid { c with unacked := c.unacked.filter (fun u => u.seq ≠ seq) }
    if c.state = ssCLOSING && c.closing = seq then s.toIdle sid 0 else s

/-- RETX_LIMIT of a medium. -/
def retxLimit (s : State) (medium : Nat) : Nat := if medium < 2 then s.cfg Reg.NET.RETX_LIMIT else s.cfg (Reg.CAN.RETX_LIMIT (medium - 2))

/-- RETX_TIMEOUT of the frame that waited longest: it is sent again, or LINK_FAIL ends the session; paused in Brace (R405). -/
def retransmit (s : State) (sid : Nat) : State :=
  let c := s.sess sid
  match c.unacked with
  | [] => s
  | u :: us =>
    if s.brace then s
    else if u.tries < s.retxLimit c.medium then
      ((s.setSess sid { c with unacked := us ++ [{ u with tries := u.tries + 1 }] }).bump Reg.NET.RETX_COUNT).sendOn c.medium c.peer u.frame
    else ((s.bump Reg.NET.LINK_FAIL_COUNT).raise pgNET 11).toIdle sid sxLINK_FAIL

/-- SESSION_TIMEOUT (R424): a handshake step awaited from the peer, or the acknowledgement of a CLOSE; paused in Brace (R438). -/
def sessTimeout (s : State) (sid : Nat) : State :=
  let c := s.sess sid
  let awaits := (c.state = ssHELLO && c.initiator && c.reply.isEmpty) || c.state = ssKEYED || c.state = ssCLOSING
  if awaits && !s.brace then (s.bump Reg.STX.TIMEOUT_COUNT).toIdle sid sxSESSION_TIMEOUT else s

/-- A CLOSE goes out on an ACTIVE session (R409). -/
def closeSess (s : State) (sid reason : Nat) : State :=
  let seq := (s.sess sid).txSeq
  let s := s.sendMsg sid ftCLOSE (leBytes 2 reason)
  let c := s.sess sid
  if c.state = ssACTIVE then s.setSess sid { c with state := ssCLOSING, closing := seq } else s

/-- The step 2 of SEAL on a session (R56). -/
def sealSess (s : State) (sid : Nat) : State :=
  let st := (s.sess sid).state
  if st = ssACTIVE then s.closeSess sid 0
  else if st = ssHELLO || st = ssKEYED then s.sendMsg sid ftCLOSE (leBytes 2 0)
  else s

/-- A session that SEAL waited for is abandoned (R56). -/
def abandonSess (s : State) (sid : Nat) : State :=
  if (s.sess sid).state = ssIDLE then s else (s.bump Reg.STX.ABANDONED).toIdle sid 0

/-- A received CLOSE returns the context to IDLE (R409, R423). -/
def peerClose (s : State) (sid : Nat) (m : List Byte) : State := s.toIdle sid (fieldLe m 0 2)

/-! ### The firmware queue and commands (R422) -/

/-- A message for firmware. -/
def toFw (s : State) (sid type : Nat) (m : List Byte) : State :=
  let c := s.sess sid
  ({ s with stx := { s.stx with fwq := s.stx.fwq ++ [(⟨sid, c.partner, c.component, type, m⟩ : FwMsg)] } }).raise pgSTX 10

/-- RESULT of an STX command. -/
def stxResult (s : State) (sid code : Nat) : State :=
  let s := if code = 0 then s else s.refuse pgSTX code 0x50
  (s.wr Reg.STX.RESULT_SESSION sid).wr Reg.STX.RESULT_CODE (if code = 0 then 0 else pgSTX * 256 + code)

/-- An STX command that needs an engine that it cannot have waits in its register (R255, R417, R506). -/
def stxWait (s : State) (i : Instr) : State := s.setCmdSlot pgSTX 0x50 { s.cmdSlot pgSTX 0x50 with queued := some i }

/-- SEND, when it starts: a message on an ACTIVE session; the frames need an AES engine. -/
def startStxSend (addr : Nat) (s : State) : State :=
  let sid := s.sramLe addr 2
  let t := s.sramLe (addr + 2) 1
  let a := s.sramLe (addr + 4) 4
  let n := s.sramLe (addr + 8) 4
  if !inSram addr 12 || 4095 < sid || !frameType t || t < 0x10 || s.sramLe (addr + 3) 1 ≠ 0 || 16384 < n || !inSram a n then
    s.stxResult sid Reason.FIELD_RANGE
  else if (s.sess sid).state ≠ ssACTIVE then s.stxResult sid sxNOT_READY
  else if !s.sessAes then s.stxWait (.stxSend addr)
  else (s.sendMsg sid t (s.sramBytes a n)).stxResult sid 0

/-- RECV, when it starts: the oldest message goes to the address, its session, type, component (in the reserved byte) and length into the
descriptor, its partner behind it; an empty queue gives length 0. -/
def startStxRecv (addr : Nat) (s : State) : State :=
  let a := s.sramLe (addr + 4) 4
  let n := s.sramLe (addr + 8) 4
  if !inSram addr 14 || !inSram a n then s.stxResult 0 Reason.FIELD_RANGE
  else match s.stx.fwq with
    | [] => (s.sramStore (addr + 8) (leBytes 4 0)).stxResult 0 0
    | m :: ms =>
      let s := { s with stx := { s.stx with fwq := ms } }
      let s := s.sramStore a (m.data.take n)
      let s := s.sramStore addr (leBytes 2 m.session ++ leBytes 1 m.type ++ leBytes 1 m.component)
      (s.sramStore (addr + 8) (leBytes 4 m.data.length ++ leBytes 2 m.partner)).stxResult m.session 0

/-- CLOSE, when it starts: the descriptor's first two bytes name the session. -/
def startStxClose (addr : Nat) (s : State) : State :=
  let sid := s.sramLe addr 2
  if !inSram addr 2 || 4095 < sid then s.stxResult sid Reason.FIELD_RANGE
  else if (s.sess sid).state ≠ ssACTIVE then s.stxResult sid sxNOT_READY
  else if !s.sessAes then s.stxWait (.stxClose addr)
  else (s.closeSess sid 0).stxResult sid 0

/-- The public record of a context (R408). -/
def ctxBytes (s : State) (sid : Nat) : List Byte :=
  let c := s.sess sid
  leBytes 2 sid ++ leBytes 1 c.state ++ leBytes 1 c.medium ++ leBytes 2 c.partner ++ leBytes 1 c.component ++ leBytes 1 c.suite
  ++ (if c.medium < 2 then beBytes 6 c.peer ++ [0, 0] else leBytes 8 c.peer)
  ++ leBytes 4 c.txSeq ++ leBytes 4 c.rxHigh ++ leBytes 1 c.cause ++ List.replicate 7 0

/-- READ_CTX, when it starts: session (2), reserved (2), address (4). -/
def startReadCtx (addr : Nat) (s : State) : State :=
  let sid := s.sramLe addr 2
  let a := s.sramLe (addr + 4) 4
  if !inSram addr 8 || 4095 < sid || s.sramLe (addr + 2) 2 ≠ 0 || !inSram a 32 then s.stxResult sid Reason.FIELD_RANGE
  else (s.sramStore a (s.ctxBytes sid)).stxResult sid 0

end State

/-- STX_SEND (R422): STX CMD with OP 2. -/
def execStxSend (addr : Nat) (s : State) : Host.Outcome State Fault Refusal :=
  .next (s.issue pgSTX 0x50 (.stxSend addr) (State.startStxSend addr))

/-- STX_RECV (R422): OP 3. -/
def execStxRecv (addr : Nat) (s : State) : Host.Outcome State Fault Refusal :=
  .next (s.issue pgSTX 0x50 (.stxRecv addr) (State.startStxRecv addr))

/-- STX_CLOSE (R409): OP 4. -/
def execStxClose (addr : Nat) (s : State) : Host.Outcome State Fault Refusal :=
  .next (s.issue pgSTX 0x50 (.stxClose addr) (State.startStxClose addr))

/-- READ_CTX (R408): OP 5. -/
def execReadCtx (addr : Nat) (s : State) : Host.Outcome State Fault Refusal :=
  .next (s.issue pgSTX 0x50 (.readCtx addr) (State.startReadCtx addr))

end Sys2Proof.Machine
end

