-- ==== Sys2Proof/Machine/Att.lean ====
section
/-! DEFINITION. Attestation (R426-R438): identity and the Alias certificate, the reference measurement table, quotes and verdicts, the
round and the vehicle quote, and the host sealing service with the AES engine it takes. -/

namespace Sys2Proof.Machine

/-! ATT block reasons. -/
def atROOT_UNAVAILABLE : Nat := 0x40
def atRMT_ORDER : Nat := 0x41
def atDUPLICATE_IDENTITY : Nat := 0x42
def atRMT_UNLOCKED : Nat := 0x43
def atROUND_BUSY : Nat := 0x44
def atHOST_STATE : Nat := 0x45
def atSVN_ABOVE : Nat := 0x46
def atKEY_LOST : Nat := 0x47

/-- Offset of ATT CMD. -/
def attCmdOff : Nat := 0x4C

/-- Strictly ascending bytes (R429). -/
def bytesBelow : List Byte → List Byte → Bool
  | [], _ :: _ => true
  | a :: as, b :: bs => decide (a.toNat < b.toNat) || (a = b && bytesBelow as bs)
  | _, [] => false

/-! An entry of the reference measurement table (R428). -/
def rePartner (e : List Byte) : Nat := fieldLe e 0 2
def reComponent (e : List Byte) : Nat := fieldLe e 2 1
def reKind (e : List Byte) : Nat := fieldLe e 3 1
def reSvn (e : List Byte) : Nat := fieldLe e 4 1
def reRequired (e : List Byte) : Bool := bit (fieldLe e 5 1) 0
def reHybrid (e : List Byte) : Bool := bit (fieldLe e 5 1) 1
def reDigest (e : List Byte) : List Byte := slice e 0x10 48

/-- What R429 orders the entries by: partner, component, kind, digest. -/
def reKey (e : List Byte) : List Byte := beBytes 2 (rePartner e) ++ slice e 2 2 ++ reDigest e

/-- Kinds and fields are as stated (R428). -/
def reFieldsOk (e : List Byte) : Bool :=
  rePartner e ≠ 0 && rePartner e ≠ 0xFFFF && decide (1 ≤ reKind e) && decide (reKind e ≤ 3)
  && (reKind e = 3 || reSvn e = 0) && (if reKind e = 1 then decide (fieldLe e 5 1 < 4) else fieldLe e 5 1 = 0)
  && allZero (slice e 6 10) && (reKind e ≠ 3 || allZero (reDigest e))

/-- Each entry lies above the one before it. -/
def reAscending : List (List Byte) → Bool
  | a :: b :: es => bytesBelow (reKey a) (reKey b) && reAscending (b :: es)
  | _ => true

namespace State

/-- An ATT command that needs an engine or the CTR_DRBG and cannot have it waits in its register (R251, R255, R438, R506). -/
def attWait (s : State) (i : Instr) : State := s.setCmdSlot pgATT attCmdOff { s.cmdSlot pgATT attCmdOff with queued := some i }

/-- An ATT command ends with the full code of a reason, 0 on success. -/
def attEnd (s : State) (code : Nat) : State :=
  let s := if code = 0 then s else (s.wr (Hdr.REASON_CODE pgATT) code).wr (Hdr.REASON_OFFSET pgATT) attCmdOff
  (s.wr Reg.ATT.RESULT code).cmdEnd pgATT attCmdOff

/-- RESULT of an ATT command with a reason of its own page. -/
def attResult (s : State) (code : Nat) : State := s.attEnd (if code = 0 then 0 else pgATT * 256 + code)

/-- An ATT command is BUSY while it waits for the PKE, which it uses under class K3 (R425). -/
def attAwait (s : State) (i : Instr) : State := (s.cmdStart pgATT attCmdOff i).awaitPke .att 3 fwIssuer

/-! ### Identity (R426, R427) -/

/-- BOOT.MEASUREMENT as bytes. -/
def measurementBytes (s : State) : List Byte := (List.range 12).flatMap (fun i => beBytes 4 (s.rd (Reg.BOOT.MEASUREMENT i)))

/-- The public key in a key register. -/
def regPub (s : State) (r : Nat) : List Byte := pubKey (s.keyReg r).alg (s.keyReg r).seed

/-- A signature with a key register: over SHA-384 of the message on the curve, over the message itself under ML-DSA (R234), or the reason
of the PKE where it is not released (R247). -/
def regSign (s : State) (r : Nat) (m : List Byte) : State × Except Nat (List Byte) :=
  let k := s.keyReg r
  let d := s.draw (signRandom k.alg)
  (d.1, signChecked k.alg k.seed (if k.alg = 2 then digestBytes (Config.sha384 m) else m) [] d.2)

/-- Both signatures of a key pair in registers `r` and `r + 1`. -/
def signBoth (s : State) (r : Nat) (hybrid : Bool) (m : List Byte) : State × Except Nat (List Byte) :=
  let a := s.regSign r m
  match a.2 with
  | .error c => (a.1, .error c)
  | .ok x =>
    if hybrid then
      let b := a.1.regSign (r + 1) m
      match b.2 with
      | .error c => (b.1, .error c)
      | .ok y => (b.1, .ok (x ++ y))
    else (a.1, .ok x)

/-- The signed part of the Alias certificate (R427). -/
def certBody (s : State) : List Byte :=
  asciiBytes "SYAC" ++ leBytes 2 1 ++ leBytes 2 0 ++ digestBytes s.otp.serial ++ s.measurementBytes
  ++ leBytes 1 (s.rd Reg.BOOT.IMAGE_INFO_SVN) ++ leBytes 1 s.lc ++ leBytes 1 (s.rd Reg.KVT.STATUS_ROOT_SOURCE) ++ List.replicate 5 0
  ++ s.regPub 2 ++ s.regPub 3 ++ List.replicate 3 0

/-- GENKEY of IDENTITY from a slot's value (R246, R426). -/
def identityKey (s : State) (r alg sl : Nat) : State :=
  s.setKeyReg r ⟨alg, seedFrom alg (digestBytes (s.keyOf sl)), false, some sl, (s.slot sl).gen, none⟩

/-- IDENTITY's steps (R426), slots 2 and 3 having been captured; a signature that is not released ends it with the PKE's reason. -/
def identityRun (s : State) (addr : Nat) : State :=
  let s := (((s.identityKey 0 2 2).identityKey 1 4 2).identityKey 2 2 3).identityKey 3 4 3
  let body := s.certBody
  let g := s.signBoth 0 true body
  match g.2 with
  | .error c => g.1.attEnd (pgPKE * 256 + c)
  | .ok sigs =>
    let s := { g.1 with stx := { g.1.stx with cert := body ++ sigs } }
    let s := s.sramStore addr (s.regPub 0 ++ s.regPub 1 ++ body ++ sigs)
    ((s.wr Reg.ATT.STATUS_IDENTITY_READY 1).raise pgATT 9).attResult 0

/-- IDENTITY, when it starts (R426): it needs slots 2 and 3 usable (R184, R195), the CTR_DRBG, and the PKE, for which it waits, in Brace
too (R438). -/
def startAttIdentity (addr : Nat) (s : State) : State :=
  let src := s.rd Reg.KVT.STATUS_ROOT_SOURCE
  if src = 0 || src = 3 then s.attResult atROOT_UNAVAILABLE
  else if !inSram addr 7586 then s.attResult Reason.FIELD_RANGE
  else if s.rngFailed then s.attEnd (pgPKE * 256 + pkRNG_UNAVAILABLE)
  else
    let a := s.captureFault 2
    let b := a.1.captureFault 3
    match a.2, b.2 with
    | some c, _ => b.1.attEnd (pgKVT * 256 + c)
    | none, some c => b.1.attEnd (pgKVT * 256 + c)
    | none, none =>
      let s := b.1
      if !s.pkeFree 3 then s.attAwait (.attIdentity addr)
      else if s.captureWaits 2 || s.captureWaits 3 then s.maskStall.attWait (.attIdentity addr)
      else ((s.cacheFill 2).cacheFill 3).identityRun addr

/-- The identity goes with the vault epoch (R426): contexts return to IDLE with KEY_LOST, a round ends without a quote. -/
def identityLost (s : State) : State :=
  let s := (s.wr Reg.ATT.STATUS_IDENTITY_READY 0).allIdle sxKEY_LOST
  match s.stx.round with
  | some r => { s with stx := { s.stx with round := some { r with closed := true, lost := true } } }
  | none => s

/-! ### Reference measurement table (R428, R429) -/

/-- The table's entries. -/
def rmtEntries (s : State) : List (List Byte) :=
  (List.range (s.cfg Reg.ATT.RMT_COUNT)).map (fun i => s.sramBytes (s.cfg Reg.ATT.RMT_BASE * 0x10000 + 64 * i) 64)

/-- The first failing check of LOCK_RMT. -/
def rmtFault (es : List (List Byte)) : Option Nat :=
  let ids := (es.filter (fun e => reKind e = 1)).map reDigest
  if !reAscending es then some atRMT_ORDER
  else if es.any (fun e => !reFieldsOk e) then some Reason.FIELD_RANGE
  else if ids.eraseDups.length ≠ ids.length then some atDUPLICATE_IDENTITY
  else none

/-- LOCK_RMT, when it starts: the checks, the digest, the index of the IDENTITY entries. -/
def startLockRmt (s : State) : State :=
  let es := s.rmtEntries
  match rmtFault es with
  | some c => s.attResult c
  | none =>
    if s.brace then s.attWait .lockRmt
    else
      let d := Config.sha384 (es.flatMap id)
      let s := (List.range 12).foldl (fun s i => s.wr (Reg.ATT.RMT_DIGEST i) (digestWord d i)) s
      let s := { s with stx := { s.stx with index := es.filter (fun e => reKind e = 1) } }
      (s.wr Reg.ATT.STATUS_RMT_LOCKED 1).attResult 0

/-- UNLOCK_RMT, when it starts. -/
def startUnlockRmt (s : State) : State :=
  if s.flag Reg.ATT.STATUS_ROUND_BUSY then s.attResult atROUND_BUSY
  else (({ s with stx := { s.stx with index := [] } } : State).wr Reg.ATT.STATUS_RMT_LOCKED 0).attResult 0

/-! ### Quotes (R431, R432) -/

/-- Length of the identity public keys and of the signatures of a suite. -/
def suiteKeys (su : Nat) : Nat := if su = 2 then 2049 else 97
def suiteSigs (su : Nat) : Nat := if su = 2 then 3405 else 96

/-- The signatures of a suite over a message (R412): the curve's over its SHA-384, and under suite 2 ML-DSA's too. -/
def suiteSigsOk (su : Nat) (keys msg sigs : List Byte) : Bool :=
  Config.ecdsaVerify (keys.take 97) (Config.sha384 msg) (sigs.take 96)
  && (su ≠ 2 || Config.mldsaVerify (slice keys 97 1952) msg (slice sigs 96 3309))

/-- Magic, version, suite, n, reserved fields and length of a quote. -/
def quoteFormatOk (q : List Byte) : Bool :=
  let su := fieldLe q 6 1
  let n := fieldLe q 7 1
  q.take 4 = asciiBytes "SYPQ" && fieldLe q 4 2 = 1 && (su = 1 || su = 2) && decide (1 ≤ n) && decide (n ≤ 16) && allZero (slice q 0x2B 5)
  && (List.range n).all (fun i => allZero (slice q (0x30 + 52 * i + 2) 2)) && q.length = 0x30 + 52 * n + suiteKeys su + suiteSigs su

/-- The verdict on a quote (R432). -/
def quoteVerdict (s : State) (r : Round) (sid : Nat) (q : List Byte) : Nat :=
  let c := s.sess sid
  let su := fieldLe q 6 1
  let n := fieldLe q 7 1
  let at_ := 0x30 + 52 * n
  let keys := slice q at_ (suiteKeys su)
  let es := s.rmtEntries.filter (fun e => rePartner e = c.partner && reComponent e = c.component)
  let ms := (List.range n).map (fun i => slice q (0x30 + 52 * i) 52)
  if !quoteFormatOk q then vdFORMAT
  else if Config.sha384 keys ≠ c.idDigest then vdIDENTITY
  else if !suiteSigsOk su keys (q.take (at_ + suiteKeys su)) (q.drop (at_ + suiteKeys su)) then vdSIGNATURE
  else if slice q 8 32 ≠ r.nonce || fieldLe q 0x28 2 ≠ c.partner || fieldLe q 0x2A 1 ≠ c.component then vdNONCE
  else if ms.any (fun m => !es.any (fun e => reKind e = 2 && reDigest e = slice m 4 48)) then vdMEASUREMENT
  else if ms.any (fun m => es.any (fun e => reKind e = 3 && decide (fieldLe m 1 1 < reSvn e))) then vdSVN_LOW
  else vdACCEPT

/-- A QUOTE on a session (R422, R432): judged where the PKE is free, else it waits for it; outside a round it is dropped and counted. -/
def attQuote (s : State) (sid : Nat) (q : List Byte) : State :=
  match s.stx.round with
  | none => s.dropFrame
  | some r =>
    if r.closed || !r.silent.contains sid then s.dropFrame
    else if s.pkeFree 3 then s.roundVerdict sid (s.quoteVerdict r sid q)
    else
      let s := { s with stx := { s.stx with round := some { r with silent := r.silent.filter (· ≠ sid), waiting := r.waiting ++ [(sid, q)] } } }
      s.enqueuePke ⟨.quote, 3, 3, sessIssuer sid, 0, 0, 0, []⟩

/-- The PKE has verified a quote that waited for it. -/
def quoteServed (s : State) (sid : Nat) : State :=
  match s.stx.round with
  | none => s
  | some r =>
    match r.waiting.find? (fun w => w.1 = sid) with
    | some w => s.roundVerdict sid (s.quoteVerdict r sid w.2)
    | none => s

/-! ### The round (R430, R433-R435) -/

/-- The hosts to be measured again stand in `silent` under these numbers. -/
def measureId (n : Nat) : Nat := 5000 + n

/-- ROUND, when it starts (R430). -/
def startRound (addr : Nat) (s : State) : State :=
  let nonce := s.sramBytes addr 32
  let out := s.sramLe (addr + 0x20) 4
  let fl := s.sramLe (addr + 0x24) 4
  if !inSram addr 48 || 1 < fl || !allZero (s.sramBytes (addr + 0x28) 8) || !inSram out 4029 then s.attResult Reason.FIELD_RANGE
  else if !s.flag Reg.ATT.STATUS_IDENTITY_READY then s.attResult atROOT_UNAVAILABLE
  else if !s.flag Reg.ATT.STATUS_RMT_LOCKED then s.attResult atRMT_UNLOCKED
  else if s.brace || (!s.sessAes && !(s.sessIn ssACTIVE).isEmpty) then s.attWait (.round addr)
  else
    let s := (s.cmdStart pgATT attCmdOff (.round addr)).wr Reg.ATT.STATUS_ROUND_BUSY 1
    let s := (s.sessIn ssACTIVE).foldl (fun s i => s.sendMsg i ftQUOTE_REQ nonce) s
    let hs := if fl = 1 then (List.range 6).filter s.released else []
    let r : Round := ⟨addr, nonce, out, decide (fl = 1), s.sessIn ssACTIVE ++ hs.map measureId, [], [], false, [], false⟩
    let s := { s with stx := { s.stx with round := some (roundCheck r) } }
    hs.foldl (fun s n => s.enqueue (chanRes n) ⟨.measure, 3, 3, n, 0, 0, 0, []⟩) s

/-- The manifest of host `n` has been measured again; `good` says that its digest is the record's. -/
def measureEnd (s : State) (n : Nat) (good : Bool) : State :=
  match s.stx.round with
  | none => s
  | some q =>
    if q.closed then s
    else
      let q := { q with silent := q.silent.filter (· ≠ measureId n), passed := if good then q.passed ++ [n] else q.passed }
      { s with stx := { s.stx with round := some (roundCheck q) } }

/-- A burst of the manifest of the active slot that a round reads again (R430): what arrives is gathered in the request, and at the end
its SHA-384 is compared with the record. -/
def measureServed (s : State) (n : Nat) (r : Req) (corrupt : Bool) : State :=
  let k := min 512 (manifestLen - r.pos)
  let sl := s.activeSlot n
  let d := s.delivered corrupt (s.slotBytes n sl r.pos k)
  let s := d.1
  let r := { r with pos := r.pos + k, desc := r.desc ++ d.2 }
  if r.pos < manifestLen then s.requeue n r
  else s.measureEnd n (match s.currentRec n sl with | some e => decide (Config.sha384 r.desc = e.digest) | none => false)

/-- ROUND_LIMIT (R430, R432): silent components are NO_QUOTE, quotes not verified NOT_CHECKED. -/
def roundExpire (s : State) : State :=
  match s.stx.round with
  | none => s
  | some r =>
    if r.closed || s.brace then s
    else
      let late := (r.silent.filter (· < 5000)).map (fun i => (⟨(s.sess i).partner, (s.sess i).component, vdNO_QUOTE⟩ : Verdict))
      let left := r.waiting.map (fun w => (⟨(s.sess w.1).partner, (s.sess w.1).component, vdNOT_CHECKED⟩ : Verdict))
      let s := { s with stx := { s.stx with round := some { r with silent := [], waiting := [], verdicts := r.verdicts ++ late ++ left, closed := true } } }
      let s := (s.dropReqs 2 (fun q => q.kind = .quote)).pumpPke
      (List.range 6).foldl (fun s n => s.dropIssuer n [.measure]) s

/-- The components that count for a partner, lowest first: those with a verdict, and REQUIRED ones without, NO_QUOTE with an ACTIVE session
and MISSING_COMPONENT with none (R432). -/
def partnerParts (s : State) (r : Round) (p : Nat) : List Verdict :=
  let has := r.verdicts.filter (fun v => v.partner = p)
  let req := (s.rmtEntries.filter (fun e => reKind e = 1 && reRequired e && rePartner e = p)).map reComponent
  let there (k : Nat) : Bool := (s.sessIn ssACTIVE).any (fun i => (s.sess i).partner = p && (s.sess i).component = k)
  let missing := (req.filter (fun k => !has.any (fun v => v.component = k))).eraseDups.map (fun k =>
    (⟨p, k, if there k then vdNO_QUOTE else vdMISSING⟩ : Verdict))
  sortBy (fun a b => decide (a.component ≤ b.component)) (has ++ missing)

/-- The verdict on a partner with its failing component (R433). -/
def partnerVerdict (s : State) (r : Round) (p : Nat) : Verdict :=
  match (s.partnerParts r p).find? (fun v => v.code ≠ vdACCEPT) with
  | some v => v
  | none => ⟨p, 0xFF, vdACCEPT⟩

/-- The partners that are checked (R433), ascending. -/
def partnersChecked (s : State) (r : Round) : List Nat :=
  let req := (s.rmtEntries.filter (fun e => reKind e = 1 && reRequired e)).map rePartner
  sortBy (fun a b => decide (a ≤ b)) ((r.verdicts.map (fun v => v.partner) ++ req).eraseDups)

/-- The full verdict list (R435): failures first. -/
def verdictList (s : State) (r : Round) : List Verdict :=
  let l := (s.partnersChecked r).map (s.partnerVerdict r)
  l.filter (fun v => v.code ≠ vdACCEPT) ++ l.filter (fun v => v.code = vdACCEPT)

/-- The bytes of a verdict list. -/
def verdictBytes (l : List Verdict) : List Byte := l.flatMap (fun v => leBytes 2 v.partner ++ leBytes 1 v.code ++ leBytes 1 v.component)

/-- A host's entry in the vehicle quote (R434). -/
def quoteHost (s : State) (r : Round) (n : Nat) : List Byte :=
  let sl := s.rd (Reg.HSV.SLOT_INFO_SEL n)
  let e := s.currentRec n sl
  leBytes 1 (s.hostSt n) ++ leBytes 1 sl ++ leBytes 1 ((e.map (fun x => x.svn)).getD 0) ++ leBytes 1 (b2n (r.passed.contains n))
  ++ leBytes 4 ((e.map (fun x => x.seq)).getD 0) ++ digestBytes ((e.map (fun x => x.digest)).getD 0)

/-- DBG_STATE bits 3:0. -/
def dbgNibble (s : State) : Nat :=
  s.rd Reg.DBG.DBG_STATE_OPEN + 2 * s.rd Reg.DBG.DBG_STATE_ROOT_TEST + 4 * s.rd Reg.DBG.DBG_STATE_GRANT_ACTIVE + 8 * s.rd Reg.DBG.DBG_STATE_LEDGER_STOPPED

/-- The number of entries of a verdict list that satisfy a condition. -/
def verdictCount (l : List Verdict) (p : Nat → Bool) : Nat := (l.filter (fun v => p v.code)).length
def uncheckedCode (c : Nat) : Bool := c = vdNO_QUOTE || c = vdNOT_CHECKED

/-- The signed part of the vehicle quote (R434). -/
def quoteBody (s : State) (r : Round) (l : List Verdict) : List Byte :=
  let m := min l.length 3088
  let fl := b2n (decide (3088 < l.length)) + 2 * s.rd Reg.GLB.MODE_DEV_RECOVERY + 4 * s.rd Reg.TIME.STATUS_TIME_GAP + 8 * b2n r.remeasure
  asciiBytes "SYVQ" ++ leBytes 2 1 ++ leBytes 2 fl ++ digestBytes s.otp.serial ++ r.nonce ++ leBytes 8 s.time.mrt
  ++ leBytes 1 s.lc ++ leBytes 1 s.dbgNibble ++ leBytes 1 (s.rd Reg.KVT.STATUS_ROOT_SOURCE) ++ [0] ++ leBytes 4 (s.rd Reg.GLB.CRC_REF)
  ++ s.measurementBytes ++ leBytes 1 (s.rd Reg.BOOT.IMAGE_INFO_SVN) ++ List.replicate 3 0 ++ leBytes 4 (s.rd Reg.BOOT.SEQUENCE)
  ++ (List.range 6).flatMap (s.quoteHost r)
  ++ (List.range 12).flatMap (fun i => beBytes 4 (s.rd (Reg.ATT.RMT_DIGEST i)))
  ++ digestBytes (Config.sha384 s.stx.cert)
  ++ leBytes 2 l.length ++ leBytes 2 (verdictCount l (· = vdACCEPT))
  ++ leBytes 2 (verdictCount l (fun c => c ≠ vdACCEPT && !uncheckedCode c)) ++ leBytes 2 (verdictCount l uncheckedCode) ++ leBytes 2 m
  ++ List.replicate 6 0 ++ digestBytes (Config.sha384 (verdictBytes l)) ++ verdictBytes (l.take m)

/-- A round is over: the command ends, with the full code of a reason. -/
def roundEnd (s : State) (code : Nat) : State :=
  let s := { s with stx := { s.stx with round := none } }
  ((s.wr Reg.ATT.STATUS_ROUND_BUSY 0).raise pgATT 8).attEnd code
def roundOver (s : State) (code : Nat) : State := s.roundEnd (if code = 0 then 0 else pgATT * 256 + code)

/-- Step 4 of a round (R430, R434): the quote is built, signed and written; it waits for the PKE (R425), and for the CTR_DRBG until that
is instantiated. -/
def roundFinish (s : State) : State :=
  match s.stx.round with
  | none => s
  | some r =>
    if !r.closed then s
    else if r.lost then s.roundOver atKEY_LOST
    else if !s.pkeFree 3 then s.awaitPke .att 3 fwIssuer
    else if !s.rngServes && !s.rngFailed then s
    else
      let l := s.verdictList r
      let body := s.quoteBody r l
      let rej := verdictCount l (fun c => c ≠ vdACCEPT && !uncheckedCode c)
      let s := (s.wr Reg.ATT.ROUND_A_CHECKED l.length).wr Reg.ATT.ROUND_A_ACCEPTED (verdictCount l (· = vdACCEPT))
      let s := (s.wr Reg.ATT.ROUND_B_REJECTED rej).wr Reg.ATT.ROUND_B_UNCHECKED (verdictCount l uncheckedCode)
      let s := { s with stx := { s.stx with verdicts := l } }
      let s := if rej = 0 then s else s.raise pgATT 10
      if !inSram r.out (body.length + 3405) then s.roundOver Reason.FIELD_RANGE
      else if s.rngFailed then s.roundEnd (pgPKE * 256 + pkRNG_UNAVAILABLE)
      else
        let g := s.signBoth 2 true body
        match g.2 with
        | .error c => g.1.roundEnd (pgPKE * 256 + c)
        | .ok sigs => ((g.1.sramStore r.out (body ++ sigs)).wr Reg.ATT.QUOTE_LENGTH (body.length + 3405)).roundOver 0

/-- The PKE is ATT's: IDENTITY starts, or the quote of a round is signed. -/
def attGranted (s : State) : State :=
  match (s.cmdSlot pgATT attCmdOff).running with
  | some (.attIdentity a) => startAttIdentity a (s.cmdEnd pgATT attCmdOff)
  | some (.round _) => s.roundFinish
  | _ => s

/-- VERDICTS, when it starts (R435). -/
def startVerdicts (addr : Nat) (s : State) : State :=
  if !inSram addr (4 * s.stx.verdicts.length) then s.attResult Reason.FIELD_RANGE
  else (s.sramStore addr (verdictBytes s.stx.verdicts)).attResult 0

/-! ### Host sealing (R436, R437) -/

/-- The host seal seed (R178, R179). -/
def hostSeed (s : State) (n : Nat) : BitVec 384 :=
  kdfRoot s.rootValue (asciiBytes "SY9400/host-seal" ++ leBytes 1 n ++ digestBytes (s.signerHash n)) 6

/-- The host key at SVN `w` for a label (R437). -/
def hostKey (s : State) (n w : Nat) (label : List Byte) : List Byte :=
  (digestBytes (kdfLd (chainDown (s.hostSeed n) (255 - w)) (Config.sha384 label) 1)).take 32

/-- Fields of the SEAL_OP descriptor. -/
def soHost (s : State) (a : Nat) : Nat := s.sramLe a 1
def soOp (s : State) (a : Nat) : Nat := s.sramLe (a + 1) 1
def soSvn (s : State) (a : Nat) : Nat := s.sramLe (a + 2) 1
def soEngine (s : State) (a : Nat) : Nat := s.sramLe (a + 3) 1
def soLabel (s : State) (a : Nat) : List Byte := s.sramBytes (s.sramLe (a + 4) 4) (s.sramLe (a + 8) 2)
def soRun (s : State) (a : Nat) : Nat := s.sramLe (a + 0x0C) 4

/-- Why a SEAL_OP is refused (R436): its own fields, a RUN that is not one GCM operation in its direction, the host, the SVN. -/
def sealOpFault (s : State) (a : Nat) : Option Nat :=
  let n := s.soHost a
  let len := s.sramLe (a + 8) 2
  let fl := s.sramLe (s.soRun a + 1) 1
  if !inSram a 16 || 5 < n || s.soOp a = 0 || 2 < s.soOp a || 1 < s.soEngine a || len = 0 || 256 < len || s.sramLe (a + 0x0A) 2 ≠ 0
      || !inSram (s.sramLe (a + 4) 4) len || !inSram (s.soRun a) 48 || s.sramLe (s.soRun a) 1 ≠ 3 || bits fl 1 0 ≠ 3
      || (bit fl 2 != decide (s.soOp a = 2)) then some Reason.FIELD_RANGE
  else if s.vault.root.isNone then some atROOT_UNAVAILABLE
  else if !s.released n then some atHOST_STATE
  else match s.currentRec n (s.rd (Reg.HSV.SLOT_INFO_SEL n)) with
    | some e => if e.svn < s.soSvn a then some atSVN_ABOVE else none
    | none => some atSVN_ABOVE

/-- A SEAL_OP that waited is refused after all. -/
def sealRefuse (s : State) (e code : Nat) : State :=
  (({ s with stx := { s.stx with sealWait := none } } : State).aesRestore e).attResult code

/-- The engine is free: the SEAL_OP computes its key on a DGE, takes the engine, a firmware key goes to the save register and the RUN
starts (R417, R437). -/
def sealTake (s : State) (a : Nat) : State :=
  let e := s.soEngine a
  match s.sealOpFault a with
  | some c => s.sealRefuse e c
  | none =>
    let s := s.dgeBorrow (s.soHost a)
    let old := (s.aesOf e).dkr
    let k : Dkr := ⟨true, s.hostKey (s.soHost a) (s.soSvn a) (s.soLabel a), if s.soOp a = 1 then atENC else atDEC, 2, none, 0⟩
    let t := s.setAes e { s.aesOf e with dkr := k }
    match t.aesRunFault e (s.soRun a) with
    | some c => s.sealRefuse e c
    | none =>
      let t := State.startAesRun (if e = 0 then 0 else 1) (s.soRun a) t
      let t := t.cmdStart pgAES (aesCmdOff e) (.sealOp a)
      { t with stx := { t.stx with sealWait := none, sealRun := some (e, a), savedDkr := some old } }

/-- A SEAL_OP that waits starts as soon as its engine is free, or its RUN yields (R243, R417), and a DGE can be taken; not in Brace. -/
def sealKick (s : State) : State :=
  match s.stx.sealWait with
  | some a =>
    let e := s.soEngine a
    if !s.dgeFree || s.stx.sealRun.isSome then s
    else if !s.aesBusy e then s.sealTake a
    else if s.aesYields e then (s.aesSave e).sealTake a
    else s
  | none => s

/-- The engine's work for a SEAL_OP has ended: the key is cleared, the firmware key comes back, a saved RUN goes on (R243, R417, R437). -/
def sealDone (s : State) (e : Nat) : State :=
  match s.stx.sealRun with
  | some (e', _) =>
    if e' ≠ e || s.aesBusy e then s
    else
      let s := s.showDkr e (s.stx.savedDkr.getD Dkr.empty)
      (({ s with stx := { s.stx with sealRun := none, savedDkr := none } } : State).aesRestore e).attResult 0
  | none => s

/-- SEAL_OP, when it starts. -/
def startSealOp (addr : Nat) (s : State) : State :=
  match s.sealOpFault addr with
  | some c => s.attResult c
  | none => (({ s.cmdStart pgATT attCmdOff (.sealOp addr) with stx := { s.stx with sealWait := some addr } })).sealKick

/-- An AES engine's operation ends; what waited for the engine starts. -/
def aesEnd (s : State) (e : Nat) : State := ((s.aesFinish e).sealDone e).sealKick

/-- ABORT by firmware (R72); an operation of ATT is not firmware's to end, but the RUN of firmware that it pre-empted is. -/
def aesAbort (e : Fin 2) (s : State) : State :=
  if s.aesLent e then
    let s := s.abortSaved e
    s.setCmdSlot pgAES (aesCmdOff e) { s.cmdSlot pgAES (aesCmdOff e) with queued := none }
  else (s.abortAes e).sealKick

end State

/-- ATT_IDENTITY (R426): ATT CMD with OP 1. -/
def execAttIdentity (addr : Nat) (s : State) : Host.Outcome State Fault Refusal :=
  .next (s.issue pgATT attCmdOff (.attIdentity addr) (State.startAttIdentity addr))

/-- LOCK_RMT (R429): OP 2. -/
def execLockRmt (s : State) : Host.Outcome State Fault Refusal := .next (s.issue pgATT attCmdOff .lockRmt State.startLockRmt)

/-- UNLOCK_RMT (R429): OP 3. During a round it is refused at once rather than queued behind the round. -/
def execUnlockRmt (s : State) : Host.Outcome State Fault Refusal :=
  .next (if s.up && s.flag Reg.ATT.STATUS_ROUND_BUSY then
    (s.refuse pgATT atROUND_BUSY attCmdOff).wr Reg.ATT.RESULT (pgATT * 256 + atROUND_BUSY)
  else s.issue pgATT attCmdOff .unlockRmt State.startUnlockRmt)

/-- ROUND (R430): OP 4. -/
def execRound (addr : Nat) (s : State) : Host.Outcome State Fault Refusal :=
  .next (s.issue pgATT attCmdOff (.round addr) (State.startRound addr))

/-- ROUND_LIMIT (R430, R432). -/
def execRoundLimit (s : State) : Host.Outcome State Fault Refusal := .next s.roundExpire

/-- ROUND_DONE (R434). -/
def execRoundDone (s : State) : Host.Outcome State Fault Refusal := .next s.roundFinish

/-- SEAL_OP (R436): OP 5. -/
def execSealOp (addr : Nat) (s : State) : Host.Outcome State Fault Refusal :=
  .next (s.issue pgATT attCmdOff (.sealOp addr) (State.startSealOp addr))

/-- VERDICTS (R435): OP 6. -/
def execVerdicts (addr : Nat) (s : State) : Host.Outcome State Fault Refusal :=
  .next (s.issue pgATT attCmdOff (.verdicts addr) (State.startVerdicts addr))

end Sys2Proof.Machine
end

