-- ==== Sys2Proof/Machine/Journal.lean ====
section
/-! DEFINITION. The ledger's journal and its rings on FB (chapter 15): records and their stamps, the journal and its overflow,
the chain key, commit blocks, pages, and the scan when the page becomes ACTIVE. -/

namespace Sys2Proof.Machine

/-! LEDG block reasons and the offset of LEDG CMD. -/
def lgNOT_RECORDING : Nat := 0x40
def lgEXPORT_AUTH : Nat := 0x41
def lgEXPORT_SIGNATURE : Nat := 0x42
def lgEXPORT_CHALLENGE : Nat := 0x43
def lgEXPORT_MISMATCH : Nat := 0x44
def lgNOT_FROZEN : Nat := 0x45
def lgINPUT_SOURCE : Nat := 0x46
def lgPAGE_RANGE : Nat := 0x47
def ledgCmdOff : Nat := 0x5C

/-! The record types of R466. -/
def rtACTIVITY : Nat := 0x01
def rtCARD : Nat := 0x02
def rtDISTANCE : Nat := 0x04
def rtEVENT : Nat := 0x05
def rtPERIOD_SEAL : Nat := 0x06
def rtMETER : Nat := 0x07
def rtTIME_CORRECTION : Nat := 0x08
def rtDEBUG_OPEN : Nat := 0x09
def rtGAP : Nat := 0x0A

/-! The causes of a GAP record (R466). -/
def gapTIME : Nat := 1
def gapTAIL_LOST : Nat := 2
def gapNOT_RECORDING : Nat := 3
def gapFROZEN : Nat := 4
def gapOVERFLOW : Nat := 5

/-- Records that start a commit at once (R459). -/
def recUrgent (t : Nat) : Bool := [rtEVENT, rtCARD, rtPERIOD_SEAL, rtTIME_CORRECTION, rtDEBUG_OPEN, rtGAP].contains t

/-- The journal's capacity (R459). -/
def journalSize : Nat := 49152

/-- The issuer number of the ledger in the rotation of R356. -/
def ledgIssuer : Nat := 101

/-- The range of a ring on FB and its number of pages (R454). -/
def ringBase (r : Nat) : Nat := if r = 0 then 0x04000000 else 0x04800000
def ringPages (r : Nat) : Nat := if r = 0 then 2048 else 14336

/-- The address of the page with sequence `q` (R454). -/
def pageAddr (r q : Nat) : Nat := ringBase r + q % ringPages r * 0x1000

/-- The size of a commit block with `n` bytes of records (R456). -/
def blockSize (n : Nat) : Nat := (n + 12 + 15) / 16 * 16

/-- The bytes of the rest of its 256-byte unit, or of the block area, that a block at offset `o` may take (R456). -/
def blockRoom (o : Nat) : Nat := min (256 - o % 256) (0xFE0 - o)

/-- The longest run of leading records whose block fits into `room` bytes. -/
def packRecs (room : Nat) : List Byte → Nat → List JRec → List Byte × Nat
  | acc, n, [] => (acc, n)
  | acc, n, r :: rs =>
    if acc.length + r.data.length ≤ 244 ∧ blockSize (acc.length + r.data.length) ≤ room then packRecs room (acc ++ r.data) (n + 1) rs
    else (acc, n)

/-- The first 10 bytes of an HMAC-SHA-256 over chain value, ring, page sequence, block offset and the block's data (R456). -/
def commitTag (key c : List Byte) (r q o : Nat) (data : List Byte) : List Byte :=
  (digestBytes (Config.hmac256 key (c ++ leBytes 1 r ++ leBytes 4 q ++ leBytes 2 o ++ data))).take 10

/-- The page tag (R457). -/
def pageTag (key p page : List Byte) : List Byte := digestBytes (Config.hmac256 key (p ++ page))

/-- A page header (R455). -/
def pageHeader (r q mrt : Nat) (off : Int) : List Byte :=
  [0x53, 0x59, 0x4C, 0x50] ++ leBytes 2 1 ++ leBytes 1 r ++ [0] ++ leBytes 4 q ++ leBytes 4 0 ++ leBytes 8 mrt
    ++ leBytes 8 (off % 2 ^ 64).toNat

namespace State

/-- UTC in ticks, where TIME_GAP is 0 (R440). -/
def utcAt (s : State) (mrt : Nat) : Int := (mrt : Int) + s.time.utcOffset

/-- UTC in whole seconds. -/
def utcSecAt (s : State) (mrt : Nat) : Nat := (s.utcAt mrt / 32768).toNat

/-- TIME_GAP and RETROGRADE (R54, R451). -/
def gap (s : State) : Bool := s.flag Reg.TIME.STATUS_TIME_GAP
def retro (s : State) : Bool := s.flag Reg.TIME.STATUS_RETROGRADE

/-- The flags byte of a record: RETRO and NO_UTC (R465). -/
def recFlags (s : State) : Nat := b2n s.retro + 2 * b2n s.gap

/-- RECORDING (R464). -/
def recording (s : State) : Bool := s.flag Reg.LEDG.STATUS_RECORDING

/-- Change the ledger's own state. -/
def setLedger (s : State) (l : LedgerSt) : State := { s with ledger := l }

/-- Bytes in the journal. -/
def journalUsed (s : State) : Nat := (s.ledger.journal.map (fun r => r.data.length)).sum

/-- Replace the journal; JOURNAL_USED follows, and JOURNAL_HIGH is raised above 75 %. -/
def setJournal (s : State) (j : List JRec) : State :=
  let was := s.journalUsed
  let s := s.setLedger { s.ledger with journal := j }
  let s := s.wr Reg.LEDG.JOURNAL_USED s.journalUsed
  if was ≤ 36864 && 36864 < s.journalUsed then s.raise pgLEDG 14 else s

/-- A record of the activity ring with its header, stamped with `mrt` (R465). -/
def recBytes (s : State) (t mrt : Nat) (body : List Byte) : List Byte :=
  leBytes 1 t ++ leBytes 1 body.length ++ leBytes 1 s.recFlags ++ [0]
    ++ leBytes 4 (if s.gap then 0xFFFFFFFF else s.utcSecAt mrt) ++ leBytes 8 mrt ++ body

/-- The body of a GAP record (R466). -/
def gapBody (cause frm till : Nat) : List Byte := leBytes 1 cause ++ leBytes 3 0 ++ leBytes 8 frm ++ leBytes 8 till

/-! ### Commits (R456, R457, R459, R460) -/

/-- A ring as internal NVM holds its position. -/
def ring (s : State) (r : Nat) : Ring := Tbl.get Ring.blank s.nvm.rings r
def setRing (s : State) (r : Nat) (v : Ring) : State := { s with nvm := { s.nvm with rings := Tbl.put Ring.blank s.nvm.rings r v } }

/-- Close the open page of a ring with its page tag (R457). -/
def closePage (s : State) (r : Nat) : State :=
  let g := s.ring r
  match s.ledger.key with
  | some k =>
    if g.isOpen then
      let a := pageAddr r g.head
      let t := pageTag k g.p (s.flashBytes 6 0 a 0xFE0)
      (s.flashProgram 6 0 (a + 0xFE0) t).setRing r { g with head := g.head + 1, off := 0x20, isOpen := false, c0 := g.c, p := t }
    else s
  | none => s

/-- The unit after the one that ring `r` writes is erased, and TAIL_SEQ advances (R460). -/
def ringErased (s : State) (r : Nat) : State :=
  let g := s.ring r
  let q := (if g.isOpen then g.head else g.head - 1) / 16 * 16
  (s.flashErase 6 0 (pageAddr r (q + 16)) 0x10000).setRing r { g with tail := max g.tail (q + 32 - ringPages r), due := false }

/-- Ask under K2 for the erase that ring `r` is due (R460); the request carries the ring. -/
def eraseAsk (s : State) (r : Nat) : State := s.enqueue (chanRes 6) ⟨.ledger, 2, 2, ledgIssuer, r + 1, 0, 0, []⟩

/-- Open the next page of a ring (R455); entering an erase unit asks for the erase of the following one (R460), the erase asked for before
having ended. -/
def openPage (s : State) (r : Nat) : State :=
  let q := (s.ring r).head
  let enters := q % 16 = 0
  let s := if enters && (s.ring r).due then s.ringErased r else s
  let g := s.ring r
  let s := (s.flashProgram 6 0 (pageAddr r q) (pageHeader r q s.time.mrt s.time.utcOffset)).setRing r
    { g with isOpen := true, off := 0x20, c0 := g.c, due := g.due || enters }
  if enters then s.eraseAsk r else s

/-- The place of the next block of a ring whose first record has `n` bytes: here, at the next 256-byte boundary, or in the next
page. -/
def blockPlace (s : State) (r n : Nat) : State :=
  let g := s.ring r
  let next := (g.off / 256 + 1) * 256
  if g.isOpen && decide (blockSize n ≤ blockRoom g.off) then s
  else if g.isOpen && decide (next < 0xFE0) && decide (blockSize n ≤ blockRoom next) then s.setRing r { g with off := next }
  else (s.closePage r).openPage r

/-- Build the next commit block of the journal and ask for its program under K2; nothing to commit ends the commit (R456, R459). -/
def nextBlock (s : State) : State :=
  match s.ledger.key, s.ledger.journal with
  | some k, f :: _ =>
    let r := if s.ledger.journal.any (fun x => x.ring = 0) then 0 else f.ring
    let rs := s.ledger.journal.filter (fun x => x.ring = r)
    let s := s.blockPlace r ((rs.map (fun x => x.data.length)).headD 0)
    let g := s.ring r
    let d := packRecs (blockRoom g.off) [] 0 rs
    let data := leBytes 2 d.1.length ++ d.1
    let blk := data ++ commitTag k g.c r g.head g.off data
    let blk := blk ++ List.replicate (blockSize d.1.length - blk.length) 0
    (s.setLedger { s.ledger with committing := true, block := some (r, pageAddr r g.head + g.off, blk, d.2) }).enqueue (chanRes 6)
      ⟨.ledger, 2, 2, ledgIssuer, 0, 0, 0, []⟩
  | _, _ => s.setLedger { s.ledger with committing := false }

/-- A commit starts, unless one runs, the page is not in force, or Brace lasts (R459, R462). -/
def commitStart (s : State) : State :=
  if s.ledger.committing || s.brace || !s.up || !s.active pgLEDG then s else s.nextBlock

/-- Drop the first `n` records of ring `r` from a journal. -/
def dropRecs (r : Nat) : Nat → List JRec → List JRec
  | 0, j => j
  | _, [] => []
  | n + 1, x :: j => if x.ring = r then dropRecs r n j else x :: dropRecs r (n + 1) j

/-- The block in flight is on FB: its records leave the journal, the chain goes on, EXPORTED falls (R456, R459, R478). -/
def blockWritten (s : State) : State :=
  match s.ledger.block with
  | some (r, a, bs, n) =>
    let s := s.flashProgram 6 0 a bs
    let g := s.ring r
    let s := s.setRing r { g with off := a % 0x1000 + bs.length, c := slice bs (leNat (bs.take 2) + 2) 10 }
    let s := (s.setJournal (dropRecs r n s.ledger.journal)).bump Reg.LEDG.COMMIT_COUNT
    let s := { s with nvm := { s.nvm with exported := false } }
    (s.setLedger { s.ledger with block := none }).raise pgLEDG 8
  | none => s

/-- The program of a commit block runs on FB. -/
def blockServed (s : State) : Bool :=
  match (s.sched (chanRes 6)).running with
  | some r => decide (r.kind = ReqKind.ledger) && r.addr = 0
  | none => false

/-- The block in flight is torn (R463): bytes that the program left undone read as the spec leaves open. -/
def blockTorn (s : State) : State :=
  match s.ledger.block with
  | some (_, a, bs, _) =>
    let fr := s.freeBytes bs.length
    let s := if s.blockServed then
        (s.spend bs.length).flashProgram 6 0 a ((bs.zip fr).map (fun p => p.1 ||| p.2)) else s
    s.setLedger { s.ledger with block := none, committing := false }
  | none => s.setLedger { s.ledger with committing := false }

/-! ### The journal (R459) -/

/-- An item of either ring enters the journal; a full journal discards it, and the next that fits follows a GAP of cause
JOURNAL_OVERFLOW. -/
def putItem (s : State) (ring : Nat) (urgent : Bool) (mrt : Nat) (data : List Byte) : State :=
  match s.ledger.overflow with
  | none =>
    if journalSize < s.journalUsed + data.length then
      s.setLedger { s.ledger with overflow := some mrt, coder := { s.ledger.coder with on := false } }
    else s.setJournal (s.ledger.journal ++ [(⟨ring, urgent, data⟩ : JRec)])
  | some m =>
    let g := s.recBytes rtGAP s.time.mrt (gapBody gapOVERFLOW m s.time.mrt)
    if journalSize < s.journalUsed + g.length + data.length then s
    else
      let s := s.setJournal (s.ledger.journal ++ [(⟨0, true, g⟩ : JRec), ⟨ring, urgent, data⟩])
      s.setLedger { s.ledger with overflow := none, coder := { s.ledger.coder with on := false } }

/-- A record of the activity ring, stamped with `mrt`; none while RECORDING is 0 (R464). -/
def recordAt (s : State) (mrt t : Nat) (body : List Byte) : State :=
  if !s.recording then s
  else
    let s := s.putItem 0 (recUrgent t) mrt (s.recBytes t mrt body)
    if s.ledger.journal.any (fun r => r.urgent) then s.commitStart else s

/-- A record stamped now. -/
def record (s : State) (t : Nat) (body : List Byte) : State := s.recordAt s.time.mrt t body

/-- An EVENT of the device (R468): code, then its data to 6 bytes. -/
def recordEvent (s : State) (mrt code : Nat) (data : List Byte) : State :=
  s.recordAt mrt rtEVENT (leBytes 2 code ++ data ++ List.replicate (6 - data.length) 0)

/-! ### The chain key (R458) -/

/-- K_L is withdrawn: zeroed, KEY_LOST; what has not reached FB stays in the journal. -/
def keyLost (s : State) : State :=
  if s.ledger.key.isSome then
    ((s.setLedger { s.ledger with key := none }).wr Reg.LEDG.STATUS_KEY_LOST 1).raise pgLEDG 11
  else s

/-- K_L follows slot 4: a changed GEN or state withdraws it. -/
def keyFollows (s : State) : State :=
  if s.ledger.key.isSome && (!s.slotUsable 4 || (s.slot 4).gen ≠ s.ledger.keyGen) then s.keyLost else s

/-- Derive K_L where the page is ACTIVE and slot 4 is usable (R184, R458); it waits where the vault has no mask, and in Brace for a
value that the cache does not hold (R194, R205). -/
def keyDerive (s : State) : State :=
  if !s.active pgLEDG || s.ledger.key.isSome then s
  else
    let c := s.captureFault 4
    let s := c.1
    if c.2.isSome then s
    else if s.captureWaits 4 then s.maskStall
    else
      let s := s.cacheFill 4
      let k := (digestBytes (kdfLd (s.keyOf 4) (Config.sha384 (asciiBytes "SY9400/ledger-tag")) 4)).take 32
      (s.setLedger { s.ledger with key := some k, keyGen := (s.slot 4).gen }).wr Reg.LEDG.STATUS_KEY_LOST 0

/-! ### The scan at ENABLE (R463) -/

/-- A block at offset `o` of page `q` parses: its data length, and whether its tag checks after chain value `c`. -/
def blockAt (s : State) (k c : List Byte) (r q o : Nat) : Option (Nat × Bool) :=
  let a := pageAddr r q
  let n := leNat (s.flashBytes 6 0 (a + o) 2)
  if n = 0 || 244 < n || blockRoom o < blockSize n then none
  else some (n, s.flashBytes 6 0 (a + o + 2 + n) 10 = commitTag k c r q o (s.flashBytes 6 0 (a + o) (n + 2)))

/-- The first wholly erased 16-byte cell from offset `o` on, or the end of the block area. -/
def erasedCell (s : State) (r q : Nat) : Nat → Nat → Nat
  | 0, o => o
  | fuel + 1, o =>
    if 0xFE0 ≤ o then 0xFE0
    else if (s.flashBytes 6 0 (pageAddr r q + o) 16).all (fun b => b = 0xFF) then o
    else s.erasedCell r q fuel (o + 16)

/-- How the scan of an open page ends: at the end of the data, at a torn block, or at a bad block that valid ones follow. -/
def scanPage (s : State) (k : List Byte) (r q : Nat) : Nat → Nat → List Byte → Nat × List Byte × Nat
  | 0, o, c => (o, c, 0)
  | fuel + 1, o, c =>
    if 0xFE0 ≤ o then (o, c, 0)
    else if leNat (s.flashBytes 6 0 (pageAddr r q + o) 2) = 0xFFFF then
      let nx := (o / 256 + 1) * 256
      if nx < 0xFE0 && leNat (s.flashBytes 6 0 (pageAddr r q + nx) 2) ≠ 0xFFFF then s.scanPage k r q fuel nx c else (o, c, 0)
    else match s.blockAt k c r q o with
      | some (n, true) => s.scanPage k r q fuel (o + blockSize n) (s.flashBytes 6 0 (pageAddr r q + o + 2 + n) 10)
      | some (n, false) =>
        let t := s.flashBytes 6 0 (pageAddr r q + o + 2 + n) 10
        match s.blockAt k t r q (o + blockSize n) with
        | some (_, true) => (o, c, 2)
        | _ => (s.erasedCell r q 256 (o + 16), c, 1)
      | none => (s.erasedCell r q 256 (o + 16), c, 1)

/-- An erase that a reset cut off is asked for again (R460). -/
def eraseAgain (s : State) (r : Nat) : State :=
  let asked (q : Req) : Bool := decide (q.kind = ReqKind.ledger) && q.addr = r + 1
  let d := s.sched (chanRes 6)
  let open_ := d.queue.any asked || (match d.running with | some q => asked q | none => false)
    || (match (s.chan 6).suspended with | some q => asked q | none => false)
  if (s.ring r).due && !open_ then s.eraseAsk r else s

/-- Scan the open page of ring `r`; the sequence of a page whose chain is broken. -/
def scanRing (s : State) (r : Nat) : State × Option Nat :=
  let g := s.ring r
  match s.ledger.key with
  | some k =>
    if !g.isOpen then (s, none)
    else
      let x := s.scanPage k r g.head 256 0x20 g.c0
      let s := s.setRing r { g with off := x.1, c := x.2.1 }
      if x.2.2 = 0 then (s, none)
      else if x.2.2 = 1 then (s.bump Reg.LEDG.TORN_COUNT, none)
      else (((s.wr Reg.LEDG.STATUS_CHAIN_FAULT 1).raise pgLEDG 13).closePage r, some g.head)
  | none => (s, none)

end State

end Sys2Proof.Machine
end

