-- ==== Sys2Proof/Machine/TimeBase.lean ====
section
/-! DEFINITION. The time base (chapter 15): UTC, period boundaries, the speed coder's flush, authenticated updates, slewing. -/

namespace Sys2Proof.Machine

/-! TIME block reasons and the offset of TIME CMD. -/
def tmTIME_AUTH : Nat := 0x40
def tmTIME_SIGNATURE : Nat := 0x41
def tmTIME_CHALLENGE : Nat := 0x42
def tmTIME_STALE : Nat := 0x43
def tmTIME_SERIAL : Nat := 0x44
def tmAUTH_MISSING : Nat := 0x45
def timeCmdOff : Nat := 0x60

/-! ### Periods (R448) -/

/-- A count of months that rises by one each month, and the day of the month less one, of a day counted from 2000-01-01
(Gregorian; years begin in March). -/
def monthOf (day : Nat) : Nat × Nat :=
  let z := day + 730425
  let era := z / 146097
  let doe := z % 146097
  let yoe := (doe - doe / 1460 + doe / 36524 - doe / 146096) / 365
  let doy := doe - (365 * yoe + yoe / 4 - yoe / 100)
  let mp := (5 * doy + 2) / 153
  (era * 4800 + yoe * 12 + mp, doy - (153 * mp + 2) / 5)

/-- The rule of a period kind: day, week, calendar month, or `anchor` + k × `len` seconds. -/
inductive PeriodRule where
  | day | week | month | every (len anchor : Nat)
  deriving DecidableEq, Repr

/-- How many boundaries lie at or below UTC second `x`, up to a constant of the rule. -/
def PeriodRule.count : PeriodRule → Nat → Nat
  | .day, x => x / 86400
  | .week, x => (x + 432000) / 604800
  | .month, x => (monthOf (x / 86400)).1
  | .every len anchor, x => let a := anchor % len; if x < a then 0 else (x - a) / len + 1

/-- The greatest boundary at or below `x`; 0 where there is none. -/
def PeriodRule.floor : PeriodRule → Nat → Nat
  | .day, x => x / 86400 * 86400
  | .week, x => (x + 432000) / 604800 * 604800 - 432000
  | .month, x => (x / 86400 - (monthOf (x / 86400)).2) * 86400
  | .every len anchor, x => let a := anchor % len; if x < a then 0 else (x - a) / len * len + a

/-- The first boundary after `x`. -/
def PeriodRule.next : PeriodRule → Nat → Nat
  | .day, x => (x / 86400 + 1) * 86400
  | .week, x => ((x + 432000) / 604800 + 1) * 604800 - 432000
  | .month, x => PeriodRule.floor .month (PeriodRule.floor .month x + 31 * 86400)
  | .every len anchor, x => let a := anchor % len; if x < a then a else ((x - a) / len + 1) * len + a

/-- Add `pulses`, `moving` and `ign` seconds to the totals of a period; distance in metres without loss (R452, R470). -/
def Totals.add (t : Totals) (k pulses moving ign : Nat) : Totals :=
  let r := t.rem + pulses * 1000
  ⟨t.metres + r / k, r % k, t.moving + moving, t.ign + ign⟩

namespace State

/-- Change the time base's own state. -/
def setTime (s : State) (t : TimeSt) : State := { s with time := t }

/-- The metering rule in force (R453). -/
def meterRule (s : State) : PeriodRule :=
  if s.time.meterMode = 0 then .month else .every (max 1 s.time.meterDays * 86400) s.time.meterAnchor

/-- The rule of kind 0 day, 1 week, 2 metering. -/
def kindRule (s : State) (k : Nat) : PeriodRule := if k = 0 then .day else if k = 1 then .week else s.meterRule

/-- LAST of a kind (R449). -/
def lastReg (k : Nat) : Fld := if k = 0 then Reg.TIME.LAST_DAY else if k = 1 then Reg.TIME.LAST_WEEK else Reg.TIME.LAST_METER

/-- The totals of the open period of a kind. -/
def totals (s : State) (k : Nat) : Totals := Tbl.get Totals.zero s.time.totals k
def setTotals (s : State) (k : Nat) (v : Totals) : State :=
  s.setTime { s.time with totals := Tbl.put Totals.zero s.time.totals k v }

/-- RETROGRADE: UTC lies below the greatest LAST (R451). -/
def retroCheck (s : State) : State :=
  let top := max (s.rd Reg.TIME.LAST_DAY) (max (s.rd Reg.TIME.LAST_WEEK) (s.rd Reg.TIME.LAST_METER))
  let r := !s.gap && decide (s.utcAt s.time.mrt < (top : Int) * 32768)
  let s := if r && !s.retro then s.raise pgTIME 10 else s
  s.wrb Reg.TIME.STATUS_RETROGRADE r

/-- METER_CFG and METER_ANCHOR as applied become the rule (R453). -/
def adoptMeter (s : State) : State :=
  s.setTime { s.time with
    meterMode := s.cfg Reg.TIME.METER_CFG_MODE, meterDays := s.cfg Reg.TIME.METER_CFG_DAYS, meterAnchor := s.cfg Reg.TIME.METER_ANCHOR }

/-- Kind `k` is judged at UTC second `sec`, its records stamped `mrt`: a crossing moves LAST, seals the period and, for metering,
writes the final METER and lets a changed rule take over (R449, R453, R466). -/
def crossKind (sec mrt : Nat) (s : State) (k : Nat) : State :=
  let last := s.rd (lastReg k)
  let first := (s.kindRule k).next last
  if sec < first then s
  else
    let s' := if k = 2 then s.adoptMeter else s
    let more := (s'.kindRule k).count sec - (s'.kindRule k).count first
    let boundary := if more = 0 then first else (s'.kindRule k).floor sec
    let t := s.totals k
    let s := (s'.wr (lastReg k) boundary).raise pgTIME 11
    let s := s.recordAt mrt rtPERIOD_SEAL
      (leBytes 1 k ++ leBytes 1 (min (more + 1) 255) ++ leBytes 2 0 ++ leBytes 4 boundary ++ leBytes 4 t.metres ++ leBytes 4 t.moving
        ++ leBytes 4 t.ign)
    let s := if s.recording then s.raise pgLEDG 9 else s
    let s := if k = 2 then s.recordAt mrt rtMETER
        (leBytes 4 last ++ leBytes 1 1 ++ leBytes 3 0 ++ leBytes 4 t.metres ++ leBytes 4 t.ign ++ leBytes 4 t.moving) else s
    s.setTotals k { Totals.zero with rem := t.rem }

/-- The kinds in the order day, week, metering (R449). -/
def crossAt (s : State) (sec mrt : Nat) : State := [0, 1, 2].foldl (crossKind sec mrt) s

/-- The evaluation after a UTC second edge or a step; before the import of a wake the periods wait for it (R449, R472). -/
def crossNow (s : State) : State :=
  if s.gap || !s.up || s.power.fromVigil then s else (s.crossAt (s.utcSecAt s.time.mrt) s.time.mrt).retroCheck

/-! ### The speed coder's knots (R473) -/

/-- Change the coder. -/
def setCoder (s : State) (c : Coder) : State := s.setLedger { s.ledger with coder := c }

/-- An item of the speed ring. -/
def speedItem (s : State) (bs : List Byte) : State := s.putItem 1 false s.time.mrt bs

/-- knot(t, v) of R473. -/
def knot (s : State) (t v : Nat) : State :=
  let s := s.speedItem (leBytes 1 (t - s.ledger.coder.kt) ++ leBytes 2 v)
  s.setCoder { s.ledger.coder with kt := t, kv := v, lo := none, hi := none }

/-- The minute that is open ends: MINUTE_MAX where SPEED_TOL is not exact (R473, R474). -/
def minuteEnd (s : State) : State :=
  match s.ledger.coder.minute with
  | some (m, v) =>
    let s := if s.cfg Reg.LEDG.CONFIG_SPEED_TOL ≠ 0 then s.speedItem (leBytes 1 0x81 ++ leBytes 2 (m % 1440) ++ leBytes 2 v) else s
    s.setCoder { s.ledger.coder with minute := none }
  | none => s

/-- Ignition off: knot(pt, pv) if pt > kt. -/
def coderFlush (s : State) : State :=
  let c := s.ledger.coder
  if s.recording && c.on && decide (c.kt < c.pt) then s.knot c.pt c.pv else s

/-- A step or a GAP: the last knot, then an ANCHOR at the next sample (R467, R473). -/
def coderBreak (s : State) : State :=
  let s := s.coderFlush
  let s := if s.recording && s.ledger.coder.on then s.minuteEnd else s
  s.setCoder { s.ledger.coder with on := false, minute := none }

/-- A GAP record (R466). -/
def recordGap (s : State) (cause frm till : Nat) : State := s.coderBreak.record rtGAP (gapBody cause frm till)

/-! ### Authenticated updates (R442-R446) -/

/-- Length of a TIME_SET (R442). -/
def timeSetLen : Nat := 5513

/-- Magic, version, reserved fields and the range of the validity (R442). -/
def timeFormatOk (t : List Byte) : Bool :=
  slice t 0 4 = [0x53, 0x59, 0x54, 0x53] && fieldLe t 4 2 = 1 && allZero (slice t 6 2) && allZero (slice t 0x34 4)
  && allZero (slice t 0x839 3) && decide (1 ≤ fieldLe t 0x30 4) && decide (fieldLe t 0x30 4 ≤ 60000)

/-- The round trip so far, in ticks. -/
def roundTrip (s : State) : Nat := match s.time.challenge with | some (_, m) => s.time.mrt - m | none => 0

/-- The first failing condition of R444. -/
def timeFault (s : State) (t : List Byte) : Option Nat :=
  if !timeFormatOk t then some Reason.FIELD_RANGE
  else if s.otp.backendHash = 0 then some tmAUTH_MISSING
  else if keysHash t 0x38 ≠ s.otp.backendHash then some tmTIME_AUTH
  else if !bothSigsOk t 0x38 0x83C then some tmTIME_SIGNATURE
  else if digestOf 128 (slice t 8 16) ≠ s.otp.serial then some tmTIME_SERIAL
  else if s.time.challenge.map Prod.fst ≠ some (digestOf 128 (slice t 0x18 16)) then some tmTIME_CHALLENGE
  else if fieldLe t 0x30 4 * 32768 < s.roundTrip * 1000 then some tmTIME_STALE
  else none

/-- Hold a time challenge, or discard it (R443). -/
def setTimeChallenge (s : State) (c : Option (BitVec 128 × Nat)) : State :=
  let s := s.setTime { s.time with challenge := c }
  let d : BitVec 128 := match c with | some x => x.1 | none => 0
  (List.range 4).foldl (fun s i => s.wr (Reg.TIME.CHALLENGE i) (digestWord d i)) s

/-- What remains of a slew (R446). -/
def setSlew (s : State) (d : Int) : State :=
  let s := s.setTime { s.time with slew := d }
  (s.wr Reg.TIME.SLEW_REMAIN (d % 2 ^ 32).toNat).wrb Reg.TIME.STATUS_SLEWING (d ≠ 0)

/-- A signed number cut to 32 bits with saturation. -/
def satSigned (d : Int) : Nat :=
  let d := if d < -2147483648 then -2147483648 else if 2147483647 < d then 2147483647 else d
  (d % 2 ^ 32).toNat

/-- A step of `d` ticks (R446): UTC_OFFSET changes at once, TIME_CORRECTION, the end of a gap, then the periods. -/
def timeStep (s : State) (d : Int) (rt : Nat) : State :=
  let old := if s.gap then 2 ^ 64 - 1 else (s.utcAt s.time.mrt % 2 ^ 64).toNat
  let wasGap := s.gap
  let s := (s.coderBreak.setSlew 0)
  let s := s.setTime { s.time with utcOffset := s.time.utcOffset + d }
  let s := ((s.bump Reg.TIME.STEP_COUNT).wr Reg.TIME.LAST_STEP (satSigned (Int.tdiv (d * 1000) 32768))).raise pgTIME 9
  let s := (s.wr Reg.TIME.STATUS_TIME_GAP 0).retroCheck
  let s := s.record rtTIME_CORRECTION
    (leBytes 8 old ++ leBytes 8 (s.utcAt s.time.mrt % 2 ^ 64).toNat ++ leBytes 4 (rt * 1000 / 32768) ++ leBytes 4 0)
  let s := if wasGap then s.record rtGAP (gapBody gapTIME s.time.gapFrom s.time.mrt) else s
  s.crossNow

/-- End a TIME command that is refused. -/
def timeRefuse (s : State) (code : Nat) : State :=
  ((s.refuse pgTIME code timeCmdOff).wr Reg.TIME.STATUS_BUSY 0).cmdEnd pgTIME timeCmdOff

/-- APPLY, on the PKE, judges a TIME_SET and slews or steps (R444-R446). -/
def timeApplyRun (addr : Nat) (s : State) : State :=
  let t := s.sramBytes addr timeSetLen
  match s.timeFault t with
    | some r => s.timeRefuse r
    | none =>
      let rt := s.roundTrip
      let d : Int := (fieldLe t 0x28 8 + rt / 2 : Nat) - s.utcAt s.time.mrt
      let s := s.setTimeChallenge none
      let s := if !s.gap && decide (d.natAbs * 1000 ≤ s.cfg Reg.TIME.TIME_TOL * 32768) then (s.setSlew d).bump Reg.TIME.SLEW_COUNT
        else s.timeStep d rt
      ((s.raise pgTIME 8).wr Reg.TIME.STATUS_BUSY 0).cmdEnd pgTIME timeCmdOff

/-- APPLY, when it starts: its verification waits for the PKE under class K2 (log entry 131), in Brace for Brace exit, and the round trip
counts on (R255, R356, R444). -/
def startTimeApply (addr : Nat) (s : State) : State :=
  if !inSram addr timeSetLen then s.timeRefuse Reason.FIELD_RANGE
  else if s.pkeFree 2 then s.timeApplyRun addr
  else ((s.cmdStart pgTIME timeCmdOff (.timeApply addr)).wr Reg.TIME.STATUS_BUSY 1).awaitPke .time 2 fwIssuer

/-- The PKE is free for an APPLY that waits. -/
def timeGranted (s : State) : State :=
  match (s.cmdSlot pgTIME timeCmdOff).running with
  | some (.timeApply addr) => s.timeApplyRun addr
  | _ => s

/-- CHALLENGE, when it starts (R443); the DRBG serves nothing while the source is FAILED (R253), and before it is instantiated the command
waits (R251). -/
def startTimeChallenge (s : State) : State :=
  if s.rngFailed then (s.wr (Hdr.REASON_CODE pgTIME) rngUNAVAILABLE).wr (Hdr.REASON_OFFSET pgTIME) timeCmdOff
  else if !s.rngServes then s.setCmdSlot pgTIME timeCmdOff { s.cmdSlot pgTIME timeCmdOff with queued := some .timeChallenge }
  else
    let d := s.draw 16
    d.1.setTimeChallenge (some (digestOf 128 d.2, s.time.mrt))

/-- PROGRAM_AUTH, when it starts (R447); in Brace no blow starts, and the command waits (R506). -/
def startTimeProgramAuth (addr : Nat) (s : State) : State :=
  if !(s.lc = lcISSUED || s.lc = lcPROVISIONED) || s.otp.backendHash ≠ 0 then s.timeRefuse Reason.NOT_IN_LIFECYCLE
  else if !inSram addr 48 then s.timeRefuse Reason.FIELD_RANGE
  else if s.brace then s.cmdStart pgTIME timeCmdOff (.timeProgramAuth addr)
  else { s with otp := { s.otp with backendHash := digestOf 384 (s.sramBytes addr 48) } }

/-- Brace exit: a PROGRAM_AUTH that waits goes on; an APPLY waits for the PKE. -/
def timeResume (s : State) : State :=
  match (s.cmdSlot pgTIME timeCmdOff).running with
  | some (.timeProgramAuth addr) => (s.cmdEnd pgTIME timeCmdOff).startTimeProgramAuth addr
  | _ => s

/-- UTC_OFFSET moves one tick towards the target (R446). -/
def slewTick (s : State) : State :=
  if s.gap || s.time.slew = 0 then s
  else
    let d : Int := if 0 < s.time.slew then 1 else -1
    let s := s.setTime { s.time with utcOffset := s.time.utcOffset + d }
    (s.setSlew (s.time.slew - d)).retroCheck

/-- TIME_GAP begins now (R54): UTC is undefined, so nothing is left to slew. -/
def startGap (s : State) : State :=
  let s := (s.setTime { s.time with gapFrom := s.time.mrt }).setSlew 0
  (s.wr Reg.TIME.STATUS_TIME_GAP 1).wr Reg.TIME.STATUS_RETROGRADE 0

/-- MRT, UTC latched together (R441): what MRT_HI, UTC_LO and UTC_HI read until the next read of MRT_LO. -/
def latchTime (s : State) : State :=
  s.setTime { s.time with latchMrt := s.time.mrt, latchUtc := if s.gap then 2 ^ 64 - 1 else (s.utcAt s.time.mrt % 2 ^ 64).toNat }

/-- The always-on domain counts MRT: supplied, and not in SHELF (R439, R52). -/
def mrtRuns (s : State) : Bool := s.power.aon ≠ .reset && s.mode.phase ≠ .shelf

/-- The idle tick: MRT advances by one (R439). -/
def tick (s : State) : State := if s.mrtRuns then s.setTime { s.time with mrt := (s.time.mrt + 1) % 2 ^ 64 } else s

end State

/-- TIME_CHALLENGE (R443): TIME CMD with OP 1. -/
def execTimeChallenge (s : State) : Host.Outcome State Fault Refusal :=
  .next (s.issue pgTIME timeCmdOff .timeChallenge State.startTimeChallenge)

/-- TIME_APPLY (R444): OP 2. -/
def execTimeApply (addr : Nat) (s : State) : Host.Outcome State Fault Refusal :=
  .next (s.issue pgTIME timeCmdOff (.timeApply addr) (State.startTimeApply addr))

/-- TIME_PROGRAM_AUTH (R447): OP 3. -/
def execTimeProgramAuth (addr : Nat) (s : State) : Host.Outcome State Fault Refusal :=
  .next (s.issue pgTIME timeCmdOff (.timeProgramAuth addr) (State.startTimeProgramAuth addr))

/-- SLEW_TICK (R446): 1,000 ticks of MRT have passed during a slew. -/
def execSlewTick (s : State) : Host.Outcome State Fault Refusal := .next (if s.mrtRuns then s.slewTick else s)

end Sys2Proof.Machine
end

