-- ==== Sys2Proof/Machine/Ledger.lean ====
section
/-! DEFINITION. The statutory ledger (chapter 15): recording, samples and the speed coder, wheel speed, inputs, the import of
Clove's log, freeze, export. -/

namespace Sys2Proof.Machine

/-! ### Slope bounds as fractions (R473) -/

/-- The larger and the smaller of a bound and the slope n / d; no bound is minus or plus infinity. -/
def boundMax (b : Option (Int × Nat)) (n : Int) (d : Nat) : Int × Nat :=
  match b with
  | none => (n, d)
  | some (m, e) => if m * (d : Int) < n * (e : Int) then (n, d) else (m, e)
def boundMin (b : Option (Int × Nat)) (n : Int) (d : Nat) : Int × Nat :=
  match b with
  | none => (n, d)
  | some (m, e) => if n * (e : Int) < m * (d : Int) then (n, d) else (m, e)

/-- The slope n / d lies within the bounds. -/
def withinBounds (lo hi : Option (Int × Nat)) (n : Int) (d : Nat) : Bool :=
  (match lo with | none => true | some (m, e) => decide (m * (d : Int) ≤ n * (e : Int)))
  && (match hi with | none => true | some (m, e) => decide (n * (e : Int) ≤ m * (d : Int)))

/-- SPEED_TOL in 1/16 km/h: 0, 8, 16, 32 (R473). -/
def tolOf (c : Nat) : Nat := if c = 0 then 0 else 4 * 2 ^ c

/-- A 16-bit field of a wheel-speed frame (R471). -/
def wheelRaw (data : List Byte) (start : Nat) (big : Bool) : Nat :=
  let b := slice data start 2
  if big then beNat b else leNat b

/-- What an entry of Clove's log becomes (R497): the MRT it is stamped with, a span's pulses, the EVENT code and its data. -/
structure Imported where
  mrt : Nat
  pulses : Nat
  code : Nat
  data : List Byte
  deriving DecidableEq, Repr

/-- The walk over Clove's log (R497): the open ignition-off span and the open motion span with its pulse count. -/
structure ImportWalk where
  parked : Option Nat
  towed : Option (Nat × Nat)
  out : List Imported
  deriving DecidableEq, Repr

/-- A span of ignition off that ends at `m`. -/
def ImportWalk.closeParked (w : ImportWalk) (m : Nat) : ImportWalk :=
  match w.parked with
  | some a => { w with parked := none, out := w.out ++ [(⟨m, 0, 4, leBytes 4 ((m - a) / 32768)⟩ : Imported)] }
  | none => w

/-- A motion span that ends at `m` with PULSE_ACCUM `p`. -/
def ImportWalk.closeTowed (w : ImportWalk) (m p : Nat) : ImportWalk :=
  match w.towed with
  | some (a, p0) =>
    let n := (p + 2 ^ 32 - p0) % 2 ^ 32
    { w with towed := none, out := w.out ++ [(⟨m, n, 3, leBytes 4 n ++ leBytes 2 (min ((m - a) / 32768) 0xFFFF)⟩ : Imported)] }
  | none => w

/-- One entry of the log: IGN_OFF, IGN_ON, MOTION_START, MOTION_END, TAMPER; other kinds yield nothing. -/
def ImportWalk.entry (w : ImportWalk) (e : List Byte) : ImportWalk :=
  let m := fieldLe e 0 8
  let k := fieldLe e 9 1
  let p := fieldLe e 12 4
  if k = 1 then (if w.parked.isSome then w else { w with parked := some m })
  else if k = 2 then (w.closeParked m).closeTowed m p
  else if k = 3 then (if w.towed.isSome then w else { w with towed := some (m, p) })
  else if k = 4 then w.closeTowed m p
  else if k = 5 then { w with out := w.out ++ [(⟨m, 0, 5, slice e 11 1⟩ : Imported)] }
  else w

/-- Put an item behind those with an MRT no later than its own. -/
def insertImported (x : Imported) : List Imported → List Imported
  | [] => [x]
  | y :: ys => if x.mrt < y.mrt then x :: y :: ys else y :: insertImported x ys

namespace State

/-- HANDOVER_MRT (R486). -/
def handover (s : State) : Nat := s.rd Reg.AON.HANDOVER_MRT_LO + 2 ^ 32 * s.rd Reg.AON.HANDOVER_MRT_HI

/-! ### Import (R472, R497) -/

/-- The periods that UTC reached up to tick `m`, each crossing stamped with the MRT of its boundary. -/
def replayTo (m : Nat) : Nat → State → State
  | 0, s => s
  | fuel + 1, s =>
    let b := min (PeriodRule.day.next (s.rd Reg.TIME.LAST_DAY))
      (min (PeriodRule.week.next (s.rd Reg.TIME.LAST_WEEK)) (s.meterRule.next (s.rd Reg.TIME.LAST_METER)))
    if s.gap || decide (s.utcSecAt m < b) then s
    else replayTo m fuel (s.crossAt b ((b : Int) * 32768 - s.time.utcOffset).toNat)

/-- As many turns as there are days in which a boundary can lie. -/
def replayFuel (s : State) (m : Nat) : Nat := s.utcSecAt m / 86400 - s.rd Reg.TIME.LAST_DAY / 86400 + 2

/-- Distance accrues to the open periods and to the odometer (R452, R470). -/
def accrue (s : State) (pulses moving ign : Nat) : State :=
  let k := max 1 (s.cfg Reg.LEDG.K_FACTOR)
  let s := [0, 1, 2].foldl (fun s i => s.setTotals i ((s.totals i).add k pulses moving ign)) s
  let r := s.nvm.odoRem + pulses * 1000
  let s := { s with nvm := { s.nvm with odometer := (s.nvm.odometer + r / k) % 2 ^ 32, odoRem := r % k } }
  s.setLedger { s.ledger with distPulses := s.ledger.distPulses + pulses }

/-- Clove's log from LOG_TAIL to LOG_HEAD, entries at or after HANDOVER_MRT. -/
def cloveEntries (s : State) : List (List Byte) :=
  let t := s.rd Reg.CLOV.LOG_TAIL
  let n := (s.rd Reg.CLOV.LOG_HEAD + 256 - t) % 256
  ((List.range n).map (fun i => s.retBytes (0x3000F000 + 16 * ((t + i) % 256)) 16)).filter (fun e => decide (s.handover ≤ fieldLe e 0 8))

/-- One imported item: first the periods up to its MRT, then its pulses and its record. -/
def importOne (s : State) (x : Imported) : State :=
  let s := s.replayTo x.mrt (s.replayFuel x.mrt)
  (s.accrue x.pulses 0 0).recordEvent x.mrt x.code x.data

/-- The pulses of the whole seconds between a wake, where PULSE_ACCUM was `wp`, and its import, in which no sample is taken (R472). -/
def sinceWake (s : State) (wp : Nat) : State :=
  let d := (s.ledger.pulseAt + 2 ^ 32 - wp) % 2 ^ 32
  if d < 2 ^ 31 then s.accrue d 0 0 else s.setLedger { s.ledger with pulseAt := wp }

/-- The import after a wake from VIGIL, in MRT order together with the period boundaries (R472, R497). -/
def cloveImport (s : State) : State :=
  match s.power.wake with
  | none => s
  | some (wm, wp) =>
    let w := s.cloveEntries.foldl ImportWalk.entry ⟨some s.handover, none, []⟩
    let w := (w.closeParked wm).closeTowed wm wp
    let items := w.out.foldl (fun l x => insertImported x l) []
    let s := items.foldl importOne s
    let s := s.replayTo s.time.mrt (s.replayFuel s.time.mrt)
    let s := s.sinceWake wp
    let s := s.wr Reg.CLOV.LOG_TAIL (s.rd Reg.CLOV.LOG_HEAD)
    ({ s with power := { s.power with fromVigil := false, wake := none } }).retroCheck

/-! ### Distance and ignition (R466) -/

/-- A DISTANCE record. -/
def recordDistance (s : State) : State :=
  if !s.recording then s
  else
    let s := s.record rtDISTANCE (leBytes 4 s.nvm.odometer ++ leBytes 4 s.ledger.distPulses)
    s.setLedger { s.ledger with distPulses := 0 }

/-- The ignition, as Clove's channel shows it, has changed: DISTANCE; when it goes off also METER and the coder's last knot. -/
def ignitionCheck (s : State) : State :=
  if !s.recording || s.ledger.ignOn = s.clove.ign.value then s
  else
    let s := (s.setLedger { s.ledger with ignOn := s.clove.ign.value }).recordDistance
    if s.clove.ign.value then s
    else
      let t := s.totals 2
      (s.record rtMETER (leBytes 4 (s.rd Reg.TIME.LAST_METER) ++ leBytes 1 0 ++ leBytes 3 0 ++ leBytes 4 t.metres ++ leBytes 4 t.ign
        ++ leBytes 4 t.moving)).coderFlush

/-! ### Recording (R463, R464) -/

/-- The conditions of R464. -/
def recordOk (s : State) : Bool :=
  s.up && s.active pgLEDG && s.inService && s.ledger.key.isSome && !s.flag Reg.DBG.DBG_STATE_LEDGER_STOPPED && !s.nvm.frozen

/-- Recording resumes: a GAP record covers the interval, then Clove's import; sampling starts with an ANCHOR. -/
def recordRise (s : State) : State :=
  let s := s.wr Reg.LEDG.STATUS_RECORDING 1
  let l := s.ledger
  let s := s.setLedger { l with stoppedAt := none, tailLost := false }
  let s := if l.tailLost then s.recordGap gapTAIL_LOST 0 s.time.mrt else s.coderBreak
  let s := match l.stoppedAt with
    | some m => s.recordGap l.stopCause m s.time.mrt
    | none => s
  s.cloveImport.ignitionCheck

/-- Recording stops now. -/
def recordFall (s : State) : State :=
  let s := s.coderBreak.wr Reg.LEDG.STATUS_RECORDING 0
  s.setLedger { s.ledger with stoppedAt := some s.time.mrt, stopCause := if s.nvm.frozen then gapFROZEN else gapNOT_RECORDING }

/-- Bring K_L, RECORDING and what hangs on them in line with the state: called wherever a condition of R464 may have changed. -/
def ledgerCheck (s : State) : State :=
  let s := if s.active pgLEDG then s else s.setLedger { s.ledger with key := none }
  let had := s.ledger.key.isSome
  let s := s.keyDerive
  let fresh := !had && s.ledger.key.isSome
  let scan (r : Nat) (x : State × List (Nat × Nat)) : State × List (Nat × Nat) :=
    let y := x.1.scanRing r
    (y.1, match y.2 with | some q => x.2 ++ [(r, q)] | none => x.2)
  let x := if fresh then scan 1 (scan 0 ((s.eraseAgain 0).eraseAgain 1, [])) else (s, [])
  let s := x.1
  let s := if s.recordOk && !s.recording then s.recordRise else if !s.recordOk && s.recording then s.recordFall else s
  let s := x.2.foldl (fun s e => s.recordEvent s.time.mrt 7 (leBytes 1 e.1 ++ leBytes 4 e.2)) s
  if fresh && !s.ledger.journal.isEmpty then s.commitStart else s

/-- Statutory recording stops until the next power-on reset (R132). -/
def stopRecording (s : State) : State := (s.wr Reg.DBG.DBG_STATE_LEDGER_STOPPED 1).ledgerCheck

/-- The DEBUG_OPEN record enters the journal, recording or not, and is committed (R132, R464). -/
def ledgerDebugOpen (s : State) (d : BitVec 384) (rights : Nat) : State :=
  let n := s.ledger.journal.length
  let s := s.putItem 0 true s.time.mrt (s.recBytes rtDEBUG_OPEN s.time.mrt (digestBytes d ++ leBytes 4 rights))
  (s.setLedger { s.ledger with debugIn := decide (n < s.ledger.journal.length) }).commitStart

/-- The DEBUG_OPEN record of the opening order that runs is on FB. -/
def debugOnFb (s : State) : Bool :=
  s.ledger.debugIn && !s.ledger.journal.any (fun r => r.ring = 0 && fieldLe r.data 0 1 = rtDEBUG_OPEN)

/-- What a loss of the main domain does to the ledger: recording has stopped, a program in progress is torn (R463). -/
def ledgerOff (s : State) : State :=
  let s := if s.recording then s.recordFall else s
  let s := s.blockTorn
  s.setLedger { s.ledger with key := none, challenge := none, debugIn := false }

/-- A device warm reset: the flash device completes the program or the erase in progress, so the scan finds its block on FB (R463). -/
def ledgerWarm (s : State) : State :=
  let s := if s.recording then s.recordFall else s
  let s := match (s.sched (chanRes 6)).running with
    | some r => if r.kind ≠ ReqKind.ledger then s else if r.addr = 0 then s.blockWritten else s.ringErased (r.addr - 1)
    | none => s
  s.setLedger { s.ledger with key := none, challenge := none, debugIn := false, committing := false, block := none }

/-! ### Samples (R470, R471, R473) -/

/-- A wheel-speed frame that a filter routed here: raw × SCALE counts into the second's mean (R471). -/
def wheelFrame (s : State) (data : List Byte) : State :=
  if !s.recording || s.cfg Reg.LEDG.WS_FORMAT_SCALE = 0 || data.length < s.cfg Reg.LEDG.WS_FORMAT_START + 2 then s
  else
    let raw := wheelRaw data (s.cfg Reg.LEDG.WS_FORMAT_START) (s.cfgb Reg.LEDG.WS_FORMAT_BIG_ENDIAN)
    let l := s.ledger
    s.setLedger { l with wsSum := l.wsSum + raw * s.cfg Reg.LEDG.WS_FORMAT_SCALE, wsCount := l.wsCount + 1, wsSilent := 0, lostTold := false }

/-- The cross-check at a second: the runs of differing and of agreeing seconds, or one more second without a frame. -/
def wheelSecond (s : State) (v : Nat) : State :=
  let l := s.ledger
  if l.wsCount = 0 then s.setLedger { l with wsSilent := l.wsSilent + 1 }
  else
    let den := 65536 * l.wsCount
    let diff := ((l.wsSum : Int) - (v * den : Nat)).natAbs
    let l := if s.cfg Reg.LEDG.MISMATCH_KMH * 16 * den < diff then
        { l with missRun := l.missRun + 1, matchRun := 0, missMax := max l.missMax (diff / den) }
      else { l with missRun := 0, matchRun := l.matchRun + 1, missMax := if l.inMiss then l.missMax else 0 }
    s.setLedger { l with wsSum := 0, wsCount := 0 }

/-- An ANCHOR (R467): flags, UTC second, MRT in whole seconds, speed. -/
def anchor (s : State) (t v : Nat) : State :=
  let s := s.speedItem (leBytes 1 0x80 ++ leBytes 1 s.recFlags ++ leBytes 2 0
    ++ leBytes 4 (if s.gap then 0xFFFFFFFF else t) ++ leBytes 6 (s.time.mrt / 32768) ++ leBytes 2 v)
  s.setCoder { s.ledger.coder with on := true, kt := t, kv := v, pt := t, pv := v, lo := none, hi := none }

/-- on sample (t, v) of R473. -/
def codeSample (s : State) (t v : Nat) : State :=
  let tol := tolOf (s.cfg Reg.LEDG.CONFIG_SPEED_TOL)
  let c := s.ledger.coder
  if !c.on || t ≤ c.pt || 127 < t - c.kt then (s.coderBreak.anchor t v)
  else
    let forced := decide (v = 0) != decide (c.pv = 0)
    let s := if 1 < t - c.kt && !withinBounds c.lo c.hi ((v : Int) - c.kv) (t - c.kt) then s.knot c.pt c.pv else s
    let s := if forced || t - s.ledger.coder.kt = 127 then
        let s := if forced && decide (s.ledger.coder.kt < c.pt) then s.knot c.pt c.pv else s
        s.knot t v
      else
        let k := s.ledger.coder
        let d := t - k.kt
        s.setCoder { k with lo := some (boundMax k.lo ((v : Int) - tol - k.kv) d), hi := some (boundMin k.hi ((v : Int) + tol - k.kv) d) }
    s.setCoder { s.ledger.coder with pt := t, pv := v }

/-- The sample counts into its minute: that of the second that has ended; MINUTE_MAX at the minute's end. -/
def minuteSample (s : State) (t v : Nat) : State :=
  let m := (t - 1) / 60
  let s := match s.ledger.coder.minute with
    | some (m', _) => if m' = m then s else s.minuteEnd
    | none => s
  let v := match s.ledger.coder.minute with | some (_, v') => max v v' | none => v
  let s := s.setCoder { s.ledger.coder with minute := some (m, v) }
  if t % 60 = 0 then s.minuteEnd else s

/-- The second that ends at `t` (R470): its pulses, its speed, its share of the periods and of the odometer, recorded or not, while the
page is in force; the sample, the cross-check and the coder while RECORDING is 1 (R464).  Before the import of a wake nothing is taken
(R472). -/
def ledgerSecond (s : State) (t : Nat) : State :=
  let acc := s.rd Reg.CLOV.PULSE_ACCUM
  let p := (acc + 2 ^ 32 - s.ledger.pulseAt) % 2 ^ 32
  let k := max 1 (s.cfg Reg.LEDG.K_FACTOR)
  let v := min 0xFFFF ((2 * (p * 57600) + k) / (2 * k))
  let s := s.setLedger { s.ledger with pulseAt := acc }
  if !s.up || !s.active pgLEDG || s.power.fromVigil then s
  else
    let s := s.accrue p (b2n (v ≠ 0)) (b2n s.clove.ign.value)
    let s := s.setLedger { s.ledger with speed := v }
    if s.recording then ((s.wheelSecond v).codeSample t v).minuteSample t v else s

/-- SENSOR_MISMATCH_BEGIN (R471). -/
def mismatchBegin (s : State) : State :=
  let l := s.ledger
  if s.recording && s.cfg Reg.LEDG.WS_FORMAT_SCALE ≠ 0 && !l.inMiss && decide (s.cfg Reg.LEDG.MISMATCH_SECS ≤ l.missRun) then
    let s := s.setLedger { l with inMiss := true, matchRun := 0 }
    ((s.recordEvent s.time.mrt 1 (leBytes 2 (min l.missMax 0xFFFF))).bump Reg.LEDG.MISMATCH_COUNT).raise pgLEDG 10
  else s

/-- SENSOR_MISMATCH_END (R471). -/
def mismatchEnd (s : State) : State :=
  let l := s.ledger
  if s.recording && l.inMiss && decide (s.cfg Reg.LEDG.MISMATCH_SECS ≤ l.matchRun) then
    (s.setLedger { l with inMiss := false, missRun := 0, missMax := 0 }).recordEvent s.time.mrt 2 []
  else s

/-- WHEEL_SPEED_LOST (R471). -/
def wheelLost (s : State) : State :=
  let l := s.ledger
  if s.recording && s.cfg Reg.LEDG.WS_FORMAT_SCALE ≠ 0 && decide (5 ≤ l.wsSilent) && l.speed ≠ 0 && !l.lostTold then
    (s.setLedger { l with lostTold := true }).recordEvent s.time.mrt 6 []
  else s

/-! ### Inputs (R469) -/

/-- Judge and take an input from a path; the reason where it is refused. -/
def ledgerTake (s : State) (open_ : Bool) (data : List Byte) : State × Option Nat :=
  let t := fieldLe data 0 1
  let n := fieldLe data 1 1
  let b := slice data 4 n
  let bodyOk := (t = rtACTIVITY && n = 4 && decide (fieldLe b 0 1 ≤ 1) && decide (fieldLe b 1 1 ≤ 4) && decide (fieldLe b 2 1 ≤ 1) && allZero (slice b 3 1))
    || (t = rtCARD && n = 28 && decide (fieldLe b 0 1 ≤ 1) && (fieldLe b 1 1 = 1 || fieldLe b 1 1 = 2) && allZero (slice b 2 2))
    || (t = rtEVENT && n = 8 && decide (0x8000 ≤ fieldLe b 0 2))
  if !bodyOk || !allZero (slice data 2 2) || data.length ≠ 4 + n then (s, some Reason.FIELD_RANGE)
  else if !open_ then (s, some lgINPUT_SOURCE)
  else if !s.recording then (s, some lgNOT_RECORDING)
  else (s.record t b, none)

/-- INPUT from firmware, when it starts. -/
def startLedgInput (addr : Nat) (s : State) : State :=
  if !inSram addr 32 then s.refuse pgLEDG Reason.FIELD_RANGE ledgCmdOff
  else
    let r := s.ledgerTake (s.cfgb Reg.LEDG.CONFIG_INPUT_STX) (s.sramBytes addr (4 + s.sramLe (addr + 1) 1))
    match r.2 with
    | some c => r.1.refuse pgLEDG c ledgCmdOff
    | none => r.1

/-! ### Freeze, thaw, export (R475-R478) -/

/-- FREEZE ends: the journal is on FB; the open pages close and FROZEN is set. -/
def freezeFinish (s : State) : State :=
  let s := ((s.closePage 0).closePage 1)
  let s := { s with nvm := { s.nvm with frozen := true } }
  (s.cmdEnd pgLEDG ledgCmdOff).ledgerCheck

/-- FREEZE runs: wait for the journal and for the end of Brace, then finish. -/
def freezeStep (s : State) : State :=
  match (s.cmdSlot pgLEDG ledgCmdOff).running with
  | some .freeze =>
    if s.brace then s
    else if s.ledger.journal.isEmpty && !s.ledger.committing then s.freezeFinish else s.commitStart
  | _ => s

/-- FREEZE, when it starts; without the page in force and K_L nothing can be committed or closed. -/
def startFreeze (s : State) : State :=
  if s.nvm.frozen then s
  else if !s.active pgLEDG || s.ledger.key.isNone then s.refuse pgLEDG lgNOT_RECORDING ledgCmdOff
  else (s.coderBreak.cmdStart pgLEDG ledgCmdOff .freeze).freezeStep

/-- THAW, when it starts; the GAP record is written when recording resumes. -/
def startThaw (s : State) : State :=
  if s.brace then s.cmdStart pgLEDG ledgCmdOff .thaw
  else
    let s := if s.nvm.frozen then s.setLedger { s.ledger with stoppedAt := some (s.ledger.stoppedAt.getD s.time.mrt), stopCause := gapFROZEN } else s
    ({ s with nvm := { s.nvm with frozen := false, exported := false } }).ledgerCheck

/-- HEAD_SEQ: the open page, or the last closed one (chapter 15, LEDG page). -/
def headSeq (s : State) (r : Nat) : Nat := let g := s.ring r; if g.isOpen then g.head else g.head - 1

/-- TAIL_SEQ: the oldest page present. -/
def tailSeq (s : State) (r : Nat) : Nat := (s.ring r).tail

/-- A closed page of the ring. -/
def closedPage (s : State) (r q : Nat) : Bool := decide ((s.ring r).tail ≤ q) && decide (q < (s.ring r).head)

/-- READ_PAGE, when it starts: a K3 read on FB (R476). -/
def startReadPage (addr : Nat) (s : State) : State :=
  let r := s.sramLe addr 1
  let q := s.sramLe (addr + 4) 4
  if !inSram addr 12 || 1 < r || s.sramLe (addr + 1) 3 ≠ 0 || !inSram (s.sramLe (addr + 8) 4) 0x1000 then
    s.refuse pgLEDG Reason.FIELD_RANGE ledgCmdOff
  else if !s.closedPage r q then s.refuse pgLEDG lgPAGE_RANGE ledgCmdOff
  else (s.cmdStart pgLEDG ledgCmdOff (.readPage addr)).enqueue (chanRes 6) ⟨.readPage, 3, 3, ledgIssuer, 0, 0, 0, s.sramBytes addr 12⟩

/-- A burst of READ_PAGE has arrived. -/
def readPageServed (s : State) (r : Req) (corrupt : Bool) : State :=
  let a := pageAddr (fieldLe r.desc 0 1) (fieldLe r.desc 4 4)
  let d := s.delivered corrupt (s.flashBytes 6 0 (a + r.pos) 512)
  let s := d.1.sramStore (fieldLe r.desc 8 4 + r.pos) d.2
  if r.pos + 512 < 0x1000 then s.requeue 6 { r with pos := r.pos + 512 } else s.cmdEnd pgLEDG ledgCmdOff

/-- Hold an export challenge, or discard it (R478). -/
def setExportChallenge (s : State) (c : Option (BitVec 128 × Nat)) : State :=
  let s := s.setLedger { s.ledger with challenge := c }
  let d : BitVec 128 := match c with | some x => x.1 | none => 0
  (List.range 4).foldl (fun s i => s.wr (Reg.LEDG.EXPORT_CHALLENGE i) (digestWord d i)) s

/-- EXPORT_CHALLENGE, when it starts; the DRBG serves nothing while FAILED (R253), and before it is instantiated the command waits
(R251). -/
def startExportChallenge (s : State) : State :=
  if s.rngFailed then (s.wr (Hdr.REASON_CODE pgLEDG) rngUNAVAILABLE).wr (Hdr.REASON_OFFSET pgLEDG) ledgCmdOff
  else if !s.rngServes then s.setCmdSlot pgLEDG ledgCmdOff { s.cmdSlot pgLEDG ledgCmdOff with queued := some .exportChallenge }
  else
    let d := s.draw 16
    d.1.setExportChallenge (some (digestOf 128 d.2, s.time.mrt))

/-- Length of an acknowledgement (R477). -/
def ackLen : Nat := 5569

/-- The first failing condition of R478. -/
def ackFault (s : State) (t : List Byte) : Option Nat :=
  let tagOf (r : Nat) : List Byte := s.flashBytes 6 0 (pageAddr r (s.headSeq r) + 0xFE0) 32
  if !s.nvm.frozen then some lgNOT_FROZEN
  else if !(slice t 0 4 = [0x53, 0x59, 0x58, 0x41] && fieldLe t 4 2 = 1 && allZero (slice t 6 2) && allZero (slice t 0x871 3)) then some Reason.FIELD_RANGE
  else if s.otp.backendHash = 0 || keysHash t 0x70 ≠ s.otp.backendHash then some lgEXPORT_AUTH
  else if !bothSigsOk t 0x70 0x874 then some lgEXPORT_SIGNATURE
  else if digestOf 128 (slice t 8 16) ≠ s.otp.serial || s.ledger.challenge.map Prod.fst ≠ some (digestOf 128 (slice t 0x18 16)) then
    some lgEXPORT_CHALLENGE
  else if fieldLe t 0x28 4 ≠ s.headSeq 0 || fieldLe t 0x2C 4 ≠ s.headSeq 1 || slice t 0x30 32 ≠ tagOf 0 || slice t 0x50 32 ≠ tagOf 1 then
    some lgEXPORT_MISMATCH
  else none

/-- EXPORT_ACK, when it starts: its verification waits for the PKE under class K2 (R255, R356; log entry 131). -/
def startExportAck (addr : Nat) (s : State) : State :=
  if !inSram addr ackLen then s.refuse pgLEDG Reason.FIELD_RANGE ledgCmdOff
  else if !s.pkeFree 2 then (s.cmdStart pgLEDG ledgCmdOff (.exportAck addr)).awaitPke .ledger 2 fwIssuer
  else match s.ackFault (s.sramBytes addr ackLen) with
    | some r => s.refuse pgLEDG r ledgCmdOff
    | none => (({ s with nvm := { s.nvm with exported := true } }).setExportChallenge none).raise pgLEDG 12

/-- The PKE is free for an EXPORT_ACK that waits. -/
def ledgGranted (s : State) : State :=
  match (s.cmdSlot pgLEDG ledgCmdOff).running with
  | some (.exportAck addr) => (s.cmdEnd pgLEDG ledgCmdOff).startExportAck addr
  | _ => s

/-- SET_ODOMETER, when it starts: PROVISIONED only. -/
def startSetOdometer (addr : Nat) (s : State) : State :=
  if s.lc ≠ lcPROVISIONED then s.refuse pgLEDG Reason.NOT_IN_LIFECYCLE ledgCmdOff
  else if !inSram addr 4 then s.refuse pgLEDG Reason.FIELD_RANGE ledgCmdOff
  else if s.brace then s.cmdStart pgLEDG ledgCmdOff (.setOdometer addr)
  else ({ s with nvm := { s.nvm with odometer := s.sramLe addr 4, odoRem := 0 } }).recordDistance

/-- Brace exit: a command that programs internal NVM goes on (R506). -/
def ledgResume (s : State) : State :=
  match (s.cmdSlot pgLEDG ledgCmdOff).running with
  | some .thaw => (s.cmdEnd pgLEDG ledgCmdOff).startThaw
  | some (.setOdometer addr) => (s.cmdEnd pgLEDG ledgCmdOff).startSetOdometer addr
  | _ => s

end State

/-- UTC_SECOND (R449, R470): the sample of the second that ended, then the periods. -/
def execUtcSecond (s : State) : Host.Outcome State Fault Refusal :=
  .next (if s.gap || !s.mrtRuns then s else ((s.ledgerSecond (s.utcSecAt s.time.mrt)).crossNow).retroCheck)

/-- MRT_SECOND (R470): the same sample while TIME_GAP is 1, at a second of MRT; no boundary is crossed (R441). -/
def execMrtSecond (s : State) : Host.Outcome State Fault Refusal :=
  .next (if s.gap && s.mrtRuns then s.ledgerSecond (s.time.mrt / 32768) else s)

/-- SENSOR_MISMATCH_BEGIN (R471). -/
def execSensorMismatchBegin (s : State) : Host.Outcome State Fault Refusal := .next s.mismatchBegin

/-- SENSOR_MISMATCH_END (R471). -/
def execSensorMismatchEnd (s : State) : Host.Outcome State Fault Refusal := .next s.mismatchEnd

/-- WHEEL_SPEED_LOST (R471). -/
def execWheelSpeedLost (s : State) : Host.Outcome State Fault Refusal := .next s.wheelLost

/-- DISTANCE_INTERVAL (R466): DIST_INTERVAL has passed while the vehicle moves. -/
def execDistanceInterval (s : State) : Host.Outcome State Fault Refusal :=
  .next (if s.ledger.speed ≠ 0 then s.recordDistance else s)

/-- LEDGER_COMMIT_DUE (R459): 1 s has passed since the oldest uncommitted record. -/
def execLedgerCommitDue (s : State) : Host.Outcome State Fault Refusal :=
  .next (if s.ledger.journal.isEmpty then s else s.commitStart)

/-- FREEZE (R475): LEDG CMD with OP 1. -/
def execFreeze (s : State) : Host.Outcome State Fault Refusal := .next (s.issue pgLEDG ledgCmdOff .freeze State.startFreeze)

/-- THAW (R475): OP 2. -/
def execThaw (s : State) : Host.Outcome State Fault Refusal := .next (s.issue pgLEDG ledgCmdOff .thaw State.startThaw)

/-- LEDG_INPUT (R469): OP 3. -/
def execLedgInput (addr : Nat) (s : State) : Host.Outcome State Fault Refusal :=
  .next (s.issue pgLEDG ledgCmdOff (.ledgInput addr) (State.startLedgInput addr))

/-- READ_PAGE (R476): OP 4. -/
def execReadPage (addr : Nat) (s : State) : Host.Outcome State Fault Refusal :=
  .next (s.issue pgLEDG ledgCmdOff (.readPage addr) (State.startReadPage addr))

/-- EXPORT_CHALLENGE (R478): OP 5. -/
def execExportChallenge (s : State) : Host.Outcome State Fault Refusal :=
  .next (s.issue pgLEDG ledgCmdOff .exportChallenge State.startExportChallenge)

/-- EXPORT_ACK (R478): OP 6. -/
def execExportAck (addr : Nat) (s : State) : Host.Outcome State Fault Refusal :=
  .next (s.issue pgLEDG ledgCmdOff (.exportAck addr) (State.startExportAck addr))

/-- SET_ODOMETER (R466): OP 7. -/
def execSetOdometer (addr : Nat) (s : State) : Host.Outcome State Fault Refusal :=
  .next (s.issue pgLEDG ledgCmdOff (.setOdometer addr) (State.startSetOdometer addr))

/-- CHALLENGE_EXPIRY (R443, R478): 60 s after it was drawn, a time or an export challenge is discarded. -/
def execChallengeExpiry (ledger : Bool) (s : State) : Host.Outcome State Fault Refusal :=
  .next (if ledger then s.setExportChallenge none else s.setTimeChallenge none)

end Sys2Proof.Machine
end

