-- ==== Sys2Proof/Machine/Clove.lean ====
section
/-! DEFINITION. Clove and the tamper latch (chapter 16): filters, loops, rules, actions, log. -/

namespace Sys2Proof.Machine

/-- A debounced input takes a sample: it changes after `deb` consecutive samples at the new level, and starts from its first
sample (R489). -/
def Debounce.step (d : Debounce) (deb : Nat) (x : Bool) : Debounce :=
  if !d.started then ⟨x, 0, true⟩
  else if x = d.value then { d with run := 0 }
  else if deb ≤ d.run + 1 then ⟨x, 0, true⟩
  else { d with run := d.run + 1 }

/-- The IIR filter y ← y + ((x − y) >> SHIFT) with 8 fraction bits, starting from its first sample (R489). -/
def Iir.step (f : Iir) (shift x : Nat) : Iir :=
  if !f.started then ⟨x * 256, true⟩
  else
    let diff : Int := (x * 256 : Nat) - (f.y : Int)
    ⟨((f.y : Int) + diff / (2 ^ shift : Nat)).toNat, true⟩

/-- The next state of the loop's LFSR, x^16 + x^14 + x^13 + x^11 + 1; the bit shifted in is the one driven (R491). -/
def lfsrNext (r : BitVec 16) : BitVec 16 :=
  let b := (r.getLsbD 15 ^^ r.getLsbD 13) ^^ (r.getLsbD 12 ^^ r.getLsbD 10)
  (r <<< 1) ||| (if b then 1 else 0)

/-- A loop takes a sample (R491): `limit` consecutive mismatches set the channel, one match clears it. -/
def LoopSt.step (l : LoopSt) (limit : Nat) (sns : Bool) : LoopSt :=
  let r := lfsrNext l.lfsr
  if sns = r.getLsbD 0 then ⟨r, 0, false⟩
  else if limit ≤ l.run + 1 then ⟨r, min (l.run + 1) 15, true⟩
  else ⟨r, l.run + 1, l.fault⟩

/-- One term on one channel value: OP 0 EQ, 1 NE, 2 GE, 3 LT, unsigned (R492). -/
def termHolds (op x v : Nat) : Bool :=
  if op = 0 then x = v else if op = 1 then x ≠ v else if op = 2 then decide (v ≤ x) else decide (x < v)

namespace State

/-- The LFSRs of both tamper loops take their seeds (R491). -/
def loopsSeeded (s : State) (a b : BitVec 16) : State :=
  { s with clove := { s.clove with loopA := { s.clove.loopA with lfsr := a }, loopB := { s.clove.loopB with lfsr := b } } }

/-- The seeds in four bytes of the CTR_DRBG. -/
def loopsDrawn (s : State) (b : List Byte) : State :=
  s.loopsSeeded (BitVec.ofNat 16 (leNat (b.take 2))) (BitVec.ofNat 16 (leNat (b.drop 2)))

/-- The seeding at an entry to VIGIL (R491). -/
def seedLoops (s : State) : State := (s.spend 4).loopsDrawn (s.freeBytes 4)

/-- The seeding at an ATTACH (R491); where the CTR_DRBG serves nothing the loops keep their sequence (DESIGN CHOICE, log entry 26). -/
def seedLoopsAttach (s : State) : State :=
  if s.rngServes then
    let d := s.draw 4
    d.1.loopsDrawn d.2
  else s

/-- The seeding after an always-on reset, from the device serial and MRT (R491). -/
def seedLoopsCold (s : State) : State :=
  s.loopsSeeded (Config.loopSeed s.otp.serial s.time.mrt 0) (Config.loopSeed s.otp.serial s.time.mrt 1)

/-- Set the tamper latch (R499): CAUSE and RULE record the first setting, the count every one. -/
def setTamper (s : State) (cause rule : Nat) : State :=
  let s := if s.flag Reg.AON.TAMPER_LATCH then s
    else ((s.wr Reg.AON.TAMPER_LATCH 1).wr Reg.AON.TAMPER_CAUSE cause).wr Reg.AON.TAMPER_RULE rule
  let s := (s.bump Reg.AON.TAMPER_SET_COUNT).raise pgAON 8
  if s.up then s.wr Reg.KVT.STATUS_TAMPER_SEEN 1 else s

/-- Clove's log entry (R495). -/
def cloveEntry (mrt rule kind : Nat) (mainOn : Bool) (chan pulses : Nat) : List Byte :=
  leBytes 8 mrt ++ leBytes 1 rule ++ leBytes 1 kind ++ leBytes 1 (b2n mainOn) ++ leBytes 1 chan ++ leBytes 4 pulses

/-- Append to Clove's log, or drop the entry and count it where the ring is full (R496). -/
def cloveLog (s : State) (rule kind chan pulses : Nat) : State :=
  let h := s.rd Reg.CLOV.LOG_HEAD
  if (h + 1) % 256 = s.rd Reg.CLOV.LOG_TAIL then (s.bump Reg.CLOV.LOG_LOST).raise pgCLOV 9
  else
    let s := s.retStore (0x3000F000 + 16 * h) (cloveEntry s.time.mrt rule kind s.power.mainOn chan pulses)
    s.wr Reg.CLOV.LOG_HEAD ((h + 1) % 256)

/-- Clove runs (R488): EN is 1, the always-on domain is supplied, and the device is not in SHELF. -/
def cloveRuns (s : State) : Bool :=
  s.cfgb Reg.CLOV.CTRL_EN && s.power.aon ≠ .reset && s.mode.phase ≠ .shelf

/-- The main domain is requested in VIGIL (R35, R485, R494): PWR_EN rises, and the reset of the main domain follows. -/
def wakeMain (s : State) (rule : Nat) : State :=
  let s := { s with power := { s.power with mainOn := true, mainReset := true, nextCause := 2, wakePending := none },
                    mode := { s.mode with phase := .wake } }
  let s := ((s.wr Reg.AON.POWER_STATUS_PWR_EN 1).wr Reg.AON.POWER_STATUS_WAKE_RULE rule).raise pgAON 9
  s.holdAll 0

/-- A WAKE_MAIN action (R494): acted on in VIGIL with VDD_AON above VWARN, held during SEAL or below VWARN, else nothing. -/
def requestWake (s : State) (rule : Nat) : State :=
  if s.mode.phase = .vigil && s.power.aon = .ok then s.wakeMain rule
  else if s.mode.phase = .seal || s.mode.phase = .vigil then
    { s with power := { s.power with wakePending := some rule } }
  else s

/-- The value of a channel in Clove's snapshot (R487). -/
def channelValue (s : State) (chan dist : Nat) : Nat :=
  let c := s.clove
  if chan = 1 then b2n c.ign.value else if chan = 2 then b2n c.wakeA.value else if chan = 3 then b2n c.wakeB.value
  else if chan = 4 then b2n c.loopA.fault else if chan = 5 then b2n c.loopB.fault else if chan = 6 then b2n c.encl.value
  else if chan = 7 then dist else if chan = 8 then c.vbat.y / 256 else if chan = 9 then c.temp.y / 256
  else if chan = 10 then b2n c.mrtHit else s.rd Reg.AON.TAMPER_LATCH

/-- One term of a rule on the snapshot; channel NONE is always true (R487, R492). -/
def termOn (s : State) (dist : Nat) (chan op v : Nat) : Bool :=
  chan = 0 || termHolds op (s.channelValue chan dist) v

/-- The condition of rule `r`; a rule whose three terms name NONE is disabled (R492). -/
def ruleHolds (s : State) (dist r : Nat) : Bool :=
  let ca := s.cfg (Reg.CLOV.TERM_A_CHAN r)
  let cb := s.cfg (Reg.CLOV.TERM_B_CHAN r)
  let cc := s.cfg (Reg.CLOV.TERM_C_CHAN r)
  !(ca = 0 && cb = 0 && cc = 0)
  && s.termOn dist ca (s.cfg (Reg.CLOV.TERM_A_OP r)) (s.cfg (Reg.CLOV.TERM_A_VALUE r))
  && s.termOn dist cb (s.cfg (Reg.CLOV.TERM_B_OP r)) (s.cfg (Reg.CLOV.TERM_B_VALUE r))
  && s.termOn dist cc (s.cfg (Reg.CLOV.TERM_C_OP r)) (s.cfg (Reg.CLOV.TERM_C_VALUE r))

/-- Rule `r` fires: true, and LEVEL or false at the previous sample; a fresh rule's previous state equals its current one
(R493). -/
def ruleFires (s : State) (dist r : Nat) : Bool :=
  s.ruleHolds dist r &&
  (s.cfgb (Reg.CLOV.ACTION_LEVEL r) || (!s.clove.fresh.contains r && !Tbl.get false s.clove.prev r))

/-- The actions of a rule that fires, bits 0-4 of ACTIONS (R494). -/
def ruleActs (pulses : Nat) (s : State) (r : Nat) : State :=
  let a := s.cfg (Reg.CLOV.ACTION_ACTIONS r)
  let s := s.raise pgCLOV 8
  let s := if bit a 4 then s.setTamper 1 r else s
  let s := if bit a 0 then s.requestWake r else s
  let s := if bit a 1 then s.cloveLog r (s.cfg (Reg.CLOV.ACTION_KIND r)) (s.cfg (Reg.CLOV.TERM_A_CHAN r)) pulses else s
  let s := if bit a 2 then s.bump (Reg.CLOV.RULE_COUNT r) else s
  if bit a 3 then s.wr Reg.AON.POWER_STATUS_WAKE_OUT 1 else s

/-- The filters take one sample of the enabled channels (R488, R489, R491). -/
def cloveFilters (s : State) (i : CloveInputs) : State :=
  let c := s.clove
  let mrtCmp := s.cfg Reg.CLOV.MRT_CMP_LO + 2 ^ 32 * s.cfg Reg.CLOV.MRT_CMP_HI
  { s with clove := { c with
      ign := c.ign.step (s.cfg Reg.CLOV.INPUT_CFG_IGN_DEB) (i.ign != s.cfgb Reg.CLOV.INPUT_CFG_IGN_POL),
      wakeA := c.wakeA.step (s.cfg Reg.CLOV.INPUT_CFG_WAKE_DEB) (i.wakeA != s.cfgb Reg.CLOV.INPUT_CFG_WAKE_POL),
      wakeB := c.wakeB.step (s.cfg Reg.CLOV.INPUT_CFG_WAKE_DEB) (i.wakeB != s.cfgb Reg.CLOV.INPUT_CFG_WAKE_POL),
      encl := c.encl.step (s.cfg Reg.CLOV.INPUT_CFG_ENCL_DEB) (i.encl != s.cfgb Reg.CLOV.INPUT_CFG_ENCL_POL),
      loopA := if s.cfgb Reg.CLOV.LOOP_CFG_LOOP_A_EN then c.loopA.step (s.cfg Reg.CLOV.LOOP_CFG_FAULT_LIMIT) i.snsA
               else { c.loopA with run := 0, fault := false },
      loopB := if s.cfgb Reg.CLOV.LOOP_CFG_LOOP_B_EN then c.loopB.step (s.cfg Reg.CLOV.LOOP_CFG_FAULT_LIMIT) i.snsB
               else { c.loopB with run := 0, fault := false },
      vbat := if s.cfgb Reg.CLOV.ANALOG_CFG_VBAT_EN then c.vbat.step (s.cfg Reg.CLOV.ANALOG_CFG_VBAT_SHIFT) (i.vbat % 1024) else ⟨0, false⟩,
      temp := if s.cfgb Reg.CLOV.ANALOG_CFG_TEMP_EN then c.temp.step (s.cfg Reg.CLOV.ANALOG_CFG_TEMP_SHIFT) (i.temp % 1024) else ⟨0, false⟩,
      mrtHit := decide (mrtCmp ≤ s.time.mrt) } }

/-- VALUES_A and VALUES_B show the snapshot. -/
def showValues (s : State) (dist : Nat) : State :=
  let c := s.clove
  let fl := b2n c.ign.value + 2 * b2n c.wakeA.value + 4 * b2n c.wakeB.value + 8 * b2n c.loopA.fault
    + 16 * b2n c.loopB.fault + 32 * b2n c.encl.value + 64 * b2n c.mrtHit + 128 * s.rd Reg.AON.TAMPER_LATCH
  (((s.wr Reg.CLOV.VALUES_A_FLAGS fl).wr Reg.CLOV.VALUES_A_DIST dist).wr Reg.CLOV.VALUES_B_VBAT (c.vbat.y / 256)).wr
    Reg.CLOV.VALUES_B_TEMP (c.temp.y / 256)

/-- A Clove sample (R488): sample, filter, evaluate the rules on one snapshot, act in ascending order; a WAKE_MAIN request
that was held is acted on first. -/
def cloveSample (s : State) (i : CloveInputs) : State :=
  let s := match s.power.wakePending with
    | some r => if decide (s.mode.phase = Phase.vigil) && decide (s.power.aon = Level.ok) then s.wakeMain r else s
    | none => s
  let acc := s.rd Reg.CLOV.PULSE_ACCUM
  let start := s.clove.pulseAt
  let dist := min ((acc + 2 ^ 32 - start) % 2 ^ 32) 0xFFFF
  let s := (s.cloveFilters i).showValues dist
  let fired := (List.range 32).filter (s.ruleFires dist)
  let now := (List.range 32).map (fun r => (r, s.ruleHolds dist r))
  let s := { s with clove := { s.clove with
      pulseAt := acc, fresh := [],
      prev := now.foldl (fun (t : Tbl Bool) (e : Nat × Bool) => Tbl.put false t e.1 e.2) s.clove.prev } }
  fired.foldl (ruleActs start) s

/-- Both latches are cleared together (R500). -/
def clearTamper (s : State) : State :=
  (((s.wr Reg.AON.TAMPER_LATCH 0).wr Reg.AON.TAMPER_ENCL_LATCH 0).wr Reg.AON.TAMPER_CAUSE 0).wr Reg.AON.TAMPER_RULE 0xFF

/-- PROGRAM_FUSE, when it starts (R502); in Brace no blow starts, and the command waits (R506). -/
def startProgramFuse (s : State) : State :=
  if s.lc = lcISSUED || s.inService then
    (if s.brace then s.cmdStart pgPWR 0x60 .programFuse else { s with otp := { s.otp with lossTamper := true } })
  else s.refuse pgPWR Reason.NOT_IN_LIFECYCLE 0x60

/-- Brace exit: a PROGRAM_FUSE that waits goes on. -/
def fuseResume (s : State) : State :=
  match (s.cmdSlot pgPWR 0x60).running with
  | some _ => (s.cmdEnd pgPWR 0x60).startProgramFuse
  | none => s

/-- DISCARD, when it starts: refused while the LEDG page is enabled (R497). -/
def startDiscard (s : State) : State :=
  if s.enabled pgLEDG || s.active pgLEDG then s.refuse pgCLOV Reason.LEDG_ENABLED 0x78
  else s.wr Reg.CLOV.LOG_TAIL (s.rd Reg.CLOV.LOG_HEAD)

end State

/-- DIST_PULSE (R490): a rising edge whose phases last long enough counts, except in SHELF. -/
def execDistPulse (phaseNs : Nat) (s : State) : Host.Outcome State Fault Refusal :=
  .next (if s.power.aon ≠ .reset && s.mode.phase ≠ .shelf
      && (if s.cfgb Reg.CLOV.INPUT_CFG_DIST_FILT then decide (5000 ≤ phaseNs) else decide (50 ≤ phaseNs)) then
    s.wr Reg.CLOV.PULSE_ACCUM (s.rd Reg.CLOV.PULSE_ACCUM + 1) else s)

/-- CLOVE_SAMPLE (R488). -/
def execCloveSample (inp : CloveInputs) (s : State) : Host.Outcome State Fault Refusal :=
  .next (if s.cloveRuns then (s.cloveSample inp).ignitionCheck else s)

/-- The WAKE_OUT pulse expires (R494). -/
def execWakeOutEnd (s : State) : Host.Outcome State Fault Refusal := .next (s.wr Reg.AON.POWER_STATUS_WAKE_OUT 0)

/-- SET_TAMPER from firmware (R499): AON CMD. -/
def execAonSetTamper (s : State) : Host.Outcome State Fault Refusal :=
  .next (s.issue pgAON 0x48 .aonSetTamper (fun s => s.setTamper 4 0xFF))

/-- PROGRAM_FUSE (R502): PWR CMD. -/
def execProgramFuse (s : State) : Host.Outcome State Fault Refusal :=
  .next (s.issue pgPWR 0x60 .programFuse State.startProgramFuse)

/-- DISCARD (R497): CLOV CMD. -/
def execDiscard (s : State) : Host.Outcome State Fault Refusal :=
  .next (s.issue pgCLOV 0x78 .discard State.startDiscard)

end Sys2Proof.Machine
end

