-- ==== Sys2Proof/Machine/Cmp.lean ====
section
/-! DEFINITION. CMP (chapter 11): the ABC stream (R342), its faults (R550), the firmware commands, and the restore that shares it. -/

namespace Sys2Proof.Machine

/-! CMP block reasons. -/
def cmFORMAT : Nat := 0x40
def cmDISTANCE : Nat := 0x41
def cmOVERRUN : Nat := 0x42
def cmLENGTH : Nat := 0x43
def cmABORTED : Nat := 0x44

/-- What a stream gave: its output, and its first fault with the input offset. -/
structure AbcResult where
  out : List Byte
  fault : Option (Nat × Nat)
  deriving DecidableEq, Repr

/-- Copy `n` bytes from `d` bytes back, one at a time (R342). -/
def copyBack (d : Nat) : Nat → List Byte → List Byte
  | 0, out => out
  | n + 1, out => copyBack d n (out ++ [out.getD (out.length - d) 0])

/-- The tokens of a coded payload (R342): `len` is the block's output length, `off` the input offset of the next token and
`head` that of the block's header. -/
def abcTokens (len head : Nat) : Nat → List Byte → Nat → List Byte → AbcResult
  | 0, _, off, out => ⟨out, some (cmFORMAT, off)⟩
  | _ + 1, [], _, out => if out.length < len then ⟨out, some (cmLENGTH, head)⟩ else ⟨out, none⟩
  | fuel + 1, b :: bs, off, out =>
    if b.toNat < 128 then
      let n := b.toNat + 1
      if bs.length < n then ⟨out, some (cmFORMAT, off)⟩
      else if len < out.length + n then ⟨out, some (cmOVERRUN, off)⟩
      else abcTokens len head fuel (bs.drop n) (off + 1 + n) (out ++ bs.take n)
    else
      let c := bits b.toNat 6 4
      match bs with
      | [] => ⟨out, some (cmFORMAT, off)⟩
      | e :: r =>
        let d := b.toNat % 16 * 256 + e.toNat + 1
        if c = 7 && r.isEmpty then ⟨out, some (cmFORMAT, off)⟩
        else
          let n := if c = 7 then (r.headD 0).toNat + 10 else c + 3
          let r := if c = 7 then r.drop 1 else r
          if out.length < d then ⟨out, some (cmDISTANCE, off)⟩
          else if len < out.length + n then ⟨out, some (cmOVERRUN, off)⟩
          else abcTokens len head fuel r (off + (if c = 7 then 3 else 2)) (copyBack d n out)

/-- The blocks of a stream (R342, R550): `expect` is the expected output length where there is one, `short` the header offset of
a block that does not output 4,096 B, which only the end header may follow (log entry 23). -/
def abcBlocks (expect : Option Nat) : Nat → List Byte → Nat → Option Nat → List Byte → AbcResult
  | 0, _, off, _, out => ⟨out, some (cmFORMAT, off)⟩
  | fuel + 1, inp, off, short, out =>
    if inp.length < 4 then ⟨out, some (cmFORMAT, off)⟩
    else
      let h := leNat (inp.take 4)
      let rest := inp.drop 4
      let len := h % 8192 + 1
      let pay := h / 65536
      if h = 0 then
        (match expect with
         | some n => if out.length < n then ⟨out, some (cmLENGTH, off)⟩ else ⟨out, none⟩
         | none => ⟨out, none⟩)
      else if bit h 13 || bit h 14 || pay = 0 then ⟨out, some (cmFORMAT, off)⟩
      else match short with
        | some o => ⟨out, some (cmLENGTH, o)⟩
        | none =>
          if rest.length < pay then ⟨out, some (cmFORMAT, off)⟩
          else if !bit h 15 && pay ≠ len then ⟨out, some (cmFORMAT, off)⟩
          else
            let r := if bit h 15 then abcTokens len off (pay + 1) (rest.take pay) (off + 4) [] else ⟨rest.take pay, none⟩
            let beyond := match expect with | some n => decide (n < out.length + r.out.length) | none => false
            if beyond then ⟨out, some (cmOVERRUN, off)⟩
            else match r.fault with
              | some f => ⟨out ++ r.out, some f⟩
              | none => abcBlocks expect fuel (rest.drop pay) (off + 4 + pay) (if len ≠ 4096 then some off else none) (out ++ r.out)

/-- An ABC stream. -/
def abcDecode (expect : Option Nat) (inp : List Byte) : AbcResult := abcBlocks expect (inp.length + 1) inp 0 none []

namespace State

/-! Fields of the CMP descriptor. -/
def cdSrc (d : List Byte) : Nat := fieldLe d 0 4
def cdLen (d : List Byte) : Nat := fieldLe d 4 4
def cdKind (d : List Byte) : Nat := fieldLe d 8 1
def cdChan (d : List Byte) : Nat := fieldLe d 9 1
def cdDst (d : List Byte) : Nat := fieldLe d 0x0C 4
def cdOut (d : List Byte) : Nat := fieldLe d 0x10 4

/-- The descriptor's encodings and its ranges. -/
def cmpDescOk (s : State) (a : Nat) : Bool :=
  let d := s.sramBytes a 20
  inSram a 20 && decide (cdKind d < 2) && decide (cdChan d < 8) && fieldLe d 0x0A 2 = 0
  && decide (cdSrc d + cdLen d ≤ 2 ^ 32)
  && (if cdKind d = 0 then inSram (cdDst d) (cdOut d) else decide (cdDst d + cdOut d ≤ s.addrSpan (cdChan d)))

/-- RUN, when it starts; a restore that has CMP goes first. -/
def startCmp (addr : Nat) (s : State) : State :=
  if s.cmp.host.isSome then s.setCmdSlot pgCMP 0x44 { s.cmdSlot pgCMP 0x44 with queued := some (.cmpRun addr) }
  else if !s.cmpDescOk addr then s.refuse pgCMP Reason.FIELD_RANGE 0x44
  else
    let s := { s with cmp := { s.cmp with run := some (s.sramBytes addr 20) } }
    ((s.wr Reg.CMP.STATUS_BUSY 1).wr Reg.CMP.STATUS_DONE 0).cmdStart pgCMP 0x44 (.cmpRun addr)

/-- The stream has ended: DONE, a fault reported, CMP free for a restore. -/
def cmpIdle (s : State) (fault : Option (Nat × Option Nat)) : State :=
  let s := { s with cmp := { s.cmp with run := none } }
  let s := (((s.wr Reg.CMP.STATUS_BUSY 0).wr Reg.CMP.STATUS_DONE 1).raise pgCMP 8).cmdEnd pgCMP 0x44
  let s := match fault with
    | some (c, o) =>
      let s := (s.refuse pgCMP c 0x44).raise pgCMP 9
      (match o with | some o => s.wr Reg.CMP.ERR_OFFSET o | none => s)
    | none => s
  s.pumpCmp

/-- A channel takes programmed output (R350, R550): initialised, and its host held off. -/
def cmpChanOk (s : State) (c : Nat) : Bool :=
  s.flag (Reg.FCH.STATUS_INIT_DONE c) && (decide (6 ≤ c) || !(s.released c && s.sharing c = 0))

/-- A firmware stream ends (R550). -/
def cmpFinish (s : State) (d : List Byte) : State :=
  if !s.flag (Reg.FCH.STATUS_INIT_DONE 7) then (s.wr Reg.CMP.OUT_COUNT 0).cmpIdle (some (cmFORMAT, some 0))
  else
    let r := abcDecode (some (cdOut d)) (s.flashBytes 7 0 (cdSrc d) (cdLen d))
    if cdKind d = 1 && !s.cmpChanOk (cdChan d) then (s.wr Reg.CMP.OUT_COUNT 0).cmpIdle (some (cmABORTED, some 0))
    else
      let s := if cdKind d = 0 then s.sramStore (cdDst d) r.out else s.flashProgram (cdChan d) 0 (cdDst d) r.out
      (s.wr Reg.CMP.OUT_COUNT r.out.length).cmpIdle (r.fault.map (fun f => (f.1, some f.2)))

/-- The stream of a restore ends (R341 step 3): its output is programmed, or the restore fails; the page shows its end and its
fault as it does firmware's (R550). -/
def cmpRestore (s : State) (n : Nat) : State :=
  let s := { s with cmp := { s.cmp with host := none } }
  let s := ((s.wr Reg.CMP.STATUS_BUSY 0).wr Reg.CMP.STATUS_DONE 1).raise pgCMP 8
  match (s.host n).restore with
  | some t =>
    let r := abcDecode none t.golden
    let s := s.wr Reg.CMP.OUT_COUNT r.out.length
    let s := match r.fault with
      | some f => ((s.refuse pgCMP f.1 0x44).raise pgCMP 9).wr Reg.CMP.ERR_OFFSET f.2
      | none => s
    if r.fault.isSome || s.slotSize n < r.out.length || r.out.isEmpty then (s.restoreFail n).pumpCmp
    else ((s.setRestore n { t with step := 3, done := 0, output := r.out, golden := [] }).enqueue (chanRes n) ⟨.restore, 5, 5, n, 0, 0, 0, []⟩).pumpCmp
  | none => s.pumpCmp

/-- CMP_DONE; Brace stops the engine. -/
def cmpDone (s : State) : State :=
  if s.brace then s
  else match s.cmp.run, s.cmp.host with
    | some d, _ => s.cmpFinish d
    | none, some n => s.cmpRestore n
    | none, none => s

end State

/-- CMP_RUN (R550): CMP CMD with OP 1. -/
def execCmpRun (addr : Nat) (s : State) : Host.Outcome State Fault Refusal :=
  .next (s.issue pgCMP 0x44 (.cmpRun addr) (State.startCmp addr))

/-- CMP_ABORT (R550): OP 2, never queued; the running stream ends ABORTED. -/
def execCmpAbort (s : State) : Host.Outcome State Fault Refusal :=
  .next (if !s.up then s
    else (if s.cmp.run.isSome then s.cmpIdle (some (cmABORTED, none)) else s).cmdDrop pgCMP 0x44)

/-- CMP_DONE (R342). -/
def execCmpDone (s : State) : Host.Outcome State Fault Refusal := .next s.cmpDone

end Sys2Proof.Machine
end

