-- ==== Sys2Proof/Machine/Handshake.lean ====
section
/-! DEFINITION. What arrives in sessions (R387-R388, R409-R424): the handshake, frames, reassembly, and messages by type. -/

namespace Sys2Proof.Machine

/-! A HELLO or HELLO_REPLY (R412). -/
def heSuite (m : List Byte) : Nat := fieldLe m 6 1
def heSid (m : List Byte) : Nat := fieldLe m 8 2
def heEph (m : List Byte) : List Byte := slice m 0x30 97
def heKeys (m : List Byte) : List Byte := slice m 0x91 (State.suiteKeys (heSuite m))
def heBodyLen (m : List Byte) : Nat := 0x91 + State.suiteKeys (heSuite m)

/-- Magic, version, role, suite, session ID, reserved fields and length. -/
def helloFormatOk (m : List Byte) (role sid : Nat) : Bool :=
  m.take 4 = asciiBytes "SYHL" && fieldLe m 4 2 = 1 && (heSuite m = 1 || heSuite m = 2) && fieldLe m 7 1 = role && heSid m = sid
  && allZero (slice m 10 6) && m.length = heBodyLen m + State.suiteSigs (heSuite m)

namespace State

/-- The IDENTITY entry of a handshake message in the index (R429): its digest, and a HYBRID flag that agrees with the suite (R413). -/
def identityOf (s : State) (m : List Byte) : Option (List Byte) :=
  let d := digestBytes (Config.sha384 (heKeys m))
  s.stx.index.find? (fun e => reDigest e = d && (reHybrid e == decide (heSuite m = 2)))

/-- The device takes handshakes (R413); one needs fresh randomness. -/
def stxReady (s : State) : Bool :=
  s.active pgSTX && s.flag Reg.ATT.STATUS_IDENTITY_READY && s.flag Reg.ATT.STATUS_RMT_LOCKED && !s.mode.sealPending && !s.rngFailed

/-- The first failing condition of R413 but for the signatures; `needReg` asks for a free ephemeral key register. -/
def helloEarly (s : State) (m : List Byte) (role sid : Nat) (needReg : Bool) : Option Nat :=
  if !s.stxReady then some sxNOT_READY
  else if !helloFormatOk m role sid then some sxSUITE
  else if (s.identityOf m).isNone then some sxUNKNOWN_IDENTITY
  else if needReg && s.freeEph.isNone then some sxHANDSHAKE_BUSY
  else none

/-- The first failing condition of R413 for a message whose signatures cover `pre` and the bytes before them. -/
def helloFault (s : State) (m : List Byte) (role sid : Nat) (pre : List Byte) (needReg : Bool) : Option Nat :=
  let msg := pre ++ m.take (heBodyLen m)
  match s.helloEarly m role sid needReg with
  | some c => some c
  | none =>
    if !suiteSigsOk (heSuite m) (heKeys m) msg (m.drop (heBodyLen m)) || !Config.ecdhPointOk (heEph m) then some sxHANDSHAKE_SIGNATURE
    else none

/-- GENKEY (ephemeral) into a register (R415). -/
def ephemeral (s : State) (r : Nat) : State :=
  let d := s.draw 48
  d.1.setKeyReg r ⟨2, seedFrom 2 d.2, true, none, 0, none⟩

/-- A handshake message of the device, signed with the Alias keys (R412), or the PKE's reason where a signature is not released. -/
def ownHello (s : State) (suite role sid eph : Nat) (pre : List Byte) : State × Except Nat (List Byte) :=
  let d := s.draw 32
  let s := d.1
  let body := asciiBytes "SYHL" ++ leBytes 2 1 ++ leBytes 1 suite ++ leBytes 1 role ++ leBytes 2 sid ++ List.replicate 6 0 ++ d.2
    ++ s.regPub eph ++ s.regPub 2 ++ (if suite = 2 then s.regPub 3 else [])
  let g := s.signBoth 2 (decide (suite = 2)) (pre ++ body)
  match g.2 with
  | .error c => (g.1, .error c)
  | .ok sigs => (g.1, .ok (body ++ sigs))

/-- Something that needs an engine waits (R255, R425, R438, R506). -/
def hold (s : State) (h : Held) : State := { s with stx := { s.stx with held := s.stx.held ++ [h] } }

/-- A handshake message waits for the PKE as a K3 request, or for the CTR_DRBG to be instantiated. -/
def holdPke (s : State) (h : Held) : State :=
  let s := s.hold h
  if s.pkeFree 3 then s else s.awaitPke .held 3 fwIssuer

/-- The PKE and the CTR_DRBG can take a handshake message now. -/
def handshakeGoes (s : State) : Bool := s.pkeFree 3 && s.rngServes

/-- A partner's HELLO (R410, R413): answered with a CLOSE, or it takes the lowest IDLE context and a HELLO_REPLY goes out; the key
schedule is a K3 request (R415, R425).  Where the device's own signature is not released the handshake fails on it (DESIGN CHOICE; log
entry 143). -/
def helloIn (s : State) (medium peer sid seq : Nat) (m : List Byte) : State :=
  match s.idleCtx with
  | none => s.refuseHello medium peer sid sxNO_CONTEXT
  | some i =>
    if (s.helloEarly m 0 0 true).isNone && !s.handshakeGoes then s.holdPke (.hello ⟨medium, peer, sid, seq, true, m⟩)
    else match s.helloFault m 0 0 [] true, s.freeEph, s.identityOf m with
    | none, some r, some e =>
      let s := s.ephemeral r
      let c : Sess := { Sess.idle with state := ssHELLO, medium := medium, peer := peer, partner := rePartner e, component := reComponent e, suite := heSuite m, hello := m, idDigest := Config.sha384 (heKeys m), rxHigh := seq, seen := (List.range (min seq 63)).map (fun i => seq - i), next := seq + 1, ephReg := some r }
      let s := s.setSess i c
      let o := s.ownHello (heSuite m) 1 i r (digestBytes (Config.sha384 m))
      match o.2 with
      | .error _ => (o.1.toIdle i sxHANDSHAKE_SIGNATURE).refuseHello medium peer sid sxHANDSHAKE_SIGNATURE
      | .ok reply =>
        let s := (o.1.setSess i { c with reply := reply }).sendMsg i ftHELLO_REPLY reply
        s.enqueuePke ⟨.session, 3, 3, sessIssuer i, 0, 0, 0, []⟩
    | some code, _, _ =>
      let s := if code = sxHANDSHAKE_BUSY then s.bump Reg.STX.HELLO_BUSY else s
      s.refuseHello medium peer sid code
    | none, _, _ => s.refuseHello medium peer sid sxHANDSHAKE_BUSY

/-- The HELLO_REPLY of a session that the device opened (R413). -/
def replyIn (s : State) (sid : Nat) (m : List Byte) : State :=
  let c := s.sess sid
  if (s.helloEarly m 1 sid false).isNone && !s.handshakeGoes then s.holdPke (.reply sid m)
  else match s.helloFault m 1 sid (digestBytes (Config.sha384 c.hello)) false, s.identityOf m with
  | none, some e =>
    let s := s.setSess sid { c with reply := m, partner := rePartner e, component := reComponent e, idDigest := Config.sha384 (heKeys m) }
    s.enqueuePke ⟨.session, 3, 3, sessIssuer sid, 0, 0, 0, []⟩
  | f, _ =>
    let code := f.getD sxUNKNOWN_IDENTITY
    (s.refuseHello c.medium c.peer sid code).toIdle sid code

/-- The key material of a handshake (R414). -/
def keyMaterial (z t : List Byte) : List Byte :=
  digestBytes (Config.sha384 (beBytes 4 1 ++ z ++ t)) ++ digestBytes (Config.sha384 (beBytes 4 2 ++ z ++ t))

/-- The key schedule ends (R414, R415): wrapped keys and salts in the context, the register cleared, KEYED; the initiator confirms first
(R418). -/
def keysDone (s : State) (sid : Nat) : State :=
  let c := s.sess sid
  let s := ((s.setSched 2 { s.sched 2 with running := none }).dgeBorrow sid).sessEngine.pumpPke
  match c.ephReg with
  | none => s
  | some r =>
    let k := s.keyReg r
    let peer := heEph (if c.initiator then c.reply else c.hello)
    let z := Config.ecdhSecret k.seed peer
    let t := Config.sha384 (c.hello ++ c.reply)
    let km := keyMaterial (digestBytes z) (digestBytes t)
    let tx := if c.initiator then slice km 0 32 else slice km 32 32
    let rx := if c.initiator then slice km 32 32 else slice km 0 32
    let s := s.setKeyReg r KeyReg.empty
    if z = 0 then s.toIdle sid sxHANDSHAKE_SIGNATURE
    else if !s.kekOk (s.cfg Reg.STX.SESSION_KEK) then s.toIdle sid sxKEY_LOST
    else
      let kek := s.sessKek
      let s := s.setSess sid { c with state := ssKEYED, ephReg := none, transcript := t, blobTx := kwWrap kek (blobPlain atENC 1 tx), blobRx := kwWrap kek (blobPlain atDEC 1 rx), saltTx := if c.initiator then slice km 64 8 else slice km 72 8, saltRx := if c.initiator then slice km 72 8 else slice km 64 8 }
      if c.initiator then s.sendMsg sid ftKEY_CONFIRM (digestBytes t) else s

/-- HANDSHAKE_KEYS_DONE is due: the session's request is in service, a DGE and an AES engine can be taken for the last steps of R415, not in
Brace (R370, R425). -/
def keysDue (s : State) (sid : Nat) : Bool :=
  s.dgeFree && s.sessAes && (match (s.sched 2).running with | some r => r.kind = .session && r.issuer = sessIssuer sid | none => false)

/-- A KEY_CONFIRM (R418). -/
def confirmIn (s : State) (sid : Nat) (m : List Byte) : State :=
  let c := s.sess sid
  if m ≠ digestBytes c.transcript then s.toIdle sid sxCONFIRM_FAIL
  else
    let s := (s.setSess sid { c with state := ssACTIVE }).raise pgSTX 8
    if c.initiator then s else s.sendMsg sid ftKEY_CONFIRM m

/-- A tag that does not verify (R418, R420). -/
def authFail (s : State) (sid type : Nat) : State :=
  let c := s.sess sid
  let s := (s.bump Reg.STX.AUTH_FAIL_COUNT).raise pgSTX 11
  let s := s.setSess sid { c with authFails := c.authFails + 1 }
  if c.state = ssKEYED && type = ftKEY_CONFIRM then s.toIdle sid sxCONFIRM_FAIL
  else if s.cfg Reg.STX.AUTH_FAIL_LIMIT ≤ c.authFails + 1 then s.toIdle sid sxAUTH_FAIL
  else s

/-- A whole message of a session, authenticated from KEYED on, by state and type (R409, R422). -/
def stxMessage (s : State) (sid type : Nat) (m : List Byte) : State :=
  let c := s.sess sid
  if c.state = ssIDLE then s.dropFrame
  else if type = ftCLOSE then (if m.length = 2 then s.peerClose sid m else s.dropFrame)
  else if c.state = ssHELLO then
    (if type = ftHELLO_REPLY && c.initiator && c.reply.isEmpty then s.replyIn sid m else s.dropFrame)
  else if c.state = ssKEYED then (if type = ftKEY_CONFIRM then s.confirmIn sid m else s.dropFrame)
  else if c.state = ssACTIVE && 0x10 ≤ type then (if type = ftQUOTE then s.attQuote sid m else s.toFw sid type m)
  else s.dropFrame

/-! ### Reassembly (R386, R388, R421) -/

/-- The frames from `next` on, in order, up to the end of a message; none while one is missing. -/
def runFrom (ps : List Part) : Nat → Nat → Option (List Part)
  | 0, _ => none
  | k + 1, q =>
    match ps.find? (fun p => p.seq = q) with
    | none => none
    | some p => if p.more then (runFrom ps k (q + 1)).map (fun r => p :: r) else some [p]

/-- The first sequence number from `next` on that has not come. -/
def firstGap (ps : List Part) : Nat → Nat → Nat
  | 0, q => q
  | k + 1, q => if ps.any (fun p => p.seq = q) then firstGap ps k (q + 1) else q

/-- A frame that can no longer come (R388) takes its message with it. -/
def skipLost (c : Sess) : Sess :=
  let g := firstGap c.parts c.parts.length c.next
  if g + 63 < c.rxHigh then
    let next := match ((c.parts.filter (fun p => decide (g < p.seq) && !p.more)).map (fun p => p.seq)).min? with
      | some e => e + 1
      | none => c.rxHigh + 1
    { c with next := next, parts := c.parts.filter (fun p => decide (next ≤ p.seq)) }
  else c

/-- Whole messages are delivered in order; one of which a part was dropped is abandoned. -/
def deliver (sid : Nat) : Nat → State → State
  | 0, s => s
  | k + 1, s =>
    let c := s.sess sid
    match runFrom c.parts c.parts.length c.next with
    | none => s
    | some ps =>
      let next := c.next + ps.length
      let rest := c.parts.filter (fun p => decide (next ≤ p.seq))
      let s := s.setSess sid { c with next := next, parts := rest, buf := if rest.isEmpty then none else c.buf }
      let type := (ps.head?.map (fun p => p.type)).getD 0
      let m := ps.flatMap (fun p => p.body.getD [])
      let s := if ps.any (fun p => p.body.isNone) then s
        else if ps.any (fun p => p.type ≠ type) || 16384 < m.length then s.dropFrame
        else s.stxMessage sid type m
      deliver sid k s

/-- A frame's content takes its place (R421): a message under way needs a buffer. -/
def rxBody (s : State) (sid type seq : Nat) (more : Bool) (body : Option (List Byte)) : State :=
  let c := s.sess sid
  if c.state = ssIDLE then s
  else
    let ps := c.parts ++ [(⟨seq, type, more, body⟩ : Part)]
    let whole := (runFrom ps ps.length c.next).isSome
    let place (b : Nat) : State := s.bufStore b (seq - c.next) (if ssKEYED ≤ c.state then 1952 else 1968) (body.getD [])
    if whole || c.buf.isSome || body.isNone then
      let t := match c.buf with | some b => place b | none => s
      deliver sid (ps.length + 1) (t.setSess sid (skipLost { c with parts := ps }))
    else match s.freeBuf with
      | some b => deliver sid (ps.length + 1) ((place b).setSess sid (skipLost { c with parts := ps, buf := some b }))
      | none =>
        deliver sid (ps.length + 1) ((s.bump Reg.STX.BUF_FULL).setSess sid
          (skipLost { c with parts := c.parts ++ [(⟨seq, type, more, none⟩ : Part)] }))

/-- The plaintext of a protected frame (R416). -/
def openPart (s : State) (c : Sess) (head payload : List Byte) (seq : Nat) : Option (List Byte) :=
  let key := s.sessKey c.blobRx
  let iv := c.saltRx ++ leBytes 4 seq
  let ct := payload.take (payload.length - 16)
  if payload.length < 16 || digestBytes (Config.gcmTag key iv head ct) ≠ payload.drop (payload.length - 16) then none
  else some (aesOut 3 true key iv ct)

/-- A sequence number has come (R388). -/
def noteSeq (c : Sess) (seq : Nat) : Sess :=
  let high := max c.rxHigh seq
  { c with rxHigh := high, seen := (seq :: c.seen).filter (fun q => decide (high ≤ q + 63)) }

/-- A frame of a session: a duplicate, or one more than 63 below the highest, is discarded (R388); from KEYED on it is opened (R416,
R420), and an unprotected CLOSE is dropped (R423). -/
def rxPart (s : State) (sid type seq : Nat) (more : Bool) (head payload : List Byte) : State :=
  let c := s.sess sid
  if c.seen.contains seq || seq + 63 < c.rxHigh then s
  else if ssKEYED ≤ c.state then
    if type = ftCLOSE && payload.length = 2 then s.dropFrame
    else
      let s := s.sessEngine.setSess sid (noteSeq c seq)
      match s.openPart c head payload seq with
      | some b => s.rxBody sid type seq more (some b)
      | none => (s.authFail sid type).rxBody sid type seq more none
  else (s.setSess sid (noteSeq c seq)).rxBody sid type seq more (some payload)

/-- A frame of a HELLO (R410): one that a context already holds is a duplicate; the message is judged once it is whole. -/
def rxHello (s : State) (medium peer sid seq : Nat) (more : Bool) (payload : List Byte) : State :=
  let held := s.sessIds.any (fun i =>
    let c := s.sess i
    c.state ≠ ssIDLE && !c.initiator && c.medium = medium && c.peer = peer && slice c.hello ((seq - 1) * 1968) payload.length = payload)
  let mine (p : Prelim) : Bool := p.medium = medium && p.peer = peer
  let at_ := s.stx.prelim.find? mine
  let old := (at_.map (fun p => p.parts)).getD []
  if held || seq = 0 then s
  else
    let ps := old.filter (fun p => p.seq ≠ seq) ++ [(⟨seq, ftHELLO, more, some payload⟩ : Part)]
    match runFrom ps ps.length 1 with
    | some run =>
      let s := { s with stx := { s.stx with prelim := s.stx.prelim.filter (fun p => !mine p) } }
      s.helloIn medium peer sid run.length (run.flatMap (fun p => p.body.getD []))
    | none =>
      match at_.map (fun p => p.buf) <|> s.freeBuf with
      | some b =>
        let s := s.bufStore b (seq - 1) 1968 payload
        { s with stx := { s.stx with prelim := s.stx.prelim.filter (fun p => !mine p) ++ [⟨medium, peer, ps, b⟩] } }
      | none => s.bump Reg.STX.BUF_FULL

/-- A message for a session in state `st` needs an engine that it cannot have now: every one from KEYED on is opened (R416), and a
HELLO_REPLY is verified, which is not begun in Brace (R255). -/
def needsEngine (s : State) (st type : Nat) : Bool := (decide (ssKEYED ≤ st) && !s.sessAes) || (decide (type = ftHELLO_REPLY) && s.brace)

/-- A frame that has been acknowledged, but for a LINK_ACK (R411); one that needs an engine that it cannot have waits. -/
def takeFrame (s : State) (medium peer : Nat) (f : List Byte) : State :=
  let type := fieldLe f 1 1
  let w := fieldLe f 2 2
  let sid := w % 4096
  let more := bit w 12
  let seq := fieldLe f 4 4
  let n := fieldLe f 8 2
  let c := s.sess sid
  if type = ftHELLO then
    (if s.brace then s.hold (.frame medium peer f) else s.rxHello medium peer sid seq more (slice f 16 n))
  else if c.state = ssIDLE || c.medium ≠ medium || c.peer ≠ peer then s.dropFrame
  else if s.needsEngine c.state type then s.hold (.frame medium peer f)
  else s.rxPart sid type seq more (f.take 16) (slice f 16 n)

/-- An STX frame arrives (R385, R387, R388, R411). -/
def stxFrame (s : State) (medium peer : Nat) (f : List Byte) : State :=
  let type := fieldLe f 1 1
  let w := fieldLe f 2 2
  let sid := w % 4096
  let seq := fieldLe f 4 4
  let n := fieldLe f 8 2
  if !s.up || !s.active pgSTX then s
  else if f.length < 16 + n || fieldLe f 0 1 ≠ 1 || !frameType type || 8192 ≤ w || 1968 < n || !allZero (slice f 10 6) then s.dropFrame
  else if type = ftLINK_ACK then s.linkAck medium peer sid seq
  else (s.sendAck medium peer sid seq []).takeFrame medium peer f

/-! ### OPEN -/

/-- The medium of a session the device opens (R411): on Ethernet the carrying lane with fewer sessions, NET0 on a tie. -/
def openMedium (s : State) (m : Nat) : Nat :=
  if 2 ≤ m then m
  else
    let n (l : Nat) : Nat := (s.sessIds.filter (fun i => (s.sess i).state ≠ ssIDLE && (s.sess i).medium = l)).length
    match s.carriers with
    | [l] => l
    | [a, b] => if n b < n a then b else a
    | _ => m

/-- OPEN, when it starts (R409): a HELLO from the lowest IDLE context; it waits for the PKE as a K3 request, in Brace too. -/
def startStxOpen (addr : Nat) (s : State) : State :=
  let m := s.sramLe addr 1
  let su := s.sramLe (addr + 1) 1
  let pb := s.sramBytes (addr + 4) 8
  if !inSram addr 12 || 4 < m || (su ≠ 1 && su ≠ 2) || s.sramLe (addr + 2) 2 ≠ 0 then s.stxResult 0 Reason.FIELD_RANGE
  else if !s.stxReady then s.stxResult 0 sxNOT_READY
  else match s.idleCtx, s.freeEph with
    | some i, some r =>
      if !s.pkeFree 3 then (s.cmdStart pgSTX 0x50 (.stxOpen addr)).awaitPke .stx 3 fwIssuer
      else if !s.rngServes then s.stxWait (.stxOpen addr)
      else
        let peer := if m < 2 then beNat (pb.take 6) else if m < 4 then fieldLe pb 0 1 else 0
        let s := s.ephemeral r
        let c : Sess := { Sess.idle with state := ssHELLO, medium := s.openMedium m, peer := peer, suite := su, initiator := true, ephReg := some r }
        let s := s.setSess i c
        let o := s.ownHello su 0 i r []
        match o.2 with
        | .error _ => (o.1.toIdle i sxHANDSHAKE_SIGNATURE).stxResult i sxHANDSHAKE_SIGNATURE
        | .ok m => ((o.1.setSess i { c with hello := m }).sendMsg i ftHELLO m).stxResult i 0
    | none, _ => s.stxResult 0 sxNO_CONTEXT
    | _, none => s.stxResult 0 sxHANDSHAKE_BUSY

/-- The PKE is free for the OPEN that waited. -/
def stxGranted (s : State) : State :=
  match (s.cmdSlot pgSTX 0x50).running with
  | some (.stxOpen a) => startStxOpen a (s.cmdEnd pgSTX 0x50)
  | _ => s

/-! ### Whole messages, as the link delivers them -/

/-- A message of a session: on another medium or from another peer it is dropped and counted, a duplicate is discarded, one that does
not verify counts against the session. -/
def wholeMessage (s : State) (m : StxMessage) (type : Nat) : State :=
  let c := s.sess m.session
  if !s.up || !s.active pgSTX then s
  else if c.state = ssIDLE || c.medium ≠ m.medium || c.peer ≠ m.peer then s.dropFrame
  else if c.seen.contains m.seq || m.seq + 63 < c.rxHigh then s
  else if s.needsEngine c.state type then s.hold (.whole m type)
  else if ssKEYED ≤ c.state && !m.auth then
    if type = ftCLOSE then s.dropFrame else (s.setSess m.session (noteSeq c m.seq)).authFail m.session type
  else (s.setSess m.session { noteSeq c m.seq with next := m.seq + 1 }).stxMessage m.session type m.payload

/-- A HELLO that came whole (R413). -/
def wholeHello (s : State) (m : StxMessage) : State :=
  if !s.up || !s.active pgSTX then s
  else if s.brace then s.hold (.hello m)
  else s.helloIn m.medium m.peer m.session m.seq m.payload

/-- What waited for an engine or for Brace exit goes on, in order. -/
def releaseOne (s : State) : Held → State
  | .frame medium peer f => s.takeFrame medium peer f
  | .hello m => s.wholeHello m
  | .whole m type => s.wholeMessage m type
  | .reply sid m => if (s.sess sid).state = ssHELLO && (s.sess sid).initiator && (s.sess sid).reply.isEmpty then s.replyIn sid m else s
def releaseHeld (s : State) : State := s.stx.held.foldl releaseOne { s with stx := { s.stx with held := [] } }

end State

/-- STX_OPEN (R409): STX CMD with OP 1. -/
def execStxOpen (addr : Nat) (s : State) : Host.Outcome State Fault Refusal :=
  .next (s.issue pgSTX 0x50 (.stxOpen addr) (State.startStxOpen addr))

/-- HELLO (R413). -/
def execHello (m : StxMessage) (s : State) : Host.Outcome State Fault Refusal :=
  .next (s.wholeHello m)

end Sys2Proof.Machine
end

