-- ==== Sys2Proof/Machine/Mailbox.lean ====
section
/-! DEFINITION. The management port's own side (R397-R400, R406): the mailbox, its framing, the status byte, the opcodes that are
served in the MGP SCK domain, and firmware's FETCH, REPLY and DOORBELL. -/

namespace Sys2Proof.Machine

/-! MGP block reasons. -/
def mgBUSY : Nat := 0x40
def mgFRAME_FORMAT : Nat := 0x41
def mgFRAME_CRC : Nat := 0x42
def mgNOT_LEASED : Nat := 0x43
def mgNOT_READY : Nat := 0x44
def mgVIEW_DENIED : Nat := 0x45

/-- Offset of MGP CMD. -/
def mgpCmdOff : Nat := 0x4C

/-- A response status: a reason on the MGP page (R400, R402). -/
def mgStatus (reason : Nat) : Nat := pgMGP * 256 + reason

/-- A framed message (R400): header with its CRC-32C, then the payload. -/
def mboxFrame (code flags status tag off : Nat) (payload : List Byte) : List Byte :=
  let head := leBytes 1 code ++ leBytes 1 flags ++ leBytes 2 payload.length ++ leBytes 2 status ++ leBytes 2 tag ++ leBytes 4 off
  head ++ leBytes 4 (crc32c (head ++ payload)) ++ payload

namespace State

/-- The port works: the main domain is out of reset and VDDIO_GEN is supplied (R482, R512). -/
def mgpUp (s : State) : Bool := s.up && s.power.ioGen

/-- The device owns the mailbox (R398). -/
def mgpOwns (s : State) : Bool := s.flag Reg.MGP.STATUS_OWNER

/-- Bytes of the mailbox. -/
def mboxBytes (s : State) (off n : Nat) : List Byte := Mem.bytes 0 s.mgp.mbox off n

/-- Write bytes into the mailbox. -/
def mboxStore (s : State) (off : Nat) (bs : List Byte) : State :=
  { s with mgp := { s.mgp with mbox := Mem.store 0 s.mgp.mbox off bs } }

/-- The ERR bit is set (R398). -/
def mgpErr (s : State) : State := { s with mgp := { s.mgp with err := true } }

/-- What the host clocks out of the port. -/
def mgpOut (s : State) (bs : List Byte) : State := { s with mgp := { s.mgp with out := bs } }

/-- A host write to the mailbox (R397-R399): discarded with ERR while the device owns it; bytes past 0xFFF set ERR. -/
def mgpWrite (s : State) (off : Nat) (data : List Byte) : State :=
  if s.mgpOwns then s.mgpErr
  else
    let s := if off < 4096 then (let s := s.mboxStore off (data.take (4096 - off)); { s with mgp := { s.mgp with response := false } }) else s
    if 4096 < off + data.length then s.mgpErr else s

/-- Fields of the message in the mailbox. -/
def mbCode (s : State) : Nat := Mem.le 0 s.mgp.mbox 0 1
def mbFlags (s : State) : Nat := Mem.le 0 s.mgp.mbox 1 1
def mbLen (s : State) : Nat := Mem.le 0 s.mgp.mbox 2 2
def mbStatus (s : State) : Nat := Mem.le 0 s.mgp.mbox 4 2
def mbTag (s : State) : Nat := Mem.le 0 s.mgp.mbox 6 2
def mbOff (s : State) : Nat := Mem.le 0 s.mgp.mbox 8 4
def mbPayload (s : State) : List Byte := s.mboxBytes 16 s.mbLen

/-- The header and CRC checks of R400: the reason of the first that fails. -/
def mbFault (s : State) : Option Nat :=
  if 4080 < s.mbLen || 1 < s.mbFlags || s.mbStatus ≠ 0 then some mgFRAME_FORMAT
  else if Mem.le 0 s.mgp.mbox 12 4 ≠ crc32c (s.mboxBytes 0 12 ++ s.mbPayload) then some mgFRAME_CRC
  else none

/-- The device writes a response and returns the mailbox (R399, R400). -/
def mgpRespond (s : State) (status : Nat) (payload : List Byte) : State :=
  let s := s.mboxStore 0 (mboxFrame s.mgp.code 2 status s.mgp.tag 0 payload)
  ({ s with mgp := { s.mgp with response := true } }).wr Reg.MGP.STATUS_OWNER 0

/-- A response without payload that names a reason of the MGP page. -/
def mgpReject (s : State) (reason : Nat) : State := s.mgpRespond (mgStatus reason) []

/-- The status byte (R398). -/
def statusByte (s : State) : Nat :=
  b2n s.mgpOwns + 2 * b2n s.mgp.response + 4 * b2n s.mgp.rdReady + 8 * b2n s.mgp.rdErr + 16 * b2n s.mgp.err
  + 32 * s.rd Reg.MGP.STATUS_RESET_SEEN + 64 * s.rd Reg.MGP.STATUS_INT_PENDING

/-- Record a refusal of MGP CMD. -/
def mgpRefuse (s : State) (code : Nat) : State := s.refuse pgMGP code mgpCmdOff

/-- FETCH, when it starts (R401): the submitted message goes to SRAM. -/
def startFetch (addr : Nat) (s : State) : State :=
  if !s.flag Reg.MGP.STATUS_SUBMITTED then s.mgpRefuse mgBUSY
  else if !inSram addr (16 + s.mbLen) then s.mgpRefuse Reason.FIELD_RANGE
  else (s.sramStore addr (s.mboxBytes 0 (16 + s.mbLen))).wr Reg.MGP.STATUS_SUBMITTED 0

/-- REPLY, when it starts (R400, R401): a message in SRAM becomes the response; the device fills in code, tag and CRC. -/
def startReply (addr : Nat) (s : State) : State :=
  let len := s.sramLe (addr + 2) 2
  if !s.mgpOwns then s.mgpRefuse mgBUSY
  else if !inSram addr 16 then s.mgpRefuse Reason.FIELD_RANGE
  else if 4080 < len then s.mgpRefuse mgFRAME_FORMAT
  else if !inSram addr (16 + len) then s.mgpRefuse Reason.FIELD_RANGE
  else
    let fl := s.sramLe (addr + 1) 1 % 2 + 2
    let s := s.mboxStore 0 (mboxFrame s.mgp.code fl (s.sramLe (addr + 4) 2) s.mgp.tag (s.sramLe (addr + 8) 4) (s.sramBytes (addr + 16) len))
    (({ s with mgp := { s.mgp with response := true } }).wr Reg.MGP.STATUS_OWNER 0).wr Reg.MGP.STATUS_SUBMITTED 0

/-- A device warm reset: a message not yet answered is discarded and ownership returns (R406). -/
def mgpWarm (s : State) : State :=
  if s.mgpOwns then
    ({ (s.wr Reg.MGP.STATUS_OWNER 0).wr Reg.MGP.STATUS_RESET_SEEN 1 with mgp := { s.mgp with req := none, stxOut := [] } })
  else { s with mgp := { s.mgp with req := none, stxOut := [] } }

end State

/-- READ_ID (R397). -/
def execReadId (s : State) : Host.Outcome State Fault Refusal :=
  .next (if s.mgpUp then s.mgpOut [0x53, 0x59, 0x94, 0xB0] else s)

/-- READ_STATUS (R397, R398): the read that returns INT clears it. -/
def execReadStatus (s : State) : Host.Outcome State Fault Refusal :=
  .next (if s.mgpUp then (s.mgpOut (leBytes 1 s.statusByte)).wr Reg.MGP.STATUS_INT_PENDING 0 else s)

/-- WRITE_MBOX (R397, R399). -/
def execWriteMbox (off : Nat) (data : List Byte) (s : State) : Host.Outcome State Fault Refusal :=
  .next (if s.mgpUp then s.mgpWrite (off % 65536) data else s)

/-- READ_MBOX (R397): bytes past 0xFFF are free. -/
def execReadMbox (off len : Nat) (s : State) : Host.Outcome State Fault Refusal :=
  .next (if s.mgpUp then
    let off := off % 65536
    let n := min len (4096 - off)
    (s.mgpOut (s.mboxBytes off n ++ s.freeBytes (len - n))).spend (len - n) else s)

/-- READ_RDBUF (R397): up to 64 B of the read buffer. -/
def execReadRdbuf (s : State) : Host.Outcome State Fault Refusal :=
  .next (if s.mgpUp then s.mgpOut s.mgp.rdbuf else s)

/-- CLEAR_ERR (R397). -/
def execClearErr (s : State) : Host.Outcome State Fault Refusal :=
  .next (if s.mgpUp then { s with mgp := { s.mgp with err := false } } else s)

/-- An opcode that is not in the table sets ERR (R397). -/
def execUnknownOpcode (code : Nat) (s : State) : Host.Outcome State Fault Refusal :=
  .next (if s.mgpUp && !([0x9F, 0x05, 0x02, 0x0B, 0x31, 0x4B, 0x4C, 0x66].contains code) then s.mgpErr else s)

/-- FETCH (R401): MGP CMD with OP 1. -/
def execFetch (addr : Nat) (s : State) : Host.Outcome State Fault Refusal :=
  .next (s.issue pgMGP mgpCmdOff (.fetch addr) (State.startFetch addr))

/-- REPLY (R401): OP 2. -/
def execReply (addr : Nat) (s : State) : Host.Outcome State Fault Refusal :=
  .next (s.issue pgMGP mgpCmdOff (.reply addr) (State.startReply addr))

/-- DOORBELL (R399): OP 3; MGP_INT_N asserts until READ_STATUS returns INT. -/
def execDoorbell (s : State) : Host.Outcome State Fault Refusal :=
  .next (s.issue pgMGP mgpCmdOff .doorbell (fun s => s.wr Reg.MGP.STATUS_INT_PENDING 1))

end Sys2Proof.Machine
end

