-- ==== Sys2Proof/Machine/Zeroise.lean ====
section
/-! DEFINITION. What follows from a withdrawal (chapters 06, 08, 13, 14): the registers, SAs, sessions and chain key that depend on
a slot, INVALIDATE and the scrubber, and the zeroisation at the end of a vault epoch. -/

namespace Sys2Proof.Machine

namespace State

/-- PKE key registers whose source slot satisfies `gone` are zeroed, one that a running operation uses when it ends (R191, R246). -/
def keyRegsGone (s : State) (gone : Nat → Bool) : State :=
  (List.range 8).foldl (fun s r =>
    match (s.keyReg r).source with
    | some i =>
      let busy := match s.pke.run with
        | some (op, d) => s.pke.revoked.isSome && (op = 2 || op = 4) && fieldLe d 1 1 = r
        | none => false
      if gone i && !busy then s.setKeyReg r KeyReg.empty else s
    | none => s) s

/-- The DKR that a SEAL_OP has set aside goes with its source slot (R204). -/
def savedDkrGone (s : State) (gone : Nat → Bool) : State :=
  match s.stx.savedDkr with
  | some k => (match k.source with
    | some i => if gone i then { s with stx := { s.stx with savedDkr := some Dkr.empty } } else s
    | none => s)
  | none => s

/-- A saved context whose key is withdrawn is discarded: its operation ends at once (R231). -/
def savedGone (s : State) : State :=
  [0, 1, 2, 3].foldl (fun s n =>
    match (s.dgeOf n).revoked with
    | some r =>
      if s.flag (Reg.DGE.STATUS_SAVED n) then (((s.dgeClearResults n).dgeIdle n).revokedEnd (pgDGE n) r 0x44).wr (Reg.DGE.STATUS_DONE n) 1 else s
    | none => s) s

/-- What depends on the withdrawn slots outside the vault and the engines: SAKs, key registers, saved contexts, the session KEK, K_L. -/
def dependents (s : State) (gone : Nat → Bool) : State :=
  let s := ((((s.saRevoke gone).keyRegsGone gone).savedDkrGone gone).savedGone).aesSavedGone gone
  let s := if s.active pgSTX && gone (s.cfg Reg.STX.SESSION_KEK) then s.allIdle sxKEY_LOST else s
  s.keyFollows.ledgerCheck

/-- What depends on the slots that are withdrawn by now follows them (R190, R191); a slot stays withdrawn to the end of its epoch. -/
def settle (s : State) : State := s.dependents (fun i => decide (slINVALID ≤ (s.slot i).state))

/-- INVALIDATE, when it starts (R187, R190). -/
def startInvalidate (addr : Nat) (s : State) : State :=
  let i := s.sramLe addr 2
  if !inSram addr 2 || 512 ≤ i then s.kvtResult i Reason.FIELD_RANGE
  else if i = 0 then s.kvtResult i kvRESERVED
  else
    let st := (s.slot i).state
    if slINVALID ≤ st then s.kvtResult i 0
    else ((s.withdraw i slINVALID kvREVOKED).settle).kvtResult i 0

/-- The scrubber checks slot `i` (R195, R196). -/
def scrubOne (s : State) (i : Nat) : State := if s.slotTagOk i then s else s.slotFails i

/-- A round of the scrubber over all 512 slots (R195), where the records of `bad` have been disturbed. -/
def scrub (bad : List Nat) (s : State) : State :=
  let s := bad.foldl (fun s i => if i < 512 then s.slotDisturb i else s) s
  ((List.range 512).foldl scrubOne s).settle

/-- A sequencer's operation on DGE `n` is lost with the epoch (R231): it ends with CONTEXT_LOST and its results zeroed, and a pair of
0 and 0 is a fault to the verification or the restore that waits for it (R219; log entry 90). -/
def seqLost (s : State) (n : Nat) : State :=
  match (s.dgeOf n).owner with
  | none => s
  | some h =>
    let s := if s.flag (Reg.DGE.STATUS_SAVED n) then s else (s.dgeClearResults n).refuse (pgDGE n) dgCONTEXT_LOST 0x44
    let x := s.host h
    match x.gate, x.restore with
    | some g, _ =>
      s.hostFailed h (if g.phase = .escort then hvESCORT_TABLE else if g.tableDone.isNone then hvLEAF_TABLE else hvPRE_MISMATCH)
    | none, some t => if t.engine = some n then s.restoreFail h else s.releaseDge n
    | none, none => s.releaseDge n

/-- The context of firmware's operation on DGE `n`, running, open, saved, or a LEAVES, is lost with the epoch (R231): a keyed one ends
under R191, any other with CONTEXT_LOST and its results zeroed. -/
def fwLost (s : State) (n : Nat) : State :=
  let e := s.dgeOf n
  if e.run.isNone && e.leaves.isNone && !s.flag (Reg.DGE.STATUS_OPEN n) then s
  else
    let s := (s.dgeClearResults n).dgeIdle n
    let s := if e.hmac then s.revokedEnd (pgDGE n) kvREVOKED 0x44 else s.refuse (pgDGE n) dgCONTEXT_LOST 0x44
    s.wr (Reg.DGE.STATUS_DONE n) 1

/-- Every DGE context is lost (R132, R231). -/
def dgeLost (s : State) (n : Nat) : State := (s.seqLost n).fwLost n

/-- A DKR is zeroised with the epoch (R132, R202), at once, since an operation works with the key that it captured (R191); the key that a
pre-empting SEAL_OP has set aside goes with its slot. -/
def dkrLost (s : State) (e : Nat) : State := s.showDkr e Dkr.empty

/-- A SAK register at the end of an epoch: one with a source slot is withdrawn by R383, the others are zeroed. -/
def sakLost (s : State) (x : Nat) : State := if (s.sa x).source.isNone then s.setSa x Sa.empty else s

/-- Step 4 of the opening order and step 5 of SEAL (R56, R132, R185): cache, slots, DKRs, SAKs, engine contexts, session memory,
identity and chain key; the epoch ends. -/
def zeroiseEpoch (s : State) : State :=
  let all (_ : Nat) : Bool := true
  let s := s.revokeOps all kvREVOKED
  let s := [0, 1, 2, 3].foldl dgeLost s
  let s := [0, 1].foldl dkrLost s
  let s := (((s.saRevoke all).keyRegsGone all).savedDkrGone all).aesSavedGone all
  let s := (List.range 16).foldl sakLost s
  let s := match s.stx.savedDkr with
    | some _ => { s with stx := { s.stx with savedDkr := some Dkr.empty } }
    | none => s
  let s := { s with ecdhOut := [] }
  s.lanesGo.keyLost.identityLost.vaultEpoch

end State

/-- INVALIDATE (R190): KVT CMD with OP 3. -/
def execInvalidate (addr : Nat) (s : State) : Host.Outcome State Fault Refusal :=
  .next (s.issue pgKVT 0x44 (.invalidate addr) (State.startInvalidate addr))

/-- SCRUB (R195): a SCRUB_PERIOD has passed, in which the records of `bad` were disturbed; the scrubber checks every tag. -/
def execScrub (bad : List Nat) (s : State) : Host.Outcome State Fault Refusal := .next (if s.up then s.scrub bad else s)

end Sys2Proof.Machine
end

