-- ==== Sys2Proof/Machine/Modes.lean ====
section
/-! DEFINITION. Modes and resets (chapters 02, 09-16): requests that are dropped, what each reset loses, ATTACH, the seal sequence,
VIGIL and SHELF. -/

namespace Sys2Proof.Machine

/-- Offset of GLB MODE_CMD. -/
def modeCmdOff : Nat := 0x48

/-- The page in the key of a register field. -/
def keyPage (k : Nat) : Nat := k / (0x10000 * 32)

namespace State

/-! ### Dropped requests (R56, R368, R425) -/

/-- The page of a request's issuer. -/
def issuerPage (x : Nat) (r : Req) : Nat :=
  match r.kind with
  | .gate => pgHSV
  | .sweep => pgESC
  | .stageSweep => pgPOL r.issuer
  | .restore => pgHSV
  | .ledger => pgLEDG
  | .measure => pgATT
  | .readPage => pgLEDG
  | .session => pgSTX
  | .quote => pgATT
  | .hostRead => pgHSV
  | .job .lcs => pgLCS
  | .job .grant => pgDBG
  | .job .time => pgTIME
  | .job .ledger => pgLEDG
  | .job .att => pgATT
  | .job .stx => pgSTX
  | .job .held => pgSTX
  | .job (.host _) => pgHSV
  | _ => pgFCH (x - 4)

/-- The full code of SHORTFALL_DROPPED, a reason of the XBR page. -/
def dropCode : Nat := pgXBR * 256 + xbSHORTFALL_DROPPED

/-- A request of a sequencer of the device, which issues it again when it is dropped (log entry 13): all but those of ENROLL, RELOAD, a
handshake, a command of ATT or STX, and firmware's. -/
def ownRequest (s : State) (r : Req) : Bool :=
  let hostOwn : Bool := match (s.host r.issuer).read with | some h => h.kind = 2 | none => true
  match r.kind with
  | .gate => true
  | .sweep => true
  | .stageSweep => true
  | .restore => true
  | .measure => true
  | .hostRead => hostOwn
  | .job (.host _) => hostOwn
  | _ => false

/-- SHORTFALL_DROPPED on the issuer's page, with the offset of firmware's command register. -/
def dropReason (s : State) (x : Nat) (r : Req) : State :=
  let off := if isFw r then fchCmdOff
    else match r.kind with
      | .readPage => ledgCmdOff
      | .job .att => attCmdOff
      | .job .stx => 0x50
      | .hostRead => hostCmdOff
      | .job (.host _) => hostCmdOff
      | _ => 0
  let s := (s.bump (Reg.XBR.DROPPED (r.cls - 3))).raise pgXBR 9
  (s.wr (Hdr.REASON_CODE (issuerPage x r)) (pgXBR * 256 + xbSHORTFALL_DROPPED)).wr (Hdr.REASON_OFFSET (issuerPage x r)) off

/-- ENROLL or RELOAD ends with its request. -/
def readDropped (s : State) (n : Nat) : State :=
  match (s.host n).read with
  | some h =>
    let s := s.setHost n { s.host n with read := none }
    if h.kind = 0 then s.cmdEnd pgHSV hostCmdOff
    else if h.kind = 1 then ((s.wr (Hdr.REASON_CODE pgESC) dropCode).wr (Hdr.REASON_OFFSET pgESC) escCmdOff).cmdEnd pgESC escCmdOff
    else s
  | none => s

/-- The command of ATT that waits for the PKE ends: IDENTITY, or a round whose quote was to be signed. -/
def attDropped (s : State) : State :=
  match s.stx.round with
  | some r => if r.closed then s.roundEnd dropCode else s
  | none => s.attEnd dropCode

/-- The handshake messages that wait for the PKE are gone; the session that one was for returns to IDLE (R425). -/
def heldDropped (s : State) : State :=
  let keep (h : Held) : Bool := match h with | .hello _ => false | .reply _ _ => false | _ => true
  let out := s.stx.held.filter (fun h => !keep h)
  out.foldl (fun s h => match h with | .reply sid _ => s.toIdle sid dropCode | _ => s)
    { s with stx := { s.stx with held := s.stx.held.filter keep } }

/-- What a dropped request ends: firmware's command, a handshake, a quote's check; none for a sequencer of the device. -/
def dropEnds (s : State) (x : Nat) (r : Req) : State :=
  if isFw r then s.fchDone (x - 4)
  else if s.ownRequest r then s
  else match r.kind with
    | .readPage => s.cmdEnd pgLEDG ledgCmdOff
    | .session => s.toIdle (r.issuer - 1000) dropCode
    | .quote => s.roundVerdict (r.issuer - 1000) vdNOT_CHECKED
    | .hostRead => s.readDropped r.issuer
    | .job (.host n) => s.readDropped n
    | .job .att => s.attDropped
    | .job .stx => (((s.wr Reg.STX.RESULT_SESSION 0).wr Reg.STX.RESULT_CODE dropCode).cmdEnd pgSTX 0x50)
    | .job .held => s.heldDropped
    | _ => s

/-- A request of a suspended class is dropped (R368); the device's own sequencers issue theirs again (log entry 13). -/
def dropReq (s : State) (x i : Nat) : State :=
  let d := s.sched x
  match d.queue[i]? with
  | some r =>
    if !suspendedAt d.level r.lvl || r.cls < 3 then s
    else
      let s := ((s.setSched x { d with queue := d.queue.eraseIdx i }).dropReason x r).dropEnds x r
      if s.ownRequest r then
        s.setSched x { s.sched x with queue := (s.sched x).queue ++ [{ r with lvl := r.cls }] }
      else s
  | none => s

/-- Step 1 of SEAL on a resource: queued K3 to K5 work is dropped, an erase of these classes, running or suspended, abandoned; a
program that Brace suspended completes after it (R56). -/
def sealDrop (s : State) (x : Nat) : State :=
  let low (r : Req) : Bool := decide (3 ≤ r.cls)
  let gone (r : Req) : Bool := low r && s.reqErases r
  let d := s.sched x
  let out := d.queue.filter low
  let cut := (match d.running with | some r => if gone r then [r] else [] | none => [])
    ++ (if 4 ≤ x then (match (s.chan (x - 4)).suspended with | some r => if gone r then [r] else [] | none => []) else [])
  let s := s.setSched x { d with queue := d.queue.filter (fun r => !low r), running := (match d.running with | some r => if gone r then none else some r | none => none) }
  let s := if 4 ≤ x && (match (s.chan (x - 4)).suspended with | some r => gone r | none => false) then
      (s.setChan (x - 4) { s.chan (x - 4) with suspended := none, suspending := false }).wr (Reg.FCH.STATUS_SUSPENDED (x - 4)) 0 else s
  let s := (out ++ cut).foldl (fun s r => (s.dropReason x r).dropEnds x r) s
  if 4 ≤ x then s.pumpCh (x - 4) else s

/-- The SEAL_OP that runs on AES engine `e`, or waits, ends as dropped. -/
def sealOpDropped (s : State) (e : Nat) : State :=
  if s.aesLent e then ((s.aesIdle e).sealDone e).attEnd dropCode
  else match s.stx.sealWait with
    | some _ => ({ s with stx := { s.stx with sealWait := none } } : State).attEnd dropCode
    | none => s

/-- Step 1 of SEAL on the engines: an operation of firmware, running or saved, and a SEAL_OP end at the next boundary as dropped; one of
the PKE completes. -/
def sealEngines (s : State) : State :=
  let reason (s : State) (p off : Nat) : State := ((s.bump (Reg.XBR.DROPPED 0)).wr (Hdr.REASON_CODE p) dropCode).wr (Hdr.REASON_OFFSET p) off
  let s := [0, 1, 2, 3].foldl (fun s n =>
    if ((s.dgeOf n).owner.isNone || s.flag (Reg.DGE.STATUS_SAVED n)) && ((s.dgeOf n).run.isSome || (s.dgeOf n).leaves.isSome) then reason ((s.dgeClearResults n).dgeIdle n) (pgDGE n) 0x44 else s) s
  let s := s.lanesGo
  let s := [0, 1].foldl (fun s e =>
    let s := if (s.aesOf e).saved.isSome then reason (s.abortSaved e) pgAES (aesCmdOff e) else s
    let s := s.sealOpDropped e
    if s.aesBusy e then reason (s.aesIdle e) pgAES (aesCmdOff e) else s) s
  if s.cmp.run.isSome then reason (s.cmpIdle none) pgCMP 0x44 else s

/-! ### Entering VIGIL and SHELF (R34, R486, R559) -/

/-- Everything that only the main domain held is lost: registers of CLK_SYS and SCK, memories, engines, sessions (R17, R41). -/
def mainLost (s : State) : State :=
  let s := s.ledgerOff
  let r := s.regs
  let s := { s with regs := { RegFile.reset with aon := r.aon, inAon := r.inAon }, cmds := [], strobe := Strobe.idle, enableChecks := [] }
  let s := { s with walker := ⟨none, none⟩, waits := [], lcs := ⟨false, 0, false, 0⟩, dbg := ⟨none, none, 0, []⟩ }
  let s := { s with tap := ⟨1, 1, 0, ⟨false, 0⟩⟩, boot := BootSt.idle, cores := [], tcm := [], sram := [], dge := [], snp := [], aes := [] }
  let s := { s with pke := ⟨[], none, none, none⟩, rng := ⟨0, 0⟩, ecdhOut := [], ports := [], stages := [], deferred := [], ldm := [] }
  let s := { s with cmp := ⟨none, none⟩, scheds := [], chans := [], sas := [], lanes := [], cans := [], mgp := Mgp.idle, stx := StxSt.idle }
  let s := (List.range 6).foldl (fun s n =>
    s.setHost n { s.host n with gate := none, restore := none, read := none, sup := { Sup.idle with okPin := (s.host n).sup.okPin }, sweepAcc := [], wins := [] }) s
  let s := { s with mode := { ModeSt.reset with phase := s.mode.phase, sealPending := s.mode.sealPending, sealShelf := s.mode.sealShelf } }
  let s := s.setTime { s.time with challenge := none }
  (s.vaultEpoch).wr Reg.KVT.EPOCH 0

/-- The device enters VIGIL (R34, R485, R486, R559): MRT is handed over, PWR_EN falls, SEAL_PENDING is cleared, the loops are seeded (R491). -/
def vigilEntry (s : State) : State :=
  let s := { s with power := { s.power with mainOn := false, mainReset := true, fromVigil := true, wake := none },
                    mode := { s.mode with phase := .vigil, sealPending := false, sealStep := 0, sealShelf := false, attached := false } }
  let s := (s.wr Reg.AON.HANDOVER_MRT_LO (s.time.mrt % 2 ^ 32)).wr Reg.AON.HANDOVER_MRT_HI (s.time.mrt / 2 ^ 32)
  ((s.wr Reg.AON.POWER_STATUS_PWR_EN 0).bump Reg.AON.VIGIL_COUNT).seedLoops

/-- The device enters SHELF (R34, R52, R485, R559). -/
def shelfEntry (s : State) : State :=
  let s := { s with power := { s.power with mainOn := false, mainReset := true, wakePending := none },
                    mode := { s.mode with phase := .shelf, sealPending := false, sealStep := 0, sealShelf := false, attached := false } }
  s.wr Reg.AON.POWER_STATUS_PWR_EN 0

/-! ### SEAL (R56, R57, R554) -/

/-- Step 4 has nothing left: the journal is on FB and no erase of its rings is under way, or nothing can commit it. -/
def sealCommitted (s : State) : Bool :=
  !s.active pgLEDG || s.ledger.key.isNone
  || (s.ledger.journal.isEmpty && !s.ledger.committing && !(s.ring 0).due && !(s.ring 1).due)

/-- Steps 5 and 6: zeroise, then the main domain goes off. -/
def sealEnd (s : State) : State :=
  let shelf := s.mode.sealShelf
  let s := s.zeroiseEpoch
  let s := { s with mode := { s.mode with sealPending := false } }
  let s := s.mainLost
  if shelf then s.shelfEntry else s.vigilEntry

/-- Step 4: the journal and the NVM programs in flight, then steps 5 and 6; in Brace it waits. -/
def sealStep4 (s : State) : State :=
  let s := { s with mode := { s.mode with sealStep := 4 } }
  if s.brace then s
  else
    let s := if s.ledger.journal.isEmpty then s else s.commitStart
    if s.sealCommitted then s.kvtFinish.sealEnd else s

/-- Step 3: every host that is not OFF is held. -/
def sealStep3 (s : State) : State := (({ s with mode := { s.mode with sealStep := 3 } }).holdAll hcSEAL).sealStep4

/-- No service of K3 to K5 runs on a channel, or waits there for Brace to end, and the PKE has completed its operation: step 1 of SEAL
has ended (R56). -/
def sealQuiet (s : State) : Bool :=
  (List.range 12).all (fun x =>
    (match (s.sched x).running with | some r => decide (r.cls < 3) | none => true)
    && (decide (x < 4) || (match (s.chan (x - 4)).suspended with | some r => decide (r.cls < 3) | none => true)))
  && s.pke.run.isNone

/-- Step 2 begins (R56): a CLOSE on every session, which needs an engine and so waits for Brace exit (R255). -/
def sealClose (s : State) : State :=
  if s.mode.phase = .seal && s.mode.sealStep = 1 && s.sealQuiet && !(s.brace && !s.sessIds.all (fun i => (s.sess i).state = ssIDLE)) then
    s.sessIds.foldl sealSess { s with mode := { s.mode with sealStep := 2 } }
  else s

/-- Step 1 of SEAL at the end of a service: what was queued since is dropped too, and step 2 begins where nothing runs any more. -/
def sealStep1 (s : State) : State :=
  if s.mode.phase = .seal && s.mode.sealStep = 1 then ((List.range 12).foldl sealDrop s).sealClose else s

/-- SEAL goes on where a step has ended: step 1 when no service runs, step 2 when every session is IDLE, step 4 when the journal is on
FB. -/
def sealGo (s : State) : State :=
  let s := s.sealStep1
  if s.mode.phase ≠ .seal then s
  else if s.mode.sealStep = 2 && s.sessIds.all (fun i => (s.sess i).state = ssIDLE) then s.sealStep3
  else if s.mode.sealStep = 4 then s.sealStep4
  else s

/-- SEAL from its step 1, or as ROM resumes it from its step 3 (R56, R142). -/
def sealFrom (s : State) (k : Nat) : State :=
  if k = 3 then ({ s with mode := { s.mode with phase := .seal } }).sealStep3
  else
    let s := { s with mode := { s.mode with phase := .seal, sealPending := true, sealStep := 1 } }
    let s := (List.range 6).foldl (fun s n => if s.stageSt n = 0 && !s.armed n && !s.flag (Reg.POL.STAGE_STATE_LATCH n) then s else s.stageStop n 3) s
    s.sealEngines.sealGo

/-- Record a refused mode command. -/
def modeRefuse (s : State) (code : Nat) : State := s.refuse pgGLB code modeCmdOff

/-- SEAL or SEAL_TO_SHELF, when it starts (R51, R554). -/
def startSeal (shelf : Bool) (s : State) : State :=
  if s.mode.phase = .seal || !s.mode.attached then s.modeRefuse Reason.NOT_IN_MODE
  else if shelf && !(s.lc < lcFIELD || (s.lc = lcFIELD && s.mode.layUp)) then s.modeRefuse Reason.NOT_IN_LIFECYCLE
  else ({ s with mode := { s.mode with sealShelf := shelf } }).sealFrom 1

/-! ### ATTACH (R45-R50) -/

/-- The HFP and POL pages of every port concerned have been applied since the warm reset (R49). -/
def pagesApplied (s : State) : Bool :=
  (List.range 6).all (fun n =>
    (s.hostSt n = hsOFF && !s.enabled (pgHFP n)) || (s.mode.appliedPages.contains (pgHFP n) && s.mode.appliedPages.contains (pgPOL n)))

/-- LDM holds the verified tables of every host that is still ESCORTED (R49), which takes the ESC page that places them. -/
def tablesLoaded (s : State) : Bool :=
  (List.range 6).all (fun n => s.hostSt n ≠ hsESCORTED
    || (s.active pgESC && (s.windowsOf n).all (fun w => s.flag (Reg.ESC.WIN_STATUS_LOADED w))))

/-- No strobe runs or waits and no page is PENDING (R49). -/
def strobesDone (s : State) : Bool :=
  s.strobe.phase = .idle && (s.cmdSlot pgGLB 0x50) = ⟨none, none⟩ && (List.range 0x32).all (fun p => !s.flag (Hdr.PENDING p))

/-- ATTACH, when it starts (R49, R554). -/
def startAttach (s : State) : State :=
  if s.mode.phase = .seal then s.modeRefuse Reason.NOT_IN_MODE
  else if (s.mode.afterWarm && !s.pagesApplied) || !s.strobesDone || !s.tablesLoaded then s.modeRefuse Reason.CONFLICT_WITH_PAGE
  else ({ s with mode := { s.mode with phase := .run, attached := true, reattach := false } }).seedLoopsAttach.wr Reg.GLB.MODE_ATTACHED 1

/-- REATTACH_LIMIT expires before ATTACH (R47). -/
def reattachLate (s : State) : State :=
  if s.mode.reattach && !s.mode.attached then
    let s := { s with mode := { s.mode with reattach := false } }
    (List.range 6).foldl (fun s n => if s.hostSt n = hsESCORTED then s.holdHost n hcREATTACH_EXPIRED else s) s
  else s

/-! ### Resets -/

/-- The header bits of CLK_SYS that a device warm reset leaves: PENDING of the pages in an SCK domain. -/
def keepPending (r : RegFile) : Tbl Nat :=
  r.clk.filter (fun e => sckPage (keyPage e.1) && e.1 = (Hdr.PENDING (keyPage e.1)).keyOf)

/-- The next-state latches that a device warm reset leaves: those of pages that are PENDING. -/
def keepLatch (s : State) : Tbl Nat := s.regs.latch.filter (fun e => s.flag (Hdr.PENDING (keyPage e.1)))

/-- A channel at a device warm reset: requests and lease are gone; a program or erase of firmware that was under way is left as the
device completes it, and the channel polls first (R283, R353). -/
def chanWarm (s : State) (c : Nat) : State :=
  let s := match (s.sched (chanRes c)).running with
    | some r => if decide (r.kind = ReqKind.fwErase) || decide (r.kind = ReqKind.fwProgram) then s.fwServed c r false else s
    | none => s
  let s := s.setSched (chanRes c) Sched.idle
  let s := s.setChan c { Chan.idle with polling := true }
  s.givePins c

/-- A port at a device warm reset: a first touch in service loses its fetch and its cache (R43), and no host state or output changes
(R42; log entry 135); a wait for the pins goes on (R283); the log period ends (R299). -/
def portWarm (s : State) (n : Nat) : State :=
  let s := s.touchEnd n
  s.setPort n { s.port n with loggedAt := none }

/-- What a device warm reset loses (R42, R43, R126, R139, R312, R353, R406, R438, R443): CLK_SYS, the vault, engines, queues, sessions, and the
tightly coupled memory of C1-C3, which clear their own. -/
def clkLost (s : State) : State :=
  let s := s.ledgerWarm
  let s := (List.range 8).foldl chanWarm s
  let s := ((List.range 6).foldl portWarm s).mgpWarm
  let r := s.regs
  let latch := s.keepLatch
  let s := { s with regs := { r with clk := keepPending r, shadow := [], applied := [], latch := latch, rsvd := [] }, cmds := [], strobe := Strobe.idle }
  let s := { s with enableChecks := [], walker := ⟨none, none⟩, waits := [], lcs := ⟨false, 0, false, 0⟩ }
  let s := { s with dbg := { s.dbg with challenge := none, opening := none, openRights := 0 }, boot := { BootSt.idle with straps := s.boot.straps } }
  let s := { s with cores := [], tcm := Tbl.put [] [] 0 (Tbl.get [] s.tcm 0), dge := [], snp := [], aes := [], pke := ⟨[], none, none, none⟩, rng := ⟨0, 0⟩, ecdhOut := [], stages := [] }
  let s := { s with ldm := [], cmp := ⟨none, none⟩, scheds := [], sas := [], lanes := [], cans := [], stx := StxSt.idle }
  let s := { s with deferred := s.deferred.filter (fun d => match d with | .void _ _ => true | _ => false) }
  (s.setTime { s.time with challenge := none }).vaultEpoch

/-- Hosts at a device warm reset (R42, R44, R46): verifications and mendings stop, released hosts run on. -/
def warmHosts (s : State) : State :=
  (List.range 6).foldl (fun s n =>
    let s := s.setHost n { s.host n with gate := none, restore := none, read := none, sweepAcc := [] }
    if s.hostSt n = hsVERIFYING || s.hostSt n = hsMENDING then s.holdHost n hcFIRMWARE else s) s

/-- What an always-on reset loses (R54, R504): everything but OTP, NVM, the flash devices and the levels of the supplies. -/
def aonLost (s : State) : State :=
  let s := s.ledgerOff
  let okPins := (List.range 6).map (fun n => (s.host n).sup.okPin)
  let t : State := { State.reset with pending := s.pending, free := s.free, otp := s.otp, nvm := s.nvm, flash := s.flash, octal := s.octal }
  let t := { t with power := { Power.reset with core := s.power.core, pwrWarn := s.power.pwrWarn, ioHost := s.power.ioHost, ioFlash := s.power.ioFlash, ioGen := s.power.ioGen, torn := s.power.torn } }
  let t := (List.range 6).foldl (fun t n => t.setHost n { HostSt.idle with sup := { Sup.idle with okPin := okPins.getD n false } }) t
  t.vaultEpoch.wr Reg.KVT.EPOCH 0

end State

/-- ATTACH (R49): GLB.MODE_CMD. -/
def execAttach (s : State) : Host.Outcome State Fault Refusal := .next (s.issue pgGLB modeCmdOff .attach State.startAttach)

/-- SEAL (R56). -/
def execSeal (s : State) : Host.Outcome State Fault Refusal := .next (s.issue pgGLB modeCmdOff .seal (State.startSeal false))

/-- SEAL_TO_SHELF (R51). -/
def execSealToShelf (s : State) : Host.Outcome State Fault Refusal := .next (s.issue pgGLB modeCmdOff .sealToShelf (State.startSeal true))

/-- SEAL_CLOSE_TIMEOUT (R56): a session that has not reached IDLE within 100 ms of step 2 is abandoned. -/
def execSealCloseTimeout (session : Nat) (s : State) : Host.Outcome State Fault Refusal :=
  .next (if s.mode.phase = .seal && s.mode.sealStep = 2 then (s.abandonSess session).sealGo else s)

/-- REATTACH_EXPIRED (R47). -/
def execReattachExpired (s : State) : Host.Outcome State Fault Refusal := .next s.reattachLate

/-- SHORTFALL_DROP (R368). -/
def execShortfallDrop (res idx : Nat) (s : State) : Host.Outcome State Fault Refusal := .next (s.dropReq res idx)

end Sys2Proof.Machine
end

