-- ==== Sys2Proof/Machine/View.lean ====
section
/-! DEFINITION. What a read of a register page returns (R62-R66, R70, R73): stored fields, fields that the device computes, CMD
fields as the running command shows them (R72), and the latches of TIME (R441). -/

namespace Sys2Proof.Machine

/-- The word of a command register whose operand is bits 31:4 of an address, with the address and the OP. -/
def opWord (op addr : Nat) : Nat := addr / 16 * 16 + op

/-- The word that a command was written with, as its CMD fields show it (R72). -/
def cmdWord : Instr → Nat
  | .attach => 1
  | .seal => 2
  | .sealToShelf => 4
  | .updateStrobe g => g
  | .crcCommit v => v
  | .apply a => opWord 1 a
  | .resume a => opWord 2 a
  | .lcsProgramAuth a => opWord 3 a
  | .dbgChallenge => 1
  | .present a => opWord 2 a
  | .revoke => 3
  | .go => 1
  | .programFields a => opWord 1 a
  | .revokeA => 2
  | .revokeB => 3
  | .ring _ e => e / 2 * 2 + 1
  | .wdtKick => 1
  | .warm _ => 1
  | .programFuse => 1
  | .fetch a => opWord 1 a
  | .reply a => opWord 2 a
  | .doorbell => 3
  | .stageOpen _ => 1
  | .stageArm _ a => opWord 2 a
  | .sweep _ => 3
  | .commit _ a => opWord 4 a
  | .fchRead _ a => opWord 1 a
  | .fchProgram _ a => opWord 2 a
  | .fchErase _ a => opWord 3 a
  | .init _ a => opWord 4 a
  | .reload h => 1 + 16 * h
  | .hostVerify h => 1 + 16 * h
  | .quarantine h => 2 + 16 * h
  | .hold h => 3 + 16 * h
  | .mend h => 4 + 16 * h
  | .enroll h sl => 5 + 16 * h + 256 * sl
  | .ok h => 6 + 16 * h
  | .cmpRun a => opWord 1 a
  | .dgeRun _ a => opWord 1 a
  | .leaves _ a => opWord 2 a
  | .snpArm _ a => opWord 1 a
  | .snpDisarm _ => 2
  | .define a => opWord 1 a
  | .chain a => opWord 2 a
  | .invalidate a => opWord 3 a
  | .save => 4
  | .restore => 5
  | .readMeta a => opWord 6 a
  | .aesRun _ a => opWord 1 a
  | .wrap _ a => opWord 2 a
  | .unwrap _ a => opWord 3 a
  | .loadRef _ u sl => 1 + 16 * u + 65536 * sl
  | .loadKey _ u => 2 + 16 * u
  | .dkrClear _ => 3
  | .verify a => opWord 1 a
  | .sign a => opWord 2 a
  | .genkey a => opWord 3 a
  | .ecdh a => opWord 4 a
  | .pkeClear a => opWord 5 a
  | .gen a => opWord 1 a
  | .restart => 2
  | .timeChallenge => 1
  | .timeApply a => opWord 2 a
  | .timeProgramAuth a => opWord 3 a
  | .freeze => 1
  | .thaw => 2
  | .ledgInput a => opWord 3 a
  | .readPage a => opWord 4 a
  | .exportChallenge => 5
  | .exportAck a => opWord 6 a
  | .setOdometer a => opWord 7 a
  | .netSend a => opWord 1 a
  | .netRecv a => opWord 2 a
  | .saLoadRef x u sl => 1 + 256 * x + 4096 * u + 65536 * sl
  | .saLoadKey x u => 2 + 256 * x + 4096 * u
  | .saClear x => 3 + 256 * x
  | .enable x => 4 + 256 * x
  | .disable x => 5 + 256 * x
  | .setTxAn x => 6 + 256 * x
  | .canSend p a => opWord (1 + 4 * p) a
  | .canRecv p a => opWord (2 + 4 * p) a
  | .recover p => 3 + 4 * p
  | .stxOpen a => opWord 1 a
  | .stxSend a => opWord 2 a
  | .stxRecv a => opWord 3 a
  | .stxClose a => opWord 4 a
  | .readCtx a => opWord 5 a
  | .attIdentity a => opWord 1 a
  | .lockRmt => 2
  | .unlockRmt => 3
  | .round a => opWord 4 a
  | .sealOp a => opWord 5 a
  | .verdicts a => opWord 6 a
  | .discard => 1
  | .aonSetTamper => 1
  | _ => 0

namespace State

/-- GLB.MODE.MODE (R34, R37, R38). -/
def modeCode (s : State) : Nat :=
  let has (st : Nat) : Bool := (List.range 6).any (fun n => s.hostSt n = st)
  match s.mode.phase with
  | .shelf => 0
  | .vigil => 1
  | .wake => 2
  | .await => 6
  | .seal => 7
  | .run =>
    if s.flag Reg.GLB.MODE_DEV_RECOVERY || has hsMENDING then 6
    else if has hsHELD || has hsVERIFYING then 3
    else if has hsESCORTED then 4 else 5

/-- A page asserts (R69). -/
def pageAsserts (s : State) (p : Nat) : Bool := (List.range 32).any (fun b => s.raised p b && s.flag (Hdr.EVENT_EN p b))

/-- A line of EVT is asserted (R97). -/
def linePend (s : State) (l : Nat) : Bool :=
  (List.range pageCount).any (fun p => s.pageAsserts p && s.cfg (Reg.EVT.ROUTE_LINE p) = l)

/-- IRQ_N is driven low (R97). -/
def irqPin (s : State) : Bool := (List.range pageCount).any (fun p => s.pageAsserts p && s.cfgb (Reg.EVT.ROUTE_PIN_EN p))

/-- 32 lines as a word. -/
def lineWord (s : State) (half : Nat) : Nat := (List.range 32).foldl (fun a i => a + b2n (s.linePend (32 * half + i)) * 2 ^ i) 0

/-- The digest and target of the open intent slot, the first where there are several. -/
def shownIntent (s : State) : Intent := match s.openIntents with | i :: _ => s.intent i | [] => Intent.blank

/-- How many vault slots satisfy `f`. -/
def slotCount (s : State) (f : Nat → Bool) : Nat := ((List.range 512).filter (fun i => f (s.slot i).state)).length

/-- The groups with a page that is PENDING. -/
def pendingGroups (s : State) : Nat :=
  (List.range 8).foldl (fun a g => a + b2n ((List.range pageCount).any (fun p => s.flag (Hdr.PENDING p) && s.rd (Hdr.UPD_GROUP p) = g)) * 2 ^ g) 0

/-- A numerator over a denominator in a unit, saturating. -/
def scaled (q : Nat × Nat) (unit top : Nat) : Nat := min top (q.1 * unit / q.2)

/-- The fields that the device computes where they are read: life cycle, boot and power pages. -/
def derivedLow (s : State) (p off lo : Nat) : Option Nat :=
  if p = pgGLB then
    (if off = 0x44 && lo = 0 then some s.modeCode else if off = 0x44 && lo = 6 then some (b2n s.gap)
     else if off = 0x54 && lo = 8 then some s.pendingGroups else none)
  else if p = pgLCS then
    (if off = 0x40 then
       (if lo = 4 then some (b2n (!s.openIntents.isEmpty)) else if lo = 8 then some s.otp.thermCount
        else if lo = 12 then some (b2n s.otp.thermValid) else if lo = 13 then some (b2n (codewordOf s.nvm.codeword).isSome)
        else if lo = 16 then some (if s.openIntents.isEmpty then 0 else s.shownIntent.target) else none)
     else if 0x44 ≤ off && off < 0x54 then some (digestWord s.otp.serial ((off - 0x44) / 4))
     else if off = 0x54 then
       (if lo = 0 then some (b2n (bankDone s.otp.fuseA || bankDone s.otp.fuseB))
        else if lo = 1 then some (b2n (bankDone s.otp.bornA || bankDone s.otp.bornB))
        else if lo = 2 then some (b2n s.bornFail)
        else if lo = 3 then some (s.rd Reg.DBG.DBG_STATE_ROOT_TEST) else some (b2n s.rootWithheld))
     else if off = 0x58 then some s.nvm.bootCount
     else if 0x64 ≤ off && off < 0x94 then some (if s.openIntents.isEmpty then 0 else digestWord s.shownIntent.digest ((off - 0x64) / 4))
     else none)
  else if p = pgBOOT then
    (if off = 0xB0 then
       (if lo = 0 then some (b2n s.otp.orderLock)
        else if lo = 1 then some (b2n (s.otp.fwHashA ≠ 0) + 2 * b2n (s.otp.fwHashB ≠ 0))
        else if lo = 3 then some (b2n s.otp.revokedA + 2 * b2n s.otp.revokedB)
        else if lo = 5 then some (b2n s.otp.sigEither) else some s.otp.pushWindow)
     else none)
  else if p = pgPWR then (if off = 0x64 then some (b2n s.otp.lossTamper) else none)
  else if p = pgEVT then
    (if off = 0x108 then some (s.lineWord 0) else if off = 0x10C then some (s.lineWord 1)
     else if off = 0x140 then some (b2n s.irqPin) else none)
  else none

/-- The fields that the device computes where they are read: ports, channels, engines, vault, time and ledger. -/
def derivedHigh (s : State) (p off lo : Nat) : Option Nat :=
  if 0x20 ≤ p && p < 0x24 then
    (if off = 0x40 && lo = 0 then some (b2n (s.flag (Reg.DGE.STATUS_BUSY (p - 0x20)) || (s.cmdSlot p 0x44).queued.isSome)) else none)
  else if 8 ≤ p && p < 0xE then (if off = 0x60 && lo = 2 then some (b2n (s.parked (p - 8))) else none)
  else if 0x14 ≤ p && p < 0x1C then
    let c := p - 0x14
    (if off = 0x88 then some (scaled (dReadBy s.cfg c) 10 8191) else if off = 0x8C then some (scaled (dProgBy s.cfg c) 10000 65535)
     else if off = 0x90 then some (t1kBy s.cfg c % 2 ^ 20) else if off = 0x94 then some (scaled (utilBy s.cfg c) 1000 1023)
     else if off = 0x98 then some (min 255 (quantumBy s.cfg c (2 + lo / 8))) else none)
  else if p = pgXBR then
    (if off = 0x70 then some (([0, 1, 2, 3].filter (fun n => s.flag (Reg.DGE.STATUS_SAVED n))).length
       + ([0, 1].filter (fun e => s.flag (Reg.AES.STATUS_SAVED e))).length) else none)
  else if p = pgESC then
    (if off = 0x1C8 then some (if s.active pgESC then ((List.range 24).map (fun w => 4 * s.cfg (Reg.ESC.WIN_SIZE w))).sum else 0)
     else if 0x218 ≤ off && off < 0x230 then some (s.port ((off - 0x218) / 4)).verified.length else none)
  else if p = pgHSV then
    (if 0x260 ≤ off && off < 0x278 && lo = 1 then some (b2n (s.currentRec ((off - 0x260) / 4) 0).isSome)
     else if 0x260 ≤ off && off < 0x278 && lo = 2 then some (b2n (s.currentRec ((off - 0x260) / 4) 1).isSome) else none)
  else if p = pgSNP then
    (if off % 64 = 0x2C && lo = 1 then some (b2n (s.snpOf ((off - 0x6C) / 64)).cur.isSome) else none)
  else if p = pgKVT then
    (if off = 0x50 then some (if lo = 0 then s.slotCount (fun st => st = slFREE) else s.slotCount (fun st => st = slINVALID || st = slORPHAN || st = slBAD))
     else none)
  else if p = pgTIME then
    (if off = 0x40 then some (s.time.mrt % 2 ^ 32) else if off = 0x44 then some (s.time.latchMrt / 2 ^ 32 % 2 ^ 32)
     else if off = 0x48 then some (if s.gap then 2 ^ 32 - 1 else s.time.latchUtc % 2 ^ 32)
     else if off = 0x4C then some (if s.gap then 2 ^ 32 - 1 else s.time.latchUtc / 2 ^ 32 % 2 ^ 32)
     else if off = 0x50 && lo = 4 then some (b2n (s.otp.backendHash ≠ 0)) else none)
  else if p = pgLEDG then
    (if off = 0x40 && lo = 1 then some (b2n s.nvm.frozen) else if off = 0x40 && lo = 3 then some (b2n s.nvm.exported)
     else if 0x60 ≤ off && off < 0x68 then some (s.headSeq ((off - 0x60) / 4) % 2 ^ 32)
     else if 0x68 ≤ off && off < 0x70 then some (s.tailSeq ((off - 0x68) / 4) % 2 ^ 32)
     else if off = 0x74 then some (s.nvm.odometer % 2 ^ 32) else none)
  else none

/-- A field as its active view reads (R70): CFG in force, KEY 0, CMD of the running command, the rest as held or computed. -/
def fieldView (s : State) (f : Fld) : Nat :=
  match f.kind with
  | .cfg => s.cfg f
  | .key => 0
  | .cmd => match (s.cmdSlot f.page f.off).running with | some i => bits (cmdWord i) (f.lo + f.width - 1) f.lo | none => 0
  | _ =>
    if f.off < 0x40 then (if f = Hdr.LOCKED f.page then s.rd (Hdr.LOCK f.page) else s.rd f)
    else match s.derivedLow f.page f.off f.lo with
      | some v => v
      | none => match s.derivedHigh f.page f.off f.lo with
        | some v => v
        | none => s.rd f

/-- The offset of a word in the page's tables: a window of POL shows the entries that WINDOW_BASE selects (R73). -/
def extOff (s : State) (p off : Nat) : Nat :=
  if 0xE ≤ p && p < 0x14 && 0x400 ≤ off && off < 0x800 then
    0x4000 + 16 * (64 * s.rd (Reg.POL.WINDOW_BASE (p - 0xE)) + (off - 0x400) / 16) + off % 16
  else off

end State

/-- The fields of the word at an offset of a page; none where nothing is implemented (R64). -/
def wordFields (p off : Nat) : List Fld :=
  match ((if off < 0x40 then Hdr.table p else pageTable p).find? (fun d =>
      d.off ≤ off && (if d.stride = 0 then off = d.off else (off - d.off) % d.stride = 0 && (off - d.off) / d.stride < d.count))) with
  | some d => d.flds (if d.stride = 0 then 0 else (off - d.off) / d.stride)
  | none => []

namespace State

/-- A word of an implemented page as a read returns it: header, active view or shadow view (R62, R65). -/
def pageWord (s : State) (p off : Nat) : Nat :=
  if 0x840 ≤ off then wordOf s.shadowOf ((wordFields p (s.extOff p (off - 0x800))).filter (fun f => f.kind = .cfg))
  else if 0x800 ≤ off then 0
  else if off = 0x000 then 0x10000 + 0x5900 + p
  else if off = 0x01C then s.shadowCrc p
  else wordOf s.fieldView (wordFields p (s.extOff p off))

/-- A read of a word, with what it does: reading MRT_LO latches the other three (R441). -/
def readWord (s : State) (p off : Nat) : State × Nat :=
  if p = pgTIME && off = 0x40 then (let s := s.latchTime; (s, s.pageWord p off)) else (s, s.pageWord p off)

/-- Words that ROM reports (R163). -/
def lcsStateWord (s : State) : Nat := s.pageWord pgLCS 0x40
def bootStatusWord (s : State) : Nat := s.pageWord pgBOOT 0x40
def attemptWord (s : State) (i : Nat) : Nat := s.pageWord pgBOOT (0x50 + 4 * i)

end State

end Sys2Proof.Machine
end

