-- ==== Sys2Proof/Machine/Strobe.lean ====
section
/-! DEFINITION. The ENABLE check, strobes and what applying a page does (R67, R74-R82, R552, R571), and the CRC walker (R89-R95). -/

namespace Sys2Proof.Machine

/-- Offsets of GLB UPDATE_STROBE and CRC_COMMIT. -/
def strobeOff : Nat := 0x50
def crcCommitOff : Nat := 0x6C

namespace State

/-! ### Grace (R94) -/

/-- A CFD write is refused, and a strobe that starts, while the window is open and ARMED is 1 (R94, R547). -/
def graceCloses (s : State) : Bool := s.flag Reg.GLB.CRC_STATUS_GRACE_OPEN && s.flag Reg.GLB.CRC_STATUS_ARMED

/-- A commit or a CFD write that takes effect opens the grace window; the walker starts again. -/
def openGrace (s : State) : State := s.wr Reg.GLB.CRC_STATUS_GRACE_OPEN 1

/-! ### Refusals (R83, R571) -/

/-- A page records a failure of its own. -/
def failPage (s : State) (f : Fail) : State := ((s.wr (Hdr.CHECK_FAIL f.page) 1).raise f.page 0).refuse f.page f.code f.off

/-- The pages of the strobe in progress. -/
def strobePages (s : State) : List Nat := s.strobe.set ++ s.strobe.clr

/-- An ENABLE check or a check or arm phase covers the page (R65). -/
def covered (s : State) (p : Nat) : Bool :=
  Tbl.get 0 s.enableChecks p ≠ 0
  || ((s.strobe.phase = StrobePhase.check || s.strobe.phase = StrobePhase.arm) && s.strobePages.contains p)

/-- CHECK_BUSY of a page says whether it is covered. -/
def showBusy (s : State) (p : Nat) : State := s.wrb (Hdr.CHECK_BUSY p) (s.covered p)

/-- A strobe ends: nothing is checked or armed, and its place in UPDATE_STROBE is free. -/
def strobeEnd (s : State) : State :=
  let ps := s.strobePages
  let s := ({ s.wr Reg.GLB.STROBE_STATUS_BUSY 0 with strobe := Strobe.idle }).cmdEnd pgGLB strobeOff
  ps.foldl showBusy s

/-- The set is refused: each page's first failure, the first of them in STROBE_REASON, the mask in REFUSED_GROUPS; the next-state
latches of the set are discarded (R75, R80, R83). -/
def strobeRefuse (s : State) (l : List Fail) : State :=
  let ps := s.strobePages
  let fs := (List.range pageCount).filterMap (fun p => if ps.contains p then firstFail l p else none)
  let s := fs.foldl failPage s
  let s := match fs with | f :: _ => s.wr Reg.GLB.STROBE_REASON (f.page * 256 + f.code) | [] => s
  let s := s.wr Reg.GLB.STROBE_STATUS_REFUSED_GROUPS s.strobe.groups
  let s := s.strobe.armed.foldl (fun s p => { s with regs := { s.regs with latch := copyPage p [] s.regs.latch } }) s
  s.strobeEnd

/-! ### Commit (R40, R67, R76, R77, R99) -/

/-- What putting a page in force does besides its fields. -/
def pageHook (old s : State) (p : Nat) : State :=
  let seen (s : State) : State := { s with mode := { s.mode with appliedPages := if s.mode.appliedPages.contains p then s.mode.appliedPages else p :: s.mode.appliedPages } }
  if 8 ≤ p && p < 0xE then
    let s := seen s
    if s.hostSt (p - 8) = hsOFF then (s.setHostSt (p - 8) hsHELD).wr (Reg.HSV.HOST_STATE_HOLD_CAUSE (p - 8)) hcFIRMWARE else s
  else if 0xE ≤ p && p < 0x14 then seen s
  else if 0x14 ≤ p && p < 0x1C then
    let c := p - 0x14
    let proto := s.cfg (Reg.FCH.PROFILE_PROTOCOL c)
    if proto ≠ s.rd (Reg.FCH.STATUS_INIT_PROTOCOL c) || s.cfg (Reg.FCH.PROFILE_DUMMY c) ≠ s.rd (Reg.FCH.STATUS_INIT_DUMMY c)
        || (proto < 2 && s.cfg (Reg.FCH.PROFILE_ADDR_WIDE c) ≠ s.rd (Reg.FCH.STATUS_INIT_ADDR_WIDE c)) then
      s.wr (Reg.FCH.STATUS_INIT_DONE c) 0
    else s
  else if p = pgLEDG then s.ledgerCheck
  else if p = pgNET then s.netApplied
  else if p = pgMSEC then (s.pumpLane 0).pumpLane 1
  else if p = pgCAN then State.canApplied old s
  else if p = pgSNP then s.lanesGo
  else s

/-- What taking a page out of force does (R40). -/
def clearHook (s : State) (p : Nat) : State :=
  if 8 ≤ p && p < 0xE then (s.hostOff (p - 8)).gateStart
  else if p = pgLEDG then s.ledgerCheck
  else if p = pgNET then s.netApplied
  else s

/-- A page of the set applies in CLK_SYS: its shadow becomes the applied copy; a port page and a page with always-on fields are
PENDING, the others are in force whole. -/
def commitPage (s : State) (p : Nat) : State :=
  let s := { s with regs := { s.regs with applied := copyPage p s.regs.shadow s.regs.applied } }
  let s := (s.wr (Hdr.ACTIVE p) 1).wr (Hdr.CHECK_FAIL p) 0
  if sckPage p || aonPage p then s.wr (Hdr.PENDING p) 1 else s.raise p 4

/-- The commit of a strobe (R76 step 3): every page of the set, the swaps that need not wait, the grace window. -/
def strobeCommit (s : State) : State :=
  let old := s
  let set := s.strobe.set
  let clr := s.strobe.clr
  let s := set.foldl commitPage s
  let s := clr.foldl (fun s p => (s.wr (Hdr.ACTIVE p) 0).wr (Hdr.CHECK_FAIL p) 0) s
  let s := set.foldl (fun s p => if sckPage p && (decide (sckPort p = 6) || !s.csLow (sckPort p) || s.parked (sckPort p)) then s.swapPage p else s) s
  let s := s.strobeEnd.openGrace
  let s := clr.foldl clearHook s
  set.foldl (pageHook old) s

/-! ### Strobes (R74-R82) -/

/-- The pages of the set that a port arms. -/
def toArm (s : State) : List Nat := s.strobePages.filter sckPage

/-- Every port page of the set is armed: commit. -/
def armsDone (s : State) : State := if s.toArm.all (fun p => s.strobe.armed.contains p) then s.strobeCommit else s

/-- The pages of the selected groups that take part: enabled, or in force with ENABLE cleared. -/
def groupPages (s : State) (groups : Nat) (f : Nat → Bool) : List Nat :=
  (List.range pageCount).filter (fun p => bit groups (s.rd (Hdr.UPD_GROUP p)) && f p)

/-- An ENABLE check runs of a page that the selected groups hold, now or once its PAGE_CTRL write has taken effect (R74; log entry
96). -/
def checksRun (s : State) (groups : Nat) : Bool :=
  s.enableChecks.any (fun e => bit groups (s.rd (Hdr.UPD_GROUP e.1)) || bit groups (bits e.2 6 4))

/-- The check phase starts (R74, R82, R94): an empty set ends at once; with the grace window open and ARMED 1 it is refused. -/
def strobeBegin (s : State) : State :=
  let g := s.strobe.groups
  if s.checksRun g then s
  else
    let set := s.groupPages g (fun p => s.enabled p)
    let clr := s.groupPages g (fun p => !s.enabled p && s.active p)
    if set.isEmpty && clr.isEmpty then s.strobeEnd
    else
      let s := { s with strobe := ⟨.check, g, set, clr, []⟩ }
      if s.graceCloses then s.strobeRefuse (s.strobePages.map (fun p => ⟨p, 0, Reason.CRC_UNCOMMITTED⟩))
      else s.strobePages.foldl showBusy (s.wr Reg.GLB.STROBE_STATUS_BUSY 1)

/-- UPDATE_STROBE, when it starts (R74). -/
def startStrobe (groups : Nat) (s : State) : State :=
  let g := groups % 256
  if g = 0 then s
  else ({ s.cmdStart pgGLB strobeOff (.updateStrobe groups) with strobe := ⟨.waitEnable, g, [], [], []⟩ }).strobeBegin

/-- The check phase ends (R75). -/
def strobeChecked (s : State) : State :=
  if s.strobe.phase ≠ StrobePhase.check then s
  else
    let l := s.strobeFails ⟨s.strobe.set, s.strobe.clr⟩
    if !l.isEmpty then s.strobeRefuse l
    else ({ s with strobe := { s.strobe with phase := .arm } }).armsDone

/-- A port page is armed (R76, R82): only with CS# high, and after the swap of an earlier strobe. -/
def armPage (s : State) (p : Nat) : State :=
  if s.strobe.phase ≠ StrobePhase.arm || !s.toArm.contains p || s.strobe.armed.contains p || s.flag (Hdr.PENDING p)
      || (decide (sckPort p ≠ 6) && s.csLow (sckPort p)) then s
  else
    let s := { s with regs := { s.regs with latch := copyPage p s.regs.shadow s.regs.latch } }
    ({ s with strobe := { s.strobe with armed := p :: s.strobe.armed } }).armsDone

/-- STROBE_LIMIT expires in the arm phase (R80). -/
def strobeLate (s : State) : State :=
  if s.strobe.phase ≠ StrobePhase.arm then s
  else s.strobeRefuse ((s.toArm.filter (fun p => !s.strobe.armed.contains p)).map (fun p => ⟨p, 0, Reason.STALL_LIMIT⟩))

/-- The always-on fields of a page apply (R79, R99); Clove takes the rules afresh (R493). -/
def aonApplied (s : State) (p : Nat) : State :=
  if !aonPage p || !s.flag (Hdr.PENDING p) then s
  else
    let s := { s with regs := { s.regs with inAon := copyPage p s.regs.applied s.regs.inAon } }
    let s := (s.wr (Hdr.PENDING p) 0).raise p 4
    if p = pgCLOV then { s with clove := { s.clove with fresh := List.range 32 } } else s

/-- No ENABLE check of the page runs any more: CHECK_BUSY follows, and a strobe that waited for it begins (R67, R74). -/
def enableCheckOver (s : State) (p : Nat) : State := ({ s with enableChecks := Tbl.put 0 s.enableChecks p 0 }).showBusy p

/-- A strobe that waits for ENABLE checks looks again (R74). -/
def strobeWaited (s : State) : State := if s.strobe.phase = StrobePhase.waitEnable then s.strobeBegin else s

/-- A PAGE_CTRL write takes effect (R67, R68, R551): its group, its LOCK, its ENABLE, and the grace window of R94. -/
def ctrlEffect (s : State) (p v : Nat) : State :=
  let s := s.wr (Hdr.UPD_GROUP p) (bits v 6 4)
  let s := if bit v 8 then (s.wr (Hdr.LOCK p) 1).wr (Hdr.LOCKED p) 1 else s
  (s.wrb (Hdr.ENABLE p) (bit v 0)).openGrace

/-- The check that setting ENABLE started ends (R67, R551): on a pass the whole write takes effect. -/
def enableChecked (s : State) (p : Nat) : State :=
  let v := Tbl.get 0 s.enableChecks p
  if v = 0 then s
  else
    let s := s.enableCheckOver p
    let s := match firstFail (s.checkFails ⟨[p], []⟩) p with
      | some f => s.failPage f
      | none => (s.ctrlEffect p v).wr (Hdr.CHECK_FAIL p) 0
    s.strobeWaited

/-! ### PAGE_CTRL (R67, R68, R551) -/

/-- A write of PAGE_CTRL.  One that sets ENABLE from 0 to 1 starts the check and takes effect when it passes; any other takes effect
at once, and one with ENABLE 0 ends a check that runs (log entry 96). -/
def pageCtrl (s : State) (p v : Nat) : State :=
  let g := bits v 6 4
  if pageCount ≤ p then s
  else if s.flag (Hdr.LOCK p) then s.writeLostWith p 0x004 Reason.PAGE_LOCKED
  else if Nat.land v (2 ^ 32 - 1 - 0x171) ≠ 0 || (s.enabled p && g ≠ s.rd (Hdr.UPD_GROUP p)) then s.writeLostWith p 0x004 Reason.FIELD_RANGE
  else if s.graceCloses then s.writeLostWith p 0x004 Reason.CRC_UNCOMMITTED
  else if bit v 0 && !s.enabled p then ({ s with enableChecks := Tbl.put 0 s.enableChecks p v }).showBusy p
  else ((s.enableCheckOver p).ctrlEffect p v).strobeWaited

/-! ### The walker (R89-R95) -/

/-- A mismatch takes its reaction (R95). -/
def mismatch (s : State) : State :=
  let s := (s.bump Reg.GLB.CRC_MISMATCH_COUNT).raise pgGLB 8
  let r := s.cfg Reg.GLB.CRC_CTRL
  if r = 1 then
    ((List.range 6).foldl (fun s n => if s.hostSt n = hsQUARANTINED then s else s.holdHost n hcCRC_REACTION) s).gateStart
  else if r = 2 then (if s.mode.phase = Phase.seal then s else ({ s with mode := { s.mode with sealShelf := false } }).sealFrom 1)
  else s

/-- A scan ends with a value: CRC_LIVE, the commit that waits for it, and a mismatch outside the grace window (R89, R93, R94). -/
def scanEnds (s : State) : State :=
  let v := s.scanCrc
  let s := s.wr Reg.GLB.CRC_LIVE v
  let s := match s.walker.commit with
    | some c =>
      let s := { s with walker := { s.walker with commit := none } }
      let s := if v = c then
          let s := { s with walker := { s.walker with lastMismatch := none } }
          (((s.wr Reg.GLB.CRC_REF v).wr Reg.GLB.CRC_STATUS_GRACE_OPEN 0).wr Reg.GLB.CRC_STATUS_ARMED 1).raise pgGLB 9
        else s.refuse pgGLB Reason.COMMIT_MISMATCH crcCommitOff
      (s.wr Reg.GLB.CRC_STATUS_COMMIT_BUSY 0).cmdEnd pgGLB crcCommitOff
    | none => s
  if v = s.rd Reg.GLB.CRC_REF then { s with walker := { s.walker with lastMismatch := none } }
  else if !s.flag Reg.GLB.CRC_STATUS_ARMED || s.flag Reg.GLB.CRC_STATUS_GRACE_OPEN || s.walker.lastMismatch = some v then s
  else ({ s with walker := { s.walker with lastMismatch := some v } }).mismatch

/-- CRC_COMMIT, when it starts (R93). -/
def startCrcCommit (v : Nat) (s : State) : State :=
  let s := s.cmdStart pgGLB crcCommitOff (.crcCommit v)
  ({ s with walker := { s.walker with commit := some (v % 2 ^ 32) } }).wr Reg.GLB.CRC_STATUS_COMMIT_BUSY 1

/-- CRC_GRACE expires without a successful commit (R94). -/
def graceEnds (s : State) : State :=
  if !s.flag Reg.GLB.CRC_STATUS_GRACE_OPEN then s
  else
    let s := s.wr Reg.GLB.CRC_STATUS_GRACE_OPEN 0
    if s.flag Reg.GLB.CRC_STATUS_ARMED then (s.refuse pgGLB Reason.GRACE_EXPIRED 0).mismatch else s

end State

/-- PAGE_CTRL_WRITE (R67). -/
def execPageCtrlWrite (page value : Nat) (s : State) : Host.Outcome State Fault Refusal :=
  .next (if s.up then s.pageCtrl page value else s)

/-- ENABLE_CHECK_DONE (R67). -/
def execEnableCheckDone (page : Nat) (s : State) : Host.Outcome State Fault Refusal := .next (s.enableChecked page)

/-- UPDATE_STROBE (R74). -/
def execUpdateStrobe (groups : Nat) (s : State) : Host.Outcome State Fault Refusal :=
  .next (if groups % 256 = 0 then s else s.issue pgGLB strobeOff (.updateStrobe groups) (State.startStrobe groups))

/-- STROBE_CHECK_DONE (R75). -/
def execStrobeCheckDone (s : State) : Host.Outcome State Fault Refusal := .next s.strobeChecked

/-- STROBE_ARM (R76). -/
def execStrobeArm (page : Nat) (s : State) : Host.Outcome State Fault Refusal := .next (s.armPage page)

/-- STROBE_LIMIT_EXPIRY (R80). -/
def execStrobeLimitExpiry (s : State) : Host.Outcome State Fault Refusal := .next s.strobeLate

/-- AON_APPLY (R79). -/
def execAonApply (page : Nat) (s : State) : Host.Outcome State Fault Refusal := .next (s.aonApplied page)

/-- WALKER_SCAN_END (R89). -/
def execWalkerScanEnd (s : State) : Host.Outcome State Fault Refusal := .next (if s.up then s.scanEnds else s)

/-- CRC_COMMIT (R93). -/
def execCrcCommit (value : Nat) (s : State) : Host.Outcome State Fault Refusal :=
  .next (s.issue pgGLB crcCommitOff (.crcCommit value) (State.startCrcCommit value))

/-- GRACE_EXPIRED (R94). -/
def execGraceExpired (s : State) : Host.Outcome State Fault Refusal := .next s.graceEnds

end Sys2Proof.Machine
end

