-- ==== Sys2Proof/Machine/Access.lean ====
section
/-! DEFINITION. Core accesses to register words other than command words (R61-R64, R70-R73, R81, R85-R87, R551), the waiting for a
port's CS#, and the rising edge that ends it. -/

namespace Sys2Proof.Machine

/-- The register space (R61). -/
def regBase : Nat := 0x40000000

/-- The page and the offset of a register address: 4 KiB pages from 0x4000_0000 (R61). -/
def pageOf (a : Nat) : Nat := a / 0x1000 % 0x100
def offOf (a : Nat) : Nat := a % 0x1000

/-- Bits of a word that belong to no field (R7). -/
def reservedBits (fs : List Fld) (v : Nat) : Nat :=
  Nat.land v (2 ^ 32 - 1 - fs.foldl (fun a f => a + (2 ^ f.width - 1) * 2 ^ f.lo) 0)

/-- The part of a written word that is a field's. -/
def fieldPart (f : Fld) (v : Nat) : Nat := bits v (f.lo + f.width - 1) f.lo

namespace State

/-- How a bus access ends (R63, R87). -/
def busError (s : State) : State := { s with bus := ⟨true, 0⟩ }
def busData (s : State) (v : Nat) : State := { s with bus := ⟨false, v⟩ }

/-- The fields of a word as an access reaches them: through the window of POL (R73) or directly. -/
def wordAt (s : State) (p off : Nat) : List Fld :=
  if 0x840 ≤ off then (wordFields p (s.extOff p (off - 0x800))).filter (fun f => f.kind = .cfg)
  else if 0x800 ≤ off then [] else wordFields p (s.extOff p off)

/-- The port whose SCK domain holds a field of the word: 0-5 a host port, 6 the management port (R85). -/
def crossDom (s : State) (p off : Nat) : Option Nat :=
  if off < 0x40 || 0x800 ≤ off || !(s.wordAt p off).any (fun f => f.dom = .sck) then none
  else if sckPage p then some (sckPort p)
  else if 0x14 ≤ p && p < 0x1A then some (p - 0x14)
  else none

/-- A write reaches one field that is not CFG, CFD or CMD (R70).  Whether hardware updates a LIVE field in the same cycle, and so wins
(R88), is a free value (log entry 134). -/
def putField (s : State) (value : Nat) (f : Fld) : State :=
  match f.kind with
  | .w1c => if fieldPart f value = 0 then s else s.wr f 0
  | .cnt => s.wr f (fieldPart f value)
  | .live => if Config.liveClash s.free then (s.spend 1).writeLost f.page f.off else (s.spend 1).wr f (fieldPart f value)
  | .key => s.wr f (fieldPart f value)
  | _ => s

/-- A write of a shadow word (R62, R68, R81): all its CFG fields, and the reserved bits the check refuses (R7). -/
def shadowWrite (s : State) (p off value : Nat) : State :=
  let fs := s.wordAt p off
  let o := off - 0x800
  if fs.isEmpty then s
  else if s.flag (Hdr.LOCK p) then s.writeLostWith p off Reason.PAGE_LOCKED
  else if s.flag (Hdr.CHECK_BUSY p) then s.writeLost p off
  else
    let s1 := fs.foldl (fun s f => s.setShadow f (fieldPart f value)) s
    let all := wordFields p (s.extOff p o)
    { s1 with regs := { s1.regs with rsvd := Tbl.put 0 s1.regs.rsvd (wordKey p (s.extOff p o)) (reservedBits all value) } }

/-- A write of a word with CFD fields, PAGE_CTRL apart (R551, R68, R94). -/
def cfdWord (s : State) (p off value : Nat) : State :=
  let fs := s.wordAt p off
  if s.flag (Hdr.LOCK p) then s.writeLostWith p off Reason.PAGE_LOCKED
  else match s.cfdFault p fs value with
    | some c => s.writeLostWith p off c
    | none =>
      if s.graceCloses then s.writeLostWith p off Reason.CRC_UNCOMMITTED
      else ((fs.filter (fun f => f.kind = .cfd)).foldl (fun s f => s.wr f (fieldPart f value)) s).openGrace

/-- A write of a word of an implemented page that carries no command field (R64, R70, R71). -/
def plainWrite (s : State) (p off value : Nat) : State :=
  let fs := s.wordAt p off
  if 0x800 ≤ off then s.shadowWrite p off value
  else if off = 0x004 then s.pageCtrl p value
  else if fs.any (fun f => f.kind = .cfd) then s.cfdWord p off value
  else
    let s := if fs.any (fun f => f.kind = .cfg) then s.writeLost p off else s
    let s := fs.foldl (fun s f => s.putField value f) s
    if p = pgMSEC && fs.any (fun f => f.kind = .live) then (s.pumpLane 0).pumpLane 1 else s

/-- A crossing access completes (R85): no word of a port's domain carries a command. -/
def crossDone (s : State) (x : XAccess) : State :=
  let p := pageOf x.acc.addr
  let off := offOf x.acc.addr
  match x.write with
  | some v => (s.plainWrite p off v).busData 0
  | none => let r := s.readWord p off; r.1.busData r.2

/-- Accesses that wait for port `n` complete in the order of their issue (R85, R86). -/
def waitsDone (s : State) (n : Nat) : State :=
  let mine := s.waits.filter (fun x => x.dom = n)
  mine.foldl crossDone { s with waits := s.waits.filter (fun x => x.dom ≠ n) }

/-- CS# of port `n` rises (R263, R85). -/
def portCsRise (s : State) (n : Nat) : State := if s.csLow n then (s.portEnd n).waitsDone n else s

/-- The oldest access waiting for a domain reaches STALL_LIMIT (R87). -/
def stallAbort (s : State) (dom : Nat) : State :=
  match s.waits.find? (fun x => x.dom = dom) with
  | none => s
  | some x =>
    let p := pageOf x.acc.addr
    ((({ s with waits := s.waits.erase x }).wr (Hdr.STALL_ABORT p) 1).raise p 1).busError

end State

/-- CFD_WRITE (R551): a core writes a word that has CFD fields; any other word takes no CFD write. -/
def execCfdWrite (page off value : Nat) (s : State) : Host.Outcome State Fault Refusal :=
  .next (if s.up && decide (page < pageCount) && decide (off < 0x800) && (s.wordAt page off).any (fun f => f.kind = .cfd) then
    s.plainWrite page off value else s)

/-- STALL_LIMIT_EXPIRY (R87). -/
def execStallLimitExpiry (dom : Nat) (s : State) : Host.Outcome State Fault Refusal := .next (s.stallAbort dom)

/-- HOST_CS_RISE (R263). -/
def execHostCsRise (n : Fin 6) (s : State) : Host.Outcome State Fault Refusal := .next (s.portCsRise n)

end Sys2Proof.Machine
end

