-- ==== Sys2Proof/Machine/Boot.lean ====
section
/-! DEFINITION. Device boot and ROM (chapter 05): the boot order, the manifest, verification, pushes, hand-over, the boot
OTP fields, the cores. -/

namespace Sys2Proof.Machine

/-- The format checks of R149: the first four rows of R152. -/
def formatFault (m : List Byte) : Option Nat :=
  if !mfHeaderOk m 1 then some Reason.MANIFEST_FORMAT
  else if !sequenceValid (mfSequence m) then some Reason.SEQUENCE_INVALID
  else if mfBlockLog2 m ≠ 12 || !mfLeafSha384 m || !bit (mfCoreMask m) 0 then some Reason.MANIFEST_FORMAT
  else if !loadRangeOk m then some Reason.LOAD_RANGE
  else none

namespace State

/-- The signer is permitted for a device image (R153, R560). -/
def signerOk (s : State) (m : List Byte) : Bool :=
  mfKeysHash m = mfSigner m &&
  ((s.otp.fwHashA ≠ 0 && !s.otp.revokedA && mfSigner m = s.otp.fwHashA)
   || (s.otp.fwHashB ≠ 0 && !s.otp.revokedB && mfSigner m = s.otp.fwHashB)
   || ((s.lc = lcWAFER || s.lc = lcCHARACTERISED || s.lc = lcRMA) && mfSigner m = Config.testSignerHash)
   || (s.lc = lcISSUED && s.otp.fwHashA = 0 && s.otp.fwHashB = 0 && mfSigner m = Config.provisioningSignerHash))

/-- Record the two results (R155). -/
def recordSigs (s : State) (ml ec : Bool) : State :=
  (s.wrb Reg.BOOT.BOOT_STATUS_MLDSA_OK ml).wrb Reg.BOOT.BOOT_STATUS_ECDSA_OK ec

/-- Append an entry to BOOT.ATTEMPT, the oldest leaving a full log (R567). -/
def attemptEntry (s : State) (source slot code : Nat) : State :=
  let put (s : State) (i code src sl : Nat) : State :=
    ((s.wr (Reg.BOOT.ATTEMPT_CODE i) code).wr (Reg.BOOT.ATTEMPT_SOURCE i) src).wr (Reg.BOOT.ATTEMPT_SLOT i) sl
  let used := s.boot.attempts
  let s := { s with boot := { s.boot with attempts := used + 1 } }
  if used < 8 then put s used code source slot
  else
    let s := (List.range 7).foldl (fun s i =>
      put s i (s.rd (Reg.BOOT.ATTEMPT_CODE (i + 1))) (s.rd (Reg.BOOT.ATTEMPT_SOURCE (i + 1))) (s.rd (Reg.BOOT.ATTEMPT_SLOT (i + 1)))) s
    put s 7 code source slot

/-- An attempt that failed, with its reason. -/
def attempt (s : State) (source slot reason : Nat) : State := s.attemptEntry source slot (pgBOOT * 256 + reason)

/-- An attempt that succeeded appends an entry too (R567); it has no reason, and its CODE is 0 (DESIGN CHOICE; log entry 17). -/
def attemptOk (s : State) (source slot : Nat) : State := s.attemptEntry source slot 0

/-- Every block matches its leaf (R152, R156). -/
def blocksMatch (img leaves : List Byte) (n : Nat) : Bool :=
  (List.range n).all (fun i => Config.sha384 (slice img (4096 * i) 4096) = digestOf 384 (slice leaves (48 * i) 48))

/-- The checks of R152 after the signatures: leaf table, blocks, whole image. -/
def contentFault (m leaves img : List Byte) : Option Nat :=
  if Config.sha384 leaves ≠ mfLeafDigest m then some Reason.LEAF_TABLE
  else if !blocksMatch img leaves (mfBlocks m) then some Reason.BLOCK_MISMATCH
  else if Config.sha384 img ≠ mfImageDigest m then some Reason.IMAGE_DIGEST
  else none

/-- How many bytes of the image had been loaded when a content check failed (R156, R157): none before the leaf table matched, else all
blocks up to the first that does not match. -/
def loadedLen (m leaves img : List Byte) : Nat :=
  if Config.sha384 leaves ≠ mfLeafDigest m then 0
  else 4096 * min (mfBlocks m) (((List.range (mfBlocks m)).find? (fun i => !blocksMatch img leaves (i + 1))).getD (mfBlocks m) + 1)

/-- What ROM keeps of a verified image until hand-over. -/
def bootImage (source slot : Nat) (m : List Byte) : BootImage :=
  ⟨source, slot, mfSequence m, mfSvn m, mfCoreMask m, (List.range 4).map (mfEntry m), mfImageDigest m⟩

/-- Signer and signatures of a manifest (rows 5 and 6 of R152). -/
def signerFault (s : State) (m : List Byte) : State × Option Nat :=
  if !s.signerOk m then (s, some Reason.SIGNER_UNKNOWN)
  else
    let r := acceptSigs s.ruleBoth (mfMldsaOk m) (mfEcdsaOk m)
    (s.recordSigs r.2.1 r.2.2, if r.1 then none else some Reason.SIGNATURE)

/-- Try one stored candidate whose manifest passed the format checks (R152, R156, R157): verified, it lies in SRAM. -/
def tryStored (s : State) (source slot ch base : Nat) : State × Bool :=
  let m := s.flashBytes ch 0 base manifestLen
  let r := s.signerFault m
  match r.2 with
  | some c => (r.1.attempt source slot c, false)
  | none =>
    let leaves := r.1.flashBytes ch 0 (base + 0x2000) (48 * mfBlocks m)
    let img := r.1.flashBytes ch 0 (base + 0x10000) (4096 * mfBlocks m)
    match contentFault m leaves img with
    | some c => ((r.1.sramClear (mfLoad m) (loadedLen m leaves img)).attempt source slot c, false)
    | none =>
      let s := (r.1.sramStore (mfLoad m) img).attemptOk source slot
      ({ s with boot := { s.boot with phase := .loaded, image := some (bootImage source slot m) } }, true)

/-- S0 (R149): both manifests are read, format failures logged, the higher sequence number tried first, slot A on a tie. -/
def tryS0 (s : State) : State × Bool :=
  let a := formatFault (s.flashBytes 6 0 0 manifestLen)
  let b := formatFault (s.flashBytes 6 0 0x1000000 manifestLen)
  let s := match a with | some c => s.attempt 0 0 c | none => s
  let s := match b with | some c => s.attempt 0 1 c | none => s
  let qa := mfSequence (s.flashBytes 6 0 0 manifestLen)
  let qb := mfSequence (s.flashBytes 6 0 0x1000000 manifestLen)
  let order : List (Nat × Nat) :=
    (if a.isNone && b.isNone then (if qa < qb then [(1, 0x1000000), (0, 0)] else [(0, 0), (1, 0x1000000)])
     else if a.isNone then [(0, 0)] else if b.isNone then [(1, 0x1000000)] else [])
  match order with
  | [] => (s, false)
  | [x] => s.tryStored 0 x.1 6 x.2
  | x :: y :: _ =>
    let r := s.tryStored 0 x.1 6 x.2
    if r.2 then r else r.1.tryStored 0 y.1 6 y.2

/-- S1: the golden device firmware on FG (R147, R150). -/
def tryS1 (s : State) : State × Bool :=
  let s := s.romBringUp 7
  match formatFault (s.flashBytes 7 0 0 manifestLen) with
  | some c => (s.attempt 1 0 c, false)
  | none => s.tryStored 1 0 7 0

/-- Await (R161): every host that is not OFF is held, and ROM listens on the management port and NET0. -/
def enterAwait (s : State) : State :=
  let s := s.wr Reg.BOOT.BOOT_STATUS_AWAIT 1
  let s := s.wr Reg.GLB.MODE_DEV_RECOVERY 1
  let s := { s with boot := { s.boot with phase := .await, sources := [], push := none, gathered := [] },
                    mode := { s.mode with phase := .await } }
  s.holdAll 5

/-- Every core pair C1-C3 has reported its self-tests (R139). -/
def selftestsDone (s : State) : Bool := [1, 2, 3].all (fun c => s.rd (Reg.CORE.CORE_STATUS_STATE c) ≠ 1)

/-- Steps 2 to 5 of the hand-over (R164): the BOOT page, DEV_RECOVERY (R39), the root load, clearing, the watchdog. -/
def handOver (s : State) : State :=
  match s.boot.phase, s.boot.image with
  | .loaded, some im =>
    if !s.selftestsDone then s
    else
      let s := (s.wr Reg.BOOT.BOOT_STATUS_SOURCE im.source).wr Reg.BOOT.BOOT_STATUS_SLOT im.slot
      let s := (s.wr Reg.BOOT.SEQUENCE im.sequence).wr Reg.BOOT.IMAGE_INFO_SVN im.svn
      let s := (s.wr Reg.BOOT.IMAGE_INFO_CORE_MASK im.coreMask).wr Reg.BOOT.BOOT_STATUS_AWAIT 0
      let s := (List.range 12).foldl (fun s i => s.wr (Reg.BOOT.MEASUREMENT i) (digestWord im.digest i)) s
      let s := s.wrb Reg.GLB.MODE_DEV_RECOVERY (im.source ≠ 0)
      let s := (s.wrb Reg.BOOT.BOOT_STATUS_ROOT_WITHHELD s.rootWithheld).rootLoad
      let s := (s.sramClear 0x203F0000 0x10000).clearDge
      let s := s.wr Reg.CORE.WDT_PERIOD 1000
      { s with boot := { s.boot with phase := .handover } }
  | _, _ => s

/-- Try the sources in turn (R144, R159): a push source is waited for, the end of the list is Await; in Brace no load begins
(R158). -/
def trySources (s : State) : List Nat → State
  | [] => s.enterAwait
  | src :: rest =>
    if (src = 1 || src = 2) && s.flag Reg.PWR.STATUS_BRACE then
      { s with boot := { s.boot with phase := .paused, sources := src :: rest, push := none, gathered := [] } }
    else if src = 1 then (let r := s.tryS0; if r.2 then r.1.handOver else trySources r.1 rest)
    else if src = 2 then (let r := s.tryS1; if r.2 then r.1.handOver else trySources r.1 rest)
    else { s with boot := { s.boot with phase := .waitPush, sources := src :: rest, push := none, gathered := [] } }

/-- ROM brings FB up and tries the sources; in Brace it issues no burst (R150, R158). -/
def romSources (s : State) (l : List Nat) : State :=
  if s.brace then { s with boot := { s.boot with phase := .paused, sources := l, push := none, gathered := [] } }
  else (s.romBringUp 6).trySources l

end State

/-- The entries of a BOOT_ORDER value: codes 1-5 until a code that ends the list, repeats skipped (R144). -/
def orderEntries (o : Nat) : Nat → List Nat → List Nat
  | 0, acc => acc.reverse
  | n + 1, acc =>
    let c := o % 8
    if c = 0 || c > 5 then acc.reverse
    else orderEntries (o / 8) n (if acc.contains c then acc else c :: acc)

/-- The order of a strap value, in source codes (R144). -/
def strapOrder (b : Nat) : List Nat :=
  if b = 0 then [1, 2] else if b = 1 then [1, 3] else if b = 2 then [1, 4] else if b = 3 then [3]
  else if b = 4 then [4] else if b = 5 then [5] else if b = 6 then [2] else [1, 2, 3, 4, 5]

/-- A list of source codes in the BOOT_ORDER encoding. -/
def orderCode (l : List Nat) : Nat := l.foldr (fun c acc => c + 8 * acc) 0

namespace State

/-- The boot order in force (R143, R144). -/
def bootOrder (s : State) : List Nat :=
  if s.otp.orderLock then
    let l := orderEntries s.otp.bootOrder 5 []
    if l.isEmpty then [1, 2] else l
  else strapOrder s.boot.straps

/-- The MAC addresses that NET takes from OTP at a reset: MAC_BASE + l (chapter 13). -/
def loadMac (s : State) : State :=
  [0, 1].foldl (fun s l =>
    let m := s.otp.macBase + l
    let put (s : State) (f : Fld) (v : Nat) : State := (s.setShadow f v).setApplied f v
    put (put s (Reg.NET.MAC_LO l) m) (Reg.NET.MAC_HI l) (m / 2 ^ 32)) s

/-- ROM reads the life-cycle state, raises an open intent, and opens the debug rights that the state gives (R112, R127, R138). -/
def romState (s : State) (fresh : Bool) : State :=
  let s := s.loadMac.wr Reg.LCS.STATE s.decodeLc
  let s := if s.openIntents.isEmpty then s else s.raise pgLCS 10
  if fresh && (s.lc = lcWAFER || s.lc = lcCHARACTERISED || s.lc = lcRMA) then
    ((s.wr Reg.DBG.DBG_STATE_OPEN 1).wr Reg.DBG.DBG_STATE_ROOT_TEST 1).wr Reg.DBG.RIGHTS_ACTIVE 0x7FFF else s

/-- The Born root is generated in its two banks (R115, R117). -/
def bornRoot (s : State) : State :=
  let d := s.draw 48
  let r := genRoot s.otp.bornA s.otp.bornB (digestOf 384 d.2)
  { d.1 with otp := { s.otp with bornA := r.1, bornB := r.2.1 } }

/-- ROM reports the order and tries the sources (R142, R144, R155). -/
def romTry (s : State) : State :=
  let s := s.wrb Reg.BOOT.BOOT_STATUS_ROOT_WITHHELD s.rootWithheld
  let s := s.wrb Reg.BOOT.BOOT_STATUS_RULE_BOTH s.ruleBoth
  let s := s.wr Reg.BOOT.ORDER_USED_ORDER (orderCode s.bootOrder)
  let s := s.wrb Reg.BOOT.ORDER_USED_FROM_STRAPS (!s.otp.orderLock)
  let s := s.wr Reg.BOOT.ORDER_USED_STRAPS s.boot.straps
  s.romSources s.bootOrder

/-- ROM goes on where it waited: BORN_ROOT is generated once the CTR_DRBG serves, not in Brace (R116, R158), or passed over where the
source has failed (R254); a load that Brace paused resumes (R158). -/
def romGo (s : State) : State :=
  if s.brace then s
  else match s.boot.phase with
    | .born => if s.rngFailed then s.romTry else if s.rngServes then s.bornRoot.romTry else s
    | .paused => s.romSources s.boot.sources
    | _ => s

/-- ROM counts the boot and generates BORN_ROOT, for which it waits until the CTR_DRBG is instantiated (R115, R116, R251), then goes on. -/
def romOrder (s : State) (fresh : Bool) : State :=
  let s := if fresh then { s with nvm := { s.nvm with bootCount := min (s.nvm.bootCount + 1) 0xFFFFFFFF } } else s
  if fresh && s.lc = lcPROVISIONED && !s.bornDone then ({ s with boot := { s.boot with phase := .born } } : State).romGo else s.romTry

/-- C0's own self-test has failed (R140): the attempt, FATAL, and every host held, until the next power-on reset.  The spec names no
HOLD_CAUSE; it is RECOVERY (DESIGN CHOICE; log entry 147). -/
def romFatal (s : State) : State :=
  let s := (s.wr (Reg.CORE.CORE_STATUS_STATE 0) 4).attempt 0 0 Reason.SELFTEST_FAIL
  let s := { (s.wr Reg.BOOT.BOOT_STATUS_FATAL 1) with boot := { s.boot with phase := .fatal } }
  (List.range 6).foldl (fun s n => if s.released n then s.holdHost n hcRECOVERY else s) s

/-- What ROM does on C0 from the reset vector (R138-R144); `fresh` after a power-on reset. -/
def romBoot (s : State) (c0Ok fresh : Bool) (testEn : Bool) : State :=
  let s := s.romState fresh
  if !c0Ok then s.romFatal
  else
    let s := (s.wr (Reg.CORE.CORE_STATUS_STATE 0) 3).wr (Reg.CORE.CORE_STATUS_LOCKSTEP_OK 0) 1
    if testEn && fresh && (s.lc = lcWAFER || s.lc = lcCHARACTERISED) then { s with boot := { s.boot with phase := .testMode } }
    else if s.lc = lcSCRAP then { s with boot := { s.boot with phase := .scrap } }
    else if s.mode.sealPending then
      let s := { s with boot := { s.boot with phase := .sealing } }
      s.sealFrom 3
    else s.romOrder fresh

/-! ### Pushes (R159-R163) -/

/-- The source code of a push medium: 0 MGP is S2, 1 NET0 is S3, 2 CAN0 is S4. -/
def mediumSource (m : Nat) : Nat := m + 3

/-- ROM listens for a push on this medium (R159, R161). -/
def listens (s : State) (medium : Nat) : Bool :=
  match s.boot.phase with
  | .waitPush => s.boot.sources.head? = some (mediumSource medium)
  | .await => medium = 0 || medium = 1
  | _ => false

/-- A push fails: what it had loaded is cleared, it is recorded and discarded; while a source is waited for ROM moves on, in Await it
listens again, and pieces of a manifest from the other medium stay (R157, R162). -/
def pushFail (s : State) (medium reason : Nat) : State :=
  let s := match s.boot.push with
    | some p => s.sramClear (mfLoad p.manifest) p.image.length
    | none => s
  let s := s.attempt (mediumSource medium - 1) 0 reason
  let s := { s with boot := { s.boot with push := none, gathered := Tbl.put [] s.boot.gathered medium [] } }
  match s.boot.phase with
  | .waitPush => s.trySources s.boot.sources.tail
  | _ => s

/-- What ROM answers to a push message. -/
inductive PushAnswer where
  | ignored | accepted | busy | reason (code : Nat) | handover
  deriving DecidableEq, Repr

/-- A piece of a manifest arrives at its offset (R159, R162, R163): the first piece starts afresh, a piece out of order is refused, and
the manifest is judged when it is whole or its last piece has come. -/
def pushManifest (s : State) (medium off : Nat) (last : Bool) (data : List Byte) : State × PushAnswer :=
  if !s.listens medium then (s, .ignored)
  else match s.boot.push with
    | some _ => (s, .busy)
    | none =>
      let old := if off = 0 then [] else Tbl.get [] s.boot.gathered medium
      let m := old ++ data
      let keep (s : State) (m : List Byte) : State := { s with boot := { s.boot with gathered := Tbl.put [] s.boot.gathered medium m } }
      if off ≠ old.length then (keep s [], .reason Reason.PUSH_ABORTED)
      else if m.length < manifestLen && !last then (keep s m, .accepted)
      else
        let s := keep s []
        match (if m.length = manifestLen then formatFault m else some Reason.MANIFEST_FORMAT) with
        | some c => (s.pushFail medium c, .reason c)
        | none =>
          let r := s.signerFault m
          match r.2 with
          | some c => (r.1.pushFail medium c, .reason c)
          | none => ({ r.1 with boot := { r.1.boot with push := some ⟨medium, m, [], []⟩ } }, .accepted)

/-- Bytes of the leaf table arrive, in ascending order (R159). -/
def pushLeaves (s : State) (medium off : Nat) (data : List Byte) : State × PushAnswer :=
  match s.boot.push with
  | none => (s, .reason Reason.PUSH_ABORTED)
  | some p =>
    if p.medium ≠ medium then (s, .busy)
    else if off ≠ p.leaves.length || 48 * mfBlocks p.manifest < off + data.length then
      (s.pushFail medium Reason.PUSH_ABORTED, .reason Reason.PUSH_ABORTED)
    else
      let l := p.leaves ++ data
      if l.length = 48 * mfBlocks p.manifest && Config.sha384 l ≠ mfLeafDigest p.manifest then
        (s.pushFail medium Reason.LEAF_TABLE, .reason Reason.LEAF_TABLE)
      else ({ s with boot := { s.boot with push := some { p with leaves := l } } }, .accepted)

/-- Bytes of the image arrive, in ascending order; each block is compared once it is whole (R156, R159). -/
def pushData (s : State) (medium off : Nat) (data : List Byte) : State × PushAnswer :=
  match s.boot.push with
  | none => (s, .reason Reason.PUSH_ABORTED)
  | some p =>
    if p.medium ≠ medium then (s, .busy)
    else if p.leaves.length ≠ 48 * mfBlocks p.manifest || off ≠ p.image.length
        || 4096 * mfBlocks p.manifest < off + data.length then
      (s.pushFail medium Reason.PUSH_ABORTED, .reason Reason.PUSH_ABORTED)
    else
      let img := p.image ++ data
      if !blocksMatch img p.leaves (img.length / 4096) then
        (({ s with boot := { s.boot with push := some { p with image := img } } }).pushFail medium Reason.BLOCK_MISMATCH, .reason Reason.BLOCK_MISMATCH)
      else
        let s := s.sramStore (mfLoad p.manifest + off) data
        ({ s with boot := { s.boot with push := some { p with image := img } } }, .accepted)

/-- A push ends (R163): complete and with a matching whole-image digest it leads to the hand-over. -/
def pushEnd (s : State) (medium : Nat) : State × PushAnswer :=
  match s.boot.push with
  | none => (s, .reason Reason.PUSH_ABORTED)
  | some p =>
    if p.medium ≠ medium then (s, .busy)
    else if p.image.length ≠ 4096 * mfBlocks p.manifest then
      (s.pushFail medium Reason.PUSH_ABORTED, .reason Reason.PUSH_ABORTED)
    else if Config.sha384 p.image ≠ mfImageDigest p.manifest then
      (s.pushFail medium Reason.IMAGE_DIGEST, .reason Reason.IMAGE_DIGEST)
    else
      let s := s.attemptOk (mediumSource medium - 1) 0
      let s := { s with boot := { s.boot with
        phase := .loaded, push := none, image := some (bootImage (mediumSource medium - 1) 0 p.manifest) } }
      (s.handOver, .handover)

/-- The IDENTITY answer (R163). -/
def identityBytes (s : State) : List Byte :=
  let n := min s.boot.attempts 8
  digestBytes s.otp.serial ++ leBytes 4 0xB0 ++ leBytes 4 s.lcsStateWord ++ leBytes 4 s.bootStatusWord
  ++ leBytes 4 (if n = 0 then 0 else s.attemptWord (n - 1))

/-! ### Cores, hand-over and OTP (R145, R146, R165, R170) -/

/-- A core starts at its entry point in machine mode, x1-x31 and the PMP entries cleared, a0 its mhartid (R165). -/
def startCore (s : State) (c entry : Nat) : State :=
  let k : CoreSt := { CoreSt.reset with entry := entry, pc := entry, x := Tbl.put 0 [] 10 c }
  { (s.wr (Reg.CORE.CORE_STATUS_STATE c) 3) with cores := Tbl.put CoreSt.reset s.cores c k }

/-- RING, when it starts: only a core in WAIT or PARKED (R170). -/
def startRing (c entry : Nat) (s : State) : State :=
  let st := s.rd (Reg.CORE.CORE_STATUS_STATE c)
  if st = 2 || st = 5 then s.startCore c (entry / 2 * 2)
  else s.refuse pgCORE Reason.NOT_IN_MODE (0x50 + 4 * c)

/-- GO (R165): ROM_LOCK, the restart of C0, the doorbells of the masked cores. -/
def startGo (s : State) : State :=
  match s.boot.phase, s.boot.image with
  | .handover, some im =>
    if s.flag Reg.BOOT.ROM_LOCK then s
    else
      let s := (s.wr Reg.BOOT.ROM_LOCK 1).startCore 0 (im.entry.getD 0 0)
      let s := [1, 2, 3].foldl (fun s c =>
        let st := s.rd (Reg.CORE.CORE_STATUS_STATE c)
        if bit im.coreMask c then (if st = 2 then s.startCore c (im.entry.getD c 0) else s)
        else if st = 4 then s else s.wr (Reg.CORE.CORE_STATUS_STATE c) 5) s
      let s := s.wr Reg.BOOT.BOOT_TIME (leNat (s.freeBytes 3))
      ({ s.spend 3 with boot := { s.boot with phase := .done } }).lanesFollow
  | _, _ => s

/-- End a refused boot OTP command. -/
def otpRefuse (s : State) (code : Nat) : State := (s.refuse pgBOOT code 0xAC).cmdEnd pgBOOT 0xAC

/-- The boot OTP sequencer starts its blows; they end with OTP_DONE. -/
def otpStart (s : State) (i : Instr) (rec : List Byte) : State :=
  let s := s.cmdStart pgBOOT 0xAC i
  { s with boot := { s.boot with otpBusy := some i, otpRecord := rec } }

/-- PROGRAM_FIELDS, when it starts (R145).  The spec names no reason for a locked BOOT_ORDER, nor for a signer hash while no entry is blank:
NOT_IN_LIFECYCLE, FIELD_RANGE (DESIGN CHOICE; log entry 148). -/
def startProgramFields (addr : Nat) (s : State) : State :=
  let r := s.sramBytes addr 64
  let h := digestOf 384 (slice r 16 48)
  let fl := fieldLe r 2 1
  if (s.lc ≠ lcISSUED && s.lc ≠ lcPROVISIONED) || s.otp.orderLock then s.otpRefuse Reason.NOT_IN_LIFECYCLE
  else if !inSram addr 64 || !allZero (slice r 4 12) || fl > 1 || fieldLe r 0 2 ≥ 2 ^ 15 then s.otpRefuse Reason.FIELD_RANGE
  else if (s.otp.bootOrder ≠ 0 && s.otp.bootOrder ≠ fieldLe r 0 2) || (s.otp.sigEither && fl = 0)
      || (s.otp.pushWindow ≠ 0 && s.otp.pushWindow ≠ fieldLe r 3 1)
      || (h ≠ 0 && s.otp.fwHashA ≠ 0 && s.otp.fwHashB ≠ 0) then s.otpRefuse Reason.FIELD_RANGE
  else s.otpStart (.programFields addr) r

/-- REVOKE_A and REVOKE_B, when they start (R146): a programmed, unrevoked entry has to remain. -/
def startRevokeEntry (b : Bool) (s : State) : State :=
  let remains := if b then s.otp.fwHashA ≠ 0 && !s.otp.revokedA else s.otp.fwHashB ≠ 0 && !s.otp.revokedB
  if !s.inService then s.otpRefuse Reason.NOT_IN_LIFECYCLE
  else if !remains then s.otpRefuse Reason.FIELD_RANGE
  else s.otpStart (if b then .revokeB else .revokeA) []

/-- The blows of the running boot OTP command end (R145, R146). -/
def otpFinish (s : State) : State :=
  match s.boot.otpBusy with
  | none => s
  | some i =>
    if s.flag Reg.PWR.STATUS_BRACE then s
    else
      let r := s.boot.otpRecord
      let h := digestOf 384 (slice r 16 48)
      let o := s.otp
      let o := match i with
        | .programFields _ =>
          { o with bootOrder := fieldLe r 0 2, sigEither := fieldLe r 2 1 = 1, pushWindow := fieldLe r 3 1,
                   fwHashA := if o.fwHashA = 0 then h else o.fwHashA,
                   fwHashB := if o.fwHashA ≠ 0 && o.fwHashB = 0 then h else o.fwHashB }
        | .revokeA => { o with revokedA := true }
        | .revokeB => { o with revokedB := true }
        | _ => o
      let s := { s with otp := o, boot := { s.boot with otpBusy := none, otpRecord := [] } }
      (s.raise pgBOOT 8).cmdEnd pgBOOT 0xAC

end State

/-- C1-C3 report their self-tests (R139, R140); the hand-over that waited for them goes on (R164). -/
def execCoreSelftestDone (c : Fin 4) (lockstep mbist : Bool) (s : State) : Host.Outcome State Fault Refusal :=
  .next (if s.up && c.val ≠ 0 && s.rd (Reg.CORE.CORE_STATUS_STATE c) = 1 then
    let s := (s.wrb (Reg.CORE.CORE_STATUS_LOCKSTEP_OK c) lockstep).wrb (Reg.CORE.CORE_STATUS_MBIST_OK c) mbist
    (s.wr (Reg.CORE.CORE_STATUS_STATE c) (if lockstep && mbist then 2 else 4)).handOver
  else s)

/-- No manifest came within PUSH_WINDOW (R159). -/
def execPushWindowExpiry (s : State) : Host.Outcome State Fault Refusal :=
  .next (match s.boot.phase, s.boot.push, s.boot.sources with
    | .waitPush, none, src :: rest =>
      let s := { s with boot := { s.boot with gathered := [] } }
      (s.attempt (src - 1) 0 Reason.SOURCE_ABSENT).trySources rest
    | _, _, _ => s)

/-- A push paused for more than 1 s (R162). -/
def execPushTimeout (s : State) : Host.Outcome State Fault Refusal :=
  .next (match s.boot.push with
    | some p => s.pushFail p.medium Reason.PUSH_ABORTED
    | none => s)

/-- GO (R165). -/
def execGo (s : State) : Host.Outcome State Fault Refusal := .next (s.issue pgBOOT 0xA4 .go State.startGo)

/-- PROGRAM_FIELDS (R145): BOOT.OTP_CMD with OP 1. -/
def execProgramFields (addr : Nat) (s : State) : Host.Outcome State Fault Refusal :=
  .next (s.issue pgBOOT 0xAC (.programFields addr) (State.startProgramFields addr))

/-- REVOKE_A (R146): OP 2. -/
def execRevokeA (s : State) : Host.Outcome State Fault Refusal :=
  .next (s.issue pgBOOT 0xAC .revokeA (State.startRevokeEntry false))

/-- REVOKE_B (R146): OP 3. -/
def execRevokeB (s : State) : Host.Outcome State Fault Refusal :=
  .next (s.issue pgBOOT 0xAC .revokeB (State.startRevokeEntry true))

/-- OTP_DONE (R145): the blows end; in Brace none is made (R158). -/
def execOtpDone (s : State) : Host.Outcome State Fault Refusal := .next s.otpFinish

/-- RING (R170). -/
def execRing (c : Fin 4) (entry : Nat) (s : State) : Host.Outcome State Fault Refusal :=
  .next (s.issue pgCORE (0x50 + 4 * c.val) (.ring c entry) (State.startRing c entry))

end Sys2Proof.Machine
end

