-- ==== Sys2Proof/Machine/Links.lean ====
section
/-! DEFINITION. What arrives: MAC frames (R374-R384), CAN frames (R392-R395), mailbox messages and page requests (R399-R403), image
frames for ROM (R391), and whole messages of a session. -/

namespace Sys2Proof.Machine

namespace State

/-! ### ROM's image frames (R391, R392) -/

/-- The status of a push answer: ACCEPTED, BUSY, or the reason on the BOOT page. -/
def answerStatus : PushAnswer → Option Nat
  | .ignored => none
  | .accepted => some 0
  | .handover => some 0
  | .busy => some (mgStatus mgBUSY)
  | .reason c => some (pgBOOT * 256 + c)

/-- Whether a push is under way. -/
def pushing (s : State) : Bool := s.boot.push.isSome

/-- Brace holds back a message of a push, whose check needs the engines (R158). -/
def holdRom (s : State) (h : RomHeld) : State := { s with boot := { s.boot with held := s.boot.held ++ [h] } }

/-- An image chunk for ROM: its part judged, the answer a LINK_ACK with a status; on CAN to the peer of the first accepted manifest. -/
def romChunk (s : State) (medium peer seq : Nat) (c : ImageChunk) : State :=
  if c.reserved ≠ 0 || 1960 < c.data.length then s
  else if s.brace then s.holdRom (.chunk medium peer seq c)
  else
    let r : State × PushAnswer :=
      if c.part = 1 then s.pushManifest medium c.offset false c.data
      else if c.part = 2 then (if s.listens medium then s.pushLeaves medium c.offset c.data else (s, .ignored))
      else if c.part = 3 then (if s.listens medium then s.pushData medium c.offset c.data else (s, .ignored))
      else if c.part = 4 && c.data.isEmpty then (if s.listens medium then s.pushEnd medium else (s, .ignored))
      else (s, .ignored)
    let s' := if medium = 2 && !s.pushing && r.1.pushing && s.boot.canPeer.isNone then
        { r.1 with boot := { r.1.boot with canPeer := some peer } } else r.1
    match answerStatus r.2 with
    | none => s'
    | some st =>
      let dest := if medium = 2 then s'.boot.canPeer.getD peer else peer
      s'.sendOn (if medium = 2 then 2 else 0) dest (stxHeader ftLINK_ACK 0 false seq 2 ++ leBytes 2 st)

/-- A frame for ROM: only IMAGE_CHUNK with session 0 is accepted. -/
def romFrame (s : State) (medium peer : Nat) (f : List Byte) : State :=
  let n := fieldLe f 8 2
  let p := slice f 16 n
  if f.length < 16 + n || fieldLe f 0 1 ≠ 1 || fieldLe f 1 1 ≠ ftIMAGE_CHUNK || fieldLe f 2 2 ≠ 0 || n < 8 || 1968 < n
      || !allZero (slice f 10 6) then s
  else s.romChunk medium peer (fieldLe f 4 4) ⟨peer, fieldLe p 0 1, fieldLe p 1 3, fieldLe p 4 4, p.drop 8⟩

/-! ### MAC frames (R374-R384) -/

/-- A frame for firmware, as it stands without its tags; a full queue drops it. -/
def fwFrame (s : State) (l : Nat) (f : EthFrame) (etype : Nat) (payload : List Byte) : State :=
  let v := s.lane l
  if s.romRuns || 32 ≤ v.rxq.length then s.bump (Reg.NET.RX_DROP l)
  else (s.setLane l { v with rxq := v.rxq ++ [beBytes 6 f.dst ++ beBytes 6 f.src ++ beBytes 2 etype ++ payload] }).raise pgNET 12

/-- An accepted frame goes where its EtherType says (R375, R377, R391). -/
def routeFrame (s : State) (l : Nat) (f : EthFrame) (etype : Nat) (payload : List Byte) : State :=
  if etype = s.cfg Reg.NET.STX_ETYPE then
    (if s.romRuns then s.romFrame 1 f.src payload
     else if s.carriers.contains l then (s.stxFrame l f.src payload).sealGo
     else s.bump (Reg.NET.RX_DROP l))
  else s.fwFrame l f etype payload

/-- The packet number of a received frame: its 32 bits, or under XPN those above the lowest acceptable number. -/
def rxPn (s : State) (x pn : Nat) : Nat :=
  if s.scXpn (saSc x) then
    let low := s.nextPn x
    let hi := low / 2 ^ 32
    (if bit low 31 && !bit pn 31 then hi + 1 else hi) * 2 ^ 32 + pn % 2 ^ 32
  else pn % 2 ^ 32

/-- MACsec on receive (R380): the SA of the SecTAG, replay protection, the tag, and the lowest acceptable number. -/
def rxSecure (s : State) (l : Nat) (f : EthFrame) (t : SecTag) : State :=
  let sc := 2 * l + 1
  let x := 8 * l + 4 + t.an.val
  let a := s.sa x
  if s.brace then s.bump (Reg.NET.RX_DROP l)
  else if !s.scOn sc || t.sci ≠ s.sci sc || !a.enabled then s.bump (Reg.MSEC.NO_SA sc)
  else
    let pn := s.rxPn x t.pn
    if s.cfgb (Reg.MSEC.SC_CTRL_REPLAY_PROTECT sc) && decide (pn < s.nextPn x) then s.bump (Reg.MSEC.LATE sc)
    else
      let conf := s.cfgb (Reg.MSEC.SC_CTRL_CONF sc)
      let head := beBytes 6 f.dst ++ beBytes 6 f.src ++ secTag conf t.an t.data.length pn t.sci
      let parts := macsecParts conf head t.data
      let iv := macsecIv (s.scXpn sc) a t.sci pn
      if Config.gcmTag a.key iv parts.1 parts.2 ≠ t.icv then s.bump (Reg.MSEC.NOT_VALID sc)
      else
        let s := (s.bump (Reg.MSEC.OK sc)).setPn x (max (s.nextPn x) (pn + 1 - s.cfg (Reg.MSEC.REPLAY_WINDOW sc)))
        let plain := if conf then aesOut 3 true a.key iv t.data else t.data
        s.routeFrame l f (beNat (plain.take 2)) (plain.drop 2)

/-- A MAC frame arrives on a lane that has its link (R374, R375). -/
def frameIn (s : State) (l : Nat) (f : EthFrame) : State :=
  let fec := s.cfgb (Reg.NET.LANE_CTRL_FEC_EN l)
  if !s.laneOn l || !s.linkUp l then s
  else
    let s := if fec then s.bumpBy (Reg.NET.FEC_CORR l) f.fecCorr else s
    if fec && f.fecBad then s.bump (Reg.NET.FEC_UNCORR l)
    else if !f.fcsOk then s.bump (Reg.NET.FCS_ERR l)
    else if f.len < 64 || 2048 < f.len || (f.dst ≠ s.laneMac l && f.dst ≠ 2 ^ 48 - 1) then s.bump (Reg.NET.RX_DROP l)
    else
      let s := s.bump (Reg.NET.RX_FRAMES l)
      match f.sec with
      | some t => s.rxSecure l f t
      | none =>
        if s.cfgb Reg.NET.MODE_REQUIRE_MACSEC && f.etype ≠ 0x888E then s.bump (Reg.NET.RX_DROP l)
        else s.routeFrame l f f.etype f.payload

/-! ### CAN frames (R392-R395) -/

/-- A flow control to a peer. -/
def sendFlow (s : State) (p peer st : Nat) : State :=
  s.canPut p [s.tpFrame p peer (leBytes 1 (0x30 + st) ++ leBytes 1 (s.cfg (Reg.CAN.TP_ADDR_BS p)) ++ leBytes 1 (s.cfg (Reg.CAN.TP_ADDR_STMIN p)))]

/-- A whole message from a peer: for ROM, or an STX frame. -/
def canMessage (s : State) (p peer : Nat) (m : List Byte) : State :=
  if s.romCan p then s.romFrame 2 peer m else (s.stxFrame (2 + p) peer m).sealGo

/-- A single frame: its length in the first byte, or in the second where that is 0. -/
def tpSingle (s : State) (p peer : Nat) (d : List Byte) : State :=
  let n := fieldLe d 0 1 % 16
  let m := if n = 0 then slice d 2 (fieldLe d 1 1) else slice d 1 n
  let want := if n = 0 then fieldLe d 1 1 else n
  if want = 0 || m.length < want then s
  else
    let v := s.can p
    (s.setCan p { v with rx := v.rx.filter (fun r => r.peer ≠ peer) }).canMessage p peer m

/-- A first frame: more than 1,984 B is answered with overflow; at most 16 messages are reassembled. -/
def tpFirst (s : State) (p peer : Nat) (d : List Byte) : State :=
  let n := fieldLe d 0 1 % 16 * 256 + fieldLe d 1 1
  let rx := (s.can p).rx.filter (fun r => r.peer ≠ peer)
  if n = 0 || 1984 < n then s.sendFlow p peer 2
  else if n < 8 || 16 ≤ rx.length then s
  else
    let t : TpRx := ⟨peer, n, d.drop 2, 1, s.cfg (Reg.CAN.TP_ADDR_BS p)⟩
    (s.setCan p { s.can p with rx := rx ++ [t] }).sendFlow p peer 0

/-- A consecutive frame: out of order it ends the message; the last delivers it; after a block a flow control goes out. -/
def tpNextFrame (s : State) (p peer : Nat) (d : List Byte) : State :=
  let v := s.can p
  match v.rx.find? (fun r => r.peer = peer) with
  | none => s
  | some t =>
    let others := v.rx.filter (fun r => r.peer ≠ peer)
    let data := t.data ++ d.drop 1
    if fieldLe d 0 1 % 16 ≠ t.sn % 16 then s.setCan p { v with rx := others }
    else if t.len ≤ data.length then (s.setCan p { v with rx := others }).canMessage p peer (data.take t.len)
    else
      let bs := s.cfg (Reg.CAN.TP_ADDR_BS p)
      let wait := decide (bs ≠ 0) && t.left = 1
      let s := s.setCan p { v with rx := others ++ [{ t with data := data, sn := t.sn + 1, left := if wait then bs else t.left - 1 }] }
      if wait then s.sendFlow p peer 0 else s

/-- A frame of the STX space addressed to the port (R394). -/
def tpIn (s : State) (p peer : Nat) (d : List Byte) : State :=
  let k := fieldLe d 0 1 / 16
  if d.isEmpty then s
  else if k = 0 then s.tpSingle p peer d
  else if k = 1 then s.tpFirst p peer d
  else if k = 2 then s.tpNextFrame p peer d
  else if k = 3 then s.tpFlow p peer (fieldLe d 0 1 % 16) (fieldLe d 1 1)
  else s

/-- The first filter of a port that is on and matches an identifier (R395): where it sends the frame. -/
def canDest (s : State) (p id : Nat) : Nat :=
  match (List.range 8).find? (fun f => s.cfg (Reg.CAN.FILTER_ID_DEST (8 * p + f)) ≠ 0
      && Nat.land (Nat.xor id (s.cfg (Reg.CAN.FILTER_ID_ID (8 * p + f)))) (s.cfg (Reg.CAN.FILTER_MASK (8 * p + f))) = 0) with
  | some f => s.cfg (Reg.CAN.FILTER_ID_DEST (8 * p + f))
  | none => 0

/-- A CAN frame arrives (R394, R395). -/
def canIn (s : State) (p : Nat) (f : CanFrame) : State :=
  if !s.canUp p || 64 < f.data.length then s
  else
    let s := s.bump (Reg.CAN.RX_FRAMES p)
    if f.extended && f.id / 2 ^ 16 = s.cfg (Reg.CAN.TP_BASE_RX_BASE p) && f.id / 256 % 256 = s.cfg (Reg.CAN.TP_ADDR_OWN p) then
      s.tpIn p (f.id % 256) f.data
    else if s.stxSpace p f.extended f.id then s
    else if s.canDest p f.id = 1 then
      (if 64 ≤ (s.can p).fwq.length then s
       else (s.setCan p { s.can p with fwq := (s.can p).fwq ++ [f] }).raise pgCAN 10)
    else if s.canDest p f.id = 2 then s.wheelFrame f.data
    else s

/-! ### The mailbox (R163, R399-R402) -/

/-- A framing failure, or a code that nobody serves. -/
def mgpFrameError (s : State) (reason : Nat) : State := (s.raise pgMGP 9).mgpReject reason

/-- From a device warm reset until ATTACH (R402). -/
def beforeAttach (s : State) : Bool := s.mode.afterWarm && !s.mode.attached

/-- LEASE (R402). -/
def mgpLease (s : State) : State :=
  let p := s.mbPayload
  let n := fieldLe p 0 1
  let d := fieldLe p 2 2
  if s.beforeAttach then s.mgpReject mgNOT_READY
  else if p.length ≠ 4 then s.mgpFrameError mgFRAME_FORMAT
  else if 5 < n || fieldLe p 1 1 ≠ 0 || 1000 < d then s.mgpReject Reason.FIELD_RANGE
  else if s.sharing n ≠ 1 then s.mgpReject mgNOT_LEASED
  else (s.leaseOp n d).mgpRespond 0 []

/-- MILESTONE (R402). -/
def mgpMilestone (s : State) : State :=
  let p := s.mbPayload
  let n := fieldLe p 0 1
  if p.length ≠ 4 then s.mgpFrameError mgFRAME_FORMAT
  else if 5 < n || fieldLe p 1 1 ≠ 0 || fieldLe p 2 2 = 0 then s.mgpReject Reason.FIELD_RANGE
  else (s.okMilestone n).mgpRespond 0 []

/-- A CLOSE handed to the host counts as acknowledged: the mailbox delivers reliably (R388). -/
def closeTaken (s : State) (f : List Byte) : State :=
  let i := fieldLe f 2 2 % 4096
  let c := s.sess i
  if fieldLe f 1 1 = ftCLOSE && c.state = ssCLOSING && c.medium = 4 && c.closing = fieldLe f 4 4 then s.toIdle i 0 else s

/-- STX_FRAME (R401): one frame in, one queued frame out. -/
def mgpStx (s : State) : State :=
  let p := s.mbPayload
  let s := if p.isEmpty then s else s.stxFrame 4 0 p
  match s.mgp.stxOut with
  | [] => (s.mgpRespond 0 []).sealGo
  | f :: fs => ((({ s with mgp := { s.mgp with stxOut := fs } }).closeTaken f).mgpRespond 0 f).sealGo

/-- LEDGER_INPUT (R401, R402, R469). -/
def mgpLedger (s : State) : State :=
  if s.beforeAttach then s.mgpReject mgNOT_READY
  else
    let r := s.ledgerTake (s.cfgb Reg.LEDG.CONFIG_INPUT_MGP) s.mbPayload
    match r.2 with
    | some c => r.1.mgpRespond (pgLEDG * 256 + c) []
    | none => r.1.mgpRespond 0 []

/-- The answer to a push message; one that ROM does not wait for is BUSY. -/
def mgpPush (r : State × PushAnswer) : State := r.1.mgpRespond ((answerStatus r.2).getD (mgStatus mgBUSY)) []

/-- IDENTITY (R163). -/
def mgpIdentity (s : State) : State := if s.mbLen ≠ 0 then s.mgpFrameError mgFRAME_FORMAT else s.mgpRespond 0 s.identityBytes

/-- A message for ROM (R163); in Brace one that has something checked waits in the mailbox (R158). -/
def romMessage (s : State) (code : Nat) (more : Bool) : State :=
  let p := s.mbPayload
  if code = 1 then s.mgpIdentity
  else if s.brace && ((code = 2 && !more) || (!more && 3 ≤ code && code ≤ 5)) then s.holdRom .mailbox
  else if code = 2 then mgpPush (s.pushManifest 0 s.mbOff (!more) p)
  else if more || code = 0 || 5 < code then s.mgpFrameError mgFRAME_FORMAT
  else if code = 5 then (if p.isEmpty then mgpPush (s.pushEnd 0) else s.mgpFrameError mgFRAME_FORMAT)
  else if p.length < 4 || 3588 < p.length then s.mgpFrameError mgFRAME_FORMAT
  else if code = 3 then mgpPush (s.pushLeaves 0 (fieldLe p 0 4) (p.drop 4))
  else mgpPush (s.pushData 0 (fieldLe p 0 4) (p.drop 4))

/-- Brace exit: the messages of a push that waited are served in order (R158). -/
def pushResume (s : State) : State :=
  s.boot.held.foldl (fun s h => match h with
    | .mailbox => s.romMessage s.mbCode (bit s.mbFlags 0)
    | .chunk medium peer seq c => s.romChunk medium peer seq c) { s with boot := { s.boot with held := [] } }

/-- A message of a hardware-handled code (R401): one fragment. -/
def hwMessage (s : State) (code : Nat) (more : Bool) : State :=
  let s := s.bump Reg.MGP.HW_MSG_COUNT
  if more || s.mbOff ≠ 0 then s.mgpFrameError mgFRAME_FORMAT
  else if code = 0x80 then s.mgpLease
  else if code = 0x81 then s.mgpMilestone
  else if code = 0x82 then s.mgpStx
  else s.mgpLedger

/-- Who serves a message (R163, R401). -/
def routeMessage (s : State) : State :=
  let code := s.mbCode
  let more := bit s.mbFlags 0
  if s.boot.phase = BootPhase.scrap || s.boot.phase = BootPhase.fatal then
    (if code = 1 then s.mgpIdentity else s.mgpReject Reason.NOT_IN_LIFECYCLE)
  else if 0x84 ≤ code then s.mgpFrameError mgFRAME_FORMAT
  else if 0x80 ≤ code then s.hwMessage code more
  else if s.romRuns then s.romMessage code more
  else if code = 0 then s.mgpFrameError mgFRAME_FORMAT
  else (s.wr Reg.MGP.STATUS_SUBMITTED 1).raise pgMGP 8

/-- SUBMIT (R399, R400): the device takes the mailbox, checks the message and serves it. -/
def mgpSubmit (s : State) : State :=
  if s.mgpOwns then s
  else
    let s := ((s.wr Reg.MGP.STATUS_OWNER 1).wr Reg.MGP.STATUS_RESET_SEEN 0).bump Reg.MGP.MSG_COUNT
    let s := { s with mgp := { s.mgp with response := false, code := s.mbCode, tag := s.mbTag } }
    let s := ((s.wr Reg.MGP.MSG_INFO_CODE s.mbCode).wr Reg.MGP.MSG_INFO_FLAGS s.mbFlags).wr Reg.MGP.MSG_INFO_LENGTH s.mbLen
    match s.mbFault with
    | some r => (if r = mgFRAME_CRC then s.bump Reg.MGP.CRC_ERR_COUNT else s).mgpFrameError r
    | none => s.routeMessage

/-- The host writes a message and submits it. -/
def hostMessage (s : State) (code flags off : Nat) (payload : List Byte) : State :=
  if s.mgpUp then (s.mgpWrite 0 (mboxFrame code flags 0 0 off payload)).mgpSubmit else s

/-- A message longer than the payload limit goes as fragments (R400). -/
def hostFragments (code : Nat) : Nat → List (List Byte) → State → State
  | _, [], s => s
  | off, [p], s => s.hostMessage code 0 off p
  | off, p :: ps, s => hostFragments code (off + p.length) ps (s.hostMessage code 1 off p)

/-! ### Page requests (R403) -/

/-- The page is visible to the management port. -/
def mgpSees (s : State) (p : Nat) : Bool :=
  if p < 32 then bit (s.cfg Reg.HSV.MGP_VIEW_LO) p else p < pageCount && bit (s.cfg Reg.HSV.MGP_VIEW_HI) (p - 32)

/-- How a page request ends: ready or error, and the 64 bytes of the buffer. -/
def pageReqEnds (s : State) (ok : Bool) (bs : List Byte) : State :=
  { s with mgp := { s.mgp with req := none, rdReady := ok, rdErr := !ok, rdbuf := bs ++ List.replicate (64 - bs.length) 0 } }

/-- A page request completes, is denied, or is aborted because a host holds CS# low (R403). -/
def pageReqFinish (s : State) : State :=
  match s.mgp.req with
  | none => s
  | some (p, off, n) =>
    let offs := (List.range n).map (fun i => off + 4 * i)
    if !s.mgpSees p || n = 0 || 16 < n || off % 4 ≠ 0 || 0x800 < off + 4 * n then (s.refuse pgMGP mgVIEW_DENIED 0).pageReqEnds false []
    else if offs.any (fun o => match s.crossDom p o with | some d => decide (d < 6) && s.csLow d | none => false) then
      ((s.wr (Hdr.STALL_ABORT p) 1).raise p 1).pageReqEnds false []
    else (s.bump Reg.MGP.PAGE_READ_COUNT).pageReqEnds true (offs.flatMap (fun o => leBytes 4 (s.pageWord p o)))

end State

/-- FRAME_RECEIVED (R374). -/
def execFrameReceived (l : Fin 2) (f : EthFrame) (s : State) : Host.Outcome State Fault Refusal := .next (s.frameIn l f)

/-- CAN_FRAME_RECEIVED (R395). -/
def execCanFrameReceived (p : Fin 2) (f : CanFrame) (s : State) : Host.Outcome State Fault Refusal := .next (s.canIn p f)

/-- ROM_IMAGE_CHUNK (R391, R392): a chunk that ROM receives; its sequence number is ignored and reads 0 in the answer. -/
def execRomImageChunk (port : PushPort) (chunk : ImageChunk) (s : State) : Host.Outcome State Fault Refusal :=
  .next (match port with
    | .net0 => if s.romRuns && s.laneOn 0 then s.romChunk 1 chunk.peer 0 chunk else s
    | .can0 => if s.up && s.romCan 0 then s.romChunk 2 chunk.peer 0 chunk else s)

/-- SUBMIT (R399). -/
def execSubmit (s : State) : Host.Outcome State Fault Refusal := .next (if s.mgpUp then s.mgpSubmit else s)

/-- IDENTITY (R163): code 0x01. -/
def execIdentity (s : State) : Host.Outcome State Fault Refusal := .next (s.hostMessage 0x01 0 0 [])

/-- PUSH_MANIFEST (R163): code 0x02, in fragments. -/
def execPushManifest (data : List Byte) (s : State) : Host.Outcome State Fault Refusal :=
  .next (State.hostFragments 0x02 0 (if data.isEmpty then [[]] else chunks 4080 data.length data) s)

/-- PUSH_LEAVES (R163): code 0x03. -/
def execPushLeaves (off : Nat) (data : List Byte) (s : State) : Host.Outcome State Fault Refusal :=
  .next (s.hostMessage 0x03 0 0 (leBytes 4 off ++ data))

/-- PUSH_DATA (R163): code 0x04. -/
def execPushData (off : Nat) (data : List Byte) (s : State) : Host.Outcome State Fault Refusal :=
  .next (s.hostMessage 0x04 0 0 (leBytes 4 off ++ data))

/-- PUSH_END (R163): code 0x05. -/
def execPushEnd (s : State) : Host.Outcome State Fault Refusal := .next (s.hostMessage 0x05 0 0 [])

/-- LEASE (R279, R402): code 0x80. -/
def execLease (n dur : Nat) (s : State) : Host.Outcome State Fault Refusal :=
  .next (s.hostMessage 0x80 0 0 (leBytes 1 n ++ [0] ++ leBytes 2 dur))

/-- MILESTONE (R402): code 0x81. -/
def execMilestone (data : List Byte) (s : State) : Host.Outcome State Fault Refusal := .next (s.hostMessage 0x81 0 0 data)

/-- STX_FRAME (R401): code 0x82. -/
def execStxFrame (data : List Byte) (s : State) : Host.Outcome State Fault Refusal := .next (s.hostMessage 0x82 0 0 data)

/-- LEDGER_INPUT (R469): code 0x83. -/
def execLedgerInput (data : List Byte) (s : State) : Host.Outcome State Fault Refusal := .next (s.hostMessage 0x83 0 0 data)

/-- PAGE_REQ (R403). -/
def execPageReq (page off count : Nat) (s : State) : Host.Outcome State Fault Refusal :=
  .next (if s.mgpUp && s.mgp.req.isNone then
    { s with mgp := { s.mgp with req := some (page, off, count), rdReady := false, rdErr := false } } else s)

/-- PAGE_REQ_DONE (R403). -/
def execPageReqDone (s : State) : Host.Outcome State Fault Refusal := .next (if s.mgpUp then s.pageReqFinish else s)

/-- RETX_TIMEOUT (R388). -/
def execRetxTimeout (session : Nat) (s : State) : Host.Outcome State Fault Refusal := .next (s.retransmit session).sealGo

/-- SESSION_TIMEOUT (R424). -/
def execSessionTimeout (session : Nat) (s : State) : Host.Outcome State Fault Refusal := .next (s.sessTimeout session).sealGo

/-- HELLO_REPLY (R413). -/
def execHelloReply (m : StxMessage) (s : State) : Host.Outcome State Fault Refusal := .next (s.wholeMessage m ftHELLO_REPLY).sealGo

/-- HANDSHAKE_KEYS_DONE (R415). -/
def execHandshakeKeysDone (session : Nat) (s : State) : Host.Outcome State Fault Refusal :=
  .next (if s.keysDue session then (s.keysDone session).sealGo else s)

/-- KEY_CONFIRM (R418). -/
def execKeyConfirm (m : StxMessage) (s : State) : Host.Outcome State Fault Refusal := .next (s.wholeMessage m ftKEY_CONFIRM).sealGo

/-- CLOSE (R423). -/
def execClose (m : StxMessage) (s : State) : Host.Outcome State Fault Refusal := .next (s.wholeMessage m ftCLOSE).sealGo

/-- QUOTE (R432). -/
def execQuote (m : StxMessage) (s : State) : Host.Outcome State Fault Refusal := .next (s.wholeMessage m ftQUOTE).sealGo

end Sys2Proof.Machine
end

