-- ==== Sys2Proof/Machine/Debug.lean ====
section
/-! DEFINITION. Debug grants (R125-R137) and the test access port (R518, R519). -/

namespace Sys2Proof.Machine

/-! ### Grants -/

/-- Length of a grant (R125). -/
def grantLen : Nat := 5537

/-- Magic, version and reserved fields of a grant (R125). -/
def grantFormatOk (g : List Byte) : Bool :=
  g.length = grantLen && slice g 0 4 = [0x53, 0x59, 0x47, 0x52] && fieldLe g 4 2 = 1 && allZero (slice g 6 2)
  && allZero (slice g 0x19 3) && allZero (slice g 0x49 7) && allZero (slice g 0x851 3)

/-- The grant's rights mask and whether a right is in it (R130). -/
def grantRights (g : List Byte) : Nat := fieldLe g 0x1C 4
def rightIn (rights b : Nat) : Bool := bit rights b

/-- The bits of R130 that are named below. -/
def rightBSCAN : Nat := 0
def rightCLEAR_TAMPER : Nat := 10
def rightRESUME : Nat := 11
def rightHOST_HOLD : Nat := 12
def rightLAY_UP : Nat := 14

/-- The mask holds an opening right: CORE_HALT, TRACE, PAGE_READ, PAGE_WRITE or KVT_META, bits 1 to 8 (R130). -/
def opensRoot (rights : Nat) : Bool := bits rights 8 1 ≠ 0

namespace State

/-- The state accepts grants (R100, R102): ISSUED, PROVISIONED, FIELD, and RESUME_TRANSITION in INVALID. -/
def acceptsGrants (s : State) : Bool :=
  s.lc = lcISSUED || s.lc = lcPROVISIONED || s.lc = lcFIELD || s.lc = lcINVALID

/-- The authority a grant needs in this state (R128). -/
def grantAuthority (s : State) : Nat :=
  if s.lc = lcISSUED then 1 else if s.lc = lcINVALID then (if s.otp.custHash = 0 then 1 else 2) else 2

/-- The first failing condition of R128.  INVALID has no bit among the permitted states, so there only the state itself
is judged (log entry 22). -/
def grantFault (s : State) (g : List Byte) : Option Nat :=
  if !grantFormatOk g then some Reason.FIELD_RANGE
  else if !s.acceptsGrants || !(s.lc = lcINVALID || bit (fieldLe g 0x18 1) s.lc) then some Reason.GRANT_STATE
  else if fieldLe g 0x48 1 ≠ s.grantAuthority
      || keysHash g 0x50 ≠ (if fieldLe g 0x48 1 = 1 then s.otp.icaendiHash else s.otp.custHash) then some Reason.GRANT_AUTHORITY
  else if !bothSigsOk g 0x50 0x854 then some Reason.GRANT_SIGNATURE
  else if digestOf 128 (slice g 8 16) ≠ s.otp.serial
      && !(digestOf 128 (slice g 8 16) = 0 && (s.lc = lcISSUED || s.lc = lcPROVISIONED)) then some Reason.GRANT_SERIAL
  else if s.dbg.challenge ≠ some (digestOf 128 (slice g 0x38 16)) then some Reason.GRANT_CHALLENGE
  else if s.nvm.bootCount < fieldLe g 0x20 4 || fieldLe g 0x24 4 < s.nvm.bootCount then some Reason.BOOT_WINDOW
  else if s.time.mrt < fieldLe g 0x28 8 || fieldLe g 0x30 8 < s.time.mrt then some Reason.MRT_WINDOW
  else if grantRights g / 2 ^ 15 ≠ 0 || grantRights g = 0
      || (s.lc = lcINVALID && grantRights g ≠ 2 ^ rightRESUME) then some Reason.GRANT_RIGHTS
  else none

/-- Hold a challenge (R126), or discard it. -/
def setChallenge (s : State) (c : Option (BitVec 128)) : State :=
  let s := { s with dbg := { s.dbg with challenge := c } }
  let s := s.wrb Reg.DBG.GRANT_STATUS_CHALLENGE_VALID c.isSome
  (List.range 4).foldl (fun s i => s.wr (Reg.DBG.CHALLENGE i) (digestWord (c.getD 0) i)) s

/-- Draw a challenge from the CTR_DRBG (R126), refused while the source is FAILED (R253); before it is instantiated the command waits
(R251). -/
def drawChallenge (s : State) : State :=
  if s.rngFailed then (s.wr (Hdr.REASON_CODE pgDBG) rngUNAVAILABLE).wr (Hdr.REASON_OFFSET pgDBG) 0x48
  else if !s.rngServes then s.setCmdSlot pgDBG 0x48 { s.cmdSlot pgDBG 0x48 with queued := some .dbgChallenge }
  else
    let d := s.draw 16
    d.1.setChallenge (some (digestOf 128 d.2))

/-- End a refused grant: reason on DBG, event, security log (R128, R135). -/
def grantRefuse (s : State) (code : Nat) (d : BitVec 384) : State :=
  ((((s.refuse pgDBG code 0x48).raise pgDBG 9).secLog .grantRefused code d).wr Reg.DBG.GRANT_STATUS_BUSY 0).cmdEnd pgDBG 0x48

/-- Add the rights of an accepted grant (R129), end the command, and log it (R135). -/
def grantAdd (s : State) (rights : Nat) (d : BitVec 384) : State :=
  let s := s.wr Reg.DBG.RIGHTS_ACTIVE (s.rd Reg.DBG.RIGHTS_ACTIVE ||| rights)
  let s := s.wr Reg.DBG.DBG_STATE_GRANT_ACTIVE 1
  let s := if rightIn rights rightLAY_UP then { s with mode := { s.mode with layUp := true } } else s
  let s := (List.range 12).foldl (fun s i => s.wr (Reg.DBG.GRANT_DIGEST i) (digestWord d i)) s
  ((((s.raise pgDBG 8).secLog .grantAccepted 0 d).wr Reg.DBG.GRANT_STATUS_BUSY 0).cmdEnd pgDBG 0x48)

/-- CLEAR_TAMPER clears both latches and releases the device root (R130, R132, R500). -/
def applyClearTamper (s : State) (rights : Nat) : State :=
  if rightIn rights rightCLEAR_TAMPER then s.clearTamper.releaseRoot.ledgerCheck else s

/-- Steps 3 to 6 of the opening order (R132): recording stops, keys are zeroised, the root is switched, rights added. -/
def openingFinish (s : State) : State :=
  match s.dbg.opening with
  | none => s
  | some d =>
    let rights := s.dbg.openRights
    let s := { s with dbg := { s.dbg with opening := none, openRights := 0 } }
    let s := s.stopRecording.wr Reg.DBG.DBG_STATE_LEDGER_STOPPED 1
    let s := s.zeroiseEpoch
    let s := ((s.wr Reg.DBG.DBG_STATE_ROOT_TEST 1).wr Reg.DBG.DBG_STATE_OPEN 1).raise pgDBG 10
    let s := s.rootLoad.ledgerCheck
    s.grantAdd rights d

/-- The opening order goes on once its record is on FB (R132). -/
def openingResume (s : State) : State :=
  if s.debugOnFb then (s.setLedger { s.ledger with debugIn := false }).openingFinish else s

/-- Judge a grant and apply it or start its opening order (R128, R132-R134).  A presentation uses up the challenge. -/
def presentGrant (g : List Byte) (i : Option Instr) (s : State) : State :=
  let d := Config.sha384 g
  let fault := if s.lcs.busy then some Reason.CONFLICT_WITH_PAGE else s.grantFault g
  let s := s.setChallenge none
  match fault with
  | some r => s.grantRefuse r d
  | none =>
    let rights := grantRights g
    if opensRoot rights && !s.flag Reg.DBG.DBG_STATE_OPEN && s.lc ≠ lcINVALID then
      if (s.lc = lcFIELD && !s.active pgLEDG) || (s.rootWithheld && !rightIn rights rightCLEAR_TAMPER) then
        s.grantRefuse Reason.DEBUG_OPEN_FAILED d
      else
        let s := s.applyClearTamper rights
        let s := { s with dbg := { s.dbg with opening := some d, openRights := rights } }
        if s.active pgLEDG then
          let s := (s.wr Reg.DBG.GRANT_STATUS_BUSY 1).ledgerDebugOpen d rights
          match i with
          | some i => s.cmdStart pgDBG 0x48 i
          | none => s
        else s.openingFinish
    else (s.applyClearTamper rights).grantAdd rights d

/-- A grant lies in the internal buffer (R137): it is judged as soon as the PKE is free for class K2 (log entry 131), in Brace, where the
PKE verifies nothing (R255), after Brace exit. -/
def grantTake (g : List Byte) (i : Option Instr) (s : State) : State :=
  let s := { s with dbg := { s.dbg with grantBuf := g } }
  if s.pkeFree 2 then s.presentGrant g i
  else
    let s := s.wr Reg.DBG.GRANT_STATUS_BUSY 1
    let s := match i with
      | some i => s.cmdStart pgDBG 0x48 i
      | none => s
    s.awaitPke .grant 2 fwIssuer

/-- The PKE is free for the grant that waits: it is judged. -/
def grantResume (s : State) : State :=
  if s.flag Reg.DBG.GRANT_STATUS_BUSY && s.dbg.opening.isNone then
    let i := (s.cmdSlot pgDBG 0x48).running
    ((s.cmdEnd pgDBG 0x48).wr Reg.DBG.GRANT_STATUS_BUSY 0).presentGrant s.dbg.grantBuf i
  else s

/-- PRESENT, when it starts: the grant is read from SRAM into the internal buffer (R137); it waits while the logic judges one that the
TAP loaded (R72).  Of a range outside SRAM there is no digest to log, which the spec leaves open: 0 is logged, and the challenge is kept
(DESIGN CHOICE; log entry 145). -/
def startPresent (addr : Nat) (s : State) : State :=
  if s.flag Reg.DBG.GRANT_STATUS_BUSY then s.setCmdSlot pgDBG 0x48 { s.cmdSlot pgDBG 0x48 with queued := some (.present addr) }
  else if !inSram addr grantLen then s.grantRefuse Reason.FIELD_RANGE 0
  else s.grantTake (s.sramBytes addr grantLen) (some (.present addr))

/-- REVOKE clears RIGHTS_ACTIVE; the root switch stays (R129). -/
def startRevoke (s : State) : State := s.wr Reg.DBG.RIGHTS_ACTIVE 0

/-- The debug port needs the main domain and the VDDIO_GEN rail (R512). -/
def tapUp (s : State) : Bool := s.up && s.power.ioGen

/-- Select a TAP instruction: `code` where its condition holds, else the bypass register (R518). -/
def tapSelect (s : State) (code : Nat) (ok : Bool) : State :=
  { s with tap := { s.tap with ir := code, selected := if ok then code else 0xFF } }

/-- A right is active (R129, R131). -/
def right (s : State) (b : Nat) : Bool := bit (s.rd Reg.DBG.RIGHTS_ACTIVE) b

end State

/-- CHALLENGE (R126): a write of DBG.GRANT_CMD with OP 1. -/
def execDbgChallenge (s : State) : Host.Outcome State Fault Refusal :=
  .next (s.issue pgDBG 0x48 .dbgChallenge State.drawChallenge)

/-- PRESENT (R128): OP 2. -/
def execPresent (addr : Nat) (s : State) : Host.Outcome State Fault Refusal :=
  .next (s.issue pgDBG 0x48 (.present addr) (State.startPresent addr))

/-- REVOKE (R129): OP 3. -/
def execRevoke (s : State) : Host.Outcome State Fault Refusal :=
  .next (s.issue pgDBG 0x48 .revoke State.startRevoke)

/-- The DEBUG_OPEN record was not committed within COMMIT_MAX (R133): the grant is refused and steps 3 to 6 do not happen. -/
def execDebugOpenFailed (s : State) : Host.Outcome State Fault Refusal :=
  .next (match s.dbg.opening with
    | none => s
    | some d =>
      if s.debugOnFb then s
      else
      let s := { s with dbg := { s.dbg with opening := none, openRights := 0 } }
      s.grantRefuse Reason.DEBUG_OPEN_FAILED d)

/-- EXTEST (R518): boundary scan while JTAG_BSCAN is active, else bypass. -/
def execExtest (s : State) : Host.Outcome State Fault Refusal :=
  .next (if s.tapUp then s.tapSelect 0x00 (s.right rightBSCAN) else s)

/-- IDCODE (R519): selects the register that reads 0xB940_0A6B. -/
def execIdcode (s : State) : Host.Outcome State Fault Refusal :=
  .next (if s.tapUp then
    let s := s.tapSelect 0x01 true
    { s with tap := { s.tap with dr := 0xB9400A6B } } else s)

/-- SAMPLE/PRELOAD (R518): while JTAG_BSCAN is active, else bypass. -/
def execSamplePreload (s : State) : Host.Outcome State Fault Refusal :=
  .next (if s.tapUp then s.tapSelect 0x02 (s.right rightBSCAN) else s)

/-- CHALLENGE on the TAP (R126, R518): every state except SCRAP. -/
def execTapChallenge (s : State) : Host.Outcome State Fault Refusal :=
  .next (if s.tapUp then
    let s := s.tapSelect 0x10 (s.lc ≠ lcSCRAP)
    if s.lc ≠ lcSCRAP then s.drawChallenge else s else s)

/-- GRANT_LOAD (R137, R518): a grant shifted into the internal buffer and judged by the same rules as PRESENT. -/
def execGrantLoad (grant : List Byte) (s : State) : Host.Outcome State Fault Refusal :=
  .next (if s.tapUp then
    let s := s.tapSelect 0x11 s.acceptsGrants
    if s.acceptsGrants then
      if s.flag Reg.DBG.GRANT_STATUS_BUSY then
        ((s.refuse pgDBG Reason.CONFLICT_WITH_PAGE 0x48).raise pgDBG 9).secLog .grantRefused Reason.CONFLICT_WITH_PAGE (Config.sha384 grant)
      else s.grantTake (grant.take 6144) none
    else s else s)

/-- BYPASS, or a code without an instruction (R518). -/
def execBypass (code : Nat) (s : State) : Host.Outcome State Fault Refusal :=
  .next (if s.tapUp then s.tapSelect code false else s)

/-- RESUME from the TAP (R112, R130, R518): while RESUME_TRANSITION is active.  A token that comes while a TRANSITION_CMD command runs is
dropped (DESIGN CHOICE; log entry 144). -/
def execTapResume (token : List Byte) (s : State) : Host.Outcome State Fault Refusal :=
  .next (if s.tapUp then
    let s := s.tapSelect 0x14 (s.right rightRESUME)
    if s.right rightRESUME then
      if s.cmdRuns pgLCS 0x5C then s else s.resumeWith token (.tapResume token)
    else s else s)

end Sys2Proof.Machine
end

