-- ==== Sys2Proof/Machine/Service.lean ====
section
/-! DEFINITION. What waits goes on (R255, R356, R507; log entry 131), and the end of a service: of a channel (R356, R358), of a re-read
(R352), of an engine for its users, and of a commit block's program (R459). -/

namespace Sys2Proof.Machine

namespace State

/-- The device's own work that has been granted the PKE is done there, and the next request is chosen. -/
def jobStep (s : State) : State :=
  if s.brace then s
  else match (s.sched 2).running with
    | some r =>
      match r.kind with
      | .job j =>
        let t := s.setSched 2 { s.sched 2 with running := none }
        (match j with
          | .lcs => t.lcsGranted
          | .grant => t.grantResume
          | .time => t.timeGranted
          | .ledger => t.ledgGranted
          | .att => t.attGranted
          | .stx => t.stxGranted
          | .held => t.releaseHeld
          | .host h => t.hostGo h).pumpPke
      | _ => s
    | none => s

/-- What waits for an engine, for the CTR_DRBG or for Brace exit goes on wherever it can: the vault, work on the PKE, staging and hosts,
messages of sessions, a SEAL_OP, what depends on withdrawn slots, ROM and SEAL. -/
def goOn (s : State) : State :=
  if !s.up then s
  else
    let s := (List.range 8).foldl (fun s _ => s.jobStep) s.vaultGo
    let s := if s.brace then s else s.hostsGo.releaseHeld
    s.sealKick.settle.romGo.sealGo

/-- Brace exit (R507): every block goes on with what waited. -/
def resumeAfterBrace (s : State) : State :=
  let s := s.lcsContinue.saveContinue.stageResume.resumeChannels
  let s := (s.pumpLane 0).pumpLane 1
  let s := s.timeResume.ledgResume.fuseResume
  let s := if s.ledger.journal.isEmpty then s else s.commitStart
  s.freezeStep.goOn

/-- What the service of a request gives its issuer; INIT and a commit block have rows of their own. -/
def servedBy (s : State) (c : Nat) (r : Req) (corrupt : Bool) : State :=
  match r.kind with
  | .fwRead => s.fwServed c r corrupt
  | .fwProgram => s.fwServed c r corrupt
  | .fwErase => s.fwServed c r corrupt
  | .gate => s.gateServed r.issuer r corrupt
  | .sweep => s.sweepBurst r.issuer r corrupt
  | .stageSweep => if r.addr = 0 then s.sweepServed r.issuer r corrupt else s.commitServed r.issuer r corrupt
  | .restore => s.restoreServed c r.issuer r corrupt
  | .hostRead => s.hostReadServed r.issuer r corrupt
  | .measure => s.measureServed r.issuer r corrupt
  | .readPage => s.readPageServed r corrupt
  | .ledger => s.ringErased (r.addr - 1)
  | _ => s

/-- A burst, a page program or an erase of channel `c` ends and the next service is chosen; in step 1 of SEAL a request of K3 to K5
that had more to do is dropped (R56). -/
def serviceDone (s : State) (c : Nat) (corrupt : Bool) : State :=
  match (s.sched (chanRes c)).running with
  | none => s
  | some r =>
    if decide (r.kind = ReqKind.init) || (decide (r.kind = ReqKind.ledger) && r.addr = 0) then s
    else
      let s := (s.serviceEnd c).servedBy c r corrupt
      s.goOn.pumpCh c

/-- A request reads the device, so that a missing strobe can fault it. -/
def reqReads (c : Nat) (r : Req) : Bool :=
  match r.kind with
  | .fwRead => true
  | .gate => true
  | .sweep => true
  | .stageSweep => true
  | .restore => c = 7
  | .hostRead => true
  | .measure => true
  | .readPage => true
  | _ => false

/-- READ_FAIL reaches the issuer of a request (R352). -/
def readFailTo (s : State) (c : Nat) (r : Req) : State :=
  match r.kind with
  | .fwRead => (s.refuse (pgFCH c) 0x40 fchCmdOff).fchDone c
  | .gate => s.hostFailed r.issuer hvREAD_FAIL
  | .sweep => s.hostFailed r.issuer hvREAD_FAIL
  | .stageSweep => s.stageReadFail r.issuer r
  | .restore => s.restoreFail r.issuer
  | .hostRead => s.readFail r.issuer hvREAD_FAIL
  | .measure => s.measureEnd r.issuer false
  | .readPage =>
    let s := (s.wr (Hdr.REASON_CODE pgLEDG) (pgFCH c * 256 + 0x40)).wr (Hdr.REASON_OFFSET pgLEDG) ledgCmdOff
    s.cmdEnd pgLEDG ledgCmdOff
  | _ => s

/-- No strobe transition arrives in time: the burst is read again up to three times, then READ_FAIL (R352). -/
def strobeMissed (s : State) (c : Nat) : State :=
  if s.cfg (Reg.FCH.PROFILE_PROTOCOL c) < 2 then s
  else match (s.sched (chanRes c)).running with
  | some r =>
    if !reqReads c r then s
    else if (s.chan c).retries < 3 then
      (s.setChan c { s.chan c with retries := (s.chan c).retries + 1 }).bump (Reg.FCH.RETRY_COUNT c)
    else (((s.serviceEnd c).readFailed c).readFailTo c r).goOn.pumpCh c
  | none =>
    match (s.port c).live with
    | some l =>
      match l.touch with
      | some t =>
        if !(s.chan c).k1Run then s
        else if t.retries < 3 then (s.openTxn c { l with touch := some { t with retries := t.retries + 1 } }).bump (Reg.FCH.RETRY_COUNT c)
        else s.touchFail c hvREAD_FAIL
      | none => s
    | none => s

/-- The PKE ends what it runs: firmware's operation, a sequencer's check of an image, a quote's check; then what waits for it goes on.  The
keys of a session end with HANDSHAKE_KEYS_DONE; in Brace it stops (R255). -/
def pkeEnds (s : State) : State :=
  if s.brace then s
  else
  let s := if s.pke.run.isSome then s.pkeFinish
    else match (s.sched 2).running with
      | some r =>
        let t := s.setSched 2 { s.sched 2 with running := none }
        if r.kind = .gate then t.gateSigned r.issuer else if r.kind = .quote then t.quoteServed (r.issuer - 1000) else s
      | none => s
  s.pumpPke.goOn

/-- A commit block is on FB (R459): the next one, the opening order of a debug grant, FREEZE and SEAL go on; Brace defers
them. -/
def commitDone (s : State) : State :=
  match (s.sched (chanRes 6)).running with
  | some r =>
    if r.kind ≠ .ledger || r.addr ≠ 0 then s
    else
      let s := (s.serviceEnd 6).blockWritten
      let s := if s.brace then s.setLedger { s.ledger with committing := false } else s.nextBlock
      let s := if s.brace then s else s.openingResume
      (s.freezeStep.sealGo).pumpCh 6
  | none => s

/-- The CTR_DRBG is instantiated (R251): it starts its count afresh, the mask stall ends (R194), a RESTART is done (R253), and what waited
for it goes on. -/
def rngReady (s : State) : State :=
  let s := (s.wr Reg.RNG.STATUS_STATE 1).wr Reg.RNG.STATUS_READY 1
  let s := (s.wr Reg.KVT.STATUS_MASK_STALL 0).cmdEnd pgRNG 0x44
  ({ s with rng := ⟨0, 0⟩ } : State).goOn

end State

/-- AES_DONE (R240): a part of RUN, a WRAP or an UNWRAP ends. -/
def execAesDone (e : Fin 2) (s : State) : Host.Outcome State Fault Refusal := .next (s.aesEnd e).goOn

/-- AES_ABORT (R72): CMD[e] with OP 15. -/
def execAesAbort (e : Fin 2) (s : State) : Host.Outcome State Fault Refusal := .next (if s.up then (s.aesAbort e).goOn else s)

/-- RNG_READY (R251): the start-up test has passed and the CTR_DRBG is instantiated. -/
def execRngReady (s : State) : Host.Outcome State Fault Refusal :=
  .next (if s.up && s.rd Reg.RNG.STATUS_STATE = 0 then s.rngReady else s)

/-- CHANNEL_SERVICE_DONE (R356, R358). -/
def execChannelServiceDone (ch : Fin 8) (corrupt : Bool) (s : State) : Host.Outcome State Fault Refusal := .next (s.serviceDone ch corrupt)

/-- STROBE_WAIT_EXPIRY (R352). -/
def execStrobeWaitExpiry (ch : Fin 8) (s : State) : Host.Outcome State Fault Refusal := .next (s.strobeMissed ch)

/-- PKE_DONE (R244-R249). -/
def execPkeDone (s : State) : Host.Outcome State Fault Refusal := .next s.pkeEnds

/-- LEDGER_COMMIT_DONE (R459). -/
def execLedgerCommitDone (s : State) : Host.Outcome State Fault Refusal := .next s.commitDone

end Sys2Proof.Machine
end

