-- ==== Sys2Proof/Machine/Power.lean ====
section
/-! DEFINITION. Supplies, resets and Brace (chapters 02, 05, 16), and the end of a transition, which asks for a reset. -/

namespace Sys2Proof.Machine

namespace State

/-- A power-on reset of the main domain (R17, R41): everything of the main domain takes its reset value, port policy is
cleared, every host that is not OFF becomes HELD, and the reset stays asserted until R482 holds. -/
def mainPor (s : State) (cause : Nat) : State :=
  let s := s.mainLost
  let s := { s with power := { s.power with mainOn := true, mainReset := true, nextCause := cause },
                    mode := { s.mode with phase := .wake } }
  s.holdAll 0

/-- A device warm reset (R16, R42-R47): CLK_SYS resets, ports and host outputs stay, the device is detached, ROM runs, unless C0 has failed
its self-test since the last power-on reset (R140). -/
def warmReset (s : State) (cause : Nat) (c0Ok : Bool) : State :=
  if !s.up then s
  else
    let n := s.rd Reg.GLB.WARM_COUNT
    let fatal : Bool := s.boot.phase = BootPhase.fatal
    let s := s.clkLost
    let s := { s with mode := { s.mode with phase := .wake, attached := false, afterWarm := true, appliedPages := [], reattach := true } }
    let s := (s.wr Reg.GLB.WARM_COUNT (min (n + 1) 0xFFFF)).wr Reg.GLB.MODE_LAST_RESET cause
    let s := s.warmHosts
    if fatal then (s.romState false).romFatal else s.romBoot c0Ok false false

/-- An always-on reset (R504, R47, R54): every domain resets, every host is OFF, MRT restarts and TIME_GAP is set. -/
def aonReset (s : State) : State :=
  let s := s.aonLost
  let s := { s with power := { s.power with aon := .reset, mainOn := true, mainReset := true, nextCause := 0 } }
  let s := s.seedLoopsCold
  if s.otp.lossTamper then s.setTamper 3 0xFF else s

/-- The conditions of R482, as the state shows them. -/
def releaseOk (s : State) : Bool :=
  s.power.mainOn && s.power.mainReset && s.power.core = Level.ok && s.power.aon = Level.ok && s.power.ioFlash && s.power.ioGen
  && !s.power.pwrWarn && !s.flag Reg.PWR.STATUS_BRACE

/-- The main-domain reset is released (R482): causes, straps, the enclosure latch of a SHELF (R501), the wake that Clove's import
starts from (R472), then ROM. -/
def mainRelease (s : State) (pins : BootPins) : State :=
  let cause := s.power.nextCause
  let s := s.wr Reg.GLB.MODE_LAST_RESET cause
  let s := { s with power := { s.power with mainReset := false },
                    boot := { s.boot with straps := pins.bootSel.val } }
  let s := if s.power.enclInShelf then
      let s := s.setTamper 2 0xFF
      let s := s.cloveLog 0xFF 5 6 (s.rd Reg.CLOV.PULSE_ACCUM)
      { s with power := { s.power with enclInShelf := false } } else s
  let s := if s.power.fromVigil then
      { s with power := { s.power with wake := some (s.time.mrt, s.rd Reg.CLOV.PULSE_ACCUM) } } else s
  s.romBoot pins.c0Ok true pins.testEn

/-- Brace entry shows the sequencers that defer: a transition or an opening order, and a SAVE (R121, R205). -/
def braceDefers (s : State) : State :=
  let s := if s.lcs.busy || s.dbg.opening.isSome then s.wr Reg.LCS.TRANSITION_STATUS_DEFERRED 1 else s
  if (s.cmdSlot pgKVT 0x44).running = some .save then s.wr Reg.KVT.PERSIST_STATUS_DEFERRED 1 else s

/-- Step 4 of a transition ends: CLOSED is programmed and a power-on reset of the main domain follows (R107, R109). -/
def transitionFinish (s : State) : State :=
  if s.lcs.busy && !s.lcs.deferred && !s.flag Reg.PWR.STATUS_BRACE then
    let c := s.lcs.slot
    let s := s.secLog .transition 0 s.lcs.digest
    let s := { s with nvm := { s.nvm with intents := Tbl.put Intent.blank s.nvm.intents c { s.intent c with closed := 0 } } }
    (s.raise pgLCS 8).mainPor 1
  else s

end State

/-- ALWAYS_ON_RESET (R504). -/
def execAlwaysOnReset (s : State) : Host.Outcome State Fault Refusal := .next s.aonReset

/-- VDD_AON_RISE (R481): the always-on domain leaves reset with its reset values. -/
def execVddAonRise (s : State) : Host.Outcome State Fault Refusal :=
  .next { s with power := { s.power with aon := .ok } }

/-- POWER_ON_RESET (R17): while the main domain is switched on, it resets and stays in reset until R482 holds. -/
def execPowerOnReset (s : State) : Host.Outcome State Fault Refusal :=
  .next (if s.power.mainOn then s.mainPor (if s.power.mainReset then s.power.nextCause else 1) else s)

/-- MAIN_RESET_RELEASE (R482): once its conditions have held, ROM starts. -/
def execMainResetRelease (pins : BootPins) (s : State) : Host.Outcome State Fault Refusal :=
  .next (if s.releaseOk then s.mainRelease pins else s)

/-- LOCKSTEP_MISMATCH (R44): a device warm reset with LAST_RESET 4. -/
def execLockstepMismatch (_pair : Fin 4) (c0Ok : Bool) (s : State) : Host.Outcome State Fault Refusal :=
  .next (s.warmReset 4 c0Ok)

/-- WARM (R44): CORE.FAULT_CMD, a device warm reset with LAST_RESET 5. -/
def execWarm (c0Ok : Bool) (s : State) : Host.Outcome State Fault Refusal :=
  .next (s.issue pgCORE 0x68 (.warm c0Ok) (fun s => s.warmReset 5 c0Ok))

/-- WATCHDOG_EXPIRY (R171): a device warm reset with LAST_RESET 6; a period of 0 is off. -/
def execWatchdogExpiry (c0Ok : Bool) (s : State) : Host.Outcome State Fault Refusal :=
  .next (if s.rd Reg.CORE.WDT_PERIOD = 0 then s else s.warmReset 6 c0Ok)

/-- WDT_KICK (R171): the watchdog period starts again. -/
def execWdtKick (s : State) : Host.Outcome State Fault Refusal :=
  .next (s.issue pgCORE 0x64 .wdtKick (fun s => { s with wdtStart := s.time.mrt }))

/-- VDD_CORE_VRESET (R34, R559): with VDD_AON valid the device enters VIGIL; in SHELF and VIGIL the loss is remembered. -/
def execVddCoreVreset (s : State) : Host.Outcome State Fault Refusal :=
  .next (let s := { s with power := { s.power with core := .reset, torn := true } }
    if s.power.aon = Level.reset then s
    else if s.mode.phase = Phase.shelf || s.mode.phase = Phase.vigil then s
    else (s.mainLost.holdAll 0).vigilEntry)

/-- VDD_CORE_RISE (R53): a fresh rise leaves SHELF or VIGIL through a power-on reset. -/
def execVddCoreRise (s : State) : Host.Outcome State Fault Refusal :=
  .next (if s.power.core = Level.reset then
    let s := { s with power := { s.power with core := .ok } }
    if s.mode.phase = Phase.shelf then
      ((s.mainPor 3).wr Reg.AON.POWER_STATUS_PWR_EN 1).startGap
    else if s.mode.phase = Phase.vigil then
      let cause := if s.power.wakePending.isSome then 2 else 1
      let s := { s with power := { s.power with wakePending := none } }
      (s.mainPor cause).wr Reg.AON.POWER_STATUS_PWR_EN 1
    else s
  else s)

/-- BRACE_ENTER (R505): a supply crosses VWARN or PWR_WARN_N falls; the first trigger enters Brace.  In SHELF only the VDD_CORE detector
is powered (R52), and there is no Brace. -/
def execBraceEnter (src : WarnSource) (s : State) : Host.Outcome State Fault Refusal :=
  .next (if s.mode.phase = Phase.shelf then
      (if src = .core && s.power.core ≠ Level.reset then { s with power := { s.power with core := Level.warn } } else s)
    else
    let s := match src with
      | .core => ({ s with power := { s.power with core := if s.power.core = Level.reset then Level.reset else Level.warn } }).wr Reg.PWR.STATUS_CORE_WARN 1
      | .aon => ({ s with power := { s.power with aon := if s.power.aon = Level.reset then Level.reset else Level.warn } }).wr Reg.PWR.STATUS_AON_WARN 1
      | .pwrWarn => ({ s with power := { s.power with pwrWarn := true } }).wr Reg.PWR.STATUS_PWR_WARN 1
    if s.flag Reg.PWR.STATUS_BRACE then s
    else
      let s := { s with power := { s.power with torn := false } }
      ((s.wr Reg.PWR.STATUS_BRACE 1).bump Reg.PWR.BRACE_COUNT).raise pgPWR 8 |>.braceChannels.braceDefers)

/-- BRACE_EXIT (R507): the exit conditions have held; every block goes on, and a ride without a reset is counted. -/
def execBraceExit (us : Nat) (s : State) : Host.Outcome State Fault Refusal :=
  .next (if s.flag Reg.PWR.STATUS_BRACE && s.power.core ≠ Level.reset && s.power.aon ≠ Level.reset then
    let s := { s with power := { s.power with core := .ok, aon := .ok, pwrWarn := false } }
    let s := (((s.wr Reg.PWR.STATUS_BRACE 0).wr Reg.PWR.STATUS_BRACE_LONG 0).wr Reg.PWR.STATUS_CORE_WARN 0).wr Reg.PWR.STATUS_AON_WARN 0
    let s := (s.wr Reg.PWR.STATUS_PWR_WARN 0).raise pgPWR 9
    let s := if s.power.torn then s else (s.bump Reg.PWR.BROWNOUT_RIDE).peak Reg.PWR.BRACE_MAX_SEEN us
    s.resumeAfterBrace.openingResume.pushResume
  else s)

/-- BRACE_LONG (R508): raised once when Brace has lasted BRACE_LONG_MS. -/
def execBraceLong (s : State) : Host.Outcome State Fault Refusal :=
  .next (if s.flag Reg.PWR.STATUS_BRACE && !s.flag Reg.PWR.STATUS_BRACE_LONG then
    (s.wr Reg.PWR.STATUS_BRACE_LONG 1).raise pgPWR 11 else s)

/-- GLITCH (R510): counted; with the main domain on also recorded, logged and reacted to.  In SHELF no glitch detector is powered
(R52). -/
def execGlitch (core aon : Bool) (s : State) : Host.Outcome State Fault Refusal :=
  .next (if s.mode.phase = Phase.shelf then s else
    let s := s.bump Reg.PWR.GLITCH_COUNT
    if s.power.mainOn then
      let s := ((s.wr Reg.PWR.GLITCH_LAST (b2n core + 2 * b2n aon)).raise pgPWR 10).secLog .glitch 0 0
      if s.cfgb Reg.PWR.GLITCH_CTRL then s.mainPor 1 else s
    else s)

/-- ENCL_OPEN (R501): the enclosure latch, and outside SHELF the tamper latch at once. -/
def execEnclOpen (s : State) : Host.Outcome State Fault Refusal :=
  .next (if s.power.aon ≠ Level.reset && s.cfgb Reg.AON.TAMPER_CFG then
    let s := s.wr Reg.AON.TAMPER_ENCL_LATCH 1
    if s.mode.phase = Phase.shelf then { s with power := { s.power with enclInShelf := true } }
    else s.setTamper 2 0xFF
  else s)

/-- VDDIO_DETECT (R515): a rail crosses its level; a host port without supply sees CS# high. -/
def execVddioDetect (rail : IoRail) (above : Bool) (s : State) : Host.Outcome State Fault Refusal :=
  .next (match rail with
    | .host n =>
      let s := { s with power := { s.power with ioHost := Tbl.put true s.power.ioHost n.val above } }
      if above then s else s.portCsRise n.val
    | .flash => { s with power := { s.power with ioFlash := above } }
    | .gen => { s with power := { s.power with ioGen := above } })

/-- TRANSITION_DONE (R109). -/
def execTransitionDone (s : State) : Host.Outcome State Fault Refusal := .next s.transitionFinish

end Sys2Proof.Machine
end

