-- ==== Sys2Proof/Machine/Commands.lean ====
section
/-! DEFINITION. The command registers as one table (R72): the register and the start of every command, and the command that a written
word spells; the start of a queued command. -/

namespace Sys2Proof.Machine

/-- The command register of a command, its page and offset, and what the command does when it starts. -/
def cmdLow : Instr → Option (Nat × Nat × (State → State))
  | .attach => some (pgGLB, modeCmdOff, State.startAttach)
  | .seal => some (pgGLB, modeCmdOff, State.startSeal false)
  | .sealToShelf => some (pgGLB, modeCmdOff, State.startSeal true)
  | .updateStrobe g => some (pgGLB, strobeOff, State.startStrobe g)
  | .crcCommit v => some (pgGLB, crcCommitOff, State.startCrcCommit v)
  | .apply a => some (pgLCS, 0x5C, State.startApply a)
  | .resume a => some (pgLCS, 0x5C, State.startResume a)
  | .lcsProgramAuth a => some (pgLCS, 0x5C, State.startProgramAuth a)
  | .dbgChallenge => some (pgDBG, 0x48, State.drawChallenge)
  | .present a => some (pgDBG, 0x48, State.startPresent a)
  | .revoke => some (pgDBG, 0x48, State.startRevoke)
  | .go => some (pgBOOT, 0xA4, State.startGo)
  | .programFields a => some (pgBOOT, 0xAC, State.startProgramFields a)
  | .revokeA => some (pgBOOT, 0xAC, State.startRevokeEntry false)
  | .revokeB => some (pgBOOT, 0xAC, State.startRevokeEntry true)
  | .ring c e => some (pgCORE, 0x50 + 4 * c.val, State.startRing c e)
  | .wdtKick => some (pgCORE, 0x64, fun s => { s with wdtStart := s.time.mrt })
  | .warm c => some (pgCORE, 0x68, fun s => s.warmReset 5 c)
  | .programFuse => some (pgPWR, 0x60, State.startProgramFuse)
  | .fetch a => some (pgMGP, mgpCmdOff, State.startFetch a)
  | .reply a => some (pgMGP, mgpCmdOff, State.startReply a)
  | .doorbell => some (pgMGP, mgpCmdOff, fun s => s.wr Reg.MGP.STATUS_INT_PENDING 1)
  | .stageOpen n => some (pgPOL n, stageOff, State.startStageOpen n)
  | .stageArm n a => some (pgPOL n, stageOff, State.startStageArm n a)
  | .sweep n => some (pgPOL n, stageOff, State.startSweep n)
  | .commit n a => some (pgPOL n, stageOff, State.startCommit n a)
  | .fchRead c a => some (pgFCH c, fchCmdOff, State.startFch c 0 a (.fchRead c a))
  | .fchProgram c a => some (pgFCH c, fchCmdOff, State.startFch c 1 a (.fchProgram c a))
  | .fchErase c a => some (pgFCH c, fchCmdOff, State.startFch c 2 a (.fchErase c a))
  | .init c a => some (pgFCH c, fchCmdOff, State.startInit c a)
  | .reload h => some (pgESC, escCmdOff, State.startReload h (.reload h))
  | .hostVerify h => some (pgHSV, hostCmdOff, State.startVerify h)
  | .quarantine h => some (pgHSV, hostCmdOff, State.startQuarantine h)
  | .hold h => some (pgHSV, hostCmdOff, State.startHold h)
  | .mend h => some (pgHSV, hostCmdOff, State.startMend h)
  | .enroll h sl => some (pgHSV, hostCmdOff, State.startEnroll h sl (.enroll h sl))
  | .ok h => some (pgHSV, hostCmdOff, fun s => s.okMilestone h)
  | .cmpRun a => some (pgCMP, 0x44, State.startCmp a)
  | _ => none

/-- The same for engines, network, sessions, time, ledger and Clove. -/
def cmdHigh : Instr → Option (Nat × Nat × (State → State))
  | .dgeRun n a => some (pgDGE n, 0x44, State.startDgeRun n a)
  | .leaves n a => some (pgDGE n, 0x44, State.startLeaves n a)
  | .snpArm u a => some (pgSNP, 0x4C + 0x40 * u.val, State.startSnpArm u a)
  | .snpDisarm u => some (pgSNP, 0x4C + 0x40 * u.val, State.startSnpDisarm u)
  | .define a => some (pgKVT, 0x44, State.startDefine a)
  | .chain a => some (pgKVT, 0x44, State.startChain a)
  | .invalidate a => some (pgKVT, 0x44, State.startInvalidate a)
  | .save => some (pgKVT, 0x44, State.startSaveRestore .save)
  | .restore => some (pgKVT, 0x44, State.startSaveRestore .restore)
  | .readMeta a => some (pgKVT, 0x44, State.startReadMeta a)
  | .aesRun e a => some (pgAES, State.aesCmdOff e, State.fwAesRun e a)
  | .wrap e a => some (pgAES, State.aesCmdOff e, State.startWrapUnwrap e a true)
  | .unwrap e a => some (pgAES, State.aesCmdOff e, State.startWrapUnwrap e a false)
  | .loadRef e u sl => some (pgAES, State.dkrCmdOff e, State.startLoadRef e u sl)
  | .loadKey e u => some (pgAES, State.dkrCmdOff e, State.startLoadKey e u)
  | .dkrClear e => some (pgAES, State.dkrCmdOff e, State.startDkrClear e)
  | .verify a => some (pgPKE, 0x44, State.startPke 1 a (.verify a))
  | .sign a => some (pgPKE, 0x44, State.startPke 2 a (.sign a))
  | .genkey a => some (pgPKE, 0x44, State.startPke 3 a (.genkey a))
  | .ecdh a => some (pgPKE, 0x44, State.startPke 4 a (.ecdh a))
  | .pkeClear a => some (pgPKE, 0x44, State.startPke 5 a (.pkeClear a))
  | .gen a => some (pgRNG, 0x44, State.startGen a)
  | .restart => some (pgRNG, 0x44, State.startRestart)
  | .timeChallenge => some (pgTIME, timeCmdOff, State.startTimeChallenge)
  | .timeApply a => some (pgTIME, timeCmdOff, State.startTimeApply a)
  | .timeProgramAuth a => some (pgTIME, timeCmdOff, State.startTimeProgramAuth a)
  | .freeze => some (pgLEDG, ledgCmdOff, State.startFreeze)
  | .thaw => some (pgLEDG, ledgCmdOff, State.startThaw)
  | .ledgInput a => some (pgLEDG, ledgCmdOff, State.startLedgInput a)
  | .readPage a => some (pgLEDG, ledgCmdOff, State.startReadPage a)
  | .exportChallenge => some (pgLEDG, ledgCmdOff, State.startExportChallenge)
  | .exportAck a => some (pgLEDG, ledgCmdOff, State.startExportAck a)
  | .setOdometer a => some (pgLEDG, ledgCmdOff, State.startSetOdometer a)
  | .netSend a => some (pgNET, 0x50, State.startNetSend a)
  | .netRecv a => some (pgNET, 0x50, State.startNetRecv a)
  | .saLoadRef x u sl => some (pgMSEC, 0x140, State.startSaLoadRef x u sl)
  | .saLoadKey x u => some (pgMSEC, 0x140, State.startSaLoadKey x u)
  | .saClear x => some (pgMSEC, 0x140, State.startSaClear x)
  | .enable x => some (pgMSEC, 0x140, State.startEnable x)
  | .disable x => some (pgMSEC, 0x140, State.startSaDisable x)
  | .setTxAn x => some (pgMSEC, 0x140, State.startSetTxAn x)
  | .canSend p a => some (pgCAN, 0x140, State.startCanSend p a)
  | .canRecv p a => some (pgCAN, 0x140, State.startCanRecv p a)
  | .recover p => some (pgCAN, 0x140, State.startRecover p)
  | .stxOpen a => some (pgSTX, 0x50, State.startStxOpen a)
  | .stxSend a => some (pgSTX, 0x50, State.startStxSend a)
  | .stxRecv a => some (pgSTX, 0x50, State.startStxRecv a)
  | .stxClose a => some (pgSTX, 0x50, State.startStxClose a)
  | .readCtx a => some (pgSTX, 0x50, State.startReadCtx a)
  | .attIdentity a => some (pgATT, attCmdOff, State.startAttIdentity a)
  | .lockRmt => some (pgATT, attCmdOff, State.startLockRmt)
  | .unlockRmt => some (pgATT, attCmdOff, State.startUnlockRmt)
  | .round a => some (pgATT, attCmdOff, State.startRound a)
  | .sealOp a => some (pgATT, attCmdOff, State.startSealOp a)
  | .verdicts a => some (pgATT, attCmdOff, State.startVerdicts a)
  | .discard => some (pgCLOV, 0x78, State.startDiscard)
  | .aonSetTamper => some (pgAON, 0x48, fun s => s.setTamper 4 0xFF)
  | _ => none

/-- The table whole. -/
def cmdSpec (i : Instr) : Option (Nat × Nat × (State → State)) := (cmdLow i).orElse (fun _ => cmdHigh i)

/-- What a written command word asks for: nothing (every command field 0), a refusal with FIELD_RANGE (an OP without a meaning, two
one-bit commands, a host that does not exist), an ABORT, or a command. -/
inductive CmdWrite where
  | nothing | bad | abort | cmd (i : Instr)
  deriving DecidableEq, Repr

/-- The `k`-th of a list of commands, from OP 1 on. -/
def cmdNth (op : Nat) (l : List Instr) : CmdWrite :=
  if op = 0 then .nothing else match l[op - 1]? with | some i => .cmd i | none => .bad

/-- A host field of three bits. -/
def cmdHost (h : Nat) (f : Fin 6 → CmdWrite) : CmdWrite := if hh : h < 6 then f ⟨h, hh⟩ else .bad

/-- The words of the pages 0x00 to 0x1F. -/
def cmdWordLow (c0 : Bool) (p off v : Nat) : CmdWrite :=
  let a := v / 16 * 16
  if p = pgGLB then
    (if off = modeCmdOff then
       (if v % 8 = 0 then .nothing else if v % 8 = 1 then .cmd .attach else if v % 8 = 2 then .cmd .seal
        else if v % 8 = 4 then .cmd .sealToShelf else .bad)
     else if off = strobeOff then (if v % 256 = 0 then .nothing else .cmd (.updateStrobe v))
     else if off = crcCommitOff then .cmd (.crcCommit v) else .nothing)
  else if p = pgLCS then cmdNth (v % 4) [.apply a, .resume a, .lcsProgramAuth a]
  else if p = pgDBG then cmdNth (v % 4) [.dbgChallenge, .present a, .revoke]
  else if p = pgBOOT then (if off = 0xA4 then cmdNth (v % 2) [.go] else cmdNth (v % 4) [.programFields a, .revokeA, .revokeB])
  else if p = pgCORE then
    (if off = 0x64 then cmdNth (v % 2) [.wdtKick] else if off = 0x68 then cmdNth (v % 2) [.warm c0]
     else cmdNth (v % 2) [.ring (Fin.ofNat 4 ((off - 0x50) / 4)) (v / 2 * 2)])
  else if p = pgPWR then cmdNth (v % 2) [.programFuse]
  else if p = pgMGP then cmdNth (v % 4) [.fetch a, .reply a, .doorbell]
  else if 0xE ≤ p && p < 0x14 then
    let n := Fin.ofNat 6 (p - 0xE)
    (if v % 8 = 5 then .abort else cmdNth (v % 8) [.stageOpen n, .stageArm n a, .sweep n, .commit n a])
  else if 0x14 ≤ p && p < 0x1C then
    let c := Fin.ofNat 8 (p - 0x14)
    (if v % 8 = 5 then .abort else cmdNth (v % 8) [.fchRead c a, .fchProgram c a, .fchErase c a, .init c a])
  else if p = pgESC then (if v % 4 = 0 then .nothing else cmdHost (bits v 6 4) (fun h => cmdNth (v % 4) [.reload h]))
  else if p = pgHSV then
    (if v % 16 = 0 then .nothing
     else cmdHost (bits v 6 4) (fun h => cmdNth (v % 16) [.hostVerify h, .quarantine h, .hold h, .mend h, .enroll h (bits v 8 8), .ok h]))
  else if p = pgCMP then (if v % 4 = 2 then .abort else cmdNth (v % 4) [.cmpRun a])
  else .nothing

/-- The words of the pages 0x20 to 0x31. -/
def cmdWordHigh (p off v : Nat) : CmdWrite :=
  let a := v / 16 * 16
  let sl := bits v 24 16
  if 0x20 ≤ p && p < 0x24 then
    let n := Fin.ofNat 4 (p - 0x20)
    (if v % 16 = 3 then .abort else cmdNth (v % 16) [.dgeRun n a, .leaves n a])
  else if p = pgSNP then
    let u := Fin.ofNat 6 ((off - 0x4C) / 64)
    (if v % 4 = 3 then .bad else cmdNth (v % 4) [.snpArm u a, .snpDisarm u])
  else if p = pgKVT then cmdNth (v % 16) [.define a, .chain a, .invalidate a, .save, .restore, .readMeta a]
  else if p = pgAES then
    let e := Fin.ofNat 2 ((off - 0x44) / 128)
    if (off - 0x44) % 128 = 0 then
      (if v % 8 = 4 then .abort else cmdNth (v % 8) [.aesRun e a, .wrap e a, .unwrap e a])
    else cmdNth (v % 4) [.loadRef e (bits v 5 4) sl, .loadKey e (bits v 5 4), .dkrClear e]
  else if p = pgPKE then cmdNth (v % 8) [.verify a, .sign a, .genkey a, .ecdh a, .pkeClear a]
  else if p = pgRNG then cmdNth (v % 4) [.gen a, .restart]
  else if p = pgTIME then cmdNth (v % 4) [.timeChallenge, .timeApply a, .timeProgramAuth a]
  else if p = pgLEDG then cmdNth (v % 8) [.freeze, .thaw, .ledgInput a, .readPage a, .exportChallenge, .exportAck a, .setOdometer a]
  else if p = pgNET then cmdNth (v % 4) [.netSend a, .netRecv a]
  else if p = pgMSEC then
    let x := bits v 11 8
    cmdNth (v % 8) [.saLoadRef x (bits v 13 12) sl, .saLoadKey x (bits v 13 12), .saClear x, .enable x, .disable x, .setTxAn x]
  else if p = pgCAN then
    let q := Fin.ofNat 2 (bits v 2 2)
    cmdNth (v % 4) [.canSend q a, .canRecv q a, .recover q]
  else if p = pgSTX then cmdNth (v % 8) [.stxOpen a, .stxSend a, .stxRecv a, .stxClose a, .readCtx a]
  else if p = pgATT then cmdNth (v % 8) [.attIdentity a, .lockRmt, .unlockRmt, .round a, .sealOp a, .verdicts a]
  else if p = pgCLOV then cmdNth (v % 2) [.discard]
  else if p = pgAON then cmdNth (v % 2) [.aonSetTamper]
  else .nothing

/-- What a word written to the command register at an offset of a page asks for; `c0` is the result of C0's self-test that a warm
reset would find. -/
def cmdOf (c0 : Bool) (p off v : Nat) : CmdWrite := if p < 0x20 then cmdWordLow c0 p off v else cmdWordHigh p off v

namespace State

/-- A command is issued from its register. -/
def issueCmd (s : State) (i : Instr) : State :=
  match cmdSpec i with
  | some r => s.issue r.1 r.2.1 i r.2.2
  | none => s

/-- An ABORT acts at once (R72). -/
def abortCmd (s : State) (p off : Nat) : State :=
  if 0xE ≤ p && p < 0x14 then s.stageStop (p - 0xE) 1
  else if 0x14 ≤ p && p < 0x1C then s.abortFch (p - 0x14)
  else if p = pgCMP then (if s.cmp.run.isSome then s.cmpIdle (some (cmABORTED, none)) else s).cmdDrop pgCMP 0x44
  else if 0x20 ≤ p && p < 0x24 then (s.abortDge (p - 0x20)).lanesGo
  else if p = pgAES then (s.aesAbort (Fin.ofNat 2 ((off - 0x44) / 128))).goOn
  else s

/-- A word is written to a command register (R72).  UNLOCK_RMT during a round is refused at the write. -/
def cmdWrite (s : State) (p off v : Nat) : State :=
  let c0 := decide ((Config.freeByte s.free).toNat % 2 = 1)
  match cmdOf c0 p off v with
  | .nothing => s
  | .bad => s.refuse p Reason.FIELD_RANGE off
  | .abort => s.abortCmd p off
  | .cmd (.warm c) => (s.spend 1).issueCmd (.warm c)
  | .cmd .unlockRmt =>
    if s.flag Reg.ATT.STATUS_ROUND_BUSY then (s.refuse pgATT atROUND_BUSY attCmdOff).wr Reg.ATT.RESULT (pgATT * 256 + atROUND_BUSY)
    else s.issueCmd .unlockRmt
  | .cmd i => s.issueCmd i

/-- The command queued in a register starts when none runs there (R72). -/
def queuedStart (s : State) (p off : Nat) : State :=
  match (s.cmdSlot p off).running, (s.cmdSlot p off).queued with
  | none, some i =>
    match cmdSpec i with
    | some r => r.2.2 (s.setCmdSlot p off ⟨none, none⟩)
    | none => s
  | _, _ => s

end State

/-- QUEUED_CMD_START (R72). -/
def execQueuedCmdStart (page off : Nat) (s : State) : Host.Outcome State Fault Refusal :=
  .next (if s.up then s.queuedStart page off else s)

end Sys2Proof.Machine
end

