-- ==== Sys2Proof/Machine/Pages.lean ====
section
/-! DEFINITION. Core accesses over the whole core address map (R61, R63, R85, R141, R166, R167, R421, R428, R495), and what the debug
port does there (R130, R518). -/

namespace Sys2Proof.Machine

/-- Pages that reject user mode (R167). -/
def machinePages : List Nat := [pgLCS, pgDBG, pgBOOT, pgCORE, pgKVT]

/-- `[a, a + n)` meets a range. -/
def touches (a n : Nat) (r : Nat × Nat) : Bool := decide (0 < r.2) && decide (a < r.1 + r.2) && decide (r.1 < a + n)

/-! ### Physical memory protection (R167; log entry 101) -/

/-- The range of PMP entry `i`: none where it is off, top of range, or naturally aligned power of two, each to 4 KiB. -/
def CoreSt.pmpRange (c : CoreSt) (i : Nat) : Option (Nat × Nat) :=
  let a := Tbl.get 0 c.pmpAddr i
  let m := bits (Tbl.get 0 c.pmpCfg i) 4 3
  if m = 1 then
    let lo := if i = 0 then 0 else Tbl.get 0 c.pmpAddr (i - 1) / 1024 * 4096
    some (lo, a / 1024 * 4096 - lo)
  else if m = 3 then
    let a := a ||| 0x1FF
    let k := ((List.range 32).find? (fun k => !a.testBit k)).getD 32
    some (4 * a / 2 ^ (k + 3) * 2 ^ (k + 3), 2 ^ (k + 3))
  else none

/-- The PMP permits an access of `n` bytes: the first entry that it meets holds all of it and grants the right, an unlocked one machine
mode in any case; where it meets none, machine mode alone has access. -/
def CoreSt.pmpOk (c : CoreSt) (user : Bool) (a n : Nat) (write : Bool) : Bool :=
  match (List.range 16).find? (fun i => match c.pmpRange i with | some r => touches a n r | none => false) with
  | none => !user
  | some i =>
    let cfg := Tbl.get 0 c.pmpCfg i
    let r := (c.pmpRange i).getD (0, 0)
    decide (r.1 ≤ a) && decide (a + n ≤ r.1 + r.2) && ((!user && !bit cfg 7) || bit cfg (if write then 1 else 0))

namespace State

/-- A write of a word of an implemented page: a command word or any other. -/
def wordWrite (s : State) (p off v : Nat) : State :=
  if 0x40 ≤ off && off < 0x800 && (s.wordAt p off).any (fun f => f.kind = .cmd) then s.cmdWrite p off v else s.plainWrite p off v

/-- An access to the register space (R61, R63, R85-R87, R167). -/
def regAccess (s : State) (x : CoreAccess) (write : Option Nat) : State :=
  let p := pageOf x.addr
  let off := offOf x.addr
  if pageCount ≤ p || x.size ≠ 4 || x.addr % 4 ≠ 0 || (x.user && machinePages.contains p) then s.busError
  else match s.crossDom p off with
    | some d =>
      if decide (d < 6) && s.csLow d then { s with waits := s.waits ++ [⟨d, x, write⟩] } else s.crossDone ⟨d, x, write⟩
    | none => match write with
      | some v => (s.wordWrite p off v).busData 0
      | none => let r := s.readWord p off; r.1.busData r.2

/-- Main SRAM that a core may not reach: the STX buffers (R421), and on a write the locked identity table (R428). -/
def sramBarred (s : State) (a n : Nat) (write : Bool) : Bool :=
  (s.active pgSTX && touches a n (stxRange s.cfg))
  || (write && s.flag Reg.ATT.STATUS_RMT_LOCKED && touches a n (rmtRange s.cfg))

/-- A core writes bytes of its tightly coupled memory (R141). -/
def tcmStore (s : State) (c a : Nat) (bs : List Byte) : State :=
  { s with tcm := Tbl.put [] s.tcm c (Mem.store 0 (Tbl.get [] s.tcm c) a bs) }

/-- An access to ROM, tightly coupled memory, main SRAM or retention SRAM (R141); elsewhere a bus error. -/
def memAccess (s : State) (x : CoreAccess) (write : Option Nat) : State :=
  let a := x.addr
  let n := x.size
  let core := x.core.val
  if !([1, 2, 4, 8].contains n) then s.busError
  else if a + n ≤ 0x20000 then
    match write with
    | some _ => s.busError
    | none => if s.flag Reg.BOOT.ROM_LOCK then s.busData 0 else (s.spend n).busData (leNat (s.freeBytes n))
  else if 0x10000000 ≤ a && a + n ≤ 0x10010000 then
    let m := Tbl.get [] s.tcm core
    match write with
    | some v => (s.tcmStore core a (leBytes n v)).busData 0
    | none => s.busData (Mem.le 0 m a n)
  else if inSram a n then
    if s.sramBarred a n write.isSome then s.busError
    else match write with
      | some v => (s.sramStore a (leBytes n v)).busData 0
      | none => s.busData (s.sramLe a n)
  else if retBase ≤ a && a + n ≤ retBase + retSize then
    match write with
    | some v => if touches a n (retBase + 0xF000, 0x1000) then s.busError else (s.retStore a (leBytes n v)).busData 0
    | none => s.busData (Mem.le 0 s.retention a n)
  else s.busError

/-- A core pair. -/
def core (s : State) (c : Nat) : CoreSt := Tbl.get CoreSt.reset s.cores c
def setCore (s : State) (c : Nat) (v : CoreSt) : State := { s with cores := Tbl.put CoreSt.reset s.cores c v }

/-- One bus access of a core, which its PMP may refuse (R167; log entry 101). -/
def access (s : State) (x : CoreAccess) (write : Option Nat) : State :=
  if !(s.core x.core.val).pmpOk x.user x.addr x.size write.isSome then s.busError
  else if regBase ≤ x.addr && x.addr < regBase + 0x100000 then s.regAccess x write else s.memAccess x write

/-! ### The debug port (R130, R518) -/

/-- What the debug port reads next. -/
def tapResult (s : State) (error : Bool) (data : Nat) : State := { s with tap := { s.tap with result := ⟨error, data⟩ } }

/-- The debug port reads or writes a register word; a word of a port whose CS# is low ends as an aborted access. -/
def debugWord (s : State) (p off : Nat) (write : Option Nat) : State :=
  if pageCount ≤ p || 0x1000 ≤ off || off % 4 ≠ 0 then s.tapResult true 0
  else if (match s.crossDom p off with | some d => decide (d < 6) && s.csLow d | none => false) then
    (((s.wr (Hdr.STALL_ABORT p) 1).raise p 1).tapResult true 0)
  else match write with
    | some v => (s.wordWrite p off v).tapResult false 0
    | none => let r := s.readWord p off; r.1.tapResult false r.2

/-- The page needs PAGE_READ or PAGE_WRITE; MGP_RAW opens the MGP page. -/
def pageRight (s : State) (p b : Nat) : Bool := s.right b || (p = pgMGP && s.right 13)

/-- A core pair has executed instructions, which are none of the block's: its program counter and x1-x31 hold what they left there, values
that the model does not fix (log entry 146). -/
def coreRan (s : State) (c : Nat) : State :=
  let w (i : Nat) : Nat := fieldLe (s.freeBytes 128) (4 * i) 4
  (s.spend 128).setCore c { s.core c with pc := w 0, x := (List.range 31).foldl (fun t i => Tbl.put 0 t (i + 1) (w (i + 1))) [] }

/-- Halt a core pair, or let it run. -/
def haltCore (s : State) (c : Nat) (b : Bool) : State :=
  let s := if b && !(s.core c).halted then s.coreRan c else s
  s.setCore c { s.core c with halted := b }

/-- A register of a core pair; mhartid is its number (R138). -/
def coreReg (s : State) (c : Nat) : CoreReg → Nat
  | .x i => Tbl.get 0 (s.core c).x i.val
  | .pc => (s.core c).pc
  | .mhartid => c
  | .pmpCfg i => Tbl.get 0 (s.core c).pmpCfg i.val
  | .pmpAddr i => Tbl.get 0 (s.core c).pmpAddr i.val

/-- Write a register of a core pair: x0 and mhartid discard a write, and so does a locked PMP entry. -/
def setCoreReg (s : State) (c : Nat) (r : CoreReg) (v : Nat) : State :=
  let k := s.core c
  match r with
  | .x i => if i.val = 0 then s else s.setCore c { k with x := Tbl.put 0 k.x i.val (v % 2 ^ 32) }
  | .pc => s.setCore c { k with pc := v % 2 ^ 32 }
  | .mhartid => s
  | .pmpCfg i => if bit (Tbl.get 0 k.pmpCfg i.val) 7 then s else s.setCore c { k with pmpCfg := Tbl.put 0 k.pmpCfg i.val (v % 256) }
  | .pmpAddr i => if bit (Tbl.get 0 k.pmpCfg i.val) 7 then s else s.setCore c { k with pmpAddr := Tbl.put 0 k.pmpAddr i.val (v % 2 ^ 32) }

/-- An access to a halted core pair under CORE_HALT (R130); to one that runs, or without the right, the result is an error. -/
def onCore (s : State) (c : Fin 4) (f : State → State) : State :=
  if s.right (1 + c.val) && (s.core c.val).halted then f s else s.tapResult true 0

/-- An access of the debug module, each within its right (R130); without it nothing happens and the result is an error. -/
def debugAccess (s : State) : DebugAccess → State
  | .haltCore c => if s.right (1 + c.val) then (s.haltCore c true).tapResult false 0 else s.tapResult true 0
  | .resumeCore c => if s.right (1 + c.val) then (s.haltCore c false).tapResult false 0 else s.tapResult true 0
  | .stepCore c => s.onCore c (fun s => (s.coreRan c).tapResult false 0)
  | .readCore c r => s.onCore c (fun s => s.tapResult false (s.coreReg c r))
  | .writeCore c r v => s.onCore c (fun s => (s.setCoreReg c r v).tapResult false 0)
  | .readTcm c off =>
    s.onCore c (fun s => if off < 0x10000 then s.tapResult false (Mem.le 0 (Tbl.get [] s.tcm c.val) (0x10000000 + off) 1) else s.tapResult true 0)
  | .writeTcm c off v =>
    s.onCore c (fun s => if off < 0x10000 then (s.tcmStore c.val (0x10000000 + off) [v]).tapResult false 0 else s.tapResult true 0)
  | .trace => if s.right 5 then (s.spend 4).tapResult false (leNat (s.freeBytes 4)) else s.tapResult true 0
  | .readPage p off => if s.pageRight p 6 then s.debugWord p off none else s.tapResult true 0
  | .writePage p off v => if s.pageRight p 7 then s.debugWord p off (some v) else s.tapResult true 0
  | .vaultMeta i => if s.right 8 && decide (i < 512) then s.tapResult false (leNat (s.metaBytes i)) else s.tapResult true 0
  | .ledgerRaw a =>
    if s.right 9 && decide (ringBase 0 ≤ a) && decide (a + 4 ≤ ringBase 1 + ringPages 1 * 0x1000) then
      s.tapResult false (leNat (s.flashBytes 6 0 a 4)) else s.tapResult true 0
  | .readMailbox off => if s.right 13 && decide (off < 4096) then s.tapResult false (leNat (s.mboxBytes off 1)) else s.tapResult true 0
  | .writeMailbox off v => if s.right 13 && decide (off < 4096) then (s.mboxStore off [v]).tapResult false 0 else s.tapResult true 0

/-- A right that DEBUG serves is active: 1 to 8, 13, and LEDGER_RAW. -/
def debugRights (s : State) : Bool := [1, 2, 3, 4, 5, 6, 7, 8, 9, 13].any s.right

end State

/-- REGISTER_WRITE (R70): a core writes. -/
def execRegisterWrite (acc : CoreAccess) (value : Nat) (s : State) : Host.Outcome State Fault Refusal :=
  .next (if s.up then s.access acc (some value) else s)

/-- CROSS_DOMAIN_ACCESS (R85): a core reads or writes; a word of a port's domain waits for CS# high. -/
def execCrossDomainAccess (acc : CoreAccess) (write : Option Nat) (s : State) : Host.Outcome State Fault Refusal :=
  .next (if s.up then s.access acc write else s)

/-- DEBUG (R518). -/
def execDebugIr (acc : DebugAccess) (s : State) : Host.Outcome State Fault Refusal :=
  .next (if s.tapUp then
    let s := s.tapSelect 0x12 s.debugRights
    if s.debugRights then s.debugAccess acc else s else s)

/-- TAP_HOST_CMD (R518): the word of HSV.HOST_CMD, while HOST_HOLD is active. -/
def execTapHostCmd (op host slot : Nat) (s : State) : Host.Outcome State Fault Refusal :=
  .next (if s.tapUp then
    let s := s.tapSelect 0x13 (s.right rightHOST_HOLD)
    if s.right rightHOST_HOLD then s.cmdWrite pgHSV hostCmdOff (op % 16 + 16 * (host % 8) + 256 * (slot % 2)) else s else s)

end Sys2Proof.Machine
end

