-- ==== Sys2Proof/Machine/Dispatch.lean ====
section
/-! DEFINITION. The one table from commands to meanings: one arm per constructor of `Instr`, one direct call each. -/

namespace Sys2Proof.Machine

/-- What a command does to everything but the queue (the rule of its row names the definition it calls). -/
def exec (i : Instr) (s : State) : Host.Outcome State Fault Refusal :=
  match i with
  | .alwaysOnReset => Sys2Proof.Machine.execAlwaysOnReset s
  | .powerOnReset => Sys2Proof.Machine.execPowerOnReset s
  | .mainResetRelease pins => Sys2Proof.Machine.execMainResetRelease pins s
  | .lockstepMismatch pair c0Ok => Sys2Proof.Machine.execLockstepMismatch pair c0Ok s
  | .warm c0Ok => Sys2Proof.Machine.execWarm c0Ok s
  | .watchdogExpiry c0Ok => Sys2Proof.Machine.execWatchdogExpiry c0Ok s
  | .wdtKick => Sys2Proof.Machine.execWdtKick s
  | .vddCoreVreset => Sys2Proof.Machine.execVddCoreVreset s
  | .vddCoreRise => Sys2Proof.Machine.execVddCoreRise s
  | .braceEnter src => Sys2Proof.Machine.execBraceEnter src s
  | .braceExit us => Sys2Proof.Machine.execBraceExit us s
  | .braceLong => Sys2Proof.Machine.execBraceLong s
  | .glitch core aon => Sys2Proof.Machine.execGlitch core aon s
  | .enclOpen => Sys2Proof.Machine.execEnclOpen s
  | .vddioDetect rail above => Sys2Proof.Machine.execVddioDetect rail above s
  | .distPulse phaseNs => Sys2Proof.Machine.execDistPulse phaseNs s
  | .cloveSample inp => Sys2Proof.Machine.execCloveSample inp s
  | .wakeOutEnd => Sys2Proof.Machine.execWakeOutEnd s
  | .aonSetTamper => Sys2Proof.Machine.execAonSetTamper s
  | .programFuse => Sys2Proof.Machine.execProgramFuse s
  | .discard => Sys2Proof.Machine.execDiscard s
  | .attach => Sys2Proof.Machine.execAttach s
  | .seal => Sys2Proof.Machine.execSeal s
  | .sealToShelf => Sys2Proof.Machine.execSealToShelf s
  | .sealCloseTimeout session => Sys2Proof.Machine.execSealCloseTimeout session s
  | .reattachExpired => Sys2Proof.Machine.execReattachExpired s
  | .registerWrite acc value => Sys2Proof.Machine.execRegisterWrite acc value s
  | .pageCtrlWrite page value => Sys2Proof.Machine.execPageCtrlWrite page value s
  | .enableCheckDone page => Sys2Proof.Machine.execEnableCheckDone page s
  | .cfdWrite page off value => Sys2Proof.Machine.execCfdWrite page off value s
  | .crossDomainAccess acc write => Sys2Proof.Machine.execCrossDomainAccess acc write s
  | .stallLimitExpiry dom => Sys2Proof.Machine.execStallLimitExpiry dom s
  | .updateStrobe groups => Sys2Proof.Machine.execUpdateStrobe groups s
  | .strobeCheckDone => Sys2Proof.Machine.execStrobeCheckDone s
  | .strobeArm page => Sys2Proof.Machine.execStrobeArm page s
  | .strobeLimitExpiry => Sys2Proof.Machine.execStrobeLimitExpiry s
  | .aonApply page => Sys2Proof.Machine.execAonApply page s
  | .queuedCmdStart page off => Sys2Proof.Machine.execQueuedCmdStart page off s
  | .walkerScanEnd => Sys2Proof.Machine.execWalkerScanEnd s
  | .crcCommit value => Sys2Proof.Machine.execCrcCommit value s
  | .graceExpired => Sys2Proof.Machine.execGraceExpired s
  | .apply addr => Sys2Proof.Machine.execApply addr s
  | .resume addr => Sys2Proof.Machine.execResume addr s
  | .lcsProgramAuth addr => Sys2Proof.Machine.execLcsProgramAuth addr s
  | .transitionDone => Sys2Proof.Machine.execTransitionDone s
  | .dbgChallenge => Sys2Proof.Machine.execDbgChallenge s
  | .present addr => Sys2Proof.Machine.execPresent addr s
  | .revoke => Sys2Proof.Machine.execRevoke s
  | .debugOpenFailed => Sys2Proof.Machine.execDebugOpenFailed s
  | .extest => Sys2Proof.Machine.execExtest s
  | .idcode => Sys2Proof.Machine.execIdcode s
  | .samplePreload => Sys2Proof.Machine.execSamplePreload s
  | .tapChallenge => Sys2Proof.Machine.execTapChallenge s
  | .grantLoad grant => Sys2Proof.Machine.execGrantLoad grant s
  | .debugIr acc => Sys2Proof.Machine.execDebugIr acc s
  | .tapHostCmd op host slot => Sys2Proof.Machine.execTapHostCmd op host slot s
  | .tapResume token => Sys2Proof.Machine.execTapResume token s
  | .bypass code => Sys2Proof.Machine.execBypass code s
  | .coreSelftestDone c lockstep mbist => Sys2Proof.Machine.execCoreSelftestDone c lockstep mbist s
  | .pushWindowExpiry => Sys2Proof.Machine.execPushWindowExpiry s
  | .pushTimeout => Sys2Proof.Machine.execPushTimeout s
  | .identity => Sys2Proof.Machine.execIdentity s
  | .pushManifest data => Sys2Proof.Machine.execPushManifest data s
  | .pushLeaves off data => Sys2Proof.Machine.execPushLeaves off data s
  | .pushData off data => Sys2Proof.Machine.execPushData off data s
  | .pushEnd => Sys2Proof.Machine.execPushEnd s
  | .romImageChunk port chunk => Sys2Proof.Machine.execRomImageChunk port chunk s
  | .go => Sys2Proof.Machine.execGo s
  | .programFields addr => Sys2Proof.Machine.execProgramFields addr s
  | .revokeA => Sys2Proof.Machine.execRevokeA s
  | .revokeB => Sys2Proof.Machine.execRevokeB s
  | .ring c entry => Sys2Proof.Machine.execRing c entry s
  | .define addr => Sys2Proof.Machine.execDefine addr s
  | .chain addr => Sys2Proof.Machine.execChain addr s
  | .invalidate addr => Sys2Proof.Machine.execInvalidate addr s
  | .save => Sys2Proof.Machine.execSave s
  | .restore => Sys2Proof.Machine.execRestore s
  | .readMeta addr => Sys2Proof.Machine.execReadMeta addr s
  | .maskRefresh => Sys2Proof.Machine.execMaskRefresh s
  | .scrub bad => Sys2Proof.Machine.execScrub bad s
  | .dgeRun n addr => Sys2Proof.Machine.execDgeRun n addr s
  | .leaves n addr => Sys2Proof.Machine.execLeaves n addr s
  | .dgeAbort n => Sys2Proof.Machine.execDgeAbort n s
  | .dgeDone n => Sys2Proof.Machine.execDgeDone n s
  | .leafVerdict n => Sys2Proof.Machine.execLeafVerdict n s
  | .snpArm u addr => Sys2Proof.Machine.execSnpArm u addr s
  | .snpDisarm u => Sys2Proof.Machine.execSnpDisarm u s
  | .aesRun e addr => Sys2Proof.Machine.execAesRun e addr s
  | .wrap e addr => Sys2Proof.Machine.execWrap e addr s
  | .unwrap e addr => Sys2Proof.Machine.execUnwrap e addr s
  | .aesAbort e => Sys2Proof.Machine.execAesAbort e s
  | .aesDone e => Sys2Proof.Machine.execAesDone e s
  | .loadRef e attr slot => Sys2Proof.Machine.execLoadRef e attr slot s
  | .loadKey e attr => Sys2Proof.Machine.execLoadKey e attr s
  | .dkrClear e => Sys2Proof.Machine.execDkrClear e s
  | .keyClearTimeout e => Sys2Proof.Machine.execKeyClearTimeout e s
  | .verify addr => Sys2Proof.Machine.execVerify addr s
  | .sign addr => Sys2Proof.Machine.execSign addr s
  | .genkey addr => Sys2Proof.Machine.execGenkey addr s
  | .ecdh addr => Sys2Proof.Machine.execEcdh addr s
  | .pkeClear addr => Sys2Proof.Machine.execPkeClear addr s
  | .pkeDone => Sys2Proof.Machine.execPkeDone s
  | .gen addr => Sys2Proof.Machine.execGen addr s
  | .restart => Sys2Proof.Machine.execRestart s
  | .healthFail => Sys2Proof.Machine.execHealthFail s
  | .reseed => Sys2Proof.Machine.execReseed s
  | .rngReady => Sys2Proof.Machine.execRngReady s
  | .hostTransaction n t => Sys2Proof.Machine.execHostTransaction n t s
  | .hostCsRise n => Sys2Proof.Machine.execHostCsRise n s
  | .pinGrant n cycles => Sys2Proof.Machine.execPinGrant n cycles s
  | .holdExpired n => Sys2Proof.Machine.execHoldExpired n s
  | .wbufReplay n => Sys2Proof.Machine.execWbufReplay n s
  | .emuBusyEnd n => Sys2Proof.Machine.execEmuBusyEnd n s
  | .lease n dur => Sys2Proof.Machine.execLease n dur s
  | .leaseReturnDue n => Sys2Proof.Machine.execLeaseReturnDue n s
  | .leaseExpiry n => Sys2Proof.Machine.execLeaseExpiry n s
  | .stageOpen n => Sys2Proof.Machine.execStageOpen n s
  | .stageArm n addr => Sys2Proof.Machine.execStageArm n addr s
  | .sweep n => Sys2Proof.Machine.execSweep n s
  | .stagingSweepDone n => Sys2Proof.Machine.execStagingSweepDone n s
  | .commit n addr => Sys2Proof.Machine.execCommit n addr s
  | .stageAbort n => Sys2Proof.Machine.execStageAbort n s
  | .hostVerify h => Sys2Proof.Machine.execHostVerify h s
  | .quarantine h => Sys2Proof.Machine.execQuarantine h s
  | .hold h => Sys2Proof.Machine.execHold h s
  | .mend h => Sys2Proof.Machine.execMend h s
  | .enroll h slot => Sys2Proof.Machine.execEnroll h slot s
  | .ok h => Sys2Proof.Machine.execOk h s
  | .hostRelease h => Sys2Proof.Machine.execHostRelease h s
  | .gateLimit h => Sys2Proof.Machine.execGateLimit h s
  | .escortFetchDone h corrupt cycles ns => Sys2Proof.Machine.execEscortFetchDone h corrupt cycles ns s
  | .escortSweepDone h => Sys2Proof.Machine.execEscortSweepDone h s
  | .blockTimeout h => Sys2Proof.Machine.execBlockTimeout h s
  | .hostOkChange h level => Sys2Proof.Machine.execHostOkChange h level s
  | .bootTimeout h => Sys2Proof.Machine.execBootTimeout h s
  | .resetPulseEnd h => Sys2Proof.Machine.execResetPulseEnd h s
  | .okLossExpiry h => Sys2Proof.Machine.execOkLossExpiry h s
  | .mendDeadline h => Sys2Proof.Machine.execMendDeadline h s
  | .restoreLimit h => Sys2Proof.Machine.execRestoreLimit h s
  | .reload h => Sys2Proof.Machine.execReload h s
  | .cmpRun addr => Sys2Proof.Machine.execCmpRun addr s
  | .cmpAbort => Sys2Proof.Machine.execCmpAbort s
  | .cmpDone => Sys2Proof.Machine.execCmpDone s
  | .fchRead ch addr => Sys2Proof.Machine.execFchRead ch addr s
  | .fchProgram ch addr => Sys2Proof.Machine.execFchProgram ch addr s
  | .fchErase ch addr => Sys2Proof.Machine.execFchErase ch addr s
  | .init ch addr => Sys2Proof.Machine.execInit ch addr s
  | .fchAbort ch => Sys2Proof.Machine.execFchAbort ch s
  | .channelServiceDone ch corrupt => Sys2Proof.Machine.execChannelServiceDone ch corrupt s
  | .strobeWaitExpiry ch => Sys2Proof.Machine.execStrobeWaitExpiry ch s
  | .eraseSuspendDone ch => Sys2Proof.Machine.execEraseSuspendDone ch s
  | .channelPollDone ch => Sys2Proof.Machine.execChannelPollDone ch s
  | .agePromotion res idx => Sys2Proof.Machine.execAgePromotion res idx s
  | .shortWindowEnd res below => Sys2Proof.Machine.execShortWindowEnd res below s
  | .shortfallDrop res idx => Sys2Proof.Machine.execShortfallDrop res idx s
  | .laneStatusChange l lock hiBer => Sys2Proof.Machine.execLaneStatusChange l lock hiBer s
  | .linkUp l => Sys2Proof.Machine.execLinkUp l s
  | .linkDown l => Sys2Proof.Machine.execLinkDown l s
  | .frameReceived l f => Sys2Proof.Machine.execFrameReceived l f s
  | .netSend addr => Sys2Proof.Machine.execNetSend addr s
  | .netRecv addr => Sys2Proof.Machine.execNetRecv addr s
  | .saLoadRef x attr slot => Sys2Proof.Machine.execSaLoadRef x attr slot s
  | .saLoadKey x attr => Sys2Proof.Machine.execSaLoadKey x attr s
  | .saClear x => Sys2Proof.Machine.execSaClear x s
  | .enable x => Sys2Proof.Machine.execEnable x s
  | .disable x => Sys2Proof.Machine.execDisable x s
  | .setTxAn x => Sys2Proof.Machine.execSetTxAn x s
  | .retxTimeout session => Sys2Proof.Machine.execRetxTimeout session s
  | .canFrameReceived p f => Sys2Proof.Machine.execCanFrameReceived p f s
  | .tpTimeout p rx => Sys2Proof.Machine.execTpTimeout p rx s
  | .busOff p => Sys2Proof.Machine.execBusOff p s
  | .busOffRecovered p => Sys2Proof.Machine.execBusOffRecovered p s
  | .canSend p addr => Sys2Proof.Machine.execCanSend p addr s
  | .canRecv p addr => Sys2Proof.Machine.execCanRecv p addr s
  | .recover p => Sys2Proof.Machine.execRecover p s
  | .readId => Sys2Proof.Machine.execReadId s
  | .readStatus => Sys2Proof.Machine.execReadStatus s
  | .writeMbox off data => Sys2Proof.Machine.execWriteMbox off data s
  | .readMbox off len => Sys2Proof.Machine.execReadMbox off len s
  | .submit => Sys2Proof.Machine.execSubmit s
  | .pageReq page off count => Sys2Proof.Machine.execPageReq page off count s
  | .pageReqDone => Sys2Proof.Machine.execPageReqDone s
  | .readRdbuf => Sys2Proof.Machine.execReadRdbuf s
  | .clearErr => Sys2Proof.Machine.execClearErr s
  | .unknownOpcode code => Sys2Proof.Machine.execUnknownOpcode code s
  | .milestone data => Sys2Proof.Machine.execMilestone data s
  | .stxFrame data => Sys2Proof.Machine.execStxFrame data s
  | .ledgerInput data => Sys2Proof.Machine.execLedgerInput data s
  | .fetch addr => Sys2Proof.Machine.execFetch addr s
  | .reply addr => Sys2Proof.Machine.execReply addr s
  | .doorbell => Sys2Proof.Machine.execDoorbell s
  | .stxOpen addr => Sys2Proof.Machine.execStxOpen addr s
  | .stxSend addr => Sys2Proof.Machine.execStxSend addr s
  | .stxRecv addr => Sys2Proof.Machine.execStxRecv addr s
  | .stxClose addr => Sys2Proof.Machine.execStxClose addr s
  | .readCtx addr => Sys2Proof.Machine.execReadCtx addr s
  | .hello m => Sys2Proof.Machine.execHello m s
  | .helloReply m => Sys2Proof.Machine.execHelloReply m s
  | .handshakeKeysDone session => Sys2Proof.Machine.execHandshakeKeysDone session s
  | .keyConfirm m => Sys2Proof.Machine.execKeyConfirm m s
  | .close m => Sys2Proof.Machine.execClose m s
  | .sessionTimeout session => Sys2Proof.Machine.execSessionTimeout session s
  | .quote m => Sys2Proof.Machine.execQuote m s
  | .attIdentity addr => Sys2Proof.Machine.execAttIdentity addr s
  | .lockRmt => Sys2Proof.Machine.execLockRmt s
  | .unlockRmt => Sys2Proof.Machine.execUnlockRmt s
  | .round addr => Sys2Proof.Machine.execRound addr s
  | .roundLimit => Sys2Proof.Machine.execRoundLimit s
  | .roundDone => Sys2Proof.Machine.execRoundDone s
  | .sealOp addr => Sys2Proof.Machine.execSealOp addr s
  | .verdicts addr => Sys2Proof.Machine.execVerdicts addr s
  | .timeChallenge => Sys2Proof.Machine.execTimeChallenge s
  | .challengeExpiry ledger => Sys2Proof.Machine.execChallengeExpiry ledger s
  | .timeApply addr => Sys2Proof.Machine.execTimeApply addr s
  | .timeProgramAuth addr => Sys2Proof.Machine.execTimeProgramAuth addr s
  | .slewTick => Sys2Proof.Machine.execSlewTick s
  | .utcSecond => Sys2Proof.Machine.execUtcSecond s
  | .sensorMismatchBegin => Sys2Proof.Machine.execSensorMismatchBegin s
  | .sensorMismatchEnd => Sys2Proof.Machine.execSensorMismatchEnd s
  | .wheelSpeedLost => Sys2Proof.Machine.execWheelSpeedLost s
  | .distanceInterval => Sys2Proof.Machine.execDistanceInterval s
  | .ledgerCommitDue => Sys2Proof.Machine.execLedgerCommitDue s
  | .ledgerCommitDone => Sys2Proof.Machine.execLedgerCommitDone s
  | .freeze => Sys2Proof.Machine.execFreeze s
  | .thaw => Sys2Proof.Machine.execThaw s
  | .ledgInput addr => Sys2Proof.Machine.execLedgInput addr s
  | .readPage addr => Sys2Proof.Machine.execReadPage addr s
  | .exportChallenge => Sys2Proof.Machine.execExportChallenge s
  | .exportAck addr => Sys2Proof.Machine.execExportAck addr s
  | .setOdometer addr => Sys2Proof.Machine.execSetOdometer addr s
  | .vddAonRise => Sys2Proof.Machine.execVddAonRise s
  | .initDone ch ok => Sys2Proof.Machine.execInitDone ch ok s
  | .otpDone => Sys2Proof.Machine.execOtpDone s
  | .kvtCmdDone => Sys2Proof.Machine.execKvtCmdDone s
  | .mrtSecond => Sys2Proof.Machine.execMrtSecond s
  | .txFrameEnd l => Sys2Proof.Machine.execTxFrameEnd l s
  | .stminExpiry p => Sys2Proof.Machine.execStminExpiry p s

end Sys2Proof.Machine
end

