-- ==== Sys2Proof/Safety.lean ====
section
/-! DEFINITION. What a safe run is: every step answers a next state, and the memories of State keep their canonical form; and the
terms that statements about commands share. -/

namespace Sys2Proof

open Sys2Proof.Machine

/-- A step answers a next state: no fault, no refusal. -/
def runsOn (s : State) : Prop := ∃ t, step s = .next t

/-- The memories hold their canonical form: addresses strictly rising, no entry equal to what an unlisted address reads as. -/
structure memoriesWf (s : State) : Prop where
  sram : Mem.wf 0 s.sram
  retention : Mem.wf 0 s.retention
  flash : Mem.wf 0xFF s.flash
  mbox : Mem.wf 0 s.mgp.mbox
  tcm : ∀ c, Mem.wf 0 (Tbl.get [] s.tcm c)
  blobs : Mem.wf 0xFF s.nvm.blobs

/-- What OTP never gives back (R103, R120, R145, R146, R502): the factory values stay, and a lock or mark that is set stays set. -/
structure otpOneWay (a b : Otp) : Prop where
  macBase : b.macBase = a.macBase
  serial : b.serial = a.serial
  icaendiLock : a.icaendiLock = true → b.icaendiLock = true
  custLock : a.custLock = true → b.custLock = true
  trimLock : a.trimLock = true → b.trimLock = true
  orderLock : a.orderLock = true → b.orderLock = true
  revokedA : a.revokedA = true → b.revokedA = true
  revokedB : a.revokedB = true → b.revokedB = true
  lossTamper : a.lossTamper = true → b.lossTamper = true

/-- Every byte of every memory, OTP and internal NVM are as they were. -/
structure sameStores (s t : State) : Prop where
  sram : t.sram = s.sram
  retention : t.retention = s.retention
  flash : t.flash = s.flash
  mbox : t.mgp.mbox = s.mgp.mbox
  tcm : t.tcm = s.tcm
  otp : t.otp = s.otp
  nvm : t.nvm = s.nvm

/-- Every register field that is not CFG reads as before, those of the list apart. -/
def sameFieldsBut (l : List Fld) (s t : State) : Prop := ∀ g : Fld, (∀ f ∈ l, f.keyOf ≠ g.keyOf) → t.rd g = s.rd g

/-- Every CFG field reads as before in its shadow and where it is in force. -/
structure sameCfg (s t : State) : Prop where
  shadow : t.regs.shadow = s.regs.shadow
  applied : t.regs.applied = s.regs.applied
  inSck : t.regs.inSck = s.regs.inSck
  inAon : t.regs.inAon = s.regs.inAon
  latch : t.regs.latch = s.regs.latch

/-- A command register can start a command at once (R72): the main domain works, nothing runs there and nothing is queued. -/
def Machine.State.ready (s : State) (p off : Nat) : Bool := s.up && decide (s.cmdSlot p off = ⟨none, none⟩)

/-- A message has been taken from the mailbox (R399, R400): `u` is `s` with the device owning the mailbox, the message in it and in
MSG_INFO; nothing outside the mailbox and these registers has changed. -/
structure submitted (s u : State) (code flags off : Nat) (payload : List Byte) : Prop where
  rest : u = { s with regs := u.regs, mgp := u.mgp }
  cfg : sameCfg s u
  fields : sameFieldsBut [Reg.MGP.STATUS_OWNER, Reg.MGP.STATUS_RESET_SEEN, Reg.MGP.MSG_COUNT, Reg.MGP.MSG_INFO_CODE, Reg.MGP.MSG_INFO_FLAGS,
    Reg.MGP.MSG_INFO_LENGTH] s u
  owner : u.mgpOwns = true
  count : u.rd Reg.MGP.MSG_COUNT = min (s.rd Reg.MGP.MSG_COUNT + 1) (2 ^ Reg.MGP.MSG_COUNT.width - 1)
  codeIs : u.mbCode = code
  flagsAre : u.mbFlags = flags
  offIs : u.mbOff = off
  payloadIs : u.mbPayload = payload
  answer : u.mgp.code = code ∧ u.mgp.tag = 0 ∧ u.mgp.response = false
  stxOut : u.mgp.stxOut = s.mgp.stxOut

end Sys2Proof
end

