-- ==== Sys2Proof/WellFormed.lean ====
section
/-! DEFINITION. Which commands are well formed: every operand fits the field, the bus or the frame that carries it.  Nothing in the
machine rests on it: a command out of range is judged by its meaning. -/

namespace Sys2Proof

/-- A word of 32 bits. -/
def word (v : Nat) : Bool := decide (v < 2 ^ 32)

/-- An address of a command register: 32 bits, bits 3:0 zero (R72). -/
def addrOk (a : Nat) : Bool := word a && decide (a % 16 = 0)

/-- A word offset of a page (R62, R63). -/
def offOk (o : Nat) : Bool := decide (o < 0x1000) && decide (o % 4 = 0)

/-- A bus access: 1, 2, 4 or 8 bytes at a 32-bit address. -/
def CoreAccess.wf (a : CoreAccess) : Bool := word a.addr && [1, 2, 4, 8].contains a.size

/-- An access of the debug module. -/
def DebugAccess.wf : DebugAccess → Bool
  | .haltCore _ => true
  | .resumeCore _ => true
  | .stepCore _ => true
  | .readCore _ _ => true
  | .writeCore _ _ v => word v
  | .readTcm _ off => decide (off < 0x10000)
  | .writeTcm _ off _ => decide (off < 0x10000)
  | .trace => true
  | .readPage p off => decide (p < 256) && offOk off
  | .writePage p off v => decide (p < 256) && offOk off && word v
  | .vaultMeta i => decide (i < 512)
  | .ledgerRaw a => word a
  | .readMailbox off => decide (off < 4096)
  | .writeMailbox off _ => decide (off < 4096)

/-- Codes of 10 bits from the two converters (R487). -/
def CloveInputs.wf (i : CloveInputs) : Bool := decide (i.vbat < 1024) && decide (i.temp < 1024)

/-- A host transaction: a 32-bit address. -/
def HostTxn.wf (t : HostTxn) : Bool := word t.addr

/-- A MAC frame: 48-bit addresses, 16-bit EtherType (R374). -/
def EthFrame.wf (f : EthFrame) : Bool :=
  decide (f.dst < 2 ^ 48) && decide (f.src < 2 ^ 48) && decide (f.etype < 65536)
  && (match f.sec with | some t => decide (t.sci < 2 ^ 64) && decide (t.pn < 2 ^ 64) | none => true)

/-- A CAN frame: an identifier of 29 or 11 bits, at most 64 bytes (R393). -/
def CanFrame.wf (f : CanFrame) : Bool := decide (f.id < (if f.extended then 2 ^ 29 else 2 ^ 11)) && decide (f.data.length ≤ 64)

/-- A message of a session: medium 0-4, a 12-bit session, a 32-bit sequence number, at most 16 KiB (R385, R408, R421). -/
def StxMessage.wf (m : StxMessage) : Bool :=
  decide (m.medium < 5) && decide (m.session < 4096) && word m.seq && decide (m.payload.length ≤ 16384)

/-- An image chunk: at most 1,960 bytes (R391). -/
def ImageChunk.wf (c : ImageChunk) : Bool := decide (c.part < 256) && word c.offset && decide (c.data.length ≤ 1960)

/-- The command's operands fit what carries them. -/
def Instr.wf : Instr → Bool
  | .alwaysOnReset => true
  | .powerOnReset => true
  | .mainResetRelease _ => true
  | .lockstepMismatch _ _ => true
  | .warm _ => true
  | .watchdogExpiry _ => true
  | .wdtKick => true
  | .vddCoreVreset => true
  | .vddCoreRise => true
  | .braceEnter _ => true
  | .braceExit _ => true
  | .braceLong => true
  | .glitch _ _ => true
  | .enclOpen => true
  | .vddioDetect _ _ => true
  | .distPulse _ => true
  | .cloveSample inp => inp.wf
  | .wakeOutEnd => true
  | .aonSetTamper => true
  | .programFuse => true
  | .discard => true
  | .attach => true
  | .seal => true
  | .sealToShelf => true
  | .sealCloseTimeout session => decide (session < 4096)
  | .reattachExpired => true
  | .registerWrite acc value => acc.wf && word value
  | .pageCtrlWrite page value => decide (page < 256) && word value
  | .enableCheckDone page => decide (page < 256)
  | .cfdWrite page off value => decide (page < 256) && offOk off && word value
  | .crossDomainAccess acc write => acc.wf && (match write with | some v => word v | none => true)
  | .stallLimitExpiry dom => decide (dom < 7)
  | .updateStrobe groups => decide (groups < 256)
  | .strobeCheckDone => true
  | .strobeArm page => decide (page < 256)
  | .strobeLimitExpiry => true
  | .aonApply page => decide (page < 256)
  | .queuedCmdStart page off => decide (page < 256) && offOk off
  | .walkerScanEnd => true
  | .crcCommit value => word value
  | .graceExpired => true
  | .apply addr => addrOk addr
  | .resume addr => addrOk addr
  | .lcsProgramAuth addr => addrOk addr
  | .transitionDone => true
  | .dbgChallenge => true
  | .present addr => addrOk addr
  | .revoke => true
  | .debugOpenFailed => true
  | .extest => true
  | .idcode => true
  | .samplePreload => true
  | .tapChallenge => true
  | .grantLoad grant => decide (grant.length ≤ 6144)
  | .debugIr acc => acc.wf
  | .tapHostCmd op host slot => decide (op < 16) && decide (host < 8) && decide (slot < 2)
  | .tapResume token => decide (token.length ≤ 6144)
  | .bypass code => decide (code < 256)
  | .coreSelftestDone _ _ _ => true
  | .pushWindowExpiry => true
  | .pushTimeout => true
  | .identity => true
  | .pushManifest data => decide (data.length ≤ 0x10000)
  | .pushLeaves off data => word off && decide (data.length ≤ 3584)
  | .pushData off data => word off && decide (data.length ≤ 3584)
  | .pushEnd => true
  | .romImageChunk _ chunk => chunk.wf
  | .go => true
  | .programFields addr => addrOk addr
  | .revokeA => true
  | .revokeB => true
  | .ring _ entry => (word entry && decide (entry % 2 = 0))
  | .define addr => addrOk addr
  | .chain addr => addrOk addr
  | .invalidate addr => addrOk addr
  | .save => true
  | .restore => true
  | .readMeta addr => addrOk addr
  | .maskRefresh => true
  | .scrub bad => bad.all (fun i => decide (i < 512))
  | .dgeRun _ addr => addrOk addr
  | .leaves _ addr => addrOk addr
  | .dgeAbort _ => true
  | .dgeDone _ => true
  | .leafVerdict _ => true
  | .snpArm _ addr => addrOk addr
  | .snpDisarm _ => true
  | .aesRun _ addr => addrOk addr
  | .wrap _ addr => addrOk addr
  | .unwrap _ addr => addrOk addr
  | .aesAbort _ => true
  | .aesDone _ => true
  | .loadRef _ attr slot => decide (attr < 4) && decide (slot < 512)
  | .loadKey _ attr => decide (attr < 4)
  | .dkrClear _ => true
  | .keyClearTimeout _ => true
  | .verify addr => addrOk addr
  | .sign addr => addrOk addr
  | .genkey addr => addrOk addr
  | .ecdh addr => addrOk addr
  | .pkeClear addr => addrOk addr
  | .pkeDone => true
  | .gen addr => addrOk addr
  | .restart => true
  | .healthFail => true
  | .reseed => true
  | .rngReady => true
  | .hostTransaction _ t => t.wf
  | .hostCsRise _ => true
  | .pinGrant _ _ => true
  | .holdExpired _ => true
  | .wbufReplay _ => true
  | .emuBusyEnd _ => true
  | .lease n dur => decide (n < 256) && decide (dur < 65536)
  | .leaseReturnDue _ => true
  | .leaseExpiry _ => true
  | .stageOpen _ => true
  | .stageArm _ addr => addrOk addr
  | .sweep _ => true
  | .stagingSweepDone _ => true
  | .commit _ addr => addrOk addr
  | .stageAbort _ => true
  | .hostVerify _ => true
  | .quarantine _ => true
  | .hold _ => true
  | .mend _ => true
  | .enroll _ slot => decide (slot < 2)
  | .ok _ => true
  | .hostRelease _ => true
  | .gateLimit _ => true
  | .escortFetchDone _ _ _ _ => true
  | .escortSweepDone _ => true
  | .blockTimeout _ => true
  | .hostOkChange _ _ => true
  | .bootTimeout _ => true
  | .resetPulseEnd _ => true
  | .okLossExpiry _ => true
  | .mendDeadline _ => true
  | .restoreLimit _ => true
  | .reload _ => true
  | .cmpRun addr => addrOk addr
  | .cmpAbort => true
  | .cmpDone => true
  | .fchRead _ addr => addrOk addr
  | .fchProgram _ addr => addrOk addr
  | .fchErase _ addr => addrOk addr
  | .init _ addr => addrOk addr
  | .fchAbort _ => true
  | .channelServiceDone _ _ => true
  | .strobeWaitExpiry _ => true
  | .eraseSuspendDone _ => true
  | .channelPollDone _ => true
  | .agePromotion res _ => decide (res < 12)
  | .shortWindowEnd res _ => decide (res < 12)
  | .shortfallDrop res _ => decide (res < 12)
  | .laneStatusChange _ _ _ => true
  | .linkUp _ => true
  | .linkDown _ => true
  | .frameReceived _ f => f.wf
  | .netSend addr => addrOk addr
  | .netRecv addr => addrOk addr
  | .saLoadRef x attr slot => decide (x < 16) && decide (attr < 4) && decide (slot < 512)
  | .saLoadKey x attr => decide (x < 16) && decide (attr < 4)
  | .saClear x => decide (x < 16)
  | .enable x => decide (x < 16)
  | .disable x => decide (x < 16)
  | .setTxAn x => decide (x < 16)
  | .retxTimeout session => decide (session < 4096)
  | .canFrameReceived _ f => f.wf
  | .tpTimeout _ _ => true
  | .busOff _ => true
  | .busOffRecovered _ => true
  | .canSend _ addr => addrOk addr
  | .canRecv _ addr => addrOk addr
  | .recover _ => true
  | .readId => true
  | .readStatus => true
  | .writeMbox off data => decide (off < 65536) && decide (data.length ≤ 65536)
  | .readMbox off len => decide (off < 65536) && decide (len < 65536)
  | .submit => true
  | .pageReq page off count => decide (page < 256) && decide (off < 65536) && decide (count < 256)
  | .pageReqDone => true
  | .readRdbuf => true
  | .clearErr => true
  | .unknownOpcode code => decide (code < 256)
  | .milestone data => decide (data.length ≤ 4080)
  | .stxFrame data => decide (data.length ≤ 4080)
  | .ledgerInput data => decide (data.length ≤ 4080)
  | .fetch addr => addrOk addr
  | .reply addr => addrOk addr
  | .doorbell => true
  | .stxOpen addr => addrOk addr
  | .stxSend addr => addrOk addr
  | .stxRecv addr => addrOk addr
  | .stxClose addr => addrOk addr
  | .readCtx addr => addrOk addr
  | .hello m => m.wf
  | .helloReply m => m.wf
  | .handshakeKeysDone session => decide (session < 4096)
  | .keyConfirm m => m.wf
  | .close m => m.wf
  | .sessionTimeout session => decide (session < 4096)
  | .quote m => m.wf
  | .attIdentity addr => addrOk addr
  | .lockRmt => true
  | .unlockRmt => true
  | .round addr => addrOk addr
  | .roundLimit => true
  | .roundDone => true
  | .sealOp addr => addrOk addr
  | .verdicts addr => addrOk addr
  | .timeChallenge => true
  | .challengeExpiry _ => true
  | .timeApply addr => addrOk addr
  | .timeProgramAuth addr => addrOk addr
  | .slewTick => true
  | .utcSecond => true
  | .sensorMismatchBegin => true
  | .sensorMismatchEnd => true
  | .wheelSpeedLost => true
  | .distanceInterval => true
  | .ledgerCommitDue => true
  | .ledgerCommitDone => true
  | .freeze => true
  | .thaw => true
  | .ledgInput addr => addrOk addr
  | .readPage addr => addrOk addr
  | .exportChallenge => true
  | .exportAck addr => addrOk addr
  | .setOdometer addr => addrOk addr
  | .vddAonRise => true
  | .initDone _ _ => true
  | .otpDone => true
  | .kvtCmdDone => true
  | .mrtSecond => true
  | .txFrameEnd _ => true
  | .stminExpiry _ => true

end Sys2Proof
end

