-- ==== Sys2Proof/Certificates/Slice0/Obligations.lean ====
section
/-! DEFINITION. The statements for the provers: what the commands do by the numbered rules of the spec, and what every step keeps. -/

open Sys2Proof Sys2Proof.Machine

/-- A step takes the command at the front of the queue and runs it with the queue's rest (log entry 1). -/
def Obligations.StepRunsFront : Prop :=
  ∀ (s : State) (c : Instr) (rest : List Instr), s.pending = c :: rest → step s = exec c { s with pending := rest }

/-- With nothing queued the block idles for one tick of MRT and what waits goes on (R439; that an idle step is one tick, and that what waits
goes on there, are the model's choices, log entries 1 and 129). -/
def Obligations.StepIdlesOneTick : Prop :=
  ∀ s : State, s.pending = [] →
    (s.power.aon ≠ .reset → s.mode.phase ≠ .shelf →
      let u : State := { s with time := { s.time with mrt := (s.time.mrt + 1) % 2 ^ 64 } }
      step s = .next u.goOn ∧ (s.up = false → step s = .next u))
    ∧ (s.power.aon = .reset ∨ s.mode.phase = .shelf → step s = .next s.goOn ∧ (s.up = false → step s = .next s))

/-- The spec gives every command of the table an effect: no step ends in a fault or a refusal. -/
def Obligations.EveryStepAnswersNext : Prop :=
  (∀ (c : Instr) (s : State), ∃ t, exec c s = .next t) ∧ ∀ s : State, runsOn s

/-- The invariant that every step keeps holds after reset. -/
def Obligations.ResetHoldsInvariant : Prop := State.reset.pending = [] ∧ memoriesWf State.reset

/-- The memories of R141, R344 and R399 keep their canonical form at every step, whatever command runs. -/
def Obligations.StepKeepsMemories : Prop := ∀ s t : State, memoriesWf s → step s = .next t → memoriesWf t

/-- No command takes back a blown OTP lock, revocation or fuse, or changes the factory values (R103, R120, R145, R146, R502). -/
def Obligations.StepOtpOneWay : Prop := ∀ s t : State, step s = .next t → otpOneWay s.otp t.otp

/-- No command adds to, drops from or reorders the queue, and the free source is never drawn twice (log entries 1 and 2). -/
def Obligations.StepTakesOneCommand : Prop :=
  ∀ s t : State, step s = .next t → t.pending = s.pending.tail ∧ s.free ≤ t.free

/-- The header of every page, the stepping, MRT, TIME_GAP and the host states right after reset (R4, R54, R65, R439). -/
def Obligations.ResetRegisters : Prop :=
  (∀ p, p < pageCount → State.reset.pageWord p 0x000 = 0x10000 + 0x5900 + p
    ∧ State.reset.pageWord p 0x004 = 0 ∧ State.reset.pageWord p 0x008 = 0 ∧ State.reset.pageWord p 0x00C = 0
    ∧ State.reset.pageWord p 0x010 = 0 ∧ State.reset.pageWord p 0x014 = 0 ∧ State.reset.pageWord p 0x018 = 0)
  ∧ State.reset.pageWord pgGLB 0x40 = 0xB0
  ∧ State.reset.time.mrt = 0 ∧ State.reset.gap = true
  ∧ ∀ n, n < 6 → State.reset.hostSt n = hsOFF

/-- The one-deep queue of every command register (R72). UNLOCK_RMT during a round and UPDATE_STROBE with no group request nothing
that waits. -/
def Obligations.CommandQueue : Prop :=
  ∀ (s : State) (i : Instr) (p off : Nat) (f : State → State), cmdSpec i = some (p, off, f) →
    (i = .unlockRmt → s.flag Reg.ATT.STATUS_ROUND_BUSY = false) → (∀ g, i = .updateStrobe g → g % 256 ≠ 0) →
    (s.up = false → exec i s = .next s)
    ∧ (s.ready p off = true → exec i s = .next (f s))
    ∧ (s.up = true → (s.cmdSlot p off).queued = none → (s.cmdSlot p off).running.isSome = true →
        exec i s = .next (s.setCmdSlot p off ⟨(s.cmdSlot p off).running, some i⟩))
    ∧ (s.up = true → (s.cmdSlot p off).queued.isSome = true →
        exec i s = .next ((s.wr (Hdr.CMD_LOST p) 1).wr (Hdr.EVENT p 3) 1))

/-- QUEUED_CMD_START gives a waiting command its effect (R72). -/
def Obligations.QueuedCommandStarts : Prop :=
  ∀ (s : State) (i : Instr) (p off : Nat) (f : State → State), s.up = true → s.cmdSlot p off = ⟨none, some i⟩ →
    cmdSpec i = some (p, off, f) → exec (.queuedCmdStart p off) s = .next (f (s.setCmdSlot p off ⟨none, none⟩))

/-- R63: register accesses are 32 bits wide and aligned; any other ends with a bus error and changes nothing. The same for the pages
0x32 to 0xFF (R61), and in user mode for the pages that reject it (R167). -/
def Obligations.RegisterAccessWidth : Prop :=
  ∀ (s : State) (x : CoreAccess) (w : Option Nat) (v : Nat), s.up = true → regBase ≤ x.addr → x.addr < regBase + 0x100000 →
    (x.size ≠ 4 ∨ x.addr % 4 ≠ 0 ∨ 0x32 ≤ pageOf x.addr ∨ (x.user = true ∧ machinePages.contains (pageOf x.addr) = true)) →
      exec (.crossDomainAccess x w) s = .next { s with bus := ⟨true, 0⟩ }
      ∧ exec (.registerWrite x v) s = .next { s with bus := ⟨true, 0⟩ }

/-- R71: CFG fields are written only through their shadow; a non-CFG field has no shadow and its shadow offset reads 0 and ignores
writes (R64). -/
def Obligations.ActiveViewOfCfg : Prop :=
  ∀ (s : State) (x : CoreAccess) (v : Nat), s.up = true → regBase ≤ x.addr → x.addr < regBase + 0x100000 →
    x.size = 4 → x.addr % 4 = 0 → pageOf x.addr < 0x32 → (x.user = true → machinePages.contains (pageOf x.addr) = false) →
    (∀ w, (s.core x.core.val).pmpOk x.user x.addr 4 w = true) →
    (∀ d, s.crossDom (pageOf x.addr) (offOf x.addr) = some d → d < 6 → s.csLow d = false) →
    (0x40 ≤ offOf x.addr → offOf x.addr < 0x800 → s.wordAt (pageOf x.addr) (offOf x.addr) ≠ [] →
      (∀ f ∈ s.wordAt (pageOf x.addr) (offOf x.addr), f.kind = .cfg) →
        exec (.registerWrite x v) s = .next { s.writeLost (pageOf x.addr) (offOf x.addr) with bus := ⟨false, 0⟩ })
    ∧ (0x840 ≤ offOf x.addr → s.wordAt (pageOf x.addr) (offOf x.addr) = [] →
        exec (.registerWrite x v) s = .next { s with bus := ⟨false, 0⟩ }
        ∧ exec (.crossDomainAccess x none) s = .next { s with bus := ⟨false, 0⟩ })

/-- A write of a shadow word (R62, R68, R70, R81). That the fields of the word have places of their own holds of every word of the
page tables. An access that the PMP refuses changes nothing (R167; the entries' encoding is log entry 101). -/
def Obligations.ShadowWrite : Prop :=
  (∀ (s : State) (x : CoreAccess) (v : Nat), s.up = true → regBase ≤ x.addr → x.addr < regBase + 0x100000 →
    x.size = 4 → x.addr % 4 = 0 → pageOf x.addr < 0x32 → (x.user = true → machinePages.contains (pageOf x.addr) = false) →
    (∀ w, (s.core x.core.val).pmpOk x.user x.addr 4 w = true) →
    0x840 ≤ offOf x.addr → s.wordAt (pageOf x.addr) (offOf x.addr) ≠ [] →
    (s.wordAt (pageOf x.addr) (offOf x.addr)).Pairwise (fun f g => f.keyOf ≠ g.keyOf) →
      (s.flag (Hdr.LOCK (pageOf x.addr)) = true → exec (.registerWrite x v) s =
        .next { s.writeLostWith (pageOf x.addr) (offOf x.addr) Reason.PAGE_LOCKED with bus := ⟨false, 0⟩ })
      ∧ (s.flag (Hdr.LOCK (pageOf x.addr)) = false → s.flag (Hdr.CHECK_BUSY (pageOf x.addr)) = true → exec (.registerWrite x v) s =
        .next { s.writeLost (pageOf x.addr) (offOf x.addr) with bus := ⟨false, 0⟩ })
      ∧ (s.flag (Hdr.LOCK (pageOf x.addr)) = false → s.flag (Hdr.CHECK_BUSY (pageOf x.addr)) = false →
        ∃ t, exec (.registerWrite x v) s = .next t
          ∧ (∀ f ∈ s.wordAt (pageOf x.addr) (offOf x.addr), t.shadowOf f = fieldPart f v % 2 ^ f.width)
          ∧ (∀ g : Fld, (∀ f ∈ s.wordAt (pageOf x.addr) (offOf x.addr), f.keyOf ≠ g.keyOf) → t.shadowOf g = s.shadowOf g)
          ∧ (∀ g : Fld, t.cfg g = s.cfg g ∧ t.rd g = s.rd g) ∧ sameStores s t ∧ t.bus = ⟨false, 0⟩))
  ∧ (∀ (s : State) (x : CoreAccess) (v : Nat), s.up = true → (s.core x.core.val).pmpOk x.user x.addr x.size true = false →
      exec (.registerWrite x v) s = .next { s with bus := ⟨true, 0⟩ } ∧ exec (.crossDomainAccess x (some v)) s = .next { s with bus := ⟨true, 0⟩ })
  ∧ (∀ (s : State) (x : CoreAccess), s.up = true → (s.core x.core.val).pmpOk x.user x.addr x.size false = false →
      exec (.crossDomainAccess x none) s = .next { s with bus := ⟨true, 0⟩ })
  ∧ (∀ (c : CoreSt) (user w : Bool) (a n : Nat), c.pmpCfg = [] → c.pmpOk user a n w = !user)

/-- A CFD write (R551, R68, R94). That the fields of the word have places of their own, and that none is a grace flag, holds of every word
of the page tables. -/
def Obligations.CfdWrite : Prop :=
  ∀ (s : State) (p off v : Nat), s.up = true → p < 0x32 → off < 0x800 → off ≠ 4 → s.wordAt p off ≠ [] →
    (∀ f ∈ s.wordAt p off, f.kind = .cfd) →
    (s.wordAt p off).Pairwise (fun f g => f.keyOf ≠ g.keyOf) →
    (∀ f ∈ s.wordAt p off, f.keyOf ≠ Reg.GLB.CRC_STATUS_GRACE_OPEN.keyOf) →
      (s.flag (Hdr.LOCK p) = true → exec (.cfdWrite p off v) s = .next (s.writeLostWith p off Reason.PAGE_LOCKED))
      ∧ (∀ c, s.flag (Hdr.LOCK p) = false → s.cfdFault p (s.wordAt p off) v = some c →
          exec (.cfdWrite p off v) s = .next (s.writeLostWith p off c))
      ∧ (s.flag (Hdr.LOCK p) = false → s.cfdFault p (s.wordAt p off) v = none →
          s.flag Reg.GLB.CRC_STATUS_GRACE_OPEN = true → s.flag Reg.GLB.CRC_STATUS_ARMED = true →
          exec (.cfdWrite p off v) s = .next (s.writeLostWith p off Reason.CRC_UNCOMMITTED))
      ∧ (s.flag (Hdr.LOCK p) = false → s.cfdFault p (s.wordAt p off) v = none →
          (s.flag Reg.GLB.CRC_STATUS_GRACE_OPEN && s.flag Reg.GLB.CRC_STATUS_ARMED) = false →
          ∃ t, exec (.cfdWrite p off v) s = .next t
            ∧ (∀ f ∈ s.wordAt p off, t.rd f = fieldPart f v % 2 ^ f.width)
            ∧ t.rd Reg.GLB.CRC_STATUS_GRACE_OPEN = 1
            ∧ sameFieldsBut (Reg.GLB.CRC_STATUS_GRACE_OPEN :: s.wordAt p off) s t ∧ sameCfg s t ∧ sameStores s t)

/-- A write of PAGE_CTRL (R67, R68, R551); one that sets ENABLE takes effect when its check passes (log entry 96). -/
def Obligations.PageCtrlWrite : Prop :=
  ∀ (s : State) (p v : Nat), s.up = true → p < 0x32 →
    (s.flag (Hdr.LOCK p) = true → exec (.pageCtrlWrite p v) s = .next (s.writeLostWith p 0x004 Reason.PAGE_LOCKED))
    ∧ (s.flag (Hdr.LOCK p) = false →
        (Nat.land v (2 ^ 32 - 1 - 0x171) ≠ 0 ∨ (s.enabled p = true ∧ bits v 6 4 ≠ s.rd (Hdr.UPD_GROUP p))) →
        exec (.pageCtrlWrite p v) s = .next (s.writeLostWith p 0x004 Reason.FIELD_RANGE))
    ∧ (s.flag (Hdr.LOCK p) = false → Nat.land v (2 ^ 32 - 1 - 0x171) = 0 →
        (s.enabled p = true → bits v 6 4 = s.rd (Hdr.UPD_GROUP p)) →
        (s.flag Reg.GLB.CRC_STATUS_GRACE_OPEN = true → s.flag Reg.GLB.CRC_STATUS_ARMED = true →
          exec (.pageCtrlWrite p v) s = .next (s.writeLostWith p 0x004 Reason.CRC_UNCOMMITTED))
        ∧ ((s.flag Reg.GLB.CRC_STATUS_GRACE_OPEN = true → s.flag Reg.GLB.CRC_STATUS_ARMED = false) →
            (bit v 0 = true → s.enabled p = false → exec (.pageCtrlWrite p v) s =
              .next (({ s with enableChecks := Tbl.put 0 s.enableChecks p v }).wr (Hdr.CHECK_BUSY p) 1))
            ∧ (bit v 0 = false ∨ s.enabled p = true →
              ∃ u, exec (.pageCtrlWrite p v) s = .next u.strobeWaited
                ∧ u.enabled p = bit v 0 ∧ u.rd (Hdr.UPD_GROUP p) = bits v 6 4
                ∧ (bit v 8 = true → u.flag (Hdr.LOCK p) = true ∧ u.flag (Hdr.LOCKED p) = true)
                ∧ (bit v 8 = false → u.flag (Hdr.LOCK p) = false ∧ u.flag (Hdr.LOCKED p) = s.flag (Hdr.LOCKED p))
                ∧ u.flag Reg.GLB.CRC_STATUS_GRACE_OPEN = true
                ∧ u.enableChecks = Tbl.put 0 s.enableChecks p 0 ∧ u.strobe = s.strobe
                ∧ u.flag (Hdr.CHECK_BUSY p)
                    = ((s.strobe.phase = StrobePhase.check || s.strobe.phase = StrobePhase.arm) && s.strobePages.contains p)
                ∧ sameFieldsBut [Hdr.UPD_GROUP p, Hdr.LOCK p, Hdr.LOCKED p, Hdr.ENABLE p, Hdr.CHECK_BUSY p,
                    Reg.GLB.CRC_STATUS_GRACE_OPEN] s u
                ∧ sameCfg s u ∧ sameStores s u)))

/-- The end of an ENABLE check (R67, R83, R551); `s'` is the state in which the check is judged, the check itself over (log entry 96). -/
def Obligations.EnableCheckEnds : Prop :=
  ∀ (s : State) (p : Nat),
    (Tbl.get 0 s.enableChecks p = 0 → exec (.enableCheckDone p) s = .next s)
    ∧ (Tbl.get 0 s.enableChecks p ≠ 0 →
        let v := Tbl.get 0 s.enableChecks p
        let busy := (s.strobe.phase = StrobePhase.check || s.strobe.phase = StrobePhase.arm) && s.strobePages.contains p
        let s' := ({ s with enableChecks := Tbl.put 0 s.enableChecks p 0 }).wrb (Hdr.CHECK_BUSY p) busy
        (firstFail (s'.checkFails ⟨[p], []⟩) p = none → ∃ u, exec (.enableCheckDone p) s = .next u.strobeWaited
          ∧ u.enabled p = bit v 0 ∧ u.rd (Hdr.UPD_GROUP p) = bits v 6 4
          ∧ u.flag (Hdr.LOCK p) = (bit v 8 || s.flag (Hdr.LOCK p))
          ∧ u.flag (Hdr.CHECK_FAIL p) = false ∧ u.flag Reg.GLB.CRC_STATUS_GRACE_OPEN = true
          ∧ u.flag (Hdr.CHECK_BUSY p) = busy ∧ u.enableChecks = s'.enableChecks ∧ u.strobe = s.strobe
          ∧ sameFieldsBut [Hdr.UPD_GROUP p, Hdr.LOCK p, Hdr.LOCKED p, Hdr.ENABLE p, Hdr.CHECK_BUSY p, Hdr.CHECK_FAIL p,
              Reg.GLB.CRC_STATUS_GRACE_OPEN] s u
          ∧ sameCfg s u ∧ sameStores s u)
        ∧ (∀ f, firstFail (s'.checkFails ⟨[p], []⟩) p = some f → f.page = p → ∃ u, exec (.enableCheckDone p) s = .next u.strobeWaited
          ∧ u.enabled p = s.enabled p ∧ u.flag (Hdr.CHECK_BUSY p) = busy ∧ u.flag (Hdr.CHECK_FAIL p) = true
          ∧ u.raised p 0 = true ∧ u.rd (Hdr.REASON_CODE p) = (p * 256 + f.code) % 2 ^ 16
          ∧ u.rd (Hdr.REASON_OFFSET p) = f.off % 2 ^ 16 ∧ u.enableChecks = s'.enableChecks ∧ u.strobe = s.strobe
          ∧ sameFieldsBut [Hdr.CHECK_BUSY p, Hdr.CHECK_FAIL p, Hdr.EVENT p 0, Hdr.REASON_CODE p, Hdr.REASON_OFFSET p] s u
          ∧ sameCfg s u ∧ sameStores s u))

/-- How a strobe begins (R74, R82, R94). -/
def Obligations.StrobeBegins : Prop :=
  ∀ (s : State) (g : Nat),
    (g % 256 = 0 → exec (.updateStrobe g) s = .next s)
    ∧ (g % 256 ≠ 0 → s.ready pgGLB strobeOff = true → s.checksRun (g % 256) = true → exec (.updateStrobe g) s =
        .next { s.cmdStart pgGLB strobeOff (.updateStrobe g) with strobe := ⟨.waitEnable, g % 256, [], [], []⟩ })
    ∧ (g % 256 ≠ 0 → s.ready pgGLB strobeOff = true → s.checksRun (g % 256) = false →
        let set := s.groupPages (g % 256) (fun p => s.enabled p)
        let clr := s.groupPages (g % 256) (fun p => !s.enabled p && s.active p)
        (set = [] → clr = [] → ∃ t, exec (.updateStrobe g) s = .next t ∧ t.strobe = Strobe.idle
          ∧ t.cmdSlot pgGLB strobeOff = ⟨none, none⟩ ∧ sameFieldsBut [Reg.GLB.STROBE_STATUS_BUSY] s t ∧ sameCfg s t ∧ sameStores s t)
        ∧ ((set ≠ [] ∨ clr ≠ []) → s.graceCloses = true → ∃ t, exec (.updateStrobe g) s = .next t
          ∧ t.strobe = Strobe.idle ∧ t.cmdSlot pgGLB strobeOff = ⟨none, none⟩
          ∧ t.rd Reg.GLB.STROBE_STATUS_REFUSED_GROUPS = g % 256 ∧ sameCfg s t ∧ sameStores s t)
        ∧ ((set ≠ [] ∨ clr ≠ []) → s.graceCloses = false → ∃ t, exec (.updateStrobe g) s = .next t
          ∧ t.strobe = ⟨.check, g % 256, set, clr, []⟩ ∧ t.rd Reg.GLB.STROBE_STATUS_BUSY = 1
          ∧ (t.cmdSlot pgGLB strobeOff).running = some (.updateStrobe g) ∧ sameCfg s t ∧ sameStores s t))

/-- The end of the check phase of a strobe (R75, R76, R83). -/
def Obligations.StrobeCheckEnds : Prop :=
  ∀ s : State,
    (s.strobe.phase ≠ StrobePhase.check → exec .strobeCheckDone s = .next s)
    ∧ (s.strobe.phase = StrobePhase.check → s.strobeFails ⟨s.strobe.set, s.strobe.clr⟩ ≠ [] → ∃ t, exec .strobeCheckDone s = .next t
        ∧ t.regs.shadow = s.regs.shadow ∧ t.regs.applied = s.regs.applied ∧ t.regs.inSck = s.regs.inSck ∧ t.regs.inAon = s.regs.inAon
        ∧ t.rd Reg.GLB.STROBE_STATUS_REFUSED_GROUPS = s.strobe.groups % 2 ^ 8 ∧ t.strobe = Strobe.idle
        ∧ (t.cmdSlot pgGLB strobeOff).running = none ∧ sameStores s t)
    ∧ (s.strobe.phase = StrobePhase.check → s.strobeFails ⟨s.strobe.set, s.strobe.clr⟩ = [] →
        (∃ p ∈ s.strobePages, State.sckPage p = true ∧ p ∉ s.strobe.armed) →
        exec .strobeCheckDone s = .next { s with strobe := { s.strobe with phase := .arm } })
    ∧ (s.strobe.phase = StrobePhase.check → s.strobeFails ⟨s.strobe.set, s.strobe.clr⟩ = [] → s.toArm = [] →
        exec .strobeCheckDone s = .next ({ s with strobe := { s.strobe with phase := .arm } }).strobeCommit)

/-- The arm phase of a strobe (R76, R80, R82). -/
def Obligations.StrobeArms : Prop :=
  ∀ (s : State) (p : Nat),
    (s.strobe.phase = StrobePhase.arm → s.toArm.contains p = true → s.strobe.armed.contains p = false →
        s.flag (Hdr.PENDING p) = false → (State.sckPort p ≠ 6 → s.csLow (State.sckPort p) = false) →
        (∃ q ∈ s.strobePages, State.sckPage q = true ∧ q ≠ p ∧ q ∉ s.strobe.armed) →
        exec (.strobeArm p) s = .next { s with
          regs := { s.regs with latch := copyPage p s.regs.shadow s.regs.latch },
          strobe := { s.strobe with armed := p :: s.strobe.armed } })
    ∧ (s.strobe.phase = StrobePhase.arm → s.toArm.contains p = true → s.strobe.armed.contains p = false →
        s.flag (Hdr.PENDING p) = false → (State.sckPort p ≠ 6 → s.csLow (State.sckPort p) = false) →
        (∀ q ∈ s.strobePages, State.sckPage q = true → q ≠ p → q ∈ s.strobe.armed) →
        exec (.strobeArm p) s = .next ({ s with
          regs := { s.regs with latch := copyPage p s.regs.shadow s.regs.latch },
          strobe := { s.strobe with armed := p :: s.strobe.armed } } : State).strobeCommit)
    ∧ (s.strobe.phase ≠ StrobePhase.arm ∨ s.flag (Hdr.PENDING p) = true ∨ (State.sckPort p ≠ 6 ∧ s.csLow (State.sckPort p) = true) →
        exec (.strobeArm p) s = .next s)
    ∧ (s.strobe.phase = StrobePhase.arm → ∃ t, exec .strobeLimitExpiry s = .next t
        ∧ t.regs.shadow = s.regs.shadow ∧ t.regs.applied = s.regs.applied ∧ t.regs.inSck = s.regs.inSck ∧ t.regs.inAon = s.regs.inAon
        ∧ t.regs.latch = s.strobe.armed.foldl (fun m q => copyPage q [] m) s.regs.latch
        ∧ t.rd Reg.GLB.STROBE_STATUS_REFUSED_GROUPS = s.strobe.groups % 2 ^ 8 ∧ t.strobe = Strobe.idle
        ∧ (t.cmdSlot pgGLB strobeOff).running = none ∧ sameStores s t)
    ∧ (s.strobe.phase ≠ StrobePhase.arm → exec .strobeLimitExpiry s = .next s)

/-- AON_APPLY (R79, R99). -/
def Obligations.AonApplies : Prop :=
  ∀ (s : State) (p : Nat),
    (State.aonPage p = true → s.flag (Hdr.PENDING p) = true → ∃ t, exec (.aonApply p) s = .next t
      ∧ t.regs.inAon = copyPage p s.regs.applied s.regs.inAon ∧ t.regs.shadow = s.regs.shadow ∧ t.regs.applied = s.regs.applied
      ∧ t.regs.inSck = s.regs.inSck ∧ t.flag (Hdr.PENDING p) = false ∧ t.raised p 4 = true
      ∧ sameFieldsBut [Hdr.PENDING p, Hdr.EVENT p 4] s t ∧ sameStores s t)
    ∧ (State.aonPage p = false ∨ s.flag (Hdr.PENDING p) = false → exec (.aonApply p) s = .next s)

/-- The CRC walker: a commit is requested, decided at the end of a scan, and a mismatch is counted (R93-R95). -/
def Obligations.CrcCommitAndScan : Prop :=
  (∀ (s : State) (v : Nat), s.ready pgGLB crcCommitOff = true → ∃ t, exec (.crcCommit v) s = .next t
      ∧ t.walker = { s.walker with commit := some (v % 2 ^ 32) } ∧ t.rd Reg.GLB.CRC_STATUS_COMMIT_BUSY = 1
      ∧ sameFieldsBut [Reg.GLB.CRC_STATUS_COMMIT_BUSY] s t ∧ sameCfg s t ∧ sameStores s t)
  ∧ (∀ (s : State) (c : Nat), s.up = true → s.walker.commit = some c → s.scanCrc < 2 ^ 32 → s.scanCrc = c →
      ∃ t, exec .walkerScanEnd s = .next t ∧ t.rd Reg.GLB.CRC_LIVE = s.scanCrc ∧ t.rd Reg.GLB.CRC_REF = s.scanCrc
        ∧ t.flag Reg.GLB.CRC_STATUS_GRACE_OPEN = false ∧ t.flag Reg.GLB.CRC_STATUS_ARMED = true
        ∧ t.flag Reg.GLB.CRC_STATUS_COMMIT_BUSY = false ∧ t.walker = ⟨none, none⟩ ∧ sameCfg s t ∧ sameStores s t)
  ∧ (∀ (s : State) (v : Nat), s.up = true → s.walker.commit = none → s.scanCrc = v → v < 2 ^ 32 → v ≠ s.rd Reg.GLB.CRC_REF →
      (s.flag Reg.GLB.CRC_STATUS_ARMED = false ∨ s.flag Reg.GLB.CRC_STATUS_GRACE_OPEN = true →
        exec .walkerScanEnd s = .next (s.wr Reg.GLB.CRC_LIVE v))
      ∧ (s.flag Reg.GLB.CRC_STATUS_ARMED = true → s.flag Reg.GLB.CRC_STATUS_GRACE_OPEN = false → s.walker.lastMismatch ≠ some v →
          s.cfg Reg.GLB.CRC_CTRL = 0 → exec .walkerScanEnd s = .next
            ((({ s.wr Reg.GLB.CRC_LIVE v with walker := { s.walker with lastMismatch := some v } }).bump Reg.GLB.CRC_MISMATCH_COUNT).raise pgGLB 8)))
  ∧ (∀ (s : State) (c : Nat), s.up = true → s.walker.commit = some c → s.scanCrc < 2 ^ 32 → s.scanCrc ≠ c →
      s.flag Reg.GLB.CRC_STATUS_ARMED = false →
      ∃ t, exec .walkerScanEnd s = .next t ∧ t.rd Reg.GLB.CRC_REF = s.rd Reg.GLB.CRC_REF ∧ t.rd (Hdr.REASON_CODE pgGLB) = 0x0040
        ∧ t.rd (Hdr.REASON_OFFSET pgGLB) = crcCommitOff ∧ t.walker.commit = none)

/-- GRACE_EXPIRED (R94, R95) and STALL_LIMIT_EXPIRY (R87). -/
def Obligations.GraceAndStallLimit : Prop :=
  (∀ s : State,
    (s.flag Reg.GLB.CRC_STATUS_GRACE_OPEN = false → exec .graceExpired s = .next s)
    ∧ (s.flag Reg.GLB.CRC_STATUS_GRACE_OPEN = true → s.flag Reg.GLB.CRC_STATUS_ARMED = false →
        exec .graceExpired s = .next (s.wr Reg.GLB.CRC_STATUS_GRACE_OPEN 0))
    ∧ (s.flag Reg.GLB.CRC_STATUS_GRACE_OPEN = true → s.flag Reg.GLB.CRC_STATUS_ARMED = true → s.cfg Reg.GLB.CRC_CTRL = 0 →
        exec .graceExpired s = .next ((((s.wr Reg.GLB.CRC_STATUS_GRACE_OPEN 0).refuse pgGLB 0x41 0).bump Reg.GLB.CRC_MISMATCH_COUNT).raise pgGLB 8)))
  ∧ (∀ (s : State) (d : Nat),
    (s.waits.find? (fun x => x.dom = d) = none → exec (.stallLimitExpiry d) s = .next s)
    ∧ (∀ x, s.waits.find? (fun x => x.dom = d) = some x → ∃ t, exec (.stallLimitExpiry d) s = .next t
        ∧ t.waits = s.waits.erase x ∧ t.bus = ⟨true, 0⟩ ∧ t.flag (Hdr.STALL_ABORT (pageOf x.acc.addr)) = true
        ∧ t.raised (pageOf x.acc.addr) 1 = true
        ∧ sameFieldsBut [Hdr.STALL_ABORT (pageOf x.acc.addr), Hdr.EVENT (pageOf x.acc.addr) 1] s t ∧ sameCfg s t ∧ sameStores s t))

/-- Supplies and Brace (R121, R501, R505, R507, R508, R510). -/
def Obligations.SupplyEvents : Prop :=
  (∀ (s : State) (src : WarnSource), s.mode.phase ≠ Phase.shelf → ∃ t, exec (.braceEnter src) s = .next t
      ∧ t.flag Reg.PWR.STATUS_BRACE = true
      ∧ (match src with
          | .core => t.flag Reg.PWR.STATUS_CORE_WARN = true
          | .aon => t.flag Reg.PWR.STATUS_AON_WARN = true
          | .pwrWarn => t.flag Reg.PWR.STATUS_PWR_WARN = true)
      ∧ (s.flag Reg.PWR.STATUS_BRACE = true → t.rd Reg.PWR.BRACE_COUNT = s.rd Reg.PWR.BRACE_COUNT ∧ sameCfg s t ∧ sameStores s t)
      ∧ (s.flag Reg.PWR.STATUS_BRACE = false → t.rd Reg.PWR.BRACE_COUNT = min (s.rd Reg.PWR.BRACE_COUNT + 1) (2 ^ Reg.PWR.BRACE_COUNT.width - 1)
          ∧ t.raised pgPWR 8 = true
          ∧ (s.lcs.busy = true ∨ s.dbg.opening.isSome = true → t.flag Reg.LCS.TRANSITION_STATUS_DEFERRED = true)))
  ∧ (∀ (s : State) (src : WarnSource), s.mode.phase = Phase.shelf → exec (.braceEnter src) s
      = .next (if src = .core ∧ s.power.core ≠ Level.reset then { s with power := { s.power with core := .warn } } else s))
  ∧ (∀ (s : State) (us : Nat), s.flag Reg.PWR.STATUS_BRACE = true → s.power.core ≠ Level.reset → s.power.aon ≠ Level.reset →
      ∃ t : State, exec (.braceExit us) s = .next t.resumeAfterBrace.openingResume.pushResume
        ∧ t.power = { s.power with core := .ok, aon := .ok, pwrWarn := false }
        ∧ t.flag Reg.PWR.STATUS_BRACE = false ∧ t.flag Reg.PWR.STATUS_BRACE_LONG = false ∧ t.flag Reg.PWR.STATUS_CORE_WARN = false
        ∧ t.flag Reg.PWR.STATUS_AON_WARN = false ∧ t.flag Reg.PWR.STATUS_PWR_WARN = false ∧ t.raised pgPWR 9 = true
        ∧ (s.power.torn = false → t.rd Reg.PWR.BROWNOUT_RIDE = min (s.rd Reg.PWR.BROWNOUT_RIDE + 1) (2 ^ Reg.PWR.BROWNOUT_RIDE.width - 1))
        ∧ (s.power.torn = true → t.rd Reg.PWR.BROWNOUT_RIDE = s.rd Reg.PWR.BROWNOUT_RIDE) ∧ sameCfg s t ∧ sameStores s t)
  ∧ (∀ (s : State) (us : Nat), s.flag Reg.PWR.STATUS_BRACE = false ∨ s.power.core = Level.reset ∨ s.power.aon = Level.reset →
      exec (.braceExit us) s = .next s)
  ∧ (∀ (s : State) (a : Nat), s.ready pgLCS 0x5C = true → s.brace = true → s.lc = lcISSUED → s.otp.custHash = 0 → State.inSram a 48 = true →
      ∃ t, exec (.lcsProgramAuth a) s = .next t ∧ (t.cmdSlot pgLCS 0x5C).running = some (.lcsProgramAuth a)
        ∧ t.flag Reg.LCS.TRANSITION_STATUS_BUSY = true ∧ t.flag Reg.LCS.TRANSITION_STATUS_DEFERRED = true
        ∧ sameFieldsBut [Reg.LCS.TRANSITION_STATUS_BUSY, Reg.LCS.TRANSITION_STATUS_DEFERRED] s t ∧ sameCfg s t ∧ sameStores s t)
  ∧ (∀ s : State, s.flag Reg.PWR.STATUS_BRACE = true → s.flag Reg.PWR.STATUS_BRACE_LONG = false → ∃ t, exec .braceLong s = .next t
        ∧ t.flag Reg.PWR.STATUS_BRACE_LONG = true ∧ t.raised pgPWR 11 = true
        ∧ sameFieldsBut [Reg.PWR.STATUS_BRACE_LONG, Hdr.EVENT pgPWR 11] s t ∧ sameCfg s t ∧ sameStores s t)
  ∧ (∀ s : State, s.flag Reg.PWR.STATUS_BRACE = false ∨ s.flag Reg.PWR.STATUS_BRACE_LONG = true → exec .braceLong s = .next s)
  ∧ (∀ (s : State) (c a : Bool), s.mode.phase = Phase.shelf → exec (.glitch c a) s = .next s)
  ∧ (∀ (s : State) (c a : Bool), s.mode.phase ≠ Phase.shelf → s.power.mainOn = false → ∃ t, exec (.glitch c a) s = .next t
        ∧ t.rd Reg.PWR.GLITCH_COUNT = min (s.rd Reg.PWR.GLITCH_COUNT + 1) (2 ^ Reg.PWR.GLITCH_COUNT.width - 1)
        ∧ sameFieldsBut [Reg.PWR.GLITCH_COUNT] s t ∧ sameCfg s t ∧ sameStores s t)
  ∧ (∀ (s : State) (c a : Bool), s.mode.phase ≠ Phase.shelf → s.power.mainOn = true → ∃ t : State,
        exec (.glitch c a) s = .next (if s.cfgb Reg.PWR.GLITCH_CTRL then t.mainPor 1 else t)
        ∧ t.rd Reg.PWR.GLITCH_COUNT = min (s.rd Reg.PWR.GLITCH_COUNT + 1) (2 ^ Reg.PWR.GLITCH_COUNT.width - 1)
        ∧ t.rd Reg.PWR.GLITCH_LAST = b2n c + 2 * b2n a ∧ t.raised pgPWR 10 = true
        ∧ (∃ e ∈ t.nvm.secLog, e.kind = .glitch ∧ e.mrt = s.time.mrt)
        ∧ sameFieldsBut [Reg.PWR.GLITCH_COUNT, Reg.PWR.GLITCH_LAST, Hdr.EVENT pgPWR 10] s t ∧ sameCfg s t ∧ t.sram = s.sram ∧ t.flash = s.flash ∧ t.otp = s.otp)
  ∧ (∀ s : State, s.power.aon ≠ Level.reset → s.cfgb Reg.AON.TAMPER_CFG = true → ∃ t, exec .enclOpen s = .next t
        ∧ t.flag Reg.AON.TAMPER_ENCL_LATCH = true
        ∧ (s.mode.phase = Phase.shelf → t.rd Reg.AON.TAMPER_LATCH = s.rd Reg.AON.TAMPER_LATCH ∧ t.power.enclInShelf = true)
        ∧ (s.mode.phase ≠ Phase.shelf → t.flag Reg.AON.TAMPER_LATCH = true) ∧ sameCfg s t ∧ sameStores s t)
  ∧ (∀ s : State, s.power.aon = Level.reset ∨ s.cfgb Reg.AON.TAMPER_CFG = false → exec .enclOpen s = .next s)

/-- Rails and the resets they cause (R34, R41, R53, R463, R481, R485, R504, R515). -/
def Obligations.RailsAndResets : Prop :=
  (∀ s : State, exec .vddAonRise s = .next { s with power := { s.power with aon := .ok } })
  ∧ (∀ (s : State) (n : Fin 6) (b : Bool), b = true ∨ s.csLow n = false → exec (.vddioDetect (.host n) b) s
      = .next { s with power := { s.power with ioHost := Tbl.put true s.power.ioHost n.val b } })
  ∧ (∀ (s : State) (n : Fin 6), s.csLow n = true → exec (.vddioDetect (.host n) false) s
      = .next (({ s with power := { s.power with ioHost := Tbl.put true s.power.ioHost n.val false } }).portEnd n |>.waitsDone n))
  ∧ (∀ (s : State) (b : Bool), exec (.vddioDetect .flash b) s = .next { s with power := { s.power with ioFlash := b } }
      ∧ exec (.vddioDetect .gen b) s = .next { s with power := { s.power with ioGen := b } })
  ∧ (∀ s : State, s.power.aon ≠ Level.reset → s.mode.phase ≠ Phase.shelf → s.mode.phase ≠ Phase.vigil → ∃ t, exec .vddCoreVreset s = .next t
      ∧ t.mode.phase = Phase.vigil ∧ t.mode.sealPending = false ∧ t.power.mainOn = false ∧ t.power.core = Level.reset
      ∧ t.rd Reg.AON.POWER_STATUS_PWR_EN = 0 ∧ t.sram = [] ∧ t.retention = s.retention ∧ t.otp = s.otp
      ∧ (s.ledger.block = none → t.flash = s.flash))
  ∧ (∀ s : State, s.power.aon = Level.reset ∨ s.mode.phase = Phase.shelf ∨ s.mode.phase = Phase.vigil →
      exec .vddCoreVreset s = .next { s with power := { s.power with core := .reset, torn := true } })
  ∧ (∀ s : State, s.power.mainOn = true → ∃ t, exec .powerOnReset s = .next t
      ∧ t.power.mainOn = true ∧ t.power.mainReset = true ∧ t.mode.phase = Phase.wake ∧ t.mode.attached = false
      ∧ (∀ n, n < 6 → t.hostSt n = hsHELD ∨ t.hostSt n = hsOFF) ∧ t.ports = [] ∧ t.sram = [] ∧ t.retention = s.retention ∧ t.otp = s.otp
      ∧ (s.ledger.block = none → t.flash = s.flash))
  ∧ (∀ s : State, s.power.mainOn = false → exec .powerOnReset s = .next s)
  ∧ (∀ s : State, ∃ t, exec .alwaysOnReset s = .next t
      ∧ t.power.aon = Level.reset ∧ t.power.mainOn = true ∧ t.power.mainReset = true ∧ t.mode.phase = Phase.wake ∧ t.time.mrt = 0
      ∧ (∀ n, n < 6 → t.hostSt n = hsOFF) ∧ t.sram = [] ∧ t.retention = [] ∧ t.otp = s.otp
      ∧ (s.ledger.block = none → t.flash = s.flash)
      ∧ (s.otp.lossTamper = true → t.flag Reg.AON.TAMPER_LATCH = true ∧ t.rd Reg.AON.TAMPER_CAUSE = 3)
      ∧ (s.otp.lossTamper = false → t.flag Reg.AON.TAMPER_LATCH = false))
  ∧ (∀ s : State, s.power.core = Level.reset → s.mode.phase = Phase.shelf ∨ s.mode.phase = Phase.vigil → ∃ t, exec .vddCoreRise s = .next t
      ∧ t.power.core = Level.ok ∧ t.power.mainOn = true ∧ t.power.mainReset = true ∧ t.mode.phase = Phase.wake
      ∧ t.rd Reg.AON.POWER_STATUS_PWR_EN = 1 ∧ t.otp = s.otp ∧ (s.ledger.block = none → t.flash = s.flash))
  ∧ (∀ s : State, s.power.core = Level.reset → s.mode.phase ≠ Phase.shelf → s.mode.phase ≠ Phase.vigil →
      exec .vddCoreRise s = .next { s with power := { s.power with core := .ok } })
  ∧ (∀ s : State, s.power.core ≠ Level.reset → exec .vddCoreRise s = .next s)

/-- Release of the reset, the warm resets and the watchdog (R16, R44, R171, R482). -/
def Obligations.ReleaseAndWarm : Prop :=
  (∀ (s : State) (pins : BootPins), s.power.mainOn = true → s.power.mainReset = true → s.power.core = Level.ok → s.power.aon = Level.ok →
      s.power.ioFlash = true → s.power.ioGen = true → s.power.pwrWarn = false → s.flag Reg.PWR.STATUS_BRACE = false →
      ∃ t : State, exec (.mainResetRelease pins) s = .next (t.romBoot pins.c0Ok true pins.testEn)
        ∧ t.up = true ∧ t.rd Reg.GLB.MODE_LAST_RESET = s.power.nextCause % 2 ^ Reg.GLB.MODE_LAST_RESET.width
        ∧ t.boot = { s.boot with straps := pins.bootSel.val } ∧ t.power.mainReset = false ∧ t.power.enclInShelf = false
        ∧ (s.power.fromVigil = true → t.power.wake = some (s.time.mrt, s.rd Reg.CLOV.PULSE_ACCUM)) ∧ (s.power.fromVigil = false → t.power.wake = s.power.wake)
        ∧ (s.power.enclInShelf = true → t.flag Reg.AON.TAMPER_LATCH = true)
        ∧ (s.power.enclInShelf = false → sameFieldsBut [Reg.GLB.MODE_LAST_RESET] s t ∧ sameStores s t)
        ∧ t.sram = s.sram ∧ t.flash = s.flash ∧ t.otp = s.otp ∧ sameCfg s t)
  ∧ (∀ (s : State) (pins : BootPins), s.power.mainOn = false ∨ s.power.mainReset = false ∨ s.power.core ≠ Level.ok ∨ s.power.aon ≠ Level.ok ∨
      s.power.ioFlash = false ∨ s.power.ioGen = false ∨ s.power.pwrWarn = true ∨ s.flag Reg.PWR.STATUS_BRACE = true →
      exec (.mainResetRelease pins) s = .next s)
  ∧ (∀ (s : State) (c : Bool), s.up = true → s.rd Reg.CORE.WDT_PERIOD ≠ 0 → exec (.watchdogExpiry c) s = .next (s.warmReset 6 c))
  ∧ (∀ (s : State) (c : Bool), s.rd Reg.CORE.WDT_PERIOD = 0 → exec (.watchdogExpiry c) s = .next s)
  ∧ (∀ (s : State) (k : Fin 4) (c : Bool), exec (.lockstepMismatch k c) s = .next (s.warmReset 4 c))
  ∧ (∀ (s : State) (c : Bool), s.ready pgCORE 0x68 = true → exec (.warm c) s = .next (s.warmReset 5 c))
  ∧ (∀ (s : State) (cause : Nat) (c : Bool), s.up = true → ∃ t : State,
        s.warmReset cause c = (if s.boot.phase = BootPhase.fatal then (t.romState false).romFatal else t.romBoot c false false)
        ∧ t.rd Reg.GLB.MODE_LAST_RESET = cause % 2 ^ Reg.GLB.MODE_LAST_RESET.width
        ∧ (∀ n, n < 6 → s.hostSt n = hsOFF ∨ s.hostSt n = hsHELD ∨ s.hostSt n = hsRUNNING ∨ s.hostSt n = hsQUARANTINED → t.hostSt n = s.hostSt n)
        ∧ t.regs.inSck = s.regs.inSck ∧ t.regs.inAon = s.regs.inAon ∧ t.regs.applied = [] ∧ t.cmds = [] ∧ t.ldm = [] ∧ t.otp = s.otp)
  ∧ (∀ (s : State) (c : Bool), s.up = false → s.warmReset 4 c = s)
  ∧ (∀ s : State, s.ready pgCORE 0x64 = true → exec .wdtKick s = .next { s with wdtStart := s.time.mrt })

/-- Clove and the tamper latch (R488-R502). -/
def Obligations.CloveAndTamper : Prop :=
  (∀ (s : State) (ns : Nat), s.power.aon ≠ Level.reset → s.mode.phase ≠ Phase.shelf →
      (if s.cfgb Reg.CLOV.INPUT_CFG_DIST_FILT then 5000 ≤ ns else 50 ≤ ns) →
      exec (.distPulse ns) s = .next (s.wr Reg.CLOV.PULSE_ACCUM (s.rd Reg.CLOV.PULSE_ACCUM + 1))
      ∧ (s.wr Reg.CLOV.PULSE_ACCUM (s.rd Reg.CLOV.PULSE_ACCUM + 1)).rd Reg.CLOV.PULSE_ACCUM = (s.rd Reg.CLOV.PULSE_ACCUM + 1) % 2 ^ 32)
  ∧ (∀ (s : State) (ns : Nat), s.power.aon = Level.reset ∨ s.mode.phase = Phase.shelf ∨ ns < 50 ∨
      (s.cfgb Reg.CLOV.INPUT_CFG_DIST_FILT = true ∧ ns < 5000) → exec (.distPulse ns) s = .next s)
  ∧ (∀ (s : State) (i : CloveInputs), (s.cfgb Reg.CLOV.CTRL_EN = false ∨ s.power.aon = Level.reset ∨ s.mode.phase = Phase.shelf →
        exec (.cloveSample i) s = .next s)
      ∧ (s.cfgb Reg.CLOV.CTRL_EN = true → s.power.aon ≠ Level.reset → s.mode.phase ≠ Phase.shelf →
        exec (.cloveSample i) s = .next (s.cloveSample i).ignitionCheck))
  ∧ (∀ (d : Debounce) (deb : Nat) (x : Bool), d.started = true → x ≠ d.value →
      (d.run + 1 < deb → (d.step deb x).value = d.value ∧ (d.step deb x).run = d.run + 1) ∧ (deb ≤ d.run + 1 → (d.step deb x).value = x))
  ∧ (∀ s : State, ∃ t, exec .wakeOutEnd s = .next t ∧ t.rd Reg.AON.POWER_STATUS_WAKE_OUT = 0
      ∧ sameFieldsBut [Reg.AON.POWER_STATUS_WAKE_OUT] s t ∧ sameCfg s t ∧ sameStores s t)
  ∧ (∀ s : State, s.ready pgAON 0x48 = true → ∃ t, exec .aonSetTamper s = .next t
      ∧ t.flag Reg.AON.TAMPER_LATCH = true ∧ t.raised pgAON 8 = true
      ∧ t.rd Reg.AON.TAMPER_SET_COUNT = min (s.rd Reg.AON.TAMPER_SET_COUNT + 1) (2 ^ Reg.AON.TAMPER_SET_COUNT.width - 1)
      ∧ (s.flag Reg.AON.TAMPER_LATCH = false → t.rd Reg.AON.TAMPER_CAUSE = 4 ∧ t.rd Reg.AON.TAMPER_RULE = 0xFF)
      ∧ (s.flag Reg.AON.TAMPER_LATCH = true → t.rd Reg.AON.TAMPER_CAUSE = s.rd Reg.AON.TAMPER_CAUSE)
      ∧ t.flag Reg.KVT.STATUS_TAMPER_SEEN = true
      ∧ sameFieldsBut [Reg.AON.TAMPER_LATCH, Reg.AON.TAMPER_CAUSE, Reg.AON.TAMPER_RULE, Reg.AON.TAMPER_SET_COUNT, Hdr.EVENT pgAON 8,
          Reg.KVT.STATUS_TAMPER_SEEN] s t ∧ sameCfg s t ∧ sameStores s t)
  ∧ (∀ s : State, s.ready pgPWR 0x60 = true →
      (s.lc = lcISSUED ∨ s.inService = true → s.brace = false → exec .programFuse s = .next { s with otp := { s.otp with lossTamper := true } })
      ∧ (s.lc = lcISSUED ∨ s.inService = true → s.brace = true → exec .programFuse s = .next (s.cmdStart pgPWR 0x60 .programFuse))
      ∧ (s.lc ≠ lcISSUED → s.inService = false → exec .programFuse s = .next (s.refuse pgPWR Reason.NOT_IN_LIFECYCLE 0x60)))
  ∧ (∀ s : State, s.ready pgCLOV 0x78 = true →
      (s.enabled pgLEDG = false → s.active pgLEDG = false → exec .discard s = .next (s.wr Reg.CLOV.LOG_TAIL (s.rd Reg.CLOV.LOG_HEAD)))
      ∧ (s.enabled pgLEDG = true ∨ s.active pgLEDG = true → exec .discard s = .next (s.refuse pgCLOV Reason.LEDG_ENABLED 0x78)))

/-- ATTACH, SEAL and the reattach window (R47-R56). -/
def Obligations.ModeCommands : Prop :=
  (∀ s : State, s.ready pgGLB modeCmdOff = true →
      (s.mode.phase ≠ Phase.seal → (s.mode.afterWarm = true → s.pagesApplied = true) → s.strobesDone = true → s.tablesLoaded = true →
        ∃ t, exec .attach s = .next t ∧ t.mode = { s.mode with phase := .run, attached := true, reattach := false }
          ∧ t.rd Reg.GLB.MODE_ATTACHED = 1
          ∧ (s.rngServes = true → t.free = s.free + 4 ∧ t.clove = (s.loopsDrawn (s.freeBytes 4)).clove) ∧ (s.rngServes = false → t.clove = s.clove)
          ∧ sameFieldsBut [Reg.GLB.MODE_ATTACHED, Reg.RNG.RESEED_COUNT] s t ∧ sameCfg s t ∧ sameStores s t)
      ∧ (s.mode.phase ≠ Phase.seal → (s.mode.afterWarm = true ∧ s.pagesApplied = false) ∨ s.strobesDone = false ∨ s.tablesLoaded = false →
        exec .attach s = .next (s.refuse pgGLB Reason.CONFLICT_WITH_PAGE modeCmdOff))
      ∧ (s.mode.phase = Phase.seal → exec .attach s = .next (s.refuse pgGLB Reason.NOT_IN_MODE modeCmdOff))
      ∧ (s.mode.phase ≠ Phase.seal → s.mode.attached = true →
        exec .seal s = .next (({ s with mode := { s.mode with sealShelf := false } }).sealFrom 1))
      ∧ (s.mode.phase ≠ Phase.seal → s.mode.attached = true → s.lc < lcFIELD ∨ (s.lc = lcFIELD ∧ s.mode.layUp = true) →
        exec .sealToShelf s = .next (({ s with mode := { s.mode with sealShelf := true } }).sealFrom 1))
      ∧ (s.mode.phase ≠ Phase.seal → s.mode.attached = true → lcFIELD < s.lc ∨ (s.lc = lcFIELD ∧ s.mode.layUp = false) →
        exec .sealToShelf s = .next (s.refuse pgGLB Reason.NOT_IN_LIFECYCLE modeCmdOff))
      ∧ (s.mode.phase = Phase.seal ∨ s.mode.attached = false →
        exec .seal s = .next (s.refuse pgGLB Reason.NOT_IN_MODE modeCmdOff) ∧ exec .sealToShelf s = .next (s.refuse pgGLB Reason.NOT_IN_MODE modeCmdOff)))
  ∧ (∀ s : State, s.sealEnd.power.mainOn = false ∧ s.sealEnd.mode.sealPending = false ∧ s.sealEnd.mode.attached = false
      ∧ s.sealEnd.rd Reg.AON.POWER_STATUS_PWR_EN = 0 ∧ s.sealEnd.sram = [] ∧ s.sealEnd.tcm = [] ∧ s.sealEnd.retention = s.retention ∧ s.sealEnd.otp = s.otp)
  ∧ (∀ s : State, s.mode.sealShelf = true → s.sealEnd.mode.phase = Phase.shelf)
  ∧ (∀ s : State, s.mode.sealShelf = false → s.sealEnd.mode.phase = Phase.vigil)
  ∧ (∀ (s : State) (k : Nat), (s.mode.phase = Phase.seal → s.mode.sealStep = 2 →
        exec (.sealCloseTimeout k) s = .next (s.abandonSess k).sealGo)
      ∧ (s.mode.phase ≠ Phase.seal ∨ s.mode.sealStep ≠ 2 → exec (.sealCloseTimeout k) s = .next s))
  ∧ (∀ s : State, (s.mode.reattach = true → s.mode.attached = false → ∃ t, exec .reattachExpired s = .next t ∧ t.mode.reattach = false
        ∧ (∀ n, n < 6 → s.hostSt n = hsESCORTED → t.hostSt n = hsHELD ∧ t.rd (Reg.HSV.HOST_STATE_HOLD_CAUSE n) = hcREATTACH_EXPIRED)
        ∧ (∀ n, n < 6 → s.hostSt n ≠ hsESCORTED → t.hostSt n = s.hostSt n) ∧ sameCfg s t ∧ sameStores s t)
      ∧ (s.mode.reattach = false ∨ s.mode.attached = true → exec .reattachExpired s = .next s))

namespace Sys2Proof

/-- A request is queued at a resource of SUMAC, or in service there. -/
def hasReq (s : State) (x : Nat) (r : Req) : Prop := r ∈ (s.sched x).queue ∨ (s.sched x).running = some r

/-- The device's own work of this kind waits for the PKE, or has it. -/
def waitsPke (s : State) (j : Job) (n : Nat) : Prop := ∃ r, hasReq s 2 r ∧ r.kind = .job j ∧ r.issuer = n

/-- Steps 1 to 3 of the transition of slot `c` are done (R107): what that leaves, whatever the target's actions are. -/
structure transitionBegun (s t : State) (i : Instr) (c target : Nat) : Prop where
  therm : t.otp.therm = s.otp.therm ||| BitVec.ofNat 16 (2 ^ c)
  codeword : t.nvm.codeword = targetCodeword target c
  busy : t.flag Reg.LCS.TRANSITION_STATUS_BUSY = true
  step : t.rd Reg.LCS.TRANSITION_STATUS_STEP = 4
  lcs : t.lcs.busy = true ∧ t.lcs.deferred = false ∧ t.lcs.slot = c
  runs : (t.cmdSlot pgLCS 0x5C).running = some i
  cfg : sameCfg s t
  mems : t.sram = s.sram ∧ t.flash = s.flash ∧ t.retention = s.retention
  fields : sameFieldsBut [Reg.LCS.TRANSITION_STATUS_BUSY, Reg.LCS.TRANSITION_STATUS_STEP, Reg.RNG.RESEED_COUNT] s t

/-- The actions of the target can be done (R114, R117, R253): only ISSUED asks for a root. -/
def actionsDone (s : State) (target : Nat) : Prop := (s.lcsActions target).2 = none

/-- A token resumes the open intent slot `c` (R112, R123). -/
structure resumes (s : State) (tok : List Byte) (c : Nat) : Prop where
  state : s.lc = lcINVALID
  slot : s.openIntents = [c]
  digest : Config.sha384 tok = (s.intent c).digest
  format : tokenFormatOk tok = true
  authority : tokenAuthority tok = authorityFor (tokenTarget tok)
  keys : keysHash tok 0x20 = (if tokenAuthority tok = 1 then s.otp.icaendiHash else s.otp.custHash)
  sigs : bothSigsOk tok 0x20 0x824 = true
  serial : tokenSerial tok = s.otp.serial ∨ (tokenSerial tok = 0 ∧ authorityFor (tokenTarget tok) = 1)
  count : tokenCount tok = (s.intent c).count
  offers : offered (tokenFrom tok) (tokenTarget tok) = true
  target : tokenTarget tok = (s.intent c).target

end Sys2Proof

/-- Transitions (R107-R112, R121, R123). -/
def Obligations.Transitions : Prop :=
  (∀ (s : State) (a : Nat), s.ready pgLCS 0x5C = true → State.inSram a tokenLen = true → s.pkeFree 2 = true →
      s.tokenFault (s.sramBytes a tokenLen) = none → s.preconditionFault (s.sramBytes a tokenLen) = none →
      actionsDone s (tokenTarget (s.sramBytes a tokenLen)) → ∃ t, exec (.apply a) s = .next t
        ∧ transitionBegun s t (.apply a) s.otp.thermCount (tokenTarget (s.sramBytes a tokenLen))
        ∧ t.intent s.otp.thermCount = ⟨tokenTarget (s.sramBytes a tokenLen), s.otp.thermCount, Config.sha384 (s.sramBytes a tokenLen), true, 0,
            BitVec.allOnes 64⟩)
  ∧ (∀ (s : State) (a r : Nat), s.ready pgLCS 0x5C = true → State.inSram a tokenLen = true → s.pkeFree 2 = true →
      (s.tokenFault (s.sramBytes a tokenLen) = some r ∨
        (s.tokenFault (s.sramBytes a tokenLen) = none ∧ s.preconditionFault (s.sramBytes a tokenLen) = some r)) → ∃ t, exec (.apply a) s = .next t
        ∧ t.rd (Hdr.REASON_CODE pgLCS) = (pgLCS * 256 + r) % 2 ^ 16 ∧ t.raised pgLCS 9 = true ∧ sameCfg s t ∧ sameStores s t)
  ∧ (∀ (s : State) (a : Nat), s.ready pgLCS 0x5C = true → State.inSram a tokenLen = false →
      exec (.apply a) s = .next (s.lcsRefuse Reason.FIELD_RANGE) ∧ exec (.resume a) s = .next (s.lcsRefuse Reason.FIELD_RANGE))
  ∧ (∀ (s : State) (a : Nat), s.ready pgLCS 0x5C = true → State.inSram a tokenLen = true → s.pkeFree 2 = false → ∃ t, exec (.apply a) s = .next t
        ∧ t.flag Reg.LCS.TRANSITION_STATUS_BUSY = true ∧ t.flag Reg.LCS.TRANSITION_STATUS_DEFERRED = s.brace ∧ t.lcs.deferred = true
        ∧ (t.cmdSlot pgLCS 0x5C).running = some (.apply a) ∧ waitsPke t .lcs fwIssuer
        ∧ sameFieldsBut [Reg.LCS.TRANSITION_STATUS_BUSY, Reg.LCS.TRANSITION_STATUS_DEFERRED] s t ∧ sameCfg s t ∧ sameStores s t)
  ∧ (∀ (s : State) (tok : List Byte) (i : Instr) (c : Nat), s.lc = lcINVALID → s.openIntents = [c] → s.pkeFree 2 = false → s.resumeWith tok i = s.lcsWait i)
  ∧ (∀ (s : State) (a : Nat), s.ready pgLCS 0x5C = true → State.inSram a tokenLen = true →
      (s.lc ≠ lcINVALID → exec (.resume a) s = .next (s.lcsRefuse Reason.NOT_IN_LIFECYCLE))
      ∧ (s.lc = lcINVALID → s.openIntents = [] → exec (.resume a) s = .next (s.lcsRefuse Reason.NO_INTENT))
      ∧ (s.lc = lcINVALID → exec (.resume a) s = .next (s.resumeWith (s.sramBytes a tokenLen) (.resume a)))
      ∧ (∀ c, s.pkeFree 2 = true → resumes s (s.sramBytes a tokenLen) c → actionsDone s (s.intent c).target → ∃ t, exec (.resume a) s = .next t
          ∧ transitionBegun s t (.resume a) c (s.intent c).target ∧ t.intent c = s.intent c))
  ∧ (∀ (s : State) (tok : List Byte), s.tapUp = true →
      (s.right rightRESUME = false → exec (.tapResume tok) s = .next (s.tapSelect 0x14 false))
      ∧ (s.right rightRESUME = true → s.cmdRuns pgLCS 0x5C = false →
          exec (.tapResume tok) s = .next ((s.tapSelect 0x14 true).resumeWith tok (.tapResume tok)))
      ∧ (∀ c, s.right rightRESUME = true → s.cmdRuns pgLCS 0x5C = false → s.pkeFree 2 = true → resumes s tok c → actionsDone s (s.intent c).target →
          ∃ t, exec (.tapResume tok) s = .next t
            ∧ transitionBegun s t (.tapResume tok) c (s.intent c).target ∧ t.intent c = s.intent c ∧ t.tap.ir = 0x14))
  ∧ (∀ s : State, s.lcs.busy = true → s.lcs.deferred = false → s.flag Reg.PWR.STATUS_BRACE = false →
      ∃ t, exec .transitionDone s = .next t ∧ (t.intent s.lcs.slot).closed = 0 ∧ t.lcs.busy = false
        ∧ (∃ e ∈ t.nvm.secLog, e.kind = .transition ∧ e.mrt = s.time.mrt) ∧ t.power.mainReset = true ∧ t.power.nextCause = 1
        ∧ t.nvm.codeword = s.nvm.codeword ∧ t.otp = s.otp ∧ (s.ledger.block = none → t.flash = s.flash))
  ∧ (∀ s : State, s.lcs.busy = false ∨ s.lcs.deferred = true ∨ s.flag Reg.PWR.STATUS_BRACE = true → exec .transitionDone s = .next s)

/-- PROGRAM_AUTH (R120). -/
def Obligations.ProgramAuth : Prop :=
  ∀ (s : State) (a : Nat), s.ready pgLCS 0x5C = true →
    (s.lc = lcISSUED → s.otp.custHash = 0 → State.inSram a 48 = true → s.brace = false →
      exec (.lcsProgramAuth a) s = .next { s with otp := { s.otp with custHash := digestOf 384 (s.sramBytes a 48) } })
    ∧ (s.lc ≠ lcISSUED ∨ s.otp.custHash ≠ 0 → ∃ t, exec (.lcsProgramAuth a) s = .next t
        ∧ t.rd (Hdr.REASON_CODE pgLCS) = pgLCS * 256 + Reason.NOT_IN_LIFECYCLE ∧ t.otp = s.otp ∧ t.nvm = s.nvm)

namespace Sys2Proof

/-- A grant without an opening right and without CLEAR_TAMPER has been accepted (R129, R130, R135). -/
structure grantAdded (s t : State) (g : List Byte) : Prop where
  challenge : t.dbg.challenge = none
  rights : t.rd Reg.DBG.RIGHTS_ACTIVE = (s.rd Reg.DBG.RIGHTS_ACTIVE ||| grantRights g) % 2 ^ Reg.DBG.RIGHTS_ACTIVE.width
  event : t.raised pgDBG 8 = true
  isOpen : t.flag Reg.DBG.DBG_STATE_OPEN = s.flag Reg.DBG.DBG_STATE_OPEN
  layUp : t.mode.layUp = (s.mode.layUp || rightIn (grantRights g) rightLAY_UP)
  log : ∃ e ∈ t.nvm.secLog, e.kind = .grantAccepted ∧ e.mrt = s.time.mrt
  ended : (t.cmdSlot pgDBG 0x48).running = none ∧ t.flag Reg.DBG.GRANT_STATUS_BUSY = false
  otp : t.otp = s.otp
  cfg : sameCfg s t

end Sys2Proof

/-- Grants (R126-R135). -/
def Obligations.Grants : Prop :=
  (∀ s : State, s.ready pgDBG 0x48 = true → s.rngFailed = false → s.rngServes = true → ∃ t, exec .dbgChallenge s = .next t
      ∧ t.dbg.challenge = some (digestOf 128 (s.freeBytes 16)) ∧ t.flag Reg.DBG.GRANT_STATUS_CHALLENGE_VALID = true ∧ t.free = s.free + 16
      ∧ t.rd Reg.DBG.RIGHTS_ACTIVE = s.rd Reg.DBG.RIGHTS_ACTIVE ∧ sameCfg s t ∧ sameStores s t)
  ∧ (∀ s : State, s.ready pgDBG 0x48 = true → s.rngFailed = false → s.rngServes = false →
      exec .dbgChallenge s = .next (s.setCmdSlot pgDBG 0x48 ⟨none, some .dbgChallenge⟩))
  ∧ (∀ s : State, s.ready pgDBG 0x48 = true → s.rngFailed = true → ∃ t, exec .dbgChallenge s = .next t
      ∧ t.rd (Hdr.REASON_CODE pgDBG) = 0x2646 ∧ t.dbg = s.dbg ∧ t.free = s.free ∧ sameCfg s t ∧ sameStores s t)
  ∧ (∀ s : State, s.tapUp = true →
      (s.lc ≠ lcSCRAP → exec .tapChallenge s = .next (s.tapSelect 0x10 true).drawChallenge)
      ∧ (s.lc ≠ lcSCRAP → s.rngFailed = false → s.rngServes = true → ∃ t, exec .tapChallenge s = .next t
          ∧ t.dbg.challenge = some (digestOf 128 (s.freeBytes 16)) ∧ t.flag Reg.DBG.GRANT_STATUS_CHALLENGE_VALID = true ∧ t.tap.ir = 0x10
          ∧ t.tap.selected = 0x10 ∧ t.rd Reg.DBG.RIGHTS_ACTIVE = s.rd Reg.DBG.RIGHTS_ACTIVE ∧ sameCfg s t ∧ sameStores s t)
      ∧ (s.lc = lcSCRAP → exec .tapChallenge s = .next (s.tapSelect 0x10 false)))
  ∧ (∀ (s : State) (a : Nat), s.ready pgDBG 0x48 = true → State.inSram a grantLen = true → s.flag Reg.DBG.GRANT_STATUS_BUSY = false →
      exec (.present a) s = .next (s.grantTake (s.sramBytes a grantLen) (some (.present a)))
      ∧ (s.pkeFree 2 = true → s.lcs.busy = false → s.grantFault (s.sramBytes a grantLen) = none → opensRoot (grantRights (s.sramBytes a grantLen)) = false →
          rightIn (grantRights (s.sramBytes a grantLen)) rightCLEAR_TAMPER = false →
          ∃ t, exec (.present a) s = .next t ∧ grantAdded s t (s.sramBytes a grantLen)))
  ∧ (∀ (s : State) (a : Nat), s.ready pgDBG 0x48 = true → s.flag Reg.DBG.GRANT_STATUS_BUSY = true →
      exec (.present a) s = .next (s.setCmdSlot pgDBG 0x48 ⟨none, some (.present a)⟩))
  ∧ (∀ (s : State) (a : Nat), s.ready pgDBG 0x48 = true → State.inSram a grantLen = false → s.flag Reg.DBG.GRANT_STATUS_BUSY = false →
      ∃ t, exec (.present a) s = .next t ∧ t.rd (Hdr.REASON_CODE pgDBG) = pgDBG * 256 + Reason.FIELD_RANGE ∧ t.raised pgDBG 9 = true
        ∧ t.dbg = s.dbg ∧ t.rd Reg.DBG.RIGHTS_ACTIVE = s.rd Reg.DBG.RIGHTS_ACTIVE ∧ sameCfg s t)
  ∧ (∀ (s : State) (g : List Byte) (i : Option Instr),
      (s.pkeFree 2 = true → s.grantTake g i = ({ s with dbg := { s.dbg with grantBuf := g } }).presentGrant g i)
      ∧ (s.pkeFree 2 = false → ∃ t, s.grantTake g i = t ∧ waitsPke t .grant fwIssuer ∧ t.dbg = { s.dbg with grantBuf := g } ∧ t.flag Reg.DBG.GRANT_STATUS_BUSY = true
          ∧ (∀ c, i = some c → (t.cmdSlot pgDBG 0x48).running = some c) ∧ sameFieldsBut [Reg.DBG.GRANT_STATUS_BUSY] s t ∧ sameCfg s t ∧ sameStores s t))
  ∧ (∀ (s : State) (g : List Byte), s.tapUp = true →
      (s.acceptsGrants = false → exec (.grantLoad g) s = .next (s.tapSelect 0x11 false))
      ∧ (s.acceptsGrants = true → s.flag Reg.DBG.GRANT_STATUS_BUSY = false → ∃ u : State, exec (.grantLoad g) s = .next (u.grantTake (g.take 6144) none)
          ∧ u.tap.ir = 0x11 ∧ u.tap.selected = 0x11 ∧ u.dbg = s.dbg ∧ u.regs = s.regs)
      ∧ (s.acceptsGrants = true → s.flag Reg.DBG.GRANT_STATUS_BUSY = false → s.cmdRuns pgDBG 0x48 = false → s.pkeFree 2 = true → s.lcs.busy = false →
          s.grantFault (g.take 6144) = none → opensRoot (grantRights (g.take 6144)) = false → rightIn (grantRights (g.take 6144)) rightCLEAR_TAMPER = false →
          ∃ t, exec (.grantLoad g) s = .next t ∧ grantAdded s t (g.take 6144)))
  ∧ (∀ (s : State) (g : List Byte) (i : Option Instr) (c : Nat), s.lcs.busy = false → s.grantFault g = some c →
      ∃ t, s.presentGrant g i = t ∧ t.dbg.challenge = none ∧ t.rd (Hdr.REASON_CODE pgDBG) = (pgDBG * 256 + c) % 2 ^ 16 ∧ t.raised pgDBG 9 = true
        ∧ t.rd Reg.DBG.RIGHTS_ACTIVE = s.rd Reg.DBG.RIGHTS_ACTIVE
        ∧ (∃ e ∈ t.nvm.secLog, e.kind = .grantRefused ∧ e.reason = c ∧ e.mrt = s.time.mrt) ∧ t.otp = s.otp ∧ sameCfg s t)
  ∧ (∀ (s : State) (g : List Byte) (i : Option Instr), s.lcs.busy = false → s.grantFault g = none → opensRoot (grantRights g) = false →
      rightIn (grantRights g) rightCLEAR_TAMPER = false →
      grantAdded s (s.presentGrant g i) g)
  ∧ (∀ (s : State) (g : List Byte) (i : Option Instr), s.lcs.busy = false → s.grantFault g = none → opensRoot (grantRights g) = true →
      s.flag Reg.DBG.DBG_STATE_OPEN = false → s.lc ≠ lcINVALID → s.lc ≠ lcFIELD → s.rootWithheld = false → s.active pgLEDG = false →
      rightIn (grantRights g) rightCLEAR_TAMPER = false →
      ∃ t, s.presentGrant g i = t ∧ t.dbg.challenge = none ∧ t.rd Reg.DBG.RIGHTS_ACTIVE = (s.rd Reg.DBG.RIGHTS_ACTIVE ||| grantRights g) % 2 ^ Reg.DBG.RIGHTS_ACTIVE.width
        ∧ t.flag Reg.DBG.DBG_STATE_OPEN = true ∧ t.flag Reg.DBG.DBG_STATE_ROOT_TEST = true ∧ t.flag Reg.DBG.DBG_STATE_LEDGER_STOPPED = true
        ∧ t.raised pgDBG 10 = true ∧ t.dbg.opening = none ∧ t.otp = s.otp)
  ∧ (∀ (s : State) (g : List Byte) (i : Option Instr), s.lcs.busy = false → s.grantFault g = none → opensRoot (grantRights g) = true →
      s.flag Reg.DBG.DBG_STATE_OPEN = false → s.lc ≠ lcINVALID → rightIn (grantRights g) rightCLEAR_TAMPER = false →
      (s.rootWithheld = false → s.active pgLEDG = true → ∃ t, s.presentGrant g i = t ∧ t.dbg.opening = some (Config.sha384 g)
        ∧ t.dbg.openRights = grantRights g ∧ t.flag Reg.DBG.GRANT_STATUS_BUSY = true ∧ t.rd Reg.DBG.RIGHTS_ACTIVE = s.rd Reg.DBG.RIGHTS_ACTIVE
        ∧ t.flag Reg.DBG.DBG_STATE_OPEN = false ∧ t.otp = s.otp)
      ∧ ((s.lc = lcFIELD ∧ s.active pgLEDG = false) ∨ s.rootWithheld = true → ∃ t, s.presentGrant g i = t
        ∧ t.rd (Hdr.REASON_CODE pgDBG) = pgDBG * 256 + Reason.DEBUG_OPEN_FAILED ∧ t.rd Reg.DBG.RIGHTS_ACTIVE = s.rd Reg.DBG.RIGHTS_ACTIVE ∧ t.otp = s.otp))
  ∧ (∀ s : State, s.ready pgDBG 0x48 = true → exec .revoke s = .next (s.wr Reg.DBG.RIGHTS_ACTIVE 0))
  ∧ (∀ (s : State) (d : BitVec 384), s.dbg.opening = some d → s.debugOnFb = false → ∃ t, exec .debugOpenFailed s = .next t
        ∧ t.dbg.opening = none ∧ t.rd (Hdr.REASON_CODE pgDBG) = pgDBG * 256 + Reason.DEBUG_OPEN_FAILED
        ∧ t.rd Reg.DBG.RIGHTS_ACTIVE = s.rd Reg.DBG.RIGHTS_ACTIVE ∧ t.flag Reg.DBG.DBG_STATE_ROOT_TEST = s.flag Reg.DBG.DBG_STATE_ROOT_TEST
        ∧ t.vault = s.vault ∧ t.otp = s.otp ∧ sameCfg s t)
  ∧ (∀ s : State, s.dbg.opening = none ∨ s.debugOnFb = true → exec .debugOpenFailed s = .next s)

/-- The test access port (R130, R518, R519). -/
def Obligations.TestPort : Prop :=
  (∀ s : State, s.tapUp = true →
      exec .extest s = .next { s with tap := { s.tap with ir := 0x00, selected := if s.right rightBSCAN then 0x00 else 0xFF } }
      ∧ exec .samplePreload s = .next { s with tap := { s.tap with ir := 0x02, selected := if s.right rightBSCAN then 0x02 else 0xFF } }
      ∧ exec .idcode s = .next { s with tap := { s.tap with ir := 0x01, selected := 0x01, dr := 0xB9400A6B } }
      ∧ (∀ c, exec (.bypass c) s = .next { s with tap := { s.tap with ir := c, selected := 0xFF } }))
  ∧ (∀ (s : State) (op h sl : Nat), s.tapUp = true →
      (s.right rightHOST_HOLD = false → exec (.tapHostCmd op h sl) s = .next (s.tapSelect 0x13 false))
      ∧ (s.right rightHOST_HOLD = true →
          exec (.tapHostCmd op h sl) s = .next ((s.tapSelect 0x13 true).cmdWrite pgHSV hostCmdOff (op % 16 + 16 * (h % 8) + 256 * (sl % 2)))))
  ∧ (∀ (s : State) (acc : DebugAccess), s.tapUp = true → s.debugRights = false → exec (.debugIr acc) s = .next (s.tapSelect 0x12 false))
  ∧ (∀ (s : State) (c : Fin 4), s.tapUp = true → s.right (1 + c.val) = true → ∃ t, exec (.debugIr (.haltCore c)) s = .next t
      ∧ (t.core c.val).halted = true ∧ ((s.core c.val).halted = true → ∀ r, t.coreReg c.val r = s.coreReg c.val r) ∧ t.tap.selected = 0x12 ∧ t.tap.result.error = false ∧ t.regs = s.regs ∧ sameStores s t)
  ∧ (∀ (s : State) (c : Fin 4), s.tapUp = true → s.debugRights = true → s.right (1 + c.val) = false → ∃ t, exec (.debugIr (.haltCore c)) s = .next t
      ∧ t.cores = s.cores ∧ t.tap.selected = 0x12 ∧ t.tap.result.error = true ∧ t.regs = s.regs ∧ sameStores s t)
  ∧ (∀ (s : State) (c : Fin 4), s.tapUp = true → s.right (1 + c.val) = true → (s.core c.val).halted = true →
      (∀ r, exec (.debugIr (.readCore c r)) s = .next { s with tap := { s.tap with ir := 0x12, selected := 0x12, result := ⟨false, s.coreReg c.val r⟩ } })
      ∧ (∀ (i : Fin 32) (v : Nat), i.val ≠ 0 → ∃ t, exec (.debugIr (.writeCore c (.x i) v)) s = .next t ∧ t.coreReg c.val (.x i) = v % 2 ^ 32
          ∧ t.tap.result.error = false ∧ (∀ r, r ≠ .x i → t.coreReg c.val r = s.coreReg c.val r) ∧ t.regs = s.regs ∧ sameStores s t)
      ∧ (∀ (off : Nat) (v : Byte), off < 0x10000 → ∃ t, exec (.debugIr (.writeTcm c off v)) s = .next t
          ∧ Tbl.get [] t.tcm c.val = Mem.store 0 (Tbl.get [] s.tcm c.val) (0x10000000 + off) [v] ∧ t.tap.result.error = false
          ∧ t.cores = s.cores ∧ t.regs = s.regs ∧ t.sram = s.sram ∧ t.flash = s.flash)
      ∧ (∀ off, off < 0x10000 → exec (.debugIr (.readTcm c off)) s = .next { s with tap := { s.tap with
          ir := 0x12, selected := 0x12, result := ⟨false, Mem.le 0 (Tbl.get [] s.tcm c.val) (0x10000000 + off) 1⟩ } })
      ∧ (∃ t, exec (.debugIr (.stepCore c)) s = .next t ∧ (t.core c.val).halted = true ∧ t.tap.result.error = false ∧ t.regs = s.regs ∧ sameStores s t)
      ∧ (∃ t, exec (.debugIr (.resumeCore c)) s = .next t ∧ (t.core c.val).halted = false ∧ t.tap.result.error = false ∧ t.regs = s.regs ∧ sameStores s t))
  ∧ (∀ (s : State) (c : Fin 4) (r : CoreReg), s.tapUp = true → s.debugRights = true → s.right (1 + c.val) = false ∨ (s.core c.val).halted = false →
      exec (.debugIr (.readCore c r)) s = .next { s with tap := { s.tap with ir := 0x12, selected := 0x12, result := ⟨true, 0⟩ } })
  ∧ (∀ (s : State) (i : Nat), s.tapUp = true → s.debugRights = true → i < 512 → ∃ t, exec (.debugIr (.vaultMeta i)) s = .next t
      ∧ (s.right 8 = true → t.tap.result.error = false ∧ t.tap.result.data = leNat (s.metaBytes i))
      ∧ (s.right 8 = false → t.tap.result.error = true) ∧ t.vault = s.vault ∧ t.regs = s.regs ∧ sameStores s t)
  ∧ (∀ (s : State) (a : DebugAccess) (c op h sl : Nat), s.tapUp = false → exec (.debugIr a) s = .next s ∧ exec .extest s = .next s
      ∧ exec .samplePreload s = .next s ∧ exec .idcode s = .next s ∧ exec (.bypass c) s = .next s ∧ exec (.tapHostCmd op h sl) s = .next s)

/-- Mailbox messages for ROM and the pushes (R159-R163, R391, R399, R400). -/
def Obligations.PushMessages : Prop :=
  (∀ (s : State) (code flags off : Nat) (payload : List Byte), s.mgpUp = true → s.mgpOwns = false → code < 256 → flags < 2 → off < 2 ^ 32 →
      payload.length ≤ 4080 → ∃ u, submitted s u code flags off payload ∧ s.hostMessage code flags off payload = u.routeMessage)
  ∧ (∀ s : State, s.mgpUp = true → s.mgpOwns = false → s.boot.phase ≠ BootPhase.done → ∃ u, submitted s u 1 0 0 []
      ∧ exec .identity s = .next (u.mgpRespond 0 s.identityBytes))
  ∧ (∀ (s : State) (m : List Byte), s.mgpUp = true → s.mgpOwns = false → s.boot.phase ≠ BootPhase.done → s.boot.phase ≠ BootPhase.scrap →
      s.boot.phase ≠ BootPhase.fatal →
      (m.length ≤ 4080 → ∃ u, submitted s u 2 0 0 m ∧ exec (.pushManifest m) s
          = .next (if s.brace then u.holdRom .mailbox else State.mgpPush (u.pushManifest 0 0 true m)))
      ∧ (4080 < m.length → m.length ≤ 8160 → exec (.pushManifest m) s
          = .next ((s.hostMessage 2 1 0 (m.take 4080)).hostMessage 2 0 4080 (m.drop 4080))))
  ∧ (∀ (s : State) (off : Nat) (d : List Byte), s.mgpUp = true → s.mgpOwns = false → s.boot.phase ≠ BootPhase.done →
      s.boot.phase ≠ BootPhase.scrap → s.boot.phase ≠ BootPhase.fatal → off < 2 ^ 32 → d.length ≤ 3584 →
      (∃ u, submitted s u 3 0 0 (leBytes 4 off ++ d) ∧ exec (.pushLeaves off d) s
          = .next (if s.brace then u.holdRom .mailbox else State.mgpPush (u.pushLeaves 0 off d)))
      ∧ (∃ u, submitted s u 4 0 0 (leBytes 4 off ++ d) ∧ exec (.pushData off d) s
          = .next (if s.brace then u.holdRom .mailbox else State.mgpPush (u.pushData 0 off d)))
      ∧ (∃ u, submitted s u 5 0 0 [] ∧ exec .pushEnd s = .next (if s.brace then u.holdRom .mailbox else State.mgpPush (u.pushEnd 0))))
  ∧ (∀ (s : State) (off : Nat) (d : List Byte), s.mgpUp = true → s.mgpOwns = false → s.boot.phase = BootPhase.scrap ∨ s.boot.phase = BootPhase.fatal →
      off < 2 ^ 32 → d.length ≤ 3584 → ∃ u, submitted s u 4 0 0 (leBytes 4 off ++ d)
        ∧ exec (.pushData off d) s = .next (u.mgpReject Reason.NOT_IN_LIFECYCLE))
  ∧ (∀ (s : State) (c : ImageChunk), s.romRuns = true →
      (s.laneOn 0 = true → exec (.romImageChunk .net0 c) s = .next (s.romChunk 1 c.peer 0 c))
      ∧ (s.up = true → s.romCan 0 = true → exec (.romImageChunk .can0 c) s = .next (s.romChunk 2 c.peer 0 c)))
  ∧ (∀ (s : State) (m peer q : Nat) (c : ImageChunk), c.reserved ≠ 0 ∨ 1960 < c.data.length → s.romChunk m peer q c = s)
  ∧ (∀ (s : State) (m peer q : Nat) (c : ImageChunk), c.reserved = 0 → c.data.length ≤ 1960 → s.brace = true →
      s.romChunk m peer q c = { s with boot := { s.boot with held := s.boot.held ++ [.chunk m peer q c] } })
  ∧ (∀ s : State, (∀ p, s.boot.push = some p → exec .pushTimeout s = .next (s.pushFail p.medium Reason.PUSH_ABORTED))
      ∧ (s.boot.push = none → exec .pushTimeout s = .next s)
      ∧ (∀ src rest, s.boot.phase = BootPhase.waitPush → s.boot.push = none → s.boot.sources = src :: rest →
          exec .pushWindowExpiry s
            = .next ((({ s with boot := { s.boot with gathered := [] } }).attempt (src - 1) 0 Reason.SOURCE_ABSENT).trySources rest))
      ∧ (s.boot.phase ≠ BootPhase.waitPush ∨ s.boot.push ≠ none → exec .pushWindowExpiry s = .next s))

/-- The push sequencer (R156, R159, R162, R163). -/
def Obligations.PushKeeps : Prop :=
  ∀ (s : State) (medium off : Nat) (d : List Byte),
    (s.boot.push = none → s.pushLeaves medium off d = (s, .reason Reason.PUSH_ABORTED) ∧ s.pushData medium off d = (s, .reason Reason.PUSH_ABORTED)
      ∧ s.pushEnd medium = (s, .reason Reason.PUSH_ABORTED))
    ∧ (∀ p, s.boot.push = some p → p.medium ≠ medium →
      s.pushLeaves medium off d = (s, .busy) ∧ s.pushData medium off d = (s, .busy) ∧ s.pushEnd medium = (s, .busy))
    ∧ (∀ p, s.boot.push = some p → p.medium = medium → off = p.leaves.length → off + d.length < 48 * mfBlocks p.manifest →
      s.pushLeaves medium off d = ({ s with boot := { s.boot with push := some { p with leaves := p.leaves ++ d } } }, .accepted))
    ∧ (∀ p, s.boot.push = some p → p.medium = medium → off ≠ p.leaves.length →
      s.pushLeaves medium off d = (s.pushFail medium Reason.PUSH_ABORTED, .reason Reason.PUSH_ABORTED))
    ∧ (∀ p, s.boot.push = some p → p.medium = medium → p.leaves.length = 48 * mfBlocks p.manifest → off = p.image.length →
      off + d.length < 4096 → off + d.length ≤ 4096 * mfBlocks p.manifest →
      s.pushData medium off d
        = ({ s with sram := Mem.store 0 s.sram (mfLoad p.manifest + off) d, boot := { s.boot with push := some { p with image := p.image ++ d } } }, .accepted))
    ∧ (∀ p, s.boot.push = some p → p.medium = medium → off ≠ p.image.length →
      s.pushData medium off d = (s.pushFail medium Reason.PUSH_ABORTED, .reason Reason.PUSH_ABORTED))
    ∧ (∀ p, s.boot.push = some p → p.medium = medium → p.image.length = 4096 * mfBlocks p.manifest → Config.sha384 p.image = mfImageDigest p.manifest →
      ∃ u : State, s.pushEnd medium = (u.handOver, .handover) ∧ u.boot.phase = BootPhase.loaded ∧ u.boot.push = none
        ∧ u.boot.image = some (State.bootImage (State.mediumSource medium - 1) 0 p.manifest) ∧ u.boot.attempts = s.boot.attempts + 1
        ∧ (s.boot.attempts < 8 → u.rd (Reg.BOOT.ATTEMPT_CODE s.boot.attempts) = 0) ∧ sameCfg s u ∧ sameStores s u)
    ∧ (medium = 0 → s.mgpUp = true → s.mgpOwns = false → s.boot.phase = BootPhase.waitPush ∨ s.boot.phase = BootPhase.await → s.brace = false →
      off < 2 ^ 32 → d.length ≤ 3584 → ∀ p, s.boot.push = some p → p.medium = 0 →
      (off = p.leaves.length → off + d.length < 48 * mfBlocks p.manifest → ∃ t, exec (.pushLeaves off d) s = .next t ∧ t.mgpOwns = false
        ∧ t.boot = { s.boot with push := some { p with leaves := p.leaves ++ d } } ∧ t.sram = s.sram ∧ t.flash = s.flash ∧ t.otp = s.otp ∧ t.nvm = s.nvm ∧ sameCfg s t)
      ∧ (p.leaves.length = 48 * mfBlocks p.manifest → off = p.image.length → off + d.length < 4096 → off + d.length ≤ 4096 * mfBlocks p.manifest →
        ∃ t, exec (.pushData off d) s = .next t ∧ t.mgpOwns = false ∧ t.sram = Mem.store 0 s.sram (mfLoad p.manifest + off) d
          ∧ t.boot = { s.boot with push := some { p with image := p.image ++ d } } ∧ t.flash = s.flash ∧ t.otp = s.otp ∧ t.nvm = s.nvm ∧ sameCfg s t)
      ∧ (p.image.length = 4096 * mfBlocks p.manifest → Config.sha384 p.image = mfImageDigest p.manifest → ∃ t, exec .pushEnd s = .next t ∧ t.mgpOwns = false
        ∧ t.boot.push = none ∧ t.boot.image = some (State.bootImage 2 0 p.manifest) ∧ t.otp = s.otp ∧ t.flash = s.flash))
    ∧ (s.mgpUp = true → s.mgpOwns = false → s.brace = false → s.listens 0 = true → s.boot.push = none → d.length = manifestLen → formatFault d = none →
      (s.signerFault d).2 = none → ∃ t, exec (.pushManifest d) s = .next t ∧ t.mgpOwns = false ∧ t.boot.push = some ⟨0, d, [], []⟩
        ∧ t.boot.phase = s.boot.phase ∧ t.sram = s.sram ∧ t.flash = s.flash ∧ t.otp = s.otp ∧ sameCfg s t)
    ∧ (∀ (c : ImageChunk) (p : Push), s.laneOn 0 = true → s.listens 1 = true → s.brace = false → c.reserved = 0 → c.data.length ≤ 1960 → c.part = 2 →
      s.boot.push = some p → p.medium = 1 → c.offset = p.leaves.length → c.offset + c.data.length < 48 * mfBlocks p.manifest →
      ∃ t, exec (.romImageChunk .net0 c) s = .next t ∧ t.boot = { s.boot with push := some { p with leaves := p.leaves ++ c.data } }
        ∧ t.sram = s.sram ∧ t.flash = s.flash ∧ t.otp = s.otp ∧ sameCfg s t)

namespace Sys2Proof

/-- A core pair that has started at its entry point (R165): machine mode, x1-x31 and PMP cleared, a0 its number. -/
def startedCore (c entry : Nat) : CoreSt := { CoreSt.reset with entry := entry, pc := entry, x := Tbl.put 0 [] 10 c }

end Sys2Proof

/-- Cores, GO and the boot OTP (R139, R145, R146, R165, R170). -/
def Obligations.CoresAndBootOtp : Prop :=
  (∀ (s : State) (c : Fin 4) (l m : Bool), s.up = true → c.val ≠ 0 → s.rd (Reg.CORE.CORE_STATUS_STATE c) = 1 →
      ∃ t : State, exec (.coreSelftestDone c l m) s = .next t.handOver ∧ (s.boot.phase ≠ BootPhase.loaded → t.handOver = t) ∧ t.rd (Reg.CORE.CORE_STATUS_STATE c) = (if l && m then 2 else 4)
        ∧ t.flag (Reg.CORE.CORE_STATUS_LOCKSTEP_OK c) = l ∧ t.flag (Reg.CORE.CORE_STATUS_MBIST_OK c) = m
        ∧ sameFieldsBut [Reg.CORE.CORE_STATUS_STATE c, Reg.CORE.CORE_STATUS_LOCKSTEP_OK c, Reg.CORE.CORE_STATUS_MBIST_OK c] s t
        ∧ sameCfg s t ∧ sameStores s t)
  ∧ (∀ (s : State) (c : Fin 4) (l m : Bool), s.up = false ∨ c.val = 0 ∨ s.rd (Reg.CORE.CORE_STATUS_STATE c) ≠ 1 → exec (.coreSelftestDone c l m) s = .next s)
  ∧ (∀ (s : State) (c : Fin 4) (e : Nat), s.ready pgCORE (0x50 + 4 * c.val) = true →
      (s.rd (Reg.CORE.CORE_STATUS_STATE c) = 2 ∨ s.rd (Reg.CORE.CORE_STATUS_STATE c) = 5 → ∃ t, exec (.ring c e) s = .next t
        ∧ t.rd (Reg.CORE.CORE_STATUS_STATE c) = 3 ∧ t.core c = startedCore c (e / 2 * 2)
        ∧ sameFieldsBut [Reg.CORE.CORE_STATUS_STATE c] s t ∧ sameCfg s t ∧ sameStores s t)
      ∧ (s.rd (Reg.CORE.CORE_STATUS_STATE c) ≠ 2 → s.rd (Reg.CORE.CORE_STATUS_STATE c) ≠ 5 →
        exec (.ring c e) s = .next (s.refuse pgCORE Reason.NOT_IN_MODE (0x50 + 4 * c.val))))
  ∧ (∀ (s : State) (im : BootImage), s.ready pgBOOT 0xA4 = true → s.boot.phase = BootPhase.handover → s.boot.image = some im →
      s.flag Reg.BOOT.ROM_LOCK = false → ∃ t : State, exec .go s = .next t.lanesFollow
        ∧ t.boot.phase = BootPhase.done ∧ t.flag Reg.BOOT.ROM_LOCK = true ∧ t.rd (Reg.CORE.CORE_STATUS_STATE 0) = 3
        ∧ t.core 0 = startedCore 0 (im.entry.getD 0 0)
        ∧ (∀ c, 1 ≤ c → c < 4 → (bit im.coreMask c = true → s.rd (Reg.CORE.CORE_STATUS_STATE c) = 2 → t.rd (Reg.CORE.CORE_STATUS_STATE c) = 3
              ∧ t.core c = startedCore c (im.entry.getD c 0))
            ∧ (bit im.coreMask c = false → s.rd (Reg.CORE.CORE_STATUS_STATE c) ≠ 4 → t.rd (Reg.CORE.CORE_STATUS_STATE c) = 5)
            ∧ (s.rd (Reg.CORE.CORE_STATUS_STATE c) = 4 → t.rd (Reg.CORE.CORE_STATUS_STATE c) = 4))
        ∧ sameCfg s t ∧ sameStores s t)
  ∧ (∀ s : State, s.ready pgBOOT 0xA4 = true → s.boot.phase ≠ BootPhase.handover ∨ s.flag Reg.BOOT.ROM_LOCK = true → exec .go s = .next s)
  ∧ (∀ (s : State) (a : Nat), s.ready pgBOOT 0xAC = true →
      ((s.lc ≠ lcISSUED ∧ s.lc ≠ lcPROVISIONED) ∨ s.otp.orderLock = true → ∃ t, exec (.programFields a) s = .next t
        ∧ t.rd (Hdr.REASON_CODE pgBOOT) = pgBOOT * 256 + Reason.NOT_IN_LIFECYCLE ∧ t.boot.otpBusy = s.boot.otpBusy ∧ t.otp = s.otp)
      ∧ (let r := s.sramBytes a 64
        let formed := State.inSram a 64 = true ∧ allZero (slice r 4 12) = true ∧ fieldLe r 2 1 ≤ 1 ∧ fieldLe r 0 2 < 2 ^ 15
        let agrees := (s.otp.bootOrder = 0 ∨ s.otp.bootOrder = fieldLe r 0 2) ∧ (s.otp.sigEither = false ∨ fieldLe r 2 1 = 1)
          ∧ (s.otp.pushWindow = 0 ∨ s.otp.pushWindow = fieldLe r 3 1) ∧ (digestOf 384 (slice r 16 48) = 0 ∨ s.otp.fwHashA = 0 ∨ s.otp.fwHashB = 0)
        s.lc = lcISSUED ∨ s.lc = lcPROVISIONED → s.otp.orderLock = false →
        (¬ (formed ∧ agrees) → ∃ t, exec (.programFields a) s = .next t
          ∧ t.rd (Hdr.REASON_CODE pgBOOT) = pgBOOT * 256 + Reason.FIELD_RANGE ∧ t.boot.otpBusy = s.boot.otpBusy ∧ t.otp = s.otp)
        ∧ (formed ∧ agrees → ∃ t, exec (.programFields a) s = .next t ∧ t.boot.otpBusy = some (.programFields a) ∧ t.boot.otpRecord = s.sramBytes a 64
            ∧ (t.cmdSlot pgBOOT 0xAC).running = some (.programFields a) ∧ t.regs = s.regs ∧ sameStores s t)))
  ∧ (∀ s : State, s.ready pgBOOT 0xAC = true →
      (s.inService = true → s.otp.fwHashB ≠ 0 → s.otp.revokedB = false → ∃ t, exec .revokeA s = .next t ∧ t.boot.otpBusy = some .revokeA ∧ sameStores s t)
      ∧ (s.inService = true → s.otp.fwHashA ≠ 0 → s.otp.revokedA = false → ∃ t, exec .revokeB s = .next t ∧ t.boot.otpBusy = some .revokeB ∧ sameStores s t)
      ∧ (s.inService = true → s.otp.fwHashB = 0 ∨ s.otp.revokedB = true → ∃ t, exec .revokeA s = .next t
          ∧ t.rd (Hdr.REASON_CODE pgBOOT) = pgBOOT * 256 + Reason.FIELD_RANGE ∧ t.otp = s.otp ∧ t.boot.otpBusy = s.boot.otpBusy)
      ∧ (s.inService = true → s.otp.fwHashA = 0 ∨ s.otp.revokedA = true → ∃ t, exec .revokeB s = .next t
          ∧ t.rd (Hdr.REASON_CODE pgBOOT) = pgBOOT * 256 + Reason.FIELD_RANGE ∧ t.otp = s.otp ∧ t.boot.otpBusy = s.boot.otpBusy)
      ∧ (s.inService = false → ∃ t, exec .revokeA s = .next t ∧ exec .revokeB s = .next t
          ∧ t.rd (Hdr.REASON_CODE pgBOOT) = pgBOOT * 256 + Reason.NOT_IN_LIFECYCLE ∧ t.otp = s.otp ∧ t.boot.otpBusy = s.boot.otpBusy))
  ∧ (∀ s : State, s.flag Reg.PWR.STATUS_BRACE = false →
      (s.boot.otpBusy = some .revokeA → ∃ t, exec .otpDone s = .next t ∧ t.otp = { s.otp with revokedA := true } ∧ t.boot.otpBusy = none
        ∧ t.raised pgBOOT 8 = true ∧ (t.cmdSlot pgBOOT 0xAC).running = none ∧ t.nvm = s.nvm ∧ sameCfg s t)
      ∧ (s.boot.otpBusy = some .revokeB → ∃ t, exec .otpDone s = .next t ∧ t.otp = { s.otp with revokedB := true } ∧ t.boot.otpBusy = none
        ∧ t.raised pgBOOT 8 = true ∧ (t.cmdSlot pgBOOT 0xAC).running = none ∧ t.nvm = s.nvm ∧ sameCfg s t)
      ∧ (∀ a, s.boot.otpBusy = some (.programFields a) → ∃ t, exec .otpDone s = .next t ∧ t.otp.bootOrder = fieldLe s.boot.otpRecord 0 2
        ∧ t.otp.pushWindow = fieldLe s.boot.otpRecord 3 1 ∧ (s.otp.fwHashA = 0 → t.otp.fwHashA = digestOf 384 (slice s.boot.otpRecord 16 48))
        ∧ (s.otp.fwHashA ≠ 0 → t.otp.fwHashA = s.otp.fwHashA) ∧ t.boot.otpBusy = none ∧ t.nvm = s.nvm ∧ sameCfg s t))
  ∧ (∀ s : State, s.flag Reg.PWR.STATUS_BRACE = true ∨ s.boot.otpBusy = none → exec .otpDone s = .next s)

/-- DEFINE and CHAIN (R181, R183, R186-R188). -/
def Obligations.VaultDefine : Prop :=
  (∀ (s : State) (a : Nat), s.ready pgKVT 0x44 = true → State.inSram a (8 + s.sramLe (a + 6) 2) = true → s.sramLe (a + 6) 2 ≠ 0 →
      s.sramLe (a + 6) 2 ≤ 256 → s.defineFault (s.sramLe a 2) (s.sramLe (a + 2) 2) = none → s.sramLe (a + 4) 1 ≤ 3 →
      s.captureFault (s.sramLe (a + 2) 2) = (s, none) → (s.slot (s.sramLe (a + 2) 2)).keyAttr = atDERIVE → (s.slot (s.sramLe (a + 2) 2)).depth < 8 →
      ∃ t, exec (.define a) s = .next t
        ∧ (t.slot (s.sramLe a 2)).state = slDEFINED ∧ (t.slot (s.sramLe a 2)).parent = s.sramLe (a + 2) 2
        ∧ (t.slot (s.sramLe a 2)).ld = Config.sha384 (s.sramBytes (a + 8) (s.sramLe (a + 6) 2)) ∧ (t.slot (s.sramLe a 2)).keyAttr = s.sramLe (a + 4) 1
        ∧ (t.slot (s.sramLe a 2)).pgen = (s.slot (s.sramLe (a + 2) 2)).gen ∧ (t.slot (s.sramLe a 2)).gen = 0
        ∧ (t.slot (s.sramLe a 2)).depth = (s.slot (s.sramLe (a + 2) 2)).depth + 1 ∧ t.slotTagOk (s.sramLe a 2) = true
        ∧ (∀ j, j ≠ s.sramLe a 2 → t.slot j = s.slot j) ∧ t.vault.root = s.vault.root ∧ t.vault.cache = s.vault.cache
        ∧ t.rd Reg.KVT.RESULT_CODE = 0 ∧ t.raised pgKVT 8 = true
        ∧ sameFieldsBut [Reg.KVT.RESULT_SLOT, Reg.KVT.RESULT_CODE, Reg.KVT.STATUS_BUSY, Hdr.EVENT pgKVT 8] s t ∧ sameCfg s t ∧ sameStores s t)
  ∧ (∀ (s : State) (a : Nat), s.ready pgKVT 0x44 = true → State.inSram a 8 = true → s.defineFault (s.sramLe a 2) (s.sramLe (a + 2) 2) = none →
      s.sramLe (a + 5) 1 ≠ 0 → s.captureFault (s.sramLe (a + 2) 2) = (s, none) → (s.slot (s.sramLe (a + 2) 2)).keyAttr = atDERIVE →
      (s.slot (s.sramLe (a + 2) 2)).chain = true → (s.slot (s.sramLe (a + 2) 2)).depth < 8 →
      (s.sramLe (a + 5) 1 ≤ (s.slot (s.sramLe (a + 2) 2)).svn → ∃ t, exec (.chain a) s = .next t
        ∧ (t.slot (s.sramLe a 2)).state = slDEFINED ∧ (t.slot (s.sramLe a 2)).parent = s.sramLe (a + 2) 2
        ∧ (t.slot (s.sramLe a 2)).keyAttr = atDERIVE ∧ (t.slot (s.sramLe a 2)).chain = true
        ∧ (t.slot (s.sramLe a 2)).svn = (s.slot (s.sramLe (a + 2) 2)).svn - s.sramLe (a + 5) 1
        ∧ (t.slot (s.sramLe a 2)).depth = (s.slot (s.sramLe (a + 2) 2)).depth + 1
        ∧ (∀ j, j ≠ s.sramLe a 2 → t.slot j = s.slot j) ∧ t.rd Reg.KVT.RESULT_CODE = 0
        ∧ sameFieldsBut [Reg.KVT.RESULT_SLOT, Reg.KVT.RESULT_CODE, Reg.KVT.STATUS_BUSY, Hdr.EVENT pgKVT 8] s t ∧ sameCfg s t ∧ sameStores s t)
      ∧ ((s.slot (s.sramLe (a + 2) 2)).svn < s.sramLe (a + 5) 1 → exec (.chain a) s = .next (s.kvtResult (s.sramLe a 2) kvCHAIN_RANGE)))
  ∧ (∀ (s : State) (a : Nat), s.ready pgKVT 0x44 = true →
      (s.vault.root = none → exec (.define a) s = .next (s.kvtResult (s.sramLe a 2) kvROOT_UNAVAILABLE)
        ∧ exec (.chain a) s = .next (s.kvtResult (s.sramLe a 2) kvROOT_UNAVAILABLE))
      ∧ (∀ c, State.inSram a (8 + s.sramLe (a + 6) 2) = true → s.sramLe (a + 6) 2 ≠ 0 → s.sramLe (a + 6) 2 ≤ 256 →
          s.defineFault (s.sramLe a 2) (s.sramLe (a + 2) 2) = some c → exec (.define a) s = .next (s.kvtResult (s.sramLe a 2) c))
      ∧ (∀ u c, State.inSram a (8 + s.sramLe (a + 6) 2) = true → s.sramLe (a + 6) 2 ≠ 0 → s.sramLe (a + 6) 2 ≤ 256 →
          s.defineFault (s.sramLe a 2) (s.sramLe (a + 2) 2) = none → s.sramLe (a + 4) 1 ≤ 3 → s.captureFault (s.sramLe (a + 2) 2) = (u, some c) →
          exec (.define a) s = .next (u.kvtResult (s.sramLe a 2) kvNOT_USABLE)))
  ∧ (∀ (s : State) (t p : Nat),
      (s.vault.root = none → s.defineFault t p = some kvROOT_UNAVAILABLE)
      ∧ (s.vault.root ≠ none → t ≤ 5 ∨ p = 0 → s.defineFault t p = some kvRESERVED)
      ∧ (s.vault.root ≠ none → 6 ≤ t → p ≠ 0 → 512 ≤ t ∨ 512 ≤ p → s.defineFault t p = some Reason.FIELD_RANGE)
      ∧ (6 ≤ t → t < 512 → p ≠ 0 → p < 512 → s.vault.root ≠ none → (s.slot t).state ≠ slFREE → s.defineFault t p = some kvWRITE_ONCE)
      ∧ (6 ≤ t → t < 512 → p ≠ 0 → p < 512 → s.vault.root ≠ none → (s.slot t).state = slFREE → s.defineFault t p = none))

/-- Withdrawal, cache and persistence (R187-R205). -/
def Obligations.VaultWithdraw : Prop :=
  (∀ (s : State) (a : Nat), s.ready pgKVT 0x44 = true → State.inSram a 2 = true →
      (s.sramLe a 2 = 0 → exec (.invalidate a) s = .next (s.kvtResult 0 kvRESERVED))
      ∧ (512 ≤ s.sramLe a 2 → exec (.invalidate a) s = .next (s.kvtResult (s.sramLe a 2) Reason.FIELD_RANGE))
      ∧ (0 < s.sramLe a 2 → s.sramLe a 2 < 512 → slINVALID ≤ (s.slot (s.sramLe a 2)).state →
          exec (.invalidate a) s = .next (s.kvtResult (s.sramLe a 2) 0))
      ∧ (0 < s.sramLe a 2 → s.sramLe a 2 < 512 → (s.slot (s.sramLe a 2)).state < slINVALID →
          exec (.invalidate a) s = .next ((s.withdraw (s.sramLe a 2) slINVALID kvREVOKED).settle.kvtResult (s.sramLe a 2) 0)))
  ∧ (∀ (s : State) (a : Nat), s.ready pgKVT 0x44 = true → State.inSram a 2 = false → exec (.invalidate a) s = .next (s.kvtResult (s.sramLe a 2) Reason.FIELD_RANGE))
  ∧ (∀ (s : State) (i st reason : Nat),
      (i ∉ s.descendants 8 [i] → ((s.withdraw i st reason).slot i).state = st ∧ ((s.withdraw i st reason).slot i).gen = ((s.slot i).gen + 1) % 256)
      ∧ (∀ j ∈ s.descendants 8 [i], ((s.withdraw i st reason).slot j).state = slORPHAN)
      ∧ (∀ j, j ≠ i → j ∉ s.descendants 8 [i] → (s.withdraw i st reason).slot j = s.slot j)
      ∧ (∀ e ∈ (s.withdraw i st reason).vault.cache, e.slot ≠ i ∧ e.slot ∉ s.descendants 8 [i]) ∧ sameStores s (s.withdraw i st reason))
  ∧ (∀ (s : State) (i : Nat), s.up = true → i < 512 → (∀ j, j < 512 → s.slotTagOk j = true) → ∃ u : State, exec (.scrub [i]) s = .next u.settle
      ∧ (i ∉ s.descendants 8 [i] → (u.slot i).state = slBAD) ∧ (∀ j ∈ s.descendants 8 [i], (u.slot j).state = slORPHAN)
      ∧ (∀ j, j ≠ i → j ∉ s.descendants 8 [i] → u.slot j = s.slot j) ∧ u.raised pgKVT 9 = true
      ∧ u.rd Reg.KVT.BAD_COUNT = min (s.rd Reg.KVT.BAD_COUNT + 1) (2 ^ Reg.KVT.BAD_COUNT.width - 1)
      ∧ (∃ e ∈ u.nvm.secLog, e.kind = .slotBad ∧ e.mrt = s.time.mrt) ∧ sameCfg s u ∧ u.otp = s.otp)
  ∧ (∀ s : State, s.up = true → (∀ j, j < 512 → s.slotTagOk j = true) → exec (.scrub []) s = .next s.settle)
  ∧ (∀ (s : State) (l : List Nat), s.up = false → exec (.scrub l) s = .next s)
  ∧ (∀ s : State, s.up = true → s.rngServes = true → ∃ t, exec .maskRefresh s = .next t
      ∧ t.vault.cache.map (fun e => (e.slot, e.entry, e.pinned, e.val.value)) = s.vault.cache.map (fun e => (e.slot, e.entry, e.pinned, e.val.value))
      ∧ t.free = s.free + 48 * (s.vault.cache.length + (if s.vault.root.isSome then 1 else 0))
      ∧ t.vault.slots = s.vault.slots ∧ t.vault.root.map Masked.value = s.vault.root.map Masked.value
      ∧ sameFieldsBut [Reg.RNG.RESEED_COUNT] s t ∧ sameCfg s t ∧ sameStores s t)
  ∧ (∀ s : State, s.up = false ∨ s.rngServes = false → exec .maskRefresh s = .next s)
  ∧ (∀ s : State, s.ready pgKVT 0x44 = true →
      (s.brace = false → ∃ t, exec .save s = .next t ∧ (t.cmdSlot pgKVT 0x44).running = some .save ∧ t.flag Reg.KVT.STATUS_BUSY = true
        ∧ t.nvm = { s.nvm with persist := none } ∧ t.vault = s.vault ∧ sameFieldsBut [Reg.KVT.STATUS_BUSY] s t ∧ sameCfg s t)
      ∧ (s.brace = true → ∃ t, exec .save s = .next t ∧ (t.cmdSlot pgKVT 0x44).running = some .save ∧ t.flag Reg.KVT.STATUS_BUSY = true
        ∧ t.flag Reg.KVT.PERSIST_STATUS_DEFERRED = true ∧ t.nvm = s.nvm ∧ t.vault = s.vault
        ∧ sameFieldsBut [Reg.KVT.STATUS_BUSY, Reg.KVT.PERSIST_STATUS_DEFERRED] s t ∧ sameCfg s t)
      ∧ (∃ t, exec .restore s = .next t ∧ (t.cmdSlot pgKVT 0x44).running = some .restore ∧ t.flag Reg.KVT.STATUS_BUSY = true
        ∧ t.nvm = s.nvm ∧ t.vault = s.vault ∧ sameFieldsBut [Reg.KVT.STATUS_BUSY] s t ∧ sameCfg s t))
  ∧ (∀ s : State, (s.cmdSlot pgKVT 0x44).running = some .save → s.flag Reg.PWR.STATUS_BRACE = false → s.vault.root ≠ none → ∃ t, exec .kvtCmdDone s = .next t
      ∧ t.nvm = { s.nvm with persist := some ⟨s.persistRecords, s.persistMac s.persistRecords⟩ } ∧ t.vault = s.vault
      ∧ t.rd Reg.KVT.RESULT_CODE = 0 ∧ t.flag Reg.KVT.PERSIST_STATUS_VALID = true ∧ (t.cmdSlot pgKVT 0x44).running = none ∧ sameCfg s t)
  ∧ (∀ s : State, (s.cmdSlot pgKVT 0x44).running = some .save → s.flag Reg.PWR.STATUS_BRACE = true →
      exec .kvtCmdDone s = .next (s.wr Reg.KVT.PERSIST_STATUS_DEFERRED 1))
  ∧ (∀ s : State, (s.cmdSlot pgKVT 0x44).running = none → exec .kvtCmdDone s = .next s)
  ∧ (∀ (s : State) (p : Persist), (s.cmdSlot pgKVT 0x44).running = some .restore → s.flag Reg.PWR.STATUS_BRACE = false → s.vault.root ≠ none →
      s.nvm.persist = some p → p.mac = s.persistMac p.records → ∃ t u : State, exec .kvtCmdDone s = .next t
      ∧ u = (s.wr Reg.KVT.PERSIST_STATUS_VALID 1).wr Reg.KVT.PERSIST_STATUS_RECORDS p.records.length
      ∧ t = (u.replay p.records).1.kvtResult (u.replay p.records).2.1 (u.replay p.records).2.2)
  ∧ (∀ s : State, (s.cmdSlot pgKVT 0x44).running = some .restore → s.flag Reg.PWR.STATUS_BRACE = true → exec .kvtCmdDone s = .next s)
  ∧ (∀ s : State, (s.cmdSlot pgKVT 0x44).running = some .restore → s.flag Reg.PWR.STATUS_BRACE = false → s.vault.root ≠ none → s.nvm.persist = none → ∃ t, exec .kvtCmdDone s = .next t
      ∧ t.rd Reg.KVT.RESULT_CODE = kvPERSIST_MAC ∧ t.flag Reg.KVT.PERSIST_STATUS_VALID = false ∧ t.vault = s.vault ∧ t.nvm = s.nvm)
  ∧ (∀ (s : State) (a : Nat), s.ready pgKVT 0x44 = true → State.inSram a 12 = true → s.sramLe (a + 2) 2 ≠ 0 →
      s.sramLe a 2 + s.sramLe (a + 2) 2 ≤ 512 → State.inSram (s.sramLe (a + 8) 4) (16 * s.sramLe (a + 2) 2) = true → ∃ t, exec (.readMeta a) s = .next t
      ∧ t.sram = Mem.store 0 s.sram (s.sramLe (a + 8) 4) ((List.range (s.sramLe (a + 2) 2)).flatMap (fun k => s.metaBytes (s.sramLe a 2 + k)))
      ∧ t.vault = s.vault ∧ t.rd Reg.KVT.RESULT_CODE = 0 ∧ sameCfg s t ∧ t.flash = s.flash ∧ t.otp = s.otp ∧ t.nvm = s.nvm)

/-- DGE_RUN, DGE_DONE and DGE_ABORT (R72, R191, R209-R218). -/
def Obligations.DigestOperation : Prop :=
  (∀ (s : State) (n : Fin 4) (a : Nat), s.ready (pgDGE n) 0x44 = true → (s.dgeOf n).owner = none → s.dgeDescFault n a = none →
      (s.dgeDescAt a).first = true → ((s.dgeDescAt a).hmac = false ∧ (s.dgeDescAt a).dest ≠ 1 ∨
        (s.dgeDescAt a).hmac = true ∧ (s.dgeDescAt a).keySource ≠ 1 ∧ (s.aesOf ((s.dgeDescAt a).keySource - 2)).dkr.source = none
        ∧ (s.aesOf ((s.dgeDescAt a).keySource - 2)).dkr.loaded = true
        ∧ State.dgeUseOk (some (s.aesOf ((s.dgeDescAt a).keySource - 2)).dkr.keyAttr) (s.dgeDescAt a) = true ∧ (s.dgeDescAt a).dest ≠ 1) →
      ∃ t, exec (.dgeRun n a) s = .next t
      ∧ (t.dgeOf n).run = some (s.dgeDescAt a) ∧ (t.dgeOf n).msg = s.ramBytes (s.dgeDescAt a).src (s.dgeDescAt a).len
      ∧ (t.dgeOf n).alg = (s.dgeDescAt a).alg ∧ (t.dgeOf n).hmac = (s.dgeDescAt a).hmac
      ∧ ((s.dgeDescAt a).hmac = true → (t.dgeOf n).key = (s.aesOf ((s.dgeDescAt a).keySource - 2)).dkr.key)
      ∧ (∀ m, m < 4 → m ≠ n.val → t.dgeOf m = s.dgeOf m)
      ∧ t.flag (Reg.DGE.STATUS_BUSY n) = true ∧ t.flag (Reg.DGE.STATUS_OPEN n) = !(s.dgeDescAt a).last ∧ t.flag (Reg.DGE.STATUS_DONE n) = false
      ∧ t.rd (Reg.DGE.BYTE_COUNT_LO n) = 0 ∧ t.rd (Reg.DGE.BYTE_COUNT_HI n) = 0
      ∧ (∀ i, i < 16 → t.rd (Reg.DGE.DIGEST n i) = 0) ∧ t.rd (Reg.DGE.MATCH n) = 0 ∧ t.rd (Reg.DGE.MATCH_N n) = 0
      ∧ (t.cmdSlot (pgDGE n) 0x44).running = some (.dgeRun n a) ∧ t.vault = s.vault ∧ sameCfg s t ∧ sameStores s t)
  ∧ (∀ (s : State) (n : Fin 4) (a : Nat), s.ready (pgDGE n) 0x44 = true → (s.dgeOf n).owner = none → s.dgeDescFault n a = none →
      (s.dgeDescAt a).first = false → State.dgeUseOk (s.dgeOf n).keyAttr (s.dgeDescAt a) = true → (s.dgeDescAt a).dest ≠ 1 →
      ∃ t, exec (.dgeRun n a) s = .next t ∧ t.dgeOf n = { s.dgeOf n with
          msg := (s.dgeOf n).msg ++ s.ramBytes (s.dgeDescAt a).src (s.dgeDescAt a).len, run := some (s.dgeDescAt a) }
      ∧ t.flag (Reg.DGE.STATUS_OPEN n) = s.flag (Reg.DGE.STATUS_OPEN n) ∧ t.flag (Reg.DGE.STATUS_BUSY n) = true
      ∧ (t.cmdSlot (pgDGE n) 0x44).running = some (.dgeRun n a) ∧ t.vault = s.vault ∧ sameCfg s t ∧ sameStores s t)
  ∧ (∀ (s : State) (n : Fin 4) (a c : Nat), s.ready (pgDGE n) 0x44 = true → (s.dgeOf n).owner = none → s.dgeDescFault n a = some c →
      exec (.dgeRun n a) s = .next (s.dgeRefuse n c))
  ∧ (∀ (s : State) (n : Fin 4) (a h : Nat), s.ready (pgDGE n) 0x44 = true → (s.dgeOf n).owner = some h →
      exec (.dgeRun n a) s = .next (s.setCmdSlot (pgDGE n) 0x44 { s.cmdSlot (pgDGE n) 0x44 with queued := some (.dgeRun n a) }))
  ∧ (∀ (s : State) (n : Fin 4) (d : DgeDesc), s.brace = false → (s.dgeOf n).owner = none → (s.dgeOf n).run = some d → (s.dgeOf n).revoked = none →
      (d.last = false → ∃ t, exec (.dgeDone n) s = .next t ∧ (t.dgeOf n).run = none ∧ (t.dgeOf n).msg = (s.dgeOf n).msg
        ∧ t.flag (Reg.DGE.STATUS_OPEN n) = s.flag (Reg.DGE.STATUS_OPEN n) ∧ t.flag (Reg.DGE.STATUS_BUSY n) = false
        ∧ t.flag (Reg.DGE.STATUS_DONE n) = s.flag (Reg.DGE.STATUS_DONE n) ∧ t.rd (Reg.DGE.BYTE_COUNT_LO n) = (s.dgeOf n).msg.length % 2 ^ 32
        ∧ (t.cmdSlot (pgDGE n) 0x44).running = none ∧ t.vault = s.vault ∧ sameCfg s t ∧ sameStores s t)
      ∧ (∀ p, d.last = true → d.dest = 1 → d.compare = false → (s.dgeOf n).keySlot = some p → p ≠ d.target → s.slotFree d.target = true →
        ∃ t, exec (.dgeDone n) s = .next t ∧ (t.slot d.target).state = slDEFINED ∧ (t.slot d.target).parent = p
        ∧ (t.slot d.target).pgen = (s.slot p).gen ∧ (t.slot d.target).depth = (s.slot p).depth + 1 ∧ (t.slot d.target).ld = d.label
        ∧ (t.slot d.target).keyAttr = d.targetAttr
        ∧ (∀ i, i < 16 → t.rd (Reg.DGE.DIGEST n i) = s.rd (Reg.DGE.DIGEST n i)) ∧ t.flag (Reg.DGE.STATUS_DONE n) = true ∧ sameCfg s t ∧ sameStores s t)
      ∧ (d.last = true → d.dest = 0 → d.compare = false → ∃ t, exec (.dgeDone n) s = .next t ∧ t.dgeOf n = DgeSt.idle
        ∧ (∀ i, i < 16 → t.rd (Reg.DGE.DIGEST n i) = beNat (((if (s.dgeOf n).hmac then hmacBytes (s.dgeOf n).alg (s.dgeOf n).key (s.dgeOf n).msg
              else shaBytes (s.dgeOf n).alg (s.dgeOf n).msg).drop (4 * i)).take 4) % 2 ^ 32)
        ∧ t.flag (Reg.DGE.STATUS_OPEN n) = false ∧ t.flag (Reg.DGE.STATUS_BUSY n) = false ∧ t.flag (Reg.DGE.STATUS_DONE n) = true
        ∧ t.raised (pgDGE n) 8 = true ∧ (t.cmdSlot (pgDGE n) 0x44).running = none ∧ sameCfg s t ∧ sameStores s t)
      ∧ (d.last = true → d.dest = 2 → d.compare = true → ∃ t, exec (.dgeDone n) s = .next t
        ∧ (let r := (if (s.dgeOf n).hmac then hmacBytes (s.dgeOf n).alg (s.dgeOf n).key (s.dgeOf n).msg else shaBytes (s.dgeOf n).alg (s.dgeOf n).msg)
           let good := decide (r = s.ramBytes d.ref (shaLen (s.dgeOf n).alg))
           t.rd (Reg.DGE.MATCH n) = (if good then matchOK else matchNOK) ∧ t.rd (Reg.DGE.MATCH_N n) = (if good then matchNOK else matchOK)
           ∧ (good = false → t.raised (pgDGE n) 9 = true))
        ∧ (∀ i, i < 16 → t.rd (Reg.DGE.DIGEST n i) = s.rd (Reg.DGE.DIGEST n i)) ∧ t.flag (Reg.DGE.STATUS_DONE n) = true ∧ sameCfg s t ∧ sameStores s t))
  ∧ (∀ (s : State) (n : Fin 4) (d : DgeDesc) (r : Nat), s.brace = false → (s.dgeOf n).owner = none → (s.dgeOf n).run = some d →
      d.last = true → (s.dgeOf n).revoked = some r → ∃ t, exec (.dgeDone n) s = .next t ∧ t.dgeOf n = DgeSt.idle
        ∧ (∀ i, i < 16 → t.rd (Reg.DGE.DIGEST n i) = 0) ∧ t.rd (Reg.DGE.MATCH n) = 0 ∧ t.rd (Reg.DGE.MATCH_N n) = 0
        ∧ t.rd (Hdr.REASON_CODE (pgDGE n)) = (pgKVT * 256 + r) % 2 ^ 16 ∧ t.raised pgKVT 10 = true ∧ sameCfg s t ∧ sameStores s t)
  ∧ (∀ (s : State) (n : Fin 4), s.brace = true ∨ ((s.dgeOf n).owner = none ∧ (s.dgeOf n).run = none) → exec (.dgeDone n) s = .next s)
  ∧ (∀ (s : State) (n : Fin 4), s.up = true →
      ((s.dgeOf n).run ≠ none ∨ (s.dgeOf n).leaves ≠ none ∨ s.flag (Reg.DGE.STATUS_OPEN n) = true → ∃ t, exec (.dgeAbort n) s = .next t
        ∧ t.dgeOf n = { DgeSt.idle with owner := (s.dgeOf n).owner } ∧ (∀ i, i < 16 → t.rd (Reg.DGE.DIGEST n i) = 0) ∧ t.rd (Reg.DGE.MATCH n) = 0
        ∧ t.rd (Hdr.REASON_CODE (pgDGE n)) = pgDGE n * 256 + dgABORTED ∧ t.flag (Reg.DGE.STATUS_BUSY n) = (s.dgeOf n).owner.isSome
        ∧ t.cmdSlot (pgDGE n) 0x44 = ⟨none, none⟩ ∧ sameCfg s t ∧ sameStores s t)
      ∧ ((s.dgeOf n).run = none → (s.dgeOf n).leaves = none → s.flag (Reg.DGE.STATUS_OPEN n) = false →
        exec (.dgeAbort n) s = .next (s.setCmdSlot (pgDGE n) 0x44 ⟨none, none⟩).lanesGo))

/-- LEAVES and lane H (R221-R229). -/
def Obligations.LeavesAndLaneH : Prop :=
  (∀ (s : State) (n : Fin 4) (a : Nat), s.ready (pgDGE n) 0x44 = true → (s.dgeOf n).owner = none → State.inSram a 80 = true →
      0x10 ≤ (s.dgeDescAt a).source → (s.dgeDescAt a).source ≤ 0x15 → (s.dgeDescAt a).alg ≤ 1 → (s.dgeDescAt a).len ≠ 0 →
      (s.dgeDescAt a).len % shaLen (s.dgeDescAt a).alg = 0 → s.flag (Reg.DGE.STATUS_OPEN n) = false →
      State.inSram (s.dgeDescAt a).src (s.dgeDescAt a).len = true →
      ((s.snpOf ((s.dgeDescAt a).source - 0x10)).laneI ≠ 1 →
        (∀ m, m < 4 → ∀ l, (s.dgeOf m).leaves = some l → l.unit ≠ (s.dgeDescAt a).source - 0x10) → ∃ t, exec (.leaves n a) s = .next t
        ∧ (t.dgeOf n).leaves = some ⟨(s.dgeDescAt a).source - 0x10, (s.dgeDescAt a).alg, (s.dgeDescAt a).src,
            (s.dgeDescAt a).len / shaLen (s.dgeDescAt a).alg, []⟩
        ∧ (t.snpOf ((s.dgeDescAt a).source - 0x10)).tries = [] ∧ (t.snpOf ((s.dgeDescAt a).source - 0x10)).reread = []
        ∧ t.rd (Reg.DGE.LEAF_BLOCKS n) = 0 ∧ t.rd (Reg.DGE.LEAF_FIRST_FAIL n) = 0xFFFFFFFF ∧ t.rd (Reg.DGE.MATCH n) = 0
        ∧ t.flag (Reg.DGE.STATUS_BUSY n) = true ∧ t.flag (Reg.DGE.STATUS_DONE n) = false
        ∧ (t.cmdSlot (pgDGE n) 0x44).running = some (.leaves n a) ∧ sameCfg s t ∧ sameStores s t)
      ∧ (∀ m l, m < 4 → (s.dgeOf m).leaves = some l → l.unit = (s.dgeDescAt a).source - 0x10 →
        exec (.leaves n a) s = .next (s.dgeRefuse n dgSNP_BOUND))
      ∧ ((s.snpOf ((s.dgeDescAt a).source - 0x10)).laneI = 1 → exec (.leaves n a) s = .next (s.dgeRefuse n dgSNP_BOUND)))
  ∧ (∀ (s : State) (n : Fin 4) (l : LeavesOp) (e : LaneDigest) (q : List LaneDigest), s.brace = false → (s.dgeOf n).owner = none →
      (s.dgeOf n).leaves = some l → l.unit < 6 → (s.snpOf l.unit).fifo = e :: q → e.index < l.count → e.index ∉ l.final →
      s.fwReads l.unit = false →
      (l.final.length + 1 < l.count → ∃ t, exec (.leafVerdict n) s = .next t
        ∧ (t.snpOf l.unit).fifo = q ∧ (t.dgeOf n).leaves = some { l with final := e.index :: l.final }
        ∧ t.rd (Reg.DGE.LEAF_BLOCKS n) = (l.final.length + 1) % 2 ^ (Reg.DGE.LEAF_BLOCKS n).width
        ∧ (e.digest = s.leafOf l e.index → t.rd (Reg.DGE.LEAF_FIRST_FAIL n) = s.rd (Reg.DGE.LEAF_FIRST_FAIL n))
        ∧ (e.digest ≠ s.leafOf l e.index → t.rd (Reg.DGE.LEAF_FIRST_FAIL n)
            = min e.index (s.rd (Reg.DGE.LEAF_FIRST_FAIL n)) % 2 ^ (Reg.DGE.LEAF_FIRST_FAIL n).width)
        ∧ t.rd (Reg.DGE.MATCH n) = s.rd (Reg.DGE.MATCH n) ∧ sameCfg s t ∧ sameStores s t)
      ∧ (l.final.length + 1 = l.count → e.digest = s.leafOf l e.index → s.rd (Reg.DGE.LEAF_FIRST_FAIL n) = 0xFFFFFFFF →
        ∃ t, exec (.leafVerdict n) s = .next t ∧ t.dgeOf n = DgeSt.idle ∧ t.rd (Reg.DGE.MATCH n) = matchOK ∧ t.rd (Reg.DGE.MATCH_N n) = matchNOK
        ∧ t.flag (Reg.DGE.STATUS_DONE n) = true ∧ t.flag (Reg.DGE.STATUS_BUSY n) = false ∧ sameCfg s t ∧ sameStores s t))
  ∧ (∀ (s : State) (n : Fin 4) (l : LeavesOp) (e : LaneDigest) (q : List LaneDigest), s.brace = false → (s.dgeOf n).owner = none →
      (s.dgeOf n).leaves = some l → l.unit < 6 → (s.snpOf l.unit).fifo = e :: q → e.index < l.count → e.digest ≠ s.leafOf l e.index →
      s.fwReads l.unit = true → Tbl.get 0 (s.snpOf l.unit).tries e.index < 3 → ∃ t, exec (.leafVerdict n) s = .next t
        ∧ t.dgeOf n = s.dgeOf n ∧ t.rd (Reg.DGE.LEAF_BLOCKS n) = s.rd (Reg.DGE.LEAF_BLOCKS n)
        ∧ t.rd (Reg.DGE.LEAF_FIRST_FAIL n) = s.rd (Reg.DGE.LEAF_FIRST_FAIL n) ∧ t.rd (Reg.DGE.MATCH n) = s.rd (Reg.DGE.MATCH n)
        ∧ Tbl.get 0 (t.snpOf l.unit).tries e.index = Tbl.get 0 (s.snpOf l.unit).tries e.index + 1 ∧ sameCfg s t)
  ∧ (∀ (s : State) (n : Fin 4), s.brace = true ∨ ((s.dgeOf n).owner = none ∧ (s.dgeOf n).leaves = none) → exec (.leafVerdict n) s = .next s)
  ∧ (∀ (s : State) (u : Fin 6) (a : Nat), s.ready pgSNP (0x4C + 0x40 * u.val) = true → State.inSram a 1 = true → ∃ t, exec (.snpArm u a) s = .next t
      ∧ t.armed u = true ∧ t.rd (Reg.SNP.STAGE_OK u) = 0 ∧ t.rd (Reg.SNP.STAGE_FAIL u) = 0 ∧ t.rd (Reg.SNP.STAGE_UNSEEN u) = 0
      ∧ t.rd (Reg.SNP.STAGE_FIRST_FAIL u) = 0xFFFFFFFF ∧ t.rd (Reg.SNP.STAGE_MATCH u) = matchNOK ∧ t.rd (Reg.SNP.STAGE_MATCH_N u) = matchOK
      ∧ (t.snpOf u).base = s.cfg (Reg.SNP.STAGE_BASE u) * 4096 ∧ (t.snpOf u).size = s.cfg (Reg.SNP.STAGE_SIZE u) * 4096
      ∧ (t.snpOf u).alg = s.cfg (Reg.SNP.MODE_STAGE_ALG u) ∧ (t.snpOf u).leafTable = a ∧ (t.snpOf u).counted = []
      ∧ (t.snpOf u).waiting = [] ∧ (t.snpOf u).unseen = [] ∧ (t.snpOf u).cur = none
      ∧ (∀ v, v < 6 → v ≠ u.val → t.snpOf v = s.snpOf v) ∧ sameCfg s t ∧ sameStores s t)
  ∧ (∀ (s : State) (u : Fin 6), s.ready pgSNP (0x4C + 0x40 * u.val) = true →
      (s.armed u = true → ∃ t, exec (.snpDisarm u) s = .next t ∧ t.armed u = false ∧ t.rd (Reg.SNP.STAGE_STATUS_DISARM_CAUSE u) = 1
        ∧ t.rd (Reg.SNP.STAGE_MATCH u) = matchNOK ∧ t.rd (Reg.SNP.STAGE_MATCH_N u) = matchOK ∧ t.raised pgSNP 9 = true
        ∧ (t.snpOf u).cur = none ∧ (t.snpOf u).waiting = [] ∧ (s.rd (Reg.SNP.STAGE_UNSEEN u) = t.rd (Reg.SNP.STAGE_UNSEEN u))
        ∧ t.rd (Reg.SNP.STAGE_OK u) = s.rd (Reg.SNP.STAGE_OK u) ∧ t.rd (Reg.SNP.STAGE_FAIL u) = s.rd (Reg.SNP.STAGE_FAIL u)
        ∧ sameCfg s t ∧ sameStores s t)
      ∧ (s.armed u = false → exec (.snpDisarm u) s = .next (s.refuse pgSNP 0x40 (0x4C + 0x40 * u.val))))

namespace Sys2Proof

/-- What an engine writes for the input bytes of a part of the operation that is open on it (R238, R239). -/
def aesPartOut (x : AesSt) (input : List Byte) : List Byte :=
  (aesOut x.mode x.decrypt x.key (if x.mode = 3 then x.iv.take 12 else x.iv) (x.msg ++ input)).drop x.msg.length

end Sys2Proof

/-- AES_RUN, WRAP, UNWRAP, AES_DONE and AES_ABORT (R72, R191, R198, R238-R243). -/
def Obligations.CipherOperation : Prop :=
  (∀ (s : State) (e : Fin 2) (a : Nat), s.ready pgAES (State.aesCmdOff e) = true → (s.aesOf e).saved = none → s.aesRunFault e a = none →
      (bit (s.sramLe (a + 1) 1) 0 = true → ∃ t, exec (.aesRun e a) s = .next t ∧ (t.aesOf e).run = some (.part (s.sramBytes a 48))
        ∧ (t.aesOf e).key = (s.aesOf e).dkr.key ∧ (t.aesOf e).keySlot = (s.aesOf e).dkr.source ∧ (t.aesOf e).revoked = none
        ∧ (t.aesOf e).mode = s.sramLe a 1 ∧ (t.aesOf e).decrypt = bit (s.sramLe (a + 1) 1) 2 ∧ (t.aesOf e).msg = []
        ∧ (t.aesOf e).iv = s.sramBytes (a + 0x20) 16 ∧ (t.aesOf e).dkr = (s.aesOf e).dkr ∧ t.aesBusy e = true
        ∧ t.rd (Reg.AES.TAG_MATCH e) = 0 ∧ t.rd (Reg.AES.TAG_MATCH_N e) = 0 ∧ (t.cmdSlot pgAES (State.aesCmdOff e)).running = some (.aesRun e a)
        ∧ sameCfg s t ∧ sameStores s t)
      ∧ (bit (s.sramLe (a + 1) 1) 0 = false → ∃ t, exec (.aesRun e a) s = .next t
        ∧ t.aesOf e = { s.aesOf e with run := some (.part (s.sramBytes a 48)) } ∧ t.aesBusy e = true ∧ t.vault = s.vault
        ∧ (t.cmdSlot pgAES (State.aesCmdOff e)).running = some (.aesRun e a) ∧ sameCfg s t ∧ sameStores s t))
  ∧ (∀ (s : State) (e : Fin 2) (a c : Nat), s.ready pgAES (State.aesCmdOff e) = true → (s.aesOf e).saved = none → s.aesRunFault e a = some c →
      ∃ t, exec (.aesRun e a) s = .next t
      ∧ t.rd (Hdr.REASON_CODE pgAES) = (pgAES * 256 + c) % 2 ^ 16 ∧ t.aes = s.aes ∧ sameCfg s t ∧ sameStores s t)
  ∧ (∀ (s : State) (e : Fin 2) (a : Nat) (c : AesCtx), s.ready pgAES (State.aesCmdOff e) = true → (s.aesOf e).saved = some c →
      exec (.aesRun e a) s = .next (s.setCmdSlot pgAES (State.aesCmdOff e) { s.cmdSlot pgAES (State.aesCmdOff e) with queued := some (.aesRun e a) }))
  ∧ (∀ (s : State) (e : Fin 2) (d : List Byte), s.stx.sealRun = none → s.stx.sealWait = none → (s.aesOf e).run = some (.part d) → s.brace = false →
      (bit (fieldLe d 1 1) 1 = false → ∃ u : State, exec (.aesDone e) s = .next u.goOn
        ∧ (u.aesOf e).msg = (s.aesOf e).msg ++ s.ramBytes (fieldLe d 4 4) (fieldLe d 0x0C 4) ∧ (u.aesOf e).run = none
        ∧ (u.aesOf e).key = (s.aesOf e).key ∧ (u.aesOf e).keySlot = (s.aesOf e).keySlot ∧ u.aesBusy e = s.aesBusy e
        ∧ (fieldLe d 8 4 < State.retBase → u.sram = Mem.store 0 s.sram (fieldLe d 8 4)
            (aesPartOut (s.aesOf e) (s.ramBytes (fieldLe d 4 4) (fieldLe d 0x0C 4))))
        ∧ (u.cmdSlot pgAES (State.aesCmdOff e)).running = none ∧ u.flash = s.flash ∧ u.otp = s.otp ∧ sameCfg s u)
      ∧ (bit (fieldLe d 1 1) 1 = true → (s.aesOf e).revoked = none →
        ∃ u : State, exec (.aesDone e) s = .next u.goOn ∧ u.aesBusy e = false ∧ u.flag (Reg.AES.STATUS_DONE e) = true ∧ u.raised pgAES 8 = true
        ∧ (u.aesOf e).run = none ∧ (u.aesOf e).key = [] ∧ ((s.aesOf e).zeroDkr = false → (u.aesOf e).dkr = (s.aesOf e).dkr)
        ∧ (let input := s.ramBytes (fieldLe d 4 4) (fieldLe d 0x0C 4)
           let tag := fun m => (digestBytes (Config.gcmTag (s.aesOf e).key ((s.aesOf e).iv.take 12) (s.aesOf e).aad m)).take (fieldLe d 2 1)
           let v := s.ramStore (fieldLe d 8 4) (aesPartOut (s.aesOf e) input)
           let w := if (s.aesOf e).mode = 3 ∧ (s.aesOf e).decrypt = false
             then v.ramStore (fieldLe d 0x18 4) (tag (aesOut 3 false (s.aesOf e).key ((s.aesOf e).iv.take 12) ((s.aesOf e).msg ++ input))) else v
           u.sram = w.sram ∧ u.retention = w.retention
           ∧ ((s.aesOf e).mode = 3 → (s.aesOf e).decrypt = true → u.rd (Reg.AES.TAG_MATCH e)
              = if tag ((s.aesOf e).msg ++ input) = v.ramBytes (fieldLe d 0x18 4) (fieldLe d 2 1) then matchOK else matchNOK))
        ∧ u.flash = s.flash ∧ u.otp = s.otp ∧ sameCfg s u))
  ∧ (∀ (s : State) (e : Fin 2) (d : List Byte), s.stx.sealRun = none → s.stx.sealWait = none → (s.aesOf e).run = some (.part d) → s.brace = true →
      exec (.aesDone e) s = .next s.goOn)
  ∧ (∀ (s : State) (e : Fin 2) (good : Bool), (s.tagVerdict e good).rd (Reg.AES.TAG_MATCH e) = (if good then matchOK else matchNOK)
      ∧ (s.tagVerdict e good).rd (Reg.AES.TAG_MATCH_N e) = (if good then matchNOK else matchOK) ∧ (good = false → (s.tagVerdict e good).raised pgAES 9 = true))
  ∧ (∀ (s : State) (e : Fin 2) (a : Nat), s.ready pgAES (State.aesCmdOff e) = true → s.aesBusy e = false → (s.aesOf e).saved = none → s.brace = false →
      State.inSram a 16 = true → 1 ≤ s.sramLe (a + 2) 1 → s.sramLe (a + 2) 1 ≤ 3 → s.sramLe (a + 4) 1 ≤ 1 →
      (s.sramLe (a + 4) 1 = 1 → s.sramLe (a + 5) 1 = 32 ∧ (s.aesOf e).dkr.loaded = true) →
      s.sramLe (a + 5) 1 = 32 ∨ s.sramLe (a + 5) 1 = 48 → s.sramLe (a + 6) 1 ≤ 3 → s.sramLe (a + 7) 1 = 0 → s.sramLe (a + 0x0C) 4 = 0 →
      State.inSram (s.sramLe (a + 8) 4) (s.sramLe (a + 5) 1 + 24) = true →
      s.rngFailed = false → s.kekFault (s.sramLe a 2) = (s, none) → s.captureWaits (s.sramLe a 2) = false →
      (∃ t, exec (.wrap e a) s = .next t ∧ (t.aesOf e).run = some (.wrap (s.sramBytes a 16))
        ∧ (t.aesOf e).key = (digestBytes (s.capture (s.sramLe a 2)).2).take 32 ∧ (t.aesOf e).keySlot = some (s.sramLe a 2)
        ∧ t.aesBusy e = true ∧ (t.cmdSlot pgAES (State.aesCmdOff e)).running = some (.wrap e a) ∧ sameCfg s t ∧ sameStores s t)
      ∧ (State.unwrapTargetOk (s.sramLe (a + 2) 1) (s.sramLe (a + 3) 1) (s.sramLe (a + 5) 1) = true →
        ∃ t, exec (.unwrap e a) s = .next t ∧ (t.aesOf e).run = some (.unwrap (s.sramBytes a 16))
        ∧ (t.aesOf e).key = (digestBytes (s.capture (s.sramLe a 2)).2).take 32 ∧ (t.aesOf e).keySlot = some (s.sramLe a 2)
        ∧ t.aesBusy e = true ∧ (t.cmdSlot pgAES (State.aesCmdOff e)).running = some (.unwrap e a) ∧ sameCfg s t ∧ sameStores s t))
  ∧ (∀ (s : State) (e : Fin 2) (d : List Byte), s.stx.sealRun = none → s.stx.sealWait = none → (s.aesOf e).run = some (.wrap d) →
      (s.aesOf e).revoked = none → (fieldLe d 4 1 = 0 → s.rngFailed = false ∧ s.rngServes = true) → ∃ u : State, exec (.aesDone e) s = .next u.goOn
        ∧ u.sram = Mem.store 0 s.sram (fieldLe d 8 4) (kwWrap (s.aesOf e).key
            (if fieldLe d 4 1 = 0 then blobPlain (fieldLe d 6 1) (fieldLe d 2 1) (s.freeBytes (fieldLe d 5 1))
             else blobPlain (s.aesOf e).dkr.keyAttr (fieldLe d 2 1) (s.aesOf e).dkr.key))
        ∧ u.aesBusy e = false ∧ u.flag (Reg.AES.STATUS_DONE e) = true ∧ u.retention = s.retention ∧ u.flash = s.flash ∧ u.otp = s.otp ∧ sameCfg s u)
  ∧ (∀ (s : State) (e : Fin 2) (d : List Byte), s.stx.sealRun = none → s.stx.sealWait = none → (s.aesOf e).run = some (.unwrap d) →
      (s.aesOf e).revoked = none →
      (Config.kwOk (s.aesOf e).key (s.sramBytes (fieldLe d 8 4) (fieldLe d 5 1 + 24)) = false → ∃ u : State, exec (.aesDone e) s = .next u.goOn
        ∧ u.rd (Hdr.REASON_CODE pgAES) = pgAES * 256 + aeUNWRAP_FAIL ∧ (u.aesOf (1 - e.val)).dkr = (s.aesOf (1 - e.val)).dkr ∧ u.sas = s.sas
        ∧ u.pke.regs = s.pke.regs ∧ u.aesBusy e = false ∧ sameCfg s u)
      ∧ (∀ p, p = kwPlain (s.aesOf e).key (s.sramBytes (fieldLe d 8 4) (fieldLe d 5 1 + 24)) →
        Config.kwOk (s.aesOf e).key (s.sramBytes (fieldLe d 8 4) (fieldLe d 5 1 + 24)) = true →
        State.blobOk p (fieldLe d 2 1) (fieldLe d 5 1) = true → (s.aesOf e).zeroDkr = false →
        (∀ x : Fin 2, fieldLe d 2 1 = 1 → fieldLe d 5 1 = 32 → fieldLe d 3 1 = x.val → x = e ∨ s.aesBusy x = false →
          ∃ u : State, exec (.aesDone e) s = .next u.goOn ∧ (u.aesOf x).dkr = ⟨true, slice p 16 32, fieldLe p 4 1, 3, none, 0⟩
          ∧ u.flag (Reg.AES.DKR_STATUS_LOADED x) = true ∧ u.aesBusy e = false ∧ sameCfg s u ∧ sameStores s u)
        ∧ (fieldLe d 2 1 = 2 → s.saLoadFault (fieldLe d 3 1) (fieldLe p 4 1) = none → ∃ u : State, exec (.aesDone e) s = .next u.goOn
          ∧ (u.sa (fieldLe d 3 1)).key = slice p 16 (fieldLe d 5 1) ∧ (u.sa (fieldLe d 3 1)).loaded = true ∧ u.aesBusy e = false
          ∧ sameCfg s u ∧ sameStores s u)
        ∧ (fieldLe d 2 1 = 3 → ∃ u : State, exec (.aesDone e) s = .next u.goOn ∧ (u.keyReg (fieldLe d 3 1)).seed = slice p 16 (fieldLe d 5 1)
          ∧ (u.keyReg (fieldLe d 3 1)).ephemeral = false ∧ (u.keyReg (fieldLe d 3 1)).keyAttr = some (fieldLe p 4 1) ∧ u.aesBusy e = false
          ∧ sameCfg s u ∧ sameStores s u)))
  ∧ (∀ (s : State) (e : Fin 2), s.up = true → s.stx.sealRun = none → s.stx.sealWait = none →
      (s.aesBusy e = true → ∃ u : State, exec (.aesAbort e) s = .next u.goOn ∧ u.aesBusy e = false ∧ u.rd (Hdr.REASON_CODE pgAES) = pgAES * 256 + aeABORTED
        ∧ u.cmdSlot pgAES (State.aesCmdOff e) = ⟨none, none⟩ ∧ ((s.aesOf e).zeroDkr = false → (u.aesOf e).dkr = (s.aesOf e).dkr)
        ∧ sameCfg s u ∧ sameStores s u)
      ∧ (s.aesBusy e = false → exec (.aesAbort e) s = .next (s.setCmdSlot pgAES (State.aesCmdOff e) ⟨none, none⟩).goOn))
  ∧ (∀ (s : State) (e : Fin 2) (a : Nat) (c : AesCtx), s.up = true → s.stx.sealRun = some (e.val, a) → (s.aesOf e).saved = some c →
      ∃ u : State, exec (.aesAbort e) s = .next u.goOn ∧ (u.aesOf e).saved = none ∧ (u.aesOf e).run = (s.aesOf e).run
        ∧ u.flag (Reg.AES.STATUS_SAVED e) = false ∧ u.rd (Hdr.REASON_CODE pgAES) = pgAES * 256 + aeABORTED
        ∧ (u.cmdSlot pgAES (State.aesCmdOff e)).queued = none ∧ sameCfg s u ∧ sameStores s u)
  ∧ (∀ (s : State) (e : Fin 2), s.aesYields e = true → (s.aesOf e).zeroDkr = false →
      (s.aesSave e).aesBusy e = false ∧ (s.aesSave e).flag (Reg.AES.STATUS_SAVED e) = true ∧ ((s.aesSave e).aesOf e).run = none
      ∧ ((s.aesSave e).aesOf e).dkr = (s.aesOf e).dkr
      ∧ (((s.aesSave e).aesRestore e).aesOf e) = s.aesOf e ∧ ((s.aesSave e).aesRestore e).aesBusy e = true
      ∧ ((s.aesSave e).aesRestore e).flag (Reg.AES.STATUS_SAVED e) = false
      ∧ (((s.aesSave e).aesRestore e).cmdSlot pgAES (State.aesCmdOff e)) = s.cmdSlot pgAES (State.aesCmdOff e))

/-- LOAD_REF, LOAD_KEY, DKR_CLEAR and KEY_CLEAR_TIMEOUT (R202, R203, R236). -/
def Obligations.DataKeyRegisters : Prop :=
  (∀ (s : State) (e : Fin 2) (a sl : Nat), s.ready pgAES (State.dkrCmdOff e) = true → s.aesBusy e = false → s.captureFault sl = (s, none) →
      (s.slot sl).keyAttr = atENC ∨ (s.slot sl).keyAttr = atDEC → s.captureWaits sl = false → ∃ t, exec (.loadRef e a sl) s = .next t
      ∧ (t.aesOf e).dkr = ⟨true, (digestBytes ((s.cacheFill sl).keyOf sl)).take 32, (s.slot sl).keyAttr, 1, some sl, (s.slot sl).gen⟩
      ∧ t.flag (Reg.AES.DKR_STATUS_LOADED e) = true ∧ t.rd (Reg.AES.DKR_STATUS_ATTR e) = (s.slot sl).keyAttr ∧ t.rd (Reg.AES.DKR_STATUS_SOURCE e) = 1
      ∧ t.rd (Reg.AES.DKR_STATUS_SLOT e) = sl % 512 ∧ (t.aesOf (1 - e.val)) = s.aesOf (1 - e.val) ∧ sameCfg s t ∧ sameStores s t)
  ∧ (∀ (s : State) (e : Fin 2) (a sl : Nat), s.ready pgAES (State.dkrCmdOff e) = true → s.aesBusy e = false → s.captureFault sl = (s, none) →
      (s.slot sl).keyAttr = atENC ∨ (s.slot sl).keyAttr = atDEC → s.maskStalled = true ∨ (s.brace = true ∧ ∀ c ∈ s.vault.cache, c.slot ≠ sl) →
      ∃ t, exec (.loadRef e a sl) s = .next t ∧ t.cmdSlot pgAES (State.dkrCmdOff e) = { s.cmdSlot pgAES (State.dkrCmdOff e) with queued := some (.loadRef e a sl) }
      ∧ (s.maskStalled = true → t.flag Reg.KVT.STATUS_MASK_STALL = true ∧ t.raised pgKVT 13 = true) ∧ t.aes = s.aes ∧ t.vault = s.vault
      ∧ sameCfg s t ∧ sameStores s t)
  ∧ (∀ (s : State) (e : Fin 2) (a : Nat), s.ready pgAES (State.dkrCmdOff e) = true → s.aesBusy e = false → ∃ t, exec (.loadKey e a) s = .next t
      ∧ (t.aesOf e).dkr = ⟨true, s.keyWords e, a % 4, 2, none, 0⟩ ∧ (∀ i, i < 8 → t.rd (Reg.AES.KEY (8 * e.val + i)) = 0)
      ∧ t.flag (Reg.AES.DKR_STATUS_LOADED e) = true ∧ t.rd (Reg.AES.DKR_STATUS_SOURCE e) = 2 ∧ sameCfg s t ∧ sameStores s t)
  ∧ (∀ (s : State) (e : Fin 2), s.ready pgAES (State.dkrCmdOff e) = true → s.aesBusy e = false → ∃ t, exec (.dkrClear e) s = .next t
      ∧ (t.aesOf e).dkr = Dkr.empty ∧ t.flag (Reg.AES.DKR_STATUS_LOADED e) = false ∧ sameCfg s t ∧ sameStores s t)
  ∧ (∀ (s : State) (e : Fin 2) (a sl : Nat) (c : Instr), c = .loadRef e a sl ∨ c = .loadKey e a ∨ c = .dkrClear e →
      s.ready pgAES (State.dkrCmdOff e) = true → s.aesBusy e = true → ∃ t, exec c s = .next t ∧ t.aes = s.aes
      ∧ t.rd (Hdr.REASON_CODE pgAES) = pgAES * 256 + aeKEY_IN_USE ∧ t.rd (Hdr.REASON_OFFSET pgAES) = State.dkrCmdOff e ∧ sameCfg s t ∧ sameStores s t
      ∧ sameFieldsBut [Hdr.REASON_CODE pgAES, Hdr.REASON_OFFSET pgAES] s t)
  ∧ (∀ (s : State) (e : Fin 3), ∃ t, exec (.keyClearTimeout e) s = .next t
      ∧ (∀ i, i < 8 → t.rd (if e.val < 2 then Reg.AES.KEY (8 * e.val + i) else Reg.MSEC.KEY i) = 0) ∧ t.aes = s.aes ∧ t.sas = s.sas
      ∧ sameFieldsBut ((List.range 8).map (fun i => if e.val < 2 then Reg.AES.KEY (8 * e.val + i) else Reg.MSEC.KEY i)) s t ∧ sameCfg s t ∧ sameStores s t)

namespace Sys2Proof

/-- Command `i` has started operation `op` of the descriptor at `a` on the PKE, with a key of slot `src` (R191, R244). -/
def pkeStarted (s t : State) (op a : Nat) (i : Instr) (src : Option Nat) : Prop :=
  t.pke = { s.pke with run := some (op, s.sramBytes a 32), keySlot := src, revoked := none }
    ∧ t.flag Reg.PKE.STATUS_BUSY = true ∧ t.flag Reg.PKE.STATUS_DONE = false ∧ (op = 1 → t.rd Reg.PKE.VERIFY_MATCH = 0 ∧ t.rd Reg.PKE.VERIFY_MATCH_N = 0)
    ∧ (t.cmdSlot pgPKE 0x44).running = some i ∧ (src = none → t.vault = s.vault) ∧ sameCfg s t ∧ sameStores s t

/-- The operation of firmware on the PKE has ended with `u` (R191, R244). -/
def pkeEnded (s u : State) : Prop :=
  u.pke.run = none ∧ u.pke.keySlot = none ∧ u.flag Reg.PKE.STATUS_BUSY = false ∧ u.flag Reg.PKE.STATUS_DONE = true ∧ u.raised pgPKE 8 = true
    ∧ (u.cmdSlot pgPKE 0x44).running = none ∧ u.flash = s.flash ∧ u.otp = s.otp ∧ u.nvm = s.nvm ∧ sameCfg s u

end Sys2Proof

/-- VERIFY, SIGN, GENKEY, ECDH, PKE_CLEAR and PKE_DONE (R191, R244-R248). -/
def Obligations.PublicKeyOperation : Prop :=
  (∀ (s : State) (a : Nat), s.ready pgPKE 0x44 = true → (s.sched 2).running = none →
      (let d := s.sramBytes a 32
       let src := (s.keyReg (fieldLe d 1 1)).source
      (s.pkeFault 1 a = none → ∃ t, exec (.verify a) s = .next t ∧ pkeStarted s t 1 a (.verify a) none)
      ∧ (s.pkeFault 2 a = none → ∃ t, exec (.sign a) s = .next t ∧ pkeStarted s t 2 a (.sign a) src)
      ∧ (s.pkeFault 3 a = none → fieldLe d 2 1 = 1 → ∃ t, exec (.genkey a) s = .next t ∧ pkeStarted s t 3 a (.genkey a) none)
      ∧ (s.pkeFault 3 a = none → fieldLe d 2 1 = 0 → s.captureFault (fieldLe d 4 2) = (s, none) → (s.slot (fieldLe d 4 2)).keyAttr = atDERIVE →
          s.captureWaits (fieldLe d 4 2) = false → ∃ t, exec (.genkey a) s = .next t ∧ pkeStarted s t 3 a (.genkey a) (some (fieldLe d 4 2)))
      ∧ (s.pkeFault 4 a = none → (fieldLe d 2 1 = 1 → s.ecdhFault (fieldLe d 4 2) (src.getD 0) = none) →
          ∃ t, exec (.ecdh a) s = .next t ∧ pkeStarted s t 4 a (.ecdh a) src)
      ∧ (s.pkeFault 5 a = none → ∃ t, exec (.pkeClear a) s = .next t ∧ pkeStarted s t 5 a (.pkeClear a) none)))
  ∧ (∀ (s : State) (op a c : Nat) (i : Instr), (op, i) ∈ [(1, Instr.verify a), (2, .sign a), (3, .genkey a), (4, .ecdh a), (5, .pkeClear a)] →
      s.ready pgPKE 0x44 = true → (s.sched 2).running = none → s.pkeFault op a = some c → ∃ t, exec i s = .next t
        ∧ t.rd (Hdr.REASON_CODE pgPKE) = (pgPKE * 256 + c) % 2 ^ 16 ∧ t.pke = s.pke ∧ sameCfg s t ∧ sameStores s t
        ∧ sameFieldsBut [Hdr.REASON_CODE pgPKE, Hdr.REASON_OFFSET pgPKE] s t)
  ∧ (∀ (s : State) (a c : Nat) (v : Bool), s.ready pgPKE 0x44 = true → (s.sched 2).running = none → s.pkeFault 4 a = none → fieldLe (s.sramBytes a 32) 2 1 = 1 →
      s.ecdhFault (fieldLe (s.sramBytes a 32) 4 2) ((s.keyReg (fieldLe (s.sramBytes a 32) 1 1)).source.getD 0) = some (v, c) → ∃ t, exec (.ecdh a) s = .next t
        ∧ t.rd (Hdr.REASON_CODE pgPKE) = ((if v then pgKVT else pgPKE) * 256 + c) % 2 ^ 16 ∧ t.pke = s.pke ∧ t.vault = s.vault ∧ sameCfg s t ∧ sameStores s t)
  ∧ (∀ (s : State) (d : List Byte), s.pke.run = some (1, d) → s.pke.revoked = none → s.brace = false →
      (let good := Config.sigVerify (fieldLe d 0 1) (s.sramBytes (fieldLe d 8 4) (pubLen (fieldLe d 0 1))) (s.sramBytes (fieldLe d 0x0C 4) (State.pkeMsgLen d))
        (s.pkeCtx d) (s.sramBytes (fieldLe d 0x10 4) (sigLen (fieldLe d 0 1)))
      ∃ u : State, exec .pkeDone s = .next u.pumpPke.goOn ∧ u.rd Reg.PKE.VERIFY_MATCH = (if good then matchOK else matchNOK)
        ∧ u.rd Reg.PKE.VERIFY_MATCH_N = (if good then matchNOK else matchOK) ∧ u.pke.regs = s.pke.regs ∧ pkeEnded s u ∧ sameStores s u))
  ∧ (∀ (s : State) (d : List Byte), s.pke.run = some (2, d) → s.pke.revoked = none → s.brace = false → s.rngFailed = false → s.rngServes = true →
      (let r := signChecked (fieldLe d 0 1) (s.keyReg (fieldLe d 1 1)).seed (s.sramBytes (fieldLe d 0x0C 4) (State.pkeMsgLen d)) (s.pkeCtx d)
        (s.freeBytes (signRandom (fieldLe d 0 1)))
      ∃ u : State, exec .pkeDone s = .next u.pumpPke.goOn ∧ u.pke.regs = s.pke.regs ∧ pkeEnded s u
        ∧ (∀ sig, r = .ok sig → u.sram = Mem.store 0 s.sram (fieldLe d 0x10 4) sig)
        ∧ (∀ c, r = .error c → u.rd (Hdr.REASON_CODE pgPKE) = (pgPKE * 256 + c) % 2 ^ 16 ∧ sameStores s u)))
  ∧ (∀ (s : State) (d : List Byte), s.pke.run = some (3, d) → s.pke.revoked = none → s.brace = false → fieldLe d 1 1 < 8 →
      1 ≤ fieldLe d 0 1 → fieldLe d 0 1 ≤ 4 →
      (let ends := fun (v : List Byte) (src : Option Nat) (g : Nat) => ∃ u : State, exec .pkeDone s = .next u.pumpPke.goOn
        ∧ u.keyReg (fieldLe d 1 1) = ⟨fieldLe d 0 1, seedFrom (fieldLe d 0 1) v, src.isNone, src, g, none⟩
        ∧ u.rd (Reg.PKE.KEYREG_ALG (fieldLe d 1 1)) = fieldLe d 0 1 ∧ u.flag (Reg.PKE.KEYREG_EPHEMERAL (fieldLe d 1 1)) = src.isNone
        ∧ u.sram = Mem.store 0 s.sram (fieldLe d 8 4) (pubKey (fieldLe d 0 1) (seedFrom (fieldLe d 0 1) v))
        ∧ (∀ r, r ≠ fieldLe d 1 1 → u.keyReg r = s.keyReg r) ∧ pkeEnded s u
      (fieldLe d 2 1 = 0 → ends (digestBytes (s.keyOf (fieldLe d 4 2))) (some (fieldLe d 4 2)) (s.slot (fieldLe d 4 2)).gen)
      ∧ (fieldLe d 2 1 ≠ 0 → s.rngFailed = false → s.rngServes = true → ends (s.freeBytes 48) none 0)))
  ∧ (∀ (s : State) (d : List Byte), s.pke.run = some (4, d) → s.pke.revoked = none → s.brace = false →
      (let peer := s.sramBytes (fieldLe d 8 4) 97
       let z := Config.ecdhSecret (s.keyReg (fieldLe d 1 1)).seed peer
       let p := (s.keyReg (fieldLe d 1 1)).source.getD 0
       let t := fieldLe d 4 2
      (Config.ecdhPointOk peer = false ∨ z = 0 → ∃ u : State, exec .pkeDone s = .next u.pumpPke.goOn
        ∧ u.rd (Hdr.REASON_CODE pgPKE) = pgPKE * 256 + pkPOINT_INVALID ∧ u.ecdhOut = s.ecdhOut ∧ u.pke.regs = s.pke.regs ∧ pkeEnded s u ∧ sameStores s u)
      ∧ (Config.ecdhPointOk peer = true → z ≠ 0 → fieldLe d 2 1 = 0 → ∃ u : State, exec .pkeDone s = .next u.pumpPke.goOn
        ∧ u.ecdhOut = Tbl.put 0 s.ecdhOut (fieldLe d 0x18 4) z ∧ u.pke.regs = s.pke.regs ∧ pkeEnded s u ∧ sameStores s u)
      ∧ (Config.ecdhPointOk peer = true → z ≠ 0 → fieldLe d 2 1 ≠ 0 → s.rngServes = true → s.slotFree t = true → s.pke.keySlot ≠ some t →
        ∃ u : State, exec .pkeDone s = .next u.pumpPke.goOn ∧ (u.slot t).state = slDEFINED ∧ (u.slot t).parent = p ∧ (u.slot t).pgen = (s.slot p).gen
        ∧ (u.slot t).depth = (s.slot p).depth + 1 ∧ (u.slot t).keyAttr = atDERIVE ∧ u.ecdhOut = s.ecdhOut ∧ u.pke.regs = s.pke.regs ∧ pkeEnded s u
        ∧ sameStores s u)))
  ∧ (∀ (s : State) (d : List Byte), s.pke.run = some (5, d) → s.pke.revoked = none → s.brace = false → ∃ u : State, exec .pkeDone s = .next u.pumpPke.goOn
      ∧ u.keyReg (fieldLe d 1 1) = KeyReg.empty ∧ (∀ r, r ≠ fieldLe d 1 1 → u.keyReg r = s.keyReg r) ∧ pkeEnded s u ∧ sameStores s u)
  ∧ (∀ (s : State) (op c : Nat) (d : List Byte), s.pke.run = some (op, d) → s.pke.revoked = some c → s.brace = false →
      ∃ u : State, exec .pkeDone s = .next u.pumpPke.goOn
      ∧ u.rd (Hdr.REASON_CODE pgPKE) = (pgKVT * 256 + c) % 2 ^ 16 ∧ u.raised pgKVT 10 = true ∧ u.ecdhOut = s.ecdhOut
      ∧ (op = 2 ∨ op = 4 → u.keyReg (fieldLe d 1 1) = KeyReg.empty) ∧ pkeEnded s u ∧ sameStores s u)
  ∧ (∀ s : State, s.brace = true → exec .pkeDone s = .next s)

/-- GEN, RESTART, HEALTH_FAIL, RESEED and RNG_READY (R194, R250-R253). -/
def Obligations.EntropySource : Prop :=
  (∀ (s : State) (a : Nat), s.ready pgRNG 0x44 = true → State.inSram a 8 = true → 1 ≤ s.sramLe (a + 4) 4 → s.sramLe (a + 4) 4 ≤ 4096 →
      State.inSram (s.sramLe a 4) (s.sramLe (a + 4) 4) = true →
      (s.rngFailed = false → s.rngServes = true → ∃ t, exec (.gen a) s = .next t
        ∧ t.sram = Mem.store 0 s.sram (s.sramLe a 4) (s.freeBytes (s.sramLe (a + 4) 4))
        ∧ (s.rng.requests < 65536 → t.rng.requests = s.rng.requests + 1 ∧ t.regs = s.regs)
        ∧ (65536 ≤ s.rng.requests → t.rng.requests = 1
          ∧ t.rd Reg.RNG.RESEED_COUNT = min (s.rd Reg.RNG.RESEED_COUNT + 1) (2 ^ Reg.RNG.RESEED_COUNT.width - 1)
          ∧ sameFieldsBut [Reg.RNG.RESEED_COUNT] s t ∧ sameCfg s t) ∧ t.retention = s.retention ∧ t.flash = s.flash ∧ t.otp = s.otp ∧ t.nvm = s.nvm)
      ∧ (s.rngFailed = false → s.rngServes = false →
        exec (.gen a) s = .next (s.setCmdSlot pgRNG 0x44 { s.cmdSlot pgRNG 0x44 with queued := some (.gen a) }))
      ∧ (s.rngFailed = true → ∃ t, exec (.gen a) s = .next t ∧ t.rd (Hdr.REASON_CODE pgRNG) = rngUNAVAILABLE ∧ sameCfg s t ∧ sameStores s t
        ∧ t.rng = s.rng ∧ sameFieldsBut [Hdr.REASON_CODE pgRNG, Hdr.REASON_OFFSET pgRNG] s t))
  ∧ (∀ (s : State) (a : Nat), s.ready pgRNG 0x44 = true → State.inSram a 8 = false ∨ s.sramLe (a + 4) 4 = 0 ∨ 4096 < s.sramLe (a + 4) 4 →
      ∃ t, exec (.gen a) s = .next t ∧ t.rd (Hdr.REASON_CODE pgRNG) = pgRNG * 256 + Reason.FIELD_RANGE ∧ sameCfg s t ∧ sameStores s t)
  ∧ (∀ s : State, s.ready pgRNG 0x44 = true → ∃ t, exec .restart s = .next t ∧ t.rd Reg.RNG.STATUS_STATE = 0 ∧ t.flag Reg.RNG.STATUS_READY = false
      ∧ (t.cmdSlot pgRNG 0x44).running = some .restart ∧ t.rng = ⟨0, 0⟩ ∧ sameCfg s t ∧ sameStores s t
      ∧ sameFieldsBut [Reg.RNG.STATUS_STATE, Reg.RNG.STATUS_READY] s t)
  ∧ (∀ s : State, s.power.mainOn = true → s.rngFailed = false → ∃ t, exec .healthFail s = .next t ∧ t.rng.fails = s.rng.fails + 1
      ∧ t.rd Reg.RNG.HEALTH_FAIL_COUNT = min (s.rd Reg.RNG.HEALTH_FAIL_COUNT + 1) (2 ^ Reg.RNG.HEALTH_FAIL_COUNT.width - 1) ∧ t.raised pgRNG 8 = true
      ∧ (s.rng.fails + 1 < 3 → t.rngFailed = false ∧ t.rd Reg.KVT.STATUS_MASK_STALL = s.rd Reg.KVT.STATUS_MASK_STALL)
      ∧ (3 ≤ s.rng.fails + 1 → t.rngFailed = true ∧ t.flag Reg.RNG.STATUS_READY = false ∧ t.raised pgRNG 9 = true ∧ t.maskStalled = true
          ∧ t.raised pgKVT 13 = true) ∧ sameCfg s t ∧ sameStores s t)
  ∧ (∀ s : State, s.power.mainOn = false ∨ s.rngFailed = true → exec .healthFail s = .next s)
  ∧ (∀ s : State, s.up = true → s.rd Reg.RNG.STATUS_STATE = 1 → ∃ t, exec .reseed s = .next t ∧ t.rng = ⟨0, 0⟩
      ∧ t.rd Reg.RNG.RESEED_COUNT = min (s.rd Reg.RNG.RESEED_COUNT + 1) (2 ^ Reg.RNG.RESEED_COUNT.width - 1)
      ∧ sameFieldsBut [Reg.RNG.RESEED_COUNT] s t ∧ sameCfg s t ∧ sameStores s t)
  ∧ (∀ s : State, s.up = true → s.rd Reg.RNG.STATUS_STATE = 0 → ∃ t : State, exec .rngReady s = .next t.goOn ∧ t.rd Reg.RNG.STATUS_STATE = 1
      ∧ t.flag Reg.RNG.STATUS_READY = true ∧ t.maskStalled = false ∧ (t.cmdSlot pgRNG 0x44).running = none ∧ t.rng = ⟨0, 0⟩
      ∧ sameFieldsBut [Reg.RNG.STATUS_STATE, Reg.RNG.STATUS_READY, Reg.KVT.STATUS_MASK_STALL] s t ∧ sameCfg s t ∧ sameStores s t)

namespace Sys2Proof

/-- Transaction `t` on port `n` leads from `s` to a `u` in which it is denied for `w`: fill for a READ, absorbed otherwise (R268). -/
def txnDenied (s : State) (n : Fin 6) (t : HostTxn) (w : DenyWhy) : Prop :=
  ∃ u, exec (.hostTransaction n t) s = .next u ∧ u.flash = s.flash ∧ u.sram = s.sram ∧ u.otp = s.otp ∧ sameCfg s u
    ∧ (u.port n).live.map (fun l => (l.txn, l.serve, l.why, l.out, l.broke)) = some (t, if s.opClass n t.opcode.toNat = opREAD then .fill else .absorb, w,
        if s.opClass n t.opcode.toNat = opREAD then List.replicate t.len (s.fillByte n) else [], s.leaseBroken n)
    ∧ (s.opClass n t.opcode.toNat = opREAD → u.regs = s.regs)

end Sys2Proof

/-- HOST_TRANSACTION and HOST_CS_RISE (R263-R280, R288-R300). -/
def Obligations.HostFlashTransaction : Prop :=
  (∀ (s : State) (n : Fin 6) (t : HostTxn), s.up = false ∨ s.csLow n = true ∨ Tbl.get true s.power.ioHost n = false →
      exec (.hostTransaction n t) s = .next s)
  ∧ (∀ (s : State) (n : Fin 6) (t : HostTxn), s.up = true → s.csLow n = false → Tbl.get true s.power.ioHost n = true →
      s.integrityOk n = true → (s.port n).emu = none →
      (t.both = true ∨ t.early = true → txnDenied s n t .guardEarly)
      ∧ (t.both = false → t.early = false → s.portDenies n = true → txnDenied s n t .port)
      ∧ (t.both = false → t.early = false → s.portDenies n = false → s.leaseBroken n = true → txnDenied s n t .ownership)
      ∧ (t.both = false → t.early = false → s.portDenies n = false → s.leaseBroken n = false →
        (let a := s.hostAddr n t
         let d := s.steered n t.cs a
         let c := s.opClass n t.opcode.toNat
         let z := s.opEsize n t.opcode.toNat
        (s.decideTxn n t = .pass → c = opREAD → s.opAddressed n t.opcode.toNat = true →
          s.firstTouch n (s.policyAddr n t.cs a) = false → s.readStops n t.cs a t.len = none → s.readCuts n t.cs a t.len = none →
          (s.portOwns n = true → (s.port n).wbuf = [] → ∃ u, exec (.hostTransaction n t) s = .next u
            ∧ (u.port n).live.map (fun l => (l.serve, l.why, l.out)) = some (.pass, .none, s.flashBytes n t.cs d t.len) ∧ u.regs = s.regs ∧ sameStores s u)
          ∧ (s.portOwns n = false → s.cfg (Reg.HFP.PROFILE_STALL n) ≠ 0 → ∃ u, exec (.hostTransaction n t) s = .next u
            ∧ (u.port n).live.map (fun l => (l.serve, l.why, l.out, l.held)) = some (.waitPins, .none, [], true) ∧ u.regs = s.regs ∧ sameStores s u)
          ∧ (s.portOwns n = false → s.cfg (Reg.HFP.PROFILE_STALL n) = 0 → txnDenied s n t .port))
        ∧ (s.decideTxn n t = .pass → c ≠ opREAD → s.portOwns n = true → (s.port n).wbuf = [] → s.mixedTxn n t = false → s.armed n = false →
          ∃ u, exec (.hostTransaction n t) s = .next u ∧ (u.port n).live.map (fun l => (l.serve, l.why, l.out)) = some (.pass, .none, t.device)
            ∧ u.flash = (if c = opPROGRAM then (s.flashProgram n t.cs d t.data).flash
                else if c = opERASE then (s.flashErase n t.cs (d / z * z) z).flash else s.flash)
            ∧ u.sram = s.sram ∧ u.retention = s.retention ∧ u.otp = s.otp ∧ u.nvm = s.nvm ∧ sameCfg s u)
        ∧ (s.decideTxn n t = .absorb → ∃ u, exec (.hostTransaction n t) s = .next u
            ∧ (u.port n).live.map (fun l => (l.serve, l.why)) = some (.absorb, .policy) ∧ u.flash = s.flash ∧ u.sram = s.sram ∧ u.otp = s.otp ∧ sameCfg s u)
        ∧ (s.decideTxn n t = .fill → txnDenied s n t .policy))))
  ∧ (∀ (s : State) (n : Fin 6) (l : Live), (s.port n).live = some l → s.waits = [] → l.touch = none →
      s.flag (Hdr.PENDING (pgHFP n)) = false → s.flag (Hdr.PENDING (pgPOL n)) = false → ∃ u, exec (.hostCsRise n) s = .next u
      ∧ (u.port n).live = none ∧ u.flash = s.flash ∧ u.sram = s.sram ∧ u.otp = s.otp ∧ u.nvm = s.nvm ∧ sameCfg s u
      ∧ u.rd (Reg.HFP.TXN_COUNT n) = min (s.rd (Reg.HFP.TXN_COUNT n) + 1) (2 ^ (Reg.HFP.TXN_COUNT n).width - 1)
      ∧ (l.why = .none → u.rd (Reg.HFP.DENY_COUNT n) = s.rd (Reg.HFP.DENY_COUNT n))
      ∧ (l.why ≠ .none → u.rd (Reg.HFP.DENY_COUNT n) = min (s.rd (Reg.HFP.DENY_COUNT n) + 1) (2 ^ (Reg.HFP.DENY_COUNT n).width - 1))
      ∧ (l.why = .guardEarly → u.rd (Reg.HFP.GUARD_EARLY_COUNT n) = min (s.rd (Reg.HFP.GUARD_EARLY_COUNT n) + 1) (2 ^ (Reg.HFP.GUARD_EARLY_COUNT n).width - 1))
      ∧ (l.broke = true → u.rd (Reg.HFP.OWNERSHIP_DENY_COUNT n)
          = min (s.rd (Reg.HFP.OWNERSHIP_DENY_COUNT n) + 1) (2 ^ (Reg.HFP.OWNERSHIP_DENY_COUNT n).width - 1))
      ∧ (l.serve ≠ .absorb → l.serve ≠ .buffered → (u.port n).received = l.out.take l.txn.len
          ++ List.replicate (l.txn.len - (l.out.take l.txn.len).length) (s.fillByte n))
      ∧ (l.serve = .absorb ∨ l.serve = .buffered → (u.port n).received = l.out.take l.txn.len))
  ∧ (∀ (s : State) (n : Fin 6), s.csLow n = false → exec (.hostCsRise n) s = .next s)

/-- PIN_GRANT, HOLD_EXPIRED, WBUF_REPLAY, EMU_BUSY_END, LEASE, LEASE_RETURN_DUE, LEASE_EXPIRY and CROSS_DOMAIN_ACCESS. -/
def Obligations.PortEvents : Prop :=
  (∀ (s : State) (n : Fin 6) (c : Nat) (l : Live), (s.port n).live = some l → l.serve = .waitPins → l.touch = none → (s.port n).wbuf = [] →
      (s.sched (State.chanRes n)).running = none →
      (c ≤ s.cfg (Reg.HFP.DS_HOLD n) → ∃ u, exec (.pinGrant n c) s = .next u ∧ u.portOwns n = true ∧ u.rd (Reg.FCH.STATUS_OWNER n) = 0
        ∧ (let hold := c + s.lookupWait n (s.opAddressed n l.txn.opcode.toNat) l.mixed
           (u.port n).live = some { l with serve := .pass, held := decide (0 < hold), holdCycles := hold, out := (s.givePins n).readOut n l.txn l.fillAt })
        ∧ sameFieldsBut [Reg.FCH.STATUS_OWNER n, Reg.HFP.PORT_STATUS_OWNS_PINS n] s u ∧ sameCfg s u ∧ sameStores s u)
      ∧ (s.cfg (Reg.HFP.DS_HOLD n) < c → l.out = [] → ∃ u, exec (.pinGrant n c) s = .next u ∧ u.portOwns n = true
        ∧ (u.port n).live = some { l with serve := .fill, holdCycles := s.cfg (Reg.HFP.DS_HOLD n) } ∧ u.raised (pgHFP n) 9 = true
        ∧ u.rd (Reg.HFP.HOLD_EXPIRED_COUNT n) = min (s.rd (Reg.HFP.HOLD_EXPIRED_COUNT n) + 1) (2 ^ (Reg.HFP.HOLD_EXPIRED_COUNT n).width - 1)
        ∧ sameCfg s u ∧ sameStores s u))
  ∧ (∀ (s : State) (n : Fin 6) (l : Live), (s.port n).live = some l → l.serve = .waitPins ∨ l.serve = .touch → l.out = [] →
      ∃ u, exec (.holdExpired n) s = .next u ∧ (u.port n).live = some { l with serve := .fill, holdCycles := s.cfg (Reg.HFP.DS_HOLD n) }
        ∧ u.rd (Reg.HFP.HOLD_EXPIRED_COUNT n) = min (s.rd (Reg.HFP.HOLD_EXPIRED_COUNT n) + 1) (2 ^ (Reg.HFP.HOLD_EXPIRED_COUNT n).width - 1)
        ∧ u.raised (pgHFP n) 9 = true ∧ sameFieldsBut [Reg.HFP.HOLD_EXPIRED_COUNT n, Hdr.EVENT (pgHFP n) 9] s u ∧ sameCfg s u ∧ sameStores s u)
  ∧ (∀ (s : State) (n : Fin 6) (t : HostTxn) (rest : List HostTxn), (s.port n).wbuf = t :: rest → (s.sched (State.chanRes n)).running = none →
      ∃ u, exec (.wbufReplay n) s = .next u ∧ (u.port n).wbuf = rest
        ∧ (s.opClass n t.opcode.toNat = opPROGRAM → u.flash = (s.flashProgram n t.cs (s.steered n t.cs (s.hostAddr n t)) t.data).flash)
        ∧ (s.opClass n t.opcode.toNat = opERASE → u.flash = (s.flashErase n t.cs (s.steered n t.cs (s.hostAddr n t) / s.opEsize n t.opcode.toNat
            * s.opEsize n t.opcode.toNat) (s.opEsize n t.opcode.toNat)).flash)
        ∧ (s.opClass n t.opcode.toNat = opREGISTER → u.flash = s.flash) ∧ u.sram = s.sram ∧ u.otp = s.otp ∧ u.nvm = s.nvm ∧ sameCfg s u)
  ∧ (∀ (s : State) (n : Fin 6) (e : Emu), (s.port n).emu = some e →
      (s.csLow n = true → ∃ u, exec (.emuBusyEnd n) s = .next u ∧ (u.port n).emu = some { e with wip := false } ∧ u.regs = s.regs ∧ sameStores s u)
      ∧ (s.csLow n = false → exec (.emuBusyEnd n) s = .next s))
  ∧ (∀ (s : State) (n d : Nat), s.mgpUp = true → s.mgpOwns = false → s.boot.phase ≠ BootPhase.scrap → s.boot.phase ≠ BootPhase.fatal → n ≤ 5 →
      d ≤ 1000 → s.beforeAttach = false →
      (s.sharing n = 1 → ∃ u, submitted s u 0x80 0 0 (leBytes 1 n ++ [0] ++ leBytes 2 d)
        ∧ exec (.lease n d) s = .next (((u.bump Reg.MGP.HW_MSG_COUNT).leaseOp n d).mgpRespond 0 []))
      ∧ (s.sharing n = 1 → ∃ t, exec (.lease n d) s = .next t ∧ (t.chan n).lease = d ∧ (t.chan n).leaseAt = s.time.mrt ∧ t.mgpOwns = false
        ∧ t.flag (Reg.FCH.STATUS_LEASE_ACTIVE n) = decide (d ≠ 0) ∧ t.flash = s.flash ∧ t.sram = s.sram ∧ t.otp = s.otp ∧ sameCfg s t)
      ∧ (s.sharing n ≠ 1 → ∃ u, submitted s u 0x80 0 0 (leBytes 1 n ++ [0] ++ leBytes 2 d)
        ∧ exec (.lease n d) s = .next ((u.bump Reg.MGP.HW_MSG_COUNT).mgpReject mgNOT_LEASED)))
  ∧ (∀ (s : State) (n : Fin 6) (d : Nat), s.sharing n = 1 → ((s.leaseOp n d).chan n).lease = d ∧ ((s.leaseOp n d).chan n).leaseAt = s.time.mrt
      ∧ (s.leaseOp n d).flag (Reg.FCH.STATUS_LEASE_ACTIVE n) = decide (d ≠ 0) ∧ sameCfg s (s.leaseOp n d) ∧ sameStores s (s.leaseOp n d))
  ∧ (∀ (s : State) (n : Fin 6), (s.chan n).lease = 0 → exec (.leaseReturnDue n) s = .next s ∧ exec (.leaseExpiry n) s = .next s)
  ∧ (∀ (s : State) (n : Fin 6), 0 < (s.chan n).lease →
      (∃ u, exec (.leaseReturnDue n) s = .next u ∧ (u.chan n).closing = true ∧ (u.chan n).lease = (s.chan n).lease ∧ sameCfg s u ∧ sameStores s u
        ∧ ((s.sched (State.chanRes n)).running = none → s.released n = true → s.sharing n = 1 → (s.port n).live = none → u.portOwns n = true))
      ∧ (∃ u, exec (.leaseExpiry n) s = .next u ∧ (u.chan n).lease = 0 ∧ u.flag (Reg.FCH.STATUS_LEASE_ACTIVE n) = false ∧ sameCfg s u ∧ sameStores s u))
  ∧ (∀ (s : State) (acc : CoreAccess) (w : Option Nat) (d : Nat), s.up = true → regBase ≤ acc.addr → acc.addr < regBase + 0x100000 →
      pageOf acc.addr < pageCount → acc.size = 4 → acc.addr % 4 = 0 → acc.user = false → (∀ k, (s.core acc.core.val).pmpOk acc.user acc.addr 4 k = true) →
      s.crossDom (pageOf acc.addr) (offOf acc.addr) = some d →
      (d < 6 → s.csLow d = true → exec (.crossDomainAccess acc w) s = .next { s with waits := s.waits ++ [⟨d, acc, w⟩] })
      ∧ (6 ≤ d ∨ s.csLow d = false → ∃ u, exec (.crossDomainAccess acc w) s = .next u ∧ u.waits = s.waits ∧ u.bus.error = false
        ∧ (w = none → u.bus.data = (s.readWord (pageOf acc.addr) (offOf acc.addr)).2) ∧ sameStores s u))

/-- STAGE_OPEN, STAGE_ARM, SWEEP, STAGING_SWEEP_DONE, COMMIT and STAGE_ABORT (R305-R313). -/
def Obligations.Staging : Prop :=
  (∀ (s : State) (n : Fin 6), s.ready (pgPOL n) stageOff = true → s.mode.phase ≠ Phase.seal → s.cfgb (Reg.POL.STEER_EN n) = true → s.released n = true →
      (s.stageSt n = 0 ∨ 4 ≤ s.stageSt n → s.armed n = false →
        (s.brace = false → ∃ t, exec (.stageOpen n) s = .next t ∧ t.stageSt n = 1 ∧ t.flag (Reg.POL.STAGE_STATE_LATCH n) = true
          ∧ t.rd (Reg.POL.STAGE_STATE_SLOT n) = s.inactiveSlot n % 2 ∧ t.currentRec n (s.inactiveSlot n) = none ∧ t.flash = s.flash ∧ t.sram = s.sram
          ∧ t.otp = s.otp ∧ sameCfg s t
          ∧ sameFieldsBut [Reg.POL.STAGE_STATE_STATE n, Reg.POL.STAGE_STATE_LATCH n, Reg.POL.STAGE_STATE_SLOT n] s t)
        ∧ (s.brace = true → ∃ t, exec (.stageOpen n) s = .next t ∧ t.deferred = s.deferred ++ [.stageOpen n] ∧ t.regs = s.regs ∧ sameStores s t))
      ∧ (1 ≤ s.stageSt n → s.stageSt n ≤ 3 → ∃ t, exec (.stageOpen n) s = .next t
        ∧ t.rd (Hdr.REASON_CODE (pgPOL n)) = pgPOL n * 256 + poSTAGE_STATE ∧ t.stageSt n = s.stageSt n ∧ sameCfg s t ∧ sameStores s t))
  ∧ (∀ (s : State) (n : Fin 6) (a : Nat), s.ready (pgPOL n) stageOff = true → s.dgeFree = false → s.armEarly n a = none →
      ∃ t, exec (.stageArm n a) s = .next t ∧ t.deferred = s.deferred ++ [.stageArm n a] ∧ t.regs = s.regs ∧ sameStores s t)
  ∧ (∀ (s : State) (n : Fin 6) (a : Nat), s.ready (pgPOL n) stageOff = true → s.dgeFree = true →
      (s.armFault n a = none → ∃ t, exec (.stageArm n a) s = .next t ∧ t.stageSt n = 2 ∧ t.armed n = true
        ∧ (t.stage n).manifest = s.sramLe a 4 ∧ (t.stage n).leafTable = s.sramLe (a + 4) 4 ∧ (t.snpOf n).leafTable = s.sramLe (a + 4) 4
        ∧ t.rd (Reg.POL.STAGE_SEQ n) = mfSequence (s.sdManifest a) % 2 ^ 32 ∧ t.rd (Reg.SNP.STAGE_FAIL n) = 0 ∧ sameCfg s t ∧ sameStores s t)
      ∧ (∀ r, s.armFault n a = some r → ∃ t, exec (.stageArm n a) s = .next t ∧ t.rd (Hdr.REASON_CODE (pgPOL n)) = (pgPOL n * 256 + r) % 2 ^ 16
        ∧ t.stageSt n = s.stageSt n ∧ t.armed n = s.armed n ∧ sameCfg s t ∧ sameStores s t))
  ∧ (∀ (s : State) (n : Fin 6), s.ready (pgPOL n) stageOff = true →
      (s.stageSt n = 2 → ∃ t, exec (.sweep n) s = .next t ∧ t.stageSt n = 3 ∧ t.flag (Reg.POL.STAGE_STATE_LATCH n) = false
        ∧ (t.stage n).verdict = (if s.stageBlocks n = 0 then some true else none) ∧ sameCfg s t ∧ sameStores s t)
      ∧ (s.stageSt n ≠ 2 → ∃ t, exec (.sweep n) s = .next t ∧ t.rd (Hdr.REASON_CODE (pgPOL n)) = pgPOL n * 256 + poSTAGE_STATE
        ∧ t.stageSt n = s.stageSt n ∧ sameCfg s t ∧ sameStores s t))
  ∧ (∀ (s : State) (n : Fin 6) (good : Bool), (s.stage n).verdict = some good → s.stageSt n = 3 →
      (good = true → s.rd (Reg.SNP.STAGE_FAIL n) = 0 → s.armed n = true → ∃ t, exec (.stagingSweepDone n) s = .next t ∧ t.stageSt n = 4
        ∧ t.rd (Reg.SNP.STAGE_MATCH n) = matchOK ∧ t.rd (Reg.SNP.STAGE_MATCH_N n) = matchNOK ∧ t.raised (pgPOL n) 10 = true ∧ sameCfg s t ∧ sameStores s t)
      ∧ (good = false ∨ s.rd (Reg.SNP.STAGE_FAIL n) ≠ 0 ∨ s.armed n = false → ∃ t, exec (.stagingSweepDone n) s = .next t ∧ t.stageSt n = 6
        ∧ t.flag (Reg.POL.STAGE_STATE_LATCH n) = false ∧ t.raised (pgPOL n) 12 = true
        ∧ t.rd (Hdr.REASON_CODE (pgPOL n)) = pgPOL n * 256 + poSWEEP_FAIL ∧ sameCfg s t ∧ sameStores s t))
  ∧ (∀ (s : State) (n : Fin 6), (s.stage n).verdict = none ∨ s.stageSt n ≠ 3 → exec (.stagingSweepDone n) s = .next s)
  ∧ (∀ (s : State) (n : Fin 6) (a : Nat), s.ready (pgPOL n) stageOff = true → s.stageSt n = 4 → s.rd (Reg.SNP.STAGE_MATCH n) = matchOK →
      s.rd (Reg.SNP.STAGE_MATCH_N n) = matchNOK → s.stageRangeOk a = true → ∃ t, exec (.commit n a) s = .next t
        ∧ (t.cmdSlot (pgPOL n) stageOff).running = some (.commit n a) ∧ t.stageSt n = 4 ∧ sameCfg s t ∧ sameStores s t)
  ∧ (∀ (s : State) (n : Fin 6) (a : Nat), s.ready (pgPOL n) stageOff = true → s.stageSt n ≠ 4 ∨
      State.pairGood (s.rd (Reg.SNP.STAGE_MATCH n)) (s.rd (Reg.SNP.STAGE_MATCH_N n)) = false → ∃ t, exec (.commit n a) s = .next t
        ∧ t.rd (Hdr.REASON_CODE (pgPOL n)) = pgPOL n * 256 + poSTAGE_STATE ∧ t.stageSt n = s.stageSt n ∧ sameCfg s t ∧ t.flash = s.flash
        ∧ t.sram = s.sram ∧ t.otp = s.otp ∧ t.nvm.slotRecs = s.nvm.slotRecs
        ∧ (State.pairKnown (s.rd (Reg.SNP.STAGE_MATCH n)) (s.rd (Reg.SNP.STAGE_MATCH_N n)) = true → sameStores s t)
        ∧ (State.pairKnown (s.rd (Reg.SNP.STAGE_MATCH n)) (s.rd (Reg.SNP.STAGE_MATCH_N n)) = false → t.raised (pgDGE 0) 10 = true))
  ∧ (∀ (s : State) (n : Fin 6) (a : Nat), s.stageLeafOk a = true → s.commitSeqOk n (mfSequence (s.sdManifest a)) = true → s.dgeFree = true →
      (s.commitFinish n a (s.sdManifest a)).nvm.slotRecs = s.nvm.slotRecs ++ [⟨n, s.rd (Reg.POL.STAGE_STATE_SLOT n), mfSvn (s.sdManifest a),
          mfSequence (s.sdManifest a), Config.sha384 (s.sdManifest a), true, BitVec.allOnes 64⟩]
      ∧ (s.commitFinish n a (s.sdManifest a)).stageSt n = 5 ∧ (s.commitFinish n a (s.sdManifest a)).raised (pgPOL n) 11 = true
      ∧ (s.commitFinish n a (s.sdManifest a)).armed n = false)
  ∧ (∀ (s : State) (n : Fin 6), s.up = true → ∃ t, exec (.stageAbort n) s = .next t ∧ t.stageSt n = 0 ∧ t.flag (Reg.POL.STAGE_STATE_LATCH n) = false
        ∧ t.armed n = false ∧ t.cmdSlot (pgPOL n) stageOff = ⟨none, none⟩ ∧ sameCfg s t ∧ sameStores s t)

/-- HOST_VERIFY, QUARANTINE, HOLD, MEND, ENROLL, OK and RELOAD (R50, R320-R338). -/
def Obligations.HostCommands : Prop :=
  (∀ (s : State) (n : Fin 6), s.ready pgHSV hostCmdOff = true → s.mode.phase ≠ Phase.seal → s.hostCmdBlocked n = false → s.hostSt n = hsHELD →
      s.cfgb (Reg.POL.STEER_EN n) = true → (∀ m, (s.host m).gate = none) →
      (∀ sl, s.chooseSlot n = some sl → sl < 2 → ∃ t, exec (.hostVerify n) s = .next t ∧ t.hostSt n = hsVERIFYING ∧ t.rd (Reg.HSV.SLOT_INFO_SEL n) = sl
        ∧ (t.host n).gate.map (fun g => (g.phase, g.slot)) = some (.manifest, sl) ∧ t.rd (Reg.HSV.HOST_STATE_RETRY n) = 0 ∧ sameCfg s t ∧ sameStores s t)
      ∧ (s.chooseSlot n = none → s.cfgb (Reg.HSV.SUPERVISE_ALT_EN n) = false → s.cfgb (Reg.HSV.SUPERVISE_RESTORE_EN n) = false →
        s.cfgb (Reg.HSV.SUPERVISE_NET_EN n) = false → ∃ t, exec (.hostVerify n) s = .next t ∧ t.hostSt n = hsMENDING
        ∧ t.rd (Reg.HSV.FAULT n) = pgHSV * 256 + hvNO_RECORD ∧ t.raised pgHSV 10 = true ∧ t.raised pgHSV 11 = true ∧ sameCfg s t ∧ sameStores s t))
  ∧ (∀ (s : State) (n : Fin 6) (sl : Nat) (c : Instr), s.ready pgHSV hostCmdOff = true → s.mode.phase ≠ Phase.seal → s.hostCmdBlocked n = false →
      s.hostSt n = hsESCORTED → c ∈ [Instr.hostVerify n, .quarantine n, .hold n, .mend n, .enroll n sl] → ∃ t, exec c s = .next t
        ∧ t.rd (Hdr.REASON_CODE pgHSV) = pgHSV * 256 + hvHOST_STATE ∧ t.rd (Hdr.REASON_OFFSET pgHSV) = hostCmdOff
        ∧ sameFieldsBut [Hdr.REASON_CODE pgHSV, Hdr.REASON_OFFSET pgHSV] s t ∧ t.hosts = s.hosts ∧ sameCfg s t ∧ sameStores s t)
  ∧ (∀ (s : State) (n : Fin 6), s.ready pgHSV hostCmdOff = true → s.hostSt n = hsMENDING → ∃ t, exec (.quarantine n) s = .next t
      ∧ t.hostSt n = hsQUARANTINED ∧ (t.host n).mend.timer = false ∧ (t.host n).restore = none ∧ t.raised pgHSV 12 = true ∧ sameCfg s t ∧ sameStores s t)
  ∧ (∀ (s : State) (n : Fin 6), s.ready pgHSV hostCmdOff = true → s.hostSt n = hsQUARANTINED → ∃ t, exec (.hold n) s = .next t
      ∧ t.hostSt n = hsHELD ∧ t.rd (Reg.HSV.HOST_STATE_HOLD_CAUSE n) = hcFIRMWARE ∧ (t.host n).mend.timer = true
      ∧ sameFieldsBut [Reg.HSV.HOST_STATE_STATE n, Reg.HSV.HOST_STATE_HOLD_CAUSE n] s t ∧ sameCfg s t ∧ sameStores s t)
  ∧ (∀ (s : State) (n : Fin 6), s.ready pgHSV hostCmdOff = true → s.mode.phase ≠ Phase.seal → s.hostCmdBlocked n = false → s.hostSt n = hsQUARANTINED →
      (s.cfgb (Reg.HSV.SUPERVISE_ALT_EN n) = true → (s.currentRec n (1 - s.rd (Reg.HSV.SLOT_INFO_SEL n))).isSome = true → (s.host n).mend.failed = [] →
        ∃ t, exec (.mend n) s = .next t ∧ t.hostSt n = hsHELD ∧ t.rd (Reg.HSV.HOST_STATE_LEVEL n) = 3
          ∧ t.rd (Reg.HSV.SLOT_INFO_NEXT n) = 1 - s.rd (Reg.HSV.SLOT_INFO_SEL n) ∧ t.flag (Reg.HSV.SLOT_INFO_NEXT_VALID n) = true
          ∧ t.rd (Reg.HSV.HOST_STATE_HOLD_CAUSE n) = hcRECOVERY ∧ t.raised pgHSV 14 = true ∧ sameCfg s t ∧ sameStores s t)
      ∧ (s.cfgb (Reg.HSV.SUPERVISE_ALT_EN n) = false → s.cfgb (Reg.HSV.SUPERVISE_RESTORE_EN n) = false → s.cfgb (Reg.HSV.SUPERVISE_NET_EN n) = false →
        ∃ t, exec (.mend n) s = .next t ∧ t.hostSt n = hsMENDING ∧ t.raised pgHSV 11 = true ∧ (t.host n).mend.active = true ∧ sameCfg s t ∧ sameStores s t))
  ∧ (∀ (s : State) (n : Fin 6) (sl : Nat), s.ready pgHSV hostCmdOff = true → s.mode.phase ≠ Phase.seal → s.hostCmdBlocked n = false → s.hostSt n = hsHELD →
      s.cfgb (Reg.POL.STEER_EN n) = true →
      ∃ t, exec (.enroll n sl) s = .next t ∧ (t.host n).read = some ⟨0, sl % 2, 0, [], [], 0⟩
        ∧ (t.cmdSlot pgHSV hostCmdOff).running = some (.enroll n sl) ∧ t.hostSt n = s.hostSt n ∧ sameCfg s t ∧ sameStores s t)
  ∧ (∀ (s : State) (n : Fin 6) (r : Req) (h : HostRead), (s.host n).read = some h → h.kind = 0 → h.step = 0 →
      h.manifest.length < manifestLen → manifestLen ≤ h.manifest.length + 512 →
      (let m := h.manifest ++ s.slotBytes n h.slot h.manifest.length (manifestLen - h.manifest.length)
       let t := s.hostReadServed n r false
      (s.hostManifestOk n m = false ∨ sequenceValid (mfSequence m) = false → t.rd (Hdr.REASON_CODE pgHSV) = pgHSV * 256 + hvMANIFEST_FORMAT
        ∧ (t.host n).read = none ∧ (t.cmdSlot pgHSV hostCmdOff).running = none ∧ sameStores s t)
      ∧ (s.hostManifestOk n m = true → sequenceValid (mfSequence m) = true → s.hostSignerOk n m = true → s.pkeFree 5 = true →
        (s.manifestSigsOk m = false → t.rd (Hdr.REASON_CODE pgHSV) = pgHSV * 256 + hvSIGNATURE ∧ (t.host n).read = none ∧ sameStores s t)
        ∧ (s.manifestSigsOk m = true → (t.host n).read = some { h with step := 2, manifest := m, acc := [] } ∧ sameStores s t))))
  ∧ (∀ (s : State) (n : Fin 6) (h : HostRead), (s.host n).read = some h → h.kind = 0 → h.step = 3 → s.dgeFree = true →
      (Config.sha384 h.acc = mfLeafDigest h.manifest → (s.readGo n).nvm.slotRecs = s.nvm.slotRecs ++ [State.enrollRec n h.slot h.manifest]
        ∧ ((s.readGo n).host n).read = none ∧ ((s.readGo n).cmdSlot pgHSV hostCmdOff).running = none
        ∧ (s.hostSt n ≠ hsMENDING → (s.readGo n).hostSt n = s.hostSt n) ∧ (s.readGo n).flash = s.flash)
      ∧ (Config.sha384 h.acc ≠ mfLeafDigest h.manifest → (s.readGo n).rd (Hdr.REASON_CODE pgHSV) = pgHSV * 256 + hvLEAF_TABLE
        ∧ ((s.readGo n).host n).read = none ∧ sameStores s (s.readGo n)))
  ∧ (∀ (s : State) (n : Fin 6) (h : HostRead), s.brace = true → (s.host n).read = some h →
      (h.step = 3 → s.readGo n = s) ∧ (h.step = 1 → s.readGo n = s.awaitPke (.host n) 5 n))
  ∧ (∀ (s : State) (n : Fin 6), s.ready pgHSV hostCmdOff = true →
      (bit (s.cfg (Reg.HSV.SUPERVISE_OK_SOURCE n)) 1 = true → s.released n = true → ∃ t, exec (.ok n) s = .next t
        ∧ t.flag (Reg.HSV.HOST_STATE_OK_SEEN n) = true ∧ (t.host n).sup.waiting = false ∧ t.hostSt n = s.hostSt n
        ∧ ((s.host n).mend.active = true → t.rd (Reg.HSV.HOST_STATE_LEVEL n) = 0 ∧ (t.host n).mend = Mend.idle) ∧ t.flash = s.flash ∧ t.otp = s.otp ∧ sameCfg s t)
      ∧ (bit (s.cfg (Reg.HSV.SUPERVISE_OK_SOURCE n)) 1 = false → exec (.ok n) s = .next s))
  ∧ (∀ (s : State) (n : Fin 6), s.ready pgESC escCmdOff = true → s.hostSt n ≠ hsESCORTED → ∃ t, exec (.reload n) s = .next t
      ∧ t.rd (Hdr.REASON_CODE pgESC) = pgESC * 256 + esRELOAD_STATE ∧ t.ldm = s.ldm ∧ t.hosts = s.hosts ∧ sameCfg s t ∧ sameStores s t)
  ∧ (∀ (s : State) (n : Fin 6), s.ready pgESC escCmdOff = true → s.hostSt n = hsESCORTED → s.cfgb (Reg.POL.STEER_EN n) = true →
      (s.host n).digests ≠ [] → (s.host n).digests.length = (s.windowsOf n).length → ∃ t, exec (.reload n) s = .next t
        ∧ (t.host n).read = some ⟨1, s.activeSlot n, 2, [], [], 0⟩ ∧ (t.cmdSlot pgESC escCmdOff).running = some (.reload n) ∧ t.ldm = s.ldm
        ∧ t.hostSt n = hsESCORTED ∧ sameCfg s t ∧ sameStores s t)
  ∧ (∀ (s : State) (n : Fin 6) (h : HostRead) (w off len : Nat) (d : BitVec 384), (s.host n).read = some h → h.kind = 1 → s.windowsOf n = [w] →
      (s.host n).digests = [(off, len, d)] → h.idx = 0 →
      (∀ r : Req, h.step = 2 → h.acc = [] → 512 < len →
        (s.hostReadServed n r false).ldmLeaf (s.cfg (Reg.ESC.WIN_LEAF w)) = digestBytes (digestOf 256 (s.slotBytes n h.slot off 32))
        ∧ ((s.hostReadServed n r false).host n).read = some { h with acc := s.slotBytes n h.slot off 512 })
      ∧ (h.step = 3 → s.dgeFree = true → Config.sha384 h.acc = d → (s.readGo n).flag (Reg.ESC.WIN_STATUS_LOADED w) = true
        ∧ (s.readGo n).raised pgESC 11 = true ∧ ((s.readGo n).host n).read = none ∧ ((s.readGo n).cmdSlot pgESC escCmdOff).running = none
        ∧ (s.readGo n).hostSt n = s.hostSt n ∧ sameStores s (s.readGo n)))

namespace Sys2Proof

/-- The host's recovery levels 3 to 5 are off, nothing defers, and no other host waits for GATE. -/
def noLevels (s : State) (n : Fin 6) : Prop :=
  s.cfgb (Reg.HSV.SUPERVISE_ALT_EN n) = false ∧ s.cfgb (Reg.HSV.SUPERVISE_RESTORE_EN n) = false ∧ s.cfgb (Reg.HSV.SUPERVISE_NET_EN n) = false
    ∧ s.brace = false ∧ ∀ m, m < 6 → m ≠ n.val → (s.host m).gate = none

/-- Host `n` has failed with reason `r` (R334). -/
def hostFails (s t : State) (n : Fin 6) (r : Nat) : Prop :=
  t.hostSt n = hsMENDING ∧ t.rd (Reg.HSV.FAULT n) = pgHSV * 256 + r ∧ t.raised pgHSV 10 = true ∧ t.raised pgHSV 11 = true
    ∧ (t.host n).gate = none ∧ (t.host n).mend.active = true ∧ (t.host n).mend.timer = true ∧ t.flash = s.flash ∧ t.otp = s.otp ∧ sameCfg s t

end Sys2Proof

/-- HOST_RELEASE, GATE_LIMIT, ESCORT_FETCH_DONE, ESCORT_SWEEP_DONE, BLOCK_TIMEOUT, HOST_OK_CHANGE, BOOT_TIMEOUT, RESET_PULSE_END,
OK_LOSS_EXPIRY, MEND_DEADLINE and RESTORE_LIMIT (R325-R341). -/
def Obligations.HostEvents : Prop :=
  (∀ (s : State) (n : Fin 6) (g : Gate), (s.host n).gate = some g → g.phase = .ready → g.slot < 2 → s.hostSt n = hsVERIFYING →
      (∀ m, m < 6 → m ≠ n.val → (s.host m).gate = none) → ∃ t, exec (.hostRelease n) s = .next t
      ∧ t.activeSlot n = g.slot ∧ t.flag (Reg.HSV.SLOT_INFO_NEXT_VALID n) = false
      ∧ (let ok := s.pinWatched n && (s.host n).sup.okPin
         t.flag (Reg.HSV.HOST_STATE_OK_SEEN n) = ok ∧ (t.host n).sup
          = ⟨decide (s.cfg (Reg.HSV.SUPERVISE_OK_SOURCE n) ≠ 0) && !ok, false, (s.host n).sup.okPin, (s.host n).sup.okPin, false⟩)
      ∧ (t.host n).gate = none
      ∧ (t.port n).verified = [] ∧ t.raised pgHSV 8 = true
      ∧ (s.windowsOf n = [] → t.hostSt n = hsRUNNING ∧ t.raised pgHSV 9 = true) ∧ (s.windowsOf n ≠ [] → t.hostSt n = hsESCORTED ∧ (t.snpOf n).laneI = 2)
      ∧ sameCfg s t ∧ t.flash = s.flash ∧ t.sram = s.sram ∧ t.otp = s.otp)
  ∧ (∀ (s : State) (n : Fin 6), (s.host n).gate = none → exec (.hostRelease n) s = .next s ∧ exec (.gateLimit n) s = .next s)
  ∧ (∀ (s : State) (n : Fin 6) (g : Gate), (s.host n).gate = some g → g.phase ≠ .wait → s.brace = false → s.hostSt n = hsVERIFYING →
      exec (.gateLimit n) s = .next (s.hostFailed n hvGATE_LIMIT)
      ∧ (noLevels s n → ∃ t, exec (.gateLimit n) s = .next t ∧ hostFails s t n hvGATE_LIMIT))
  ∧ (∀ (s : State) (n : Fin 6) (r : Nat), s.cfgb (Reg.HSV.SUPERVISE_ALT_EN n) = false → s.cfgb (Reg.HSV.SUPERVISE_RESTORE_EN n) = false →
      s.cfgb (Reg.HSV.SUPERVISE_NET_EN n) = false → s.brace = false →
      (s.hostFail n r).hostSt n = hsMENDING ∧ (s.hostFail n r).rd (Reg.HSV.FAULT n) = (pgHSV * 256 + r) % 2 ^ 16
      ∧ (s.hostFail n r).raised pgHSV 10 = true ∧ (s.hostFail n r).raised pgHSV 11 = true
      ∧ ((s.hostFail n r).host n).gate = none ∧ ((s.hostFail n r).host n).mend.active = true ∧ ((s.hostFail n r).host n).mend.timer = true
      ∧ (voidsRecord r = true → (s.hostFail n r).currentRec n (s.rd (Reg.HSV.SLOT_INFO_SEL n)) = none)
      ∧ (voidsRecord r = false → (s.hostFail n r).nvm = s.nvm) ∧ (s.hostFail n r).flash = s.flash ∧ (s.hostFail n r).otp = s.otp ∧ sameCfg s (s.hostFail n r))
  ∧ (∀ (s : State) (n : Fin 6) (l : Live) (t : Touch) (w cycles ns : Nat), (s.port n).live = some l → l.serve = .touch → l.touch = some t → t.cached = [] →
      (s.chan n).k1Run = true → (s.sched (State.chanRes n)).running = none → s.windowAt n t.start = some w → s.blockVerified n t.start = false →
      (let d := s.flashBytes n l.txn.cs (s.steered n l.txn.cs (t.start - s.cfg (Reg.HFP.CS_BASE n l.txn.cs) * 4096)) 1024
       (shaBytes 0 d = s.ldmLeaf (s.leafAt w t.start) → ∃ u, exec (.escortFetchDone n false cycles ns) s = .next u ∧ u.blockVerified n t.start = true
          ∧ (u.port n).live.map (fun l => (l.out, l.holdCycles)) = some (l.out ++ d.drop (s.policyAddr n l.txn.cs (s.hostAddr n l.txn) - t.start), cycles)
          ∧ u.hostSt n = s.hostSt n ∧ sameCfg s u ∧ sameStores s u)
       ∧ (shaBytes 0 d ≠ s.ldmLeaf (s.leafAt w t.start) → t.retries < 3 → ∃ u, exec (.escortFetchDone n false cycles ns) s = .next u
          ∧ (u.port n).live = some { l with touch := some { t with retries := t.retries + 1 } } ∧ u.blockVerified n t.start = false
          ∧ u.rd (Reg.FCH.RETRY_COUNT n) = min (s.rd (Reg.FCH.RETRY_COUNT n) + 1) (2 ^ (Reg.FCH.RETRY_COUNT n).width - 1)
          ∧ sameFieldsBut [Reg.FCH.RETRY_COUNT n] s u ∧ sameCfg s u ∧ sameStores s u)
       ∧ (shaBytes 0 d ≠ s.ldmLeaf (s.leafAt w t.start) → 3 ≤ t.retries →
          exec (.escortFetchDone n false cycles ns) s = .next (s.touchFail n hvESCORT_MISMATCH))))
  ∧ (∀ (s : State) (n : Fin 6), s.hostSt n = hsESCORTED → s.windowsOf n ≠ [] →
      (s.sweepNext n = none → ∃ t, exec (.escortSweepDone n) s = .next t ∧ t.hostSt n = hsRUNNING ∧ t.raised pgHSV 9 = true ∧ t.raised pgESC 9 = true
        ∧ (t.host n).digests = [] ∧ sameCfg s t ∧ sameStores s t)
      ∧ (s.sweepNext n ≠ none → exec (.escortSweepDone n) s = .next s))
  ∧ (∀ (s : State) (n : Fin 6),
      (∀ (l : Live) (t : Touch), (s.chan n).k1Run = true → (s.port n).live = some l → l.touch = some t →
        exec (.blockTimeout n) s = .next ((s.raise pgESC 8).hostFailed n hvBLOCK_TIMEOUT))
      ∧ ((s.chan n).k1Run = false → (s.serving n .sweep n || s.serving n .gate n) = true →
        exec (.blockTimeout n) s = .next (s.hostFailed n hvBLOCK_TIMEOUT)
        ∧ (noLevels s n → ∃ t, exec (.blockTimeout n) s = .next t ∧ hostFails s t n hvBLOCK_TIMEOUT))
      ∧ ((s.chan n).k1Run = false → (s.serving n .sweep n || s.serving n .gate n) = false →
        (s.serving n .hostRead n = true → exec (.blockTimeout n) s = .next (s.readFail n hvBLOCK_TIMEOUT))
        ∧ (s.serving n .hostRead n = false → s.serving 7 .restore n = true → exec (.blockTimeout n) s = .next (s.restoreFail n))
        ∧ (s.serving n .hostRead n = false → s.serving 7 .restore n = false → exec (.blockTimeout n) s = .next s)))
  ∧ (∀ (s : State) (n : Fin 6), s.released n = true → s.pinWatched n = true → (s.host n).sup.pulse = false →
      (∃ t, exec (.hostOkChange n true) s = .next t ∧ t.flag (Reg.HSV.HOST_STATE_OK_SEEN n) = true ∧ (t.host n).sup.waiting = false
        ∧ (t.host n).sup.okPin = true ∧ (t.host n).sup.okHigh = true ∧ t.hostSt n = s.hostSt n ∧ t.flash = s.flash ∧ sameCfg s t)
      ∧ (∃ t, exec (.hostOkChange n false) s = .next t ∧ (t.host n).sup.okPin = false
        ∧ (t.host n).sup.okLow = ((s.host n).sup.okHigh && s.flag (Reg.HSV.HOST_STATE_OK_SEEN n) && decide (s.cfg (Reg.HSV.OK_LOSS n) ≠ 0))
        ∧ t.regs = s.regs ∧ sameStores s t))
  ∧ (∀ (s : State) (n : Fin 6), s.released n = true → (s.host n).sup.waiting = true → (s.host n).sup.pulse = false →
      (s.rd (Reg.HSV.HOST_STATE_RETRY n) < s.cfg (Reg.HSV.SUPERVISE_BOOT_RETRIES n) → s.cfg (Reg.HSV.SUPERVISE_BOOT_RETRIES n) < 8 →
        ∃ t, exec (.bootTimeout n) s = .next t ∧ (t.host n).sup.pulse = true ∧ (t.host n).sup.waiting = true
          ∧ t.rd (Reg.HSV.HOST_STATE_RETRY n) = s.rd (Reg.HSV.HOST_STATE_RETRY n) + 1
          ∧ sameFieldsBut [Reg.HSV.HOST_STATE_RETRY n] s t ∧ sameCfg s t ∧ sameStores s t)
      ∧ (s.cfg (Reg.HSV.SUPERVISE_BOOT_RETRIES n) ≤ s.rd (Reg.HSV.HOST_STATE_RETRY n) → exec (.bootTimeout n) s = .next (s.hostFailed n hvOK_TIMEOUT)
        ∧ (noLevels s n → ∃ t, exec (.bootTimeout n) s = .next t ∧ hostFails s t n hvOK_TIMEOUT)))
  ∧ (∀ (s : State) (n : Fin 6), (s.host n).sup.pulse = true → (s.pinWatched n = false ∨ (s.host n).sup.okPin = false) →
      ∃ t, exec (.resetPulseEnd n) s = .next t ∧ (t.host n).sup = { (s.host n).sup with pulse := false, okHigh := (s.host n).sup.okPin } ∧ t.regs = s.regs
        ∧ sameStores s t)
  ∧ (∀ (s : State) (n : Fin 6), (s.host n).sup.pulse = true → s.pinWatched n = true → (s.host n).sup.okPin = true → s.released n = true →
      ∃ t, exec (.resetPulseEnd n) s = .next t ∧ (t.host n).sup.pulse = false ∧ (t.host n).sup.waiting = false
        ∧ t.flag (Reg.HSV.HOST_STATE_OK_SEEN n) = true ∧ t.flash = s.flash ∧ sameCfg s t)
  ∧ (∀ (s : State) (n : Fin 6), s.released n = true → (s.host n).sup.okLow = true →
      (s.cfg (Reg.HSV.SUPERVISE_BOOT_RETRIES n) ≤ s.rd (Reg.HSV.HOST_STATE_RETRY n) → exec (.okLossExpiry n) s = .next (s.hostFailed n hvOK_LOST)
        ∧ (noLevels s n → ∃ t, exec (.okLossExpiry n) s = .next t ∧ hostFails s t n hvOK_LOST))
      ∧ (s.rd (Reg.HSV.HOST_STATE_RETRY n) < s.cfg (Reg.HSV.SUPERVISE_BOOT_RETRIES n) → s.cfg (Reg.HSV.SUPERVISE_BOOT_RETRIES n) < 8 →
        ∃ t, exec (.okLossExpiry n) s = .next t ∧ (t.host n).sup.pulse = true ∧ (t.host n).sup.waiting = true
          ∧ t.rd (Reg.HSV.HOST_STATE_RETRY n) = s.rd (Reg.HSV.HOST_STATE_RETRY n) + 1
          ∧ sameFieldsBut [Reg.HSV.HOST_STATE_RETRY n] s t ∧ sameCfg s t ∧ sameStores s t))
  ∧ (∀ (s : State) (n : Fin 6), s.released n = false ∨ (s.host n).sup.okLow = false → exec (.okLossExpiry n) s = .next s)
  ∧ (∀ (s : State) (n : Fin 6), (s.host n).mend.timer = true → s.up = true → s.hostSt n ≠ hsOFF → (∀ m, m < 6 → m ≠ n.val → (s.host m).gate = none) →
      ∃ t, exec (.mendDeadline n) s = .next t ∧ t.hostSt n = hsQUARANTINED ∧ (t.host n).mend.timer = false ∧ t.raised pgHSV 12 = true ∧ sameCfg s t ∧ sameStores s t)
  ∧ (∀ (s : State) (n : Fin 6), (s.host n).restore.isSome = true →
      (s.brace = false → exec (.restoreLimit n) s = .next (s.restoreFail n)) ∧ (s.brace = true → exec (.restoreLimit n) s = .next s))
  ∧ (∀ (s : State) (n : Fin 6), (s.restoreFail n).rd (Reg.HSV.FAULT n) = pgHSV * 256 + hvRESTORE_FAIL ∧ ((s.restoreFail n).host n).restore = none
      ∧ (s.restoreFail n).raised pgHSV 10 = true
      ∧ (s.cfgb (Reg.HSV.SUPERVISE_NET_EN n) = true → (s.restoreFail n).rd (Reg.HSV.HOST_STATE_LEVEL n) = 5 ∧ (s.restoreFail n).raised pgHSV 13 = true)
      ∧ sameCfg s (s.restoreFail n) ∧ sameStores s (s.restoreFail n))

/-- CMP_RUN, CMP_ABORT and CMP_DONE (R342, R350, R550). -/
def Obligations.Decompression : Prop :=
  (∀ e : Option Nat, abcDecode (e.map fun _ => 0) [0, 0, 0, 0] = ⟨[], none⟩)
  ∧ (∀ p : List Byte, 0 < p.length → p.length ≤ 4096 → abcDecode none (leBytes 4 (p.length - 1 + p.length * 65536) ++ p ++ [0, 0, 0, 0]) = ⟨p, none⟩)
  ∧ (∀ p : List Byte, 0 < p.length → p.length ≤ 128 →
      abcDecode none (leBytes 4 (p.length - 1 + 32768 + (p.length + 1) * 65536) ++ (BitVec.ofNat 8 (p.length - 1) :: p) ++ [0, 0, 0, 0]) = ⟨p, none⟩)
  ∧ (∀ (b : Byte) (c : Nat), c < 7 →
      abcDecode none (leBytes 4 (c + 3 + 32768 + 4 * 65536) ++ [0, b, BitVec.ofNat 8 (128 + 16 * c), 0] ++ [0, 0, 0, 0]) = ⟨List.replicate (c + 4) b, none⟩)
  ∧ (∀ (s : State) (a : Nat), s.ready pgCMP 0x44 = true → s.cmp.host = none →
      (s.cmpDescOk a = true → ∃ t, exec (.cmpRun a) s = .next t ∧ t.cmp = { s.cmp with run := some (s.sramBytes a 20) }
        ∧ t.flag Reg.CMP.STATUS_BUSY = true ∧ t.flag Reg.CMP.STATUS_DONE = false ∧ (t.cmdSlot pgCMP 0x44).running = some (.cmpRun a)
        ∧ sameFieldsBut [Reg.CMP.STATUS_BUSY, Reg.CMP.STATUS_DONE] s t ∧ sameCfg s t ∧ sameStores s t)
      ∧ (s.cmpDescOk a = false → exec (.cmpRun a) s = .next (s.refuse pgCMP Reason.FIELD_RANGE 0x44)))
  ∧ (∀ (s : State) (a n : Nat), s.ready pgCMP 0x44 = true → s.cmp.host = some n → ∃ t, exec (.cmpRun a) s = .next t
      ∧ (t.cmdSlot pgCMP 0x44).queued = some (.cmpRun a) ∧ t.cmp = s.cmp ∧ t.regs = s.regs ∧ sameStores s t)
  ∧ (∀ (s : State) (d : List Byte), s.brace = false → s.cmp.run = some d → s.flag (Reg.FCH.STATUS_INIT_DONE 7) = true →
      (let r := abcDecode (some (State.cdOut d)) (s.flashBytes 7 0 (State.cdSrc d) (State.cdLen d))
       (State.cdKind d = 0 → ∃ t, exec .cmpDone s = .next t ∧ t.sram = Mem.store 0 s.sram (State.cdDst d) r.out ∧ t.flash = s.flash
          ∧ t.rd Reg.CMP.OUT_COUNT = r.out.length % 2 ^ Reg.CMP.OUT_COUNT.width ∧ t.cmp.run = none
          ∧ ((∀ (m : Nat) (r : Restore), (s.host m).restore = some r → r.step ≠ 2) → t.flag Reg.CMP.STATUS_BUSY = false ∧ t.flag Reg.CMP.STATUS_DONE = true)
          ∧ t.raised pgCMP 8 = true ∧ (t.cmdSlot pgCMP 0x44).running = none
          ∧ (r.fault = none → t.rd (Hdr.REASON_CODE pgCMP) = s.rd (Hdr.REASON_CODE pgCMP) ∧ t.raised pgCMP 9 = s.raised pgCMP 9)
          ∧ (∀ f, r.fault = some f → t.rd (Hdr.REASON_CODE pgCMP) = (pgCMP * 256 + f.1) % 2 ^ 16 ∧ t.raised pgCMP 9 = true
              ∧ t.rd Reg.CMP.ERR_OFFSET = f.2 % 2 ^ Reg.CMP.ERR_OFFSET.width)
          ∧ sameCfg s t ∧ t.otp = s.otp ∧ t.nvm = s.nvm ∧ t.retention = s.retention)
       ∧ (State.cdKind d = 1 → s.cmpChanOk (State.cdChan d) = true → ∃ t, exec .cmpDone s = .next t
          ∧ t.flash = (s.flashProgram (State.cdChan d) 0 (State.cdDst d) r.out).flash ∧ t.sram = s.sram
          ∧ t.rd Reg.CMP.OUT_COUNT = r.out.length % 2 ^ Reg.CMP.OUT_COUNT.width ∧ t.cmp.run = none ∧ t.raised pgCMP 8 = true ∧ sameCfg s t)
       ∧ (State.cdKind d = 1 → s.cmpChanOk (State.cdChan d) = false → ∃ t, exec .cmpDone s = .next t ∧ t.rd Reg.CMP.OUT_COUNT = 0
          ∧ t.rd (Hdr.REASON_CODE pgCMP) = pgCMP * 256 + cmABORTED ∧ t.cmp.run = none ∧ sameCfg s t ∧ sameStores s t)))
  ∧ (∀ (s : State) (d : List Byte), s.brace = false → s.cmp.run = some d → s.flag (Reg.FCH.STATUS_INIT_DONE 7) = false →
      ∃ t, exec .cmpDone s = .next t ∧ t.rd (Hdr.REASON_CODE pgCMP) = pgCMP * 256 + cmFORMAT ∧ t.rd Reg.CMP.ERR_OFFSET = 0 ∧ t.cmp.run = none
        ∧ t.raised pgCMP 9 = true ∧ sameCfg s t ∧ sameStores s t)
  ∧ (∀ (s : State) (n : Fin 6) (p : Restore), s.brace = false → s.cmp.run = none → s.cmp.host = some n.val → (s.host n).restore = some p →
      (let r := abcDecode none p.golden
      r.fault = none → r.out ≠ [] → r.out.length ≤ s.slotSize n → ∃ t, exec .cmpDone s = .next t
        ∧ (t.host n).restore = some { p with step := 3, done := 0, output := r.out, golden := [] } ∧ t.rd Reg.CMP.OUT_COUNT = r.out.length % 2 ^ 32
        ∧ t.raised pgCMP 8 = true ∧ sameCfg s t ∧ sameStores s t))
  ∧ (∀ s : State, s.up = true →
      (s.cmp.run.isSome = true → ∃ t, exec .cmpAbort s = .next t ∧ t.rd (Hdr.REASON_CODE pgCMP) = pgCMP * 256 + cmABORTED ∧ t.cmp.run = none
        ∧ t.cmdSlot pgCMP 0x44 = ⟨none, none⟩
        ∧ ((∀ (m : Nat) (r : Restore), (s.host m).restore = some r → r.step ≠ 2) → t.flag Reg.CMP.STATUS_BUSY = false) ∧ t.raised pgCMP 8 = true ∧ t.raised pgCMP 9 = true
        ∧ sameFieldsBut [Hdr.REASON_CODE pgCMP, Hdr.REASON_OFFSET pgCMP, Reg.CMP.STATUS_BUSY, Reg.CMP.STATUS_DONE, Hdr.EVENT pgCMP 8, Hdr.EVENT pgCMP 9] s t
        ∧ sameCfg s t ∧ sameStores s t)
      ∧ (s.cmp.run.isSome = false → exec .cmpAbort s = .next (s.cmdDrop pgCMP 0x44)))
  ∧ (∀ s : State, s.brace = true → exec .cmpDone s = .next s)
  ∧ (∀ s : State, s.up = false → exec .cmpAbort s = .next s)

namespace Sys2Proof

/-- The fields that a choice of a channel's next service may change: its status, the pins' owner and two figures. -/
def chanFields (c : Nat) : List Fld := [Reg.FCH.STATUS_OWNER c, Reg.FCH.STATUS_BUSY c, Reg.FCH.STATUS_SUSPENDED c, Reg.FCH.YIELD_COUNT c,
  Reg.HFP.PORT_STATUS_OWNS_PINS c, Reg.XBR.K2_MAX_SEEN]

end Sys2Proof

/-- FCH_READ, FCH_PROGRAM, FCH_ERASE, INIT, INIT_DONE, FCH_ABORT and CHANNEL_SERVICE_DONE for firmware (R72, R346-R350, R557, R566). -/
def Obligations.ChannelCommands : Prop :=
  (∀ (s : State) (c : Fin 8) (a : Nat), s.ready (pgFCH c) fchCmdOff = true →
      (let d := s.ramBytes a 16
       let started := fun (t : State) (i : Instr) (k : ReqKind) => (t.cmdSlot (pgFCH c) fchCmdOff).running = some i
        ∧ hasReq t (State.chanRes c) ⟨k, State.fdClass d, State.fdClass d, fwIssuer, 0, 0, s.time.mrt, d⟩
        ∧ sameFieldsBut (chanFields c) s t ∧ sameCfg s t ∧ sameStores s t
      (s.fchFault c 0 a = none → ∃ t, exec (.fchRead c a) s = .next t ∧ started t (.fchRead c a) .fwRead)
      ∧ (s.fchFault c 1 a = none → ∃ t, exec (.fchProgram c a) s = .next t ∧ started t (.fchProgram c a) .fwProgram)
      ∧ (s.fchFault c 2 a = none → ∃ t, exec (.fchErase c a) s = .next t ∧ started t (.fchErase c a) .fwErase)
      ∧ (∀ r, (s.fchFault c 0 a = some r → exec (.fchRead c a) s = .next (s.fchRefuse c r))
        ∧ (s.fchFault c 1 a = some r → exec (.fchProgram c a) s = .next (s.fchRefuse c r))
        ∧ (s.fchFault c 2 a = some r → exec (.fchErase c a) s = .next (s.fchRefuse c r)))))
  ∧ (∀ (s : State) (c : Fin 8) (k a : Nat), (let d := s.ramBytes a 16
      (State.fdClass d ≥ 6 → s.fchFault c k a = some Reason.FIELD_RANGE)
      ∧ (State.fdClass d < 3 → State.fdFlags d < 8 → fieldLe d 3 1 = 0 → s.fchFault c k a = some fcCLASS_NOT_PERMITTED)
      ∧ (3 ≤ State.fdClass d → State.fdClass d < 6 → State.fdFlags d < 8 → fieldLe d 3 1 = 0 → s.flag (Reg.FCH.STATUS_INIT_DONE c) = false →
          s.fchFault c k a = some fcNOT_INIT)))
  ∧ (∀ (s : State) (c : Fin 8) (r : Nat), (s.fchRefuse c r).rd (Hdr.REASON_CODE (pgFCH c)) = (pgFCH c * 256 + r) % 2 ^ 16
      ∧ sameFieldsBut [Hdr.REASON_CODE (pgFCH c), Hdr.REASON_OFFSET (pgFCH c)] s (s.fchRefuse c r) ∧ sameCfg s (s.fchRefuse c r) ∧ sameStores s (s.fchRefuse c r))
  ∧ (∀ (s : State) (c : Fin 8) (a : Nat), s.ready (pgFCH c) fchCmdOff = true →
      (s.initFault c a = none → ∃ t, exec (.init c a) s = .next t ∧ (t.cmdSlot (pgFCH c) fchCmdOff).running = some (.init c a)
        ∧ hasReq t (State.chanRes c) ⟨.init, 5, 5, fwIssuer, 0, 0, s.time.mrt, []⟩ ∧ sameFieldsBut (chanFields c) s t ∧ sameCfg s t ∧ sameStores s t)
      ∧ (∀ r, s.initFault c a = some r → exec (.init c a) s = .next (s.fchRefuse c r)))
  ∧ (∀ (s : State) (c : Fin 8) (r : Req), (s.sched (State.chanRes c)).running = some r → r.kind = .init →
      (∃ t, exec (.initDone c true) s = .next t ∧ t.flag (Reg.FCH.STATUS_INIT_DONE c) = true
        ∧ t.rd (Reg.FCH.STATUS_INIT_PROTOCOL c) = s.cfg (Reg.FCH.PROFILE_PROTOCOL c) % 2 ^ (Reg.FCH.STATUS_INIT_PROTOCOL c).width
        ∧ t.rd (Reg.FCH.STATUS_INIT_ADDR_WIDE c) = s.cfg (Reg.FCH.PROFILE_ADDR_WIDE c) % 2 ^ (Reg.FCH.STATUS_INIT_ADDR_WIDE c).width
        ∧ t.rd (Reg.FCH.STATUS_INIT_DUMMY c) = s.cfg (Reg.FCH.PROFILE_DUMMY c) % 2 ^ (Reg.FCH.STATUS_INIT_DUMMY c).width
        ∧ t.raised (pgFCH c) 9 = true ∧ t.raised (pgFCH c) 10 = true ∧ (t.cmdSlot (pgFCH c) fchCmdOff).running = none ∧ sameCfg s t ∧ sameStores s t)
      ∧ (∃ t, exec (.initDone c false) s = .next t ∧ t.rd (Reg.FCH.STATUS_INIT_DONE c) = s.rd (Reg.FCH.STATUS_INIT_DONE c)
        ∧ t.rd (Hdr.REASON_CODE (pgFCH c)) = (pgFCH c * 256 + fcINIT_FAIL) % 2 ^ 16 ∧ t.raised (pgFCH c) 10 = true
        ∧ (t.cmdSlot (pgFCH c) fchCmdOff).running = none ∧ sameCfg s t ∧ sameStores s t))
  ∧ (∀ (s : State) (c : Fin 8) (ok : Bool), (s.sched (State.chanRes c)).running = none → exec (.initDone c ok) s = .next s)
  ∧ (∀ (s : State) (c : Fin 8) (r : Req) (corrupt : Bool), (s.sched (State.chanRes c)).running = some r →
      (r.kind = .fwRead → s.laneFw c = false → (let d := r.desc; let n := min 512 (State.fdLen d - r.pos)
        let v := s.ramStore (State.fdSram d + r.pos) (s.delivered corrupt (s.flashBytes c (State.fdCs d) (State.fdDev d + r.pos) n)).2
        ∃ u : State, exec (.channelServiceDone c corrupt) s = .next (u.goOn.pumpCh c) ∧ u.sram = v.sram ∧ u.retention = v.retention
          ∧ (n < State.fdLen d - r.pos → hasReq u (State.chanRes c) { r with pos := r.pos + n, lvl := r.cls, addr := 0 }
              ∧ (u.cmdSlot (pgFCH c) fchCmdOff).running = (s.cmdSlot (pgFCH c) fchCmdOff).running)
          ∧ (State.fdLen d - r.pos ≤ n → u.raised (pgFCH c) 10 = true ∧ (u.cmdSlot (pgFCH c) fchCmdOff).running = none)
          ∧ u.flash = s.flash ∧ u.otp = s.otp ∧ u.nvm = s.nvm ∧ sameCfg s u))
      ∧ (r.kind = .fwRead → s.laneFw c = true → r.addr = 0 → r.pos % s.laneBlk c + 512 = s.laneBlk c → 512 ≤ State.fdLen r.desc - r.pos →
        (Tbl.get [] (s.snpOf c).laneAcc (r.pos / s.laneBlk c)).length + 512 = s.laneBlk c →
        ∃ u : State, exec (.channelServiceDone c corrupt) s = .next (u.goOn.pumpCh c)
          ∧ (u.snpOf c).fifo = (s.snpOf c).fifo ++ [⟨r.pos / s.laneBlk c, shaBytes (s.cfg (Reg.SNP.MODE_PRE_ALG c))
              (Tbl.get [] (s.snpOf c).laneAcc (r.pos / s.laneBlk c)
                ++ (s.delivered corrupt (s.flashBytes c (State.fdCs r.desc) (State.fdDev r.desc + r.pos) 512)).2)⟩] ∧ u.flash = s.flash ∧ sameCfg s u)
      ∧ (r.kind = .fwProgram → (let d := r.desc; let n := min (s.pageSize c) (State.fdLen d - r.pos)
        ∃ u : State, exec (.channelServiceDone c corrupt) s = .next (u.goOn.pumpCh c)
          ∧ u.flash = (s.flashProgram c (State.fdCs d) (State.fdDev d + r.pos) (s.ramBytes (State.fdSram d + r.pos) n)).flash
          ∧ (n < State.fdLen d - r.pos → hasReq u (State.chanRes c) { r with pos := r.pos + n, lvl := r.cls })
          ∧ (State.fdLen d - r.pos ≤ n → u.raised (pgFCH c) 10 = true ∧ (u.cmdSlot (pgFCH c) fchCmdOff).running = none)
          ∧ u.sram = s.sram ∧ u.retention = s.retention ∧ u.otp = s.otp ∧ u.nvm = s.nvm ∧ sameCfg s u))
      ∧ (r.kind = .fwErase → ∃ u : State, exec (.channelServiceDone c corrupt) s = .next (u.goOn.pumpCh c)
          ∧ u.flash = Tbl.clear (State.flashKey c (State.fdCs r.desc) (State.fdDev r.desc)) (s.eraseSize c) s.flash
          ∧ u.raised (pgFCH c) 10 = true ∧ (u.cmdSlot (pgFCH c) fchCmdOff).running = none
          ∧ u.sram = s.sram ∧ u.retention = s.retention ∧ u.otp = s.otp ∧ u.nvm = s.nvm ∧ sameCfg s u))
  ∧ (∀ (s : State) (c : Fin 8) (corrupt : Bool), (s.sched (State.chanRes c)).running = none → exec (.channelServiceDone c corrupt) s = .next s)
  ∧ (∀ (s : State) (c : Fin 8), s.up = true → ∃ t, exec (.fchAbort c) s = .next t ∧ t.cmdSlot (pgFCH c) fchCmdOff = ⟨none, none⟩
      ∧ (s.cmdRuns (pgFCH c) fchCmdOff = true → t.raised (pgFCH c) 10 = true ∧ (∀ r ∈ (t.sched (State.chanRes c)).queue, State.isFw r = false)
          ∧ (∀ r, (t.sched (State.chanRes c)).running = some r → State.isFw r = false))
      ∧ sameFieldsBut (Hdr.EVENT (pgFCH c) 10 :: Reg.SNP.LANE_STATUS_I_BUSY c :: chanFields c) s t ∧ sameCfg s t ∧ sameStores s t)
  ∧ (∀ (s : State) (c : Fin 8), s.up = false → exec (.fchAbort c) s = .next s)

/-- STROBE_WAIT_EXPIRY, ERASE_SUSPEND_DONE, CHANNEL_POLL_DONE, AGE_PROMOTION, SHORT_WINDOW_END and SHORTFALL_DROP (R351-R353, R358, R366-R368). -/
def Obligations.Scheduling : Prop :=
  (∀ (s : State) (c : Fin 8) (r : Req), 2 ≤ s.cfg (Reg.FCH.PROFILE_PROTOCOL c) → (s.sched (State.chanRes c)).running = some r →
      (State.reqReads c r = true → (s.chan c).retries < 3 → ∃ t, exec (.strobeWaitExpiry c) s = .next t
        ∧ t.chan c = { s.chan c with retries := (s.chan c).retries + 1 }
        ∧ t.rd (Reg.FCH.RETRY_COUNT c) = min (s.rd (Reg.FCH.RETRY_COUNT c) + 1) (2 ^ (Reg.FCH.RETRY_COUNT c).width - 1)
        ∧ t.scheds = s.scheds ∧ sameFieldsBut [Reg.FCH.RETRY_COUNT c] s t ∧ sameCfg s t ∧ sameStores s t)
      ∧ (State.reqReads c r = true → 3 ≤ (s.chan c).retries → ∃ u : State, exec (.strobeWaitExpiry c) s = .next (u.goOn.pumpCh c)
        ∧ u.rd (Reg.FCH.READ_FAIL_COUNT c) = min (s.rd (Reg.FCH.READ_FAIL_COUNT c) + 1) (2 ^ (Reg.FCH.READ_FAIL_COUNT c).width - 1)
        ∧ u.raised (pgFCH c) 8 = true
        ∧ (r.kind = .fwRead → u.raised (pgFCH c) 10 = true ∧ u.rd (Hdr.REASON_CODE (pgFCH c)) = (pgFCH c * 256 + fcREAD_FAIL) % 2 ^ 16
          ∧ (u.cmdSlot (pgFCH c) fchCmdOff).running = none ∧ (u.chan c).retries = 0 ∧ (u.sched (State.chanRes c)).running = none ∧ sameCfg s u ∧ sameStores s u))
      ∧ (State.reqReads c r = false → exec (.strobeWaitExpiry c) s = .next s))
  ∧ (∀ (s : State) (n : Fin 6) (l : Live) (p : Touch), 2 ≤ s.cfg (Reg.FCH.PROFILE_PROTOCOL n) → (s.sched (State.chanRes n)).running = none →
      (s.port n).live = some l → l.touch = some p → (s.chan n).k1Run = true →
      (p.retries < 3 → ∃ t, exec (.strobeWaitExpiry (n.castLE (by decide))) s = .next t ∧ (t.port n).live = some { l with touch := some { p with retries := p.retries + 1 } }
        ∧ t.rd (Reg.FCH.RETRY_COUNT n) = min (s.rd (Reg.FCH.RETRY_COUNT n) + 1) (2 ^ (Reg.FCH.RETRY_COUNT n).width - 1)
        ∧ sameFieldsBut [Reg.FCH.RETRY_COUNT n] s t ∧ sameCfg s t ∧ sameStores s t)
      ∧ (3 ≤ p.retries → ∃ u : State, exec (.strobeWaitExpiry (n.castLE (by decide))) s = .next (u.hostFailed n hvREAD_FAIL) ∧ u.raised (pgFCH n) 8 = true
        ∧ u.raised pgESC 8 = true ∧ u.rd (Reg.FCH.READ_FAIL_COUNT n) = min (s.rd (Reg.FCH.READ_FAIL_COUNT n) + 1) (2 ^ (Reg.FCH.READ_FAIL_COUNT n).width - 1)
        ∧ u.hosts = s.hosts ∧ u.ports = s.ports ∧ sameCfg s u ∧ sameStores s u))
  ∧ (∀ (s : State) (c : Fin 8), s.cfg (Reg.FCH.PROFILE_PROTOCOL c) < 2 → exec (.strobeWaitExpiry c) s = .next s)
  ∧ (∀ (s : State) (c : Fin 8) (r : Req), (s.chan c).suspending = true → (s.sched (State.chanRes c)).running = some r →
      ∃ t, exec (.eraseSuspendDone c) s = .next t ∧ (t.chan c).suspending = false
        ∧ (((t.chan c).suspended = some r ∧ t.flag (Reg.FCH.STATUS_SUSPENDED c) = true) ∨ (t.sched (State.chanRes c)).running = some r)
        ∧ sameCfg s t ∧ sameStores s t)
  ∧ (∀ (s : State) (c : Fin 8) (r q : Req), (s.chan c).suspending = true → (s.sched (State.chanRes c)).running = some r →
      (s.sched (State.chanRes c)).queue = [q] → q.cls = 2 → q.lvl = 2 → q.kind ∈ [ReqKind.readPage, .measure, .gate] → 6 ≤ c.val → s.up = true →
      (s.chan c).k1Run = false → (s.chan c).polling = false → 2 ≤ (s.sched (State.chanRes c)).ptr → (s.sched (State.chanRes c)).ptr ≤ 5 →
      ∃ t, exec (.eraseSuspendDone c) s = .next t ∧ (t.sched (State.chanRes c)).running = some q ∧ (t.chan c).suspended = some r
        ∧ t.flag (Reg.FCH.STATUS_OWNER c) = true ∧ t.flag (Reg.FCH.STATUS_SUSPENDED c) = true)
  ∧ (∀ (s : State) (c : Fin 8), (s.chan c).suspending = false → exec (.eraseSuspendDone c) s = .next s)
  ∧ (∀ (s : State) (c : Fin 8), ((s.chan c).polling = true → ∃ t, exec (.channelPollDone c) s = .next t ∧ (t.chan c).polling = false ∧ sameCfg s t ∧ sameStores s t)
      ∧ ((s.chan c).polling = false → exec (.channelPollDone c) s = .next s))
  ∧ (∀ (s : State) (x i : Nat) (r : Req), (s.sched x).queue[i]? = some r →
      (2 ≤ r.lvl → State.suspendedAt (s.sched x).level r.lvl = false → ∃ t, exec (.agePromotion x i) s = .next t
        ∧ t.rd Reg.XBR.PROMOTED_COUNT = min (s.rd Reg.XBR.PROMOTED_COUNT + 1) (2 ^ Reg.XBR.PROMOTED_COUNT.width - 1)
        ∧ ({ r with lvl := r.lvl - 1 } ∈ (t.sched x).queue ∨ (t.sched x).running = some { r with lvl := r.lvl - 1 })
        ∧ (x < 4 → t.sched x = { s.sched x with queue := (s.sched x).queue.eraseIdx i ++ [{ r with lvl := r.lvl - 1 }] })
        ∧ sameCfg s t ∧ sameStores s t)
      ∧ (r.lvl ≤ 1 ∨ State.suspendedAt (s.sched x).level r.lvl = true → exec (.agePromotion x i) s = .next s))
  ∧ (∀ (s : State) (x below : Nat), s.up = true → x < 12 → (s.sched x).braced = false →
      (let ks := s.shortClasses x below
       let lv := if ks = [] then (s.sched x).level - 1 else min 3 ((s.sched x).level + 1)
       ∃ t, exec (.shortWindowEnd x below) s = .next t ∧ (t.sched x).level = lv
        ∧ (ks ≠ [] → t.raised pgXBR 8 = true) ∧ (lv ≠ (s.sched x).level → t.raised pgXBR 10 = true)
        ∧ (∀ k, k < 6 → 2 ≤ k → t.rd (Reg.XBR.SHORT_WINDOWS (k - 2)) =
            if k ∈ ks then min (s.rd (Reg.XBR.SHORT_WINDOWS (k - 2)) + 1) (2 ^ 32 - 1) else s.rd (Reg.XBR.SHORT_WINDOWS (k - 2)))
        ∧ t.rd Reg.XBR.SACRIFICE = (List.range 12).foldl (fun a y => a + (t.sched y).level * 4 ^ y) 0 % 2 ^ 24 ∧ sameCfg s t ∧ sameStores s t))
  ∧ (∀ (s : State) (x below : Nat), s.up = true → x < 12 → (s.sched x).braced = true →
      exec (.shortWindowEnd x below) s = .next (s.setSched x { s.sched x with braced := s.brace }))
  ∧ (∀ (s : State) (x i : Nat) (r : Req), (s.sched x).queue[i]? = some r →
      (State.suspendedAt (s.sched x).level r.lvl = true → 3 ≤ r.cls → r.cls ≤ 5 →
        (State.isFw r = true → ∃ t, exec (.shortfallDrop x i) s = .next t
          ∧ t.sched x = { s.sched x with queue := (s.sched x).queue.eraseIdx i }
          ∧ t.rd (Reg.XBR.DROPPED (r.cls - 3)) = min (s.rd (Reg.XBR.DROPPED (r.cls - 3)) + 1) (2 ^ 32 - 1) ∧ t.raised pgXBR 9 = true
          ∧ t.rd (Hdr.REASON_CODE (pgFCH (x - 4))) = pgXBR * 256 + xbSHORTFALL_DROPPED
          ∧ (t.cmdSlot (pgFCH (x - 4)) fchCmdOff).running = none ∧ t.raised (pgFCH (x - 4)) 10 = true ∧ sameCfg s t ∧ sameStores s t)
        ∧ (r.kind = .sweep → ∃ t, exec (.shortfallDrop x i) s = .next t
          ∧ t.sched x = { s.sched x with queue := (s.sched x).queue.eraseIdx i ++ [{ r with lvl := r.cls }] }
          ∧ t.rd (Reg.XBR.DROPPED (r.cls - 3)) = min (s.rd (Reg.XBR.DROPPED (r.cls - 3)) + 1) (2 ^ 32 - 1)
          ∧ t.rd (Hdr.REASON_CODE pgESC) = pgXBR * 256 + xbSHORTFALL_DROPPED ∧ t.hosts = s.hosts ∧ sameCfg s t ∧ sameStores s t))
      ∧ (State.suspendedAt (s.sched x).level r.lvl = false ∨ r.cls < 3 → exec (.shortfallDrop x i) s = .next s))
  ∧ (∀ (s : State) (x i : Nat), (s.sched x).queue[i]? = none → exec (.agePromotion x i) s = .next s ∧ exec (.shortfallDrop x i) s = .next s)

/-- LANE_STATUS_CHANGE, LINK_UP, LINK_DOWN, FRAME_RECEIVED, NET_SEND, NET_RECV and TX_FRAME_END (R373-R378, R383, R384). -/
def Obligations.Lanes : Prop :=
  (∀ (s : State) (l : Fin 2) (k h : Bool),
      (s.laneOn l = true → ∃ t, exec (.laneStatusChange l k h) s = .next t ∧ t.flag (Reg.NET.LANE_STATUS_BLOCK_LOCK l) = k
        ∧ t.flag (Reg.NET.LANE_STATUS_HI_BER l) = h ∧ sameFieldsBut [Reg.NET.LANE_STATUS_BLOCK_LOCK l, Reg.NET.LANE_STATUS_HI_BER l] s t ∧ sameCfg s t ∧ sameStores s t)
      ∧ (s.laneOn l = false → exec (.laneStatusChange l k h) s = .next s))
  ∧ (∀ (s : State) (l : Fin 2),
      (s.laneOn l = true → s.linkUp l = false → s.flag (Reg.NET.LANE_STATUS_BLOCK_LOCK l) = true → s.flag (Reg.NET.LANE_STATUS_HI_BER l) = false →
        ∃ t, exec (.linkUp l) s = .next t ∧ t.linkUp l = true ∧ t.raised pgNET 9 = true
          ∧ (∀ k, k < 2 → t.flag (Reg.NET.LANE_STATUS_CARRYING k) = (((s.wr (Reg.NET.LANE_STATUS_LINK_UP l) 1).raise pgNET 9).carriers).contains k)
          ∧ sameCfg s t ∧ sameStores s t)
      ∧ (s.laneOn l = false ∨ s.linkUp l = true ∨ s.flag (Reg.NET.LANE_STATUS_BLOCK_LOCK l) = false ∨ s.flag (Reg.NET.LANE_STATUS_HI_BER l) = true →
        exec (.linkUp l) s = .next s))
  ∧ (∀ (s : State) (l : Fin 2), s.linkUp l = true → s.flag (Reg.NET.LANE_STATUS_BLOCK_LOCK l) = false →
      ∃ t, exec (.linkDown l) s = .next t ∧ t.linkUp l = false ∧ t.raised pgNET 8 = true ∧ t.flag (Reg.NET.LANE_STATUS_CARRYING l) = false
        ∧ t.rd (Reg.NET.LINK_DOWN_COUNT l) = min (s.rd (Reg.NET.LINK_DOWN_COUNT l) + 1) (2 ^ (Reg.NET.LINK_DOWN_COUNT l).width - 1)
        ∧ (s.flag (Reg.NET.LANE_STATUS_CARRYING l) = true → s.linkUp (1 - l.val) = true → ∀ i, (s.sess i).state ≠ 0 → (s.sess i).medium = l.val →
            t.sess i = { s.sess i with medium := 1 - l.val } ∧ t.raised pgNET 10 = true)
        ∧ (s.flag (Reg.NET.LANE_STATUS_CARRYING l) = false ∨ s.linkUp (1 - l.val) = false → t.stx = s.stx) ∧ sameCfg s t ∧ sameStores s t)
  ∧ (∀ (s : State) (l : Fin 2), s.linkUp l = false ∨ (s.flag (Reg.NET.LANE_STATUS_BLOCK_LOCK l) = true ∧ s.flag (Reg.NET.LANE_STATUS_HI_BER l) = false) →
      exec (.linkDown l) s = .next s)
  ∧ (∀ (s : State) (l : Fin 2) (f : EthFrame), s.laneOn l = true → s.linkUp l = true → s.cfgb (Reg.NET.LANE_CTRL_FEC_EN l) = false →
      (f.fcsOk = false → exec (.frameReceived l f) s = .next (s.bump (Reg.NET.FCS_ERR l)))
      ∧ (f.fcsOk = true → (f.len < 64 ∨ 2048 < f.len ∨ (f.dst ≠ s.laneMac l ∧ f.dst ≠ 2 ^ 48 - 1)) → exec (.frameReceived l f) s = .next (s.bump (Reg.NET.RX_DROP l)))
      ∧ (f.fcsOk = true → 64 ≤ f.len → f.len ≤ 2048 → f.dst = s.laneMac l → f.sec = none →
          (s.cfgb Reg.NET.MODE_REQUIRE_MACSEC = true → f.etype ≠ 0x888E →
            exec (.frameReceived l f) s = .next ((s.bump (Reg.NET.RX_FRAMES l)).bump (Reg.NET.RX_DROP l)))
          ∧ (s.cfgb Reg.NET.MODE_REQUIRE_MACSEC = false → s.romRuns = false → f.etype ≠ s.cfg Reg.NET.STX_ETYPE → (s.lane l).rxq.length < 32 →
            ∃ t, exec (.frameReceived l f) s = .next t
              ∧ t.lane l = { s.lane l with rxq := (s.lane l).rxq ++ [beBytes 6 f.dst ++ beBytes 6 f.src ++ beBytes 2 f.etype ++ f.payload] }
              ∧ t.raised pgNET 12 = true ∧ t.rd (Reg.NET.RX_FRAMES l) = min (s.rd (Reg.NET.RX_FRAMES l) + 1) (2 ^ (Reg.NET.RX_FRAMES l).width - 1)
              ∧ sameFieldsBut [Reg.NET.RX_FRAMES l, Hdr.EVENT pgNET 12] s t ∧ sameCfg s t ∧ sameStores s t)))
  ∧ (∀ (s : State) (l : Fin 2) (f : EthFrame) (g : SecTag), s.laneOn l = true → s.linkUp l = true → s.cfgb (Reg.NET.LANE_CTRL_FEC_EN l) = false →
      f.fcsOk = true → 64 ≤ f.len → f.len ≤ 2048 → f.dst = s.laneMac l → f.sec = some g → s.brace = false →
      (let sc := 2 * l.val + 1; let x := 8 * l.val + 4 + g.an.val; let b := s.bump (Reg.NET.RX_FRAMES l)
       (s.scOn sc = false ∨ g.sci ≠ s.sci sc ∨ (s.sa x).enabled = false → exec (.frameReceived l f) s = .next (b.bump (Reg.MSEC.NO_SA sc)))
       ∧ (s.scOn sc = true → g.sci = s.sci sc → (s.sa x).enabled = true → s.scXpn sc = false → s.cfgb (Reg.MSEC.SC_CTRL_REPLAY_PROTECT sc) = true →
          g.pn % 2 ^ 32 < s.nextPn x → exec (.frameReceived l f) s = .next (b.bump (Reg.MSEC.LATE sc)))
       ∧ (s.scOn sc = true → g.sci = s.sci sc → (s.sa x).enabled = true → s.scXpn sc = false → s.cfgb (Reg.MSEC.SC_CTRL_REPLAY_PROTECT sc) = false →
          s.cfgb (Reg.MSEC.SC_CTRL_CONF sc) = false →
          (let tag := Config.gcmTag (s.sa x).key (beBytes 8 g.sci ++ beBytes 4 (g.pn % 2 ^ 32))
             (beBytes 6 f.dst ++ beBytes 6 f.src ++ State.secTag false g.an g.data.length (g.pn % 2 ^ 32) g.sci ++ g.data) []
           (tag ≠ g.icv → exec (.frameReceived l f) s = .next (b.bump (Reg.MSEC.NOT_VALID sc)))
           ∧ (tag = g.icv → s.romRuns = false → beNat (g.data.take 2) ≠ s.cfg Reg.NET.STX_ETYPE → (s.lane l).rxq.length < 32 → ∃ t, exec (.frameReceived l f) s = .next t
              ∧ t.rd (Reg.MSEC.OK sc) = min (s.rd (Reg.MSEC.OK sc) + 1) (2 ^ (Reg.MSEC.OK sc).width - 1)
              ∧ t.rd (Reg.MSEC.NEXT_PN_LO x) = max (s.nextPn x) (g.pn % 2 ^ 32 + 1 - s.cfg (Reg.MSEC.REPLAY_WINDOW sc)) % 2 ^ 32
              ∧ (t.lane l).rxq = (s.lane l).rxq ++ [beBytes 6 f.dst ++ beBytes 6 f.src ++ beBytes 2 (beNat (g.data.take 2)) ++ g.data.drop 2]
              ∧ t.raised pgNET 12 = true ∧ sameCfg s t ∧ sameStores s t)))))
  ∧ (∀ (s : State) (l : Fin 2) (f : EthFrame), s.laneOn l = false ∨ s.linkUp l = false → exec (.frameReceived l f) s = .next s)
  ∧ (∀ (s : State) (a : Nat) (l : Fin 2), s.ready pgNET 0x50 = true → State.inSram a 12 = true → s.sramLe a 1 = l.val → s.sramLe (a + 1) 3 = 0 →
      14 ≤ s.sramLe (a + 8) 4 → s.sramLe (a + 8) 4 ≤ 2044 → State.inSram (s.sramLe (a + 4) 4) (s.sramLe (a + 8) 4) = true →
      (let f := s.sramBytes (s.sramLe (a + 4) 4) (s.sramLe (a + 8) 4)
       (2048 < s.wireLen l f → exec (.netSend a) s = .next (s.refuse pgNET Reason.FIELD_RANGE 0x50))
       ∧ (s.wireLen l f ≤ 2048 →
       (s.laneOn l = false ∨ s.linkUp l = false → exec (.netSend a) s = .next (s.refuse pgNET ntLANE_DOWN 0x50))
       ∧ (s.laneOn l = true → s.linkUp l = true → s.brace = false → s.protects l f = false → (s.lane l).txq = [] → (s.lane l).wire = none →
          ∃ t, exec (.netSend a) s = .next t ∧ (t.lane l).wire = some (s.tagFrame l f) ∧ (t.lane l).txq = [] ∧ (t.lane l).wireAn = none
            ∧ t.regs = s.regs ∧ sameStores s t)
       ∧ (s.laneOn l = true → s.linkUp l = true → s.brace = false → s.protects l f = true → s.txUsable l = true → (s.lane l).txq = [] → (s.lane l).wire = none →
          ∃ t, exec (.netSend a) s = .next t ∧ (t.lane l).wire = some (s.tagFrame l (s.protectFrame l f)) ∧ (t.lane l).wireAn = some (s.txAn l)
            ∧ t.rd (Reg.MSEC.NEXT_PN_LO (s.txSa l)) = (s.nextPn (s.txSa l) + 1) % 2 ^ 32 ∧ sameCfg s t ∧ sameStores s t)
       ∧ (s.laneOn l = true → s.linkUp l = true → 64 ≤ (s.lane l).txq.length → ∃ t, exec (.netSend a) s = .next t
            ∧ t.rd (Hdr.REASON_CODE pgNET) = pgNET * 256 + ntFW_QUEUE_FULL ∧ t.lanes = s.lanes
            ∧ t.rd (Reg.MSEC.NO_SA (2 * l.val)) = min (s.rd (Reg.MSEC.NO_SA (2 * l.val)) + 1) (2 ^ (Reg.MSEC.NO_SA (2 * l.val)).width - 1)
            ∧ sameCfg s t ∧ sameStores s t))))
  ∧ (∀ (s : State) (a : Nat), s.ready pgNET 0x50 = true → State.inSram a 12 = false → exec (.netSend a) s = .next (s.refuse pgNET Reason.FIELD_RANGE 0x50)
      ∧ exec (.netRecv a) s = .next (s.refuse pgNET Reason.FIELD_RANGE 0x50))
  ∧ (∀ (s : State) (a : Nat) (l : Fin 2), s.ready pgNET 0x50 = true → State.inSram a 12 = true → s.sramLe a 1 = l.val → s.sramLe (a + 1) 3 = 0 →
      State.inSram (s.sramLe (a + 4) 4) (s.sramLe (a + 8) 4) = true →
      ((s.lane l).rxq = [] → exec (.netRecv a) s = .next (s.sramStore (a + 8) (leBytes 4 0)))
      ∧ (∀ f, (s.lane l).rxq.head? = some f → ∃ t, exec (.netRecv a) s = .next t ∧ t.lane l = { s.lane l with rxq := (s.lane l).rxq.tail }
          ∧ t.sram = Mem.store 0 (Mem.store 0 s.sram (s.sramLe (a + 4) 4) (f.take (s.sramLe (a + 8) 4))) (a + 8) (leBytes 4 f.length)
          ∧ t.regs = s.regs ∧ t.flash = s.flash ∧ t.otp = s.otp ∧ t.nvm = s.nvm))
  ∧ (∀ (s : State) (l : Fin 2), ((s.lane l).wire = none → exec (.txFrameEnd l) s = .next s)
      ∧ (∀ f, (s.lane l).wire = some f → ∃ t, exec (.txFrameEnd l) s = .next t
          ∧ (let p := f ++ List.replicate (60 - f.length) 0
             (t.lane l).sent = p ++ (if (s.lane l).spoil then (fcs p).map (fun b => ~~~ b) else fcs p))
          ∧ t.rd (Reg.NET.TX_FRAMES l) = min (s.rd (Reg.NET.TX_FRAMES l) + 1) (2 ^ (Reg.NET.TX_FRAMES l).width - 1)
          ∧ (t.lane l).rxq = (s.lane l).rxq ∧ sameCfg s t ∧ sameStores s t))

namespace Sys2Proof

/-- The other SAK registers are as they were. -/
def otherSas (x : Nat) (s t : State) : Prop := ∀ y, y < 16 → y ≠ x → t.sa y = s.sa y

end Sys2Proof

/-- SA_LOAD_REF, SA_LOAD_KEY, SA_CLEAR, ENABLE, DISABLE and SET_TX_AN (R381, R382, R384). -/
def Obligations.SakRegisters : Prop :=
  (∀ (s : State) (x a sl : Nat), s.ready pgMSEC 0x140 = true → x < 16 →
      ((s.sa x).enabled = true → exec (.saLoadRef x a sl) s = .next (s.refuse pgMSEC msSAK_IN_USE 0x140)
        ∧ exec (.saLoadKey x a) s = .next (s.refuse pgMSEC msSAK_IN_USE 0x140))
      ∧ ((s.sa x).enabled = false → s.captureFault sl = (s, none) → s.captureWaits sl = false → (s.slot sl).keyAttr = (if saDir x = 0 then atENC else atDEC) →
        ∃ t, exec (.saLoadRef x a sl) s = .next t
          ∧ t.sa x = ⟨true, false, (digestBytes ((s.cacheFill sl).keyOf sl)).take 32, (s.slot sl).keyAttr, some sl, (s.slot sl).gen, [], 0, false⟩
          ∧ t.flag (State.saLoadedFld x) = true ∧ t.flag (State.saEnabledFld x) = false ∧ otherSas x s t ∧ sameCfg s t ∧ sameStores s t)
      ∧ ((s.sa x).enabled = false → s.captureFault sl = (s, none) → s.captureWaits sl = true → (s.slot sl).keyAttr = (if saDir x = 0 then atENC else atDEC) →
        ∃ t, exec (.saLoadRef x a sl) s = .next t ∧ (t.cmdSlot pgMSEC 0x140).queued = some (.saLoadRef x a sl) ∧ t.sas = s.sas ∧ sameCfg s t ∧ sameStores s t)
      ∧ ((s.sa x).enabled = false → s.captureFault sl = (s, none) → (s.slot sl).keyAttr ≠ (if saDir x = 0 then atENC else atDEC) →
        exec (.saLoadRef x a sl) s = .next (s.refuse pgMSEC Reason.KEY_ATTR 0x140))
      ∧ ((s.sa x).enabled = false → a % 4 = (if saDir x = 0 then atENC else atDEC) → ∃ t, exec (.saLoadKey x a) s = .next t
          ∧ t.sa x = { Sa.empty with loaded := true, key := s.msecKey, keyAttr := a % 4 } ∧ t.flag (State.saLoadedFld x) = true
          ∧ (∀ i, i < 8 → t.rd (Reg.MSEC.KEY i) = 0) ∧ otherSas x s t ∧ sameCfg s t ∧ sameStores s t)
      ∧ ((s.sa x).enabled = false → a % 4 ≠ (if saDir x = 0 then atENC else atDEC) →
        exec (.saLoadKey x a) s = .next (s.refuse pgMSEC Reason.KEY_ATTR 0x140))
      ∧ (∃ t, exec (.saClear x) s = .next t ∧ t.sa x = Sa.empty ∧ t.flag (State.saLoadedFld x) = false ∧ t.flag (State.saEnabledFld x) = false
          ∧ sameFieldsBut [State.saLoadedFld x, State.saEnabledFld x] s t ∧ otherSas x s t ∧ sameCfg s t ∧ sameStores s t)
      ∧ (∃ t, exec (.disable x) s = .next t ∧ t.sa x = { s.sa x with enabled := false } ∧ t.flag (State.saEnabledFld x) = false
          ∧ sameFieldsBut [State.saLoadedFld x, State.saEnabledFld x] s t ∧ otherSas x s t ∧ sameCfg s t ∧ sameStores s t)
      ∧ ((s.sa x).loaded = false → exec (.enable x) s = .next (((s.refuse pgMSEC msSA_EMPTY 0x140)).pumpLane (saLane x)))
      ∧ ((s.sa x).loaded = true → ∃ t, exec (.enable x) s = .next t ∧ t.sa x = { s.sa x with
            enabled := true, salt := (List.range 3).flatMap (fun i => beBytes 4 (s.rd (Reg.MSEC.SALT i))), ssci := s.cfg (Reg.MSEC.SSCI (saSc x)) }
          ∧ t.flag (State.saEnabledFld x) = true ∧ otherSas x s t ∧ sameCfg s t ∧ sameStores s t)
      ∧ (saDir x = 0 → ∃ t, exec (.setTxAn x) s = .next t ∧ t.rd (Reg.MSEC.SA_STATUS_TX_AN (saSc x)) = x % 4 ∧ t.sas = s.sas ∧ sameCfg s t ∧ sameStores s t)
      ∧ (saDir x = 1 → exec (.setTxAn x) s = .next (s.refuse pgMSEC Reason.FIELD_RANGE 0x140)))
  ∧ (∀ (s : State) (x a sl : Nat) (c : Instr), s.ready pgMSEC 0x140 = true → 16 ≤ x → c ∈ [Instr.saLoadRef x a sl, .saLoadKey x a, .saClear x, .disable x, .setTxAn x] →
      exec c s = .next (s.refuse pgMSEC Reason.FIELD_RANGE 0x140))
  ∧ (∀ (s : State) (r o : Nat), (s.refuse pgMSEC r o).rd (Hdr.REASON_CODE pgMSEC) = (pgMSEC * 256 + r) % 2 ^ 16 ∧ sameStores s (s.refuse pgMSEC r o)
      ∧ (s.refuse pgMSEC r o).sas = s.sas ∧ sameFieldsBut [Hdr.REASON_CODE pgMSEC, Hdr.REASON_OFFSET pgMSEC] s (s.refuse pgMSEC r o))

/-- CAN_FRAME_RECEIVED, STMIN_EXPIRY, TP_TIMEOUT, BUS_OFF, BUS_OFF_RECOVERED, CAN_SEND, CAN_RECV and RECOVER (R393-R396). -/
def Obligations.CanPorts : Prop :=
  (∀ (s : State) (p : Fin 2) (f : CanFrame), s.canUp p = false ∨ 64 < f.data.length → exec (.canFrameReceived p f) s = .next s)
  ∧ (∀ (s : State) (p : Fin 2) (f : CanFrame), s.canUp p = true → f.data.length ≤ 64 → s.stxSpace p f.extended f.id = false →
      (s.canDest p f.id = 1 → (s.can p).fwq.length < 64 → ∃ t, exec (.canFrameReceived p f) s = .next t
        ∧ t.can p = { s.can p with fwq := (s.can p).fwq ++ [f] } ∧ t.raised pgCAN 10 = true
        ∧ t.rd (Reg.CAN.RX_FRAMES p) = min (s.rd (Reg.CAN.RX_FRAMES p) + 1) (2 ^ (Reg.CAN.RX_FRAMES p).width - 1)
        ∧ sameFieldsBut [Reg.CAN.RX_FRAMES p, Hdr.EVENT pgCAN 10] s t ∧ sameCfg s t ∧ sameStores s t)
      ∧ (s.canDest p f.id = 0 ∨ (s.canDest p f.id = 1 ∧ 64 ≤ (s.can p).fwq.length) → exec (.canFrameReceived p f) s = .next (s.bump (Reg.CAN.RX_FRAMES p)))
      ∧ (s.canDest p f.id = 2 → exec (.canFrameReceived p f) s = .next ((s.bump (Reg.CAN.RX_FRAMES p)).wheelFrame f.data)))
  ∧ (∀ (s : State) (p : Fin 2) (f : CanFrame) (b0 b1 : Byte) (d : List Byte), s.canUp p = true → f.data.length ≤ 64 → f.extended = true →
      f.id / 2 ^ 16 = s.cfg (Reg.CAN.TP_BASE_RX_BASE p) → f.id / 256 % 256 = s.cfg (Reg.CAN.TP_ADDR_OWN p) → f.data = b0 :: b1 :: d →
      (b0.toNat / 16 = 1 → (let n := b0.toNat % 16 * 256 + b1.toNat; let peer := f.id % 256
        (1984 < n → ∃ t, exec (.canFrameReceived p f) s = .next t ∧ t.can p = { s.can p with bus := (t.can p).bus }
          ∧ (t.can p).bus.getLast? = some (s.tpFrame p peer (leBytes 1 0x32 ++ leBytes 1 (s.cfg (Reg.CAN.TP_ADDR_BS p)) ++ leBytes 1 (s.cfg (Reg.CAN.TP_ADDR_STMIN p))))
          ∧ sameCfg s t ∧ sameStores s t)
        ∧ (8 ≤ n → n ≤ 1984 → ((s.can p).rx.filter (fun r => r.peer ≠ peer)).length < 16 → ∃ t, exec (.canFrameReceived p f) s = .next t
          ∧ (t.can p).rx = (s.can p).rx.filter (fun r => r.peer ≠ peer) ++ [⟨peer, n, d, 1, s.cfg (Reg.CAN.TP_ADDR_BS p)⟩]
          ∧ (t.can p).bus.getLast? = some (s.tpFrame p peer (leBytes 1 0x30 ++ leBytes 1 (s.cfg (Reg.CAN.TP_ADDR_BS p)) ++ leBytes 1 (s.cfg (Reg.CAN.TP_ADDR_STMIN p))))
          ∧ (t.can p).tx = (s.can p).tx ∧ (t.can p).fwq = (s.can p).fwq ∧ sameCfg s t ∧ sameStores s t)))
      ∧ (∀ r, (s.can p).rx.head? = some r → (s.can p).rx.length = 1 → r.peer = f.id % 256 → b0.toNat / 16 = 2 → b0.toNat % 16 = r.sn % 16 → r.data.length + 1 + d.length < r.len →
          s.cfg (Reg.CAN.TP_ADDR_BS p) = 0 → ∃ t, exec (.canFrameReceived p f) s = .next t
          ∧ t.can p = { s.can p with rx := [{ r with data := r.data ++ (b1 :: d), sn := r.sn + 1, left := r.left - 1 }] } ∧ sameCfg s t ∧ sameStores s t))
  ∧ (∀ (s : State) (p : Fin 2) (m : TpTx), s.canUp p = true → (s.can p).tx = [m] → m.waitFc = false → m.sn ≠ 0 →
      (∃ t, exec (.stminExpiry p) s = .next t
        ∧ (t.can p).bus.getLast? = some (s.tpFrame p m.peer (leBytes 1 (0x20 + m.sn % 16) ++ m.rest.take (s.txDl p - 1)))
        ∧ (m.rest.length ≤ s.txDl p - 1 → (t.can p).tx = [])
        ∧ (s.txDl p - 1 < m.rest.length → m.sn < 15 → (t.can p).tx = [{ m with
            rest := m.rest.drop (s.txDl p - 1), sn := m.sn + 1, left := m.left - 1, waitFc := m.limited && decide (m.left - 1 = 0) }])
        ∧ (t.can p).rx = (s.can p).rx ∧ (t.can p).fwq = (s.can p).fwq ∧ sameCfg s t ∧ sameStores s t))
  ∧ (∀ (s : State) (p : Fin 2), s.canUp p = false → exec (.stminExpiry p) s = .next s)
  ∧ (∀ (s : State) (p : Fin 2),
      ((s.can p).rx = [] → exec (.tpTimeout p true) s = .next s)
      ∧ (∀ r, (s.can p).rx.head? = some r → ∃ t, exec (.tpTimeout p true) s = .next t ∧ t.can p = { s.can p with rx := (s.can p).rx.tail }
          ∧ t.rd (Reg.CAN.TP_ABORT_COUNT p) = min (s.rd (Reg.CAN.TP_ABORT_COUNT p) + 1) (2 ^ (Reg.CAN.TP_ABORT_COUNT p).width - 1)
          ∧ t.raised pgCAN 9 = true ∧ sameFieldsBut [Reg.CAN.TP_ABORT_COUNT p, Hdr.EVENT pgCAN 9] s t ∧ sameCfg s t ∧ sameStores s t)
      ∧ (∀ m, (s.can p).tx.head? = some m → (s.can p).tx.length = 1 → (m.waitFc = true → ∃ t, exec (.tpTimeout p false) s = .next t ∧ t.can p = { s.can p with tx := [] }
            ∧ t.rd (Reg.CAN.TP_ABORT_COUNT p) = min (s.rd (Reg.CAN.TP_ABORT_COUNT p) + 1) (2 ^ (Reg.CAN.TP_ABORT_COUNT p).width - 1)
            ∧ t.raised pgCAN 9 = true ∧ sameCfg s t ∧ sameStores s t)
          ∧ (m.waitFc = false → exec (.tpTimeout p false) s = .next s)))
  ∧ (∀ (s : State) (p : Fin 2),
      (s.canUp p = true → s.romCan p = false → ∃ t, exec (.busOff p) s = .next t ∧ (t.can p).tx = [] ∧ t.rd (Reg.CAN.BUS_STATUS_STATE p) = 2
        ∧ t.canUp p = false ∧ t.raised pgCAN 8 = true ∧ (t.can p).recovering = s.cfgb (Reg.CAN.CAN_CTRL_AUTO_RECOVER p)
        ∧ t.rd (Reg.CAN.BUS_OFF_COUNT p) = min (s.rd (Reg.CAN.BUS_OFF_COUNT p) + 1) (2 ^ (Reg.CAN.BUS_OFF_COUNT p).width - 1)
        ∧ ((s.can p).tx ≠ [] → t.rd (Reg.CAN.TP_ABORT_COUNT p) = min (s.rd (Reg.CAN.TP_ABORT_COUNT p) + (s.can p).tx.length) (2 ^ (Reg.CAN.TP_ABORT_COUNT p).width - 1)
            ∧ t.raised pgCAN 9 = true)
        ∧ (t.can p).rx = (s.can p).rx ∧ sameCfg s t ∧ sameStores s t)
      ∧ (s.canUp p = false ∨ s.romCan p = true → exec (.busOff p) s = .next s)
      ∧ (s.up = true → (s.can p).recovering = true → ∃ t, exec (.busOffRecovered p) s = .next t ∧ t.rd (Reg.CAN.BUS_STATUS_STATE p) = 0
        ∧ t.rd (Reg.CAN.BUS_STATUS_TEC p) = 0 ∧ t.rd (Reg.CAN.BUS_STATUS_REC p) = 0 ∧ t.can p = { s.can p with recovering := false }
        ∧ sameFieldsBut [Reg.CAN.BUS_STATUS_STATE p, Reg.CAN.BUS_STATUS_TEC p, Reg.CAN.BUS_STATUS_REC p] s t ∧ sameCfg s t ∧ sameStores s t)
      ∧ (s.up = false ∨ (s.can p).recovering = false → exec (.busOffRecovered p) s = .next s))
  ∧ (∀ (s : State) (p : Fin 2) (a : Nat), s.ready pgCAN 0x140 = true →
      (State.inSram a 72 = true → s.sramLe (a + 5) 3 = 0 → canLens.contains (s.sramLe (a + 4) 1) = true →
        s.sramLe a 4 % 2 ^ 31 < (if 2 ^ 31 ≤ s.sramLe a 4 then 2 ^ 29 else 2 ^ 11) →
        (let ext := decide (2 ^ 31 ≤ s.sramLe a 4); let id := s.sramLe a 4 % 2 ^ 31
         (s.stxSpace p ext id = true → exec (.canSend p a) s = .next (s.refuse pgCAN cnID_RESERVED 0x140))
         ∧ (s.stxSpace p ext id = false → s.canUp p = false → exec (.canSend p a) s = .next (s.refuse pgCAN cnBUS_OFF 0x140))
         ∧ (s.stxSpace p ext id = false → s.canUp p = true → ∃ t, exec (.canSend p a) s = .next t
            ∧ (t.can p).bus.getLast? = some ⟨ext, id, s.sramBytes (a + 8) (s.sramLe (a + 4) 1)⟩
            ∧ t.rd (Reg.CAN.TX_FRAMES p) = min (s.rd (Reg.CAN.TX_FRAMES p) + 1) (2 ^ (Reg.CAN.TX_FRAMES p).width - 1)
            ∧ sameFieldsBut [Reg.CAN.TX_FRAMES p] s t ∧ sameCfg s t ∧ sameStores s t)))
      ∧ (State.inSram a 72 = false → exec (.canSend p a) s = .next (s.refuse pgCAN Reason.FIELD_RANGE 0x140)
          ∧ exec (.canRecv p a) s = .next (s.refuse pgCAN Reason.FIELD_RANGE 0x140))
      ∧ (State.inSram a 72 = true → (s.can p).fwq = [] → exec (.canRecv p a) s = .next (s.sramStore (a + 4) [0xFF]))
      ∧ (∀ f, (s.can p).fwq.head? = some f → State.inSram a 72 = true → ∃ t, exec (.canRecv p a) s = .next t ∧ t.can p = { s.can p with fwq := (s.can p).fwq.tail }
          ∧ t.sram = Mem.store 0 s.sram a (leBytes 4 ((if f.extended then 2 ^ 31 else 0) + f.id) ++ leBytes 1 f.data.length ++ leBytes 3 0 ++ f.data)
          ∧ t.regs = s.regs ∧ t.flash = s.flash ∧ t.otp = s.otp ∧ t.nvm = s.nvm)
      ∧ (s.cfgb (Reg.CAN.CAN_CTRL_EN p) = true → s.rd (Reg.CAN.BUS_STATUS_STATE p) = 2 → ∃ t, exec (.recover p) s = .next t
          ∧ t.can p = { s.can p with recovering := true } ∧ t.regs = s.regs ∧ sameStores s t)
      ∧ (s.cfgb (Reg.CAN.CAN_CTRL_EN p) = false ∨ s.rd (Reg.CAN.BUS_STATUS_STATE p) ≠ 2 → exec (.recover p) s = .next s))

/-- READ_ID, READ_STATUS, WRITE_MBOX, READ_MBOX, SUBMIT, PAGE_REQ, PAGE_REQ_DONE, READ_RDBUF, CLEAR_ERR, UNKNOWN_OPCODE, MILESTONE, STX_FRAME,
LEDGER_INPUT, FETCH, REPLY and DOORBELL (R397-R403). -/
def Obligations.ManagementPort : Prop :=
  (∀ s : State, s.mgpUp = true →
      exec .readId s = .next { s with mgp := { s.mgp with out := [0x53, 0x59, 0x94, 0xB0] } }
      ∧ exec .readRdbuf s = .next { s with mgp := { s.mgp with out := s.mgp.rdbuf } }
      ∧ exec .clearErr s = .next { s with mgp := { s.mgp with err := false } }
      ∧ (∃ t, exec .readStatus s = .next t ∧ t.mgp = { s.mgp with out := leBytes 1 s.statusByte } ∧ t.flag Reg.MGP.STATUS_INT_PENDING = false
          ∧ sameFieldsBut [Reg.MGP.STATUS_INT_PENDING] s t ∧ sameCfg s t ∧ sameStores s t)
      ∧ (∀ c, exec (.unknownOpcode c) s = .next (if c ∈ [0x9F, 0x05, 0x02, 0x0B, 0x31, 0x4B, 0x4C, 0x66] then s else { s with mgp := { s.mgp with err := true } })))
  ∧ (∀ (s : State) (o : Nat) (d : List Byte), s.mgpUp = true → o < 65536 →
      (s.mgpOwns = true → exec (.writeMbox o d) s = .next { s with mgp := { s.mgp with err := true } })
      ∧ (s.mgpOwns = false → o + d.length ≤ 4096 → o < 4096 →
          exec (.writeMbox o d) s = .next { s with mgp := { s.mgp with mbox := Mem.store 0 s.mgp.mbox o d, response := false } })
      ∧ (s.mgpOwns = false → 4096 < o + d.length → ∃ t, exec (.writeMbox o d) s = .next t ∧ t.mgp.err = true
          ∧ t.mgp.mbox = (if o < 4096 then Mem.store 0 s.mgp.mbox o (d.take (4096 - o)) else s.mgp.mbox) ∧ t.regs = s.regs)
      ∧ (o + d.length ≤ 4096 → exec (.readMbox o d.length) s = .next { s with mgp := { s.mgp with out := Mem.bytes 0 s.mgp.mbox o d.length } }))
  ∧ (∀ s : State, s.mgpUp = true → (s.mgpOwns = true → exec .submit s = .next s)
      ∧ (s.mgpOwns = false →
          (4080 < s.mbLen ∨ 1 < s.mbFlags ∨ s.mbStatus ≠ 0 → ∃ t, exec .submit s = .next t ∧ t.mgpOwns = false ∧ t.mgp.response = true
            ∧ t.mbStatus = mgStatus mgFRAME_FORMAT ∧ t.mbTag = s.mbTag ∧ t.mbLen = 0 ∧ t.raised pgMGP 9 = true
            ∧ t.rd Reg.MGP.MSG_COUNT = min (s.rd Reg.MGP.MSG_COUNT + 1) (2 ^ Reg.MGP.MSG_COUNT.width - 1) ∧ sameCfg s t ∧ t.sram = s.sram ∧ t.flash = s.flash)
          ∧ (s.mbLen ≤ 4080 → s.mbFlags ≤ 1 → s.mbStatus = 0 → Mem.le 0 s.mgp.mbox 12 4 ≠ crc32c (s.mboxBytes 0 12 ++ s.mbPayload) →
            ∃ t, exec .submit s = .next t ∧ t.mgpOwns = false ∧ t.mbStatus = mgStatus mgFRAME_CRC ∧ t.mbTag = s.mbTag
            ∧ t.rd Reg.MGP.CRC_ERR_COUNT = min (s.rd Reg.MGP.CRC_ERR_COUNT + 1) (2 ^ Reg.MGP.CRC_ERR_COUNT.width - 1) ∧ sameCfg s t ∧ t.sram = s.sram)
          ∧ (s.mbFault = none → s.boot.phase = BootPhase.done → 1 ≤ s.mbCode → s.mbCode < 0x80 → ∃ t, exec .submit s = .next t ∧ t.mgpOwns = true
            ∧ t.flag Reg.MGP.STATUS_SUBMITTED = true ∧ t.raised pgMGP 8 = true ∧ t.mgp.mbox = s.mgp.mbox ∧ sameCfg s t ∧ sameStores s t)))
  ∧ (∀ (s : State) (p o n : Nat), s.mgpUp = true → s.mgp.req = none →
      exec (.pageReq p o n) s = .next { s with mgp := { s.mgp with req := some (p, o, n), rdReady := false, rdErr := false } })
  ∧ (∀ (s : State) (p o n : Nat), s.mgpUp = true → s.mgp.req = some (p, o, n) →
      (s.mgpSees p = false ∨ n = 0 ∨ 16 < n ∨ o % 4 ≠ 0 ∨ 0x800 < o + 4 * n → ∃ t, exec .pageReqDone s = .next t
        ∧ t.mgp = { s.mgp with req := none, rdReady := false, rdErr := true, rdbuf := List.replicate 64 0 }
        ∧ t.rd (Hdr.REASON_CODE pgMGP) = pgMGP * 256 + mgVIEW_DENIED ∧ sameCfg s t ∧ sameStores s t)
      ∧ (s.mgpSees p = true → 0 < n → n ≤ 16 → o % 4 = 0 → o + 4 * n ≤ 0x800 → (∀ d, d < 6 → s.csLow d = false) → ∃ t, exec .pageReqDone s = .next t
        ∧ t.mgp.rdReady = true ∧ t.mgp.rdErr = false ∧ t.mgp.req = none
        ∧ t.mgp.rdbuf.take (4 * n) = (List.range n).flatMap (fun i => leBytes 4 (s.pageWord p (o + 4 * i)))
        ∧ t.rd Reg.MGP.PAGE_READ_COUNT = min (s.rd Reg.MGP.PAGE_READ_COUNT + 1) (2 ^ Reg.MGP.PAGE_READ_COUNT.width - 1)
        ∧ sameFieldsBut [Reg.MGP.PAGE_READ_COUNT] s t ∧ sameCfg s t ∧ sameStores s t))
  ∧ (∀ (s : State) (n : Fin 6) (c : Nat), s.mgpUp = true → s.mgpOwns = false → s.boot.phase ≠ BootPhase.scrap → s.boot.phase ≠ BootPhase.fatal →
      c < 65536 → ∃ u, submitted s u 0x81 0 0 (leBytes 1 n.val ++ [0] ++ leBytes 2 c)
        ∧ exec (.milestone (leBytes 1 n.val ++ [0] ++ leBytes 2 c)) s = .next (if c = 0 then (u.bump Reg.MGP.HW_MSG_COUNT).mgpReject Reason.FIELD_RANGE
            else ((u.bump Reg.MGP.HW_MSG_COUNT).okMilestone n).mgpRespond 0 []))
  ∧ (∀ s : State, s.mgpUp = true → s.mgpOwns = false → s.boot.phase ≠ BootPhase.scrap → s.boot.phase ≠ BootPhase.fatal →
      (s.mgp.stxOut = [] → ∃ u, submitted s u 0x82 0 0 [] ∧ exec (.stxFrame []) s = .next (((u.bump Reg.MGP.HW_MSG_COUNT).mgpRespond 0 []).sealGo))
      ∧ (∀ f, s.mgp.stxOut.head? = some f → ∃ u, submitted s u 0x82 0 0 [] ∧ exec (.stxFrame []) s = .next
          ((({ (u.bump Reg.MGP.HW_MSG_COUNT) with mgp := { u.mgp with stxOut := s.mgp.stxOut.tail } }).closeTaken f).mgpRespond 0 f).sealGo))
  ∧ (∀ (s : State) (d : List Byte), s.mgpUp = true → s.mgpOwns = false → s.boot.phase ≠ BootPhase.scrap → s.boot.phase ≠ BootPhase.fatal → d.length ≤ 4080 →
      ∃ u, submitted s u 0x83 0 0 d
        ∧ (s.beforeAttach = true → exec (.ledgerInput d) s = .next ((u.bump Reg.MGP.HW_MSG_COUNT).mgpReject mgNOT_READY))
        ∧ (s.beforeAttach = false → (let r := (u.bump Reg.MGP.HW_MSG_COUNT).ledgerTake (s.cfgb Reg.LEDG.CONFIG_INPUT_MGP) d
            exec (.ledgerInput d) s = .next (r.1.mgpRespond ((r.2.map (fun c => pgLEDG * 256 + c)).getD 0) []))))
  ∧ (∀ (s : State) (st : Nat) (p : List Byte), st < 65536 → s.mgp.code < 256 → s.mgp.tag < 65536 → p.length ≤ 4080 → (s.mgpRespond st p).mgpOwns = false ∧ (s.mgpRespond st p).mgp.response = true
      ∧ (s.mgpRespond st p).mbStatus = st ∧ (s.mgpRespond st p).mbTag = s.mgp.tag ∧ (s.mgpRespond st p).mbCode = s.mgp.code ∧ (s.mgpRespond st p).mbFlags = 2
      ∧ (s.mgpRespond st p).mbPayload = p ∧ sameFieldsBut [Reg.MGP.STATUS_OWNER] s (s.mgpRespond st p) ∧ sameCfg s (s.mgpRespond st p))
  ∧ (∀ (s : State) (a : Nat), s.ready pgMGP mgpCmdOff = true →
      (s.flag Reg.MGP.STATUS_SUBMITTED = true → State.inSram a (16 + s.mbLen) = true → ∃ t, exec (.fetch a) s = .next t
        ∧ t.sram = Mem.store 0 s.sram a (s.mboxBytes 0 (16 + s.mbLen)) ∧ t.flag Reg.MGP.STATUS_SUBMITTED = false
        ∧ sameFieldsBut [Reg.MGP.STATUS_SUBMITTED] s t ∧ t.mgp = s.mgp ∧ t.flash = s.flash)
      ∧ (s.flag Reg.MGP.STATUS_SUBMITTED = false → exec (.fetch a) s = .next (s.refuse pgMGP mgBUSY mgpCmdOff))
      ∧ (s.mgpOwns = true → State.inSram a 16 = true → s.sramLe (a + 2) 2 ≤ 4080 → State.inSram a (16 + s.sramLe (a + 2) 2) = true → ∃ t, exec (.reply a) s = .next t
        ∧ t.mgpOwns = false ∧ t.mgp.response = true ∧ t.flag Reg.MGP.STATUS_SUBMITTED = false
        ∧ t.mgp.mbox = Mem.store 0 s.mgp.mbox 0 (mboxFrame s.mgp.code (s.sramLe (a + 1) 1 % 2 + 2) (s.sramLe (a + 4) 2) s.mgp.tag (s.sramLe (a + 8) 4)
            (s.sramBytes (a + 16) (s.sramLe (a + 2) 2)))
        ∧ sameFieldsBut [Reg.MGP.STATUS_OWNER, Reg.MGP.STATUS_SUBMITTED] s t ∧ sameCfg s t ∧ t.sram = s.sram)
      ∧ (s.mgpOwns = false → exec (.reply a) s = .next (s.refuse pgMGP mgBUSY mgpCmdOff))
      ∧ (∃ t, exec .doorbell s = .next t ∧ t.flag Reg.MGP.STATUS_INT_PENDING = true ∧ sameFieldsBut [Reg.MGP.STATUS_INT_PENDING] s t ∧ sameCfg s t ∧ sameStores s t))
  ∧ (∀ (s : State) (c o n : Nat) (d : List Byte), s.mgpUp = false → ∀ i ∈ [Instr.readId, .readStatus, .writeMbox o d, .readMbox o n, .submit, .pageReq c o n, .pageReqDone,
      .readRdbuf, .clearErr, .unknownOpcode c], exec i s = .next s)

namespace Sys2Proof

/-- The context that OPEN by the descriptor at `a` takes, with ephemeral register `r` (R409, R411). -/
def openCtx (s : State) (a r : Nat) : Sess :=
  let m := s.sramLe a 1
  let pb := s.sramBytes (a + 4) 8
  { Sess.idle with state := ssHELLO, medium := s.openMedium m, peer := (if m < 2 then beNat (pb.take 6) else if m < 4 then fieldLe pb 0 1 else 0), suite := s.sramLe (a + 1) 1, initiator := true, ephReg := some r }

end Sys2Proof

/-- STX_OPEN, STX_SEND, STX_RECV, STX_CLOSE and READ_CTX (R408-R422). -/
def Obligations.SessionCommands : Prop :=
  (∀ (s : State) (a m su : Nat), s.ready pgSTX 0x50 = true → State.inSram a 12 = true → s.sramLe a 1 = m → m ≤ 4 → s.sramLe (a + 1) 1 = su →
      su = 1 ∨ su = 2 → s.sramLe (a + 2) 2 = 0 →
      (s.stxReady = false → ∃ t, exec (.stxOpen a) s = .next t ∧ t.rd Reg.STX.RESULT_CODE = pgSTX * 256 + sxNOT_READY ∧ t.stx = s.stx ∧ sameCfg s t ∧ sameStores s t)
      ∧ (s.stxReady = true → s.idleCtx = none → ∃ t, exec (.stxOpen a) s = .next t ∧ t.rd Reg.STX.RESULT_CODE = pgSTX * 256 + sxNO_CONTEXT ∧ t.stx = s.stx ∧ sameStores s t)
      ∧ (∀ i, s.idleCtx = some i → s.stxReady = true → s.freeEph = none → ∃ t, exec (.stxOpen a) s = .next t ∧ t.rd Reg.STX.RESULT_CODE = pgSTX * 256 + sxHANDSHAKE_BUSY
          ∧ t.stx = s.stx ∧ sameStores s t)
      ∧ (∀ i r, s.idleCtx = some i → s.stxReady = true → s.freeEph = some r → s.pkeFree 3 = true → s.rngServes = true →
          (let o := ((s.ephemeral r).setSess i (openCtx s a r)).ownHello su 0 i r []
          ∃ t, exec (.stxOpen a) s = .next t
          ∧ (∀ h, o.2 = .ok h → (t.sess i).state = ssHELLO ∧ (t.sess i).initiator = true ∧ (t.sess i).suite = su ∧ (t.sess i).medium = s.openMedium m
            ∧ (t.sess i).ephReg = some r ∧ (t.sess i).hello = h ∧ h.take 6 = asciiBytes "SYHL" ++ leBytes 2 1 ∧ (t.sess i).reply = []
            ∧ t.rd Reg.STX.RESULT_SESSION = i % 2 ^ Reg.STX.RESULT_SESSION.width ∧ t.rd Reg.STX.RESULT_CODE = 0)
          ∧ (∀ c, o.2 = .error c → (t.sess i).state = ssIDLE ∧ t.keyReg r = KeyReg.empty ∧ t.rd Reg.STX.RESULT_CODE = pgSTX * 256 + sxHANDSHAKE_SIGNATURE)
          ∧ (∀ j, j ≠ i → t.sess j = s.sess j) ∧ sameCfg s t ∧ sameStores s t))
      ∧ (s.idleCtx ≠ none → s.stxReady = true → s.freeEph ≠ none →
          (s.pkeFree 3 = false → exec (.stxOpen a) s = .next ((s.cmdStart pgSTX 0x50 (.stxOpen a)).awaitPke .stx 3 fwIssuer))
          ∧ (s.pkeFree 3 = true → s.rngServes = false → exec (.stxOpen a) s = .next (s.stxWait (.stxOpen a)))))
  ∧ (∀ (s : State) (a sid ty b n : Nat), s.ready pgSTX 0x50 = true → State.inSram a 12 = true → s.sramLe a 2 = sid → sid < 4096 → s.sramLe (a + 2) 1 = ty →
      0x10 ≤ ty → frameType ty = true → s.sramLe (a + 3) 1 = 0 → s.sramLe (a + 4) 4 = b → s.sramLe (a + 8) 4 = n → n ≤ 16384 → State.inSram b n = true →
      ((s.sess sid).state ≠ ssACTIVE → ∃ t, exec (.stxSend a) s = .next t ∧ t.rd Reg.STX.RESULT_CODE = pgSTX * 256 + sxNOT_READY ∧ t.stx = s.stx ∧ sameStores s t)
      ∧ ((s.sess sid).state = ssACTIVE → s.sessAes = false → exec (.stxSend a) s = .next (s.stxWait (.stxSend a)))
      ∧ ((s.sess sid).state = ssACTIVE → s.sessAes = true → exec (.stxSend a) s = .next ((s.sendMsg sid ty (s.sramBytes b n)).stxResult sid 0))
      ∧ ((s.sess sid).state = ssACTIVE → s.sessAes = true → (s.sess sid).medium = 4 → 0 < n → n ≤ 1952 → (s.sess sid).txSeq + 1 < 0xFFFFFFFF →
          (let c := s.sess sid; let head := stxHeader ty sid false c.txSeq (n + 16)
           ∃ t, exec (.stxSend a) s = .next t ∧ t.sess sid = { c with txSeq := c.txSeq + 1 }
            ∧ t.mgp = { s.mgp with stxOut := s.mgp.stxOut ++ [head ++ s.sealPart c head (s.sramBytes b n) c.txSeq] }
            ∧ t.rd Reg.STX.RESULT_CODE = 0 ∧ sameCfg s t ∧ sameStores s t)))
  ∧ (∀ (s : State) (a b n : Nat), s.ready pgSTX 0x50 = true → State.inSram a 14 = true → s.sramLe (a + 4) 4 = b → s.sramLe (a + 8) 4 = n → State.inSram b n = true →
      (s.stx.fwq = [] → ∃ t, exec (.stxRecv a) s = .next t ∧ t.sram = Mem.store 0 s.sram (a + 8) (leBytes 4 0) ∧ t.stx = s.stx ∧ sameCfg s t)
      ∧ (∀ m, s.stx.fwq.head? = some m → ∃ t, exec (.stxRecv a) s = .next t ∧ t.stx = { s.stx with fwq := s.stx.fwq.tail }
          ∧ t.sram = Mem.store 0 (Mem.store 0 (Mem.store 0 s.sram b (m.data.take n)) a (leBytes 2 m.session ++ leBytes 1 m.type ++ leBytes 1 m.component))
              (a + 8) (leBytes 4 m.data.length ++ leBytes 2 m.partner)
          ∧ t.rd Reg.STX.RESULT_SESSION = m.session % 2 ^ Reg.STX.RESULT_SESSION.width ∧ t.rd Reg.STX.RESULT_CODE = 0 ∧ sameCfg s t ∧ t.flash = s.flash))
  ∧ (∀ (s : State) (a sid : Nat), s.ready pgSTX 0x50 = true → State.inSram a 2 = true → s.sramLe a 2 = sid → sid < 4096 →
      ((s.sess sid).state ≠ ssACTIVE → ∃ t, exec (.stxClose a) s = .next t ∧ t.rd Reg.STX.RESULT_CODE = pgSTX * 256 + sxNOT_READY ∧ t.stx = s.stx ∧ sameStores s t)
      ∧ ((s.sess sid).state = ssACTIVE → s.sessAes = false → exec (.stxClose a) s = .next (s.stxWait (.stxClose a)))
      ∧ ((s.sess sid).state = ssACTIVE → s.sessAes = true → (s.sess sid).txSeq + 1 < 0xFFFFFFFF → ∃ t, exec (.stxClose a) s = .next t ∧ (t.sess sid).state = ssCLOSING
          ∧ (t.sess sid).closing = (s.sess sid).txSeq ∧ (t.sess sid).txSeq = (s.sess sid).txSeq + 1 ∧ t.rd Reg.STX.RESULT_CODE = 0
          ∧ (∀ j, j ≠ sid → t.sess j = s.sess j) ∧ sameCfg s t ∧ sameStores s t))
  ∧ (∀ (s : State) (a sid b : Nat), s.ready pgSTX 0x50 = true → State.inSram a 8 = true → s.sramLe a 2 = sid → sid < 4096 → s.sramLe (a + 2) 2 = 0 →
      s.sramLe (a + 4) 4 = b → State.inSram b 32 = true → ∃ t, exec (.readCtx a) s = .next t ∧ t.sram = Mem.store 0 s.sram b (s.ctxBytes sid)
        ∧ t.rd Reg.STX.RESULT_CODE = 0 ∧ t.stx = s.stx ∧ sameCfg s t ∧ t.flash = s.flash)
  ∧ (∀ (s : State) (sid : Nat), (s.ctxBytes sid).length = 32 ∧ (s.ctxBytes sid).take 2 = leBytes 2 sid ∧ slice (s.ctxBytes sid) 2 1 = leBytes 1 (s.sess sid).state
      ∧ slice (s.ctxBytes sid) 0x10 4 = leBytes 4 (s.sess sid).txSeq ∧ slice (s.ctxBytes sid) 0x18 1 = leBytes 1 (s.sess sid).cause)
  ∧ (∀ (s : State) (a : Nat), s.ready pgSTX 0x50 = true → State.inSram a 2 = false → ∀ i ∈ [Instr.stxOpen a, .stxSend a, .stxRecv a, .stxClose a, .readCtx a],
      ∃ t, exec i s = .next t ∧ t.rd Reg.STX.RESULT_CODE = pgSTX * 256 + Reason.FIELD_RANGE ∧ t.stx = s.stx ∧ sameCfg s t ∧ sameStores s t)

namespace Sys2Proof

/-- A message is one of its session: the STX page is in force, SEAL does not run, medium and peer are the session's, the number is new. -/
def ofSession (s : State) (m : StxMessage) : Prop := s.up = true ∧ s.active pgSTX = true ∧ s.mode.phase ≠ Phase.seal
  ∧ (s.sess m.session).medium = m.medium ∧ (s.sess m.session).peer = m.peer ∧ m.seq ∉ (s.sess m.session).seen ∧ (s.sess m.session).rxHigh ≤ m.seq + 63

/-- The context is IDLE again with a cause (R409). -/
def endedWith (s : State) (sid cause : Nat) : Prop := s.sess sid = { Sess.idle with cause := cause % 256 }

/-- The context that an accepted HELLO takes, with ephemeral register `r` and IDENTITY entry `e` (R410, R413). -/
def helloCtx (m : StxMessage) (r : Nat) (e : List Byte) : Sess :=
  { Sess.idle with state := ssHELLO, medium := m.medium, peer := m.peer, partner := rePartner e, component := reComponent e, suite := heSuite m.payload, hello := m.payload, idDigest := Config.sha384 (heKeys m.payload), rxHigh := m.seq, seen := (List.range (min m.seq 63)).map (fun i => m.seq - i), next := m.seq + 1, ephReg := some r }

end Sys2Proof

/-- HELLO, HELLO_REPLY, HANDSHAKE_KEYS_DONE, KEY_CONFIRM, CLOSE, SESSION_TIMEOUT and RETX_TIMEOUT (R388, R405, R409-R424). -/
def Obligations.SessionMessages : Prop :=
  (∀ (s : State) (m : List Byte) (role sid : Nat) (pre : List Byte) (reg : Bool),
      (s.stxReady = false → s.helloFault m role sid pre reg = some sxNOT_READY)
      ∧ (s.stxReady = true → helloFormatOk m role sid = false → s.helloFault m role sid pre reg = some sxSUITE)
      ∧ (s.stxReady = true → helloFormatOk m role sid = true → s.identityOf m = none → s.helloFault m role sid pre reg = some sxUNKNOWN_IDENTITY)
      ∧ (s.stxReady = true → helloFormatOk m role sid = true → s.identityOf m ≠ none → s.freeEph = none → s.helloFault m role sid pre true = some sxHANDSHAKE_BUSY))
  ∧ (∀ (s : State) (m : StxMessage), s.up = true → s.active pgSTX = true → s.brace = false →
      (s.idleCtx = none → exec (.hello m) s = .next (s.refuseHello m.medium m.peer m.session sxNO_CONTEXT))
      ∧ (∀ i, s.idleCtx = some i →
          (s.helloEarly m.payload 0 0 true = none → s.handshakeGoes = false →
              exec (.hello m) s = .next (s.holdPke (.hello ⟨m.medium, m.peer, m.session, m.seq, true, m.payload⟩)))
          ∧ (s.helloEarly m.payload 0 0 true ≠ none ∨ s.handshakeGoes = true →
            (∀ c, s.helloFault m.payload 0 0 [] true = some c → c ≠ sxHANDSHAKE_BUSY → exec (.hello m) s = .next (s.refuseHello m.medium m.peer m.session c))
            ∧ (s.helloFault m.payload 0 0 [] true = some sxHANDSHAKE_BUSY →
              exec (.hello m) s = .next ((s.bump Reg.STX.HELLO_BUSY).refuseHello m.medium m.peer m.session sxHANDSHAKE_BUSY))
            ∧ (∀ e r, s.identityOf m.payload = some e → s.freeEph = some r → s.helloFault m.payload 0 0 [] true = none →
              (let o := ((s.ephemeral r).setSess i (helloCtx m r e)).ownHello (heSuite m.payload) 1 i r (digestBytes (Config.sha384 m.payload))
              ∃ t, exec (.hello m) s = .next t
              ∧ (∀ h, o.2 = .ok h → (t.sess i).state = ssHELLO ∧ (t.sess i).initiator = false ∧ (t.sess i).medium = m.medium ∧ (t.sess i).peer = m.peer
                ∧ (t.sess i).partner = rePartner e ∧ (t.sess i).component = reComponent e ∧ (t.sess i).suite = heSuite m.payload ∧ (t.sess i).hello = m.payload
                ∧ (t.sess i).ephReg = some r ∧ (t.sess i).reply = h)
              ∧ (∀ c, o.2 = .error c → endedWith t i sxHANDSHAKE_SIGNATURE ∧ t.keyReg r = KeyReg.empty)
              ∧ (∀ j, j ≠ i → t.sess j = s.sess j) ∧ sameCfg s t ∧ sameStores s t)))))
  ∧ (∀ (s : State) (m : StxMessage), s.up = false ∨ s.active pgSTX = false → exec (.hello m) s = .next s)
  ∧ (∀ (s : State) (m : StxMessage), s.up = true → s.active pgSTX = true → s.brace = true → exec (.hello m) s = .next (s.hold (.hello m)))
  ∧ (∀ (s : State) (m : StxMessage), ofSession s m →
      ((s.sess m.session).state = ssHELLO → s.brace = true → exec (.helloReply m) s = .next (s.hold (.whole m ftHELLO_REPLY)))
      ∧ (ssKEYED ≤ (s.sess m.session).state → s.sessAes = false → exec (.keyConfirm m) s = .next (s.hold (.whole m ftKEY_CONFIRM)) ∧ exec (.close m) s = .next (s.hold (.whole m ftCLOSE))
          ∧ exec (.quote m) s = .next (s.hold (.whole m ftQUOTE))))
  ∧ (∀ (s : State) (m : StxMessage), ofSession s m → s.brace = false → (s.sess m.session).state = ssHELLO → (s.sess m.session).initiator = true → (s.sess m.session).reply = [] →
      (let pre := digestBytes (Config.sha384 (s.sess m.session).hello)
       (s.helloEarly m.payload 1 m.session false = none → s.handshakeGoes = false → ∃ t, exec (.helloReply m) s = .next t
          ∧ t.stx.held = s.stx.held ++ [.reply m.session m.payload] ∧ (t.sess m.session).state = ssHELLO ∧ (t.sess m.session).reply = [] ∧ sameCfg s t ∧ sameStores s t)
       ∧ (s.helloEarly m.payload 1 m.session false ≠ none ∨ s.handshakeGoes = true →
       (∀ c, s.helloFault m.payload 1 m.session pre false = some c → ∃ t, exec (.helloReply m) s = .next t ∧ endedWith t m.session c ∧ sameCfg s t ∧ sameStores s t)
       ∧ (∀ e, s.identityOf m.payload = some e → s.helloFault m.payload 1 m.session pre false = none → ∃ t, exec (.helloReply m) s = .next t
          ∧ (t.sess m.session).state = ssHELLO ∧ (t.sess m.session).reply = m.payload ∧ (t.sess m.session).partner = rePartner e
          ∧ (t.sess m.session).component = reComponent e ∧ sameCfg s t ∧ sameStores s t))))
  ∧ (∀ (s : State) (sid : Nat), s.keysDue sid = false → exec (.handshakeKeysDone sid) s = .next s)
  ∧ (∀ (s : State) (sid r : Nat), s.keysDue sid = true → s.mode.phase ≠ Phase.seal → (s.sess sid).state = ssHELLO → (s.sess sid).ephReg = some r →
      (s.sess sid).txSeq + 1 < 0xFFFFFFFF →
      (let c := s.sess sid
       let z := Config.ecdhSecret (s.keyReg r).seed (heEph (if c.initiator then c.reply else c.hello))
       let T := Config.sha384 (c.hello ++ c.reply)
       let km := State.keyMaterial (digestBytes z) (digestBytes T)
       ∃ t, exec (.handshakeKeysDone sid) s = .next t ∧ t.keyReg r = KeyReg.empty ∧ sameCfg s t ∧ sameStores s t
        ∧ (z = 0 → endedWith t sid sxHANDSHAKE_SIGNATURE)
        ∧ (z ≠ 0 → s.kekOk (s.cfg Reg.STX.SESSION_KEK) = false → endedWith t sid sxKEY_LOST)
        ∧ (z ≠ 0 → s.kekOk (s.cfg Reg.STX.SESSION_KEK) = true → (t.sess sid).state = ssKEYED ∧ (t.sess sid).ephReg = none ∧ (t.sess sid).transcript = T
            ∧ (t.sess sid).saltTx = (if c.initiator then slice km 64 8 else slice km 72 8) ∧ (t.sess sid).saltRx = (if c.initiator then slice km 72 8 else slice km 64 8)
            ∧ (t.sess sid).txSeq = c.txSeq + (if c.initiator then 1 else 0))))
  ∧ (∀ (s : State) (m : StxMessage), ofSession s m → s.sessAes = true → (s.sess m.session).state = ssKEYED →
      (m.auth = true → m.payload = digestBytes (s.sess m.session).transcript → (s.sess m.session).txSeq + 1 < 0xFFFFFFFF → ∃ t, exec (.keyConfirm m) s = .next t
        ∧ (t.sess m.session).state = ssACTIVE ∧ t.raised pgSTX 8 = true
        ∧ (t.sess m.session).txSeq = (s.sess m.session).txSeq + (if (s.sess m.session).initiator then 0 else 1) ∧ sameCfg s t ∧ sameStores s t)
      ∧ (m.auth = true → m.payload ≠ digestBytes (s.sess m.session).transcript → ∃ t, exec (.keyConfirm m) s = .next t ∧ endedWith t m.session sxCONFIRM_FAIL
        ∧ sameCfg s t ∧ sameStores s t)
      ∧ (m.auth = false → ∃ t, exec (.keyConfirm m) s = .next t ∧ endedWith t m.session sxCONFIRM_FAIL
        ∧ t.rd Reg.STX.AUTH_FAIL_COUNT = min (s.rd Reg.STX.AUTH_FAIL_COUNT + 1) (2 ^ Reg.STX.AUTH_FAIL_COUNT.width - 1) ∧ sameCfg s t ∧ sameStores s t))
  ∧ (∀ (s : State) (m : StxMessage), ofSession s m → (s.sess m.session).state ≠ ssIDLE → m.payload.length = 2 →
      ((s.sess m.session).state < ssKEYED ∨ (m.auth = true ∧ s.sessAes = true) → ∃ t, exec (.close m) s = .next t ∧ endedWith t m.session (fieldLe m.payload 0 2) ∧ sameCfg s t ∧ sameStores s t)
      ∧ (ssKEYED ≤ (s.sess m.session).state → m.auth = false → s.sessAes = true → exec (.close m) s = .next s.dropFrame))
  ∧ (∀ (s : State) (m : StxMessage), s.up = true → s.active pgSTX = true → s.mode.phase ≠ Phase.seal →
      (s.sess m.session).state = ssIDLE ∨ (s.sess m.session).medium ≠ m.medium ∨ (s.sess m.session).peer ≠ m.peer →
      ∀ i ∈ [Instr.helloReply m, .keyConfirm m, .close m, .quote m], exec i s = .next s.dropFrame)
  ∧ (∀ (s : State) (sid : Nat), s.mode.phase ≠ Phase.seal →
      (let c := s.sess sid
       let awaits := (c.state = ssHELLO ∧ c.initiator = true ∧ c.reply = []) ∨ c.state = ssKEYED ∨ c.state = ssCLOSING
       (awaits → s.brace = false → ∃ t, exec (.sessionTimeout sid) s = .next t ∧ endedWith t sid sxSESSION_TIMEOUT
          ∧ t.rd Reg.STX.TIMEOUT_COUNT = min (s.rd Reg.STX.TIMEOUT_COUNT + 1) (2 ^ Reg.STX.TIMEOUT_COUNT.width - 1) ∧ sameCfg s t ∧ sameStores s t)
       ∧ (¬ awaits ∨ s.brace = true → exec (.sessionTimeout sid) s = .next s)))
  ∧ (∀ (s : State) (sid : Nat), s.mode.phase ≠ Phase.seal →
      ((s.sess sid).unacked = [] ∨ s.brace = true → exec (.retxTimeout sid) s = .next s)
      ∧ (∀ u, (s.sess sid).unacked.head? = some u → s.brace = false →
          (u.tries < s.retxLimit (s.sess sid).medium → ∃ t, exec (.retxTimeout sid) s = .next t
            ∧ t.sess sid = { s.sess sid with unacked := (s.sess sid).unacked.tail ++ [{ u with tries := u.tries + 1 }] }
            ∧ t.rd Reg.NET.RETX_COUNT = min (s.rd Reg.NET.RETX_COUNT + 1) (2 ^ Reg.NET.RETX_COUNT.width - 1) ∧ sameCfg s t ∧ sameStores s t)
          ∧ (s.retxLimit (s.sess sid).medium ≤ u.tries → (s.sess sid).state ≠ ssIDLE → ∃ t, exec (.retxTimeout sid) s = .next t ∧ endedWith t sid sxLINK_FAIL
            ∧ t.rd Reg.NET.LINK_FAIL_COUNT = min (s.rd Reg.NET.LINK_FAIL_COUNT + 1) (2 ^ Reg.NET.LINK_FAIL_COUNT.width - 1) ∧ t.raised pgNET 11 = true
            ∧ sameCfg s t ∧ sameStores s t)))

namespace Sys2Proof

/-- An ATT command has ended with RESULT `code` (0: none). -/
def attEnded (s t : State) (code : Nat) : Prop := t.rd Reg.ATT.RESULT = (if code = 0 then 0 else (pgATT * 256 + code) % 2 ^ Reg.ATT.RESULT.width)
  ∧ (code ≠ 0 → t.rd (Hdr.REASON_CODE pgATT) = (pgATT * 256 + code) % 2 ^ 16) ∧ (t.cmdSlot pgATT attCmdOff).running = none
  ∧ (code = 0 → t.rd (Hdr.REASON_CODE pgATT) = s.rd (Hdr.REASON_CODE pgATT)) ∧ sameCfg s t

/-- The key registers of IDENTITY, slots 2 and 3 captured (R426). -/
def identityKeys (s : State) : State := (((((s.cacheFill 2).cacheFill 3).identityKey 0 2 2).identityKey 1 4 2).identityKey 2 2 3).identityKey 3 4 3

/-- What ROUND_DONE shows of its verdicts before the quote is signed (R433-R435). -/
def roundShown (s : State) (r : Round) : State :=
  let l := s.verdictList r
  let rej := State.verdictCount l (fun c => c ≠ vdACCEPT && !State.uncheckedCode c)
  let u := (s.wr Reg.ATT.ROUND_A_CHECKED l.length).wr Reg.ATT.ROUND_A_ACCEPTED (State.verdictCount l (· = vdACCEPT))
  let u := (u.wr Reg.ATT.ROUND_B_REJECTED rej).wr Reg.ATT.ROUND_B_UNCHECKED (State.verdictCount l State.uncheckedCode)
  let u := { u with stx := { u.stx with verdicts := l } }
  if rej = 0 then u else u.raise pgATT 10

end Sys2Proof

/-- ATT_IDENTITY, LOCK_RMT, UNLOCK_RMT, ROUND, ROUND_LIMIT, ROUND_DONE, QUOTE, VERDICTS and SEAL_OP (R426-R438). -/
def Obligations.Attestation : Prop :=
  (∀ (s : State) (a : Nat), s.ready pgATT attCmdOff = true →
      (s.rd Reg.KVT.STATUS_ROOT_SOURCE = 0 ∨ s.rd Reg.KVT.STATUS_ROOT_SOURCE = 3 → ∃ t, exec (.attIdentity a) s = .next t ∧ attEnded s t atROOT_UNAVAILABLE
        ∧ t.pke = s.pke ∧ t.stx = s.stx ∧ sameStores s t)
      ∧ (s.rd Reg.KVT.STATUS_ROOT_SOURCE ≠ 0 → s.rd Reg.KVT.STATUS_ROOT_SOURCE ≠ 3 →
        (State.inSram a 7586 = false → ∃ t, exec (.attIdentity a) s = .next t ∧ attEnded s t Reason.FIELD_RANGE ∧ t.pke = s.pke ∧ t.stx = s.stx ∧ sameStores s t)
        ∧ (State.inSram a 7586 = true → s.rngFailed = true → ∃ t, exec (.attIdentity a) s = .next t
          ∧ t.rd Reg.ATT.RESULT = (pgPKE * 256 + pkRNG_UNAVAILABLE) % 2 ^ Reg.ATT.RESULT.width ∧ t.pke = s.pke ∧ t.stx = s.stx ∧ sameStores s t)
        ∧ (State.inSram a 7586 = true → s.rngFailed = false → s.captureFault 2 = (s, none) → s.captureFault 3 = (s, none) →
          (s.pkeFree 3 = false → exec (.attIdentity a) s = .next (s.attAwait (.attIdentity a)))
          ∧ (s.pkeFree 3 = true → s.captureWaits 2 = true ∨ s.captureWaits 3 = true → exec (.attIdentity a) s = .next (s.maskStall.attWait (.attIdentity a)))
          ∧ (s.pkeFree 3 = true → s.captureWaits 2 = false → s.captureWaits 3 = false →
            (let v := identityKeys s
            let g := v.signBoth 0 true v.certBody
            ∃ t, exec (.attIdentity a) s = .next t ∧ (∀ r, t.keyReg r = v.keyReg r)
            ∧ (t.keyReg 0).seed = seedFrom 2 (digestBytes (((s.cacheFill 2).cacheFill 3).keyOf 2))
            ∧ (∀ sigs, g.2 = .ok sigs → attEnded s t 0 ∧ t.flag Reg.ATT.STATUS_IDENTITY_READY = true ∧ t.raised pgATT 9 = true ∧ t.stx.cert = v.certBody ++ sigs
              ∧ t.sram = Mem.store 0 s.sram a (t.regPub 0 ++ t.regPub 1 ++ t.stx.cert) ∧ t.stx.cert.take 4 = asciiBytes "SYAC")
            ∧ (∀ c, g.2 = .error c → t.rd Reg.ATT.RESULT = (pgPKE * 256 + c) % 2 ^ Reg.ATT.RESULT.width ∧ t.sram = s.sram
              ∧ t.rd Reg.ATT.STATUS_IDENTITY_READY = s.rd Reg.ATT.STATUS_IDENTITY_READY)
            ∧ t.flash = s.flash ∧ t.otp = s.otp ∧ t.nvm = s.nvm ∧ t.retention = s.retention)))))
  ∧ (∀ s : State, s.ready pgATT attCmdOff = true →
      (∀ c, State.rmtFault s.rmtEntries = some c → ∃ t, exec .lockRmt s = .next t ∧ attEnded s t c ∧ t.rd Reg.ATT.STATUS_RMT_LOCKED = s.rd Reg.ATT.STATUS_RMT_LOCKED
        ∧ sameStores s t)
      ∧ (State.rmtFault s.rmtEntries = none → s.brace = true → exec .lockRmt s = .next (s.attWait .lockRmt))
      ∧ (State.rmtFault s.rmtEntries = none → s.brace = false → ∃ t, exec .lockRmt s = .next t ∧ attEnded s t 0 ∧ t.flag Reg.ATT.STATUS_RMT_LOCKED = true
        ∧ (∀ i, i < 12 → t.rd (Reg.ATT.RMT_DIGEST i) = digestWord (Config.sha384 (s.rmtEntries.flatMap id)) i)
        ∧ t.stx = { s.stx with index := s.rmtEntries.filter (fun e => reKind e = 1) } ∧ sameStores s t))
  ∧ (∀ es : List (List Byte), (reAscending es = false → State.rmtFault es = some atRMT_ORDER)
      ∧ (reAscending es = true → (∃ e ∈ es, reFieldsOk e = false) → State.rmtFault es = some Reason.FIELD_RANGE))
  ∧ (∀ s : State, s.up = true →
      (s.flag Reg.ATT.STATUS_ROUND_BUSY = true → ∃ t, exec .unlockRmt s = .next t ∧ t.rd Reg.ATT.RESULT = pgATT * 256 + atROUND_BUSY
        ∧ t.rd (Hdr.REASON_CODE pgATT) = pgATT * 256 + atROUND_BUSY ∧ t.rd Reg.ATT.STATUS_RMT_LOCKED = s.rd Reg.ATT.STATUS_RMT_LOCKED ∧ sameCfg s t ∧ sameStores s t)
      ∧ (s.flag Reg.ATT.STATUS_ROUND_BUSY = false → s.ready pgATT attCmdOff = true → ∃ t, exec .unlockRmt s = .next t ∧ attEnded s t 0
        ∧ t.flag Reg.ATT.STATUS_RMT_LOCKED = false ∧ t.stx = { s.stx with index := [] } ∧ sameStores s t))
  ∧ (∀ (s : State) (a o : Nat), s.ready pgATT attCmdOff = true → State.inSram a 48 = true → s.sramLe (a + 0x24) 4 = 0 → allZero (s.sramBytes (a + 0x28) 8) = true →
      s.sramLe (a + 0x20) 4 = o → State.inSram o 4029 = true →
      (s.flag Reg.ATT.STATUS_IDENTITY_READY = false → ∃ t, exec (.round a) s = .next t ∧ attEnded s t atROOT_UNAVAILABLE ∧ t.stx = s.stx ∧ sameStores s t)
      ∧ (s.flag Reg.ATT.STATUS_IDENTITY_READY = true → s.flag Reg.ATT.STATUS_RMT_LOCKED = false → ∃ t, exec (.round a) s = .next t ∧ attEnded s t atRMT_UNLOCKED
        ∧ t.stx = s.stx ∧ sameStores s t)
      ∧ (s.flag Reg.ATT.STATUS_IDENTITY_READY = true → s.flag Reg.ATT.STATUS_RMT_LOCKED = true →
        s.brace = true ∨ (s.sessAes = false ∧ s.sessIn ssACTIVE ≠ []) → exec (.round a) s = .next (s.attWait (.round a)))
      ∧ (s.flag Reg.ATT.STATUS_IDENTITY_READY = true → s.flag Reg.ATT.STATUS_RMT_LOCKED = true → s.brace = false → s.sessIn ssACTIVE = [] → ∃ t, exec (.round a) s = .next t
        ∧ t.stx.round = some ⟨a, s.sramBytes a 32, o, false, [], [], [], true, [], false⟩ ∧ t.flag Reg.ATT.STATUS_ROUND_BUSY = true
        ∧ (t.cmdSlot pgATT attCmdOff).running = some (.round a) ∧ sameFieldsBut [Reg.ATT.STATUS_ROUND_BUSY] s t ∧ sameCfg s t ∧ sameStores s t)
      ∧ (∀ i, (s.sessIn ssACTIVE).head? = some i → (s.sessIn ssACTIVE).length = 1 → s.flag Reg.ATT.STATUS_IDENTITY_READY = true → s.flag Reg.ATT.STATUS_RMT_LOCKED = true →
        s.sessAes = true → (s.sess i).txSeq + 1 < 0xFFFFFFFF → ∃ t, exec (.round a) s = .next t ∧ t.stx.round = some ⟨a, s.sramBytes a 32, o, false, [i], [], [], false, [], false⟩
        ∧ (t.sess i).txSeq = (s.sess i).txSeq + 1 ∧ t.flag Reg.ATT.STATUS_ROUND_BUSY = true ∧ sameCfg s t ∧ sameStores s t))
  ∧ (∀ (s : State) (a : Nat), s.ready pgATT attCmdOff = true → State.inSram a 48 = true → s.sramLe (a + 0x24) 4 = 1 → allZero (s.sramBytes (a + 0x28) 8) = true →
      State.inSram (s.sramLe (a + 0x20) 4) 4029 = true → s.flag Reg.ATT.STATUS_IDENTITY_READY = true → s.flag Reg.ATT.STATUS_RMT_LOCKED = true → s.brace = false →
      s.sessIn ssACTIVE = [] → (let hs := ((List.range 6).filter s.released).map State.measureId
        ∃ t, exec (.round a) s = .next t ∧ t.stx.round = some ⟨a, s.sramBytes a 32, s.sramLe (a + 0x20) 4, true, hs, [], [], hs.isEmpty, [], false⟩
        ∧ t.flag Reg.ATT.STATUS_ROUND_BUSY = true ∧ (t.cmdSlot pgATT attCmdOff).running = some (.round a) ∧ sameCfg s t ∧ sameStores s t))
  ∧ (∀ (s : State) (r : Round), s.stx.round = some r →
      (r.closed = false → s.brace = false → ∃ t, exec .roundLimit s = .next t ∧ t.stx.round = some ⟨r.addr, r.nonce, r.out, r.remeasure, [],
          r.verdicts ++ (r.silent.filter (· < 5000)).map (fun i => ⟨(s.sess i).partner, (s.sess i).component, vdNO_QUOTE⟩)
            ++ r.waiting.map (fun w => ⟨(s.sess w.1).partner, (s.sess w.1).component, vdNOT_CHECKED⟩), r.passed, true, [], r.lost⟩ ∧ sameCfg s t ∧ sameStores s t)
      ∧ (r.closed = true ∨ s.brace = true → exec .roundLimit s = .next s)
      ∧ (r.closed = false → exec .roundDone s = .next s)
      ∧ (r.closed = true → r.lost = true → ∃ t, exec .roundDone s = .next t ∧ attEnded s t atKEY_LOST ∧ t.stx.round = none ∧ t.flag Reg.ATT.STATUS_ROUND_BUSY = false
          ∧ t.raised pgATT 8 = true ∧ sameStores s t)
      ∧ (r.closed = true → r.lost = false → s.pkeFree 3 = false → exec .roundDone s = .next (s.awaitPke .att 3 fwIssuer))
      ∧ (r.closed = true → r.lost = false → s.pkeFree 3 = true → s.rngServes = false → s.rngFailed = false → exec .roundDone s = .next s)
      ∧ (r.closed = true → r.lost = false → s.pkeFree 3 = true → s.rngServes = true ∨ s.rngFailed = true →
          (let body := s.quoteBody r (s.verdictList r)
          let fits := State.inSram r.out (body.length + 3405)
          let g := (roundShown s r).signBoth 2 true body
          ∃ t, exec .roundDone s = .next t ∧ t.stx.round = none ∧ t.stx.verdicts = s.verdictList r ∧ t.flag Reg.ATT.STATUS_ROUND_BUSY = false ∧ t.raised pgATT 8 = true
            ∧ t.rd Reg.ATT.ROUND_A_CHECKED = (s.verdictList r).length % 2 ^ Reg.ATT.ROUND_A_CHECKED.width
            ∧ (fits = false → attEnded s t Reason.FIELD_RANGE ∧ t.sram = s.sram)
            ∧ (fits = true → s.rngFailed = true → t.rd Reg.ATT.RESULT = (pgPKE * 256 + pkRNG_UNAVAILABLE) % 2 ^ Reg.ATT.RESULT.width ∧ t.sram = s.sram)
            ∧ (fits = true → s.rngFailed = false → (∀ sigs, g.2 = .ok sigs → attEnded s t 0 ∧ t.sram = Mem.store 0 s.sram r.out (body ++ sigs)
                ∧ t.rd Reg.ATT.QUOTE_LENGTH = (body.length + 3405) % 2 ^ Reg.ATT.QUOTE_LENGTH.width)
              ∧ (∀ c, g.2 = .error c → t.rd Reg.ATT.RESULT = (pgPKE * 256 + c) % 2 ^ Reg.ATT.RESULT.width ∧ t.sram = s.sram))
            ∧ t.flash = s.flash ∧ t.otp = s.otp ∧ t.nvm = s.nvm)))
  ∧ (∀ s : State, s.stx.round = none → exec .roundLimit s = .next s ∧ exec .roundDone s = .next s)
  ∧ (∀ (s : State) (m : StxMessage), ofSession s m → s.sessAes = true → (s.sess m.session).state = ssACTIVE → m.auth = true →
      (s.stx.round = none → ∃ t, exec (.quote m) s = .next t ∧ t.rd Reg.STX.DROPPED_TYPE = min (s.rd Reg.STX.DROPPED_TYPE + 1) (2 ^ Reg.STX.DROPPED_TYPE.width - 1)
        ∧ t.stx.round = none ∧ sameCfg s t ∧ sameStores s t)
      ∧ (∀ r, s.stx.round = some r → r.closed = false → r.silent = [m.session] → r.waiting = [] → s.pkeFree 3 = true → ∃ t, exec (.quote m) s = .next t
        ∧ t.stx.round = some ⟨r.addr, r.nonce, r.out, r.remeasure, [],
            r.verdicts ++ [⟨(s.sess m.session).partner, (s.sess m.session).component, s.quoteVerdict r m.session m.payload⟩], r.passed, true, [], r.lost⟩ ∧ sameCfg s t ∧ sameStores s t)
      ∧ (∀ r, s.stx.round = some r → r.closed = false → r.silent = [m.session] → r.waiting = [] → s.pkeFree 3 = false → ∃ t, exec (.quote m) s = .next t
        ∧ t.stx.round = some ⟨r.addr, r.nonce, r.out, r.remeasure, [], r.verdicts, r.passed, false, [(m.session, m.payload)], r.lost⟩ ∧ sameCfg s t ∧ sameStores s t))
  ∧ (∀ (s : State) (r : Round) (sid : Nat) (q : List Byte), (State.quoteFormatOk q = false → s.quoteVerdict r sid q = vdFORMAT)
      ∧ (State.quoteFormatOk q = true → Config.sha384 (slice q (0x30 + 52 * fieldLe q 7 1) (State.suiteKeys (fieldLe q 6 1))) ≠ (s.sess sid).idDigest →
          s.quoteVerdict r sid q = vdIDENTITY))
  ∧ (∀ (s : State) (a : Nat), s.ready pgATT attCmdOff = true →
      (State.inSram a (4 * s.stx.verdicts.length) = true → ∃ t, exec (.verdicts a) s = .next t ∧ attEnded s t 0
        ∧ t.sram = Mem.store 0 s.sram a (State.verdictBytes s.stx.verdicts) ∧ t.stx = s.stx ∧ t.flash = s.flash)
      ∧ (State.inSram a (4 * s.stx.verdicts.length) = false → ∃ t, exec (.verdicts a) s = .next t ∧ attEnded s t Reason.FIELD_RANGE ∧ sameStores s t))
  ∧ (∀ (s : State) (a : Nat), s.ready pgATT attCmdOff = true →
      (∀ c, s.sealOpFault a = some c → ∃ t, exec (.sealOp a) s = .next t ∧ attEnded s t c ∧ t.aes = s.aes ∧ t.stx = s.stx ∧ sameStores s t)
      ∧ (s.sealOpFault a = none → s.dgeFree = false ∨ s.stx.sealRun ≠ none ∨ (s.aesBusy (s.soEngine a) = true ∧ s.aesYields (s.soEngine a) = false) →
          ∃ t, exec (.sealOp a) s = .next t ∧ t.stx = { s.stx with sealWait := some a }
          ∧ (t.cmdSlot pgATT attCmdOff).running = some (.sealOp a) ∧ t.aes = s.aes ∧ t.regs = s.regs ∧ sameStores s t)
      ∧ (s.sealOpFault a = none → s.dgeFree = true → s.stx.sealRun = none → s.aesYields (s.soEngine a) = true →
          exec (.sealOp a) s = .next (({ s.cmdStart pgATT attCmdOff (.sealOp a) with stx := { s.stx with sealWait := some a } }.aesSave (s.soEngine a)).sealTake a))
      ∧ (s.sealOpFault a = none → s.dgeFree = true → s.stx.sealRun = none → s.aesBusy (s.soEngine a) = false → (s.aesOf (s.soEngine a)).saved = none →
          (let e := s.soEngine a
           let k : Dkr := ⟨true, s.hostKey (s.soHost a) (s.soSvn a) (s.soLabel a), if s.soOp a = 1 then atENC else atDEC, 2, none, 0⟩
           ((s.setAes e { s.aesOf e with dkr := k }).aesRunFault e (s.soRun a) = none → ∃ t, exec (.sealOp a) s = .next t
              ∧ t.stx = { s.stx with sealWait := none, sealRun := some (e, a), savedDkr := some (s.aesOf e).dkr } ∧ (t.aesOf e).dkr = k ∧ t.aesBusy e = true
              ∧ t.rd (Reg.AES.DKR_STATUS_LOADED e) = s.rd (Reg.AES.DKR_STATUS_LOADED e) ∧ (t.cmdSlot pgATT attCmdOff).running = some (.sealOp a) ∧ sameCfg s t ∧ sameStores s t)
           ∧ (∀ c, (s.setAes e { s.aesOf e with dkr := k }).aesRunFault e (s.soRun a) = some c → ∃ t, exec (.sealOp a) s = .next t ∧ attEnded s t c
              ∧ t.stx = { s.stx with sealWait := none } ∧ t.aes = s.aes ∧ sameStores s t))))

namespace Sys2Proof

/-- A TIME command was refused: the reason stands, nothing else has changed but BUSY and the command's end. -/
def timeRefused (s t : State) (code : Nat) : Prop := t.rd (Hdr.REASON_CODE pgTIME) = pgTIME * 256 + code ∧ t.rd (Hdr.REASON_OFFSET pgTIME) = timeCmdOff
  ∧ sameFieldsBut [Hdr.REASON_CODE pgTIME, Hdr.REASON_OFFSET pgTIME, Reg.TIME.STATUS_BUSY] s t ∧ t.time = s.time ∧ t.ledger = s.ledger
  ∧ (t.cmdSlot pgTIME timeCmdOff).running = none ∧ sameCfg s t ∧ sameStores s t

/-- The correction Δ of R445, in ticks. -/
def timeDelta (s : State) (m : List Byte) : Int := (fieldLe m 0x28 8 + s.roundTrip / 2 : Nat) - s.utcAt s.time.mrt

/-- The 16-bit counter after one more event. -/
def oneMore16 (n : Nat) : Nat := min (n + 1) 65535

/-- The mean speed of a second with `p` pulses, in 1/16 km/h, rounded and capped (R470). -/
def speedOf (s : State) (p : Nat) : Nat :=
  let k := max 1 (s.cfg Reg.LEDG.K_FACTOR)
  min 0xFFFF ((2 * (p * 57600) + k) / (2 * k))

/-- The pulses since the last sample (R470). -/
def pulsesNow (s : State) : Nat := (s.rd Reg.CLOV.PULSE_ACCUM + 2 ^ 32 - s.ledger.pulseAt) % 2 ^ 32

/-- A record of a type whose body begins with `b` stands in the journal. -/
def recorded (s : State) (t : Nat) (b : List Byte) : Prop := ∃ r ∈ s.ledger.journal, r.ring = 0 ∧ fieldLe r.data 0 1 = t ∧ slice r.data 16 b.length = b

end Sys2Proof

/-- TIME_CHALLENGE, CHALLENGE_EXPIRY, TIME_APPLY, TIME_PROGRAM_AUTH, SLEW_TICK, UTC_SECOND and MRT_SECOND (R441-R450, R470). -/
def Obligations.TimeBase : Prop :=
  (∀ s : State, s.ready pgTIME timeCmdOff = true →
      (s.rngFailed = false → s.rngServes = true → ∃ t, exec .timeChallenge s = .next t
        ∧ t.time = { s.time with challenge := some (digestOf 128 (s.draw 16).2, s.time.mrt) }
        ∧ (∀ i, i < 4 → t.rd (Reg.TIME.CHALLENGE i) = digestWord (digestOf 128 (s.draw 16).2) i)
        ∧ sameFieldsBut (Reg.RNG.RESEED_COUNT :: (List.range 4).map Reg.TIME.CHALLENGE) s t ∧ t.ledger = s.ledger ∧ sameCfg s t ∧ sameStores s t)
      ∧ (s.rngFailed = false → s.rngServes = false →
          exec .timeChallenge s = .next (s.setCmdSlot pgTIME timeCmdOff { s.cmdSlot pgTIME timeCmdOff with queued := some .timeChallenge }))
      ∧ (s.rngFailed = true → ∃ t, exec .timeChallenge s = .next t ∧ t.rd (Hdr.REASON_CODE pgTIME) = rngUNAVAILABLE ∧ t.time = s.time ∧ sameCfg s t ∧ sameStores s t))
  ∧ (∀ s : State, (∃ t, exec (.challengeExpiry false) s = .next t ∧ t.time = { s.time with challenge := none } ∧ t.ledger = s.ledger
        ∧ (∀ i, i < 4 → t.rd (Reg.TIME.CHALLENGE i) = 0) ∧ sameFieldsBut ((List.range 4).map Reg.TIME.CHALLENGE) s t ∧ sameCfg s t ∧ sameStores s t)
      ∧ (∃ t, exec (.challengeExpiry true) s = .next t ∧ t.ledger = { s.ledger with challenge := none } ∧ t.time = s.time
        ∧ (∀ i, i < 4 → t.rd (Reg.LEDG.EXPORT_CHALLENGE i) = 0) ∧ sameFieldsBut ((List.range 4).map Reg.LEDG.EXPORT_CHALLENGE) s t ∧ sameCfg s t ∧ sameStores s t))
  ∧ (∀ (s : State) (m : List Byte),
      (State.timeFormatOk m = false → s.timeFault m = some Reason.FIELD_RANGE)
      ∧ (State.timeFormatOk m = true → s.otp.backendHash = 0 → s.timeFault m = some tmAUTH_MISSING)
      ∧ (State.timeFormatOk m = true → s.otp.backendHash ≠ 0 → keysHash m 0x38 ≠ s.otp.backendHash → s.timeFault m = some tmTIME_AUTH)
      ∧ (State.timeFormatOk m = true → s.otp.backendHash ≠ 0 → keysHash m 0x38 = s.otp.backendHash →
          (bothSigsOk m 0x38 0x83C = false → s.timeFault m = some tmTIME_SIGNATURE)
          ∧ (bothSigsOk m 0x38 0x83C = true →
              (digestOf 128 (slice m 8 16) ≠ s.otp.serial → s.timeFault m = some tmTIME_SERIAL)
              ∧ (digestOf 128 (slice m 8 16) = s.otp.serial →
                  (s.time.challenge.map Prod.fst ≠ some (digestOf 128 (slice m 0x18 16)) → s.timeFault m = some tmTIME_CHALLENGE)
                  ∧ (s.time.challenge.map Prod.fst = some (digestOf 128 (slice m 0x18 16)) →
                      s.timeFault m = if fieldLe m 0x30 4 * 32768 < s.roundTrip * 1000 then some tmTIME_STALE else none)))))
  ∧ (∀ (s : State) (a : Nat), s.ready pgTIME timeCmdOff = true →
      (State.inSram a State.timeSetLen = true → s.pkeFree 2 = false → ∃ t, exec (.timeApply a) s = .next t ∧ (t.cmdSlot pgTIME timeCmdOff).running = some (.timeApply a) ∧ t.flag Reg.TIME.STATUS_BUSY = true
        ∧ t.time = s.time ∧ t.ledger = s.ledger ∧ sameCfg s t ∧ sameStores s t)
      ∧ (State.inSram a State.timeSetLen = false → ∃ t, exec (.timeApply a) s = .next t ∧ timeRefused s t Reason.FIELD_RANGE)
      ∧ (s.pkeFree 2 = true → State.inSram a State.timeSetLen = true → (let m := s.sramBytes a State.timeSetLen
          (∀ c, s.timeFault m = some c → ∃ t, exec (.timeApply a) s = .next t ∧ timeRefused s t c)
          ∧ (s.timeFault m = none → s.gap = false → (timeDelta s m).natAbs * 1000 ≤ s.cfg Reg.TIME.TIME_TOL * 32768 → ∃ t, exec (.timeApply a) s = .next t
              ∧ t.time = { s.time with challenge := none, slew := timeDelta s m } ∧ t.rd Reg.TIME.SLEW_COUNT = oneMore16 (s.rd Reg.TIME.SLEW_COUNT)
              ∧ t.rd Reg.TIME.STEP_COUNT = s.rd Reg.TIME.STEP_COUNT ∧ t.raised pgTIME 8 = true ∧ t.ledger = s.ledger ∧ sameCfg s t ∧ sameStores s t)
          ∧ (s.timeFault m = none → s.gap = true ∨ s.cfg Reg.TIME.TIME_TOL * 32768 < (timeDelta s m).natAbs * 1000 → ∃ t, exec (.timeApply a) s = .next t
              ∧ t.time.utcOffset = s.time.utcOffset + timeDelta s m ∧ t.time.slew = 0 ∧ t.time.challenge = none ∧ t.time.mrt = s.time.mrt ∧ t.gap = false
              ∧ t.rd Reg.TIME.STEP_COUNT = oneMore16 (s.rd Reg.TIME.STEP_COUNT) ∧ t.rd Reg.TIME.SLEW_COUNT = s.rd Reg.TIME.SLEW_COUNT
              ∧ t.raised pgTIME 8 = true ∧ t.raised pgTIME 9 = true ∧ t.otp = s.otp ∧ t.sram = s.sram ∧ sameCfg s t
              ∧ (s.recording = true → s.ledger.overflow = none → s.journalUsed ≤ 40000 →
                  recorded t rtTIME_CORRECTION (leBytes 8 (if s.gap = true then 2 ^ 64 - 1 else (s.utcAt s.time.mrt % 2 ^ 64).toNat)
                    ++ leBytes 8 ((s.utcAt s.time.mrt + timeDelta s m) % 2 ^ 64).toNat ++ leBytes 4 (s.roundTrip * 1000 / 32768) ++ leBytes 4 0)
                  ∧ (s.gap = true → recorded t rtGAP (State.gapBody gapTIME s.time.gapFrom s.time.mrt)))))))
  ∧ (∀ (s : State) (a : Nat), s.ready pgTIME timeCmdOff = true →
      (s.lc = lcISSUED ∨ s.lc = lcPROVISIONED → s.otp.backendHash = 0 →
        (State.inSram a 48 = true → s.brace = true → exec (.timeProgramAuth a) s = .next (s.cmdStart pgTIME timeCmdOff (.timeProgramAuth a)))
        ∧ (State.inSram a 48 = true → s.brace = false → exec (.timeProgramAuth a) s = .next { s with otp := { s.otp with backendHash := digestOf 384 (s.sramBytes a 48) } })
        ∧ (State.inSram a 48 = false → ∃ t, exec (.timeProgramAuth a) s = .next t ∧ timeRefused s t Reason.FIELD_RANGE))
      ∧ ((s.lc ≠ lcISSUED ∧ s.lc ≠ lcPROVISIONED) ∨ s.otp.backendHash ≠ 0 → ∃ t, exec (.timeProgramAuth a) s = .next t ∧ timeRefused s t Reason.NOT_IN_LIFECYCLE))
  ∧ (∀ s : State, (s.mrtRuns = false ∨ s.gap = true ∨ s.time.slew = 0 → exec .slewTick s = .next s)
      ∧ (s.mrtRuns = true → s.gap = false → s.time.slew ≠ 0 → ∃ t, exec .slewTick s = .next t
        ∧ t.time = { s.time with utcOffset := s.time.utcOffset + s.time.slew.sign, slew := s.time.slew - s.time.slew.sign }
        ∧ t.rd Reg.TIME.SLEW_REMAIN = ((s.time.slew - s.time.slew.sign) % 2 ^ 32).toNat ∧ t.flag Reg.TIME.STATUS_SLEWING = decide (s.time.slew - s.time.slew.sign ≠ 0)
        ∧ sameFieldsBut [Reg.TIME.SLEW_REMAIN, Reg.TIME.STATUS_SLEWING, Reg.TIME.STATUS_RETROGRADE, Hdr.EVENT pgTIME 10] s t
        ∧ t.ledger = s.ledger ∧ sameCfg s t ∧ sameStores s t))
  ∧ (∀ s : State, (s.gap = true ∨ s.mrtRuns = false → exec .utcSecond s = .next s)
      ∧ (s.gap = false → s.mrtRuns = true → s.up = true → s.power.fromVigil = false → (let x := s.utcSecAt s.time.mrt
          ∃ t, exec .utcSecond s = .next t
          ∧ t.rd Reg.TIME.LAST_DAY = (if x < (s.rd Reg.TIME.LAST_DAY / 86400 + 1) * 86400 then s.rd Reg.TIME.LAST_DAY else x / 86400 * 86400 % 2 ^ 32)
          ∧ t.rd Reg.TIME.LAST_WEEK = (if x < ((s.rd Reg.TIME.LAST_WEEK + 432000) / 604800 + 1) * 604800 - 432000 then s.rd Reg.TIME.LAST_WEEK
              else ((x + 432000) / 604800 * 604800 - 432000) % 2 ^ 32)
          ∧ (x < s.meterRule.next (s.rd Reg.TIME.LAST_METER) → t.rd Reg.TIME.LAST_METER = s.rd Reg.TIME.LAST_METER)
          ∧ t.time.utcOffset = s.time.utcOffset ∧ t.time.mrt = s.time.mrt ∧ t.otp = s.otp ∧ t.sram = s.sram ∧ sameCfg s t
          ∧ t.ledger.pulseAt = s.rd Reg.CLOV.PULSE_ACCUM ∧ (s.active pgLEDG = true → t.ledger.speed = speedOf s (pulsesNow s))
          ∧ (s.recording = true → s.ledger.overflow = none → s.journalUsed ≤ 40000 → (s.rd Reg.TIME.LAST_DAY / 86400 + 1) * 86400 ≤ x →
              recorded t rtPERIOD_SEAL (leBytes 1 0 ++ leBytes 1 (min (x / 86400 - s.rd Reg.TIME.LAST_DAY / 86400) 255) ++ leBytes 2 0 ++ leBytes 4 (x / 86400 * 86400))))))
  ∧ (∀ s : State, (s.gap = false ∨ s.mrtRuns = false → exec .mrtSecond s = .next s)
      ∧ (s.gap = true → s.mrtRuns = true → ∃ t, exec .mrtSecond s = .next t ∧ t.ledger.pulseAt = s.rd Reg.CLOV.PULSE_ACCUM
        ∧ (s.up = true → s.active pgLEDG = true → s.power.fromVigil = false → t.ledger.speed = speedOf s (pulsesNow s)
            ∧ t.totals 0 = (s.totals 0).add (max 1 (s.cfg Reg.LEDG.K_FACTOR)) (pulsesNow s) (b2n (speedOf s (pulsesNow s) ≠ 0)) (b2n s.clove.ign.value))
        ∧ t.rd Reg.TIME.LAST_DAY = s.rd Reg.TIME.LAST_DAY ∧ t.rd Reg.TIME.LAST_WEEK = s.rd Reg.TIME.LAST_WEEK
        ∧ t.rd Reg.TIME.LAST_METER = s.rd Reg.TIME.LAST_METER ∧ t.time.utcOffset = s.time.utcOffset ∧ t.otp = s.otp ∧ t.sram = s.sram ∧ sameCfg s t))

namespace Sys2Proof

/-- The journal has room for what one event can add. -/
def journalRoom (s : State) : Prop := s.ledger.overflow = none ∧ s.journalUsed ≤ 40000

/-- An EVENT of the device stands in the journal (R468). -/
def eventRecorded (s : State) (code : Nat) (data : List Byte) : Prop := recorded s rtEVENT (leBytes 2 code ++ data ++ List.replicate (6 - data.length) 0)

/-- A step that may only have added to the journal and started a commit: settings, OTP, main SRAM and time are as before. -/
def ledgerOnly (s t : State) : Prop := t.otp = s.otp ∧ t.sram = s.sram ∧ t.time = s.time ∧ sameCfg s t

end Sys2Proof

/-- SENSOR_MISMATCH_BEGIN, SENSOR_MISMATCH_END, WHEEL_SPEED_LOST, DISTANCE_INTERVAL, LEDGER_COMMIT_DUE, LEDGER_COMMIT_DONE and the erases of the rings (R456-R471). -/
def Obligations.LedgerEvents : Prop :=
  (∀ s : State,
      (s.recording = true → s.cfg Reg.LEDG.WS_FORMAT_SCALE ≠ 0 → s.ledger.inMiss = false → s.cfg Reg.LEDG.MISMATCH_SECS ≤ s.ledger.missRun →
        ∃ t, exec .sensorMismatchBegin s = .next t ∧ t.ledger.inMiss = true ∧ t.ledger.matchRun = 0 ∧ t.raised pgLEDG 10 = true
          ∧ t.rd Reg.LEDG.MISMATCH_COUNT = oneMore16 (s.rd Reg.LEDG.MISMATCH_COUNT) ∧ ledgerOnly s t
          ∧ (journalRoom s → eventRecorded t 1 (leBytes 2 (min s.ledger.missMax 0xFFFF))))
      ∧ (s.recording = false ∨ s.cfg Reg.LEDG.WS_FORMAT_SCALE = 0 ∨ s.ledger.inMiss = true ∨ s.ledger.missRun < s.cfg Reg.LEDG.MISMATCH_SECS →
          exec .sensorMismatchBegin s = .next s))
  ∧ (∀ s : State,
      (s.recording = true → s.ledger.inMiss = true → s.cfg Reg.LEDG.MISMATCH_SECS ≤ s.ledger.matchRun → ∃ t, exec .sensorMismatchEnd s = .next t
        ∧ t.ledger.inMiss = false ∧ t.ledger.missRun = 0 ∧ ledgerOnly s t ∧ (journalRoom s → eventRecorded t 2 []))
      ∧ (s.recording = false ∨ s.ledger.inMiss = false ∨ s.ledger.matchRun < s.cfg Reg.LEDG.MISMATCH_SECS → exec .sensorMismatchEnd s = .next s))
  ∧ (∀ s : State,
      (s.recording = true → s.cfg Reg.LEDG.WS_FORMAT_SCALE ≠ 0 → 5 ≤ s.ledger.wsSilent → s.ledger.speed ≠ 0 → s.ledger.lostTold = false →
        ∃ t, exec .wheelSpeedLost s = .next t ∧ t.ledger.lostTold = true ∧ ledgerOnly s t ∧ (journalRoom s → eventRecorded t 6 []))
      ∧ (s.recording = false ∨ s.cfg Reg.LEDG.WS_FORMAT_SCALE = 0 ∨ s.ledger.wsSilent < 5 ∨ s.ledger.speed = 0 ∨ s.ledger.lostTold = true →
          exec .wheelSpeedLost s = .next s))
  ∧ (∀ s : State,
      (s.recording = true → s.ledger.speed ≠ 0 → ∃ t, exec .distanceInterval s = .next t ∧ t.ledger.distPulses = 0 ∧ t.nvm.odometer = s.nvm.odometer
        ∧ ledgerOnly s t ∧ (journalRoom s → recorded t rtDISTANCE (leBytes 4 s.nvm.odometer ++ leBytes 4 s.ledger.distPulses)))
      ∧ (s.recording = false ∨ s.ledger.speed = 0 → exec .distanceInterval s = .next s))
  ∧ (∀ s : State,
      (s.ledger.journal = [] ∨ s.ledger.key = none ∨ s.ledger.committing = true ∨ s.brace = true ∨ s.up = false ∨ s.active pgLEDG = false → exec .ledgerCommitDue s = .next s)
      ∧ (∀ (k : List Byte) (f : JRec) (js : List JRec), s.ledger.key = some k → s.ledger.journal = f :: js → s.ledger.committing = false → s.brace = false → s.up = true →
          s.active pgLEDG = true → (∀ x ∈ s.ledger.journal, x.data.length ≤ 212) →
          (let r := if s.ledger.journal.any (fun x => x.ring = 0) = true then 0 else f.ring
           ∃ (t : State) (bs : List Byte) (n : Nat), exec .ledgerCommitDue s = .next t ∧ t.ledger.journal = s.ledger.journal ∧ t.ledger.committing = true
            ∧ t.ledger.block = some (r, pageAddr r (t.ring r).head + (t.ring r).off, bs, n) ∧ 1 ≤ n ∧ (t.ring r).isOpen = true
            ∧ (let d := ((s.ledger.journal.filter (fun x => x.ring = r)).take n).flatMap (fun x => x.data)
               d.length ≤ 244 ∧ bs.length = blockSize d.length ∧ bs.take (d.length + 12) = leBytes 2 d.length ++ d ++ commitTag k (t.ring r).c r (t.ring r).head (t.ring r).off (leBytes 2 d.length ++ d))
            ∧ hasReq t (State.chanRes 6) ⟨.ledger, 2, 2, ledgIssuer, 0, 0, s.time.mrt, []⟩ ∧ ledgerOnly s t)))
  ∧ (∀ s : State,
      ((∀ q, (s.sched (State.chanRes 6)).running = some q → q.kind ≠ .ledger ∨ q.addr ≠ 0) → exec .ledgerCommitDone s = .next s)
      ∧ (∀ q r a bs n, (s.sched (State.chanRes 6)).running = some q → s.ledger.block = some (r, a, bs, n) → q.kind = .ledger → q.addr = 0 → s.ledger.debugIn = false →
          (s.cmdSlot pgLEDG ledgCmdOff).running = none → s.mode.phase ≠ Phase.seal →
          ∃ t, exec .ledgerCommitDone s = .next t ∧ t.ledger.journal = State.dropRecs r n s.ledger.journal ∧ t.rd Reg.LEDG.COMMIT_COUNT = min (s.rd Reg.LEDG.COMMIT_COUNT + 1) (2 ^ 32 - 1)
            ∧ t.nvm.exported = false ∧ t.raised pgLEDG 8 = true ∧ ledgerOnly s t
            ∧ (s.brace = true ∨ State.dropRecs r n s.ledger.journal = [] → t.flash = (s.flashProgram 6 0 a bs).flash ∧ t.ledger.block = none ∧ t.ledger.committing = false
                ∧ (t.ring r).off = a % 0x1000 + bs.length ∧ (t.ring r).c = slice bs (leNat (bs.take 2) + 2) 10 ∧ (t.ring r).head = (s.ring r).head)))
  ∧ (∀ (s : State) (q : Req) (k : Nat), (s.sched (State.chanRes 6)).running = some q → q.kind = .ledger → q.addr = k + 1 →
      (let g := s.ring k
       let unit := (if g.isOpen then g.head else g.head - 1) / 16 * 16 + 16
       ∃ u : State, exec (.channelServiceDone 6 false) s = .next (u.goOn.pumpCh 6) ∧ u.flash = (s.flashErase 6 0 (pageAddr k unit) 0x10000).flash
        ∧ u.ring k = { g with tail := max g.tail (unit + 16 - ringPages k), due := false } ∧ u.ledger = s.ledger ∧ ledgerOnly s u))

namespace Sys2Proof

/-- A body that R469 permits for its type: ACTIVITY, CARD, or an EVENT of the recorder host (R466, R468). -/
def inputBody (t : Nat) (b : List Byte) : Prop :=
  (t = rtACTIVITY ∧ b.length = 4 ∧ fieldLe b 0 1 ≤ 1 ∧ fieldLe b 1 1 ≤ 4 ∧ fieldLe b 2 1 ≤ 1 ∧ fieldLe b 3 1 = 0)
  ∨ (t = rtCARD ∧ b.length = 28 ∧ fieldLe b 0 1 ≤ 1 ∧ 1 ≤ fieldLe b 1 1 ∧ fieldLe b 1 1 ≤ 2 ∧ fieldLe b 2 2 = 0)
  ∨ (t = rtEVENT ∧ b.length = 8 ∧ 0x8000 ≤ fieldLe b 0 2)

/-- A LEDG command was refused: the reason stands and nothing else has changed. -/
def ledgRefused (s : State) (code : Nat) : State := s.refuse pgLEDG code ledgCmdOff

end Sys2Proof

/-- FREEZE, THAW, LEDG_INPUT, READ_PAGE, EXPORT_CHALLENGE, EXPORT_ACK and SET_ODOMETER (R466-R478). -/
def Obligations.LedgerCommands : Prop :=
  (∀ (s : State) (c : Nat), (ledgRefused s c).rd (Hdr.REASON_CODE pgLEDG) = (pgLEDG * 256 + c) % 2 ^ 16
      ∧ sameFieldsBut [Hdr.REASON_CODE pgLEDG, Hdr.REASON_OFFSET pgLEDG] s (ledgRefused s c) ∧ (ledgRefused s c).ledger = s.ledger ∧ sameCfg s (ledgRefused s c)
      ∧ sameStores s (ledgRefused s c))
  ∧ (∀ s : State, s.ready pgLEDG ledgCmdOff = true →
      (s.nvm.frozen = true → exec .freeze s = .next s)
      ∧ (s.nvm.frozen = false → s.active pgLEDG = false ∨ s.ledger.key = none → exec .freeze s = .next (ledgRefused s lgNOT_RECORDING))
      ∧ (∀ k, s.ledger.key = some k → s.nvm.frozen = false → s.active pgLEDG = true →
          (s.brace = true → ∃ t, exec .freeze s = .next t ∧ t.nvm.frozen = false ∧ (t.cmdSlot pgLEDG ledgCmdOff).running = some .freeze
            ∧ s.ledger.journal <+: t.ledger.journal ∧ t.otp = s.otp ∧ t.sram = s.sram ∧ t.time = s.time ∧ sameCfg s t)
          ∧ (s.ledger.journal = [] → s.ledger.committing = false → s.recording = false → s.brace = false → ∃ t, exec .freeze s = .next t ∧ t.nvm.frozen = true
            ∧ (t.cmdSlot pgLEDG ledgCmdOff).running = none ∧ (t.ring 0).isOpen = false ∧ (t.ring 1).isOpen = false
            ∧ ((s.ring 0).isOpen = true → t.ring 0 = { s.ring 0 with head := (s.ring 0).head + 1, off := 0x20, isOpen := false, c0 := (s.ring 0).c, p := pageTag k (s.ring 0).p (s.flashBytes 6 0 (pageAddr 0 (s.ring 0).head) 0xFE0) })
            ∧ ((s.ring 0).isOpen = false → t.ring 0 = s.ring 0) ∧ ((s.ring 1).isOpen = false → t.ring 1 = s.ring 1)
            ∧ t.nvm.exported = s.nvm.exported ∧ t.otp = s.otp ∧ t.sram = s.sram ∧ t.time = s.time ∧ sameCfg s t)
          ∧ (s.ledger.journal ≠ [] → s.brace = false → ∃ t, exec .freeze s = .next t ∧ t.nvm.frozen = false ∧ (t.cmdSlot pgLEDG ledgCmdOff).running = some .freeze
            ∧ t.ledger.committing = true ∧ s.ledger.journal <+: t.ledger.journal ∧ t.otp = s.otp ∧ t.sram = s.sram ∧ t.time = s.time ∧ sameCfg s t)))
  ∧ (∀ s : State, s.ready pgLEDG ledgCmdOff = true → (s.brace = true → exec .thaw s = .next (s.cmdStart pgLEDG ledgCmdOff .thaw))
      ∧ (s.brace = false → ∃ t, exec .thaw s = .next t ∧ t.nvm.frozen = false ∧ t.nvm.exported = false ∧ t.otp = s.otp ∧ t.sram = s.sram ∧ sameCfg s t
      ∧ (∀ m k, s.ledger.stoppedAt = some m → s.ledger.key = some k → s.ledger.stopCause = gapFROZEN → s.ledger.tailLost = false → s.recording = false → s.power.wake = none →
          s.active pgLEDG = true → s.inService = true → s.flag Reg.DBG.DBG_STATE_LEDGER_STOPPED = false → s.ledger.overflow = none → s.journalUsed ≤ 40000 →
          t.recording = true ∧ recorded t rtGAP (State.gapBody gapFROZEN m s.time.mrt))))
  ∧ (∀ (s : State) (a : Nat), s.ready pgLEDG ledgCmdOff = true →
      (State.inSram a 32 = false → exec (.ledgInput a) s = .next (ledgRefused s Reason.FIELD_RANGE))
      ∧ (State.inSram a 32 = true → s.sramLe a 1 ∉ [rtACTIVITY, rtCARD, rtEVENT] → exec (.ledgInput a) s = .next (ledgRefused s Reason.FIELD_RANGE))
      ∧ (let b := s.sramBytes (a + 4) (s.sramLe (a + 1) 1)
       State.inSram a 32 = true → inputBody (s.sramLe a 1) b → s.sramLe (a + 2) 2 = 0 →
          (s.cfg Reg.LEDG.CONFIG_INPUT_STX = 0 → exec (.ledgInput a) s = .next (ledgRefused s lgINPUT_SOURCE))
          ∧ (s.cfg Reg.LEDG.CONFIG_INPUT_STX = 1 → s.recording = false → exec (.ledgInput a) s = .next (ledgRefused s lgNOT_RECORDING))
          ∧ (s.cfg Reg.LEDG.CONFIG_INPUT_STX = 1 → s.recording = true → ∃ t, exec (.ledgInput a) s = .next t ∧ t.otp = s.otp ∧ t.sram = s.sram ∧ t.time = s.time ∧ sameCfg s t
            ∧ (s.ledger.overflow = none → s.journalUsed ≤ 40000 → recorded t (s.sramLe a 1) b))))
  ∧ (∀ (s : State) (a : Nat), s.ready pgLEDG ledgCmdOff = true →
      (let r := s.sramLe a 1
       let q := s.sramLe (a + 4) 4
       let ok := State.inSram a 12 = true ∧ r ≤ 1 ∧ s.sramLe (a + 1) 3 = 0 ∧ State.inSram (s.sramLe (a + 8) 4) 0x1000 = true
       (¬ ok → exec (.readPage a) s = .next (ledgRefused s Reason.FIELD_RANGE))
       ∧ (ok → q < (s.ring r).tail ∨ (s.ring r).head ≤ q → exec (.readPage a) s = .next (ledgRefused s lgPAGE_RANGE))
       ∧ (ok → (s.ring r).tail ≤ q → q < (s.ring r).head → ∃ t, exec (.readPage a) s = .next t ∧ (t.cmdSlot pgLEDG ledgCmdOff).running = some (.readPage a)
          ∧ hasReq t (State.chanRes 6) ⟨.readPage, 3, 3, ledgIssuer, 0, 0, s.time.mrt, s.sramBytes a 12⟩ ∧ sameFieldsBut (chanFields 6) s t ∧ sameCfg s t ∧ sameStores s t)))
  ∧ (∀ (s : State) (r : Req) (corrupt : Bool), (s.sched (State.chanRes 6)).running = some r → r.kind = .readPage →
      ∃ u : State, exec (.channelServiceDone 6 corrupt) s = .next (u.goOn.pumpCh 6)
        ∧ u.sram = Mem.store 0 s.sram (fieldLe r.desc 8 4 + r.pos) (if corrupt then s.freeBytes 512 else s.flashBytes 6 0 (pageAddr (fieldLe r.desc 0 1) (fieldLe r.desc 4 4) + r.pos) 512)
        ∧ (r.pos + 512 < 0x1000 → hasReq u (State.chanRes 6) { r with pos := r.pos + 512, lvl := r.cls })
        ∧ (0x1000 ≤ r.pos + 512 → (u.cmdSlot pgLEDG ledgCmdOff).running = none) ∧ u.flash = s.flash ∧ u.otp = s.otp ∧ u.nvm = s.nvm ∧ sameCfg s u)
  ∧ (∀ s : State, s.ready pgLEDG ledgCmdOff = true →
      (s.rngFailed = false → s.rngServes = true → ∃ t, exec .exportChallenge s = .next t
        ∧ t.ledger = { s.ledger with challenge := some (digestOf 128 (s.draw 16).2, s.time.mrt) }
        ∧ (∀ i, i < 4 → t.rd (Reg.LEDG.EXPORT_CHALLENGE i) = digestWord (digestOf 128 (s.draw 16).2) i)
        ∧ sameFieldsBut (Reg.RNG.RESEED_COUNT :: (List.range 4).map Reg.LEDG.EXPORT_CHALLENGE) s t ∧ t.time = s.time ∧ sameCfg s t ∧ sameStores s t)
      ∧ (s.rngFailed = false → s.rngServes = false →
          exec .exportChallenge s = .next (s.setCmdSlot pgLEDG ledgCmdOff { s.cmdSlot pgLEDG ledgCmdOff with queued := some .exportChallenge }))
      ∧ (s.rngFailed = true → ∃ t, exec .exportChallenge s = .next t ∧ t.rd (Hdr.REASON_CODE pgLEDG) = rngUNAVAILABLE ∧ t.ledger = s.ledger ∧ sameCfg s t ∧ sameStores s t))
  ∧ (∀ (s : State) (m : List Byte),
      (s.nvm.frozen = false → s.ackFault m = some lgNOT_FROZEN)
      ∧ (s.nvm.frozen = true →
          (slice m 0 4 ≠ [0x53, 0x59, 0x58, 0x41] ∨ fieldLe m 4 2 ≠ 1 ∨ allZero (slice m 6 2) = false ∨ allZero (slice m 0x871 3) = false → s.ackFault m = some Reason.FIELD_RANGE)
          ∧ (slice m 0 4 = [0x53, 0x59, 0x58, 0x41] → fieldLe m 4 2 = 1 → allZero (slice m 6 2) = true → allZero (slice m 0x871 3) = true →
              (s.otp.backendHash = 0 ∨ keysHash m 0x70 ≠ s.otp.backendHash → s.ackFault m = some lgEXPORT_AUTH)
              ∧ (s.otp.backendHash ≠ 0 → keysHash m 0x70 = s.otp.backendHash →
                  (bothSigsOk m 0x70 0x874 = false → s.ackFault m = some lgEXPORT_SIGNATURE)
                  ∧ (bothSigsOk m 0x70 0x874 = true →
                      (digestOf 128 (slice m 8 16) ≠ s.otp.serial ∨ s.ledger.challenge.map Prod.fst ≠ some (digestOf 128 (slice m 0x18 16)) →
                        s.ackFault m = some lgEXPORT_CHALLENGE)
                      ∧ (digestOf 128 (slice m 8 16) = s.otp.serial → s.ledger.challenge.map Prod.fst = some (digestOf 128 (slice m 0x18 16)) →
                        s.ackFault m = if fieldLe m 0x28 4 = s.headSeq 0 ∧ fieldLe m 0x2C 4 = s.headSeq 1 ∧ slice m 0x30 32 = s.flashBytes 6 0 (pageAddr 0 (s.headSeq 0) + 0xFE0) 32
                          ∧ slice m 0x50 32 = s.flashBytes 6 0 (pageAddr 1 (s.headSeq 1) + 0xFE0) 32 then none else some lgEXPORT_MISMATCH))))))
  ∧ (∀ (s : State) (a : Nat), s.ready pgLEDG ledgCmdOff = true →
      (State.inSram a State.ackLen = false → exec (.exportAck a) s = .next (ledgRefused s Reason.FIELD_RANGE))
      ∧ (State.inSram a State.ackLen = true → s.pkeFree 2 = false →
          exec (.exportAck a) s = .next ((s.cmdStart pgLEDG ledgCmdOff (.exportAck a)).awaitPke .ledger 2 fwIssuer))
      ∧ (State.inSram a State.ackLen = true → s.pkeFree 2 = true → (∀ c, s.ackFault (s.sramBytes a State.ackLen) = some c → exec (.exportAck a) s = .next (ledgRefused s c))
        ∧ (s.ackFault (s.sramBytes a State.ackLen) = none → ∃ t, exec (.exportAck a) s = .next t ∧ t.nvm = { s.nvm with exported := true }
          ∧ t.ledger = { s.ledger with challenge := none } ∧ t.raised pgLEDG 12 = true ∧ t.time = s.time ∧ t.otp = s.otp ∧ t.sram = s.sram ∧ t.flash = s.flash ∧ sameCfg s t)))
  ∧ (∀ (s : State) (a : Nat), s.ready pgLEDG ledgCmdOff = true →
      (s.lc ≠ lcPROVISIONED → exec (.setOdometer a) s = .next (ledgRefused s Reason.NOT_IN_LIFECYCLE))
      ∧ (s.lc = lcPROVISIONED → State.inSram a 4 = false → exec (.setOdometer a) s = .next (ledgRefused s Reason.FIELD_RANGE))
      ∧ (s.lc = lcPROVISIONED → State.inSram a 4 = true → s.brace = true → exec (.setOdometer a) s = .next (s.cmdStart pgLEDG ledgCmdOff (.setOdometer a)))
      ∧ (s.lc = lcPROVISIONED → State.inSram a 4 = true → s.brace = false →
          (s.recording = false → exec (.setOdometer a) s = .next { s with nvm := { s.nvm with odometer := s.sramLe a 4, odoRem := 0 } })
          ∧ (s.recording = true → ∃ t, exec (.setOdometer a) s = .next t ∧ t.nvm.odometer = s.sramLe a 4 ∧ t.nvm.odoRem = 0 ∧ t.otp = s.otp ∧ t.sram = s.sram
            ∧ t.time = s.time ∧ sameCfg s t ∧ (s.ledger.overflow = none → s.journalUsed ≤ 40000 → recorded t rtDISTANCE (leBytes 4 (s.sramLe a 4) ++ leBytes 4 s.ledger.distPulses)))))
end

