-- ==== Sys2Proof/Laws/Tbl.lean ====
section
/-! SUPPORT. Laws of the sparse tables: a read after a write, and that every operation keeps the canonical form. -/

namespace Sys2Proof.Machine

namespace Tbl

@[simp] theorem get_nil {α : Type} (d : α) (k : Nat) : get d ([] : Tbl α) k = d := rfl

/-- Dropping the keys up to `k` changes no read above `k`. -/
theorem get_after {α : Type} (d : α) (t : Tbl α) (k j : Nat) (h : k < j) : get d (after k t) j = get d t j := by
  induction t with
  | nil => rfl
  | cons e t ih =>
    obtain ⟨k', v⟩ := e
    by_cases hk : k < k'
    · simp [after, hk]
    · have h1 : ¬ j < k' := by omega
      have h2 : j ≠ k' := by omega
      simp [after, hk, get, h1, h2, ih]

/-- What the table reads at `k` once the keys up to `k` are dropped is the default. -/
theorem get_after_le {α : Type} (d : α) (t : Tbl α) (k j : Nat) (h : j ≤ k) : get d (after k t) j = d := by
  induction t with
  | nil => rfl
  | cons e t ih =>
    obtain ⟨k', v⟩ := e
    by_cases hk : k < k'
    · have : j < k' := by omega
      simp [after, hk, get, this]
    · simp [after, hk, ih]

/-- A read after a write of the same key gives the value written. -/
@[simp] theorem get_put_same {α : Type} [DecidableEq α] (d : α) (t : Tbl α) (k : Nat) (v : α) : get d (put d t k v) k = v := by
  induction t with
  | nil => by_cases h : v = d <;> simp [put, h, get]
  | cons e t ih =>
    obtain ⟨k', v'⟩ := e
    rcases Nat.lt_trichotomy k k' with h | h | h
    · by_cases hv : v = d <;> simp [put, h, hv, get]
    · subst h
      by_cases hv : v = d
      · simp [put, hv, get_after_le]
      · simp [put, hv, get]
    · have h1 : ¬ k < k' := by omega
      have h2 : k ≠ k' := by omega
      simp [put, h1, h2, get, ih]

/-- A write leaves every other key alone, whatever default the reader takes. -/
theorem get_put_ne' {α : Type} [DecidableEq α] (d e : α) (t : Tbl α) (k j : Nat) (v : α) (hj : j ≠ k) :
    get e (put d t k v) j = get e t j := by
  induction t with
  | nil =>
    by_cases h : v = d
    · simp [put, h]
    · rcases Nat.lt_trichotomy j k with h1 | h1 | h1
      · simp [put, h, get, h1]
      · exact absurd h1 hj
      · have : ¬ j < k := by omega
        simp [put, h, get, this, hj]
  | cons x t ih =>
    obtain ⟨k', v'⟩ := x
    rcases Nat.lt_trichotomy k k' with h | h | h
    · by_cases hv : v = d
      · simp [put, h, hv]
      · rcases Nat.lt_trichotomy j k with h1 | h1 | h1
        · have : j < k' := by omega
          simp [put, h, hv, get, h1, this]
        · exact absurd h1 hj
        · have h2 : ¬ j < k := by omega
          simp [put, h, hv, get, h2, hj]
    · subst h
      rcases Nat.lt_trichotomy j k with h1 | h1 | h1
      · by_cases hv : v = d
        · simp [put, hv, get, h1, get_after_le e t k j (by omega)]
        · simp [put, hv, get, h1]
      · exact absurd h1 hj
      · have h2 : ¬ j < k := by omega
        by_cases hv : v = d
        · simp [put, hv, get, h2, hj, get_after e t k j h1]
        · simp [put, hv, get, h2, hj]
    · have h1 : ¬ k < k' := by omega
      have h2 : k ≠ k' := by omega
      rcases Nat.lt_trichotomy j k' with h3 | h3 | h3
      · simp [put, h1, h2, get, h3]
      · simp [put, h1, h2, get, h3]
      · have h4 : ¬ j < k' := by omega
        have h5 : j ≠ k' := by omega
        simp [put, h1, h2, get, h4, h5, ih]

/-- A write leaves every other key alone. -/
theorem get_put_ne {α : Type} [DecidableEq α] (d : α) (t : Tbl α) (k j : Nat) (v : α) (hj : j ≠ k) :
    get d (put d t k v) j = get d t j := get_put_ne' d d t k j v hj

/-- A read after a write, by keys. -/
theorem get_put {α : Type} [DecidableEq α] (d : α) (t : Tbl α) (k j : Nat) (v : α) :
    get d (put d t k v) j = if j = k then v else get d t j := by
  by_cases h : j = k
  · subst h; simp
  · simp [h, get_put_ne d t k j v h]

theorem above_mono {α : Type} (k j : Nat) (t : Tbl α) (h : k ≤ j) (ha : above j t = true) : above k t = true := by
  induction t with
  | nil => rfl
  | cons e t ih =>
    simp only [above, Bool.and_eq_true, decide_eq_true_eq] at ha ⊢
    exact ⟨by omega, ih ha.2⟩

theorem above_after {α : Type} (k j : Nat) (t : Tbl α) (ha : above j t = true) : above j (after k t) = true := by
  induction t with
  | nil => rfl
  | cons e t ih =>
    simp only [above, Bool.and_eq_true, decide_eq_true_eq] at ha
    simp only [after]
    split
    · simp only [above, Bool.and_eq_true, decide_eq_true_eq]; exact ha
    · exact ih ha.2

theorem above_self_after {α : Type} (k : Nat) (t : Tbl α) (d : α) [DecidableEq α] (hw : wf d t = true) : above k (after k t) = true := by
  induction t with
  | nil => rfl
  | cons e t ih =>
    simp only [wf, Bool.and_eq_true, decide_eq_true_eq] at hw
    simp only [after]
    split
    · rename_i h
      simp only [above, Bool.and_eq_true, decide_eq_true_eq]
      exact ⟨h, above_mono k e.1 t (by omega) hw.1.2⟩
    · exact ih hw.2

theorem wf_after {α : Type} [DecidableEq α] (d : α) (k : Nat) (t : Tbl α) (hw : wf d t = true) : wf d (after k t) = true := by
  induction t with
  | nil => rfl
  | cons e t ih =>
    simp only [after]
    split
    · exact hw
    · simp only [wf, Bool.and_eq_true, decide_eq_true_eq] at hw
      exact ih hw.2

theorem above_put {α : Type} [DecidableEq α] (d : α) (t : Tbl α) (k j : Nat) (v : α) (h : j < k) (ha : above j t = true) :
    above j (put d t k v) = true := by
  induction t with
  | nil => by_cases hv : v = d <;> simp [put, hv, above, h]
  | cons e t ih =>
    obtain ⟨k', v'⟩ := e
    simp only [above, Bool.and_eq_true, decide_eq_true_eq] at ha
    simp only [put]
    split
    · split <;> simp [above, h, ha.1, ha.2]
    · split
      · split
        · exact above_after k j t ha.2
        · simp [above, h, ha.2]
      · simp [above, ha.1, ih ha.2]

/-- A write keeps the canonical form. -/
theorem wf_put {α : Type} [DecidableEq α] (d : α) (t : Tbl α) (k : Nat) (v : α) (hw : wf d t = true) : wf d (put d t k v) = true := by
  induction t with
  | nil => by_cases hv : v = d <;> simp [put, hv, wf, above]
  | cons e t ih =>
    obtain ⟨k', v'⟩ := e
    have hw' := hw
    simp only [wf, Bool.and_eq_true, decide_eq_true_eq] at hw
    simp only [put]
    split
    · rename_i h
      split
      · exact hw'
      · rename_i hv
        simp only [wf, above, Bool.and_eq_true, decide_eq_true_eq]
        exact ⟨⟨hv, h, above_mono k k' t (by omega) hw.1.2⟩, hw.1, hw.2⟩
    · split
      · rename_i h1 h
        subst h
        split
        · exact wf_after d k t hw.2
        · rename_i hv
          simp only [wf, Bool.and_eq_true, decide_eq_true_eq]
          exact ⟨⟨hv, hw.1.2⟩, hw.2⟩
      · rename_i h1 h2
        simp only [wf, Bool.and_eq_true, decide_eq_true_eq]
        exact ⟨⟨hw.1.1, above_put d t k k' v (by omega) hw.1.2⟩, ih hw.2⟩

theorem above_clear {α : Type} (lo n j : Nat) (t : Tbl α) (ha : above j t = true) : above j (clear lo n t) = true := by
  induction t with
  | nil => rfl
  | cons e t ih =>
    simp only [above, Bool.and_eq_true, decide_eq_true_eq] at ha
    simp only [clear]
    split
    · exact ih ha.2
    · simp [above, ha.1, ih ha.2]

/-- Clearing a range keeps the canonical form. -/
theorem wf_clear {α : Type} [DecidableEq α] (d : α) (lo n : Nat) (t : Tbl α) (hw : wf d t = true) : wf d (clear lo n t) = true := by
  induction t with
  | nil => rfl
  | cons e t ih =>
    simp only [wf, Bool.and_eq_true, decide_eq_true_eq] at hw
    simp only [clear]
    split
    · exact ih hw.2
    · simp only [wf, Bool.and_eq_true, decide_eq_true_eq]
      exact ⟨⟨hw.1.1, above_clear lo n e.1 t hw.1.2⟩, ih hw.2⟩

end Tbl

namespace Mem

/-- Storing bytes keeps the canonical form. -/
theorem wf_store (d : Byte) (bs : List Byte) : ∀ (m : Mem) (a : Nat), Mem.wf d m → Mem.wf d (store d m a bs) := by
  induction bs with
  | nil => intro m a h; exact h
  | cons b bs ih => intro m a h; exact ih _ _ (Tbl.wf_put d m a b h)

/-- A byte outside the stored range reads as before. -/
theorem get_store_outside (d : Byte) (bs : List Byte) : ∀ (m : Mem) (a j : Nat), (j < a ∨ a + bs.length ≤ j) →
    Tbl.get d (store d m a bs) j = Tbl.get d m j := by
  induction bs with
  | nil => intro m a j _; rfl
  | cons b bs ih =>
    intro m a j h
    simp only [List.length_cons] at h
    have h1 : Tbl.get d (store d (Tbl.put d m a b) (a + 1) bs) j = Tbl.get d (Tbl.put d m a b) j := ih _ _ _ (by omega)
    rw [show store d m a (b :: bs) = store d (Tbl.put d m a b) (a + 1) bs from rfl, h1, Tbl.get_put_ne d m a j b (by omega)]

/-- A byte inside the stored range reads as stored. -/
theorem get_store_inside (d : Byte) (bs : List Byte) : ∀ (m : Mem) (a i : Nat) (h : i < bs.length),
    Tbl.get d (store d m a bs) (a + i) = bs[i] := by
  induction bs with
  | nil => intro m a i h; simp at h
  | cons b bs ih =>
    intro m a i h
    rw [show store d m a (b :: bs) = store d (Tbl.put d m a b) (a + 1) bs from rfl]
    cases i with
    | zero =>
      rw [get_store_outside d bs _ _ _ (by omega)]
      simp
    | succ i =>
      have h2 : i < bs.length := by simpa using h
      have := ih (Tbl.put d m a b) (a + 1) i h2
      rw [show a + (i + 1) = a + 1 + i by omega, this]
      simp

/-- Reading back the bytes that were stored. -/
theorem bytes_store (d : Byte) (bs : List Byte) : ∀ (m : Mem) (a : Nat), bytes d (store d m a bs) a bs.length = bs := by
  have key : ∀ (n k : Nat) (m : Mem) (a : Nat), k + n = bs.length → bytes d (store d m a bs) (a + k) n = bs.drop k := by
    intro n
    induction n with
    | zero => intro k m a h; simp [bytes]; omega
    | succ n ih =>
      intro k m a h
      have hk : k < bs.length := by omega
      rw [show bytes d (store d m a bs) (a + k) (n + 1)
        = Tbl.get d (store d m a bs) (a + k) :: bytes d (store d m a bs) (a + k + 1) n from rfl,
        get_store_inside d bs m a k hk, Nat.add_assoc, ih (k + 1) m a (by omega), List.drop_eq_getElem_cons hk]
  intro m a
  simpa using key bs.length 0 m a (by omega)

end Mem

end Sys2Proof.Machine
end

