-- ==== Sys2Proof/Laws/State.lean ====
section
/-! SUPPORT. One lemma per field of State per update, so that no proof unfolds a record update; and the laws of reading a
register field after a write. -/

namespace Sys2Proof.Machine

namespace State

/-! #### The updates made of one field write -/

@[simp] theorem wrb_eq (s : State) (f : Fld) (b : Bool) : s.wrb f b = s.wr f (b2n b) := rfl
@[simp] theorem raise_eq (s : State) (p b : Nat) : s.raise p b = s.wr (Hdr.EVENT p b) 1 := rfl
@[simp] theorem refuse_eq (s : State) (p code off : Nat) :
    s.refuse p code off = (s.wr (Hdr.REASON_CODE p) (p * 256 + code)).wr (Hdr.REASON_OFFSET p) off := rfl
@[simp] theorem cmdLost_eq (s : State) (p : Nat) : s.cmdLost p = (s.wr (Hdr.CMD_LOST p) 1).wr (Hdr.EVENT p 3) 1 := rfl
@[simp] theorem cmdEnd_eq (s : State) (p off : Nat) :
    s.cmdEnd p off = s.setCmdSlot p off ⟨none, (s.cmdSlot p off).queued⟩ := rfl
@[simp] theorem cmdStart_eq (s : State) (p off : Nat) (i : Instr) :
    s.cmdStart p off i = s.setCmdSlot p off ⟨some i, (s.cmdSlot p off).queued⟩ := rfl
@[simp] theorem cmdDrop_eq (s : State) (p off : Nat) : s.cmdDrop p off = s.setCmdSlot p off ⟨none, none⟩ := rfl

/-! #### Fields of the state after one update -/

@[simp] theorem wr_pending (s : State) (f : Fld) (v : Nat) : (s.wr f v).pending = s.pending := rfl
@[simp] theorem wr_free (s : State) (f : Fld) (v : Nat) : (s.wr f v).free = s.free := rfl
@[simp] theorem wr_cmds (s : State) (f : Fld) (v : Nat) : (s.wr f v).cmds = s.cmds := rfl
@[simp] theorem wr_strobe (s : State) (f : Fld) (v : Nat) : (s.wr f v).strobe = s.strobe := rfl
@[simp] theorem wr_enableChecks (s : State) (f : Fld) (v : Nat) : (s.wr f v).enableChecks = s.enableChecks := rfl
@[simp] theorem wr_walker (s : State) (f : Fld) (v : Nat) : (s.wr f v).walker = s.walker := rfl
@[simp] theorem wr_waits (s : State) (f : Fld) (v : Nat) : (s.wr f v).waits = s.waits := rfl
@[simp] theorem wr_bus (s : State) (f : Fld) (v : Nat) : (s.wr f v).bus = s.bus := rfl
@[simp] theorem wr_power (s : State) (f : Fld) (v : Nat) : (s.wr f v).power = s.power := rfl
@[simp] theorem wr_mode (s : State) (f : Fld) (v : Nat) : (s.wr f v).mode = s.mode := rfl
@[simp] theorem wr_otp (s : State) (f : Fld) (v : Nat) : (s.wr f v).otp = s.otp := rfl
@[simp] theorem wr_nvm (s : State) (f : Fld) (v : Nat) : (s.wr f v).nvm = s.nvm := rfl
@[simp] theorem wr_lcs (s : State) (f : Fld) (v : Nat) : (s.wr f v).lcs = s.lcs := rfl
@[simp] theorem wr_dbg (s : State) (f : Fld) (v : Nat) : (s.wr f v).dbg = s.dbg := rfl
@[simp] theorem wr_tap (s : State) (f : Fld) (v : Nat) : (s.wr f v).tap = s.tap := rfl
@[simp] theorem wr_boot (s : State) (f : Fld) (v : Nat) : (s.wr f v).boot = s.boot := rfl
@[simp] theorem wr_cores (s : State) (f : Fld) (v : Nat) : (s.wr f v).cores = s.cores := rfl
@[simp] theorem wr_tcm (s : State) (f : Fld) (v : Nat) : (s.wr f v).tcm = s.tcm := rfl
@[simp] theorem wr_wdtStart (s : State) (f : Fld) (v : Nat) : (s.wr f v).wdtStart = s.wdtStart := rfl
@[simp] theorem wr_clove (s : State) (f : Fld) (v : Nat) : (s.wr f v).clove = s.clove := rfl
@[simp] theorem wr_sram (s : State) (f : Fld) (v : Nat) : (s.wr f v).sram = s.sram := rfl
@[simp] theorem wr_retention (s : State) (f : Fld) (v : Nat) : (s.wr f v).retention = s.retention := rfl
@[simp] theorem wr_flash (s : State) (f : Fld) (v : Nat) : (s.wr f v).flash = s.flash := rfl
@[simp] theorem wr_octal (s : State) (f : Fld) (v : Nat) : (s.wr f v).octal = s.octal := rfl
@[simp] theorem wr_vault (s : State) (f : Fld) (v : Nat) : (s.wr f v).vault = s.vault := rfl
@[simp] theorem wr_dge (s : State) (f : Fld) (v : Nat) : (s.wr f v).dge = s.dge := rfl
@[simp] theorem wr_snp (s : State) (f : Fld) (v : Nat) : (s.wr f v).snp = s.snp := rfl
@[simp] theorem wr_aes (s : State) (f : Fld) (v : Nat) : (s.wr f v).aes = s.aes := rfl
@[simp] theorem wr_pke (s : State) (f : Fld) (v : Nat) : (s.wr f v).pke = s.pke := rfl
@[simp] theorem wr_rng (s : State) (f : Fld) (v : Nat) : (s.wr f v).rng = s.rng := rfl
@[simp] theorem wr_ecdhOut (s : State) (f : Fld) (v : Nat) : (s.wr f v).ecdhOut = s.ecdhOut := rfl
@[simp] theorem wr_ports (s : State) (f : Fld) (v : Nat) : (s.wr f v).ports = s.ports := rfl
@[simp] theorem wr_stages (s : State) (f : Fld) (v : Nat) : (s.wr f v).stages = s.stages := rfl
@[simp] theorem wr_deferred (s : State) (f : Fld) (v : Nat) : (s.wr f v).deferred = s.deferred := rfl
@[simp] theorem wr_hosts (s : State) (f : Fld) (v : Nat) : (s.wr f v).hosts = s.hosts := rfl
@[simp] theorem wr_ldm (s : State) (f : Fld) (v : Nat) : (s.wr f v).ldm = s.ldm := rfl
@[simp] theorem wr_cmp (s : State) (f : Fld) (v : Nat) : (s.wr f v).cmp = s.cmp := rfl
@[simp] theorem wr_scheds (s : State) (f : Fld) (v : Nat) : (s.wr f v).scheds = s.scheds := rfl
@[simp] theorem wr_chans (s : State) (f : Fld) (v : Nat) : (s.wr f v).chans = s.chans := rfl
@[simp] theorem wr_sas (s : State) (f : Fld) (v : Nat) : (s.wr f v).sas = s.sas := rfl
@[simp] theorem wr_lanes (s : State) (f : Fld) (v : Nat) : (s.wr f v).lanes = s.lanes := rfl
@[simp] theorem wr_cans (s : State) (f : Fld) (v : Nat) : (s.wr f v).cans = s.cans := rfl
@[simp] theorem wr_mgp (s : State) (f : Fld) (v : Nat) : (s.wr f v).mgp = s.mgp := rfl
@[simp] theorem wr_stx (s : State) (f : Fld) (v : Nat) : (s.wr f v).stx = s.stx := rfl
@[simp] theorem wr_time (s : State) (f : Fld) (v : Nat) : (s.wr f v).time = s.time := rfl
@[simp] theorem wr_ledger (s : State) (f : Fld) (v : Nat) : (s.wr f v).ledger = s.ledger := rfl
@[simp] theorem wr_cmdSlot (s : State) (f : Fld) (v : Nat) (q o : Nat) : (s.wr f v).cmdSlot q o = s.cmdSlot q o := rfl
@[simp] theorem wr_up (s : State) (f : Fld) (v : Nat) : (s.wr f v).up = s.up := rfl

@[simp] theorem setCfg_pending (s : State) (f : Fld) (v : Nat) : (s.setCfg f v).pending = s.pending := rfl
@[simp] theorem setCfg_free (s : State) (f : Fld) (v : Nat) : (s.setCfg f v).free = s.free := rfl
@[simp] theorem setCfg_cmds (s : State) (f : Fld) (v : Nat) : (s.setCfg f v).cmds = s.cmds := rfl
@[simp] theorem setCfg_strobe (s : State) (f : Fld) (v : Nat) : (s.setCfg f v).strobe = s.strobe := rfl
@[simp] theorem setCfg_enableChecks (s : State) (f : Fld) (v : Nat) : (s.setCfg f v).enableChecks = s.enableChecks := rfl
@[simp] theorem setCfg_walker (s : State) (f : Fld) (v : Nat) : (s.setCfg f v).walker = s.walker := rfl
@[simp] theorem setCfg_waits (s : State) (f : Fld) (v : Nat) : (s.setCfg f v).waits = s.waits := rfl
@[simp] theorem setCfg_bus (s : State) (f : Fld) (v : Nat) : (s.setCfg f v).bus = s.bus := rfl
@[simp] theorem setCfg_power (s : State) (f : Fld) (v : Nat) : (s.setCfg f v).power = s.power := rfl
@[simp] theorem setCfg_mode (s : State) (f : Fld) (v : Nat) : (s.setCfg f v).mode = s.mode := rfl
@[simp] theorem setCfg_otp (s : State) (f : Fld) (v : Nat) : (s.setCfg f v).otp = s.otp := rfl
@[simp] theorem setCfg_nvm (s : State) (f : Fld) (v : Nat) : (s.setCfg f v).nvm = s.nvm := rfl
@[simp] theorem setCfg_lcs (s : State) (f : Fld) (v : Nat) : (s.setCfg f v).lcs = s.lcs := rfl
@[simp] theorem setCfg_dbg (s : State) (f : Fld) (v : Nat) : (s.setCfg f v).dbg = s.dbg := rfl
@[simp] theorem setCfg_tap (s : State) (f : Fld) (v : Nat) : (s.setCfg f v).tap = s.tap := rfl
@[simp] theorem setCfg_boot (s : State) (f : Fld) (v : Nat) : (s.setCfg f v).boot = s.boot := rfl
@[simp] theorem setCfg_cores (s : State) (f : Fld) (v : Nat) : (s.setCfg f v).cores = s.cores := rfl
@[simp] theorem setCfg_tcm (s : State) (f : Fld) (v : Nat) : (s.setCfg f v).tcm = s.tcm := rfl
@[simp] theorem setCfg_wdtStart (s : State) (f : Fld) (v : Nat) : (s.setCfg f v).wdtStart = s.wdtStart := rfl
@[simp] theorem setCfg_clove (s : State) (f : Fld) (v : Nat) : (s.setCfg f v).clove = s.clove := rfl
@[simp] theorem setCfg_sram (s : State) (f : Fld) (v : Nat) : (s.setCfg f v).sram = s.sram := rfl
@[simp] theorem setCfg_retention (s : State) (f : Fld) (v : Nat) : (s.setCfg f v).retention = s.retention := rfl
@[simp] theorem setCfg_flash (s : State) (f : Fld) (v : Nat) : (s.setCfg f v).flash = s.flash := rfl
@[simp] theorem setCfg_octal (s : State) (f : Fld) (v : Nat) : (s.setCfg f v).octal = s.octal := rfl
@[simp] theorem setCfg_vault (s : State) (f : Fld) (v : Nat) : (s.setCfg f v).vault = s.vault := rfl
@[simp] theorem setCfg_dge (s : State) (f : Fld) (v : Nat) : (s.setCfg f v).dge = s.dge := rfl
@[simp] theorem setCfg_snp (s : State) (f : Fld) (v : Nat) : (s.setCfg f v).snp = s.snp := rfl
@[simp] theorem setCfg_aes (s : State) (f : Fld) (v : Nat) : (s.setCfg f v).aes = s.aes := rfl
@[simp] theorem setCfg_pke (s : State) (f : Fld) (v : Nat) : (s.setCfg f v).pke = s.pke := rfl
@[simp] theorem setCfg_rng (s : State) (f : Fld) (v : Nat) : (s.setCfg f v).rng = s.rng := rfl
@[simp] theorem setCfg_ecdhOut (s : State) (f : Fld) (v : Nat) : (s.setCfg f v).ecdhOut = s.ecdhOut := rfl
@[simp] theorem setCfg_ports (s : State) (f : Fld) (v : Nat) : (s.setCfg f v).ports = s.ports := rfl
@[simp] theorem setCfg_stages (s : State) (f : Fld) (v : Nat) : (s.setCfg f v).stages = s.stages := rfl
@[simp] theorem setCfg_deferred (s : State) (f : Fld) (v : Nat) : (s.setCfg f v).deferred = s.deferred := rfl
@[simp] theorem setCfg_hosts (s : State) (f : Fld) (v : Nat) : (s.setCfg f v).hosts = s.hosts := rfl
@[simp] theorem setCfg_ldm (s : State) (f : Fld) (v : Nat) : (s.setCfg f v).ldm = s.ldm := rfl
@[simp] theorem setCfg_cmp (s : State) (f : Fld) (v : Nat) : (s.setCfg f v).cmp = s.cmp := rfl
@[simp] theorem setCfg_scheds (s : State) (f : Fld) (v : Nat) : (s.setCfg f v).scheds = s.scheds := rfl
@[simp] theorem setCfg_chans (s : State) (f : Fld) (v : Nat) : (s.setCfg f v).chans = s.chans := rfl
@[simp] theorem setCfg_sas (s : State) (f : Fld) (v : Nat) : (s.setCfg f v).sas = s.sas := rfl
@[simp] theorem setCfg_lanes (s : State) (f : Fld) (v : Nat) : (s.setCfg f v).lanes = s.lanes := rfl
@[simp] theorem setCfg_cans (s : State) (f : Fld) (v : Nat) : (s.setCfg f v).cans = s.cans := rfl
@[simp] theorem setCfg_mgp (s : State) (f : Fld) (v : Nat) : (s.setCfg f v).mgp = s.mgp := rfl
@[simp] theorem setCfg_stx (s : State) (f : Fld) (v : Nat) : (s.setCfg f v).stx = s.stx := rfl
@[simp] theorem setCfg_time (s : State) (f : Fld) (v : Nat) : (s.setCfg f v).time = s.time := rfl
@[simp] theorem setCfg_ledger (s : State) (f : Fld) (v : Nat) : (s.setCfg f v).ledger = s.ledger := rfl
@[simp] theorem setCfg_cmdSlot (s : State) (f : Fld) (v : Nat) (q o : Nat) : (s.setCfg f v).cmdSlot q o = s.cmdSlot q o := rfl
@[simp] theorem setCfg_up (s : State) (f : Fld) (v : Nat) : (s.setCfg f v).up = s.up := rfl

@[simp] theorem setShadow_pending (s : State) (f : Fld) (v : Nat) : (s.setShadow f v).pending = s.pending := rfl
@[simp] theorem setShadow_free (s : State) (f : Fld) (v : Nat) : (s.setShadow f v).free = s.free := rfl
@[simp] theorem setShadow_cmds (s : State) (f : Fld) (v : Nat) : (s.setShadow f v).cmds = s.cmds := rfl
@[simp] theorem setShadow_strobe (s : State) (f : Fld) (v : Nat) : (s.setShadow f v).strobe = s.strobe := rfl
@[simp] theorem setShadow_enableChecks (s : State) (f : Fld) (v : Nat) : (s.setShadow f v).enableChecks = s.enableChecks := rfl
@[simp] theorem setShadow_walker (s : State) (f : Fld) (v : Nat) : (s.setShadow f v).walker = s.walker := rfl
@[simp] theorem setShadow_waits (s : State) (f : Fld) (v : Nat) : (s.setShadow f v).waits = s.waits := rfl
@[simp] theorem setShadow_bus (s : State) (f : Fld) (v : Nat) : (s.setShadow f v).bus = s.bus := rfl
@[simp] theorem setShadow_power (s : State) (f : Fld) (v : Nat) : (s.setShadow f v).power = s.power := rfl
@[simp] theorem setShadow_mode (s : State) (f : Fld) (v : Nat) : (s.setShadow f v).mode = s.mode := rfl
@[simp] theorem setShadow_otp (s : State) (f : Fld) (v : Nat) : (s.setShadow f v).otp = s.otp := rfl
@[simp] theorem setShadow_nvm (s : State) (f : Fld) (v : Nat) : (s.setShadow f v).nvm = s.nvm := rfl
@[simp] theorem setShadow_lcs (s : State) (f : Fld) (v : Nat) : (s.setShadow f v).lcs = s.lcs := rfl
@[simp] theorem setShadow_dbg (s : State) (f : Fld) (v : Nat) : (s.setShadow f v).dbg = s.dbg := rfl
@[simp] theorem setShadow_tap (s : State) (f : Fld) (v : Nat) : (s.setShadow f v).tap = s.tap := rfl
@[simp] theorem setShadow_boot (s : State) (f : Fld) (v : Nat) : (s.setShadow f v).boot = s.boot := rfl
@[simp] theorem setShadow_cores (s : State) (f : Fld) (v : Nat) : (s.setShadow f v).cores = s.cores := rfl
@[simp] theorem setShadow_tcm (s : State) (f : Fld) (v : Nat) : (s.setShadow f v).tcm = s.tcm := rfl
@[simp] theorem setShadow_wdtStart (s : State) (f : Fld) (v : Nat) : (s.setShadow f v).wdtStart = s.wdtStart := rfl
@[simp] theorem setShadow_clove (s : State) (f : Fld) (v : Nat) : (s.setShadow f v).clove = s.clove := rfl
@[simp] theorem setShadow_sram (s : State) (f : Fld) (v : Nat) : (s.setShadow f v).sram = s.sram := rfl
@[simp] theorem setShadow_retention (s : State) (f : Fld) (v : Nat) : (s.setShadow f v).retention = s.retention := rfl
@[simp] theorem setShadow_flash (s : State) (f : Fld) (v : Nat) : (s.setShadow f v).flash = s.flash := rfl
@[simp] theorem setShadow_octal (s : State) (f : Fld) (v : Nat) : (s.setShadow f v).octal = s.octal := rfl
@[simp] theorem setShadow_vault (s : State) (f : Fld) (v : Nat) : (s.setShadow f v).vault = s.vault := rfl
@[simp] theorem setShadow_dge (s : State) (f : Fld) (v : Nat) : (s.setShadow f v).dge = s.dge := rfl
@[simp] theorem setShadow_snp (s : State) (f : Fld) (v : Nat) : (s.setShadow f v).snp = s.snp := rfl
@[simp] theorem setShadow_aes (s : State) (f : Fld) (v : Nat) : (s.setShadow f v).aes = s.aes := rfl
@[simp] theorem setShadow_pke (s : State) (f : Fld) (v : Nat) : (s.setShadow f v).pke = s.pke := rfl
@[simp] theorem setShadow_rng (s : State) (f : Fld) (v : Nat) : (s.setShadow f v).rng = s.rng := rfl
@[simp] theorem setShadow_ecdhOut (s : State) (f : Fld) (v : Nat) : (s.setShadow f v).ecdhOut = s.ecdhOut := rfl
@[simp] theorem setShadow_ports (s : State) (f : Fld) (v : Nat) : (s.setShadow f v).ports = s.ports := rfl
@[simp] theorem setShadow_stages (s : State) (f : Fld) (v : Nat) : (s.setShadow f v).stages = s.stages := rfl
@[simp] theorem setShadow_deferred (s : State) (f : Fld) (v : Nat) : (s.setShadow f v).deferred = s.deferred := rfl
@[simp] theorem setShadow_hosts (s : State) (f : Fld) (v : Nat) : (s.setShadow f v).hosts = s.hosts := rfl
@[simp] theorem setShadow_ldm (s : State) (f : Fld) (v : Nat) : (s.setShadow f v).ldm = s.ldm := rfl
@[simp] theorem setShadow_cmp (s : State) (f : Fld) (v : Nat) : (s.setShadow f v).cmp = s.cmp := rfl
@[simp] theorem setShadow_scheds (s : State) (f : Fld) (v : Nat) : (s.setShadow f v).scheds = s.scheds := rfl
@[simp] theorem setShadow_chans (s : State) (f : Fld) (v : Nat) : (s.setShadow f v).chans = s.chans := rfl
@[simp] theorem setShadow_sas (s : State) (f : Fld) (v : Nat) : (s.setShadow f v).sas = s.sas := rfl
@[simp] theorem setShadow_lanes (s : State) (f : Fld) (v : Nat) : (s.setShadow f v).lanes = s.lanes := rfl
@[simp] theorem setShadow_cans (s : State) (f : Fld) (v : Nat) : (s.setShadow f v).cans = s.cans := rfl
@[simp] theorem setShadow_mgp (s : State) (f : Fld) (v : Nat) : (s.setShadow f v).mgp = s.mgp := rfl
@[simp] theorem setShadow_stx (s : State) (f : Fld) (v : Nat) : (s.setShadow f v).stx = s.stx := rfl
@[simp] theorem setShadow_time (s : State) (f : Fld) (v : Nat) : (s.setShadow f v).time = s.time := rfl
@[simp] theorem setShadow_ledger (s : State) (f : Fld) (v : Nat) : (s.setShadow f v).ledger = s.ledger := rfl
@[simp] theorem setShadow_cmdSlot (s : State) (f : Fld) (v : Nat) (q o : Nat) : (s.setShadow f v).cmdSlot q o = s.cmdSlot q o := rfl
@[simp] theorem setShadow_up (s : State) (f : Fld) (v : Nat) : (s.setShadow f v).up = s.up := rfl

@[simp] theorem setApplied_pending (s : State) (f : Fld) (v : Nat) : (s.setApplied f v).pending = s.pending := rfl
@[simp] theorem setApplied_free (s : State) (f : Fld) (v : Nat) : (s.setApplied f v).free = s.free := rfl
@[simp] theorem setApplied_cmds (s : State) (f : Fld) (v : Nat) : (s.setApplied f v).cmds = s.cmds := rfl
@[simp] theorem setApplied_strobe (s : State) (f : Fld) (v : Nat) : (s.setApplied f v).strobe = s.strobe := rfl
@[simp] theorem setApplied_enableChecks (s : State) (f : Fld) (v : Nat) : (s.setApplied f v).enableChecks = s.enableChecks := rfl
@[simp] theorem setApplied_walker (s : State) (f : Fld) (v : Nat) : (s.setApplied f v).walker = s.walker := rfl
@[simp] theorem setApplied_waits (s : State) (f : Fld) (v : Nat) : (s.setApplied f v).waits = s.waits := rfl
@[simp] theorem setApplied_bus (s : State) (f : Fld) (v : Nat) : (s.setApplied f v).bus = s.bus := rfl
@[simp] theorem setApplied_power (s : State) (f : Fld) (v : Nat) : (s.setApplied f v).power = s.power := rfl
@[simp] theorem setApplied_mode (s : State) (f : Fld) (v : Nat) : (s.setApplied f v).mode = s.mode := rfl
@[simp] theorem setApplied_otp (s : State) (f : Fld) (v : Nat) : (s.setApplied f v).otp = s.otp := rfl
@[simp] theorem setApplied_nvm (s : State) (f : Fld) (v : Nat) : (s.setApplied f v).nvm = s.nvm := rfl
@[simp] theorem setApplied_lcs (s : State) (f : Fld) (v : Nat) : (s.setApplied f v).lcs = s.lcs := rfl
@[simp] theorem setApplied_dbg (s : State) (f : Fld) (v : Nat) : (s.setApplied f v).dbg = s.dbg := rfl
@[simp] theorem setApplied_tap (s : State) (f : Fld) (v : Nat) : (s.setApplied f v).tap = s.tap := rfl
@[simp] theorem setApplied_boot (s : State) (f : Fld) (v : Nat) : (s.setApplied f v).boot = s.boot := rfl
@[simp] theorem setApplied_cores (s : State) (f : Fld) (v : Nat) : (s.setApplied f v).cores = s.cores := rfl
@[simp] theorem setApplied_tcm (s : State) (f : Fld) (v : Nat) : (s.setApplied f v).tcm = s.tcm := rfl
@[simp] theorem setApplied_wdtStart (s : State) (f : Fld) (v : Nat) : (s.setApplied f v).wdtStart = s.wdtStart := rfl
@[simp] theorem setApplied_clove (s : State) (f : Fld) (v : Nat) : (s.setApplied f v).clove = s.clove := rfl
@[simp] theorem setApplied_sram (s : State) (f : Fld) (v : Nat) : (s.setApplied f v).sram = s.sram := rfl
@[simp] theorem setApplied_retention (s : State) (f : Fld) (v : Nat) : (s.setApplied f v).retention = s.retention := rfl
@[simp] theorem setApplied_flash (s : State) (f : Fld) (v : Nat) : (s.setApplied f v).flash = s.flash := rfl
@[simp] theorem setApplied_octal (s : State) (f : Fld) (v : Nat) : (s.setApplied f v).octal = s.octal := rfl
@[simp] theorem setApplied_vault (s : State) (f : Fld) (v : Nat) : (s.setApplied f v).vault = s.vault := rfl
@[simp] theorem setApplied_dge (s : State) (f : Fld) (v : Nat) : (s.setApplied f v).dge = s.dge := rfl
@[simp] theorem setApplied_snp (s : State) (f : Fld) (v : Nat) : (s.setApplied f v).snp = s.snp := rfl
@[simp] theorem setApplied_aes (s : State) (f : Fld) (v : Nat) : (s.setApplied f v).aes = s.aes := rfl
@[simp] theorem setApplied_pke (s : State) (f : Fld) (v : Nat) : (s.setApplied f v).pke = s.pke := rfl
@[simp] theorem setApplied_rng (s : State) (f : Fld) (v : Nat) : (s.setApplied f v).rng = s.rng := rfl
@[simp] theorem setApplied_ecdhOut (s : State) (f : Fld) (v : Nat) : (s.setApplied f v).ecdhOut = s.ecdhOut := rfl
@[simp] theorem setApplied_ports (s : State) (f : Fld) (v : Nat) : (s.setApplied f v).ports = s.ports := rfl
@[simp] theorem setApplied_stages (s : State) (f : Fld) (v : Nat) : (s.setApplied f v).stages = s.stages := rfl
@[simp] theorem setApplied_deferred (s : State) (f : Fld) (v : Nat) : (s.setApplied f v).deferred = s.deferred := rfl
@[simp] theorem setApplied_hosts (s : State) (f : Fld) (v : Nat) : (s.setApplied f v).hosts = s.hosts := rfl
@[simp] theorem setApplied_ldm (s : State) (f : Fld) (v : Nat) : (s.setApplied f v).ldm = s.ldm := rfl
@[simp] theorem setApplied_cmp (s : State) (f : Fld) (v : Nat) : (s.setApplied f v).cmp = s.cmp := rfl
@[simp] theorem setApplied_scheds (s : State) (f : Fld) (v : Nat) : (s.setApplied f v).scheds = s.scheds := rfl
@[simp] theorem setApplied_chans (s : State) (f : Fld) (v : Nat) : (s.setApplied f v).chans = s.chans := rfl
@[simp] theorem setApplied_sas (s : State) (f : Fld) (v : Nat) : (s.setApplied f v).sas = s.sas := rfl
@[simp] theorem setApplied_lanes (s : State) (f : Fld) (v : Nat) : (s.setApplied f v).lanes = s.lanes := rfl
@[simp] theorem setApplied_cans (s : State) (f : Fld) (v : Nat) : (s.setApplied f v).cans = s.cans := rfl
@[simp] theorem setApplied_mgp (s : State) (f : Fld) (v : Nat) : (s.setApplied f v).mgp = s.mgp := rfl
@[simp] theorem setApplied_stx (s : State) (f : Fld) (v : Nat) : (s.setApplied f v).stx = s.stx := rfl
@[simp] theorem setApplied_time (s : State) (f : Fld) (v : Nat) : (s.setApplied f v).time = s.time := rfl
@[simp] theorem setApplied_ledger (s : State) (f : Fld) (v : Nat) : (s.setApplied f v).ledger = s.ledger := rfl
@[simp] theorem setApplied_cmdSlot (s : State) (f : Fld) (v : Nat) (q o : Nat) : (s.setApplied f v).cmdSlot q o = s.cmdSlot q o := rfl
@[simp] theorem setApplied_up (s : State) (f : Fld) (v : Nat) : (s.setApplied f v).up = s.up := rfl

@[simp] theorem setLatch_pending (s : State) (f : Fld) (v : Nat) : (s.setLatch f v).pending = s.pending := rfl
@[simp] theorem setLatch_free (s : State) (f : Fld) (v : Nat) : (s.setLatch f v).free = s.free := rfl
@[simp] theorem setLatch_cmds (s : State) (f : Fld) (v : Nat) : (s.setLatch f v).cmds = s.cmds := rfl
@[simp] theorem setLatch_strobe (s : State) (f : Fld) (v : Nat) : (s.setLatch f v).strobe = s.strobe := rfl
@[simp] theorem setLatch_enableChecks (s : State) (f : Fld) (v : Nat) : (s.setLatch f v).enableChecks = s.enableChecks := rfl
@[simp] theorem setLatch_walker (s : State) (f : Fld) (v : Nat) : (s.setLatch f v).walker = s.walker := rfl
@[simp] theorem setLatch_waits (s : State) (f : Fld) (v : Nat) : (s.setLatch f v).waits = s.waits := rfl
@[simp] theorem setLatch_bus (s : State) (f : Fld) (v : Nat) : (s.setLatch f v).bus = s.bus := rfl
@[simp] theorem setLatch_power (s : State) (f : Fld) (v : Nat) : (s.setLatch f v).power = s.power := rfl
@[simp] theorem setLatch_mode (s : State) (f : Fld) (v : Nat) : (s.setLatch f v).mode = s.mode := rfl
@[simp] theorem setLatch_otp (s : State) (f : Fld) (v : Nat) : (s.setLatch f v).otp = s.otp := rfl
@[simp] theorem setLatch_nvm (s : State) (f : Fld) (v : Nat) : (s.setLatch f v).nvm = s.nvm := rfl
@[simp] theorem setLatch_lcs (s : State) (f : Fld) (v : Nat) : (s.setLatch f v).lcs = s.lcs := rfl
@[simp] theorem setLatch_dbg (s : State) (f : Fld) (v : Nat) : (s.setLatch f v).dbg = s.dbg := rfl
@[simp] theorem setLatch_tap (s : State) (f : Fld) (v : Nat) : (s.setLatch f v).tap = s.tap := rfl
@[simp] theorem setLatch_boot (s : State) (f : Fld) (v : Nat) : (s.setLatch f v).boot = s.boot := rfl
@[simp] theorem setLatch_cores (s : State) (f : Fld) (v : Nat) : (s.setLatch f v).cores = s.cores := rfl
@[simp] theorem setLatch_tcm (s : State) (f : Fld) (v : Nat) : (s.setLatch f v).tcm = s.tcm := rfl
@[simp] theorem setLatch_wdtStart (s : State) (f : Fld) (v : Nat) : (s.setLatch f v).wdtStart = s.wdtStart := rfl
@[simp] theorem setLatch_clove (s : State) (f : Fld) (v : Nat) : (s.setLatch f v).clove = s.clove := rfl
@[simp] theorem setLatch_sram (s : State) (f : Fld) (v : Nat) : (s.setLatch f v).sram = s.sram := rfl
@[simp] theorem setLatch_retention (s : State) (f : Fld) (v : Nat) : (s.setLatch f v).retention = s.retention := rfl
@[simp] theorem setLatch_flash (s : State) (f : Fld) (v : Nat) : (s.setLatch f v).flash = s.flash := rfl
@[simp] theorem setLatch_octal (s : State) (f : Fld) (v : Nat) : (s.setLatch f v).octal = s.octal := rfl
@[simp] theorem setLatch_vault (s : State) (f : Fld) (v : Nat) : (s.setLatch f v).vault = s.vault := rfl
@[simp] theorem setLatch_dge (s : State) (f : Fld) (v : Nat) : (s.setLatch f v).dge = s.dge := rfl
@[simp] theorem setLatch_snp (s : State) (f : Fld) (v : Nat) : (s.setLatch f v).snp = s.snp := rfl
@[simp] theorem setLatch_aes (s : State) (f : Fld) (v : Nat) : (s.setLatch f v).aes = s.aes := rfl
@[simp] theorem setLatch_pke (s : State) (f : Fld) (v : Nat) : (s.setLatch f v).pke = s.pke := rfl
@[simp] theorem setLatch_rng (s : State) (f : Fld) (v : Nat) : (s.setLatch f v).rng = s.rng := rfl
@[simp] theorem setLatch_ecdhOut (s : State) (f : Fld) (v : Nat) : (s.setLatch f v).ecdhOut = s.ecdhOut := rfl
@[simp] theorem setLatch_ports (s : State) (f : Fld) (v : Nat) : (s.setLatch f v).ports = s.ports := rfl
@[simp] theorem setLatch_stages (s : State) (f : Fld) (v : Nat) : (s.setLatch f v).stages = s.stages := rfl
@[simp] theorem setLatch_deferred (s : State) (f : Fld) (v : Nat) : (s.setLatch f v).deferred = s.deferred := rfl
@[simp] theorem setLatch_hosts (s : State) (f : Fld) (v : Nat) : (s.setLatch f v).hosts = s.hosts := rfl
@[simp] theorem setLatch_ldm (s : State) (f : Fld) (v : Nat) : (s.setLatch f v).ldm = s.ldm := rfl
@[simp] theorem setLatch_cmp (s : State) (f : Fld) (v : Nat) : (s.setLatch f v).cmp = s.cmp := rfl
@[simp] theorem setLatch_scheds (s : State) (f : Fld) (v : Nat) : (s.setLatch f v).scheds = s.scheds := rfl
@[simp] theorem setLatch_chans (s : State) (f : Fld) (v : Nat) : (s.setLatch f v).chans = s.chans := rfl
@[simp] theorem setLatch_sas (s : State) (f : Fld) (v : Nat) : (s.setLatch f v).sas = s.sas := rfl
@[simp] theorem setLatch_lanes (s : State) (f : Fld) (v : Nat) : (s.setLatch f v).lanes = s.lanes := rfl
@[simp] theorem setLatch_cans (s : State) (f : Fld) (v : Nat) : (s.setLatch f v).cans = s.cans := rfl
@[simp] theorem setLatch_mgp (s : State) (f : Fld) (v : Nat) : (s.setLatch f v).mgp = s.mgp := rfl
@[simp] theorem setLatch_stx (s : State) (f : Fld) (v : Nat) : (s.setLatch f v).stx = s.stx := rfl
@[simp] theorem setLatch_time (s : State) (f : Fld) (v : Nat) : (s.setLatch f v).time = s.time := rfl
@[simp] theorem setLatch_ledger (s : State) (f : Fld) (v : Nat) : (s.setLatch f v).ledger = s.ledger := rfl
@[simp] theorem setLatch_cmdSlot (s : State) (f : Fld) (v : Nat) (q o : Nat) : (s.setLatch f v).cmdSlot q o = s.cmdSlot q o := rfl
@[simp] theorem setLatch_up (s : State) (f : Fld) (v : Nat) : (s.setLatch f v).up = s.up := rfl

@[simp] theorem setCmdSlot_pending (s : State) (p off : Nat) (c : CmdSlot) : (s.setCmdSlot p off c).pending = s.pending := rfl
@[simp] theorem setCmdSlot_free (s : State) (p off : Nat) (c : CmdSlot) : (s.setCmdSlot p off c).free = s.free := rfl
@[simp] theorem setCmdSlot_regs (s : State) (p off : Nat) (c : CmdSlot) : (s.setCmdSlot p off c).regs = s.regs := rfl
@[simp] theorem setCmdSlot_strobe (s : State) (p off : Nat) (c : CmdSlot) : (s.setCmdSlot p off c).strobe = s.strobe := rfl
@[simp] theorem setCmdSlot_enableChecks (s : State) (p off : Nat) (c : CmdSlot) : (s.setCmdSlot p off c).enableChecks = s.enableChecks := rfl
@[simp] theorem setCmdSlot_walker (s : State) (p off : Nat) (c : CmdSlot) : (s.setCmdSlot p off c).walker = s.walker := rfl
@[simp] theorem setCmdSlot_waits (s : State) (p off : Nat) (c : CmdSlot) : (s.setCmdSlot p off c).waits = s.waits := rfl
@[simp] theorem setCmdSlot_bus (s : State) (p off : Nat) (c : CmdSlot) : (s.setCmdSlot p off c).bus = s.bus := rfl
@[simp] theorem setCmdSlot_power (s : State) (p off : Nat) (c : CmdSlot) : (s.setCmdSlot p off c).power = s.power := rfl
@[simp] theorem setCmdSlot_mode (s : State) (p off : Nat) (c : CmdSlot) : (s.setCmdSlot p off c).mode = s.mode := rfl
@[simp] theorem setCmdSlot_otp (s : State) (p off : Nat) (c : CmdSlot) : (s.setCmdSlot p off c).otp = s.otp := rfl
@[simp] theorem setCmdSlot_nvm (s : State) (p off : Nat) (c : CmdSlot) : (s.setCmdSlot p off c).nvm = s.nvm := rfl
@[simp] theorem setCmdSlot_lcs (s : State) (p off : Nat) (c : CmdSlot) : (s.setCmdSlot p off c).lcs = s.lcs := rfl
@[simp] theorem setCmdSlot_dbg (s : State) (p off : Nat) (c : CmdSlot) : (s.setCmdSlot p off c).dbg = s.dbg := rfl
@[simp] theorem setCmdSlot_tap (s : State) (p off : Nat) (c : CmdSlot) : (s.setCmdSlot p off c).tap = s.tap := rfl
@[simp] theorem setCmdSlot_boot (s : State) (p off : Nat) (c : CmdSlot) : (s.setCmdSlot p off c).boot = s.boot := rfl
@[simp] theorem setCmdSlot_cores (s : State) (p off : Nat) (c : CmdSlot) : (s.setCmdSlot p off c).cores = s.cores := rfl
@[simp] theorem setCmdSlot_tcm (s : State) (p off : Nat) (c : CmdSlot) : (s.setCmdSlot p off c).tcm = s.tcm := rfl
@[simp] theorem setCmdSlot_wdtStart (s : State) (p off : Nat) (c : CmdSlot) : (s.setCmdSlot p off c).wdtStart = s.wdtStart := rfl
@[simp] theorem setCmdSlot_clove (s : State) (p off : Nat) (c : CmdSlot) : (s.setCmdSlot p off c).clove = s.clove := rfl
@[simp] theorem setCmdSlot_sram (s : State) (p off : Nat) (c : CmdSlot) : (s.setCmdSlot p off c).sram = s.sram := rfl
@[simp] theorem setCmdSlot_retention (s : State) (p off : Nat) (c : CmdSlot) : (s.setCmdSlot p off c).retention = s.retention := rfl
@[simp] theorem setCmdSlot_flash (s : State) (p off : Nat) (c : CmdSlot) : (s.setCmdSlot p off c).flash = s.flash := rfl
@[simp] theorem setCmdSlot_octal (s : State) (p off : Nat) (c : CmdSlot) : (s.setCmdSlot p off c).octal = s.octal := rfl
@[simp] theorem setCmdSlot_vault (s : State) (p off : Nat) (c : CmdSlot) : (s.setCmdSlot p off c).vault = s.vault := rfl
@[simp] theorem setCmdSlot_dge (s : State) (p off : Nat) (c : CmdSlot) : (s.setCmdSlot p off c).dge = s.dge := rfl
@[simp] theorem setCmdSlot_snp (s : State) (p off : Nat) (c : CmdSlot) : (s.setCmdSlot p off c).snp = s.snp := rfl
@[simp] theorem setCmdSlot_aes (s : State) (p off : Nat) (c : CmdSlot) : (s.setCmdSlot p off c).aes = s.aes := rfl
@[simp] theorem setCmdSlot_pke (s : State) (p off : Nat) (c : CmdSlot) : (s.setCmdSlot p off c).pke = s.pke := rfl
@[simp] theorem setCmdSlot_rng (s : State) (p off : Nat) (c : CmdSlot) : (s.setCmdSlot p off c).rng = s.rng := rfl
@[simp] theorem setCmdSlot_ecdhOut (s : State) (p off : Nat) (c : CmdSlot) : (s.setCmdSlot p off c).ecdhOut = s.ecdhOut := rfl
@[simp] theorem setCmdSlot_ports (s : State) (p off : Nat) (c : CmdSlot) : (s.setCmdSlot p off c).ports = s.ports := rfl
@[simp] theorem setCmdSlot_stages (s : State) (p off : Nat) (c : CmdSlot) : (s.setCmdSlot p off c).stages = s.stages := rfl
@[simp] theorem setCmdSlot_deferred (s : State) (p off : Nat) (c : CmdSlot) : (s.setCmdSlot p off c).deferred = s.deferred := rfl
@[simp] theorem setCmdSlot_hosts (s : State) (p off : Nat) (c : CmdSlot) : (s.setCmdSlot p off c).hosts = s.hosts := rfl
@[simp] theorem setCmdSlot_ldm (s : State) (p off : Nat) (c : CmdSlot) : (s.setCmdSlot p off c).ldm = s.ldm := rfl
@[simp] theorem setCmdSlot_cmp (s : State) (p off : Nat) (c : CmdSlot) : (s.setCmdSlot p off c).cmp = s.cmp := rfl
@[simp] theorem setCmdSlot_scheds (s : State) (p off : Nat) (c : CmdSlot) : (s.setCmdSlot p off c).scheds = s.scheds := rfl
@[simp] theorem setCmdSlot_chans (s : State) (p off : Nat) (c : CmdSlot) : (s.setCmdSlot p off c).chans = s.chans := rfl
@[simp] theorem setCmdSlot_sas (s : State) (p off : Nat) (c : CmdSlot) : (s.setCmdSlot p off c).sas = s.sas := rfl
@[simp] theorem setCmdSlot_lanes (s : State) (p off : Nat) (c : CmdSlot) : (s.setCmdSlot p off c).lanes = s.lanes := rfl
@[simp] theorem setCmdSlot_cans (s : State) (p off : Nat) (c : CmdSlot) : (s.setCmdSlot p off c).cans = s.cans := rfl
@[simp] theorem setCmdSlot_mgp (s : State) (p off : Nat) (c : CmdSlot) : (s.setCmdSlot p off c).mgp = s.mgp := rfl
@[simp] theorem setCmdSlot_stx (s : State) (p off : Nat) (c : CmdSlot) : (s.setCmdSlot p off c).stx = s.stx := rfl
@[simp] theorem setCmdSlot_time (s : State) (p off : Nat) (c : CmdSlot) : (s.setCmdSlot p off c).time = s.time := rfl
@[simp] theorem setCmdSlot_ledger (s : State) (p off : Nat) (c : CmdSlot) : (s.setCmdSlot p off c).ledger = s.ledger := rfl
@[simp] theorem setCmdSlot_rd (s : State) (p off : Nat) (c : CmdSlot) (f : Fld) : (s.setCmdSlot p off c).rd f = s.rd f := rfl
@[simp] theorem setCmdSlot_cfg (s : State) (p off : Nat) (c : CmdSlot) (f : Fld) : (s.setCmdSlot p off c).cfg f = s.cfg f := rfl
@[simp] theorem setCmdSlot_shadowOf (s : State) (p off : Nat) (c : CmdSlot) (f : Fld) : (s.setCmdSlot p off c).shadowOf f = s.shadowOf f := rfl
@[simp] theorem setCmdSlot_appliedOf (s : State) (p off : Nat) (c : CmdSlot) (f : Fld) : (s.setCmdSlot p off c).appliedOf f = s.appliedOf f := rfl
@[simp] theorem setCmdSlot_latchOf (s : State) (p off : Nat) (c : CmdSlot) (f : Fld) : (s.setCmdSlot p off c).latchOf f = s.latchOf f := rfl
@[simp] theorem setCmdSlot_flag (s : State) (p off : Nat) (c : CmdSlot) (f : Fld) : (s.setCmdSlot p off c).flag f = s.flag f := rfl
@[simp] theorem setCmdSlot_cfgb (s : State) (p off : Nat) (c : CmdSlot) (f : Fld) : (s.setCmdSlot p off c).cfgb f = s.cfgb f := rfl
@[simp] theorem setCmdSlot_enabled (s : State) (p off : Nat) (c : CmdSlot) (q : Nat) : (s.setCmdSlot p off c).enabled q = s.enabled q := rfl
@[simp] theorem setCmdSlot_active (s : State) (p off : Nat) (c : CmdSlot) (q : Nat) : (s.setCmdSlot p off c).active q = s.active q := rfl
@[simp] theorem setCmdSlot_up (s : State) (p off : Nat) (c : CmdSlot) : (s.setCmdSlot p off c).up = s.up := rfl

@[simp] theorem spend_pending (s : State) (n : Nat) : (s.spend n).pending = s.pending := rfl
@[simp] theorem spend_regs (s : State) (n : Nat) : (s.spend n).regs = s.regs := rfl
@[simp] theorem spend_cmds (s : State) (n : Nat) : (s.spend n).cmds = s.cmds := rfl
@[simp] theorem spend_strobe (s : State) (n : Nat) : (s.spend n).strobe = s.strobe := rfl
@[simp] theorem spend_enableChecks (s : State) (n : Nat) : (s.spend n).enableChecks = s.enableChecks := rfl
@[simp] theorem spend_walker (s : State) (n : Nat) : (s.spend n).walker = s.walker := rfl
@[simp] theorem spend_waits (s : State) (n : Nat) : (s.spend n).waits = s.waits := rfl
@[simp] theorem spend_bus (s : State) (n : Nat) : (s.spend n).bus = s.bus := rfl
@[simp] theorem spend_power (s : State) (n : Nat) : (s.spend n).power = s.power := rfl
@[simp] theorem spend_mode (s : State) (n : Nat) : (s.spend n).mode = s.mode := rfl
@[simp] theorem spend_otp (s : State) (n : Nat) : (s.spend n).otp = s.otp := rfl
@[simp] theorem spend_nvm (s : State) (n : Nat) : (s.spend n).nvm = s.nvm := rfl
@[simp] theorem spend_lcs (s : State) (n : Nat) : (s.spend n).lcs = s.lcs := rfl
@[simp] theorem spend_dbg (s : State) (n : Nat) : (s.spend n).dbg = s.dbg := rfl
@[simp] theorem spend_tap (s : State) (n : Nat) : (s.spend n).tap = s.tap := rfl
@[simp] theorem spend_boot (s : State) (n : Nat) : (s.spend n).boot = s.boot := rfl
@[simp] theorem spend_cores (s : State) (n : Nat) : (s.spend n).cores = s.cores := rfl
@[simp] theorem spend_tcm (s : State) (n : Nat) : (s.spend n).tcm = s.tcm := rfl
@[simp] theorem spend_wdtStart (s : State) (n : Nat) : (s.spend n).wdtStart = s.wdtStart := rfl
@[simp] theorem spend_clove (s : State) (n : Nat) : (s.spend n).clove = s.clove := rfl
@[simp] theorem spend_sram (s : State) (n : Nat) : (s.spend n).sram = s.sram := rfl
@[simp] theorem spend_retention (s : State) (n : Nat) : (s.spend n).retention = s.retention := rfl
@[simp] theorem spend_flash (s : State) (n : Nat) : (s.spend n).flash = s.flash := rfl
@[simp] theorem spend_octal (s : State) (n : Nat) : (s.spend n).octal = s.octal := rfl
@[simp] theorem spend_vault (s : State) (n : Nat) : (s.spend n).vault = s.vault := rfl
@[simp] theorem spend_dge (s : State) (n : Nat) : (s.spend n).dge = s.dge := rfl
@[simp] theorem spend_snp (s : State) (n : Nat) : (s.spend n).snp = s.snp := rfl
@[simp] theorem spend_aes (s : State) (n : Nat) : (s.spend n).aes = s.aes := rfl
@[simp] theorem spend_pke (s : State) (n : Nat) : (s.spend n).pke = s.pke := rfl
@[simp] theorem spend_rng (s : State) (n : Nat) : (s.spend n).rng = s.rng := rfl
@[simp] theorem spend_ecdhOut (s : State) (n : Nat) : (s.spend n).ecdhOut = s.ecdhOut := rfl
@[simp] theorem spend_ports (s : State) (n : Nat) : (s.spend n).ports = s.ports := rfl
@[simp] theorem spend_stages (s : State) (n : Nat) : (s.spend n).stages = s.stages := rfl
@[simp] theorem spend_deferred (s : State) (n : Nat) : (s.spend n).deferred = s.deferred := rfl
@[simp] theorem spend_hosts (s : State) (n : Nat) : (s.spend n).hosts = s.hosts := rfl
@[simp] theorem spend_ldm (s : State) (n : Nat) : (s.spend n).ldm = s.ldm := rfl
@[simp] theorem spend_cmp (s : State) (n : Nat) : (s.spend n).cmp = s.cmp := rfl
@[simp] theorem spend_scheds (s : State) (n : Nat) : (s.spend n).scheds = s.scheds := rfl
@[simp] theorem spend_chans (s : State) (n : Nat) : (s.spend n).chans = s.chans := rfl
@[simp] theorem spend_sas (s : State) (n : Nat) : (s.spend n).sas = s.sas := rfl
@[simp] theorem spend_lanes (s : State) (n : Nat) : (s.spend n).lanes = s.lanes := rfl
@[simp] theorem spend_cans (s : State) (n : Nat) : (s.spend n).cans = s.cans := rfl
@[simp] theorem spend_mgp (s : State) (n : Nat) : (s.spend n).mgp = s.mgp := rfl
@[simp] theorem spend_stx (s : State) (n : Nat) : (s.spend n).stx = s.stx := rfl
@[simp] theorem spend_time (s : State) (n : Nat) : (s.spend n).time = s.time := rfl
@[simp] theorem spend_ledger (s : State) (n : Nat) : (s.spend n).ledger = s.ledger := rfl
@[simp] theorem spend_rd (s : State) (n : Nat) (f : Fld) : (s.spend n).rd f = s.rd f := rfl
@[simp] theorem spend_cfg (s : State) (n : Nat) (f : Fld) : (s.spend n).cfg f = s.cfg f := rfl
@[simp] theorem spend_shadowOf (s : State) (n : Nat) (f : Fld) : (s.spend n).shadowOf f = s.shadowOf f := rfl
@[simp] theorem spend_appliedOf (s : State) (n : Nat) (f : Fld) : (s.spend n).appliedOf f = s.appliedOf f := rfl
@[simp] theorem spend_latchOf (s : State) (n : Nat) (f : Fld) : (s.spend n).latchOf f = s.latchOf f := rfl
@[simp] theorem spend_flag (s : State) (n : Nat) (f : Fld) : (s.spend n).flag f = s.flag f := rfl
@[simp] theorem spend_cfgb (s : State) (n : Nat) (f : Fld) : (s.spend n).cfgb f = s.cfgb f := rfl
@[simp] theorem spend_enabled (s : State) (n : Nat) (p : Nat) : (s.spend n).enabled p = s.enabled p := rfl
@[simp] theorem spend_active (s : State) (n : Nat) (p : Nat) : (s.spend n).active p = s.active p := rfl
@[simp] theorem spend_cmdSlot (s : State) (n : Nat) (q o : Nat) : (s.spend n).cmdSlot q o = s.cmdSlot q o := rfl
@[simp] theorem spend_up (s : State) (n : Nat) : (s.spend n).up = s.up := rfl

@[simp] theorem sramStore_pending (s : State) (a : Nat) (bs : List Byte) : (s.sramStore a bs).pending = s.pending := rfl
@[simp] theorem sramStore_free (s : State) (a : Nat) (bs : List Byte) : (s.sramStore a bs).free = s.free := rfl
@[simp] theorem sramStore_regs (s : State) (a : Nat) (bs : List Byte) : (s.sramStore a bs).regs = s.regs := rfl
@[simp] theorem sramStore_cmds (s : State) (a : Nat) (bs : List Byte) : (s.sramStore a bs).cmds = s.cmds := rfl
@[simp] theorem sramStore_strobe (s : State) (a : Nat) (bs : List Byte) : (s.sramStore a bs).strobe = s.strobe := rfl
@[simp] theorem sramStore_enableChecks (s : State) (a : Nat) (bs : List Byte) : (s.sramStore a bs).enableChecks = s.enableChecks := rfl
@[simp] theorem sramStore_walker (s : State) (a : Nat) (bs : List Byte) : (s.sramStore a bs).walker = s.walker := rfl
@[simp] theorem sramStore_waits (s : State) (a : Nat) (bs : List Byte) : (s.sramStore a bs).waits = s.waits := rfl
@[simp] theorem sramStore_bus (s : State) (a : Nat) (bs : List Byte) : (s.sramStore a bs).bus = s.bus := rfl
@[simp] theorem sramStore_power (s : State) (a : Nat) (bs : List Byte) : (s.sramStore a bs).power = s.power := rfl
@[simp] theorem sramStore_mode (s : State) (a : Nat) (bs : List Byte) : (s.sramStore a bs).mode = s.mode := rfl
@[simp] theorem sramStore_otp (s : State) (a : Nat) (bs : List Byte) : (s.sramStore a bs).otp = s.otp := rfl
@[simp] theorem sramStore_nvm (s : State) (a : Nat) (bs : List Byte) : (s.sramStore a bs).nvm = s.nvm := rfl
@[simp] theorem sramStore_lcs (s : State) (a : Nat) (bs : List Byte) : (s.sramStore a bs).lcs = s.lcs := rfl
@[simp] theorem sramStore_dbg (s : State) (a : Nat) (bs : List Byte) : (s.sramStore a bs).dbg = s.dbg := rfl
@[simp] theorem sramStore_tap (s : State) (a : Nat) (bs : List Byte) : (s.sramStore a bs).tap = s.tap := rfl
@[simp] theorem sramStore_boot (s : State) (a : Nat) (bs : List Byte) : (s.sramStore a bs).boot = s.boot := rfl
@[simp] theorem sramStore_cores (s : State) (a : Nat) (bs : List Byte) : (s.sramStore a bs).cores = s.cores := rfl
@[simp] theorem sramStore_tcm (s : State) (a : Nat) (bs : List Byte) : (s.sramStore a bs).tcm = s.tcm := rfl
@[simp] theorem sramStore_wdtStart (s : State) (a : Nat) (bs : List Byte) : (s.sramStore a bs).wdtStart = s.wdtStart := rfl
@[simp] theorem sramStore_clove (s : State) (a : Nat) (bs : List Byte) : (s.sramStore a bs).clove = s.clove := rfl
@[simp] theorem sramStore_retention (s : State) (a : Nat) (bs : List Byte) : (s.sramStore a bs).retention = s.retention := rfl
@[simp] theorem sramStore_flash (s : State) (a : Nat) (bs : List Byte) : (s.sramStore a bs).flash = s.flash := rfl
@[simp] theorem sramStore_octal (s : State) (a : Nat) (bs : List Byte) : (s.sramStore a bs).octal = s.octal := rfl
@[simp] theorem sramStore_vault (s : State) (a : Nat) (bs : List Byte) : (s.sramStore a bs).vault = s.vault := rfl
@[simp] theorem sramStore_dge (s : State) (a : Nat) (bs : List Byte) : (s.sramStore a bs).dge = s.dge := rfl
@[simp] theorem sramStore_snp (s : State) (a : Nat) (bs : List Byte) : (s.sramStore a bs).snp = s.snp := rfl
@[simp] theorem sramStore_aes (s : State) (a : Nat) (bs : List Byte) : (s.sramStore a bs).aes = s.aes := rfl
@[simp] theorem sramStore_pke (s : State) (a : Nat) (bs : List Byte) : (s.sramStore a bs).pke = s.pke := rfl
@[simp] theorem sramStore_rng (s : State) (a : Nat) (bs : List Byte) : (s.sramStore a bs).rng = s.rng := rfl
@[simp] theorem sramStore_ecdhOut (s : State) (a : Nat) (bs : List Byte) : (s.sramStore a bs).ecdhOut = s.ecdhOut := rfl
@[simp] theorem sramStore_ports (s : State) (a : Nat) (bs : List Byte) : (s.sramStore a bs).ports = s.ports := rfl
@[simp] theorem sramStore_stages (s : State) (a : Nat) (bs : List Byte) : (s.sramStore a bs).stages = s.stages := rfl
@[simp] theorem sramStore_deferred (s : State) (a : Nat) (bs : List Byte) : (s.sramStore a bs).deferred = s.deferred := rfl
@[simp] theorem sramStore_hosts (s : State) (a : Nat) (bs : List Byte) : (s.sramStore a bs).hosts = s.hosts := rfl
@[simp] theorem sramStore_ldm (s : State) (a : Nat) (bs : List Byte) : (s.sramStore a bs).ldm = s.ldm := rfl
@[simp] theorem sramStore_cmp (s : State) (a : Nat) (bs : List Byte) : (s.sramStore a bs).cmp = s.cmp := rfl
@[simp] theorem sramStore_scheds (s : State) (a : Nat) (bs : List Byte) : (s.sramStore a bs).scheds = s.scheds := rfl
@[simp] theorem sramStore_chans (s : State) (a : Nat) (bs : List Byte) : (s.sramStore a bs).chans = s.chans := rfl
@[simp] theorem sramStore_sas (s : State) (a : Nat) (bs : List Byte) : (s.sramStore a bs).sas = s.sas := rfl
@[simp] theorem sramStore_lanes (s : State) (a : Nat) (bs : List Byte) : (s.sramStore a bs).lanes = s.lanes := rfl
@[simp] theorem sramStore_cans (s : State) (a : Nat) (bs : List Byte) : (s.sramStore a bs).cans = s.cans := rfl
@[simp] theorem sramStore_mgp (s : State) (a : Nat) (bs : List Byte) : (s.sramStore a bs).mgp = s.mgp := rfl
@[simp] theorem sramStore_stx (s : State) (a : Nat) (bs : List Byte) : (s.sramStore a bs).stx = s.stx := rfl
@[simp] theorem sramStore_time (s : State) (a : Nat) (bs : List Byte) : (s.sramStore a bs).time = s.time := rfl
@[simp] theorem sramStore_ledger (s : State) (a : Nat) (bs : List Byte) : (s.sramStore a bs).ledger = s.ledger := rfl
@[simp] theorem sramStore_rd (s : State) (a : Nat) (bs : List Byte) (f : Fld) : (s.sramStore a bs).rd f = s.rd f := rfl
@[simp] theorem sramStore_cfg (s : State) (a : Nat) (bs : List Byte) (f : Fld) : (s.sramStore a bs).cfg f = s.cfg f := rfl
@[simp] theorem sramStore_shadowOf (s : State) (a : Nat) (bs : List Byte) (f : Fld) : (s.sramStore a bs).shadowOf f = s.shadowOf f := rfl
@[simp] theorem sramStore_appliedOf (s : State) (a : Nat) (bs : List Byte) (f : Fld) : (s.sramStore a bs).appliedOf f = s.appliedOf f := rfl
@[simp] theorem sramStore_latchOf (s : State) (a : Nat) (bs : List Byte) (f : Fld) : (s.sramStore a bs).latchOf f = s.latchOf f := rfl
@[simp] theorem sramStore_flag (s : State) (a : Nat) (bs : List Byte) (f : Fld) : (s.sramStore a bs).flag f = s.flag f := rfl
@[simp] theorem sramStore_cfgb (s : State) (a : Nat) (bs : List Byte) (f : Fld) : (s.sramStore a bs).cfgb f = s.cfgb f := rfl
@[simp] theorem sramStore_enabled (s : State) (a : Nat) (bs : List Byte) (p : Nat) : (s.sramStore a bs).enabled p = s.enabled p := rfl
@[simp] theorem sramStore_active (s : State) (a : Nat) (bs : List Byte) (p : Nat) : (s.sramStore a bs).active p = s.active p := rfl
@[simp] theorem sramStore_cmdSlot (s : State) (a : Nat) (bs : List Byte) (q o : Nat) : (s.sramStore a bs).cmdSlot q o = s.cmdSlot q o := rfl
@[simp] theorem sramStore_up (s : State) (a : Nat) (bs : List Byte) : (s.sramStore a bs).up = s.up := rfl

@[simp] theorem sramClear_pending (s : State) (a n : Nat) : (s.sramClear a n).pending = s.pending := rfl
@[simp] theorem sramClear_free (s : State) (a n : Nat) : (s.sramClear a n).free = s.free := rfl
@[simp] theorem sramClear_regs (s : State) (a n : Nat) : (s.sramClear a n).regs = s.regs := rfl
@[simp] theorem sramClear_cmds (s : State) (a n : Nat) : (s.sramClear a n).cmds = s.cmds := rfl
@[simp] theorem sramClear_strobe (s : State) (a n : Nat) : (s.sramClear a n).strobe = s.strobe := rfl
@[simp] theorem sramClear_enableChecks (s : State) (a n : Nat) : (s.sramClear a n).enableChecks = s.enableChecks := rfl
@[simp] theorem sramClear_walker (s : State) (a n : Nat) : (s.sramClear a n).walker = s.walker := rfl
@[simp] theorem sramClear_waits (s : State) (a n : Nat) : (s.sramClear a n).waits = s.waits := rfl
@[simp] theorem sramClear_bus (s : State) (a n : Nat) : (s.sramClear a n).bus = s.bus := rfl
@[simp] theorem sramClear_power (s : State) (a n : Nat) : (s.sramClear a n).power = s.power := rfl
@[simp] theorem sramClear_mode (s : State) (a n : Nat) : (s.sramClear a n).mode = s.mode := rfl
@[simp] theorem sramClear_otp (s : State) (a n : Nat) : (s.sramClear a n).otp = s.otp := rfl
@[simp] theorem sramClear_nvm (s : State) (a n : Nat) : (s.sramClear a n).nvm = s.nvm := rfl
@[simp] theorem sramClear_lcs (s : State) (a n : Nat) : (s.sramClear a n).lcs = s.lcs := rfl
@[simp] theorem sramClear_dbg (s : State) (a n : Nat) : (s.sramClear a n).dbg = s.dbg := rfl
@[simp] theorem sramClear_tap (s : State) (a n : Nat) : (s.sramClear a n).tap = s.tap := rfl
@[simp] theorem sramClear_boot (s : State) (a n : Nat) : (s.sramClear a n).boot = s.boot := rfl
@[simp] theorem sramClear_cores (s : State) (a n : Nat) : (s.sramClear a n).cores = s.cores := rfl
@[simp] theorem sramClear_tcm (s : State) (a n : Nat) : (s.sramClear a n).tcm = s.tcm := rfl
@[simp] theorem sramClear_wdtStart (s : State) (a n : Nat) : (s.sramClear a n).wdtStart = s.wdtStart := rfl
@[simp] theorem sramClear_clove (s : State) (a n : Nat) : (s.sramClear a n).clove = s.clove := rfl
@[simp] theorem sramClear_retention (s : State) (a n : Nat) : (s.sramClear a n).retention = s.retention := rfl
@[simp] theorem sramClear_flash (s : State) (a n : Nat) : (s.sramClear a n).flash = s.flash := rfl
@[simp] theorem sramClear_octal (s : State) (a n : Nat) : (s.sramClear a n).octal = s.octal := rfl
@[simp] theorem sramClear_vault (s : State) (a n : Nat) : (s.sramClear a n).vault = s.vault := rfl
@[simp] theorem sramClear_dge (s : State) (a n : Nat) : (s.sramClear a n).dge = s.dge := rfl
@[simp] theorem sramClear_snp (s : State) (a n : Nat) : (s.sramClear a n).snp = s.snp := rfl
@[simp] theorem sramClear_aes (s : State) (a n : Nat) : (s.sramClear a n).aes = s.aes := rfl
@[simp] theorem sramClear_pke (s : State) (a n : Nat) : (s.sramClear a n).pke = s.pke := rfl
@[simp] theorem sramClear_rng (s : State) (a n : Nat) : (s.sramClear a n).rng = s.rng := rfl
@[simp] theorem sramClear_ecdhOut (s : State) (a n : Nat) : (s.sramClear a n).ecdhOut = s.ecdhOut := rfl
@[simp] theorem sramClear_ports (s : State) (a n : Nat) : (s.sramClear a n).ports = s.ports := rfl
@[simp] theorem sramClear_stages (s : State) (a n : Nat) : (s.sramClear a n).stages = s.stages := rfl
@[simp] theorem sramClear_deferred (s : State) (a n : Nat) : (s.sramClear a n).deferred = s.deferred := rfl
@[simp] theorem sramClear_hosts (s : State) (a n : Nat) : (s.sramClear a n).hosts = s.hosts := rfl
@[simp] theorem sramClear_ldm (s : State) (a n : Nat) : (s.sramClear a n).ldm = s.ldm := rfl
@[simp] theorem sramClear_cmp (s : State) (a n : Nat) : (s.sramClear a n).cmp = s.cmp := rfl
@[simp] theorem sramClear_scheds (s : State) (a n : Nat) : (s.sramClear a n).scheds = s.scheds := rfl
@[simp] theorem sramClear_chans (s : State) (a n : Nat) : (s.sramClear a n).chans = s.chans := rfl
@[simp] theorem sramClear_sas (s : State) (a n : Nat) : (s.sramClear a n).sas = s.sas := rfl
@[simp] theorem sramClear_lanes (s : State) (a n : Nat) : (s.sramClear a n).lanes = s.lanes := rfl
@[simp] theorem sramClear_cans (s : State) (a n : Nat) : (s.sramClear a n).cans = s.cans := rfl
@[simp] theorem sramClear_mgp (s : State) (a n : Nat) : (s.sramClear a n).mgp = s.mgp := rfl
@[simp] theorem sramClear_stx (s : State) (a n : Nat) : (s.sramClear a n).stx = s.stx := rfl
@[simp] theorem sramClear_time (s : State) (a n : Nat) : (s.sramClear a n).time = s.time := rfl
@[simp] theorem sramClear_ledger (s : State) (a n : Nat) : (s.sramClear a n).ledger = s.ledger := rfl
@[simp] theorem sramClear_rd (s : State) (a n : Nat) (f : Fld) : (s.sramClear a n).rd f = s.rd f := rfl
@[simp] theorem sramClear_cfg (s : State) (a n : Nat) (f : Fld) : (s.sramClear a n).cfg f = s.cfg f := rfl
@[simp] theorem sramClear_shadowOf (s : State) (a n : Nat) (f : Fld) : (s.sramClear a n).shadowOf f = s.shadowOf f := rfl
@[simp] theorem sramClear_appliedOf (s : State) (a n : Nat) (f : Fld) : (s.sramClear a n).appliedOf f = s.appliedOf f := rfl
@[simp] theorem sramClear_latchOf (s : State) (a n : Nat) (f : Fld) : (s.sramClear a n).latchOf f = s.latchOf f := rfl
@[simp] theorem sramClear_flag (s : State) (a n : Nat) (f : Fld) : (s.sramClear a n).flag f = s.flag f := rfl
@[simp] theorem sramClear_cfgb (s : State) (a n : Nat) (f : Fld) : (s.sramClear a n).cfgb f = s.cfgb f := rfl
@[simp] theorem sramClear_enabled (s : State) (a n : Nat) (p : Nat) : (s.sramClear a n).enabled p = s.enabled p := rfl
@[simp] theorem sramClear_active (s : State) (a n : Nat) (p : Nat) : (s.sramClear a n).active p = s.active p := rfl
@[simp] theorem sramClear_cmdSlot (s : State) (a n : Nat) (q o : Nat) : (s.sramClear a n).cmdSlot q o = s.cmdSlot q o := rfl
@[simp] theorem sramClear_up (s : State) (a n : Nat) : (s.sramClear a n).up = s.up := rfl

@[simp] theorem retStore_pending (s : State) (a : Nat) (bs : List Byte) : (s.retStore a bs).pending = s.pending := rfl
@[simp] theorem retStore_free (s : State) (a : Nat) (bs : List Byte) : (s.retStore a bs).free = s.free := rfl
@[simp] theorem retStore_regs (s : State) (a : Nat) (bs : List Byte) : (s.retStore a bs).regs = s.regs := rfl
@[simp] theorem retStore_cmds (s : State) (a : Nat) (bs : List Byte) : (s.retStore a bs).cmds = s.cmds := rfl
@[simp] theorem retStore_strobe (s : State) (a : Nat) (bs : List Byte) : (s.retStore a bs).strobe = s.strobe := rfl
@[simp] theorem retStore_enableChecks (s : State) (a : Nat) (bs : List Byte) : (s.retStore a bs).enableChecks = s.enableChecks := rfl
@[simp] theorem retStore_walker (s : State) (a : Nat) (bs : List Byte) : (s.retStore a bs).walker = s.walker := rfl
@[simp] theorem retStore_waits (s : State) (a : Nat) (bs : List Byte) : (s.retStore a bs).waits = s.waits := rfl
@[simp] theorem retStore_bus (s : State) (a : Nat) (bs : List Byte) : (s.retStore a bs).bus = s.bus := rfl
@[simp] theorem retStore_power (s : State) (a : Nat) (bs : List Byte) : (s.retStore a bs).power = s.power := rfl
@[simp] theorem retStore_mode (s : State) (a : Nat) (bs : List Byte) : (s.retStore a bs).mode = s.mode := rfl
@[simp] theorem retStore_otp (s : State) (a : Nat) (bs : List Byte) : (s.retStore a bs).otp = s.otp := rfl
@[simp] theorem retStore_nvm (s : State) (a : Nat) (bs : List Byte) : (s.retStore a bs).nvm = s.nvm := rfl
@[simp] theorem retStore_lcs (s : State) (a : Nat) (bs : List Byte) : (s.retStore a bs).lcs = s.lcs := rfl
@[simp] theorem retStore_dbg (s : State) (a : Nat) (bs : List Byte) : (s.retStore a bs).dbg = s.dbg := rfl
@[simp] theorem retStore_tap (s : State) (a : Nat) (bs : List Byte) : (s.retStore a bs).tap = s.tap := rfl
@[simp] theorem retStore_boot (s : State) (a : Nat) (bs : List Byte) : (s.retStore a bs).boot = s.boot := rfl
@[simp] theorem retStore_cores (s : State) (a : Nat) (bs : List Byte) : (s.retStore a bs).cores = s.cores := rfl
@[simp] theorem retStore_tcm (s : State) (a : Nat) (bs : List Byte) : (s.retStore a bs).tcm = s.tcm := rfl
@[simp] theorem retStore_wdtStart (s : State) (a : Nat) (bs : List Byte) : (s.retStore a bs).wdtStart = s.wdtStart := rfl
@[simp] theorem retStore_clove (s : State) (a : Nat) (bs : List Byte) : (s.retStore a bs).clove = s.clove := rfl
@[simp] theorem retStore_sram (s : State) (a : Nat) (bs : List Byte) : (s.retStore a bs).sram = s.sram := rfl
@[simp] theorem retStore_flash (s : State) (a : Nat) (bs : List Byte) : (s.retStore a bs).flash = s.flash := rfl
@[simp] theorem retStore_octal (s : State) (a : Nat) (bs : List Byte) : (s.retStore a bs).octal = s.octal := rfl
@[simp] theorem retStore_vault (s : State) (a : Nat) (bs : List Byte) : (s.retStore a bs).vault = s.vault := rfl
@[simp] theorem retStore_dge (s : State) (a : Nat) (bs : List Byte) : (s.retStore a bs).dge = s.dge := rfl
@[simp] theorem retStore_snp (s : State) (a : Nat) (bs : List Byte) : (s.retStore a bs).snp = s.snp := rfl
@[simp] theorem retStore_aes (s : State) (a : Nat) (bs : List Byte) : (s.retStore a bs).aes = s.aes := rfl
@[simp] theorem retStore_pke (s : State) (a : Nat) (bs : List Byte) : (s.retStore a bs).pke = s.pke := rfl
@[simp] theorem retStore_rng (s : State) (a : Nat) (bs : List Byte) : (s.retStore a bs).rng = s.rng := rfl
@[simp] theorem retStore_ecdhOut (s : State) (a : Nat) (bs : List Byte) : (s.retStore a bs).ecdhOut = s.ecdhOut := rfl
@[simp] theorem retStore_ports (s : State) (a : Nat) (bs : List Byte) : (s.retStore a bs).ports = s.ports := rfl
@[simp] theorem retStore_stages (s : State) (a : Nat) (bs : List Byte) : (s.retStore a bs).stages = s.stages := rfl
@[simp] theorem retStore_deferred (s : State) (a : Nat) (bs : List Byte) : (s.retStore a bs).deferred = s.deferred := rfl
@[simp] theorem retStore_hosts (s : State) (a : Nat) (bs : List Byte) : (s.retStore a bs).hosts = s.hosts := rfl
@[simp] theorem retStore_ldm (s : State) (a : Nat) (bs : List Byte) : (s.retStore a bs).ldm = s.ldm := rfl
@[simp] theorem retStore_cmp (s : State) (a : Nat) (bs : List Byte) : (s.retStore a bs).cmp = s.cmp := rfl
@[simp] theorem retStore_scheds (s : State) (a : Nat) (bs : List Byte) : (s.retStore a bs).scheds = s.scheds := rfl
@[simp] theorem retStore_chans (s : State) (a : Nat) (bs : List Byte) : (s.retStore a bs).chans = s.chans := rfl
@[simp] theorem retStore_sas (s : State) (a : Nat) (bs : List Byte) : (s.retStore a bs).sas = s.sas := rfl
@[simp] theorem retStore_lanes (s : State) (a : Nat) (bs : List Byte) : (s.retStore a bs).lanes = s.lanes := rfl
@[simp] theorem retStore_cans (s : State) (a : Nat) (bs : List Byte) : (s.retStore a bs).cans = s.cans := rfl
@[simp] theorem retStore_mgp (s : State) (a : Nat) (bs : List Byte) : (s.retStore a bs).mgp = s.mgp := rfl
@[simp] theorem retStore_stx (s : State) (a : Nat) (bs : List Byte) : (s.retStore a bs).stx = s.stx := rfl
@[simp] theorem retStore_time (s : State) (a : Nat) (bs : List Byte) : (s.retStore a bs).time = s.time := rfl
@[simp] theorem retStore_ledger (s : State) (a : Nat) (bs : List Byte) : (s.retStore a bs).ledger = s.ledger := rfl
@[simp] theorem retStore_rd (s : State) (a : Nat) (bs : List Byte) (f : Fld) : (s.retStore a bs).rd f = s.rd f := rfl
@[simp] theorem retStore_cfg (s : State) (a : Nat) (bs : List Byte) (f : Fld) : (s.retStore a bs).cfg f = s.cfg f := rfl
@[simp] theorem retStore_shadowOf (s : State) (a : Nat) (bs : List Byte) (f : Fld) : (s.retStore a bs).shadowOf f = s.shadowOf f := rfl
@[simp] theorem retStore_appliedOf (s : State) (a : Nat) (bs : List Byte) (f : Fld) : (s.retStore a bs).appliedOf f = s.appliedOf f := rfl
@[simp] theorem retStore_latchOf (s : State) (a : Nat) (bs : List Byte) (f : Fld) : (s.retStore a bs).latchOf f = s.latchOf f := rfl
@[simp] theorem retStore_flag (s : State) (a : Nat) (bs : List Byte) (f : Fld) : (s.retStore a bs).flag f = s.flag f := rfl
@[simp] theorem retStore_cfgb (s : State) (a : Nat) (bs : List Byte) (f : Fld) : (s.retStore a bs).cfgb f = s.cfgb f := rfl
@[simp] theorem retStore_enabled (s : State) (a : Nat) (bs : List Byte) (p : Nat) : (s.retStore a bs).enabled p = s.enabled p := rfl
@[simp] theorem retStore_active (s : State) (a : Nat) (bs : List Byte) (p : Nat) : (s.retStore a bs).active p = s.active p := rfl
@[simp] theorem retStore_cmdSlot (s : State) (a : Nat) (bs : List Byte) (q o : Nat) : (s.retStore a bs).cmdSlot q o = s.cmdSlot q o := rfl
@[simp] theorem retStore_up (s : State) (a : Nat) (bs : List Byte) : (s.retStore a bs).up = s.up := rfl

@[simp] theorem setCan_pending (s : State) (n : Nat) (x : CanPort) : (s.setCan n x).pending = s.pending := rfl
@[simp] theorem setCan_free (s : State) (n : Nat) (x : CanPort) : (s.setCan n x).free = s.free := rfl
@[simp] theorem setCan_regs (s : State) (n : Nat) (x : CanPort) : (s.setCan n x).regs = s.regs := rfl
@[simp] theorem setCan_cmds (s : State) (n : Nat) (x : CanPort) : (s.setCan n x).cmds = s.cmds := rfl
@[simp] theorem setCan_strobe (s : State) (n : Nat) (x : CanPort) : (s.setCan n x).strobe = s.strobe := rfl
@[simp] theorem setCan_enableChecks (s : State) (n : Nat) (x : CanPort) : (s.setCan n x).enableChecks = s.enableChecks := rfl
@[simp] theorem setCan_walker (s : State) (n : Nat) (x : CanPort) : (s.setCan n x).walker = s.walker := rfl
@[simp] theorem setCan_waits (s : State) (n : Nat) (x : CanPort) : (s.setCan n x).waits = s.waits := rfl
@[simp] theorem setCan_bus (s : State) (n : Nat) (x : CanPort) : (s.setCan n x).bus = s.bus := rfl
@[simp] theorem setCan_power (s : State) (n : Nat) (x : CanPort) : (s.setCan n x).power = s.power := rfl
@[simp] theorem setCan_mode (s : State) (n : Nat) (x : CanPort) : (s.setCan n x).mode = s.mode := rfl
@[simp] theorem setCan_otp (s : State) (n : Nat) (x : CanPort) : (s.setCan n x).otp = s.otp := rfl
@[simp] theorem setCan_nvm (s : State) (n : Nat) (x : CanPort) : (s.setCan n x).nvm = s.nvm := rfl
@[simp] theorem setCan_lcs (s : State) (n : Nat) (x : CanPort) : (s.setCan n x).lcs = s.lcs := rfl
@[simp] theorem setCan_dbg (s : State) (n : Nat) (x : CanPort) : (s.setCan n x).dbg = s.dbg := rfl
@[simp] theorem setCan_tap (s : State) (n : Nat) (x : CanPort) : (s.setCan n x).tap = s.tap := rfl
@[simp] theorem setCan_boot (s : State) (n : Nat) (x : CanPort) : (s.setCan n x).boot = s.boot := rfl
@[simp] theorem setCan_cores (s : State) (n : Nat) (x : CanPort) : (s.setCan n x).cores = s.cores := rfl
@[simp] theorem setCan_tcm (s : State) (n : Nat) (x : CanPort) : (s.setCan n x).tcm = s.tcm := rfl
@[simp] theorem setCan_wdtStart (s : State) (n : Nat) (x : CanPort) : (s.setCan n x).wdtStart = s.wdtStart := rfl
@[simp] theorem setCan_clove (s : State) (n : Nat) (x : CanPort) : (s.setCan n x).clove = s.clove := rfl
@[simp] theorem setCan_sram (s : State) (n : Nat) (x : CanPort) : (s.setCan n x).sram = s.sram := rfl
@[simp] theorem setCan_retention (s : State) (n : Nat) (x : CanPort) : (s.setCan n x).retention = s.retention := rfl
@[simp] theorem setCan_flash (s : State) (n : Nat) (x : CanPort) : (s.setCan n x).flash = s.flash := rfl
@[simp] theorem setCan_octal (s : State) (n : Nat) (x : CanPort) : (s.setCan n x).octal = s.octal := rfl
@[simp] theorem setCan_vault (s : State) (n : Nat) (x : CanPort) : (s.setCan n x).vault = s.vault := rfl
@[simp] theorem setCan_dge (s : State) (n : Nat) (x : CanPort) : (s.setCan n x).dge = s.dge := rfl
@[simp] theorem setCan_snp (s : State) (n : Nat) (x : CanPort) : (s.setCan n x).snp = s.snp := rfl
@[simp] theorem setCan_aes (s : State) (n : Nat) (x : CanPort) : (s.setCan n x).aes = s.aes := rfl
@[simp] theorem setCan_pke (s : State) (n : Nat) (x : CanPort) : (s.setCan n x).pke = s.pke := rfl
@[simp] theorem setCan_rng (s : State) (n : Nat) (x : CanPort) : (s.setCan n x).rng = s.rng := rfl
@[simp] theorem setCan_ecdhOut (s : State) (n : Nat) (x : CanPort) : (s.setCan n x).ecdhOut = s.ecdhOut := rfl
@[simp] theorem setCan_ports (s : State) (n : Nat) (x : CanPort) : (s.setCan n x).ports = s.ports := rfl
@[simp] theorem setCan_stages (s : State) (n : Nat) (x : CanPort) : (s.setCan n x).stages = s.stages := rfl
@[simp] theorem setCan_deferred (s : State) (n : Nat) (x : CanPort) : (s.setCan n x).deferred = s.deferred := rfl
@[simp] theorem setCan_hosts (s : State) (n : Nat) (x : CanPort) : (s.setCan n x).hosts = s.hosts := rfl
@[simp] theorem setCan_ldm (s : State) (n : Nat) (x : CanPort) : (s.setCan n x).ldm = s.ldm := rfl
@[simp] theorem setCan_cmp (s : State) (n : Nat) (x : CanPort) : (s.setCan n x).cmp = s.cmp := rfl
@[simp] theorem setCan_scheds (s : State) (n : Nat) (x : CanPort) : (s.setCan n x).scheds = s.scheds := rfl
@[simp] theorem setCan_chans (s : State) (n : Nat) (x : CanPort) : (s.setCan n x).chans = s.chans := rfl
@[simp] theorem setCan_sas (s : State) (n : Nat) (x : CanPort) : (s.setCan n x).sas = s.sas := rfl
@[simp] theorem setCan_lanes (s : State) (n : Nat) (x : CanPort) : (s.setCan n x).lanes = s.lanes := rfl
@[simp] theorem setCan_mgp (s : State) (n : Nat) (x : CanPort) : (s.setCan n x).mgp = s.mgp := rfl
@[simp] theorem setCan_stx (s : State) (n : Nat) (x : CanPort) : (s.setCan n x).stx = s.stx := rfl
@[simp] theorem setCan_time (s : State) (n : Nat) (x : CanPort) : (s.setCan n x).time = s.time := rfl
@[simp] theorem setCan_ledger (s : State) (n : Nat) (x : CanPort) : (s.setCan n x).ledger = s.ledger := rfl
@[simp] theorem setCan_rd (s : State) (n : Nat) (x : CanPort) (f : Fld) : (s.setCan n x).rd f = s.rd f := rfl
@[simp] theorem setCan_cfg (s : State) (n : Nat) (x : CanPort) (f : Fld) : (s.setCan n x).cfg f = s.cfg f := rfl
@[simp] theorem setCan_shadowOf (s : State) (n : Nat) (x : CanPort) (f : Fld) : (s.setCan n x).shadowOf f = s.shadowOf f := rfl
@[simp] theorem setCan_appliedOf (s : State) (n : Nat) (x : CanPort) (f : Fld) : (s.setCan n x).appliedOf f = s.appliedOf f := rfl
@[simp] theorem setCan_latchOf (s : State) (n : Nat) (x : CanPort) (f : Fld) : (s.setCan n x).latchOf f = s.latchOf f := rfl
@[simp] theorem setCan_flag (s : State) (n : Nat) (x : CanPort) (f : Fld) : (s.setCan n x).flag f = s.flag f := rfl
@[simp] theorem setCan_cfgb (s : State) (n : Nat) (x : CanPort) (f : Fld) : (s.setCan n x).cfgb f = s.cfgb f := rfl
@[simp] theorem setCan_enabled (s : State) (n : Nat) (x : CanPort) (p : Nat) : (s.setCan n x).enabled p = s.enabled p := rfl
@[simp] theorem setCan_active (s : State) (n : Nat) (x : CanPort) (p : Nat) : (s.setCan n x).active p = s.active p := rfl
@[simp] theorem setCan_cmdSlot (s : State) (n : Nat) (x : CanPort) (q o : Nat) : (s.setCan n x).cmdSlot q o = s.cmdSlot q o := rfl
@[simp] theorem setCan_up (s : State) (n : Nat) (x : CanPort) : (s.setCan n x).up = s.up := rfl

@[simp] theorem setAes_pending (s : State) (n : Nat) (x : AesSt) : (s.setAes n x).pending = s.pending := rfl
@[simp] theorem setAes_free (s : State) (n : Nat) (x : AesSt) : (s.setAes n x).free = s.free := rfl
@[simp] theorem setAes_regs (s : State) (n : Nat) (x : AesSt) : (s.setAes n x).regs = s.regs := rfl
@[simp] theorem setAes_cmds (s : State) (n : Nat) (x : AesSt) : (s.setAes n x).cmds = s.cmds := rfl
@[simp] theorem setAes_strobe (s : State) (n : Nat) (x : AesSt) : (s.setAes n x).strobe = s.strobe := rfl
@[simp] theorem setAes_enableChecks (s : State) (n : Nat) (x : AesSt) : (s.setAes n x).enableChecks = s.enableChecks := rfl
@[simp] theorem setAes_walker (s : State) (n : Nat) (x : AesSt) : (s.setAes n x).walker = s.walker := rfl
@[simp] theorem setAes_waits (s : State) (n : Nat) (x : AesSt) : (s.setAes n x).waits = s.waits := rfl
@[simp] theorem setAes_bus (s : State) (n : Nat) (x : AesSt) : (s.setAes n x).bus = s.bus := rfl
@[simp] theorem setAes_power (s : State) (n : Nat) (x : AesSt) : (s.setAes n x).power = s.power := rfl
@[simp] theorem setAes_mode (s : State) (n : Nat) (x : AesSt) : (s.setAes n x).mode = s.mode := rfl
@[simp] theorem setAes_otp (s : State) (n : Nat) (x : AesSt) : (s.setAes n x).otp = s.otp := rfl
@[simp] theorem setAes_nvm (s : State) (n : Nat) (x : AesSt) : (s.setAes n x).nvm = s.nvm := rfl
@[simp] theorem setAes_lcs (s : State) (n : Nat) (x : AesSt) : (s.setAes n x).lcs = s.lcs := rfl
@[simp] theorem setAes_dbg (s : State) (n : Nat) (x : AesSt) : (s.setAes n x).dbg = s.dbg := rfl
@[simp] theorem setAes_tap (s : State) (n : Nat) (x : AesSt) : (s.setAes n x).tap = s.tap := rfl
@[simp] theorem setAes_boot (s : State) (n : Nat) (x : AesSt) : (s.setAes n x).boot = s.boot := rfl
@[simp] theorem setAes_cores (s : State) (n : Nat) (x : AesSt) : (s.setAes n x).cores = s.cores := rfl
@[simp] theorem setAes_tcm (s : State) (n : Nat) (x : AesSt) : (s.setAes n x).tcm = s.tcm := rfl
@[simp] theorem setAes_wdtStart (s : State) (n : Nat) (x : AesSt) : (s.setAes n x).wdtStart = s.wdtStart := rfl
@[simp] theorem setAes_clove (s : State) (n : Nat) (x : AesSt) : (s.setAes n x).clove = s.clove := rfl
@[simp] theorem setAes_sram (s : State) (n : Nat) (x : AesSt) : (s.setAes n x).sram = s.sram := rfl
@[simp] theorem setAes_retention (s : State) (n : Nat) (x : AesSt) : (s.setAes n x).retention = s.retention := rfl
@[simp] theorem setAes_flash (s : State) (n : Nat) (x : AesSt) : (s.setAes n x).flash = s.flash := rfl
@[simp] theorem setAes_octal (s : State) (n : Nat) (x : AesSt) : (s.setAes n x).octal = s.octal := rfl
@[simp] theorem setAes_vault (s : State) (n : Nat) (x : AesSt) : (s.setAes n x).vault = s.vault := rfl
@[simp] theorem setAes_dge (s : State) (n : Nat) (x : AesSt) : (s.setAes n x).dge = s.dge := rfl
@[simp] theorem setAes_snp (s : State) (n : Nat) (x : AesSt) : (s.setAes n x).snp = s.snp := rfl
@[simp] theorem setAes_pke (s : State) (n : Nat) (x : AesSt) : (s.setAes n x).pke = s.pke := rfl
@[simp] theorem setAes_rng (s : State) (n : Nat) (x : AesSt) : (s.setAes n x).rng = s.rng := rfl
@[simp] theorem setAes_ecdhOut (s : State) (n : Nat) (x : AesSt) : (s.setAes n x).ecdhOut = s.ecdhOut := rfl
@[simp] theorem setAes_ports (s : State) (n : Nat) (x : AesSt) : (s.setAes n x).ports = s.ports := rfl
@[simp] theorem setAes_stages (s : State) (n : Nat) (x : AesSt) : (s.setAes n x).stages = s.stages := rfl
@[simp] theorem setAes_deferred (s : State) (n : Nat) (x : AesSt) : (s.setAes n x).deferred = s.deferred := rfl
@[simp] theorem setAes_hosts (s : State) (n : Nat) (x : AesSt) : (s.setAes n x).hosts = s.hosts := rfl
@[simp] theorem setAes_ldm (s : State) (n : Nat) (x : AesSt) : (s.setAes n x).ldm = s.ldm := rfl
@[simp] theorem setAes_cmp (s : State) (n : Nat) (x : AesSt) : (s.setAes n x).cmp = s.cmp := rfl
@[simp] theorem setAes_scheds (s : State) (n : Nat) (x : AesSt) : (s.setAes n x).scheds = s.scheds := rfl
@[simp] theorem setAes_chans (s : State) (n : Nat) (x : AesSt) : (s.setAes n x).chans = s.chans := rfl
@[simp] theorem setAes_sas (s : State) (n : Nat) (x : AesSt) : (s.setAes n x).sas = s.sas := rfl
@[simp] theorem setAes_lanes (s : State) (n : Nat) (x : AesSt) : (s.setAes n x).lanes = s.lanes := rfl
@[simp] theorem setAes_cans (s : State) (n : Nat) (x : AesSt) : (s.setAes n x).cans = s.cans := rfl
@[simp] theorem setAes_mgp (s : State) (n : Nat) (x : AesSt) : (s.setAes n x).mgp = s.mgp := rfl
@[simp] theorem setAes_stx (s : State) (n : Nat) (x : AesSt) : (s.setAes n x).stx = s.stx := rfl
@[simp] theorem setAes_time (s : State) (n : Nat) (x : AesSt) : (s.setAes n x).time = s.time := rfl
@[simp] theorem setAes_ledger (s : State) (n : Nat) (x : AesSt) : (s.setAes n x).ledger = s.ledger := rfl
@[simp] theorem setAes_rd (s : State) (n : Nat) (x : AesSt) (f : Fld) : (s.setAes n x).rd f = s.rd f := rfl
@[simp] theorem setAes_cfg (s : State) (n : Nat) (x : AesSt) (f : Fld) : (s.setAes n x).cfg f = s.cfg f := rfl
@[simp] theorem setAes_shadowOf (s : State) (n : Nat) (x : AesSt) (f : Fld) : (s.setAes n x).shadowOf f = s.shadowOf f := rfl
@[simp] theorem setAes_appliedOf (s : State) (n : Nat) (x : AesSt) (f : Fld) : (s.setAes n x).appliedOf f = s.appliedOf f := rfl
@[simp] theorem setAes_latchOf (s : State) (n : Nat) (x : AesSt) (f : Fld) : (s.setAes n x).latchOf f = s.latchOf f := rfl
@[simp] theorem setAes_flag (s : State) (n : Nat) (x : AesSt) (f : Fld) : (s.setAes n x).flag f = s.flag f := rfl
@[simp] theorem setAes_cfgb (s : State) (n : Nat) (x : AesSt) (f : Fld) : (s.setAes n x).cfgb f = s.cfgb f := rfl
@[simp] theorem setAes_enabled (s : State) (n : Nat) (x : AesSt) (p : Nat) : (s.setAes n x).enabled p = s.enabled p := rfl
@[simp] theorem setAes_active (s : State) (n : Nat) (x : AesSt) (p : Nat) : (s.setAes n x).active p = s.active p := rfl
@[simp] theorem setAes_cmdSlot (s : State) (n : Nat) (x : AesSt) (q o : Nat) : (s.setAes n x).cmdSlot q o = s.cmdSlot q o := rfl
@[simp] theorem setAes_up (s : State) (n : Nat) (x : AesSt) : (s.setAes n x).up = s.up := rfl

@[simp] theorem setDge_pending (s : State) (n : Nat) (x : DgeSt) : (s.setDge n x).pending = s.pending := rfl
@[simp] theorem setDge_free (s : State) (n : Nat) (x : DgeSt) : (s.setDge n x).free = s.free := rfl
@[simp] theorem setDge_regs (s : State) (n : Nat) (x : DgeSt) : (s.setDge n x).regs = s.regs := rfl
@[simp] theorem setDge_cmds (s : State) (n : Nat) (x : DgeSt) : (s.setDge n x).cmds = s.cmds := rfl
@[simp] theorem setDge_strobe (s : State) (n : Nat) (x : DgeSt) : (s.setDge n x).strobe = s.strobe := rfl
@[simp] theorem setDge_enableChecks (s : State) (n : Nat) (x : DgeSt) : (s.setDge n x).enableChecks = s.enableChecks := rfl
@[simp] theorem setDge_walker (s : State) (n : Nat) (x : DgeSt) : (s.setDge n x).walker = s.walker := rfl
@[simp] theorem setDge_waits (s : State) (n : Nat) (x : DgeSt) : (s.setDge n x).waits = s.waits := rfl
@[simp] theorem setDge_bus (s : State) (n : Nat) (x : DgeSt) : (s.setDge n x).bus = s.bus := rfl
@[simp] theorem setDge_power (s : State) (n : Nat) (x : DgeSt) : (s.setDge n x).power = s.power := rfl
@[simp] theorem setDge_mode (s : State) (n : Nat) (x : DgeSt) : (s.setDge n x).mode = s.mode := rfl
@[simp] theorem setDge_otp (s : State) (n : Nat) (x : DgeSt) : (s.setDge n x).otp = s.otp := rfl
@[simp] theorem setDge_nvm (s : State) (n : Nat) (x : DgeSt) : (s.setDge n x).nvm = s.nvm := rfl
@[simp] theorem setDge_lcs (s : State) (n : Nat) (x : DgeSt) : (s.setDge n x).lcs = s.lcs := rfl
@[simp] theorem setDge_dbg (s : State) (n : Nat) (x : DgeSt) : (s.setDge n x).dbg = s.dbg := rfl
@[simp] theorem setDge_tap (s : State) (n : Nat) (x : DgeSt) : (s.setDge n x).tap = s.tap := rfl
@[simp] theorem setDge_boot (s : State) (n : Nat) (x : DgeSt) : (s.setDge n x).boot = s.boot := rfl
@[simp] theorem setDge_cores (s : State) (n : Nat) (x : DgeSt) : (s.setDge n x).cores = s.cores := rfl
@[simp] theorem setDge_tcm (s : State) (n : Nat) (x : DgeSt) : (s.setDge n x).tcm = s.tcm := rfl
@[simp] theorem setDge_wdtStart (s : State) (n : Nat) (x : DgeSt) : (s.setDge n x).wdtStart = s.wdtStart := rfl
@[simp] theorem setDge_clove (s : State) (n : Nat) (x : DgeSt) : (s.setDge n x).clove = s.clove := rfl
@[simp] theorem setDge_sram (s : State) (n : Nat) (x : DgeSt) : (s.setDge n x).sram = s.sram := rfl
@[simp] theorem setDge_retention (s : State) (n : Nat) (x : DgeSt) : (s.setDge n x).retention = s.retention := rfl
@[simp] theorem setDge_flash (s : State) (n : Nat) (x : DgeSt) : (s.setDge n x).flash = s.flash := rfl
@[simp] theorem setDge_octal (s : State) (n : Nat) (x : DgeSt) : (s.setDge n x).octal = s.octal := rfl
@[simp] theorem setDge_vault (s : State) (n : Nat) (x : DgeSt) : (s.setDge n x).vault = s.vault := rfl
@[simp] theorem setDge_snp (s : State) (n : Nat) (x : DgeSt) : (s.setDge n x).snp = s.snp := rfl
@[simp] theorem setDge_aes (s : State) (n : Nat) (x : DgeSt) : (s.setDge n x).aes = s.aes := rfl
@[simp] theorem setDge_pke (s : State) (n : Nat) (x : DgeSt) : (s.setDge n x).pke = s.pke := rfl
@[simp] theorem setDge_rng (s : State) (n : Nat) (x : DgeSt) : (s.setDge n x).rng = s.rng := rfl
@[simp] theorem setDge_ecdhOut (s : State) (n : Nat) (x : DgeSt) : (s.setDge n x).ecdhOut = s.ecdhOut := rfl
@[simp] theorem setDge_ports (s : State) (n : Nat) (x : DgeSt) : (s.setDge n x).ports = s.ports := rfl
@[simp] theorem setDge_stages (s : State) (n : Nat) (x : DgeSt) : (s.setDge n x).stages = s.stages := rfl
@[simp] theorem setDge_deferred (s : State) (n : Nat) (x : DgeSt) : (s.setDge n x).deferred = s.deferred := rfl
@[simp] theorem setDge_hosts (s : State) (n : Nat) (x : DgeSt) : (s.setDge n x).hosts = s.hosts := rfl
@[simp] theorem setDge_ldm (s : State) (n : Nat) (x : DgeSt) : (s.setDge n x).ldm = s.ldm := rfl
@[simp] theorem setDge_cmp (s : State) (n : Nat) (x : DgeSt) : (s.setDge n x).cmp = s.cmp := rfl
@[simp] theorem setDge_scheds (s : State) (n : Nat) (x : DgeSt) : (s.setDge n x).scheds = s.scheds := rfl
@[simp] theorem setDge_chans (s : State) (n : Nat) (x : DgeSt) : (s.setDge n x).chans = s.chans := rfl
@[simp] theorem setDge_sas (s : State) (n : Nat) (x : DgeSt) : (s.setDge n x).sas = s.sas := rfl
@[simp] theorem setDge_lanes (s : State) (n : Nat) (x : DgeSt) : (s.setDge n x).lanes = s.lanes := rfl
@[simp] theorem setDge_cans (s : State) (n : Nat) (x : DgeSt) : (s.setDge n x).cans = s.cans := rfl
@[simp] theorem setDge_mgp (s : State) (n : Nat) (x : DgeSt) : (s.setDge n x).mgp = s.mgp := rfl
@[simp] theorem setDge_stx (s : State) (n : Nat) (x : DgeSt) : (s.setDge n x).stx = s.stx := rfl
@[simp] theorem setDge_time (s : State) (n : Nat) (x : DgeSt) : (s.setDge n x).time = s.time := rfl
@[simp] theorem setDge_ledger (s : State) (n : Nat) (x : DgeSt) : (s.setDge n x).ledger = s.ledger := rfl
@[simp] theorem setDge_rd (s : State) (n : Nat) (x : DgeSt) (f : Fld) : (s.setDge n x).rd f = s.rd f := rfl
@[simp] theorem setDge_cfg (s : State) (n : Nat) (x : DgeSt) (f : Fld) : (s.setDge n x).cfg f = s.cfg f := rfl
@[simp] theorem setDge_shadowOf (s : State) (n : Nat) (x : DgeSt) (f : Fld) : (s.setDge n x).shadowOf f = s.shadowOf f := rfl
@[simp] theorem setDge_appliedOf (s : State) (n : Nat) (x : DgeSt) (f : Fld) : (s.setDge n x).appliedOf f = s.appliedOf f := rfl
@[simp] theorem setDge_latchOf (s : State) (n : Nat) (x : DgeSt) (f : Fld) : (s.setDge n x).latchOf f = s.latchOf f := rfl
@[simp] theorem setDge_flag (s : State) (n : Nat) (x : DgeSt) (f : Fld) : (s.setDge n x).flag f = s.flag f := rfl
@[simp] theorem setDge_cfgb (s : State) (n : Nat) (x : DgeSt) (f : Fld) : (s.setDge n x).cfgb f = s.cfgb f := rfl
@[simp] theorem setDge_enabled (s : State) (n : Nat) (x : DgeSt) (p : Nat) : (s.setDge n x).enabled p = s.enabled p := rfl
@[simp] theorem setDge_active (s : State) (n : Nat) (x : DgeSt) (p : Nat) : (s.setDge n x).active p = s.active p := rfl
@[simp] theorem setDge_cmdSlot (s : State) (n : Nat) (x : DgeSt) (q o : Nat) : (s.setDge n x).cmdSlot q o = s.cmdSlot q o := rfl
@[simp] theorem setDge_up (s : State) (n : Nat) (x : DgeSt) : (s.setDge n x).up = s.up := rfl

@[simp] theorem setSnp_pending (s : State) (n : Nat) (x : SnpSt) : (s.setSnp n x).pending = s.pending := rfl
@[simp] theorem setSnp_free (s : State) (n : Nat) (x : SnpSt) : (s.setSnp n x).free = s.free := rfl
@[simp] theorem setSnp_regs (s : State) (n : Nat) (x : SnpSt) : (s.setSnp n x).regs = s.regs := rfl
@[simp] theorem setSnp_cmds (s : State) (n : Nat) (x : SnpSt) : (s.setSnp n x).cmds = s.cmds := rfl
@[simp] theorem setSnp_strobe (s : State) (n : Nat) (x : SnpSt) : (s.setSnp n x).strobe = s.strobe := rfl
@[simp] theorem setSnp_enableChecks (s : State) (n : Nat) (x : SnpSt) : (s.setSnp n x).enableChecks = s.enableChecks := rfl
@[simp] theorem setSnp_walker (s : State) (n : Nat) (x : SnpSt) : (s.setSnp n x).walker = s.walker := rfl
@[simp] theorem setSnp_waits (s : State) (n : Nat) (x : SnpSt) : (s.setSnp n x).waits = s.waits := rfl
@[simp] theorem setSnp_bus (s : State) (n : Nat) (x : SnpSt) : (s.setSnp n x).bus = s.bus := rfl
@[simp] theorem setSnp_power (s : State) (n : Nat) (x : SnpSt) : (s.setSnp n x).power = s.power := rfl
@[simp] theorem setSnp_mode (s : State) (n : Nat) (x : SnpSt) : (s.setSnp n x).mode = s.mode := rfl
@[simp] theorem setSnp_otp (s : State) (n : Nat) (x : SnpSt) : (s.setSnp n x).otp = s.otp := rfl
@[simp] theorem setSnp_nvm (s : State) (n : Nat) (x : SnpSt) : (s.setSnp n x).nvm = s.nvm := rfl
@[simp] theorem setSnp_lcs (s : State) (n : Nat) (x : SnpSt) : (s.setSnp n x).lcs = s.lcs := rfl
@[simp] theorem setSnp_dbg (s : State) (n : Nat) (x : SnpSt) : (s.setSnp n x).dbg = s.dbg := rfl
@[simp] theorem setSnp_tap (s : State) (n : Nat) (x : SnpSt) : (s.setSnp n x).tap = s.tap := rfl
@[simp] theorem setSnp_boot (s : State) (n : Nat) (x : SnpSt) : (s.setSnp n x).boot = s.boot := rfl
@[simp] theorem setSnp_cores (s : State) (n : Nat) (x : SnpSt) : (s.setSnp n x).cores = s.cores := rfl
@[simp] theorem setSnp_tcm (s : State) (n : Nat) (x : SnpSt) : (s.setSnp n x).tcm = s.tcm := rfl
@[simp] theorem setSnp_wdtStart (s : State) (n : Nat) (x : SnpSt) : (s.setSnp n x).wdtStart = s.wdtStart := rfl
@[simp] theorem setSnp_clove (s : State) (n : Nat) (x : SnpSt) : (s.setSnp n x).clove = s.clove := rfl
@[simp] theorem setSnp_sram (s : State) (n : Nat) (x : SnpSt) : (s.setSnp n x).sram = s.sram := rfl
@[simp] theorem setSnp_retention (s : State) (n : Nat) (x : SnpSt) : (s.setSnp n x).retention = s.retention := rfl
@[simp] theorem setSnp_flash (s : State) (n : Nat) (x : SnpSt) : (s.setSnp n x).flash = s.flash := rfl
@[simp] theorem setSnp_octal (s : State) (n : Nat) (x : SnpSt) : (s.setSnp n x).octal = s.octal := rfl
@[simp] theorem setSnp_vault (s : State) (n : Nat) (x : SnpSt) : (s.setSnp n x).vault = s.vault := rfl
@[simp] theorem setSnp_dge (s : State) (n : Nat) (x : SnpSt) : (s.setSnp n x).dge = s.dge := rfl
@[simp] theorem setSnp_aes (s : State) (n : Nat) (x : SnpSt) : (s.setSnp n x).aes = s.aes := rfl
@[simp] theorem setSnp_pke (s : State) (n : Nat) (x : SnpSt) : (s.setSnp n x).pke = s.pke := rfl
@[simp] theorem setSnp_rng (s : State) (n : Nat) (x : SnpSt) : (s.setSnp n x).rng = s.rng := rfl
@[simp] theorem setSnp_ecdhOut (s : State) (n : Nat) (x : SnpSt) : (s.setSnp n x).ecdhOut = s.ecdhOut := rfl
@[simp] theorem setSnp_ports (s : State) (n : Nat) (x : SnpSt) : (s.setSnp n x).ports = s.ports := rfl
@[simp] theorem setSnp_stages (s : State) (n : Nat) (x : SnpSt) : (s.setSnp n x).stages = s.stages := rfl
@[simp] theorem setSnp_deferred (s : State) (n : Nat) (x : SnpSt) : (s.setSnp n x).deferred = s.deferred := rfl
@[simp] theorem setSnp_hosts (s : State) (n : Nat) (x : SnpSt) : (s.setSnp n x).hosts = s.hosts := rfl
@[simp] theorem setSnp_ldm (s : State) (n : Nat) (x : SnpSt) : (s.setSnp n x).ldm = s.ldm := rfl
@[simp] theorem setSnp_cmp (s : State) (n : Nat) (x : SnpSt) : (s.setSnp n x).cmp = s.cmp := rfl
@[simp] theorem setSnp_scheds (s : State) (n : Nat) (x : SnpSt) : (s.setSnp n x).scheds = s.scheds := rfl
@[simp] theorem setSnp_chans (s : State) (n : Nat) (x : SnpSt) : (s.setSnp n x).chans = s.chans := rfl
@[simp] theorem setSnp_sas (s : State) (n : Nat) (x : SnpSt) : (s.setSnp n x).sas = s.sas := rfl
@[simp] theorem setSnp_lanes (s : State) (n : Nat) (x : SnpSt) : (s.setSnp n x).lanes = s.lanes := rfl
@[simp] theorem setSnp_cans (s : State) (n : Nat) (x : SnpSt) : (s.setSnp n x).cans = s.cans := rfl
@[simp] theorem setSnp_mgp (s : State) (n : Nat) (x : SnpSt) : (s.setSnp n x).mgp = s.mgp := rfl
@[simp] theorem setSnp_stx (s : State) (n : Nat) (x : SnpSt) : (s.setSnp n x).stx = s.stx := rfl
@[simp] theorem setSnp_time (s : State) (n : Nat) (x : SnpSt) : (s.setSnp n x).time = s.time := rfl
@[simp] theorem setSnp_ledger (s : State) (n : Nat) (x : SnpSt) : (s.setSnp n x).ledger = s.ledger := rfl
@[simp] theorem setSnp_rd (s : State) (n : Nat) (x : SnpSt) (f : Fld) : (s.setSnp n x).rd f = s.rd f := rfl
@[simp] theorem setSnp_cfg (s : State) (n : Nat) (x : SnpSt) (f : Fld) : (s.setSnp n x).cfg f = s.cfg f := rfl
@[simp] theorem setSnp_shadowOf (s : State) (n : Nat) (x : SnpSt) (f : Fld) : (s.setSnp n x).shadowOf f = s.shadowOf f := rfl
@[simp] theorem setSnp_appliedOf (s : State) (n : Nat) (x : SnpSt) (f : Fld) : (s.setSnp n x).appliedOf f = s.appliedOf f := rfl
@[simp] theorem setSnp_latchOf (s : State) (n : Nat) (x : SnpSt) (f : Fld) : (s.setSnp n x).latchOf f = s.latchOf f := rfl
@[simp] theorem setSnp_flag (s : State) (n : Nat) (x : SnpSt) (f : Fld) : (s.setSnp n x).flag f = s.flag f := rfl
@[simp] theorem setSnp_cfgb (s : State) (n : Nat) (x : SnpSt) (f : Fld) : (s.setSnp n x).cfgb f = s.cfgb f := rfl
@[simp] theorem setSnp_enabled (s : State) (n : Nat) (x : SnpSt) (p : Nat) : (s.setSnp n x).enabled p = s.enabled p := rfl
@[simp] theorem setSnp_active (s : State) (n : Nat) (x : SnpSt) (p : Nat) : (s.setSnp n x).active p = s.active p := rfl
@[simp] theorem setSnp_cmdSlot (s : State) (n : Nat) (x : SnpSt) (q o : Nat) : (s.setSnp n x).cmdSlot q o = s.cmdSlot q o := rfl
@[simp] theorem setSnp_up (s : State) (n : Nat) (x : SnpSt) : (s.setSnp n x).up = s.up := rfl

@[simp] theorem setHost_pending (s : State) (n : Nat) (x : HostSt) : (s.setHost n x).pending = s.pending := rfl
@[simp] theorem setHost_free (s : State) (n : Nat) (x : HostSt) : (s.setHost n x).free = s.free := rfl
@[simp] theorem setHost_regs (s : State) (n : Nat) (x : HostSt) : (s.setHost n x).regs = s.regs := rfl
@[simp] theorem setHost_cmds (s : State) (n : Nat) (x : HostSt) : (s.setHost n x).cmds = s.cmds := rfl
@[simp] theorem setHost_strobe (s : State) (n : Nat) (x : HostSt) : (s.setHost n x).strobe = s.strobe := rfl
@[simp] theorem setHost_enableChecks (s : State) (n : Nat) (x : HostSt) : (s.setHost n x).enableChecks = s.enableChecks := rfl
@[simp] theorem setHost_walker (s : State) (n : Nat) (x : HostSt) : (s.setHost n x).walker = s.walker := rfl
@[simp] theorem setHost_waits (s : State) (n : Nat) (x : HostSt) : (s.setHost n x).waits = s.waits := rfl
@[simp] theorem setHost_bus (s : State) (n : Nat) (x : HostSt) : (s.setHost n x).bus = s.bus := rfl
@[simp] theorem setHost_power (s : State) (n : Nat) (x : HostSt) : (s.setHost n x).power = s.power := rfl
@[simp] theorem setHost_mode (s : State) (n : Nat) (x : HostSt) : (s.setHost n x).mode = s.mode := rfl
@[simp] theorem setHost_otp (s : State) (n : Nat) (x : HostSt) : (s.setHost n x).otp = s.otp := rfl
@[simp] theorem setHost_nvm (s : State) (n : Nat) (x : HostSt) : (s.setHost n x).nvm = s.nvm := rfl
@[simp] theorem setHost_lcs (s : State) (n : Nat) (x : HostSt) : (s.setHost n x).lcs = s.lcs := rfl
@[simp] theorem setHost_dbg (s : State) (n : Nat) (x : HostSt) : (s.setHost n x).dbg = s.dbg := rfl
@[simp] theorem setHost_tap (s : State) (n : Nat) (x : HostSt) : (s.setHost n x).tap = s.tap := rfl
@[simp] theorem setHost_boot (s : State) (n : Nat) (x : HostSt) : (s.setHost n x).boot = s.boot := rfl
@[simp] theorem setHost_cores (s : State) (n : Nat) (x : HostSt) : (s.setHost n x).cores = s.cores := rfl
@[simp] theorem setHost_tcm (s : State) (n : Nat) (x : HostSt) : (s.setHost n x).tcm = s.tcm := rfl
@[simp] theorem setHost_wdtStart (s : State) (n : Nat) (x : HostSt) : (s.setHost n x).wdtStart = s.wdtStart := rfl
@[simp] theorem setHost_clove (s : State) (n : Nat) (x : HostSt) : (s.setHost n x).clove = s.clove := rfl
@[simp] theorem setHost_sram (s : State) (n : Nat) (x : HostSt) : (s.setHost n x).sram = s.sram := rfl
@[simp] theorem setHost_retention (s : State) (n : Nat) (x : HostSt) : (s.setHost n x).retention = s.retention := rfl
@[simp] theorem setHost_flash (s : State) (n : Nat) (x : HostSt) : (s.setHost n x).flash = s.flash := rfl
@[simp] theorem setHost_octal (s : State) (n : Nat) (x : HostSt) : (s.setHost n x).octal = s.octal := rfl
@[simp] theorem setHost_vault (s : State) (n : Nat) (x : HostSt) : (s.setHost n x).vault = s.vault := rfl
@[simp] theorem setHost_dge (s : State) (n : Nat) (x : HostSt) : (s.setHost n x).dge = s.dge := rfl
@[simp] theorem setHost_snp (s : State) (n : Nat) (x : HostSt) : (s.setHost n x).snp = s.snp := rfl
@[simp] theorem setHost_aes (s : State) (n : Nat) (x : HostSt) : (s.setHost n x).aes = s.aes := rfl
@[simp] theorem setHost_pke (s : State) (n : Nat) (x : HostSt) : (s.setHost n x).pke = s.pke := rfl
@[simp] theorem setHost_rng (s : State) (n : Nat) (x : HostSt) : (s.setHost n x).rng = s.rng := rfl
@[simp] theorem setHost_ecdhOut (s : State) (n : Nat) (x : HostSt) : (s.setHost n x).ecdhOut = s.ecdhOut := rfl
@[simp] theorem setHost_ports (s : State) (n : Nat) (x : HostSt) : (s.setHost n x).ports = s.ports := rfl
@[simp] theorem setHost_stages (s : State) (n : Nat) (x : HostSt) : (s.setHost n x).stages = s.stages := rfl
@[simp] theorem setHost_deferred (s : State) (n : Nat) (x : HostSt) : (s.setHost n x).deferred = s.deferred := rfl
@[simp] theorem setHost_ldm (s : State) (n : Nat) (x : HostSt) : (s.setHost n x).ldm = s.ldm := rfl
@[simp] theorem setHost_cmp (s : State) (n : Nat) (x : HostSt) : (s.setHost n x).cmp = s.cmp := rfl
@[simp] theorem setHost_scheds (s : State) (n : Nat) (x : HostSt) : (s.setHost n x).scheds = s.scheds := rfl
@[simp] theorem setHost_chans (s : State) (n : Nat) (x : HostSt) : (s.setHost n x).chans = s.chans := rfl
@[simp] theorem setHost_sas (s : State) (n : Nat) (x : HostSt) : (s.setHost n x).sas = s.sas := rfl
@[simp] theorem setHost_lanes (s : State) (n : Nat) (x : HostSt) : (s.setHost n x).lanes = s.lanes := rfl
@[simp] theorem setHost_cans (s : State) (n : Nat) (x : HostSt) : (s.setHost n x).cans = s.cans := rfl
@[simp] theorem setHost_mgp (s : State) (n : Nat) (x : HostSt) : (s.setHost n x).mgp = s.mgp := rfl
@[simp] theorem setHost_stx (s : State) (n : Nat) (x : HostSt) : (s.setHost n x).stx = s.stx := rfl
@[simp] theorem setHost_time (s : State) (n : Nat) (x : HostSt) : (s.setHost n x).time = s.time := rfl
@[simp] theorem setHost_ledger (s : State) (n : Nat) (x : HostSt) : (s.setHost n x).ledger = s.ledger := rfl
@[simp] theorem setHost_rd (s : State) (n : Nat) (x : HostSt) (f : Fld) : (s.setHost n x).rd f = s.rd f := rfl
@[simp] theorem setHost_cfg (s : State) (n : Nat) (x : HostSt) (f : Fld) : (s.setHost n x).cfg f = s.cfg f := rfl
@[simp] theorem setHost_shadowOf (s : State) (n : Nat) (x : HostSt) (f : Fld) : (s.setHost n x).shadowOf f = s.shadowOf f := rfl
@[simp] theorem setHost_appliedOf (s : State) (n : Nat) (x : HostSt) (f : Fld) : (s.setHost n x).appliedOf f = s.appliedOf f := rfl
@[simp] theorem setHost_latchOf (s : State) (n : Nat) (x : HostSt) (f : Fld) : (s.setHost n x).latchOf f = s.latchOf f := rfl
@[simp] theorem setHost_flag (s : State) (n : Nat) (x : HostSt) (f : Fld) : (s.setHost n x).flag f = s.flag f := rfl
@[simp] theorem setHost_cfgb (s : State) (n : Nat) (x : HostSt) (f : Fld) : (s.setHost n x).cfgb f = s.cfgb f := rfl
@[simp] theorem setHost_enabled (s : State) (n : Nat) (x : HostSt) (p : Nat) : (s.setHost n x).enabled p = s.enabled p := rfl
@[simp] theorem setHost_active (s : State) (n : Nat) (x : HostSt) (p : Nat) : (s.setHost n x).active p = s.active p := rfl
@[simp] theorem setHost_cmdSlot (s : State) (n : Nat) (x : HostSt) (q o : Nat) : (s.setHost n x).cmdSlot q o = s.cmdSlot q o := rfl
@[simp] theorem setHost_up (s : State) (n : Nat) (x : HostSt) : (s.setHost n x).up = s.up := rfl

@[simp] theorem setPort_pending (s : State) (n : Nat) (x : Port) : (s.setPort n x).pending = s.pending := rfl
@[simp] theorem setPort_free (s : State) (n : Nat) (x : Port) : (s.setPort n x).free = s.free := rfl
@[simp] theorem setPort_regs (s : State) (n : Nat) (x : Port) : (s.setPort n x).regs = s.regs := rfl
@[simp] theorem setPort_cmds (s : State) (n : Nat) (x : Port) : (s.setPort n x).cmds = s.cmds := rfl
@[simp] theorem setPort_strobe (s : State) (n : Nat) (x : Port) : (s.setPort n x).strobe = s.strobe := rfl
@[simp] theorem setPort_enableChecks (s : State) (n : Nat) (x : Port) : (s.setPort n x).enableChecks = s.enableChecks := rfl
@[simp] theorem setPort_walker (s : State) (n : Nat) (x : Port) : (s.setPort n x).walker = s.walker := rfl
@[simp] theorem setPort_waits (s : State) (n : Nat) (x : Port) : (s.setPort n x).waits = s.waits := rfl
@[simp] theorem setPort_bus (s : State) (n : Nat) (x : Port) : (s.setPort n x).bus = s.bus := rfl
@[simp] theorem setPort_power (s : State) (n : Nat) (x : Port) : (s.setPort n x).power = s.power := rfl
@[simp] theorem setPort_mode (s : State) (n : Nat) (x : Port) : (s.setPort n x).mode = s.mode := rfl
@[simp] theorem setPort_otp (s : State) (n : Nat) (x : Port) : (s.setPort n x).otp = s.otp := rfl
@[simp] theorem setPort_nvm (s : State) (n : Nat) (x : Port) : (s.setPort n x).nvm = s.nvm := rfl
@[simp] theorem setPort_lcs (s : State) (n : Nat) (x : Port) : (s.setPort n x).lcs = s.lcs := rfl
@[simp] theorem setPort_dbg (s : State) (n : Nat) (x : Port) : (s.setPort n x).dbg = s.dbg := rfl
@[simp] theorem setPort_tap (s : State) (n : Nat) (x : Port) : (s.setPort n x).tap = s.tap := rfl
@[simp] theorem setPort_boot (s : State) (n : Nat) (x : Port) : (s.setPort n x).boot = s.boot := rfl
@[simp] theorem setPort_cores (s : State) (n : Nat) (x : Port) : (s.setPort n x).cores = s.cores := rfl
@[simp] theorem setPort_tcm (s : State) (n : Nat) (x : Port) : (s.setPort n x).tcm = s.tcm := rfl
@[simp] theorem setPort_wdtStart (s : State) (n : Nat) (x : Port) : (s.setPort n x).wdtStart = s.wdtStart := rfl
@[simp] theorem setPort_clove (s : State) (n : Nat) (x : Port) : (s.setPort n x).clove = s.clove := rfl
@[simp] theorem setPort_sram (s : State) (n : Nat) (x : Port) : (s.setPort n x).sram = s.sram := rfl
@[simp] theorem setPort_retention (s : State) (n : Nat) (x : Port) : (s.setPort n x).retention = s.retention := rfl
@[simp] theorem setPort_flash (s : State) (n : Nat) (x : Port) : (s.setPort n x).flash = s.flash := rfl
@[simp] theorem setPort_octal (s : State) (n : Nat) (x : Port) : (s.setPort n x).octal = s.octal := rfl
@[simp] theorem setPort_vault (s : State) (n : Nat) (x : Port) : (s.setPort n x).vault = s.vault := rfl
@[simp] theorem setPort_dge (s : State) (n : Nat) (x : Port) : (s.setPort n x).dge = s.dge := rfl
@[simp] theorem setPort_snp (s : State) (n : Nat) (x : Port) : (s.setPort n x).snp = s.snp := rfl
@[simp] theorem setPort_aes (s : State) (n : Nat) (x : Port) : (s.setPort n x).aes = s.aes := rfl
@[simp] theorem setPort_pke (s : State) (n : Nat) (x : Port) : (s.setPort n x).pke = s.pke := rfl
@[simp] theorem setPort_rng (s : State) (n : Nat) (x : Port) : (s.setPort n x).rng = s.rng := rfl
@[simp] theorem setPort_ecdhOut (s : State) (n : Nat) (x : Port) : (s.setPort n x).ecdhOut = s.ecdhOut := rfl
@[simp] theorem setPort_stages (s : State) (n : Nat) (x : Port) : (s.setPort n x).stages = s.stages := rfl
@[simp] theorem setPort_deferred (s : State) (n : Nat) (x : Port) : (s.setPort n x).deferred = s.deferred := rfl
@[simp] theorem setPort_hosts (s : State) (n : Nat) (x : Port) : (s.setPort n x).hosts = s.hosts := rfl
@[simp] theorem setPort_ldm (s : State) (n : Nat) (x : Port) : (s.setPort n x).ldm = s.ldm := rfl
@[simp] theorem setPort_cmp (s : State) (n : Nat) (x : Port) : (s.setPort n x).cmp = s.cmp := rfl
@[simp] theorem setPort_scheds (s : State) (n : Nat) (x : Port) : (s.setPort n x).scheds = s.scheds := rfl
@[simp] theorem setPort_chans (s : State) (n : Nat) (x : Port) : (s.setPort n x).chans = s.chans := rfl
@[simp] theorem setPort_sas (s : State) (n : Nat) (x : Port) : (s.setPort n x).sas = s.sas := rfl
@[simp] theorem setPort_lanes (s : State) (n : Nat) (x : Port) : (s.setPort n x).lanes = s.lanes := rfl
@[simp] theorem setPort_cans (s : State) (n : Nat) (x : Port) : (s.setPort n x).cans = s.cans := rfl
@[simp] theorem setPort_mgp (s : State) (n : Nat) (x : Port) : (s.setPort n x).mgp = s.mgp := rfl
@[simp] theorem setPort_stx (s : State) (n : Nat) (x : Port) : (s.setPort n x).stx = s.stx := rfl
@[simp] theorem setPort_time (s : State) (n : Nat) (x : Port) : (s.setPort n x).time = s.time := rfl
@[simp] theorem setPort_ledger (s : State) (n : Nat) (x : Port) : (s.setPort n x).ledger = s.ledger := rfl
@[simp] theorem setPort_rd (s : State) (n : Nat) (x : Port) (f : Fld) : (s.setPort n x).rd f = s.rd f := rfl
@[simp] theorem setPort_cfg (s : State) (n : Nat) (x : Port) (f : Fld) : (s.setPort n x).cfg f = s.cfg f := rfl
@[simp] theorem setPort_shadowOf (s : State) (n : Nat) (x : Port) (f : Fld) : (s.setPort n x).shadowOf f = s.shadowOf f := rfl
@[simp] theorem setPort_appliedOf (s : State) (n : Nat) (x : Port) (f : Fld) : (s.setPort n x).appliedOf f = s.appliedOf f := rfl
@[simp] theorem setPort_latchOf (s : State) (n : Nat) (x : Port) (f : Fld) : (s.setPort n x).latchOf f = s.latchOf f := rfl
@[simp] theorem setPort_flag (s : State) (n : Nat) (x : Port) (f : Fld) : (s.setPort n x).flag f = s.flag f := rfl
@[simp] theorem setPort_cfgb (s : State) (n : Nat) (x : Port) (f : Fld) : (s.setPort n x).cfgb f = s.cfgb f := rfl
@[simp] theorem setPort_enabled (s : State) (n : Nat) (x : Port) (p : Nat) : (s.setPort n x).enabled p = s.enabled p := rfl
@[simp] theorem setPort_active (s : State) (n : Nat) (x : Port) (p : Nat) : (s.setPort n x).active p = s.active p := rfl
@[simp] theorem setPort_cmdSlot (s : State) (n : Nat) (x : Port) (q o : Nat) : (s.setPort n x).cmdSlot q o = s.cmdSlot q o := rfl
@[simp] theorem setPort_up (s : State) (n : Nat) (x : Port) : (s.setPort n x).up = s.up := rfl

@[simp] theorem setSched_pending (s : State) (n : Nat) (x : Sched) : (s.setSched n x).pending = s.pending := rfl
@[simp] theorem setSched_free (s : State) (n : Nat) (x : Sched) : (s.setSched n x).free = s.free := rfl
@[simp] theorem setSched_regs (s : State) (n : Nat) (x : Sched) : (s.setSched n x).regs = s.regs := rfl
@[simp] theorem setSched_cmds (s : State) (n : Nat) (x : Sched) : (s.setSched n x).cmds = s.cmds := rfl
@[simp] theorem setSched_strobe (s : State) (n : Nat) (x : Sched) : (s.setSched n x).strobe = s.strobe := rfl
@[simp] theorem setSched_enableChecks (s : State) (n : Nat) (x : Sched) : (s.setSched n x).enableChecks = s.enableChecks := rfl
@[simp] theorem setSched_walker (s : State) (n : Nat) (x : Sched) : (s.setSched n x).walker = s.walker := rfl
@[simp] theorem setSched_waits (s : State) (n : Nat) (x : Sched) : (s.setSched n x).waits = s.waits := rfl
@[simp] theorem setSched_bus (s : State) (n : Nat) (x : Sched) : (s.setSched n x).bus = s.bus := rfl
@[simp] theorem setSched_power (s : State) (n : Nat) (x : Sched) : (s.setSched n x).power = s.power := rfl
@[simp] theorem setSched_mode (s : State) (n : Nat) (x : Sched) : (s.setSched n x).mode = s.mode := rfl
@[simp] theorem setSched_otp (s : State) (n : Nat) (x : Sched) : (s.setSched n x).otp = s.otp := rfl
@[simp] theorem setSched_nvm (s : State) (n : Nat) (x : Sched) : (s.setSched n x).nvm = s.nvm := rfl
@[simp] theorem setSched_lcs (s : State) (n : Nat) (x : Sched) : (s.setSched n x).lcs = s.lcs := rfl
@[simp] theorem setSched_dbg (s : State) (n : Nat) (x : Sched) : (s.setSched n x).dbg = s.dbg := rfl
@[simp] theorem setSched_tap (s : State) (n : Nat) (x : Sched) : (s.setSched n x).tap = s.tap := rfl
@[simp] theorem setSched_boot (s : State) (n : Nat) (x : Sched) : (s.setSched n x).boot = s.boot := rfl
@[simp] theorem setSched_cores (s : State) (n : Nat) (x : Sched) : (s.setSched n x).cores = s.cores := rfl
@[simp] theorem setSched_tcm (s : State) (n : Nat) (x : Sched) : (s.setSched n x).tcm = s.tcm := rfl
@[simp] theorem setSched_wdtStart (s : State) (n : Nat) (x : Sched) : (s.setSched n x).wdtStart = s.wdtStart := rfl
@[simp] theorem setSched_clove (s : State) (n : Nat) (x : Sched) : (s.setSched n x).clove = s.clove := rfl
@[simp] theorem setSched_sram (s : State) (n : Nat) (x : Sched) : (s.setSched n x).sram = s.sram := rfl
@[simp] theorem setSched_retention (s : State) (n : Nat) (x : Sched) : (s.setSched n x).retention = s.retention := rfl
@[simp] theorem setSched_flash (s : State) (n : Nat) (x : Sched) : (s.setSched n x).flash = s.flash := rfl
@[simp] theorem setSched_octal (s : State) (n : Nat) (x : Sched) : (s.setSched n x).octal = s.octal := rfl
@[simp] theorem setSched_vault (s : State) (n : Nat) (x : Sched) : (s.setSched n x).vault = s.vault := rfl
@[simp] theorem setSched_dge (s : State) (n : Nat) (x : Sched) : (s.setSched n x).dge = s.dge := rfl
@[simp] theorem setSched_snp (s : State) (n : Nat) (x : Sched) : (s.setSched n x).snp = s.snp := rfl
@[simp] theorem setSched_aes (s : State) (n : Nat) (x : Sched) : (s.setSched n x).aes = s.aes := rfl
@[simp] theorem setSched_pke (s : State) (n : Nat) (x : Sched) : (s.setSched n x).pke = s.pke := rfl
@[simp] theorem setSched_rng (s : State) (n : Nat) (x : Sched) : (s.setSched n x).rng = s.rng := rfl
@[simp] theorem setSched_ecdhOut (s : State) (n : Nat) (x : Sched) : (s.setSched n x).ecdhOut = s.ecdhOut := rfl
@[simp] theorem setSched_ports (s : State) (n : Nat) (x : Sched) : (s.setSched n x).ports = s.ports := rfl
@[simp] theorem setSched_stages (s : State) (n : Nat) (x : Sched) : (s.setSched n x).stages = s.stages := rfl
@[simp] theorem setSched_deferred (s : State) (n : Nat) (x : Sched) : (s.setSched n x).deferred = s.deferred := rfl
@[simp] theorem setSched_hosts (s : State) (n : Nat) (x : Sched) : (s.setSched n x).hosts = s.hosts := rfl
@[simp] theorem setSched_ldm (s : State) (n : Nat) (x : Sched) : (s.setSched n x).ldm = s.ldm := rfl
@[simp] theorem setSched_cmp (s : State) (n : Nat) (x : Sched) : (s.setSched n x).cmp = s.cmp := rfl
@[simp] theorem setSched_chans (s : State) (n : Nat) (x : Sched) : (s.setSched n x).chans = s.chans := rfl
@[simp] theorem setSched_sas (s : State) (n : Nat) (x : Sched) : (s.setSched n x).sas = s.sas := rfl
@[simp] theorem setSched_lanes (s : State) (n : Nat) (x : Sched) : (s.setSched n x).lanes = s.lanes := rfl
@[simp] theorem setSched_cans (s : State) (n : Nat) (x : Sched) : (s.setSched n x).cans = s.cans := rfl
@[simp] theorem setSched_mgp (s : State) (n : Nat) (x : Sched) : (s.setSched n x).mgp = s.mgp := rfl
@[simp] theorem setSched_stx (s : State) (n : Nat) (x : Sched) : (s.setSched n x).stx = s.stx := rfl
@[simp] theorem setSched_time (s : State) (n : Nat) (x : Sched) : (s.setSched n x).time = s.time := rfl
@[simp] theorem setSched_ledger (s : State) (n : Nat) (x : Sched) : (s.setSched n x).ledger = s.ledger := rfl
@[simp] theorem setSched_rd (s : State) (n : Nat) (x : Sched) (f : Fld) : (s.setSched n x).rd f = s.rd f := rfl
@[simp] theorem setSched_cfg (s : State) (n : Nat) (x : Sched) (f : Fld) : (s.setSched n x).cfg f = s.cfg f := rfl
@[simp] theorem setSched_shadowOf (s : State) (n : Nat) (x : Sched) (f : Fld) : (s.setSched n x).shadowOf f = s.shadowOf f := rfl
@[simp] theorem setSched_appliedOf (s : State) (n : Nat) (x : Sched) (f : Fld) : (s.setSched n x).appliedOf f = s.appliedOf f := rfl
@[simp] theorem setSched_latchOf (s : State) (n : Nat) (x : Sched) (f : Fld) : (s.setSched n x).latchOf f = s.latchOf f := rfl
@[simp] theorem setSched_flag (s : State) (n : Nat) (x : Sched) (f : Fld) : (s.setSched n x).flag f = s.flag f := rfl
@[simp] theorem setSched_cfgb (s : State) (n : Nat) (x : Sched) (f : Fld) : (s.setSched n x).cfgb f = s.cfgb f := rfl
@[simp] theorem setSched_enabled (s : State) (n : Nat) (x : Sched) (p : Nat) : (s.setSched n x).enabled p = s.enabled p := rfl
@[simp] theorem setSched_active (s : State) (n : Nat) (x : Sched) (p : Nat) : (s.setSched n x).active p = s.active p := rfl
@[simp] theorem setSched_cmdSlot (s : State) (n : Nat) (x : Sched) (q o : Nat) : (s.setSched n x).cmdSlot q o = s.cmdSlot q o := rfl
@[simp] theorem setSched_up (s : State) (n : Nat) (x : Sched) : (s.setSched n x).up = s.up := rfl

@[simp] theorem setChan_pending (s : State) (n : Nat) (x : Chan) : (s.setChan n x).pending = s.pending := rfl
@[simp] theorem setChan_free (s : State) (n : Nat) (x : Chan) : (s.setChan n x).free = s.free := rfl
@[simp] theorem setChan_regs (s : State) (n : Nat) (x : Chan) : (s.setChan n x).regs = s.regs := rfl
@[simp] theorem setChan_cmds (s : State) (n : Nat) (x : Chan) : (s.setChan n x).cmds = s.cmds := rfl
@[simp] theorem setChan_strobe (s : State) (n : Nat) (x : Chan) : (s.setChan n x).strobe = s.strobe := rfl
@[simp] theorem setChan_enableChecks (s : State) (n : Nat) (x : Chan) : (s.setChan n x).enableChecks = s.enableChecks := rfl
@[simp] theorem setChan_walker (s : State) (n : Nat) (x : Chan) : (s.setChan n x).walker = s.walker := rfl
@[simp] theorem setChan_waits (s : State) (n : Nat) (x : Chan) : (s.setChan n x).waits = s.waits := rfl
@[simp] theorem setChan_bus (s : State) (n : Nat) (x : Chan) : (s.setChan n x).bus = s.bus := rfl
@[simp] theorem setChan_power (s : State) (n : Nat) (x : Chan) : (s.setChan n x).power = s.power := rfl
@[simp] theorem setChan_mode (s : State) (n : Nat) (x : Chan) : (s.setChan n x).mode = s.mode := rfl
@[simp] theorem setChan_otp (s : State) (n : Nat) (x : Chan) : (s.setChan n x).otp = s.otp := rfl
@[simp] theorem setChan_nvm (s : State) (n : Nat) (x : Chan) : (s.setChan n x).nvm = s.nvm := rfl
@[simp] theorem setChan_lcs (s : State) (n : Nat) (x : Chan) : (s.setChan n x).lcs = s.lcs := rfl
@[simp] theorem setChan_dbg (s : State) (n : Nat) (x : Chan) : (s.setChan n x).dbg = s.dbg := rfl
@[simp] theorem setChan_tap (s : State) (n : Nat) (x : Chan) : (s.setChan n x).tap = s.tap := rfl
@[simp] theorem setChan_boot (s : State) (n : Nat) (x : Chan) : (s.setChan n x).boot = s.boot := rfl
@[simp] theorem setChan_cores (s : State) (n : Nat) (x : Chan) : (s.setChan n x).cores = s.cores := rfl
@[simp] theorem setChan_tcm (s : State) (n : Nat) (x : Chan) : (s.setChan n x).tcm = s.tcm := rfl
@[simp] theorem setChan_wdtStart (s : State) (n : Nat) (x : Chan) : (s.setChan n x).wdtStart = s.wdtStart := rfl
@[simp] theorem setChan_clove (s : State) (n : Nat) (x : Chan) : (s.setChan n x).clove = s.clove := rfl
@[simp] theorem setChan_sram (s : State) (n : Nat) (x : Chan) : (s.setChan n x).sram = s.sram := rfl
@[simp] theorem setChan_retention (s : State) (n : Nat) (x : Chan) : (s.setChan n x).retention = s.retention := rfl
@[simp] theorem setChan_flash (s : State) (n : Nat) (x : Chan) : (s.setChan n x).flash = s.flash := rfl
@[simp] theorem setChan_octal (s : State) (n : Nat) (x : Chan) : (s.setChan n x).octal = s.octal := rfl
@[simp] theorem setChan_vault (s : State) (n : Nat) (x : Chan) : (s.setChan n x).vault = s.vault := rfl
@[simp] theorem setChan_dge (s : State) (n : Nat) (x : Chan) : (s.setChan n x).dge = s.dge := rfl
@[simp] theorem setChan_snp (s : State) (n : Nat) (x : Chan) : (s.setChan n x).snp = s.snp := rfl
@[simp] theorem setChan_aes (s : State) (n : Nat) (x : Chan) : (s.setChan n x).aes = s.aes := rfl
@[simp] theorem setChan_pke (s : State) (n : Nat) (x : Chan) : (s.setChan n x).pke = s.pke := rfl
@[simp] theorem setChan_rng (s : State) (n : Nat) (x : Chan) : (s.setChan n x).rng = s.rng := rfl
@[simp] theorem setChan_ecdhOut (s : State) (n : Nat) (x : Chan) : (s.setChan n x).ecdhOut = s.ecdhOut := rfl
@[simp] theorem setChan_ports (s : State) (n : Nat) (x : Chan) : (s.setChan n x).ports = s.ports := rfl
@[simp] theorem setChan_stages (s : State) (n : Nat) (x : Chan) : (s.setChan n x).stages = s.stages := rfl
@[simp] theorem setChan_deferred (s : State) (n : Nat) (x : Chan) : (s.setChan n x).deferred = s.deferred := rfl
@[simp] theorem setChan_hosts (s : State) (n : Nat) (x : Chan) : (s.setChan n x).hosts = s.hosts := rfl
@[simp] theorem setChan_ldm (s : State) (n : Nat) (x : Chan) : (s.setChan n x).ldm = s.ldm := rfl
@[simp] theorem setChan_cmp (s : State) (n : Nat) (x : Chan) : (s.setChan n x).cmp = s.cmp := rfl
@[simp] theorem setChan_scheds (s : State) (n : Nat) (x : Chan) : (s.setChan n x).scheds = s.scheds := rfl
@[simp] theorem setChan_sas (s : State) (n : Nat) (x : Chan) : (s.setChan n x).sas = s.sas := rfl
@[simp] theorem setChan_lanes (s : State) (n : Nat) (x : Chan) : (s.setChan n x).lanes = s.lanes := rfl
@[simp] theorem setChan_cans (s : State) (n : Nat) (x : Chan) : (s.setChan n x).cans = s.cans := rfl
@[simp] theorem setChan_mgp (s : State) (n : Nat) (x : Chan) : (s.setChan n x).mgp = s.mgp := rfl
@[simp] theorem setChan_stx (s : State) (n : Nat) (x : Chan) : (s.setChan n x).stx = s.stx := rfl
@[simp] theorem setChan_time (s : State) (n : Nat) (x : Chan) : (s.setChan n x).time = s.time := rfl
@[simp] theorem setChan_ledger (s : State) (n : Nat) (x : Chan) : (s.setChan n x).ledger = s.ledger := rfl
@[simp] theorem setChan_rd (s : State) (n : Nat) (x : Chan) (f : Fld) : (s.setChan n x).rd f = s.rd f := rfl
@[simp] theorem setChan_cfg (s : State) (n : Nat) (x : Chan) (f : Fld) : (s.setChan n x).cfg f = s.cfg f := rfl
@[simp] theorem setChan_shadowOf (s : State) (n : Nat) (x : Chan) (f : Fld) : (s.setChan n x).shadowOf f = s.shadowOf f := rfl
@[simp] theorem setChan_appliedOf (s : State) (n : Nat) (x : Chan) (f : Fld) : (s.setChan n x).appliedOf f = s.appliedOf f := rfl
@[simp] theorem setChan_latchOf (s : State) (n : Nat) (x : Chan) (f : Fld) : (s.setChan n x).latchOf f = s.latchOf f := rfl
@[simp] theorem setChan_flag (s : State) (n : Nat) (x : Chan) (f : Fld) : (s.setChan n x).flag f = s.flag f := rfl
@[simp] theorem setChan_cfgb (s : State) (n : Nat) (x : Chan) (f : Fld) : (s.setChan n x).cfgb f = s.cfgb f := rfl
@[simp] theorem setChan_enabled (s : State) (n : Nat) (x : Chan) (p : Nat) : (s.setChan n x).enabled p = s.enabled p := rfl
@[simp] theorem setChan_active (s : State) (n : Nat) (x : Chan) (p : Nat) : (s.setChan n x).active p = s.active p := rfl
@[simp] theorem setChan_cmdSlot (s : State) (n : Nat) (x : Chan) (q o : Nat) : (s.setChan n x).cmdSlot q o = s.cmdSlot q o := rfl
@[simp] theorem setChan_up (s : State) (n : Nat) (x : Chan) : (s.setChan n x).up = s.up := rfl

@[simp] theorem setLane_pending (s : State) (n : Nat) (x : Lane) : (s.setLane n x).pending = s.pending := rfl
@[simp] theorem setLane_free (s : State) (n : Nat) (x : Lane) : (s.setLane n x).free = s.free := rfl
@[simp] theorem setLane_regs (s : State) (n : Nat) (x : Lane) : (s.setLane n x).regs = s.regs := rfl
@[simp] theorem setLane_cmds (s : State) (n : Nat) (x : Lane) : (s.setLane n x).cmds = s.cmds := rfl
@[simp] theorem setLane_strobe (s : State) (n : Nat) (x : Lane) : (s.setLane n x).strobe = s.strobe := rfl
@[simp] theorem setLane_enableChecks (s : State) (n : Nat) (x : Lane) : (s.setLane n x).enableChecks = s.enableChecks := rfl
@[simp] theorem setLane_walker (s : State) (n : Nat) (x : Lane) : (s.setLane n x).walker = s.walker := rfl
@[simp] theorem setLane_waits (s : State) (n : Nat) (x : Lane) : (s.setLane n x).waits = s.waits := rfl
@[simp] theorem setLane_bus (s : State) (n : Nat) (x : Lane) : (s.setLane n x).bus = s.bus := rfl
@[simp] theorem setLane_power (s : State) (n : Nat) (x : Lane) : (s.setLane n x).power = s.power := rfl
@[simp] theorem setLane_mode (s : State) (n : Nat) (x : Lane) : (s.setLane n x).mode = s.mode := rfl
@[simp] theorem setLane_otp (s : State) (n : Nat) (x : Lane) : (s.setLane n x).otp = s.otp := rfl
@[simp] theorem setLane_nvm (s : State) (n : Nat) (x : Lane) : (s.setLane n x).nvm = s.nvm := rfl
@[simp] theorem setLane_lcs (s : State) (n : Nat) (x : Lane) : (s.setLane n x).lcs = s.lcs := rfl
@[simp] theorem setLane_dbg (s : State) (n : Nat) (x : Lane) : (s.setLane n x).dbg = s.dbg := rfl
@[simp] theorem setLane_tap (s : State) (n : Nat) (x : Lane) : (s.setLane n x).tap = s.tap := rfl
@[simp] theorem setLane_boot (s : State) (n : Nat) (x : Lane) : (s.setLane n x).boot = s.boot := rfl
@[simp] theorem setLane_cores (s : State) (n : Nat) (x : Lane) : (s.setLane n x).cores = s.cores := rfl
@[simp] theorem setLane_tcm (s : State) (n : Nat) (x : Lane) : (s.setLane n x).tcm = s.tcm := rfl
@[simp] theorem setLane_wdtStart (s : State) (n : Nat) (x : Lane) : (s.setLane n x).wdtStart = s.wdtStart := rfl
@[simp] theorem setLane_clove (s : State) (n : Nat) (x : Lane) : (s.setLane n x).clove = s.clove := rfl
@[simp] theorem setLane_sram (s : State) (n : Nat) (x : Lane) : (s.setLane n x).sram = s.sram := rfl
@[simp] theorem setLane_retention (s : State) (n : Nat) (x : Lane) : (s.setLane n x).retention = s.retention := rfl
@[simp] theorem setLane_flash (s : State) (n : Nat) (x : Lane) : (s.setLane n x).flash = s.flash := rfl
@[simp] theorem setLane_octal (s : State) (n : Nat) (x : Lane) : (s.setLane n x).octal = s.octal := rfl
@[simp] theorem setLane_vault (s : State) (n : Nat) (x : Lane) : (s.setLane n x).vault = s.vault := rfl
@[simp] theorem setLane_dge (s : State) (n : Nat) (x : Lane) : (s.setLane n x).dge = s.dge := rfl
@[simp] theorem setLane_snp (s : State) (n : Nat) (x : Lane) : (s.setLane n x).snp = s.snp := rfl
@[simp] theorem setLane_aes (s : State) (n : Nat) (x : Lane) : (s.setLane n x).aes = s.aes := rfl
@[simp] theorem setLane_pke (s : State) (n : Nat) (x : Lane) : (s.setLane n x).pke = s.pke := rfl
@[simp] theorem setLane_rng (s : State) (n : Nat) (x : Lane) : (s.setLane n x).rng = s.rng := rfl
@[simp] theorem setLane_ecdhOut (s : State) (n : Nat) (x : Lane) : (s.setLane n x).ecdhOut = s.ecdhOut := rfl
@[simp] theorem setLane_ports (s : State) (n : Nat) (x : Lane) : (s.setLane n x).ports = s.ports := rfl
@[simp] theorem setLane_stages (s : State) (n : Nat) (x : Lane) : (s.setLane n x).stages = s.stages := rfl
@[simp] theorem setLane_deferred (s : State) (n : Nat) (x : Lane) : (s.setLane n x).deferred = s.deferred := rfl
@[simp] theorem setLane_hosts (s : State) (n : Nat) (x : Lane) : (s.setLane n x).hosts = s.hosts := rfl
@[simp] theorem setLane_ldm (s : State) (n : Nat) (x : Lane) : (s.setLane n x).ldm = s.ldm := rfl
@[simp] theorem setLane_cmp (s : State) (n : Nat) (x : Lane) : (s.setLane n x).cmp = s.cmp := rfl
@[simp] theorem setLane_scheds (s : State) (n : Nat) (x : Lane) : (s.setLane n x).scheds = s.scheds := rfl
@[simp] theorem setLane_chans (s : State) (n : Nat) (x : Lane) : (s.setLane n x).chans = s.chans := rfl
@[simp] theorem setLane_sas (s : State) (n : Nat) (x : Lane) : (s.setLane n x).sas = s.sas := rfl
@[simp] theorem setLane_cans (s : State) (n : Nat) (x : Lane) : (s.setLane n x).cans = s.cans := rfl
@[simp] theorem setLane_mgp (s : State) (n : Nat) (x : Lane) : (s.setLane n x).mgp = s.mgp := rfl
@[simp] theorem setLane_stx (s : State) (n : Nat) (x : Lane) : (s.setLane n x).stx = s.stx := rfl
@[simp] theorem setLane_time (s : State) (n : Nat) (x : Lane) : (s.setLane n x).time = s.time := rfl
@[simp] theorem setLane_ledger (s : State) (n : Nat) (x : Lane) : (s.setLane n x).ledger = s.ledger := rfl
@[simp] theorem setLane_rd (s : State) (n : Nat) (x : Lane) (f : Fld) : (s.setLane n x).rd f = s.rd f := rfl
@[simp] theorem setLane_cfg (s : State) (n : Nat) (x : Lane) (f : Fld) : (s.setLane n x).cfg f = s.cfg f := rfl
@[simp] theorem setLane_shadowOf (s : State) (n : Nat) (x : Lane) (f : Fld) : (s.setLane n x).shadowOf f = s.shadowOf f := rfl
@[simp] theorem setLane_appliedOf (s : State) (n : Nat) (x : Lane) (f : Fld) : (s.setLane n x).appliedOf f = s.appliedOf f := rfl
@[simp] theorem setLane_latchOf (s : State) (n : Nat) (x : Lane) (f : Fld) : (s.setLane n x).latchOf f = s.latchOf f := rfl
@[simp] theorem setLane_flag (s : State) (n : Nat) (x : Lane) (f : Fld) : (s.setLane n x).flag f = s.flag f := rfl
@[simp] theorem setLane_cfgb (s : State) (n : Nat) (x : Lane) (f : Fld) : (s.setLane n x).cfgb f = s.cfgb f := rfl
@[simp] theorem setLane_enabled (s : State) (n : Nat) (x : Lane) (p : Nat) : (s.setLane n x).enabled p = s.enabled p := rfl
@[simp] theorem setLane_active (s : State) (n : Nat) (x : Lane) (p : Nat) : (s.setLane n x).active p = s.active p := rfl
@[simp] theorem setLane_cmdSlot (s : State) (n : Nat) (x : Lane) (q o : Nat) : (s.setLane n x).cmdSlot q o = s.cmdSlot q o := rfl
@[simp] theorem setLane_up (s : State) (n : Nat) (x : Lane) : (s.setLane n x).up = s.up := rfl

@[simp] theorem setLedger_pending (s : State) (x : LedgerSt) : (s.setLedger x).pending = s.pending := rfl
@[simp] theorem setLedger_free (s : State) (x : LedgerSt) : (s.setLedger x).free = s.free := rfl
@[simp] theorem setLedger_regs (s : State) (x : LedgerSt) : (s.setLedger x).regs = s.regs := rfl
@[simp] theorem setLedger_cmds (s : State) (x : LedgerSt) : (s.setLedger x).cmds = s.cmds := rfl
@[simp] theorem setLedger_strobe (s : State) (x : LedgerSt) : (s.setLedger x).strobe = s.strobe := rfl
@[simp] theorem setLedger_enableChecks (s : State) (x : LedgerSt) : (s.setLedger x).enableChecks = s.enableChecks := rfl
@[simp] theorem setLedger_walker (s : State) (x : LedgerSt) : (s.setLedger x).walker = s.walker := rfl
@[simp] theorem setLedger_waits (s : State) (x : LedgerSt) : (s.setLedger x).waits = s.waits := rfl
@[simp] theorem setLedger_bus (s : State) (x : LedgerSt) : (s.setLedger x).bus = s.bus := rfl
@[simp] theorem setLedger_power (s : State) (x : LedgerSt) : (s.setLedger x).power = s.power := rfl
@[simp] theorem setLedger_mode (s : State) (x : LedgerSt) : (s.setLedger x).mode = s.mode := rfl
@[simp] theorem setLedger_otp (s : State) (x : LedgerSt) : (s.setLedger x).otp = s.otp := rfl
@[simp] theorem setLedger_nvm (s : State) (x : LedgerSt) : (s.setLedger x).nvm = s.nvm := rfl
@[simp] theorem setLedger_lcs (s : State) (x : LedgerSt) : (s.setLedger x).lcs = s.lcs := rfl
@[simp] theorem setLedger_dbg (s : State) (x : LedgerSt) : (s.setLedger x).dbg = s.dbg := rfl
@[simp] theorem setLedger_tap (s : State) (x : LedgerSt) : (s.setLedger x).tap = s.tap := rfl
@[simp] theorem setLedger_boot (s : State) (x : LedgerSt) : (s.setLedger x).boot = s.boot := rfl
@[simp] theorem setLedger_cores (s : State) (x : LedgerSt) : (s.setLedger x).cores = s.cores := rfl
@[simp] theorem setLedger_tcm (s : State) (x : LedgerSt) : (s.setLedger x).tcm = s.tcm := rfl
@[simp] theorem setLedger_wdtStart (s : State) (x : LedgerSt) : (s.setLedger x).wdtStart = s.wdtStart := rfl
@[simp] theorem setLedger_clove (s : State) (x : LedgerSt) : (s.setLedger x).clove = s.clove := rfl
@[simp] theorem setLedger_sram (s : State) (x : LedgerSt) : (s.setLedger x).sram = s.sram := rfl
@[simp] theorem setLedger_retention (s : State) (x : LedgerSt) : (s.setLedger x).retention = s.retention := rfl
@[simp] theorem setLedger_flash (s : State) (x : LedgerSt) : (s.setLedger x).flash = s.flash := rfl
@[simp] theorem setLedger_octal (s : State) (x : LedgerSt) : (s.setLedger x).octal = s.octal := rfl
@[simp] theorem setLedger_vault (s : State) (x : LedgerSt) : (s.setLedger x).vault = s.vault := rfl
@[simp] theorem setLedger_dge (s : State) (x : LedgerSt) : (s.setLedger x).dge = s.dge := rfl
@[simp] theorem setLedger_snp (s : State) (x : LedgerSt) : (s.setLedger x).snp = s.snp := rfl
@[simp] theorem setLedger_aes (s : State) (x : LedgerSt) : (s.setLedger x).aes = s.aes := rfl
@[simp] theorem setLedger_pke (s : State) (x : LedgerSt) : (s.setLedger x).pke = s.pke := rfl
@[simp] theorem setLedger_rng (s : State) (x : LedgerSt) : (s.setLedger x).rng = s.rng := rfl
@[simp] theorem setLedger_ecdhOut (s : State) (x : LedgerSt) : (s.setLedger x).ecdhOut = s.ecdhOut := rfl
@[simp] theorem setLedger_ports (s : State) (x : LedgerSt) : (s.setLedger x).ports = s.ports := rfl
@[simp] theorem setLedger_stages (s : State) (x : LedgerSt) : (s.setLedger x).stages = s.stages := rfl
@[simp] theorem setLedger_deferred (s : State) (x : LedgerSt) : (s.setLedger x).deferred = s.deferred := rfl
@[simp] theorem setLedger_hosts (s : State) (x : LedgerSt) : (s.setLedger x).hosts = s.hosts := rfl
@[simp] theorem setLedger_ldm (s : State) (x : LedgerSt) : (s.setLedger x).ldm = s.ldm := rfl
@[simp] theorem setLedger_cmp (s : State) (x : LedgerSt) : (s.setLedger x).cmp = s.cmp := rfl
@[simp] theorem setLedger_scheds (s : State) (x : LedgerSt) : (s.setLedger x).scheds = s.scheds := rfl
@[simp] theorem setLedger_chans (s : State) (x : LedgerSt) : (s.setLedger x).chans = s.chans := rfl
@[simp] theorem setLedger_sas (s : State) (x : LedgerSt) : (s.setLedger x).sas = s.sas := rfl
@[simp] theorem setLedger_lanes (s : State) (x : LedgerSt) : (s.setLedger x).lanes = s.lanes := rfl
@[simp] theorem setLedger_cans (s : State) (x : LedgerSt) : (s.setLedger x).cans = s.cans := rfl
@[simp] theorem setLedger_mgp (s : State) (x : LedgerSt) : (s.setLedger x).mgp = s.mgp := rfl
@[simp] theorem setLedger_stx (s : State) (x : LedgerSt) : (s.setLedger x).stx = s.stx := rfl
@[simp] theorem setLedger_time (s : State) (x : LedgerSt) : (s.setLedger x).time = s.time := rfl
@[simp] theorem setLedger_rd (s : State) (x : LedgerSt) (f : Fld) : (s.setLedger x).rd f = s.rd f := rfl
@[simp] theorem setLedger_cfg (s : State) (x : LedgerSt) (f : Fld) : (s.setLedger x).cfg f = s.cfg f := rfl
@[simp] theorem setLedger_shadowOf (s : State) (x : LedgerSt) (f : Fld) : (s.setLedger x).shadowOf f = s.shadowOf f := rfl
@[simp] theorem setLedger_appliedOf (s : State) (x : LedgerSt) (f : Fld) : (s.setLedger x).appliedOf f = s.appliedOf f := rfl
@[simp] theorem setLedger_latchOf (s : State) (x : LedgerSt) (f : Fld) : (s.setLedger x).latchOf f = s.latchOf f := rfl
@[simp] theorem setLedger_flag (s : State) (x : LedgerSt) (f : Fld) : (s.setLedger x).flag f = s.flag f := rfl
@[simp] theorem setLedger_cfgb (s : State) (x : LedgerSt) (f : Fld) : (s.setLedger x).cfgb f = s.cfgb f := rfl
@[simp] theorem setLedger_enabled (s : State) (x : LedgerSt) (p : Nat) : (s.setLedger x).enabled p = s.enabled p := rfl
@[simp] theorem setLedger_active (s : State) (x : LedgerSt) (p : Nat) : (s.setLedger x).active p = s.active p := rfl
@[simp] theorem setLedger_cmdSlot (s : State) (x : LedgerSt) (q o : Nat) : (s.setLedger x).cmdSlot q o = s.cmdSlot q o := rfl
@[simp] theorem setLedger_up (s : State) (x : LedgerSt) : (s.setLedger x).up = s.up := rfl

@[simp] theorem setTime_pending (s : State) (x : TimeSt) : (s.setTime x).pending = s.pending := rfl
@[simp] theorem setTime_free (s : State) (x : TimeSt) : (s.setTime x).free = s.free := rfl
@[simp] theorem setTime_regs (s : State) (x : TimeSt) : (s.setTime x).regs = s.regs := rfl
@[simp] theorem setTime_cmds (s : State) (x : TimeSt) : (s.setTime x).cmds = s.cmds := rfl
@[simp] theorem setTime_strobe (s : State) (x : TimeSt) : (s.setTime x).strobe = s.strobe := rfl
@[simp] theorem setTime_enableChecks (s : State) (x : TimeSt) : (s.setTime x).enableChecks = s.enableChecks := rfl
@[simp] theorem setTime_walker (s : State) (x : TimeSt) : (s.setTime x).walker = s.walker := rfl
@[simp] theorem setTime_waits (s : State) (x : TimeSt) : (s.setTime x).waits = s.waits := rfl
@[simp] theorem setTime_bus (s : State) (x : TimeSt) : (s.setTime x).bus = s.bus := rfl
@[simp] theorem setTime_power (s : State) (x : TimeSt) : (s.setTime x).power = s.power := rfl
@[simp] theorem setTime_mode (s : State) (x : TimeSt) : (s.setTime x).mode = s.mode := rfl
@[simp] theorem setTime_otp (s : State) (x : TimeSt) : (s.setTime x).otp = s.otp := rfl
@[simp] theorem setTime_nvm (s : State) (x : TimeSt) : (s.setTime x).nvm = s.nvm := rfl
@[simp] theorem setTime_lcs (s : State) (x : TimeSt) : (s.setTime x).lcs = s.lcs := rfl
@[simp] theorem setTime_dbg (s : State) (x : TimeSt) : (s.setTime x).dbg = s.dbg := rfl
@[simp] theorem setTime_tap (s : State) (x : TimeSt) : (s.setTime x).tap = s.tap := rfl
@[simp] theorem setTime_boot (s : State) (x : TimeSt) : (s.setTime x).boot = s.boot := rfl
@[simp] theorem setTime_cores (s : State) (x : TimeSt) : (s.setTime x).cores = s.cores := rfl
@[simp] theorem setTime_tcm (s : State) (x : TimeSt) : (s.setTime x).tcm = s.tcm := rfl
@[simp] theorem setTime_wdtStart (s : State) (x : TimeSt) : (s.setTime x).wdtStart = s.wdtStart := rfl
@[simp] theorem setTime_clove (s : State) (x : TimeSt) : (s.setTime x).clove = s.clove := rfl
@[simp] theorem setTime_sram (s : State) (x : TimeSt) : (s.setTime x).sram = s.sram := rfl
@[simp] theorem setTime_retention (s : State) (x : TimeSt) : (s.setTime x).retention = s.retention := rfl
@[simp] theorem setTime_flash (s : State) (x : TimeSt) : (s.setTime x).flash = s.flash := rfl
@[simp] theorem setTime_octal (s : State) (x : TimeSt) : (s.setTime x).octal = s.octal := rfl
@[simp] theorem setTime_vault (s : State) (x : TimeSt) : (s.setTime x).vault = s.vault := rfl
@[simp] theorem setTime_dge (s : State) (x : TimeSt) : (s.setTime x).dge = s.dge := rfl
@[simp] theorem setTime_snp (s : State) (x : TimeSt) : (s.setTime x).snp = s.snp := rfl
@[simp] theorem setTime_aes (s : State) (x : TimeSt) : (s.setTime x).aes = s.aes := rfl
@[simp] theorem setTime_pke (s : State) (x : TimeSt) : (s.setTime x).pke = s.pke := rfl
@[simp] theorem setTime_rng (s : State) (x : TimeSt) : (s.setTime x).rng = s.rng := rfl
@[simp] theorem setTime_ecdhOut (s : State) (x : TimeSt) : (s.setTime x).ecdhOut = s.ecdhOut := rfl
@[simp] theorem setTime_ports (s : State) (x : TimeSt) : (s.setTime x).ports = s.ports := rfl
@[simp] theorem setTime_stages (s : State) (x : TimeSt) : (s.setTime x).stages = s.stages := rfl
@[simp] theorem setTime_deferred (s : State) (x : TimeSt) : (s.setTime x).deferred = s.deferred := rfl
@[simp] theorem setTime_hosts (s : State) (x : TimeSt) : (s.setTime x).hosts = s.hosts := rfl
@[simp] theorem setTime_ldm (s : State) (x : TimeSt) : (s.setTime x).ldm = s.ldm := rfl
@[simp] theorem setTime_cmp (s : State) (x : TimeSt) : (s.setTime x).cmp = s.cmp := rfl
@[simp] theorem setTime_scheds (s : State) (x : TimeSt) : (s.setTime x).scheds = s.scheds := rfl
@[simp] theorem setTime_chans (s : State) (x : TimeSt) : (s.setTime x).chans = s.chans := rfl
@[simp] theorem setTime_sas (s : State) (x : TimeSt) : (s.setTime x).sas = s.sas := rfl
@[simp] theorem setTime_lanes (s : State) (x : TimeSt) : (s.setTime x).lanes = s.lanes := rfl
@[simp] theorem setTime_cans (s : State) (x : TimeSt) : (s.setTime x).cans = s.cans := rfl
@[simp] theorem setTime_mgp (s : State) (x : TimeSt) : (s.setTime x).mgp = s.mgp := rfl
@[simp] theorem setTime_stx (s : State) (x : TimeSt) : (s.setTime x).stx = s.stx := rfl
@[simp] theorem setTime_ledger (s : State) (x : TimeSt) : (s.setTime x).ledger = s.ledger := rfl
@[simp] theorem setTime_rd (s : State) (x : TimeSt) (f : Fld) : (s.setTime x).rd f = s.rd f := rfl
@[simp] theorem setTime_cfg (s : State) (x : TimeSt) (f : Fld) : (s.setTime x).cfg f = s.cfg f := rfl
@[simp] theorem setTime_shadowOf (s : State) (x : TimeSt) (f : Fld) : (s.setTime x).shadowOf f = s.shadowOf f := rfl
@[simp] theorem setTime_appliedOf (s : State) (x : TimeSt) (f : Fld) : (s.setTime x).appliedOf f = s.appliedOf f := rfl
@[simp] theorem setTime_latchOf (s : State) (x : TimeSt) (f : Fld) : (s.setTime x).latchOf f = s.latchOf f := rfl
@[simp] theorem setTime_flag (s : State) (x : TimeSt) (f : Fld) : (s.setTime x).flag f = s.flag f := rfl
@[simp] theorem setTime_cfgb (s : State) (x : TimeSt) (f : Fld) : (s.setTime x).cfgb f = s.cfgb f := rfl
@[simp] theorem setTime_enabled (s : State) (x : TimeSt) (p : Nat) : (s.setTime x).enabled p = s.enabled p := rfl
@[simp] theorem setTime_active (s : State) (x : TimeSt) (p : Nat) : (s.setTime x).active p = s.active p := rfl
@[simp] theorem setTime_cmdSlot (s : State) (x : TimeSt) (q o : Nat) : (s.setTime x).cmdSlot q o = s.cmdSlot q o := rfl
@[simp] theorem setTime_up (s : State) (x : TimeSt) : (s.setTime x).up = s.up := rfl

@[simp] theorem setStage_pending (s : State) (n : Nat) (x : Stage) : (s.setStage n x).pending = s.pending := rfl
@[simp] theorem setStage_free (s : State) (n : Nat) (x : Stage) : (s.setStage n x).free = s.free := rfl
@[simp] theorem setStage_regs (s : State) (n : Nat) (x : Stage) : (s.setStage n x).regs = s.regs := rfl
@[simp] theorem setStage_cmds (s : State) (n : Nat) (x : Stage) : (s.setStage n x).cmds = s.cmds := rfl
@[simp] theorem setStage_strobe (s : State) (n : Nat) (x : Stage) : (s.setStage n x).strobe = s.strobe := rfl
@[simp] theorem setStage_enableChecks (s : State) (n : Nat) (x : Stage) : (s.setStage n x).enableChecks = s.enableChecks := rfl
@[simp] theorem setStage_walker (s : State) (n : Nat) (x : Stage) : (s.setStage n x).walker = s.walker := rfl
@[simp] theorem setStage_waits (s : State) (n : Nat) (x : Stage) : (s.setStage n x).waits = s.waits := rfl
@[simp] theorem setStage_bus (s : State) (n : Nat) (x : Stage) : (s.setStage n x).bus = s.bus := rfl
@[simp] theorem setStage_power (s : State) (n : Nat) (x : Stage) : (s.setStage n x).power = s.power := rfl
@[simp] theorem setStage_mode (s : State) (n : Nat) (x : Stage) : (s.setStage n x).mode = s.mode := rfl
@[simp] theorem setStage_otp (s : State) (n : Nat) (x : Stage) : (s.setStage n x).otp = s.otp := rfl
@[simp] theorem setStage_nvm (s : State) (n : Nat) (x : Stage) : (s.setStage n x).nvm = s.nvm := rfl
@[simp] theorem setStage_lcs (s : State) (n : Nat) (x : Stage) : (s.setStage n x).lcs = s.lcs := rfl
@[simp] theorem setStage_dbg (s : State) (n : Nat) (x : Stage) : (s.setStage n x).dbg = s.dbg := rfl
@[simp] theorem setStage_tap (s : State) (n : Nat) (x : Stage) : (s.setStage n x).tap = s.tap := rfl
@[simp] theorem setStage_boot (s : State) (n : Nat) (x : Stage) : (s.setStage n x).boot = s.boot := rfl
@[simp] theorem setStage_cores (s : State) (n : Nat) (x : Stage) : (s.setStage n x).cores = s.cores := rfl
@[simp] theorem setStage_tcm (s : State) (n : Nat) (x : Stage) : (s.setStage n x).tcm = s.tcm := rfl
@[simp] theorem setStage_wdtStart (s : State) (n : Nat) (x : Stage) : (s.setStage n x).wdtStart = s.wdtStart := rfl
@[simp] theorem setStage_clove (s : State) (n : Nat) (x : Stage) : (s.setStage n x).clove = s.clove := rfl
@[simp] theorem setStage_sram (s : State) (n : Nat) (x : Stage) : (s.setStage n x).sram = s.sram := rfl
@[simp] theorem setStage_retention (s : State) (n : Nat) (x : Stage) : (s.setStage n x).retention = s.retention := rfl
@[simp] theorem setStage_flash (s : State) (n : Nat) (x : Stage) : (s.setStage n x).flash = s.flash := rfl
@[simp] theorem setStage_octal (s : State) (n : Nat) (x : Stage) : (s.setStage n x).octal = s.octal := rfl
@[simp] theorem setStage_vault (s : State) (n : Nat) (x : Stage) : (s.setStage n x).vault = s.vault := rfl
@[simp] theorem setStage_dge (s : State) (n : Nat) (x : Stage) : (s.setStage n x).dge = s.dge := rfl
@[simp] theorem setStage_snp (s : State) (n : Nat) (x : Stage) : (s.setStage n x).snp = s.snp := rfl
@[simp] theorem setStage_aes (s : State) (n : Nat) (x : Stage) : (s.setStage n x).aes = s.aes := rfl
@[simp] theorem setStage_pke (s : State) (n : Nat) (x : Stage) : (s.setStage n x).pke = s.pke := rfl
@[simp] theorem setStage_rng (s : State) (n : Nat) (x : Stage) : (s.setStage n x).rng = s.rng := rfl
@[simp] theorem setStage_ecdhOut (s : State) (n : Nat) (x : Stage) : (s.setStage n x).ecdhOut = s.ecdhOut := rfl
@[simp] theorem setStage_ports (s : State) (n : Nat) (x : Stage) : (s.setStage n x).ports = s.ports := rfl
@[simp] theorem setStage_deferred (s : State) (n : Nat) (x : Stage) : (s.setStage n x).deferred = s.deferred := rfl
@[simp] theorem setStage_hosts (s : State) (n : Nat) (x : Stage) : (s.setStage n x).hosts = s.hosts := rfl
@[simp] theorem setStage_ldm (s : State) (n : Nat) (x : Stage) : (s.setStage n x).ldm = s.ldm := rfl
@[simp] theorem setStage_cmp (s : State) (n : Nat) (x : Stage) : (s.setStage n x).cmp = s.cmp := rfl
@[simp] theorem setStage_scheds (s : State) (n : Nat) (x : Stage) : (s.setStage n x).scheds = s.scheds := rfl
@[simp] theorem setStage_chans (s : State) (n : Nat) (x : Stage) : (s.setStage n x).chans = s.chans := rfl
@[simp] theorem setStage_sas (s : State) (n : Nat) (x : Stage) : (s.setStage n x).sas = s.sas := rfl
@[simp] theorem setStage_lanes (s : State) (n : Nat) (x : Stage) : (s.setStage n x).lanes = s.lanes := rfl
@[simp] theorem setStage_cans (s : State) (n : Nat) (x : Stage) : (s.setStage n x).cans = s.cans := rfl
@[simp] theorem setStage_mgp (s : State) (n : Nat) (x : Stage) : (s.setStage n x).mgp = s.mgp := rfl
@[simp] theorem setStage_stx (s : State) (n : Nat) (x : Stage) : (s.setStage n x).stx = s.stx := rfl
@[simp] theorem setStage_time (s : State) (n : Nat) (x : Stage) : (s.setStage n x).time = s.time := rfl
@[simp] theorem setStage_ledger (s : State) (n : Nat) (x : Stage) : (s.setStage n x).ledger = s.ledger := rfl
@[simp] theorem setStage_rd (s : State) (n : Nat) (x : Stage) (f : Fld) : (s.setStage n x).rd f = s.rd f := rfl
@[simp] theorem setStage_cfg (s : State) (n : Nat) (x : Stage) (f : Fld) : (s.setStage n x).cfg f = s.cfg f := rfl
@[simp] theorem setStage_shadowOf (s : State) (n : Nat) (x : Stage) (f : Fld) : (s.setStage n x).shadowOf f = s.shadowOf f := rfl
@[simp] theorem setStage_appliedOf (s : State) (n : Nat) (x : Stage) (f : Fld) : (s.setStage n x).appliedOf f = s.appliedOf f := rfl
@[simp] theorem setStage_latchOf (s : State) (n : Nat) (x : Stage) (f : Fld) : (s.setStage n x).latchOf f = s.latchOf f := rfl
@[simp] theorem setStage_flag (s : State) (n : Nat) (x : Stage) (f : Fld) : (s.setStage n x).flag f = s.flag f := rfl
@[simp] theorem setStage_cfgb (s : State) (n : Nat) (x : Stage) (f : Fld) : (s.setStage n x).cfgb f = s.cfgb f := rfl
@[simp] theorem setStage_enabled (s : State) (n : Nat) (x : Stage) (p : Nat) : (s.setStage n x).enabled p = s.enabled p := rfl
@[simp] theorem setStage_active (s : State) (n : Nat) (x : Stage) (p : Nat) : (s.setStage n x).active p = s.active p := rfl
@[simp] theorem setStage_cmdSlot (s : State) (n : Nat) (x : Stage) (q o : Nat) : (s.setStage n x).cmdSlot q o = s.cmdSlot q o := rfl
@[simp] theorem setStage_up (s : State) (n : Nat) (x : Stage) : (s.setStage n x).up = s.up := rfl

@[simp] theorem setSlot_pending (s : State) (n : Nat) (x : Slot) : (s.setSlot n x).pending = s.pending := rfl
@[simp] theorem setSlot_free (s : State) (n : Nat) (x : Slot) : (s.setSlot n x).free = s.free := rfl
@[simp] theorem setSlot_regs (s : State) (n : Nat) (x : Slot) : (s.setSlot n x).regs = s.regs := rfl
@[simp] theorem setSlot_cmds (s : State) (n : Nat) (x : Slot) : (s.setSlot n x).cmds = s.cmds := rfl
@[simp] theorem setSlot_strobe (s : State) (n : Nat) (x : Slot) : (s.setSlot n x).strobe = s.strobe := rfl
@[simp] theorem setSlot_enableChecks (s : State) (n : Nat) (x : Slot) : (s.setSlot n x).enableChecks = s.enableChecks := rfl
@[simp] theorem setSlot_walker (s : State) (n : Nat) (x : Slot) : (s.setSlot n x).walker = s.walker := rfl
@[simp] theorem setSlot_waits (s : State) (n : Nat) (x : Slot) : (s.setSlot n x).waits = s.waits := rfl
@[simp] theorem setSlot_bus (s : State) (n : Nat) (x : Slot) : (s.setSlot n x).bus = s.bus := rfl
@[simp] theorem setSlot_power (s : State) (n : Nat) (x : Slot) : (s.setSlot n x).power = s.power := rfl
@[simp] theorem setSlot_mode (s : State) (n : Nat) (x : Slot) : (s.setSlot n x).mode = s.mode := rfl
@[simp] theorem setSlot_otp (s : State) (n : Nat) (x : Slot) : (s.setSlot n x).otp = s.otp := rfl
@[simp] theorem setSlot_nvm (s : State) (n : Nat) (x : Slot) : (s.setSlot n x).nvm = s.nvm := rfl
@[simp] theorem setSlot_lcs (s : State) (n : Nat) (x : Slot) : (s.setSlot n x).lcs = s.lcs := rfl
@[simp] theorem setSlot_dbg (s : State) (n : Nat) (x : Slot) : (s.setSlot n x).dbg = s.dbg := rfl
@[simp] theorem setSlot_tap (s : State) (n : Nat) (x : Slot) : (s.setSlot n x).tap = s.tap := rfl
@[simp] theorem setSlot_boot (s : State) (n : Nat) (x : Slot) : (s.setSlot n x).boot = s.boot := rfl
@[simp] theorem setSlot_cores (s : State) (n : Nat) (x : Slot) : (s.setSlot n x).cores = s.cores := rfl
@[simp] theorem setSlot_tcm (s : State) (n : Nat) (x : Slot) : (s.setSlot n x).tcm = s.tcm := rfl
@[simp] theorem setSlot_wdtStart (s : State) (n : Nat) (x : Slot) : (s.setSlot n x).wdtStart = s.wdtStart := rfl
@[simp] theorem setSlot_clove (s : State) (n : Nat) (x : Slot) : (s.setSlot n x).clove = s.clove := rfl
@[simp] theorem setSlot_sram (s : State) (n : Nat) (x : Slot) : (s.setSlot n x).sram = s.sram := rfl
@[simp] theorem setSlot_retention (s : State) (n : Nat) (x : Slot) : (s.setSlot n x).retention = s.retention := rfl
@[simp] theorem setSlot_flash (s : State) (n : Nat) (x : Slot) : (s.setSlot n x).flash = s.flash := rfl
@[simp] theorem setSlot_octal (s : State) (n : Nat) (x : Slot) : (s.setSlot n x).octal = s.octal := rfl
@[simp] theorem setSlot_dge (s : State) (n : Nat) (x : Slot) : (s.setSlot n x).dge = s.dge := rfl
@[simp] theorem setSlot_snp (s : State) (n : Nat) (x : Slot) : (s.setSlot n x).snp = s.snp := rfl
@[simp] theorem setSlot_aes (s : State) (n : Nat) (x : Slot) : (s.setSlot n x).aes = s.aes := rfl
@[simp] theorem setSlot_pke (s : State) (n : Nat) (x : Slot) : (s.setSlot n x).pke = s.pke := rfl
@[simp] theorem setSlot_rng (s : State) (n : Nat) (x : Slot) : (s.setSlot n x).rng = s.rng := rfl
@[simp] theorem setSlot_ecdhOut (s : State) (n : Nat) (x : Slot) : (s.setSlot n x).ecdhOut = s.ecdhOut := rfl
@[simp] theorem setSlot_ports (s : State) (n : Nat) (x : Slot) : (s.setSlot n x).ports = s.ports := rfl
@[simp] theorem setSlot_stages (s : State) (n : Nat) (x : Slot) : (s.setSlot n x).stages = s.stages := rfl
@[simp] theorem setSlot_deferred (s : State) (n : Nat) (x : Slot) : (s.setSlot n x).deferred = s.deferred := rfl
@[simp] theorem setSlot_hosts (s : State) (n : Nat) (x : Slot) : (s.setSlot n x).hosts = s.hosts := rfl
@[simp] theorem setSlot_ldm (s : State) (n : Nat) (x : Slot) : (s.setSlot n x).ldm = s.ldm := rfl
@[simp] theorem setSlot_cmp (s : State) (n : Nat) (x : Slot) : (s.setSlot n x).cmp = s.cmp := rfl
@[simp] theorem setSlot_scheds (s : State) (n : Nat) (x : Slot) : (s.setSlot n x).scheds = s.scheds := rfl
@[simp] theorem setSlot_chans (s : State) (n : Nat) (x : Slot) : (s.setSlot n x).chans = s.chans := rfl
@[simp] theorem setSlot_sas (s : State) (n : Nat) (x : Slot) : (s.setSlot n x).sas = s.sas := rfl
@[simp] theorem setSlot_lanes (s : State) (n : Nat) (x : Slot) : (s.setSlot n x).lanes = s.lanes := rfl
@[simp] theorem setSlot_cans (s : State) (n : Nat) (x : Slot) : (s.setSlot n x).cans = s.cans := rfl
@[simp] theorem setSlot_mgp (s : State) (n : Nat) (x : Slot) : (s.setSlot n x).mgp = s.mgp := rfl
@[simp] theorem setSlot_stx (s : State) (n : Nat) (x : Slot) : (s.setSlot n x).stx = s.stx := rfl
@[simp] theorem setSlot_time (s : State) (n : Nat) (x : Slot) : (s.setSlot n x).time = s.time := rfl
@[simp] theorem setSlot_ledger (s : State) (n : Nat) (x : Slot) : (s.setSlot n x).ledger = s.ledger := rfl
@[simp] theorem setSlot_rd (s : State) (n : Nat) (x : Slot) (f : Fld) : (s.setSlot n x).rd f = s.rd f := rfl
@[simp] theorem setSlot_cfg (s : State) (n : Nat) (x : Slot) (f : Fld) : (s.setSlot n x).cfg f = s.cfg f := rfl
@[simp] theorem setSlot_shadowOf (s : State) (n : Nat) (x : Slot) (f : Fld) : (s.setSlot n x).shadowOf f = s.shadowOf f := rfl
@[simp] theorem setSlot_appliedOf (s : State) (n : Nat) (x : Slot) (f : Fld) : (s.setSlot n x).appliedOf f = s.appliedOf f := rfl
@[simp] theorem setSlot_latchOf (s : State) (n : Nat) (x : Slot) (f : Fld) : (s.setSlot n x).latchOf f = s.latchOf f := rfl
@[simp] theorem setSlot_flag (s : State) (n : Nat) (x : Slot) (f : Fld) : (s.setSlot n x).flag f = s.flag f := rfl
@[simp] theorem setSlot_cfgb (s : State) (n : Nat) (x : Slot) (f : Fld) : (s.setSlot n x).cfgb f = s.cfgb f := rfl
@[simp] theorem setSlot_enabled (s : State) (n : Nat) (x : Slot) (p : Nat) : (s.setSlot n x).enabled p = s.enabled p := rfl
@[simp] theorem setSlot_active (s : State) (n : Nat) (x : Slot) (p : Nat) : (s.setSlot n x).active p = s.active p := rfl
@[simp] theorem setSlot_cmdSlot (s : State) (n : Nat) (x : Slot) (q o : Nat) : (s.setSlot n x).cmdSlot q o = s.cmdSlot q o := rfl
@[simp] theorem setSlot_up (s : State) (n : Nat) (x : Slot) : (s.setSlot n x).up = s.up := rfl

/-! #### Reading a field after a write -/

theorem live_setLive (r : RegFile) (d e : Dom) (t : Tbl Nat) : (r.setLive d t).live e = if d = e then t else r.live e := by
  cases d <;> cases e <;> rfl

/-- A field reads what was written, cut to its width. -/
@[simp] theorem rd_wr_same (s : State) (f : Fld) (v : Nat) : (s.wr f v).rd f = v % 2 ^ f.width := by
  simp [rd, wr, live_setLive, Tbl.get_put_same]

/-- A write leaves every other field alone. -/
theorem rd_wr_ne (s : State) (f g : Fld) (v : Nat) (h : f.dom ≠ g.dom ∨ f.keyOf ≠ g.keyOf) : (s.wr f v).rd g = s.rd g := by
  unfold rd wr
  simp only [live_setLive]
  split
  · rename_i hd
    rcases h with h | h
    · exact absurd hd h
    · rw [hd, Tbl.get_put_ne' _ _ _ _ _ _ (Ne.symm h)]
  · rfl

@[simp] theorem cmdSlot_setCmdSlot_same (s : State) (p off : Nat) (c : CmdSlot) : (s.setCmdSlot p off c).cmdSlot p off = c := by
  simp [cmdSlot, setCmdSlot, Tbl.get_put_same]

theorem cmdSlot_setCmdSlot_ne (s : State) (p off q o : Nat) (c : CmdSlot) (h : cmdKey p off ≠ cmdKey q o) :
    (s.setCmdSlot p off c).cmdSlot q o = s.cmdSlot q o := by
  simp [cmdSlot, setCmdSlot, Tbl.get_put_ne _ _ _ _ _ (Ne.symm h)]

/-! #### The CMD register (R72): what `issue` can do -/

theorem issue_off (s : State) (p off : Nat) (i : Instr) (f : State → State) (h : s.up = false) : s.issue p off i f = s := by
  simp [issue, h]

theorem issue_lost (s : State) (p off : Nat) (i : Instr) (f : State → State) (h : s.up = true)
    (q : (s.cmdSlot p off).queued.isSome = true) : s.issue p off i f = s.cmdLost p := by
  simp only [issue, h, q]; rfl

theorem issue_queue (s : State) (p off : Nat) (i : Instr) (f : State → State) (h : s.up = true)
    (q : (s.cmdSlot p off).queued = none) (r : (s.cmdSlot p off).running.isSome = true) :
    s.issue p off i f = s.setCmdSlot p off ⟨(s.cmdSlot p off).running, some i⟩ := by
  simp only [issue, h, q, r]; rfl

theorem issue_start (s : State) (p off : Nat) (i : Instr) (f : State → State) (h : s.up = true)
    (c : s.cmdSlot p off = ⟨none, none⟩) : s.issue p off i f = f s := by
  simp [issue, h, c]

theorem rd_wr_ne' (s : State) (f g : Fld) (v : Nat) (h : f.keyOf ≠ g.keyOf) : (s.wr f v).rd g = s.rd g :=
  rd_wr_ne s f g v (Or.inr h)

theorem ready_iff (s : State) (p off : Nat) : s.ready p off = true ↔ s.up = true ∧ s.cmdSlot p off = ⟨none, none⟩ := by
  simp [ready]

end State

/-! #### Where the header fields lie (R65) -/

theorem Hdr.keyOf_ENABLE (p : Nat) : (Hdr.ENABLE p).keyOf = (p * 0x10000 + 0x004) * 32 + 0 := rfl
@[simp] theorem Hdr.width_ENABLE (p : Nat) : (Hdr.ENABLE p).width = 1 := rfl
@[simp] theorem Hdr.page_ENABLE (p : Nat) : (Hdr.ENABLE p).page = p := rfl
theorem Hdr.keyOf_UPD_GROUP (p : Nat) : (Hdr.UPD_GROUP p).keyOf = (p * 0x10000 + 0x004) * 32 + 4 := rfl
@[simp] theorem Hdr.width_UPD_GROUP (p : Nat) : (Hdr.UPD_GROUP p).width = 3 := rfl
@[simp] theorem Hdr.page_UPD_GROUP (p : Nat) : (Hdr.UPD_GROUP p).page = p := rfl
theorem Hdr.keyOf_LOCK (p : Nat) : (Hdr.LOCK p).keyOf = (p * 0x10000 + 0x004) * 32 + 8 := rfl
@[simp] theorem Hdr.width_LOCK (p : Nat) : (Hdr.LOCK p).width = 1 := rfl
@[simp] theorem Hdr.page_LOCK (p : Nat) : (Hdr.LOCK p).page = p := rfl
theorem Hdr.keyOf_ACTIVE (p : Nat) : (Hdr.ACTIVE p).keyOf = (p * 0x10000 + 0x008) * 32 + 0 := rfl
@[simp] theorem Hdr.width_ACTIVE (p : Nat) : (Hdr.ACTIVE p).width = 1 := rfl
@[simp] theorem Hdr.page_ACTIVE (p : Nat) : (Hdr.ACTIVE p).page = p := rfl
theorem Hdr.keyOf_CHECK_BUSY (p : Nat) : (Hdr.CHECK_BUSY p).keyOf = (p * 0x10000 + 0x008) * 32 + 1 := rfl
@[simp] theorem Hdr.width_CHECK_BUSY (p : Nat) : (Hdr.CHECK_BUSY p).width = 1 := rfl
@[simp] theorem Hdr.page_CHECK_BUSY (p : Nat) : (Hdr.CHECK_BUSY p).page = p := rfl
theorem Hdr.keyOf_CHECK_FAIL (p : Nat) : (Hdr.CHECK_FAIL p).keyOf = (p * 0x10000 + 0x008) * 32 + 2 := rfl
@[simp] theorem Hdr.width_CHECK_FAIL (p : Nat) : (Hdr.CHECK_FAIL p).width = 1 := rfl
@[simp] theorem Hdr.page_CHECK_FAIL (p : Nat) : (Hdr.CHECK_FAIL p).page = p := rfl
theorem Hdr.keyOf_PENDING (p : Nat) : (Hdr.PENDING p).keyOf = (p * 0x10000 + 0x008) * 32 + 3 := rfl
@[simp] theorem Hdr.width_PENDING (p : Nat) : (Hdr.PENDING p).width = 1 := rfl
@[simp] theorem Hdr.page_PENDING (p : Nat) : (Hdr.PENDING p).page = p := rfl
theorem Hdr.keyOf_STALL_ABORT (p : Nat) : (Hdr.STALL_ABORT p).keyOf = (p * 0x10000 + 0x008) * 32 + 4 := rfl
@[simp] theorem Hdr.width_STALL_ABORT (p : Nat) : (Hdr.STALL_ABORT p).width = 1 := rfl
@[simp] theorem Hdr.page_STALL_ABORT (p : Nat) : (Hdr.STALL_ABORT p).page = p := rfl
theorem Hdr.keyOf_WRITE_LOST (p : Nat) : (Hdr.WRITE_LOST p).keyOf = (p * 0x10000 + 0x008) * 32 + 5 := rfl
@[simp] theorem Hdr.width_WRITE_LOST (p : Nat) : (Hdr.WRITE_LOST p).width = 1 := rfl
@[simp] theorem Hdr.page_WRITE_LOST (p : Nat) : (Hdr.WRITE_LOST p).page = p := rfl
theorem Hdr.keyOf_LOCKED (p : Nat) : (Hdr.LOCKED p).keyOf = (p * 0x10000 + 0x008) * 32 + 6 := rfl
@[simp] theorem Hdr.width_LOCKED (p : Nat) : (Hdr.LOCKED p).width = 1 := rfl
@[simp] theorem Hdr.page_LOCKED (p : Nat) : (Hdr.LOCKED p).page = p := rfl
theorem Hdr.keyOf_CMD_LOST (p : Nat) : (Hdr.CMD_LOST p).keyOf = (p * 0x10000 + 0x008) * 32 + 7 := rfl
@[simp] theorem Hdr.width_CMD_LOST (p : Nat) : (Hdr.CMD_LOST p).width = 1 := rfl
@[simp] theorem Hdr.page_CMD_LOST (p : Nat) : (Hdr.CMD_LOST p).page = p := rfl
theorem Hdr.keyOf_REASON_CODE (p : Nat) : (Hdr.REASON_CODE p).keyOf = (p * 0x10000 + 0x00C) * 32 + 0 := rfl
@[simp] theorem Hdr.width_REASON_CODE (p : Nat) : (Hdr.REASON_CODE p).width = 16 := rfl
@[simp] theorem Hdr.page_REASON_CODE (p : Nat) : (Hdr.REASON_CODE p).page = p := rfl
theorem Hdr.keyOf_REASON_OFFSET (p : Nat) : (Hdr.REASON_OFFSET p).keyOf = (p * 0x10000 + 0x00C) * 32 + 16 := rfl
@[simp] theorem Hdr.width_REASON_OFFSET (p : Nat) : (Hdr.REASON_OFFSET p).width = 16 := rfl
@[simp] theorem Hdr.page_REASON_OFFSET (p : Nat) : (Hdr.REASON_OFFSET p).page = p := rfl
theorem Hdr.keyOf_EVENT (p b : Nat) : (Hdr.EVENT p b).keyOf = (p * 0x10000 + 0x010) * 32 + b := rfl
@[simp] theorem Hdr.width_EVENT (p b : Nat) : (Hdr.EVENT p b).width = 1 := rfl
@[simp] theorem Hdr.page_EVENT (p b : Nat) : (Hdr.EVENT p b).page = p := rfl
theorem Hdr.keyOf_EVENT_EN (p b : Nat) : (Hdr.EVENT_EN p b).keyOf = (p * 0x10000 + 0x014) * 32 + b := rfl
@[simp] theorem Hdr.width_EVENT_EN (p b : Nat) : (Hdr.EVENT_EN p b).width = 1 := rfl
@[simp] theorem Hdr.page_EVENT_EN (p b : Nat) : (Hdr.EVENT_EN p b).page = p := rfl
theorem Hdr.keyOf_WRITE_LOST_AT (p : Nat) : (Hdr.WRITE_LOST_AT p).keyOf = (p * 0x10000 + 0x018) * 32 + 0 := rfl
@[simp] theorem Hdr.width_WRITE_LOST_AT (p : Nat) : (Hdr.WRITE_LOST_AT p).width = 12 := rfl
@[simp] theorem Hdr.page_WRITE_LOST_AT (p : Nat) : (Hdr.WRITE_LOST_AT p).page = p := rfl

/-! #### Frames -/

theorem sameStores_refl (s : State) : sameStores s s := ⟨rfl, rfl, rfl, rfl, rfl, rfl, rfl⟩

theorem sameStores_trans {a b c : State} (h : sameStores a b) (k : sameStores b c) : sameStores a c :=
  ⟨k.1.trans h.1, k.2.trans h.2, k.3.trans h.3, k.4.trans h.4, k.5.trans h.5, k.6.trans h.6, k.7.trans h.7⟩

theorem sameStores_wr (s : State) (f : Fld) (v : Nat) : sameStores s (s.wr f v) := ⟨rfl, rfl, rfl, rfl, rfl, rfl, rfl⟩

theorem sameCfg_refl (s : State) : sameCfg s s := ⟨rfl, rfl, rfl, rfl, rfl⟩

theorem sameCfg_trans {a b c : State} (h : sameCfg a b) (k : sameCfg b c) : sameCfg a c :=
  ⟨k.1.trans h.1, k.2.trans h.2, k.3.trans h.3, k.4.trans h.4, k.5.trans h.5⟩

theorem sameCfg_wr (s : State) (f : Fld) (v : Nat) : sameCfg s (s.wr f v) := by
  constructor <;> (unfold State.wr; cases f.dom <;> rfl)

theorem sameFieldsBut_refl (l : List Fld) (s : State) : sameFieldsBut l s s := fun _ _ => rfl

theorem sameFieldsBut_trans {l : List Fld} {a b c : State} (h : sameFieldsBut l a b) (k : sameFieldsBut l b c) : sameFieldsBut l a c :=
  fun g hg => (k g hg).trans (h g hg)

theorem sameFieldsBut_wr (l : List Fld) (s : State) (f : Fld) (v : Nat) (h : f ∈ l) : sameFieldsBut l s (s.wr f v) :=
  fun g hg => State.rd_wr_ne' s f g v (hg f h)

end Sys2Proof.Machine
end

