-- ==== Sys2Proof/Laws/Commands.lean ====
section
/-! SUPPORT. What every command of a command register does: `exec` of it is `issue` on the register that `cmdSpec` names (R72). -/

namespace Sys2Proof.Machine

/-- Every command of a command register is issued there (R72); UNLOCK_RMT outside a round, UPDATE_STROBE with a group. -/
theorem exec_cmd (s : State) (i : Instr) (p off : Nat) (f : State → State) (h : cmdSpec i = some (p, off, f))
    (hu : i = .unlockRmt → s.flag Reg.ATT.STATUS_ROUND_BUSY = false) (hg : ∀ g, i = .updateStrobe g → g % 256 ≠ 0) :
    exec i s = .next (s.issue p off i f) := by
  cases i <;> first
    | (simp only [cmdSpec, cmdLow, cmdHigh, Option.orElse, reduceCtorEq] at h; done)
    | (have := hu rfl; cases h; simp [exec, execUnlockRmt, this])
    | (have := hg _ rfl; cases h; simp [exec, execUpdateStrobe, this])
    | (cases h; rfl)

/-- A command whose register is free starts at once (R72). -/
theorem exec_cmd_ready (s : State) (i : Instr) (p off : Nat) (f : State → State) (h : cmdSpec i = some (p, off, f))
    (hr : s.ready p off = true)
    (hu : i = .unlockRmt → s.flag Reg.ATT.STATUS_ROUND_BUSY = false) (hg : ∀ g, i = .updateStrobe g → g % 256 ≠ 0) :
    exec i s = .next (f s) := by
  obtain ⟨a, b⟩ := (State.ready_iff s p off).mp hr
  rw [exec_cmd s i p off f h hu hg, State.issue_start s p off i f a b]

end Sys2Proof.Machine
end

