-- ==== Sys2Proof/Laws/Crc.lean ====
section
/-! SUPPORT. The CRC-32C of R89 on numbers, which the kernel evaluates fast, and what a write of a field that is not CFG leaves of
the CRC of a page in force (R265). -/

namespace Sys2Proof.Machine

/-- One bit of the reflected CRC-32C, on a number. -/
def crcBitN (c : Nat) : Nat := Nat.xor (Nat.div c 2) (Nat.mul 0x82F63B78 (Nat.mod c 2))

theorem crcBit_toNat (c : BitVec 32) : (crcBit c).toNat = crcBitN c.toNat := by
  have u : crcBitN c.toNat = (c.toNat / 2) ^^^ (0x82F63B78 * (c.toNat % 2)) := rfl
  rw [u]
  unfold crcBit
  have h : c.getLsbD 0 = decide (c.toNat % 2 = 1) := by simp [BitVec.getLsbD, Nat.testBit_zero]
  rw [h]
  rcases Nat.mod_two_eq_zero_or_one c.toNat with e | e <;> simp [e, BitVec.toNat_ushiftRight, BitVec.toNat_xor, Nat.shiftRight_one]

/-- One byte of it, on numbers. -/
def crcByteN (c b : Nat) : Nat := crcBitN (crcBitN (crcBitN (crcBitN (crcBitN (crcBitN (crcBitN (crcBitN (Nat.xor c b))))))))

theorem crcByte_toNat (c : BitVec 32) (b : Byte) : (crcByte c b).toNat = crcByteN c.toNat b.toNat := by
  have h : (b.setWidth 32).toNat = b.toNat := by rw [BitVec.toNat_setWidth, Nat.mod_eq_of_lt (by have := b.isLt; omega)]
  simp only [crcByte, crcByteN, crcBit_toNat, BitVec.toNat_xor, h]
  rfl

/-- The whole CRC, on numbers. -/
def crcN (bs : List Byte) : Nat := (bs.foldl (fun c b => crcByteN c b.toNat) 0xFFFFFFFF) ^^^ 0xFFFFFFFF

theorem crc32c_eq (bs : List Byte) : crc32c bs = crcN bs := by
  have h : ∀ (l : List Byte) (c : BitVec 32), (l.foldl crcByte c).toNat = l.foldl (fun c b => crcByteN c b.toNat) c.toNat := by
    intro l
    induction l with
    | nil => intro c; rfl
    | cons b l ih => intro c; rw [List.foldl_cons, List.foldl_cons, ih, crcByte_toNat]
  unfold crc32c crcN
  rw [BitVec.toNat_xor, h]
  rfl

/-- The CRC of a page in force does not depend on fields that are not CFG. -/
theorem State.activeCrc_wr (s : State) (f : Fld) (v p : Nat) : (s.wr f v).activeCrc p = s.activeCrc p := by
  have h : (s.wr f v).cfg = s.cfg := by
    funext g
    unfold State.cfg State.wr
    cases f.dom <;> cases g.dom <;> rfl
  unfold State.activeCrc
  rw [h]

theorem State.activeCrc_lt (s : State) (p : Nat) : s.activeCrc p < 2 ^ 32 := BitVec.isLt _

end Sys2Proof.Machine
end

