-- ==== Sys2Proof/Laws/Keeps.lean ====
section
/-! SUPPORT. What every operation of the machine keeps: the queue, the canonical form of the memories, and the OTP bits that are blown.
One lemma per operation says it; a statement over all steps cites the lemmas of the meanings. -/

namespace Sys2Proof

theorem otpOneWay.refl (a : Machine.Otp) : otpOneWay a a := ⟨rfl, rfl, id, id, id, id, id, id, id⟩

theorem otpOneWay.trans {a b c : Machine.Otp} (h : otpOneWay a b) (k : otpOneWay b c) : otpOneWay a c :=
  ⟨k.1.trans h.1, k.2.trans h.2, fun x => k.3 (h.3 x), fun x => k.4 (h.4 x), fun x => k.5 (h.5 x), fun x => k.6 (h.6 x),
   fun x => k.7 (h.7 x), fun x => k.8 (h.8 x), fun x => k.9 (h.9 x)⟩

end Sys2Proof

namespace Sys2Proof.Machine

/-- What an operation keeps. -/
structure Keeps (s t : State) : Prop where
  pending : t.pending = s.pending
  free : s.free ≤ t.free
  sram : Mem.wf 0 s.sram → Mem.wf 0 t.sram
  retention : Mem.wf 0 s.retention → Mem.wf 0 t.retention
  flash : Mem.wf 0xFF s.flash → Mem.wf 0xFF t.flash
  mbox : Mem.wf 0 s.mgp.mbox → Mem.wf 0 t.mgp.mbox
  tcm : (∀ c, Mem.wf 0 (Tbl.get [] s.tcm c)) → ∀ c, Mem.wf 0 (Tbl.get [] t.tcm c)
  otp : otpOneWay s.otp t.otp
  blobs : Mem.wf 0xFF s.nvm.blobs → Mem.wf 0xFF t.nvm.blobs

theorem Keeps.refl (s : State) : Keeps s s := ⟨rfl, Nat.le_refl _, id, id, id, id, id, otpOneWay.refl _, id⟩

theorem Keeps.trans {a b c : State} (h : Keeps a b) (k : Keeps b c) : Keeps a c :=
  ⟨k.1.trans h.1, Nat.le_trans h.2 k.2, fun x => k.3 (h.3 x), fun x => k.4 (h.4 x), fun x => k.5 (h.5 x), fun x => k.6 (h.6 x),
   fun x => k.7 (h.7 x), h.8.trans k.8, fun x => k.9 (h.9 x)⟩

/-- An update that touches none of these fields. -/
theorem Keeps.mk1 {s0 a : State}
    (x_regs : RegFile) (x_cmds : Tbl CmdSlot) (x_strobe : Strobe) (x_enableChecks : Tbl Nat) (x_walker : Walker) (x_waits
    : List XAccess) (x_bus : BusResult) (x_power : Power) (x_mode : ModeSt) (x_nvm : Nvm) (x_lcs : LcsSt) (x_dbg :
    DbgSt) (x_tap : Tap) (x_boot : BootSt) (x_cores : Tbl CoreSt) (x_wdtStart : Nat) (x_clove :
    Clove) (x_octal : Tbl Bool) (x_vault : VaultSt) (x_dge : Tbl DgeSt) (x_snp : Tbl SnpSt) (x_aes : Tbl AesSt) (x_pke
    : PkeSt) (x_rng : RngSt) (x_ecdhOut : Tbl (BitVec 384)) (x_ports : Tbl Port) (x_stages : Tbl Stage) (x_deferred :
    List Deferred) (x_hosts : Tbl HostSt) (x_ldm : Tbl (BitVec 256)) (x_cmp : CmpSt) (x_scheds : Tbl Sched) (x_chans :
    Tbl Chan) (x_sas : Tbl Sa) (x_lanes : Tbl Lane) (x_cans : Tbl CanPort) (x_mgp : Mgp) (x_stx : StxSt) (x_time :
    TimeSt) (x_ledger : LedgerSt)
    (hm : x_mgp.mbox = a.mgp.mbox) (hb : x_nvm.blobs = a.nvm.blobs) :
    Keeps s0 (State.mk a.pending a.free x_regs x_cmds x_strobe x_enableChecks x_walker x_waits x_bus x_power x_mode a.otp x_nvm x_lcs x_dbg
      x_tap x_boot x_cores a.tcm x_wdtStart x_clove a.sram a.retention a.flash x_octal x_vault x_dge x_snp x_aes x_pke
      x_rng x_ecdhOut x_ports x_stages x_deferred x_hosts x_ldm x_cmp x_scheds x_chans x_sas x_lanes x_cans x_mgp
      x_stx x_time x_ledger) ↔ Keeps s0 a :=
  ⟨fun h => ⟨h.1, h.2, h.3, h.4, h.5, fun x => by rw [← hm]; exact h.6 x, h.7, h.8, fun x => by rw [← hb]; exact h.9 x⟩,
   fun h => ⟨h.1, h.2, h.3, h.4, h.5, fun x => by show Mem.wf 0 x_mgp.mbox; rw [hm]; exact h.6 x, h.7, h.8,
     fun x => by show Mem.wf 0xFF x_nvm.blobs; rw [hb]; exact h.9 x⟩⟩

theorem Keeps.ite {s0 a b : State} {p : Prop} [Decidable p] (h : Keeps s0 a) (k : Keeps s0 b) : Keeps s0 (if p then a else b) := by
  split <;> assumption

theorem Keeps.foldl {s0 : State} {α : Type} (f : State → α → State) (l : List α) (s : State)
    (h : ∀ s x, Keeps s0 s → Keeps s0 (f s x)) (hs : Keeps s0 s) : Keeps s0 (l.foldl f s) := by
  induction l generalizing s with
  | nil => exact hs
  | cons x l ih => exact ih (f s x) (h s x hs)

theorem Keeps.iteFst {s0 : State} {β : Type} {a b : State × β} {p : Prop} [Decidable p] (h : Keeps s0 a.1) (k : Keeps s0 b.1) :
    Keeps s0 (if p then a else b).1 := by split <;> assumption

theorem Keeps.foldlFst {s0 : State} {α β : Type} (f : State × β → α → State × β) (l : List α) (p : State × β)
    (h : ∀ p x, Keeps s0 p.1 → Keeps s0 (f p x).1) (hs : Keeps s0 p.1) : Keeps s0 (l.foldl f p).1 := by
  induction l generalizing p with
  | nil => exact hs
  | cons x l ih => exact ih (f p x) (h p x hs)

end Sys2Proof.Machine
end

