-- ==== Sys2Proof/Laws/KeepsOps.lean ====
section
/-! SUPPORT. What the operations of Machine/Ops.lean keep. -/

namespace Sys2Proof.Machine

theorem State.wr_keeps {s0 : State} (s : State) (f : Fld) (v : Nat) (hk : Keeps s0 s) : Keeps s0 (State.wr s f v) := by
  unfold State.wr
  try dsimp only
  repeat' (first
    | with_reducible assumption
    | simp only [Keeps.mk1])

theorem State.setCfg_keeps {s0 : State} (s : State) (f : Fld) (v : Nat) (hk : Keeps s0 s) : Keeps s0 (State.setCfg s f v) := by
  unfold State.setCfg
  try dsimp only
  repeat' (first
    | with_reducible assumption
    | simp only [Keeps.mk1])

theorem State.setShadow_keeps {s0 : State} (s : State) (f : Fld) (v : Nat) (hk : Keeps s0 s) : Keeps s0 (State.setShadow s f v) := by
  unfold State.setShadow
  try dsimp only
  repeat' (first
    | with_reducible assumption
    | simp only [Keeps.mk1])

theorem State.setApplied_keeps {s0 : State} (s : State) (f : Fld) (v : Nat) (hk : Keeps s0 s) : Keeps s0 (State.setApplied s f v) := by
  unfold State.setApplied
  try dsimp only
  repeat' (first
    | with_reducible assumption
    | simp only [Keeps.mk1])

theorem State.setLatch_keeps {s0 : State} (s : State) (f : Fld) (v : Nat) (hk : Keeps s0 s) : Keeps s0 (State.setLatch s f v) := by
  unfold State.setLatch
  try dsimp only
  repeat' (first
    | with_reducible assumption
    | simp only [Keeps.mk1])

theorem State.wrb_keeps {s0 : State} (s : State) (f : Fld) (b : Bool) (hk : Keeps s0 s) : Keeps s0 (State.wrb s f b) := by
  unfold State.wrb
  try dsimp only
  repeat' (first
    | with_reducible assumption
    | with_reducible apply State.wr_keeps)

theorem State.bumpBy_keeps {s0 : State} (s : State) (f : Fld) (n : Nat) (hk : Keeps s0 s) : Keeps s0 (State.bumpBy s f n) := by
  unfold State.bumpBy
  try dsimp only
  repeat' (first
    | with_reducible assumption
    | with_reducible apply State.wr_keeps)

theorem State.bump_keeps {s0 : State} (s : State) (f : Fld) (hk : Keeps s0 s) : Keeps s0 (State.bump s f) := by
  unfold State.bump
  try dsimp only
  repeat' (first
    | with_reducible assumption
    | with_reducible apply State.bumpBy_keeps)

theorem State.peak_keeps {s0 : State} (s : State) (f : Fld) (v : Nat) (hk : Keeps s0 s) : Keeps s0 (State.peak s f v) := by
  unfold State.peak
  try dsimp only
  repeat' (first
    | with_reducible assumption
    | with_reducible apply State.wr_keeps)

theorem State.raise_keeps {s0 : State} (s : State) (p b : Nat) (hk : Keeps s0 s) : Keeps s0 (State.raise s p b) := by
  unfold State.raise
  try dsimp only
  repeat' (first
    | with_reducible assumption
    | with_reducible apply State.wr_keeps)

theorem State.refuse_keeps {s0 : State} (s : State) (p code off : Nat) (hk : Keeps s0 s) : Keeps s0 (State.refuse s p code off) := by
  unfold State.refuse
  try dsimp only
  repeat' (first
    | with_reducible assumption
    | with_reducible apply State.wr_keeps)

theorem State.writeLost_keeps {s0 : State} (s : State) (p off : Nat) (hk : Keeps s0 s) : Keeps s0 (State.writeLost s p off) := by
  unfold State.writeLost
  try dsimp only
  repeat' (first
    | with_reducible assumption
    | with_reducible apply State.raise_keeps
    | with_reducible apply State.wr_keeps)

theorem State.writeLostWith_keeps {s0 : State} (s : State) (p off code : Nat) (hk : Keeps s0 s) : Keeps s0 (State.writeLostWith s p off code) := by
  unfold State.writeLostWith
  try dsimp only
  repeat' (first
    | with_reducible assumption
    | with_reducible apply State.refuse_keeps
    | with_reducible apply State.writeLost_keeps)

theorem State.cmdLost_keeps {s0 : State} (s : State) (p : Nat) (hk : Keeps s0 s) : Keeps s0 (State.cmdLost s p) := by
  unfold State.cmdLost
  try dsimp only
  repeat' (first
    | with_reducible assumption
    | with_reducible apply State.raise_keeps
    | with_reducible apply State.wr_keeps)

theorem State.setCmdSlot_keeps {s0 : State} (s : State) (p off : Nat) (c : CmdSlot) (hk : Keeps s0 s) : Keeps s0 (State.setCmdSlot s p off c) := by
  unfold State.setCmdSlot
  try dsimp only
  repeat' (first
    | with_reducible assumption
    | simp only [Keeps.mk1])

theorem State.cmdStart_keeps {s0 : State} (s : State) (p off : Nat) (i : Instr) (hk : Keeps s0 s) : Keeps s0 (State.cmdStart s p off i) := by
  unfold State.cmdStart
  try dsimp only
  repeat' (first
    | with_reducible assumption
    | with_reducible apply State.setCmdSlot_keeps)

theorem State.cmdEnd_keeps {s0 : State} (s : State) (p off : Nat) (hk : Keeps s0 s) : Keeps s0 (State.cmdEnd s p off) := by
  unfold State.cmdEnd
  try dsimp only
  repeat' (first
    | with_reducible assumption
    | with_reducible apply State.setCmdSlot_keeps)

theorem State.cmdDrop_keeps {s0 : State} (s : State) (p off : Nat) (hk : Keeps s0 s) : Keeps s0 (State.cmdDrop s p off) := by
  unfold State.cmdDrop
  try dsimp only
  repeat' (first
    | with_reducible assumption
    | with_reducible apply State.setCmdSlot_keeps)

theorem State.issue_keeps {s0 : State} (s : State) (p off : Nat) (i : Instr) (start : State → State) (h : Keeps s0 s)
    (hstart : ∀ x, Keeps s0 x → Keeps s0 (start x)) : Keeps s0 (State.issue s p off i start) := by
  unfold State.issue
  repeat' (first
    | with_reducible assumption
    | with_reducible apply hstart
    | with_reducible apply State.cmdLost_keeps
    | with_reducible apply State.setCmdSlot_keeps
    | with_reducible apply Keeps.ite)


theorem State.spend_keeps {s0 : State} (s : State) (n : Nat) (h : Keeps s0 s) : Keeps s0 (State.spend s n) :=
  ⟨h.pending, Nat.le_trans h.free (Nat.le_add_right _ _), h.sram, h.retention, h.flash, h.mbox, h.tcm, h.otp, h.blobs⟩


theorem State.sramStore_keeps {s0 : State} (s : State) (a : Nat) (bs : List Byte) (h : Keeps s0 s) : Keeps s0 (State.sramStore s a bs) :=
  ⟨h.pending, h.free, fun x => Mem.wf_store 0 bs _ a (h.sram x), h.retention, h.flash, h.mbox, h.tcm, h.otp, h.blobs⟩


theorem State.sramClear_keeps {s0 : State} (s : State) (a n : Nat) (h : Keeps s0 s) : Keeps s0 (State.sramClear s a n) :=
  ⟨h.pending, h.free, fun x => Tbl.wf_clear 0 a n _ (h.sram x), h.retention, h.flash, h.mbox, h.tcm, h.otp, h.blobs⟩


theorem State.retStore_keeps {s0 : State} (s : State) (a : Nat) (bs : List Byte) (h : Keeps s0 s) : Keeps s0 (State.retStore s a bs) :=
  ⟨h.pending, h.free, h.sram, fun x => Mem.wf_store 0 bs _ a (h.retention x), h.flash, h.mbox, h.tcm, h.otp, h.blobs⟩

theorem State.setPort_keeps {s0 : State} (s : State) (n : Nat) (p : Port) (hk : Keeps s0 s) : Keeps s0 (State.setPort s n p) := by
  unfold State.setPort
  try dsimp only
  repeat' (first
    | with_reducible assumption
    | simp only [Keeps.mk1])

end Sys2Proof.Machine
end

