-- ==== Sys2Proof/Laws/KeepsCrc.lean ====
section
/-! SUPPORT. What the operations of Machine/Crc.lean keep. -/

namespace Sys2Proof.Machine

theorem State.swapPage_keeps {s0 : State} (s : State) (p : Nat) (hk : Keeps s0 s) : Keeps s0 (State.swapPage s p) := by
  unfold State.swapPage
  try dsimp only
  repeat' (first
    | with_reducible assumption
    | with_reducible apply State.raise_keeps
    | with_reducible apply State.setPort_keeps
    | with_reducible apply State.wr_keeps
    | with_reducible apply Keeps.ite
    | simp only [Keeps.mk1])

theorem State.swapPort_keeps {s0 : State} (s : State) (n : Nat) (hk : Keeps s0 s) : Keeps s0 (State.swapPort s n) := by
  unfold State.swapPort
  try dsimp only
  repeat' (first
    | with_reducible assumption
    | with_reducible apply State.swapPage_keeps
    | with_reducible apply Keeps.ite)

end Sys2Proof.Machine
end

