-- ==== Sys2Proof/Laws/KeepsSumac.lean ====
section
/-! SUPPORT. What the operations of Machine/Sumac.lean keep. -/

namespace Sys2Proof.Machine

theorem State.setHost_keeps {s0 : State} (s : State) (n : Nat) (h : HostSt) (hk : Keeps s0 s) : Keeps s0 (State.setHost s n h) := by
  unfold State.setHost
  try dsimp only
  repeat' (first
    | with_reducible assumption
    | simp only [Keeps.mk1])

theorem State.setDge_keeps {s0 : State} (s : State) (n : Nat) (d : DgeSt) (hk : Keeps s0 s) : Keeps s0 (State.setDge s n d) := by
  unfold State.setDge
  try dsimp only
  repeat' (first
    | with_reducible assumption
    | simp only [Keeps.mk1])

theorem State.setSnp_keeps {s0 : State} (s : State) (u : Nat) (d : SnpSt) (hk : Keeps s0 s) : Keeps s0 (State.setSnp s u d) := by
  unfold State.setSnp
  try dsimp only
  repeat' (first
    | with_reducible assumption
    | simp only [Keeps.mk1])

theorem State.flashProgram_keeps {s0 : State} (s : State) (ch cs a : Nat) (bs : List Byte) (h : Keeps s0 s) :
    Keeps s0 (State.flashProgram s ch cs a bs) :=
  ⟨h.pending, h.free, h.sram, h.retention, fun x => Mem.wf_store 0xFF _ _ _ (h.flash x), h.mbox, h.tcm, h.otp, h.blobs⟩


theorem State.flashErase_keeps {s0 : State} (s : State) (ch cs a n : Nat) (h : Keeps s0 s) : Keeps s0 (State.flashErase s ch cs a n) :=
  ⟨h.pending, h.free, h.sram, h.retention, fun x => Tbl.wf_clear 0xFF _ _ _ (h.flash x), h.mbox, h.tcm, h.otp, h.blobs⟩

theorem State.delivered_keeps {s0 : State} (s : State) (corrupt : Bool) (bs : List Byte) (hk : Keeps s0 s) : Keeps s0 (State.delivered s corrupt bs).1 := by
  unfold State.delivered
  try dsimp only
  repeat' (first
    | with_reducible assumption
    | with_reducible apply State.spend_keeps
    | with_reducible apply Keeps.ite
    | with_reducible apply Keeps.iteFst)

theorem State.setSched_keeps {s0 : State} (s : State) (x : Nat) (v : Sched) (hk : Keeps s0 s) : Keeps s0 (State.setSched s x v) := by
  unfold State.setSched
  try dsimp only
  repeat' (first
    | with_reducible assumption
    | simp only [Keeps.mk1])

theorem State.setChan_keeps {s0 : State} (s : State) (c : Nat) (v : Chan) (hk : Keeps s0 s) : Keeps s0 (State.setChan s c v) := by
  unfold State.setChan
  try dsimp only
  repeat' (first
    | with_reducible assumption
    | simp only [Keeps.mk1])

theorem State.takePins_keeps {s0 : State} (s : State) (c : Nat) (hk : Keeps s0 s) : Keeps s0 (State.takePins s c) := by
  unfold State.takePins
  try dsimp only
  repeat' (first
    | with_reducible assumption
    | with_reducible apply State.wr_keeps
    | with_reducible apply Keeps.ite)

theorem State.givePins_keeps {s0 : State} (s : State) (c : Nat) (hk : Keeps s0 s) : Keeps s0 (State.givePins s c) := by
  unfold State.givePins
  try dsimp only
  repeat' (first
    | with_reducible assumption
    | with_reducible apply State.wr_keeps
    | with_reducible apply Keeps.ite)

theorem State.chanRest_keeps {s0 : State} (s : State) (c : Nat) (hk : Keeps s0 s) : Keeps s0 (State.chanRest s c) := by
  unfold State.chanRest
  try dsimp only
  repeat' (first
    | with_reducible assumption
    | with_reducible apply State.givePins_keeps
    | with_reducible apply State.wrb_keeps
    | with_reducible apply Keeps.ite)

theorem State.pumpCh_keeps {s0 : State} (s : State) (c : Nat) (hk : Keeps s0 s) : Keeps s0 (State.pumpCh s c) := by
  unfold State.pumpCh
  try dsimp only
  repeat' (first
    | with_reducible assumption
    | intro _
    | with_reducible apply State.chanRest_keeps
    | with_reducible apply State.peak_keeps
    | with_reducible apply State.setChan_keeps
    | with_reducible apply State.setSched_keeps
    | with_reducible apply State.takePins_keeps
    | with_reducible apply State.wr_keeps
    | with_reducible apply Keeps.ite
    | with_reducible apply Keeps.iteFst
    | simp only [Keeps.mk1]
    | with_reducible rfl
    | split)

theorem State.enqueue_keeps {s0 : State} (s : State) (x : Nat) (r : Req) (hk : Keeps s0 s) : Keeps s0 (State.enqueue s x r) := by
  unfold State.enqueue
  try dsimp only
  repeat' (first
    | with_reducible assumption
    | with_reducible apply State.bump_keeps
    | with_reducible apply State.pumpCh_keeps
    | with_reducible apply State.setChan_keeps
    | with_reducible apply State.setSched_keeps
    | with_reducible apply Keeps.ite
    | simp only [Keeps.mk1]
    | with_reducible rfl
    | split)

theorem State.serviceEnd_keeps {s0 : State} (s : State) (c : Nat) (hk : Keeps s0 s) : Keeps s0 (State.serviceEnd s c) := by
  unfold State.serviceEnd
  try dsimp only
  repeat' (first
    | with_reducible assumption
    | with_reducible apply State.setChan_keeps
    | with_reducible apply State.setSched_keeps)

theorem State.requeue_keeps {s0 : State} (s : State) (c : Nat) (r : Req) (hk : Keeps s0 s) : Keeps s0 (State.requeue s c r) := by
  unfold State.requeue
  try dsimp only
  repeat' (first
    | with_reducible assumption
    | with_reducible apply State.bump_keeps
    | with_reducible apply State.setSched_keeps
    | with_reducible apply Keeps.ite)

theorem State.retag_keeps {s0 : State} (s : State) (x : Nat) (p : Req → Bool) (hk : Keeps s0 s) : Keeps s0 (State.retag s x p) := by
  unfold State.retag
  try dsimp only
  repeat' (first
    | with_reducible assumption
    | intro _
    | with_reducible apply State.setSched_keeps)

theorem State.dropReqs_keeps {s0 : State} (s : State) (x : Nat) (p : Req → Bool) (hk : Keeps s0 s) : Keeps s0 (State.dropReqs s x p) := by
  unfold State.dropReqs
  try dsimp only
  repeat' (first
    | with_reducible assumption
    | intro _
    | with_reducible apply State.setChan_keeps
    | with_reducible apply State.setSched_keeps
    | with_reducible apply State.wr_keeps
    | with_reducible apply Keeps.ite
    | simp only [Keeps.mk1]
    | with_reducible rfl
    | split)

theorem State.dropIssuer_keeps {s0 : State} (s : State) (n : Nat) (ks : List ReqKind) (hk : Keeps s0 s) : Keeps s0 (State.dropIssuer s n ks) := by
  unfold State.dropIssuer
  try dsimp only
  repeat' (first
    | with_reducible assumption
    | intro _
    | with_reducible apply State.dropReqs_keeps
    | with_reducible apply State.pumpCh_keeps
    | with_reducible apply Keeps.ite
    | with_reducible apply Keeps.foldl)

theorem State.pumpPke_keeps {s0 : State} (s : State) (hk : Keeps s0 s) : Keeps s0 (State.pumpPke s) := by
  unfold State.pumpPke
  try dsimp only
  repeat' (first
    | with_reducible assumption
    | intro _
    | with_reducible apply State.setSched_keeps
    | with_reducible apply Keeps.ite
    | with_reducible apply Keeps.iteFst
    | simp only [Keeps.mk1]
    | with_reducible rfl
    | split)

theorem State.enqueuePke_keeps {s0 : State} (s : State) (r : Req) (hk : Keeps s0 s) : Keeps s0 (State.enqueuePke s r) := by
  unfold State.enqueuePke
  try dsimp only
  repeat' (first
    | with_reducible assumption
    | with_reducible apply State.enqueue_keeps
    | with_reducible apply State.pumpPke_keeps)

theorem State.awaitPke_keeps {s0 : State} (s : State) (j : Job) (k issuer : Nat) (hk : Keeps s0 s) : Keeps s0 (State.awaitPke s j k issuer) := by
  unfold State.awaitPke
  try dsimp only
  repeat' (first
    | with_reducible assumption
    | with_reducible apply State.enqueuePke_keeps
    | with_reducible apply Keeps.ite)

end Sys2Proof.Machine
end

