-- ==== Sys2Proof/Laws/KeepsLcs.lean ====
section
/-! SUPPORT. What the operations of Machine/Lcs.lean keep. -/

namespace Sys2Proof.Machine

theorem State.reseed_keeps {s0 : State} (s : State) (hk : Keeps s0 s) : Keeps s0 (State.reseed s) := by
  unfold State.reseed
  try dsimp only
  repeat' (first
    | with_reducible assumption
    | with_reducible apply State.bump_keeps
    | simp only [Keeps.mk1])

theorem State.draw_keeps {s0 : State} (s : State) (n : Nat) (hk : Keeps s0 s) : Keeps s0 (State.draw s n).1 := by
  unfold State.draw
  try dsimp only
  repeat' (first
    | with_reducible assumption
    | with_reducible apply State.reseed_keeps
    | with_reducible apply State.spend_keeps
    | with_reducible apply Keeps.ite
    | with_reducible apply Keeps.iteFst
    | simp only [Keeps.mk1])

theorem State.writeIntent_keeps {s0 : State} (s : State) (c target : Nat) (d : BitVec 384) (hk : Keeps s0 s) : Keeps s0 (State.writeIntent s c target d) := by
  unfold State.writeIntent
  try dsimp only
  repeat' (first
    | with_reducible assumption
    | simp only [Keeps.mk1])

theorem State.blowTherm_keeps {s0 : State} (s : State) (c : Nat) (h : Keeps s0 s) : Keeps s0 (State.blowTherm s c) :=
  ⟨h.pending, h.free, h.sram, h.retention, h.flash, h.mbox, h.tcm, h.otp.trans ⟨rfl, rfl, id, id, id, id, id, id, id⟩, h.blobs⟩


theorem State.lcsActions_keeps {s0 : State} (s : State) (target : Nat) (h : Keeps s0 s) : Keeps s0 (State.lcsActions s target).1 := by
  unfold State.lcsActions
  split
  · exact ⟨h.1, h.2, h.3, h.4, h.5, h.6, h.7, h.8.trans ⟨rfl, rfl, fun _ => rfl, id, id, id, id, id, id⟩, h.9⟩
  split
  · split
    · exact h
    · have k := State.draw_keeps s 48 h
      exact ⟨k.1, k.2, k.3, k.4, k.5, k.6, k.7, h.8.trans ⟨rfl, rfl, id, id, id, id, id, id, id⟩, k.9⟩
  split
  · exact ⟨h.1, h.2, h.3, h.4, h.5, h.6, h.7, h.8.trans ⟨rfl, rfl, id, fun _ => rfl, id, id, id, id, id⟩, h.9⟩
  split
  · exact ⟨h.1, h.2, h.3, h.4, h.5, h.6, h.7, h.8.trans ⟨rfl, rfl, id, id, id, fun _ => rfl, id, id, id⟩, h.9⟩
  split <;> exact ⟨h.1, h.2, h.3, h.4, h.5, h.6, h.7, h.8.trans ⟨rfl, rfl, id, id, id, id, id, id, id⟩, fun _ => rfl⟩

theorem State.programCodeword_keeps {s0 : State} (s : State) (target count : Nat) (hk : Keeps s0 s) : Keeps s0 (State.programCodeword s target count) := by
  unfold State.programCodeword
  try dsimp only
  repeat' (first
    | with_reducible assumption
    | simp only [Keeps.mk1])

theorem State.secLog_keeps {s0 : State} (s : State) (k : SecKind) (reason : Nat) (d : BitVec 384) (hk : Keeps s0 s) : Keeps s0 (State.secLog s k reason d) := by
  unfold State.secLog
  try dsimp only
  repeat' (first
    | with_reducible assumption
    | simp only [Keeps.mk1])

theorem State.lcsFails_keeps {s0 : State} (s : State) (code : Nat) (hk : Keeps s0 s) : Keeps s0 (State.lcsFails s code) := by
  unfold State.lcsFails
  try dsimp only
  repeat' (first
    | with_reducible assumption
    | with_reducible apply State.cmdEnd_keeps
    | with_reducible apply State.raise_keeps
    | with_reducible apply State.wr_keeps)

theorem State.lcsRefuse_keeps {s0 : State} (s : State) (code : Nat) (hk : Keeps s0 s) : Keeps s0 (State.lcsRefuse s code) := by
  unfold State.lcsRefuse
  try dsimp only
  repeat' (first
    | with_reducible assumption
    | with_reducible apply State.lcsFails_keeps)

theorem State.lcsRun_keeps {s0 : State} (s : State) (i : Instr) (c target : Nat) (d : BitVec 384) (fresh : Bool) (hk : Keeps s0 s) : Keeps s0 (State.lcsRun s i c target d fresh) := by
  unfold State.lcsRun
  try dsimp only
  repeat' (first
    | with_reducible assumption
    | with_reducible apply State.blowTherm_keeps
    | with_reducible apply State.cmdStart_keeps
    | with_reducible apply State.lcsActions_keeps
    | with_reducible apply State.lcsFails_keeps
    | with_reducible apply State.programCodeword_keeps
    | with_reducible apply State.wr_keeps
    | with_reducible apply State.writeIntent_keeps
    | with_reducible apply Keeps.ite
    | with_reducible apply Keeps.iteFst
    | simp only [Keeps.mk1]
    | with_reducible rfl
    | split)

theorem State.lcsHold_keeps {s0 : State} (i : Instr) (s : State) (hk : Keeps s0 s) : Keeps s0 (State.lcsHold i s) := by
  unfold State.lcsHold
  try dsimp only
  repeat' (first
    | with_reducible assumption
    | with_reducible apply State.cmdStart_keeps
    | with_reducible apply State.wr_keeps
    | with_reducible apply State.wrb_keeps)

theorem State.lcsWait_keeps {s0 : State} (i : Instr) (s : State) (hk : Keeps s0 s) : Keeps s0 (State.lcsWait i s) := by
  unfold State.lcsWait
  try dsimp only
  repeat' (first
    | with_reducible assumption
    | with_reducible apply State.awaitPke_keeps
    | with_reducible apply State.lcsHold_keeps
    | simp only [Keeps.mk1])

theorem State.startProgramAuth_keeps {s0 : State} (addr : Nat) (s : State) (h : Keeps s0 s) :
    Keeps s0 (State.startProgramAuth addr s) := by
  unfold State.startProgramAuth
  split
  · exact State.lcsRefuse_keeps _ _ h
  split
  · exact State.lcsRefuse_keeps _ _ h
  split
  · exact State.lcsHold_keeps _ _ h
  · exact ⟨h.1, h.2, h.3, h.4, h.5, h.6, h.7, h.8.trans ⟨rfl, rfl, id, id, id, id, id, id, id⟩, h.9⟩

theorem State.startApply_keeps {s0 : State} (addr : Nat) (s : State) (hk : Keeps s0 s) : Keeps s0 (State.startApply addr s) := by
  unfold State.startApply
  try dsimp only
  repeat' (first
    | with_reducible assumption
    | with_reducible apply State.lcsRefuse_keeps
    | with_reducible apply State.lcsRun_keeps
    | with_reducible apply State.lcsWait_keeps
    | with_reducible apply Keeps.ite
    | split)

theorem State.resumeWith_keeps {s0 : State} (t : List Byte) (i : Instr) (s : State) (hk : Keeps s0 s) : Keeps s0 (State.resumeWith t i s) := by
  unfold State.resumeWith
  try dsimp only
  repeat' (first
    | with_reducible assumption
    | with_reducible apply State.lcsRefuse_keeps
    | with_reducible apply State.lcsRun_keeps
    | with_reducible apply State.lcsWait_keeps
    | with_reducible apply Keeps.ite
    | split)

theorem State.startResume_keeps {s0 : State} (addr : Nat) (s : State) (hk : Keeps s0 s) : Keeps s0 (State.startResume addr s) := by
  unfold State.startResume
  try dsimp only
  repeat' (first
    | with_reducible assumption
    | with_reducible apply State.lcsRefuse_keeps
    | with_reducible apply State.resumeWith_keeps
    | with_reducible apply Keeps.ite)

theorem State.lcsGranted_keeps {s0 : State} (s : State) (hk : Keeps s0 s) : Keeps s0 (State.lcsGranted s) := by
  unfold State.lcsGranted
  try dsimp only
  repeat' (first
    | with_reducible assumption
    | with_reducible apply State.cmdEnd_keeps
    | with_reducible apply State.resumeWith_keeps
    | with_reducible apply State.startApply_keeps
    | with_reducible apply State.startResume_keeps
    | with_reducible apply State.wr_keeps
    | with_reducible apply Keeps.ite
    | simp only [Keeps.mk1]
    | with_reducible rfl
    | split)

theorem State.lcsContinue_keeps {s0 : State} (s : State) (hk : Keeps s0 s) : Keeps s0 (State.lcsContinue s) := by
  unfold State.lcsContinue
  try dsimp only
  repeat' (first
    | with_reducible assumption
    | with_reducible apply State.cmdEnd_keeps
    | with_reducible apply State.startProgramAuth_keeps
    | with_reducible apply State.wr_keeps
    | split)

end Sys2Proof.Machine
end

