-- ==== Sys2Proof/Laws/KeepsVault.lean ====
section
/-! SUPPORT. What the operations of Machine/Vault.lean keep. -/

namespace Sys2Proof.Machine

theorem State.setSlot_keeps {s0 : State} (s : State) (i : Nat) (r : Slot) (hk : Keeps s0 s) : Keeps s0 (State.setSlot s i r) := by
  unfold State.setSlot
  try dsimp only
  repeat' (first
    | with_reducible assumption
    | simp only [Keeps.mk1])

theorem State.slotDisturb_keeps {s0 : State} (s : State) (i : Nat) (hk : Keeps s0 s) : Keeps s0 (State.slotDisturb s i) := by
  unfold State.slotDisturb
  try dsimp only
  repeat' (first
    | with_reducible assumption
    | simp only [Keeps.mk1])

theorem State.epochKeys_keeps {s0 : State} (s : State) (hk : Keeps s0 s) : Keeps s0 (State.epochKeys s) := by
  unfold State.epochKeys
  try dsimp only
  repeat' (first
    | with_reducible assumption
    | with_reducible apply State.draw_keeps
    | with_reducible apply Keeps.ite
    | with_reducible apply Keeps.iteFst
    | simp only [Keeps.mk1])

theorem State.rootLoadNow_keeps {s0 : State} (s : State) (hk : Keeps s0 s) : Keeps s0 (State.rootLoadNow s) := by
  unfold State.rootLoadNow
  try dsimp only
  repeat' (first
    | with_reducible assumption
    | intro _
    | with_reducible apply State.draw_keeps
    | with_reducible apply State.raise_keeps
    | with_reducible apply State.setSlot_keeps
    | with_reducible apply State.wr_keeps
    | with_reducible apply Keeps.ite
    | with_reducible apply Keeps.iteFst
    | simp only [Keeps.mk1])

theorem State.rootLoad_keeps {s0 : State} (s : State) (hk : Keeps s0 s) : Keeps s0 (State.rootLoad s) := by
  unfold State.rootLoad
  try dsimp only
  repeat' (first
    | with_reducible assumption
    | with_reducible apply State.epochKeys_keeps
    | with_reducible apply State.rootLoadNow_keeps
    | with_reducible apply Keeps.ite
    | simp only [Keeps.mk1])

theorem State.vaultGo_keeps {s0 : State} (s : State) (hk : Keeps s0 s) : Keeps s0 (State.vaultGo s) := by
  unfold State.vaultGo
  try dsimp only
  repeat' (first
    | with_reducible assumption
    | with_reducible apply State.epochKeys_keeps
    | with_reducible apply State.rootLoadNow_keeps
    | with_reducible apply Keeps.ite)

theorem State.releaseRoot_keeps {s0 : State} (s : State) (hk : Keeps s0 s) : Keeps s0 (State.releaseRoot s) := by
  unfold State.releaseRoot
  try dsimp only
  repeat' (first
    | with_reducible assumption
    | with_reducible apply State.rootLoad_keeps
    | with_reducible apply Keeps.ite)

theorem State.slotGone_keeps {s0 : State} (s : State) (i st : Nat) (hk : Keeps s0 s) : Keeps s0 (State.slotGone s i st) := by
  unfold State.slotGone
  try dsimp only
  repeat' (first
    | with_reducible assumption
    | with_reducible apply State.setSlot_keeps)

theorem State.cachePurge_keeps {s0 : State} (s : State) (l : List Nat) (hk : Keeps s0 s) : Keeps s0 (State.cachePurge s l) := by
  unfold State.cachePurge
  try dsimp only
  repeat' (first
    | with_reducible assumption
    | intro _
    | simp only [Keeps.mk1])

theorem State.slotRelease_keeps {s0 : State} (s : State) (o : Option Nat) (hk : Keeps s0 s) : Keeps s0 (State.slotRelease s o) := by
  unfold State.slotRelease
  try dsimp only
  repeat' (first
    | with_reducible assumption
    | with_reducible apply State.setSlot_keeps
    | with_reducible apply Keeps.ite
    | simp only [Keeps.mk1]
    | with_reducible rfl
    | split)

theorem State.slotUse_keeps {s0 : State} (s : State) (o : Option Nat) (hk : Keeps s0 s) : Keeps s0 (State.slotUse s o) := by
  unfold State.slotUse
  try dsimp only
  repeat' (first
    | with_reducible assumption
    | with_reducible apply State.setSlot_keeps
    | with_reducible apply Keeps.ite
    | simp only [Keeps.mk1]
    | with_reducible rfl
    | split)

theorem State.setAes_keeps {s0 : State} (s : State) (e : Nat) (a : AesSt) (hk : Keeps s0 s) : Keeps s0 (State.setAes s e a) := by
  unfold State.setAes
  try dsimp only
  repeat' (first
    | with_reducible assumption
    | simp only [Keeps.mk1])

theorem State.showDkr_keeps {s0 : State} (s : State) (e : Nat) (k : Dkr) (hk : Keeps s0 s) : Keeps s0 (State.showDkr s e k) := by
  unfold State.showDkr
  try dsimp only
  repeat' (first
    | with_reducible assumption
    | with_reducible apply State.setAes_keeps
    | with_reducible apply State.wr_keeps
    | with_reducible apply State.wrb_keeps)

theorem State.dkrGone_keeps {s0 : State} (s : State) (e : Nat) (hk : Keeps s0 s) : Keeps s0 (State.dkrGone s e) := by
  unfold State.dkrGone
  try dsimp only
  repeat' (first
    | with_reducible assumption
    | with_reducible apply State.setAes_keeps
    | with_reducible apply State.showDkr_keeps
    | with_reducible apply Keeps.ite)

theorem State.revokeOps_keeps {s0 : State} (s : State) (gone : Nat → Bool) (reason : Nat) (hk : Keeps s0 s) : Keeps s0 (State.revokeOps s gone reason) := by
  unfold State.revokeOps
  try dsimp only
  repeat' (first
    | with_reducible assumption
    | intro _
    | with_reducible apply State.dkrGone_keeps
    | with_reducible apply Keeps.ite
    | with_reducible apply Keeps.foldl
    | with_reducible apply Keeps.foldlFst
    | simp only [Keeps.mk1])

theorem State.withdraw_keeps {s0 : State} (s : State) (i st reason : Nat) (hk : Keeps s0 s) : Keeps s0 (State.withdraw s i st reason) := by
  unfold State.withdraw
  try dsimp only
  repeat' (first
    | with_reducible assumption
    | intro _
    | with_reducible apply State.cachePurge_keeps
    | with_reducible apply State.revokeOps_keeps
    | with_reducible apply State.slotGone_keeps
    | with_reducible apply Keeps.foldl)

theorem State.slotFails_keeps {s0 : State} (s : State) (i : Nat) (hk : Keeps s0 s) : Keeps s0 (State.slotFails s i) := by
  unfold State.slotFails
  try dsimp only
  repeat' (first
    | with_reducible assumption
    | with_reducible apply State.bump_keeps
    | with_reducible apply State.raise_keeps
    | with_reducible apply State.secLog_keeps
    | with_reducible apply State.withdraw_keeps)

theorem State.captureFault_keeps {s0 : State} (s : State) (i : Nat) (hk : Keeps s0 s) : Keeps s0 (State.captureFault s i).1 := by
  unfold State.captureFault
  try dsimp only
  repeat' (first
    | with_reducible assumption
    | with_reducible apply State.slotFails_keeps
    | with_reducible apply State.withdraw_keeps
    | with_reducible apply Keeps.ite
    | with_reducible apply Keeps.iteFst)

theorem State.cachePut_keeps {s0 : State} (s : State) (i : Nat) (v : BitVec 384) (pin : Bool) (hk : Keeps s0 s) : Keeps s0 (State.cachePut s i v pin) := by
  unfold State.cachePut
  try dsimp only
  repeat' (first
    | with_reducible assumption
    | intro _
    | with_reducible apply State.draw_keeps
    | with_reducible apply Keeps.ite
    | with_reducible apply Keeps.iteFst
    | simp only [Keeps.mk1])

theorem State.cacheFill_keeps {s0 : State} (s : State) (i : Nat) (hk : Keeps s0 s) : Keeps s0 (State.cacheFill s i) := by
  unfold State.cacheFill
  try dsimp only
  repeat' (first
    | with_reducible assumption
    | intro _
    | with_reducible apply State.bump_keeps
    | with_reducible apply State.cachePut_keeps
    | simp only [Keeps.mk1]
    | with_reducible rfl
    | split)

theorem State.capture_keeps {s0 : State} (s : State) (i : Nat) (hk : Keeps s0 s) : Keeps s0 (State.capture s i).1 := by
  unfold State.capture
  try dsimp only
  repeat' (first
    | with_reducible assumption
    | with_reducible apply State.cacheFill_keeps
    | with_reducible apply State.slotUse_keeps)

theorem State.refuseVault_keeps {s0 : State} (s : State) (page code off : Nat) (hk : Keeps s0 s) : Keeps s0 (State.refuseVault s page code off) := by
  unfold State.refuseVault
  try dsimp only
  repeat' (first
    | with_reducible assumption
    | with_reducible apply State.wr_keeps)

theorem State.revokedEnd_keeps {s0 : State} (s : State) (page code off : Nat) (hk : Keeps s0 s) : Keeps s0 (State.revokedEnd s page code off) := by
  unfold State.revokedEnd
  try dsimp only
  repeat' (first
    | with_reducible assumption
    | with_reducible apply State.bump_keeps
    | with_reducible apply State.raise_keeps
    | with_reducible apply State.refuseVault_keeps)

theorem State.maskStall_keeps {s0 : State} (s : State) (hk : Keeps s0 s) : Keeps s0 (State.maskStall s) := by
  unfold State.maskStall
  try dsimp only
  repeat' (first
    | with_reducible assumption
    | with_reducible apply State.raise_keeps
    | with_reducible apply State.wr_keeps
    | with_reducible apply Keeps.ite)

theorem State.kvtResult_keeps {s0 : State} (s : State) (sl code : Nat) (hk : Keeps s0 s) : Keeps s0 (State.kvtResult s sl code) := by
  unfold State.kvtResult
  try dsimp only
  repeat' (first
    | with_reducible assumption
    | with_reducible apply State.cmdEnd_keeps
    | with_reducible apply State.raise_keeps
    | with_reducible apply State.refuse_keeps
    | with_reducible apply State.wr_keeps
    | with_reducible apply Keeps.ite)

theorem State.defineSlot_keeps {s0 : State} (s : State) (t : Nat) (r : Slot) (hk : Keeps s0 s) : Keeps s0 (State.defineSlot s t r) := by
  unfold State.defineSlot
  try dsimp only
  repeat' (first
    | with_reducible assumption
    | with_reducible apply State.setSlot_keeps
    | simp only [Keeps.mk1])

theorem State.parentFault_keeps {s0 : State} (s : State) (p : Nat) (hk : Keeps s0 s) : Keeps s0 (State.parentFault s p).1 := by
  unfold State.parentFault
  try dsimp only
  repeat' (first
    | with_reducible assumption
    | intro _
    | with_reducible apply State.captureFault_keeps)

theorem State.defineLd_keeps {s0 : State} (s : State) (t p a : Nat) (ld : BitVec 384) (hk : Keeps s0 s) : Keeps s0 (State.defineLd s t p a ld).1 := by
  unfold State.defineLd
  try dsimp only
  repeat' (first
    | with_reducible assumption
    | with_reducible apply State.defineSlot_keeps
    | with_reducible apply State.parentFault_keeps
    | with_reducible apply Keeps.ite
    | with_reducible apply Keeps.iteFst
    | simp only [Keeps.mk1]
    | with_reducible rfl
    | split)

theorem State.chainTo_keeps {s0 : State} (s : State) (t p n : Nat) (hk : Keeps s0 s) : Keeps s0 (State.chainTo s t p n).1 := by
  unfold State.chainTo
  try dsimp only
  repeat' (first
    | with_reducible assumption
    | with_reducible apply State.defineSlot_keeps
    | with_reducible apply State.parentFault_keeps
    | with_reducible apply Keeps.ite
    | with_reducible apply Keeps.iteFst
    | simp only [Keeps.mk1]
    | with_reducible rfl
    | split)

theorem State.startDefine_keeps {s0 : State} (addr : Nat) (s : State) (hk : Keeps s0 s) : Keeps s0 (State.startDefine addr s) := by
  unfold State.startDefine
  try dsimp only
  repeat' (first
    | with_reducible assumption
    | with_reducible apply State.defineLd_keeps
    | with_reducible apply State.kvtResult_keeps
    | with_reducible apply Keeps.ite)

theorem State.startChain_keeps {s0 : State} (addr : Nat) (s : State) (hk : Keeps s0 s) : Keeps s0 (State.startChain addr s) := by
  unfold State.startChain
  try dsimp only
  repeat' (first
    | with_reducible assumption
    | with_reducible apply State.chainTo_keeps
    | with_reducible apply State.kvtResult_keeps
    | with_reducible apply Keeps.ite)

theorem State.startReadMeta_keeps {s0 : State} (addr : Nat) (s : State) (hk : Keeps s0 s) : Keeps s0 (State.startReadMeta addr s) := by
  unfold State.startReadMeta
  try dsimp only
  repeat' (first
    | with_reducible assumption
    | intro _
    | with_reducible apply State.kvtResult_keeps
    | with_reducible apply State.sramStore_keeps
    | with_reducible apply Keeps.ite)

theorem State.startSaveRestore_keeps {s0 : State} (i : Instr) (s : State) (hk : Keeps s0 s) : Keeps s0 (State.startSaveRestore i s) := by
  unfold State.startSaveRestore
  try dsimp only
  repeat' (first
    | with_reducible assumption
    | with_reducible apply State.cmdStart_keeps
    | with_reducible apply State.wr_keeps
    | with_reducible apply Keeps.ite
    | simp only [Keeps.mk1]
    | with_reducible rfl
    | split)

theorem State.saveContinue_keeps {s0 : State} (s : State) (hk : Keeps s0 s) : Keeps s0 (State.saveContinue s) := by
  unfold State.saveContinue
  try dsimp only
  repeat' (first
    | with_reducible assumption
    | with_reducible apply State.wr_keeps
    | simp only [Keeps.mk1]
    | with_reducible rfl
    | split)

theorem State.replay_keeps {s0 : State} (s : State) (rs : List PersistRec) (h : Keeps s0 s) : Keeps s0 (State.replay s rs).1 := by
  induction rs generalizing s with
  | nil => exact h
  | cons r rs ih =>
    unfold State.replay
    dsimp only
    have k : Keeps s0 (if r.chain then s.chainTo r.target r.parent r.steps else s.defineLd r.target r.parent r.keyAttr r.ld).1 := by
      split
      · exact State.chainTo_keeps _ _ _ _ h
      · exact State.defineLd_keeps _ _ _ _ _ h
    exact Keeps.iteFst (ih _ k) k

theorem State.kvtFinish_keeps {s0 : State} (s : State) (hk : Keeps s0 s) : Keeps s0 (State.kvtFinish s) := by
  unfold State.kvtFinish
  try dsimp only
  repeat' (first
    | with_reducible assumption
    | with_reducible apply State.kvtResult_keeps
    | with_reducible apply State.replay_keeps
    | with_reducible apply State.wr_keeps
    | with_reducible apply Keeps.ite
    | with_reducible apply Keeps.iteFst
    | simp only [Keeps.mk1]
    | with_reducible rfl
    | split)

theorem State.remask_keeps {s0 : State} (s : State) (m : Masked) (hk : Keeps s0 s) : Keeps s0 (State.remask s m).1 := by
  unfold State.remask
  try dsimp only
  repeat' (first
    | with_reducible assumption
    | with_reducible apply State.draw_keeps)

theorem State.refreshMasks_keeps {s0 : State} (s : State) (hk : Keeps s0 s) : Keeps s0 (State.refreshMasks s) := by
  unfold State.refreshMasks
  try dsimp only
  repeat' (first
    | with_reducible assumption
    | intro _
    | with_reducible apply State.remask_keeps
    | with_reducible apply Keeps.ite
    | with_reducible apply Keeps.iteFst
    | with_reducible apply Keeps.foldl
    | with_reducible apply Keeps.foldlFst
    | simp only [Keeps.mk1]
    | with_reducible rfl
    | split)

theorem State.vaultEpoch_keeps {s0 : State} (s : State) (hk : Keeps s0 s) : Keeps s0 (State.vaultEpoch s) := by
  unfold State.vaultEpoch
  try dsimp only
  repeat' (first
    | with_reducible assumption
    | with_reducible apply State.epochKeys_keeps
    | with_reducible apply State.wr_keeps
    | simp only [Keeps.mk1])

end Sys2Proof.Machine
end

