-- ==== Sys2Proof/Laws/KeepsDigest.lean ====
section
/-! SUPPORT. What the operations of Machine/Digest.lean keep. -/

namespace Sys2Proof.Machine

theorem State.dgeClearResults_keeps {s0 : State} (s : State) (n : Nat) (hk : Keeps s0 s) : Keeps s0 (State.dgeClearResults s n) := by
  unfold State.dgeClearResults
  try dsimp only
  repeat' (first
    | with_reducible assumption
    | intro _
    | with_reducible apply State.wr_keeps
    | with_reducible apply Keeps.foldl)

theorem State.dgeRefuse_keeps {s0 : State} (s : State) (n code : Nat) (hk : Keeps s0 s) : Keeps s0 (State.dgeRefuse s n code) := by
  unfold State.dgeRefuse
  try dsimp only
  repeat' (first
    | with_reducible assumption
    | with_reducible apply State.cmdEnd_keeps
    | with_reducible apply State.refuse_keeps)

theorem State.dgeKey_keeps {s0 : State} (s : State) (d : DgeDesc) (hk : Keeps s0 s) : Keeps s0 (State.dgeKey s d).1 := by
  unfold State.dgeKey
  try dsimp only
  repeat' (first
    | with_reducible assumption
    | with_reducible apply State.captureFault_keeps
    | with_reducible apply Keeps.ite
    | with_reducible apply Keeps.iteFst
    | split)

theorem State.dgeBegin_keeps {s0 : State} (s : State) (n : Nat) (i : Instr) (d : DgeDesc) (k : List Byte) (a sl : Option Nat) (hk : Keeps s0 s) : Keeps s0 (State.dgeBegin s n i d k a sl) := by
  unfold State.dgeBegin
  try dsimp only
  repeat' (first
    | with_reducible assumption
    | with_reducible apply State.cmdStart_keeps
    | with_reducible apply State.dgeClearResults_keeps
    | with_reducible apply State.setDge_keeps
    | with_reducible apply State.slotUse_keeps
    | with_reducible apply State.wr_keeps
    | with_reducible apply State.wrb_keeps
    | with_reducible apply Keeps.ite)

theorem State.dgeRefuseWith_keeps {s0 : State} (s : State) (n : Nat) (r : Bool × Nat) (hk : Keeps s0 s) : Keeps s0 (State.dgeRefuseWith s n r) := by
  unfold State.dgeRefuseWith
  try dsimp only
  repeat' (first
    | with_reducible assumption
    | with_reducible apply State.cmdEnd_keeps
    | with_reducible apply State.dgeRefuse_keeps
    | with_reducible apply State.refuseVault_keeps
    | with_reducible apply Keeps.ite)

theorem State.startDgeRun_keeps {s0 : State} (n : Fin 4) (addr : Nat) (s : State) (hk : Keeps s0 s) : Keeps s0 (State.startDgeRun n addr s) := by
  unfold State.startDgeRun
  try dsimp only
  repeat' (first
    | with_reducible assumption
    | with_reducible apply State.cacheFill_keeps
    | with_reducible apply State.dgeBegin_keeps
    | with_reducible apply State.dgeKey_keeps
    | with_reducible apply State.dgeRefuse_keeps
    | with_reducible apply State.dgeRefuseWith_keeps
    | with_reducible apply State.maskStall_keeps
    | with_reducible apply State.setCmdSlot_keeps
    | with_reducible apply Keeps.ite
    | with_reducible apply Keeps.iteFst
    | simp only [Keeps.mk1]
    | with_reducible rfl
    | split)

theorem State.dgeVerdict_keeps {s0 : State} (s : State) (n : Nat) (good : Bool) (hk : Keeps s0 s) : Keeps s0 (State.dgeVerdict s n good) := by
  unfold State.dgeVerdict
  try dsimp only
  repeat' (first
    | with_reducible assumption
    | with_reducible apply State.raise_keeps
    | with_reducible apply State.wr_keeps
    | with_reducible apply Keeps.ite)

theorem State.dgeShow_keeps {s0 : State} (s : State) (n : Nat) (d : List Byte) (hk : Keeps s0 s) : Keeps s0 (State.dgeShow s n d) := by
  unfold State.dgeShow
  try dsimp only
  repeat' (first
    | with_reducible assumption
    | intro _
    | with_reducible apply State.wr_keeps
    | with_reducible apply Keeps.foldl)

theorem State.dgeIdle_keeps {s0 : State} (s : State) (n : Nat) (hk : Keeps s0 s) : Keeps s0 (State.dgeIdle s n) := by
  unfold State.dgeIdle
  try dsimp only
  repeat' (first
    | with_reducible assumption
    | with_reducible apply State.cmdEnd_keeps
    | with_reducible apply State.setDge_keeps
    | with_reducible apply State.slotRelease_keeps
    | with_reducible apply State.wr_keeps
    | with_reducible apply State.wrb_keeps)

theorem State.vaultResult_keeps {s0 : State} (s : State) (t p a : Nat) (label v : BitVec 384) (hk : Keeps s0 s) : Keeps s0 (State.vaultResult s t p a label v) := by
  unfold State.vaultResult
  try dsimp only
  repeat' (first
    | with_reducible assumption
    | with_reducible apply State.cachePut_keeps
    | with_reducible apply State.defineSlot_keeps)

theorem State.dgeFinish_keeps {s0 : State} (s : State) (n : Nat) (hk : Keeps s0 s) : Keeps s0 (State.dgeFinish s n) := by
  unfold State.dgeFinish
  try dsimp only
  repeat' (first
    | with_reducible assumption
    | with_reducible apply State.cmdEnd_keeps
    | with_reducible apply State.dgeClearResults_keeps
    | with_reducible apply State.dgeIdle_keeps
    | with_reducible apply State.dgeShow_keeps
    | with_reducible apply State.dgeVerdict_keeps
    | with_reducible apply State.raise_keeps
    | with_reducible apply State.refuseVault_keeps
    | with_reducible apply State.revokedEnd_keeps
    | with_reducible apply State.setDge_keeps
    | with_reducible apply State.vaultResult_keeps
    | with_reducible apply State.wr_keeps
    | with_reducible apply Keeps.ite
    | simp only [Keeps.mk1]
    | with_reducible rfl
    | split)

theorem State.judgePair_keeps {s0 : State} (s : State) (p m mn : Nat) (hk : Keeps s0 s) : Keeps s0 (State.judgePair s p m mn) := by
  unfold State.judgePair
  try dsimp only
  repeat' (first
    | with_reducible assumption
    | with_reducible apply State.raise_keeps
    | with_reducible apply State.secLog_keeps
    | with_reducible apply Keeps.ite)

theorem State.seqBegin_keeps {s0 : State} (o : Option Nat) (leaves : Bool) (s : State) (hk : Keeps s0 s) : Keeps s0 (State.seqBegin o leaves s) := by
  unfold State.seqBegin
  try dsimp only
  repeat' (first
    | with_reducible assumption
    | with_reducible apply State.dgeClearResults_keeps
    | with_reducible apply State.wr_keeps
    | with_reducible apply Keeps.ite
    | split)

theorem State.seqVerdict_keeps {s0 : State} (o : Option Nat) (good : Bool) (s : State) (hk : Keeps s0 s) : Keeps s0 (State.seqVerdict o good s) := by
  unfold State.seqVerdict
  try dsimp only
  repeat' (first
    | with_reducible assumption
    | with_reducible apply State.dgeVerdict_keeps
    | with_reducible apply State.raise_keeps
    | with_reducible apply State.wr_keeps
    | with_reducible apply Keeps.ite
    | split)

theorem State.seqLeaf_keeps {s0 : State} (o : Option Nat) (blocks f : Nat) (s : State) (hk : Keeps s0 s) : Keeps s0 (State.seqLeaf o blocks f s) := by
  unfold State.seqLeaf
  try dsimp only
  repeat' (first
    | with_reducible assumption
    | with_reducible apply State.wr_keeps
    | with_reducible apply Keeps.ite
    | split)

theorem State.startLeaves_keeps {s0 : State} (n : Fin 4) (addr : Nat) (s : State) (hk : Keeps s0 s) : Keeps s0 (State.startLeaves n addr s) := by
  unfold State.startLeaves
  try dsimp only
  repeat' (first
    | with_reducible assumption
    | with_reducible apply State.cmdStart_keeps
    | with_reducible apply State.dgeClearResults_keeps
    | with_reducible apply State.dgeRefuse_keeps
    | with_reducible apply State.setCmdSlot_keeps
    | with_reducible apply State.setDge_keeps
    | with_reducible apply State.setSnp_keeps
    | with_reducible apply State.wr_keeps
    | with_reducible apply Keeps.ite)

theorem State.leafFinal_keeps {s0 : State} (s : State) (n : Nat) (l : LeavesOp) (i : Nat) (good : Bool) (hk : Keeps s0 s) : Keeps s0 (State.leafFinal s n l i good) := by
  unfold State.leafFinal
  try dsimp only
  repeat' (first
    | with_reducible assumption
    | with_reducible apply State.dgeIdle_keeps
    | with_reducible apply State.dgeVerdict_keeps
    | with_reducible apply State.raise_keeps
    | with_reducible apply State.setDge_keeps
    | with_reducible apply State.wr_keeps
    | with_reducible apply Keeps.ite)

theorem State.abortDge_keeps {s0 : State} (n : Nat) (s : State) (hk : Keeps s0 s) : Keeps s0 (State.abortDge n s) := by
  unfold State.abortDge
  try dsimp only
  repeat' (first
    | with_reducible assumption
    | with_reducible apply State.cmdDrop_keeps
    | with_reducible apply State.dgeClearResults_keeps
    | with_reducible apply State.dgeIdle_keeps
    | with_reducible apply State.refuse_keeps
    | with_reducible apply State.wr_keeps
    | with_reducible apply Keeps.ite)

theorem State.clearDge_keeps {s0 : State} (s : State) (hk : Keeps s0 s) : Keeps s0 (State.clearDge s) := by
  unfold State.clearDge
  try dsimp only
  repeat' (first
    | with_reducible assumption
    | simp only [Keeps.mk1])

theorem State.armLaneH_keeps {s0 : State} (s : State) (u table : Nat) (hk : Keeps s0 s) : Keeps s0 (State.armLaneH s u table) := by
  unfold State.armLaneH
  try dsimp only
  repeat' (first
    | with_reducible assumption
    | with_reducible apply State.setSnp_keeps
    | with_reducible apply State.wr_keeps)

theorem State.disarmLaneH_keeps {s0 : State} (s : State) (u cause : Nat) (hk : Keeps s0 s) : Keeps s0 (State.disarmLaneH s u cause) := by
  unfold State.disarmLaneH
  try dsimp only
  repeat' (first
    | with_reducible assumption
    | with_reducible apply State.raise_keeps
    | with_reducible apply State.setSnp_keeps
    | with_reducible apply State.wr_keeps
    | with_reducible apply Keeps.ite)

theorem State.stageUnseen_keeps {s0 : State} (s : State) (u blk : Nat) (hk : Keeps s0 s) : Keeps s0 (State.stageUnseen s u blk) := by
  unfold State.stageUnseen
  try dsimp only
  repeat' (first
    | with_reducible assumption
    | with_reducible apply State.bump_keeps
    | with_reducible apply State.raise_keeps
    | with_reducible apply State.setSnp_keeps
    | with_reducible apply Keeps.ite)

theorem State.stageCompare_keeps {s0 : State} (s : State) (u blk : Nat) (digest : List Byte) (hk : Keeps s0 s) : Keeps s0 (State.stageCompare s u blk digest) := by
  unfold State.stageCompare
  try dsimp only
  repeat' (first
    | with_reducible assumption
    | with_reducible apply State.bump_keeps
    | with_reducible apply State.raise_keeps
    | with_reducible apply State.wr_keeps
    | with_reducible apply Keeps.ite)

theorem State.stageVerdict_keeps {s0 : State} (s : State) (u blk : Nat) (data : List Byte) (hk : Keeps s0 s) : Keeps s0 (State.stageVerdict s u blk data) := by
  unfold State.stageVerdict
  try dsimp only
  repeat' (first
    | with_reducible assumption
    | with_reducible apply State.setSnp_keeps
    | with_reducible apply State.stageCompare_keeps
    | with_reducible apply State.stageUnseen_keeps
    | with_reducible apply Keeps.ite)

theorem State.stageResume_keeps {s0 : State} (s : State) (hk : Keeps s0 s) : Keeps s0 (State.stageResume s) := by
  unfold State.stageResume
  try dsimp only
  repeat' (first
    | with_reducible assumption
    | intro _
    | with_reducible apply State.setSnp_keeps
    | with_reducible apply State.stageCompare_keeps
    | with_reducible apply Keeps.foldl)

theorem State.stageByte_keeps {s0 : State} (s : State) (u a : Nat) (b : Byte) (hk : Keeps s0 s) : Keeps s0 (State.stageByte s u a b) := by
  unfold State.stageByte
  try dsimp only
  repeat' (first
    | with_reducible assumption
    | with_reducible apply State.setSnp_keeps
    | with_reducible apply State.stageUnseen_keeps
    | with_reducible apply State.stageVerdict_keeps
    | with_reducible apply Keeps.ite
    | simp only [Keeps.mk1]
    | with_reducible rfl
    | split)

theorem State.stageData_keeps {s0 : State} (s : State) (u a : Nat) (bs : List Byte) (h : Keeps s0 s) : Keeps s0 (State.stageData s u a bs) := by
  induction bs generalizing s a with
  | nil => exact h
  | cons b bs ih => exact ih _ _ (State.stageByte_keeps _ _ _ _ h)

theorem State.showLaneH_keeps {s0 : State} (s : State) (u : Nat) (hk : Keeps s0 s) : Keeps s0 (State.showLaneH s u) := by
  unfold State.showLaneH
  try dsimp only
  repeat' (first
    | with_reducible assumption
    | with_reducible apply State.wrb_keeps)

theorem State.stageErase_keeps {s0 : State} (s : State) (u a n : Nat) (hk : Keeps s0 s) : Keeps s0 (State.stageErase s u a n) := by
  unfold State.stageErase
  try dsimp only
  repeat' (first
    | with_reducible assumption
    | intro _
    | with_reducible apply State.setSnp_keeps
    | with_reducible apply State.stageUnseen_keeps
    | with_reducible apply Keeps.ite
    | with_reducible apply Keeps.iteFst
    | with_reducible apply Keeps.foldl)

theorem State.startSnpArm_keeps {s0 : State} (u : Fin 6) (addr : Nat) (s : State) (hk : Keeps s0 s) : Keeps s0 (State.startSnpArm u addr s) := by
  unfold State.startSnpArm
  try dsimp only
  repeat' (first
    | with_reducible assumption
    | with_reducible apply State.armLaneH_keeps
    | with_reducible apply State.refuse_keeps
    | with_reducible apply Keeps.ite)

theorem State.startSnpDisarm_keeps {s0 : State} (u : Fin 6) (s : State) (hk : Keeps s0 s) : Keeps s0 (State.startSnpDisarm u s) := by
  unfold State.startSnpDisarm
  try dsimp only
  repeat' (first
    | with_reducible assumption
    | with_reducible apply State.disarmLaneH_keeps
    | with_reducible apply State.refuse_keeps
    | with_reducible apply Keeps.ite)

end Sys2Proof.Machine
end

