-- ==== Sys2Proof/Laws/KeepsMacsec.lean ====
section
/-! SUPPORT. What the operations of Machine/Macsec.lean keep. -/

namespace Sys2Proof.Machine

theorem State.setSa_keeps {s0 : State} (s : State) (x : Nat) (a : Sa) (hk : Keeps s0 s) : Keeps s0 (State.setSa s x a) := by
  unfold State.setSa
  try dsimp only
  repeat' (first
    | with_reducible assumption
    | with_reducible apply State.wrb_keeps
    | simp only [Keeps.mk1])

theorem State.setSakKey_keeps {s0 : State} (s : State) (x : Nat) (key : List Byte) (a : Nat) (src : Option Nat) (h : Keeps s0 s) :
    Keeps s0 (State.setSakKey s x key a src) := by
  unfold State.setSakKey
  exact State.setSa_keeps _ _ _ h

theorem State.saRefuse_keeps {s0 : State} (s : State) (code : Nat) (hk : Keeps s0 s) : Keeps s0 (State.saRefuse s code) := by
  unfold State.saRefuse
  try dsimp only
  repeat' (first
    | with_reducible assumption
    | with_reducible apply State.refuse_keeps)

theorem State.clearMsecKey_keeps {s0 : State} (s : State) (hk : Keeps s0 s) : Keeps s0 (State.clearMsecKey s) := by
  unfold State.clearMsecKey
  try dsimp only
  repeat' (first
    | with_reducible assumption
    | intro _
    | with_reducible apply State.wr_keeps
    | with_reducible apply Keeps.foldl)

theorem State.startSaLoadRef_keeps {s0 : State} (x a sl : Nat) (s : State) (hk : Keeps s0 s) : Keeps s0 (State.startSaLoadRef x a sl s) := by
  unfold State.startSaLoadRef
  try dsimp only
  repeat' (first
    | with_reducible assumption
    | with_reducible apply State.cacheFill_keeps
    | with_reducible apply State.captureFault_keeps
    | with_reducible apply State.maskStall_keeps
    | with_reducible apply State.refuseVault_keeps
    | with_reducible apply State.saRefuse_keeps
    | with_reducible apply State.setCmdSlot_keeps
    | with_reducible apply State.setSakKey_keeps
    | with_reducible apply Keeps.ite
    | with_reducible apply Keeps.iteFst
    | simp only [Keeps.mk1]
    | with_reducible rfl
    | split)

theorem State.startSaLoadKey_keeps {s0 : State} (x a : Nat) (s : State) (hk : Keeps s0 s) : Keeps s0 (State.startSaLoadKey x a s) := by
  unfold State.startSaLoadKey
  try dsimp only
  repeat' (first
    | with_reducible assumption
    | with_reducible apply State.clearMsecKey_keeps
    | with_reducible apply State.saRefuse_keeps
    | with_reducible apply State.setSakKey_keeps
    | with_reducible apply Keeps.ite
    | split)

theorem State.startSaClear_keeps {s0 : State} (x : Nat) (s : State) (hk : Keeps s0 s) : Keeps s0 (State.startSaClear x s) := by
  unfold State.startSaClear
  try dsimp only
  repeat' (first
    | with_reducible assumption
    | with_reducible apply State.saRefuse_keeps
    | with_reducible apply State.setSa_keeps
    | with_reducible apply Keeps.ite)

theorem State.startSaEnable_keeps {s0 : State} (x : Nat) (s : State) (hk : Keeps s0 s) : Keeps s0 (State.startSaEnable x s) := by
  unfold State.startSaEnable
  try dsimp only
  repeat' (first
    | with_reducible assumption
    | intro _
    | with_reducible apply State.saRefuse_keeps
    | with_reducible apply State.setSa_keeps
    | with_reducible apply Keeps.ite)

theorem State.startSaDisable_keeps {s0 : State} (x : Nat) (s : State) (hk : Keeps s0 s) : Keeps s0 (State.startSaDisable x s) := by
  unfold State.startSaDisable
  try dsimp only
  repeat' (first
    | with_reducible assumption
    | with_reducible apply State.saRefuse_keeps
    | with_reducible apply State.setSa_keeps
    | with_reducible apply Keeps.ite)

theorem State.saWithdrawn_keeps {s0 : State} (s : State) (x : Nat) (hk : Keeps s0 s) : Keeps s0 (State.saWithdrawn s x) := by
  unfold State.saWithdrawn
  try dsimp only
  repeat' (first
    | with_reducible assumption
    | with_reducible apply State.raise_keeps
    | with_reducible apply State.refuseVault_keeps
    | with_reducible apply State.setSa_keeps)

theorem State.setLane_keeps {s0 : State} (s : State) (l : Nat) (v : Lane) (hk : Keeps s0 s) : Keeps s0 (State.setLane s l v) := by
  unfold State.setLane
  try dsimp only
  repeat' (first
    | with_reducible assumption
    | simp only [Keeps.mk1])

theorem State.saRevoke_keeps {s0 : State} (s : State) (gone : Nat → Bool) (hk : Keeps s0 s) : Keeps s0 (State.saRevoke s gone) := by
  unfold State.saRevoke
  try dsimp only
  repeat' (first
    | with_reducible assumption
    | intro _
    | with_reducible apply State.saWithdrawn_keeps
    | with_reducible apply State.setLane_keeps
    | with_reducible apply State.setSa_keeps
    | with_reducible apply Keeps.ite
    | with_reducible apply Keeps.foldl)

end Sys2Proof.Machine
end

