-- ==== Sys2Proof/Laws/KeepsCipher.lean ====
section
/-! SUPPORT. What the operations of Machine/Cipher.lean keep. -/

namespace Sys2Proof.Machine

theorem State.dkrRefuse_keeps {s0 : State} (s : State) (e code : Nat) (hk : Keeps s0 s) : Keeps s0 (State.dkrRefuse s e code) := by
  unfold State.dkrRefuse
  try dsimp only
  repeat' (first
    | with_reducible assumption
    | with_reducible apply State.refuse_keeps)

theorem State.startLoadRef_keeps {s0 : State} (e : Fin 2) (a sl : Nat) (s : State) (hk : Keeps s0 s) : Keeps s0 (State.startLoadRef e a sl s) := by
  unfold State.startLoadRef
  try dsimp only
  repeat' (first
    | with_reducible assumption
    | with_reducible apply State.cacheFill_keeps
    | with_reducible apply State.captureFault_keeps
    | with_reducible apply State.dkrRefuse_keeps
    | with_reducible apply State.maskStall_keeps
    | with_reducible apply State.refuseVault_keeps
    | with_reducible apply State.setCmdSlot_keeps
    | with_reducible apply State.showDkr_keeps
    | with_reducible apply Keeps.ite
    | with_reducible apply Keeps.iteFst
    | simp only [Keeps.mk1]
    | with_reducible rfl
    | split)

theorem State.clearKeyWords_keeps {s0 : State} (s : State) (e : Nat) (hk : Keeps s0 s) : Keeps s0 (State.clearKeyWords s e) := by
  unfold State.clearKeyWords
  try dsimp only
  repeat' (first
    | with_reducible assumption
    | intro _
    | with_reducible apply State.wr_keeps
    | with_reducible apply Keeps.foldl)

theorem State.startLoadKey_keeps {s0 : State} (e : Fin 2) (a : Nat) (s : State) (hk : Keeps s0 s) : Keeps s0 (State.startLoadKey e a s) := by
  unfold State.startLoadKey
  try dsimp only
  repeat' (first
    | with_reducible assumption
    | with_reducible apply State.clearKeyWords_keeps
    | with_reducible apply State.dkrRefuse_keeps
    | with_reducible apply State.showDkr_keeps
    | with_reducible apply Keeps.ite)

theorem State.startDkrClear_keeps {s0 : State} (e : Fin 2) (s : State) (hk : Keeps s0 s) : Keeps s0 (State.startDkrClear e s) := by
  unfold State.startDkrClear
  try dsimp only
  repeat' (first
    | with_reducible assumption
    | with_reducible apply State.dkrRefuse_keeps
    | with_reducible apply State.showDkr_keeps
    | with_reducible apply Keeps.ite)

theorem State.aesRefuse_keeps {s0 : State} (s : State) (e code : Nat) (hk : Keeps s0 s) : Keeps s0 (State.aesRefuse s e code) := by
  unfold State.aesRefuse
  try dsimp only
  repeat' (first
    | with_reducible assumption
    | with_reducible apply State.cmdEnd_keeps
    | with_reducible apply State.refuse_keeps)

theorem State.startAesRun_keeps {s0 : State} (e : Fin 2) (addr : Nat) (s : State) (hk : Keeps s0 s) : Keeps s0 (State.startAesRun e addr s) := by
  unfold State.startAesRun
  try dsimp only
  repeat' (first
    | with_reducible assumption
    | with_reducible apply State.aesRefuse_keeps
    | with_reducible apply State.cmdStart_keeps
    | with_reducible apply State.setAes_keeps
    | with_reducible apply State.slotUse_keeps
    | with_reducible apply State.wr_keeps
    | with_reducible apply Keeps.ite
    | simp only [Keeps.mk1]
    | with_reducible rfl
    | split)

theorem State.fwAesRun_keeps {s0 : State} (e : Fin 2) (addr : Nat) (s : State) (hk : Keeps s0 s) : Keeps s0 (State.fwAesRun e addr s) := by
  unfold State.fwAesRun
  try dsimp only
  repeat' (first
    | with_reducible assumption
    | with_reducible apply State.setCmdSlot_keeps
    | with_reducible apply State.startAesRun_keeps
    | with_reducible apply Keeps.ite)

theorem State.kekFault_keeps {s0 : State} (s : State) (sl : Nat) (hk : Keeps s0 s) : Keeps s0 (State.kekFault s sl).1 := by
  unfold State.kekFault
  try dsimp only
  repeat' (first
    | with_reducible assumption
    | with_reducible apply State.captureFault_keeps
    | with_reducible apply Keeps.ite
    | with_reducible apply Keeps.iteFst
    | split)

theorem State.startWrapUnwrap_keeps {s0 : State} (e : Fin 2) (addr : Nat) (isWrap : Bool) (s : State) (hk : Keeps s0 s) : Keeps s0 (State.startWrapUnwrap e addr isWrap s) := by
  unfold State.startWrapUnwrap
  try dsimp only
  repeat' (first
    | with_reducible assumption
    | with_reducible apply State.aesRefuse_keeps
    | with_reducible apply State.capture_keeps
    | with_reducible apply State.cmdEnd_keeps
    | with_reducible apply State.cmdStart_keeps
    | with_reducible apply State.kekFault_keeps
    | with_reducible apply State.maskStall_keeps
    | with_reducible apply State.refuseVault_keeps
    | with_reducible apply State.setAes_keeps
    | with_reducible apply State.setCmdSlot_keeps
    | with_reducible apply State.wr_keeps
    | with_reducible apply Keeps.ite
    | with_reducible apply Keeps.iteFst
    | simp only [Keeps.mk1]
    | with_reducible rfl
    | split)

theorem State.aesIdle_keeps {s0 : State} (s : State) (e : Nat) (hk : Keeps s0 s) : Keeps s0 (State.aesIdle s e) := by
  unfold State.aesIdle
  try dsimp only
  repeat' (first
    | with_reducible assumption
    | with_reducible apply State.cmdEnd_keeps
    | with_reducible apply State.raise_keeps
    | with_reducible apply State.setAes_keeps
    | with_reducible apply State.showDkr_keeps
    | with_reducible apply State.slotRelease_keeps
    | with_reducible apply State.wr_keeps
    | with_reducible apply Keeps.ite)

theorem State.tagVerdict_keeps {s0 : State} (s : State) (e : Nat) (good : Bool) (hk : Keeps s0 s) : Keeps s0 (State.tagVerdict s e good) := by
  unfold State.tagVerdict
  try dsimp only
  repeat' (first
    | with_reducible assumption
    | with_reducible apply State.raise_keeps
    | with_reducible apply State.wr_keeps
    | with_reducible apply Keeps.ite)

theorem State.ramStore_keeps {s0 : State} (s : State) (a : Nat) (bs : List Byte) (hk : Keeps s0 s) : Keeps s0 (State.ramStore s a bs) := by
  unfold State.ramStore
  try dsimp only
  repeat' (first
    | with_reducible assumption
    | with_reducible apply State.retStore_keeps
    | with_reducible apply State.sramStore_keeps
    | with_reducible apply Keeps.ite)

theorem State.aesRevoked_keeps {s0 : State} (s : State) (e c : Nat) (hk : Keeps s0 s) : Keeps s0 (State.aesRevoked s e c) := by
  unfold State.aesRevoked
  try dsimp only
  repeat' (first
    | with_reducible assumption
    | with_reducible apply State.aesIdle_keeps
    | with_reducible apply State.revokedEnd_keeps
    | with_reducible apply State.wr_keeps)

theorem State.aesPartDone_keeps {s0 : State} (s : State) (e : Nat) (d : List Byte) (hk : Keeps s0 s) : Keeps s0 (State.aesPartDone s e d) := by
  unfold State.aesPartDone
  try dsimp only
  repeat' (first
    | with_reducible assumption
    | with_reducible apply State.aesIdle_keeps
    | with_reducible apply State.aesRevoked_keeps
    | with_reducible apply State.cmdEnd_keeps
    | with_reducible apply State.ramStore_keeps
    | with_reducible apply State.setAes_keeps
    | with_reducible apply State.tagVerdict_keeps
    | with_reducible apply Keeps.ite
    | simp only [Keeps.mk1]
    | with_reducible rfl
    | split)

theorem State.setKeyReg_keeps {s0 : State} (s : State) (r : Nat) (k : KeyReg) (hk : Keeps s0 s) : Keeps s0 (State.setKeyReg s r k) := by
  unfold State.setKeyReg
  try dsimp only
  repeat' (first
    | with_reducible assumption
    | with_reducible apply State.wr_keeps
    | with_reducible apply State.wrb_keeps
    | simp only [Keeps.mk1])

theorem State.deliverKey_keeps {s0 : State} {s : State} {e0 dst idx : Nat} {key : List Byte} {a : Nat} {t : State}
    (e : State.deliverKey s e0 dst idx key a = .ok t) (h : Keeps s0 s) : Keeps s0 t := by
  unfold State.deliverKey at e
  split at e
  · split at e
    · cases e
      exact State.showDkr_keeps _ _ _ h
    · cases e
  · split at e
    · split at e
      · cases e
      · cases e
        exact State.setSakKey_keeps _ _ _ _ _ h
    · cases e
      exact State.setKeyReg_keeps _ _ _ (State.spend_keeps _ _ h)

theorem State.wrapDone_keeps {s0 : State} (s : State) (e : Nat) (d : List Byte) (hk : Keeps s0 s) : Keeps s0 (State.wrapDone s e d) := by
  unfold State.wrapDone
  try dsimp only
  repeat' (first
    | with_reducible assumption
    | with_reducible apply State.aesIdle_keeps
    | with_reducible apply State.draw_keeps
    | with_reducible apply State.refuse_keeps
    | with_reducible apply State.sramStore_keeps
    | with_reducible apply Keeps.ite)

theorem State.unwrapDone_keeps {s0 : State} (s : State) (e : Nat) (d : List Byte) (hk : Keeps s0 s) : Keeps s0 (State.unwrapDone s e d) := by
  unfold State.unwrapDone
  try dsimp only
  repeat' (first
    | with_reducible assumption
    | with_reducible apply State.aesIdle_keeps
    | with_reducible apply State.deliverKey_keeps (by with_reducible assumption)
    | with_reducible apply State.refuse_keeps
    | with_reducible apply State.wr_keeps
    | with_reducible apply Keeps.ite
    | split)

theorem State.aesFinish_keeps {s0 : State} (s : State) (e : Nat) (hk : Keeps s0 s) : Keeps s0 (State.aesFinish s e) := by
  unfold State.aesFinish
  try dsimp only
  repeat' (first
    | with_reducible assumption
    | with_reducible apply State.aesPartDone_keeps
    | with_reducible apply State.aesRevoked_keeps
    | with_reducible apply State.unwrapDone_keeps
    | with_reducible apply State.wrapDone_keeps
    | with_reducible apply Keeps.ite
    | simp only [Keeps.mk1]
    | with_reducible rfl
    | split)

theorem State.aesSave_keeps {s0 : State} (s : State) (e : Nat) (hk : Keeps s0 s) : Keeps s0 (State.aesSave s e) := by
  unfold State.aesSave
  try dsimp only
  repeat' (first
    | with_reducible assumption
    | intro _
    | with_reducible apply State.cmdEnd_keeps
    | with_reducible apply State.draw_keeps
    | with_reducible apply State.setAes_keeps
    | with_reducible apply State.showDkr_keeps
    | with_reducible apply State.wr_keeps
    | with_reducible apply Keeps.ite)

theorem State.aesRestore_keeps {s0 : State} (s : State) (e : Nat) (hk : Keeps s0 s) : Keeps s0 (State.aesRestore s e) := by
  unfold State.aesRestore
  try dsimp only
  repeat' (first
    | with_reducible assumption
    | intro _
    | with_reducible apply State.setAes_keeps
    | with_reducible apply State.setCmdSlot_keeps
    | with_reducible apply State.wr_keeps
    | simp only [Keeps.mk1]
    | with_reducible rfl
    | split)

theorem State.aesBorrow_keeps {s0 : State} (s : State) (hk : Keeps s0 s) : Keeps s0 (State.aesBorrow s) := by
  unfold State.aesBorrow
  try dsimp only
  repeat' (first
    | with_reducible assumption
    | intro _
    | with_reducible apply State.aesRestore_keeps
    | with_reducible apply State.aesSave_keeps
    | with_reducible apply Keeps.ite
    | split)

theorem State.aesSavedGone_keeps {s0 : State} (s : State) (gone : Nat → Bool) (hk : Keeps s0 s) : Keeps s0 (State.aesSavedGone s gone) := by
  unfold State.aesSavedGone
  try dsimp only
  repeat' (first
    | with_reducible assumption
    | intro _
    | with_reducible apply State.raise_keeps
    | with_reducible apply State.revokedEnd_keeps
    | with_reducible apply State.setAes_keeps
    | with_reducible apply State.wr_keeps
    | with_reducible apply Keeps.ite
    | with_reducible apply Keeps.foldl
    | with_reducible apply Keeps.foldlFst
    | simp only [Keeps.mk1]
    | with_reducible rfl
    | split)

theorem State.abortAes_keeps {s0 : State} (e : Fin 2) (s : State) (hk : Keeps s0 s) : Keeps s0 (State.abortAes e s) := by
  unfold State.abortAes
  try dsimp only
  repeat' (first
    | with_reducible assumption
    | with_reducible apply State.aesIdle_keeps
    | with_reducible apply State.cmdDrop_keeps
    | with_reducible apply State.refuse_keeps
    | with_reducible apply Keeps.ite)

theorem State.abortSaved_keeps {s0 : State} (e : Nat) (s : State) (hk : Keeps s0 s) : Keeps s0 (State.abortSaved e s) := by
  unfold State.abortSaved
  try dsimp only
  repeat' (first
    | with_reducible assumption
    | with_reducible apply State.refuse_keeps
    | with_reducible apply State.setAes_keeps
    | with_reducible apply State.slotRelease_keeps
    | with_reducible apply State.wr_keeps
    | simp only [Keeps.mk1]
    | with_reducible rfl
    | split)

theorem State.pkeRefuse_keeps {s0 : State} (s : State) (code : Nat) (hk : Keeps s0 s) : Keeps s0 (State.pkeRefuse s code) := by
  unfold State.pkeRefuse
  try dsimp only
  repeat' (first
    | with_reducible assumption
    | with_reducible apply State.cmdEnd_keeps
    | with_reducible apply State.refuse_keeps)

theorem State.startPke_keeps {s0 : State} (op addr : Nat) (i : Instr) (s : State) (hk : Keeps s0 s) : Keeps s0 (State.startPke op addr i s) := by
  unfold State.startPke
  try dsimp only
  repeat' (first
    | with_reducible assumption
    | with_reducible apply State.cacheFill_keeps
    | with_reducible apply State.captureFault_keeps
    | with_reducible apply State.cmdEnd_keeps
    | with_reducible apply State.cmdStart_keeps
    | with_reducible apply State.maskStall_keeps
    | with_reducible apply State.pkeRefuse_keeps
    | with_reducible apply State.refuseVault_keeps
    | with_reducible apply State.setCmdSlot_keeps
    | with_reducible apply State.slotUse_keeps
    | with_reducible apply State.wr_keeps
    | with_reducible apply Keeps.ite
    | with_reducible apply Keeps.iteFst
    | simp only [Keeps.mk1]
    | with_reducible rfl
    | split)

theorem State.pkeIdle_keeps {s0 : State} (s : State) (hk : Keeps s0 s) : Keeps s0 (State.pkeIdle s) := by
  unfold State.pkeIdle
  try dsimp only
  repeat' (first
    | with_reducible assumption
    | with_reducible apply State.cmdEnd_keeps
    | with_reducible apply State.raise_keeps
    | with_reducible apply State.slotRelease_keeps
    | with_reducible apply State.wr_keeps
    | simp only [Keeps.mk1])

theorem State.verifyDone_keeps {s0 : State} (s : State) (d : List Byte) (hk : Keeps s0 s) : Keeps s0 (State.verifyDone s d) := by
  unfold State.verifyDone
  try dsimp only
  repeat' (first
    | with_reducible assumption
    | with_reducible apply State.pkeIdle_keeps
    | with_reducible apply State.wr_keeps)

theorem State.signDone_keeps {s0 : State} (s : State) (d : List Byte) (hk : Keeps s0 s) : Keeps s0 (State.signDone s d) := by
  unfold State.signDone
  try dsimp only
  repeat' (first
    | with_reducible assumption
    | with_reducible apply State.draw_keeps
    | with_reducible apply State.pkeIdle_keeps
    | with_reducible apply State.refuse_keeps
    | with_reducible apply State.sramStore_keeps
    | with_reducible apply Keeps.ite
    | with_reducible apply Keeps.iteFst
    | split)

theorem State.genkeyTo_keeps {s0 : State} (s : State) (d v : List Byte) (src : Option Nat) (hk : Keeps s0 s) : Keeps s0 (State.genkeyTo s d v src) := by
  unfold State.genkeyTo
  try dsimp only
  repeat' (first
    | with_reducible assumption
    | with_reducible apply State.pkeIdle_keeps
    | with_reducible apply State.setKeyReg_keeps
    | with_reducible apply State.sramStore_keeps)

theorem State.genkeyDone_keeps {s0 : State} (s : State) (d : List Byte) (hk : Keeps s0 s) : Keeps s0 (State.genkeyDone s d) := by
  unfold State.genkeyDone
  try dsimp only
  repeat' (first
    | with_reducible assumption
    | with_reducible apply State.draw_keeps
    | with_reducible apply State.genkeyTo_keeps
    | with_reducible apply State.pkeIdle_keeps
    | with_reducible apply State.refuse_keeps
    | with_reducible apply Keeps.ite)

theorem State.ecdhDone_keeps {s0 : State} (s : State) (d : List Byte) (hk : Keeps s0 s) : Keeps s0 (State.ecdhDone s d) := by
  unfold State.ecdhDone
  try dsimp only
  repeat' (first
    | with_reducible assumption
    | with_reducible apply State.pkeIdle_keeps
    | with_reducible apply State.refuse_keeps
    | with_reducible apply State.refuseVault_keeps
    | with_reducible apply State.vaultResult_keeps
    | with_reducible apply Keeps.ite
    | simp only [Keeps.mk1])

theorem State.pkeFinish_keeps {s0 : State} (s : State) (hk : Keeps s0 s) : Keeps s0 (State.pkeFinish s) := by
  unfold State.pkeFinish
  try dsimp only
  repeat' (first
    | with_reducible assumption
    | with_reducible apply State.ecdhDone_keeps
    | with_reducible apply State.genkeyDone_keeps
    | with_reducible apply State.pkeIdle_keeps
    | with_reducible apply State.revokedEnd_keeps
    | with_reducible apply State.setKeyReg_keeps
    | with_reducible apply State.signDone_keeps
    | with_reducible apply State.verifyDone_keeps
    | with_reducible apply Keeps.ite
    | split)

theorem State.startGen_keeps {s0 : State} (addr : Nat) (s : State) (hk : Keeps s0 s) : Keeps s0 (State.startGen addr s) := by
  unfold State.startGen
  try dsimp only
  repeat' (first
    | with_reducible assumption
    | with_reducible apply State.draw_keeps
    | with_reducible apply State.refuse_keeps
    | with_reducible apply State.setCmdSlot_keeps
    | with_reducible apply State.sramStore_keeps
    | with_reducible apply State.wr_keeps
    | with_reducible apply Keeps.ite)

theorem State.startRestart_keeps {s0 : State} (s : State) (hk : Keeps s0 s) : Keeps s0 (State.startRestart s) := by
  unfold State.startRestart
  try dsimp only
  repeat' (first
    | with_reducible assumption
    | with_reducible apply State.cmdStart_keeps
    | with_reducible apply State.wr_keeps
    | simp only [Keeps.mk1])

end Sys2Proof.Machine
end

