-- ==== Sys2Proof/Laws/KeepsHosts.lean ====
section
/-! SUPPORT. What the operations of Machine/Hosts.lean keep. -/

namespace Sys2Proof.Machine

theorem State.voidNow_keeps {s0 : State} (s : State) (n sl : Nat) (hk : Keeps s0 s) : Keeps s0 (State.voidNow s n sl) := by
  unfold State.voidNow
  try dsimp only
  repeat' (first
    | with_reducible assumption
    | with_reducible apply Keeps.ite
    | simp only [Keeps.mk1])

theorem State.voidRec_keeps {s0 : State} (s : State) (n sl : Nat) (hk : Keeps s0 s) : Keeps s0 (State.voidRec s n sl) := by
  unfold State.voidRec
  try dsimp only
  repeat' (first
    | with_reducible assumption
    | with_reducible apply State.voidNow_keeps
    | with_reducible apply Keeps.ite
    | simp only [Keeps.mk1])

theorem State.appendNow_keeps {s0 : State} (s : State) (r : SlotRec) (hk : Keeps s0 s) : Keeps s0 (State.appendNow s r) := by
  unfold State.appendNow
  try dsimp only
  repeat' (first
    | with_reducible assumption
    | simp only [Keeps.mk1])

theorem State.setVerified_keeps {s0 : State} (s : State) (n p : Nat) (hk : Keeps s0 s) : Keeps s0 (State.setVerified s n p) := by
  unfold State.setVerified
  try dsimp only
  repeat' (first
    | with_reducible assumption
    | with_reducible apply State.setPort_keeps)

theorem State.markVerified_keeps {s0 : State} (s : State) (n w p : Nat) (hk : Keeps s0 s) : Keeps s0 (State.markVerified s n w p) := by
  unfold State.markVerified
  try dsimp only
  repeat' (first
    | with_reducible assumption
    | with_reducible apply State.setVerified_keeps
    | with_reducible apply State.wr_keeps
    | with_reducible apply Keeps.ite)

theorem State.claimDge_keeps {s0 : State} (s : State) (h : Nat) (hk : Keeps s0 s) : Keeps s0 (State.claimDge s h).1 := by
  unfold State.claimDge
  try dsimp only
  repeat' (first
    | with_reducible assumption
    | intro _
    | with_reducible apply State.bump_keeps
    | with_reducible apply State.setDge_keeps
    | with_reducible apply State.wr_keeps
    | with_reducible apply Keeps.ite
    | with_reducible apply Keeps.iteFst
    | simp only [Keeps.mk1]
    | with_reducible rfl
    | split)

theorem State.releaseDge_keeps {s0 : State} (s : State) (n : Nat) (hk : Keeps s0 s) : Keeps s0 (State.releaseDge s n) := by
  unfold State.releaseDge
  try dsimp only
  repeat' (first
    | with_reducible assumption
    | with_reducible apply State.setDge_keeps
    | with_reducible apply State.wr_keeps
    | with_reducible apply Keeps.ite)

theorem State.hashOn_keeps {s0 : State} (s : State) (h : Nat) (good : Bool) (hk : Keeps s0 s) : Keeps s0 (State.hashOn s h good) := by
  unfold State.hashOn
  try dsimp only
  repeat' (first
    | with_reducible assumption
    | with_reducible apply State.claimDge_keeps
    | with_reducible apply State.releaseDge_keeps
    | with_reducible apply State.seqBegin_keeps
    | with_reducible apply State.seqVerdict_keeps
    | split)

theorem State.dgeBorrow_keeps {s0 : State} (s : State) (h : Nat) (hk : Keeps s0 s) : Keeps s0 (State.dgeBorrow s h) := by
  unfold State.dgeBorrow
  try dsimp only
  repeat' (first
    | with_reducible assumption
    | with_reducible apply State.claimDge_keeps
    | with_reducible apply State.releaseDge_keeps
    | split)

theorem State.setLaneI_keeps {s0 : State} (s : State) (n mode : Nat) (hk : Keeps s0 s) : Keeps s0 (State.setLaneI s n mode) := by
  unfold State.setLaneI
  try dsimp only
  repeat' (first
    | with_reducible assumption
    | with_reducible apply State.setSnp_keeps
    | with_reducible apply State.wr_keeps
    | with_reducible apply State.wrb_keeps)

theorem State.gateEnd_keeps {s0 : State} (s : State) (n : Nat) (hk : Keeps s0 s) : Keeps s0 (State.gateEnd s n) := by
  unfold State.gateEnd
  try dsimp only
  repeat' (first
    | with_reducible assumption
    | intro _
    | with_reducible apply State.dropIssuer_keeps
    | with_reducible apply State.dropReqs_keeps
    | with_reducible apply State.pumpPke_keeps
    | with_reducible apply State.releaseDge_keeps
    | with_reducible apply State.setHost_keeps
    | with_reducible apply State.setLaneI_keeps
    | with_reducible apply Keeps.foldl
    | with_reducible apply Keeps.foldlFst
    | simp only [Keeps.mk1]
    | with_reducible rfl
    | split)

theorem State.pkeLeave_keeps {s0 : State} (s : State) (n : Nat) (hk : Keeps s0 s) : Keeps s0 (State.pkeLeave s n) := by
  unfold State.pkeLeave
  try dsimp only
  repeat' (first
    | with_reducible assumption
    | intro _
    | with_reducible apply State.dropReqs_keeps
    | with_reducible apply State.pumpPke_keeps)

theorem State.readEnd_keeps {s0 : State} (s : State) (n : Nat) (hk : Keeps s0 s) : Keeps s0 (State.readEnd s n) := by
  unfold State.readEnd
  try dsimp only
  repeat' (first
    | with_reducible assumption
    | with_reducible apply State.cmdEnd_keeps
    | with_reducible apply State.dropIssuer_keeps
    | with_reducible apply State.pkeLeave_keeps
    | with_reducible apply State.refuse_keeps
    | with_reducible apply State.setHost_keeps
    | with_reducible apply Keeps.ite
    | simp only [Keeps.mk1]
    | with_reducible rfl
    | split)

theorem State.restoreEnd_keeps {s0 : State} (s : State) (n : Nat) (hk : Keeps s0 s) : Keeps s0 (State.restoreEnd s n) := by
  unfold State.restoreEnd
  try dsimp only
  repeat' (first
    | with_reducible assumption
    | with_reducible apply State.dropIssuer_keeps
    | with_reducible apply State.pkeLeave_keeps
    | with_reducible apply State.releaseDge_keeps
    | with_reducible apply State.setHost_keeps
    | with_reducible apply State.wr_keeps
    | with_reducible apply Keeps.ite
    | simp only [Keeps.mk1]
    | with_reducible rfl
    | split)

theorem State.touchEnd_keeps {s0 : State} (s : State) (n : Nat) (hk : Keeps s0 s) : Keeps s0 (State.touchEnd s n) := by
  unfold State.touchEnd
  try dsimp only
  repeat' (first
    | with_reducible assumption
    | with_reducible apply State.setChan_keeps
    | with_reducible apply State.setPort_keeps
    | with_reducible apply Keeps.ite
    | simp only [Keeps.mk1]
    | with_reducible rfl
    | split)

theorem State.hostWorkEnd_keeps {s0 : State} (s : State) (n : Nat) (hk : Keeps s0 s) : Keeps s0 (State.hostWorkEnd s n) := by
  unfold State.hostWorkEnd
  try dsimp only
  repeat' (first
    | with_reducible assumption
    | with_reducible apply State.dropIssuer_keeps
    | with_reducible apply State.gateEnd_keeps
    | with_reducible apply State.readEnd_keeps
    | with_reducible apply State.restoreEnd_keeps
    | with_reducible apply State.setHost_keeps
    | with_reducible apply State.setLaneI_keeps
    | with_reducible apply State.touchEnd_keeps)

theorem State.setHostSt_keeps {s0 : State} (s : State) (n st : Nat) (hk : Keeps s0 s) : Keeps s0 (State.setHostSt s n st) := by
  unfold State.setHostSt
  try dsimp only
  repeat' (first
    | with_reducible assumption
    | with_reducible apply State.wr_keeps)

theorem State.gateKick_keeps {s0 : State} (s : State) (n : Nat) (h : Keeps s0 s) : Keeps s0 (State.gateKick s n).1 := by
  induction n generalizing s with
  | zero => exact h
  | succ n ih =>
    unfold State.gateKick
    repeat' (first
      | with_reducible apply ih
      | with_reducible assumption
      | intro _
      | with_reducible apply State.enqueue_keeps
      | with_reducible apply State.setHost_keeps
      | with_reducible apply State.wr_keeps
      | with_reducible apply Keeps.ite
      | with_reducible apply Keeps.iteFst
      | with_reducible apply Keeps.foldl
      | with_reducible apply Keeps.foldlFst
      | simp only []
      | with_reducible rfl
      | split)

theorem State.recordFault_keeps {s0 : State} (s : State) (n reason : Nat) (hk : Keeps s0 s) : Keeps s0 (State.recordFault s n reason) := by
  unfold State.recordFault
  try dsimp only
  repeat' (first
    | with_reducible assumption
    | with_reducible apply State.raise_keeps
    | with_reducible apply State.wr_keeps)

theorem State.imageReady_keeps {s0 : State} (s : State) (n sl : Nat) (hk : Keeps s0 s) : Keeps s0 (State.imageReady s n sl) := by
  unfold State.imageReady
  try dsimp only
  repeat' (first
    | with_reducible assumption
    | with_reducible apply State.raise_keeps
    | with_reducible apply State.setHostSt_keeps
    | with_reducible apply State.wr_keeps)

theorem State.ladder5_keeps {s0 : State} (s : State) (n : Nat) (hk : Keeps s0 s) : Keeps s0 (State.ladder5 s n) := by
  unfold State.ladder5
  try dsimp only
  repeat' (first
    | with_reducible assumption
    | with_reducible apply State.raise_keeps
    | with_reducible apply State.wr_keeps
    | with_reducible apply Keeps.ite)

theorem State.restoreFail_keeps {s0 : State} (s : State) (n : Nat) (hk : Keeps s0 s) : Keeps s0 (State.restoreFail s n) := by
  unfold State.restoreFail
  try dsimp only
  repeat' (first
    | with_reducible assumption
    | with_reducible apply State.ladder5_keeps
    | with_reducible apply State.readEnd_keeps
    | with_reducible apply State.recordFault_keeps
    | with_reducible apply State.restoreEnd_keeps)

theorem State.ladder4_keeps {s0 : State} (s : State) (n : Nat) (hk : Keeps s0 s) : Keeps s0 (State.ladder4 s n) := by
  unfold State.ladder4
  try dsimp only
  repeat' (first
    | with_reducible assumption
    | with_reducible apply State.enqueue_keeps
    | with_reducible apply State.ladder5_keeps
    | with_reducible apply State.setHost_keeps
    | with_reducible apply State.wr_keeps
    | with_reducible apply Keeps.ite)

theorem State.ladder3_keeps {s0 : State} (s : State) (n : Nat) (hk : Keeps s0 s) : Keeps s0 (State.ladder3 s n) := by
  unfold State.ladder3
  try dsimp only
  repeat' (first
    | with_reducible assumption
    | with_reducible apply State.imageReady_keeps
    | with_reducible apply State.ladder4_keeps
    | with_reducible apply State.wr_keeps
    | with_reducible apply Keeps.ite)

theorem State.ladder_keeps {s0 : State} (s : State) (n l : Nat) (hk : Keeps s0 s) : Keeps s0 (State.ladder s n l) := by
  unfold State.ladder
  try dsimp only
  repeat' (first
    | with_reducible assumption
    | with_reducible apply State.ladder3_keeps
    | with_reducible apply State.ladder4_keeps
    | with_reducible apply State.ladder5_keeps
    | with_reducible apply Keeps.ite)

theorem State.hostFail_keeps {s0 : State} (s : State) (n reason : Nat) (hk : Keeps s0 s) : Keeps s0 (State.hostFail s n reason) := by
  unfold State.hostFail
  try dsimp only
  repeat' (first
    | with_reducible assumption
    | with_reducible apply State.hostWorkEnd_keeps
    | with_reducible apply State.ladder_keeps
    | with_reducible apply State.raise_keeps
    | with_reducible apply State.recordFault_keeps
    | with_reducible apply State.setHost_keeps
    | with_reducible apply State.setHostSt_keeps
    | with_reducible apply State.voidRec_keeps
    | with_reducible apply Keeps.ite)

theorem State.gateStart_keeps {s0 : State} (s : State) (hk : Keeps s0 s) : Keeps s0 (State.gateStart s) := by
  unfold State.gateStart
  try dsimp only
  repeat' (first
    | with_reducible assumption
    | intro _
    | with_reducible apply State.gateKick_keeps
    | with_reducible apply State.hostFail_keeps
    | with_reducible apply Keeps.foldl)

theorem State.hostFailed_keeps {s0 : State} (s : State) (n reason : Nat) (hk : Keeps s0 s) : Keeps s0 (State.hostFailed s n reason) := by
  unfold State.hostFailed
  try dsimp only
  repeat' (first
    | with_reducible assumption
    | with_reducible apply State.gateStart_keeps
    | with_reducible apply State.hostFail_keeps)

theorem State.holdHost_keeps {s0 : State} (s : State) (n cause : Nat) (hk : Keeps s0 s) : Keeps s0 (State.holdHost s n cause) := by
  unfold State.holdHost
  try dsimp only
  repeat' (first
    | with_reducible assumption
    | intro _
    | with_reducible apply State.hostWorkEnd_keeps
    | with_reducible apply State.setHost_keeps
    | with_reducible apply State.setHostSt_keeps
    | with_reducible apply State.setPort_keeps
    | with_reducible apply State.wr_keeps
    | with_reducible apply Keeps.ite
    | with_reducible apply Keeps.foldl)

theorem State.holdAll_keeps {s0 : State} (s : State) (cause : Nat) (hk : Keeps s0 s) : Keeps s0 (State.holdAll s cause) := by
  unfold State.holdAll
  try dsimp only
  repeat' (first
    | with_reducible assumption
    | intro _
    | with_reducible apply State.holdHost_keeps
    | with_reducible apply Keeps.foldl)

theorem State.hostOff_keeps {s0 : State} (s : State) (n : Nat) (hk : Keeps s0 s) : Keeps s0 (State.hostOff s n) := by
  unfold State.hostOff
  try dsimp only
  repeat' (first
    | with_reducible assumption
    | with_reducible apply State.hostWorkEnd_keeps
    | with_reducible apply State.setHost_keeps
    | with_reducible apply State.setHostSt_keeps
    | with_reducible apply State.wr_keeps
    | with_reducible apply Keeps.ite)

theorem State.quarantineHost_keeps {s0 : State} (s : State) (n : Nat) (hk : Keeps s0 s) : Keeps s0 (State.quarantineHost s n) := by
  unfold State.quarantineHost
  try dsimp only
  repeat' (first
    | with_reducible assumption
    | with_reducible apply State.hostWorkEnd_keeps
    | with_reducible apply State.raise_keeps
    | with_reducible apply State.setHost_keeps
    | with_reducible apply State.setHostSt_keeps)

theorem State.okHost_keeps {s0 : State} (s : State) (n : Nat) (hk : Keeps s0 s) : Keeps s0 (State.okHost s n) := by
  unfold State.okHost
  try dsimp only
  repeat' (first
    | with_reducible assumption
    | intro _
    | with_reducible apply State.setHost_keeps
    | with_reducible apply State.voidRec_keeps
    | with_reducible apply State.wr_keeps
    | with_reducible apply Keeps.ite
    | with_reducible apply Keeps.foldl)

theorem State.okMilestone_keeps {s0 : State} (s : State) (n : Nat) (hk : Keeps s0 s) : Keeps s0 (State.okMilestone s n) := by
  unfold State.okMilestone
  try dsimp only
  repeat' (first
    | with_reducible assumption
    | with_reducible apply State.okHost_keeps
    | with_reducible apply Keeps.ite)

end Sys2Proof.Machine
end

