-- ==== Sys2Proof/Laws/KeepsChannel.lean ====
section
/-! SUPPORT. What the operations of Machine/Channel.lean keep. -/

namespace Sys2Proof.Machine

theorem State.fchRefuse_keeps {s0 : State} (s : State) (c code : Nat) (hk : Keeps s0 s) : Keeps s0 (State.fchRefuse s c code) := by
  unfold State.fchRefuse
  try dsimp only
  repeat' (first
    | with_reducible assumption
    | with_reducible apply State.cmdEnd_keeps
    | with_reducible apply State.refuse_keeps)

theorem State.laneEnd_keeps {s0 : State} (s : State) (c : Nat) (hk : Keeps s0 s) : Keeps s0 (State.laneEnd s c) := by
  unfold State.laneEnd
  try dsimp only
  repeat' (first
    | with_reducible assumption
    | with_reducible apply State.setSnp_keeps
    | with_reducible apply State.wr_keeps
    | with_reducible apply Keeps.ite)

theorem State.fchDone_keeps {s0 : State} (s : State) (c : Nat) (hk : Keeps s0 s) : Keeps s0 (State.fchDone s c) := by
  unfold State.fchDone
  try dsimp only
  repeat' (first
    | with_reducible assumption
    | with_reducible apply State.cmdEnd_keeps
    | with_reducible apply State.laneEnd_keeps
    | with_reducible apply State.raise_keeps)

theorem State.startFch_keeps {s0 : State} (c : Fin 8) (k addr : Nat) (i : Instr) (s : State) (hk : Keeps s0 s) : Keeps s0 (State.startFch c k addr i s) := by
  unfold State.startFch
  try dsimp only
  repeat' (first
    | with_reducible assumption
    | with_reducible apply State.cmdStart_keeps
    | with_reducible apply State.enqueue_keeps
    | with_reducible apply State.fchRefuse_keeps
    | with_reducible apply Keeps.ite
    | split)

theorem State.startInit_keeps {s0 : State} (c : Fin 8) (addr : Nat) (s : State) (hk : Keeps s0 s) : Keeps s0 (State.startInit c addr s) := by
  unfold State.startInit
  try dsimp only
  repeat' (first
    | with_reducible assumption
    | with_reducible apply State.cmdStart_keeps
    | with_reducible apply State.enqueue_keeps
    | with_reducible apply State.fchRefuse_keeps
    | split)

theorem State.abortFch_keeps {s0 : State} (c : Nat) (s : State) (hk : Keeps s0 s) : Keeps s0 (State.abortFch c s) := by
  unfold State.abortFch
  try dsimp only
  repeat' (first
    | with_reducible assumption
    | with_reducible apply State.cmdDrop_keeps
    | with_reducible apply State.dropReqs_keeps
    | with_reducible apply State.laneEnd_keeps
    | with_reducible apply State.pumpCh_keeps
    | with_reducible apply State.raise_keeps
    | with_reducible apply Keeps.ite)

theorem State.fwLane_keeps {s0 : State} (s : State) (c pos : Nat) (bs : List Byte) (hk : Keeps s0 s) : Keeps s0 (State.fwLane s c pos bs) := by
  unfold State.fwLane
  try dsimp only
  repeat' (first
    | with_reducible assumption
    | with_reducible apply State.setSnp_keeps
    | with_reducible apply State.wr_keeps
    | with_reducible apply Keeps.ite)

theorem State.fwBurst_keeps {s0 : State} (s : State) (c : Nat) (d : List Byte) (pos n : Nat) (corrupt : Bool) (hk : Keeps s0 s) : Keeps s0 (State.fwBurst s c d pos n corrupt) := by
  unfold State.fwBurst
  try dsimp only
  repeat' (first
    | with_reducible assumption
    | with_reducible apply State.delivered_keeps
    | with_reducible apply State.fwLane_keeps
    | with_reducible apply State.ramStore_keeps
    | with_reducible apply Keeps.ite)

theorem State.fwReadOn_keeps {s0 : State} (s : State) (c : Nat) (r : Req) (hk : Keeps s0 s) : Keeps s0 (State.fwReadOn s c r) := by
  unfold State.fwReadOn
  try dsimp only
  repeat' (first
    | with_reducible assumption
    | with_reducible apply State.fchDone_keeps
    | with_reducible apply State.requeue_keeps
    | with_reducible apply Keeps.ite)

theorem State.fwReadServed_keeps {s0 : State} (s : State) (c : Nat) (r : Req) (corrupt : Bool) (hk : Keeps s0 s) : Keeps s0 (State.fwReadServed s c r corrupt) := by
  unfold State.fwReadServed
  try dsimp only
  repeat' (first
    | with_reducible assumption
    | with_reducible apply State.fwBurst_keeps
    | with_reducible apply State.fwReadOn_keeps
    | with_reducible apply State.setSnp_keeps
    | with_reducible apply Keeps.ite
    | simp only [Keeps.mk1]
    | with_reducible rfl
    | split)

theorem State.fwServed_keeps {s0 : State} (s : State) (c : Nat) (r : Req) (corrupt : Bool) (hk : Keeps s0 s) : Keeps s0 (State.fwServed s c r corrupt) := by
  unfold State.fwServed
  try dsimp only
  repeat' (first
    | with_reducible assumption
    | with_reducible apply State.fchDone_keeps
    | with_reducible apply State.flashErase_keeps
    | with_reducible apply State.flashProgram_keeps
    | with_reducible apply State.fwReadServed_keeps
    | with_reducible apply State.requeue_keeps
    | with_reducible apply Keeps.ite
    | simp only [Keeps.mk1]
    | with_reducible rfl
    | split)

theorem State.laneGo_keeps {s0 : State} (s : State) (u : Nat) (hk : Keeps s0 s) : Keeps s0 (State.laneGo s u) := by
  unfold State.laneGo
  try dsimp only
  repeat' (first
    | with_reducible assumption
    | with_reducible apply State.dropReqs_keeps
    | with_reducible apply State.fchDone_keeps
    | with_reducible apply State.pumpCh_keeps
    | with_reducible apply Keeps.ite)

theorem State.lanesGo_keeps {s0 : State} (s : State) (hk : Keeps s0 s) : Keeps s0 (State.lanesGo s) := by
  unfold State.lanesGo
  try dsimp only
  repeat' (first
    | with_reducible assumption
    | intro _
    | with_reducible apply State.laneGo_keeps
    | with_reducible apply Keeps.foldl)

theorem State.readFailed_keeps {s0 : State} (s : State) (c : Nat) (hk : Keeps s0 s) : Keeps s0 (State.readFailed s c) := by
  unfold State.readFailed
  try dsimp only
  repeat' (first
    | with_reducible assumption
    | with_reducible apply State.bump_keeps
    | with_reducible apply State.raise_keeps)

theorem State.leafVerdict_keeps {s0 : State} (s : State) (n : Nat) (l : LeavesOp) (hk : Keeps s0 s) : Keeps s0 (State.leafVerdict s n l) := by
  unfold State.leafVerdict
  try dsimp only
  repeat' (first
    | with_reducible assumption
    | intro _
    | with_reducible apply State.bump_keeps
    | with_reducible apply State.laneGo_keeps
    | with_reducible apply State.leafFinal_keeps
    | with_reducible apply State.readFailed_keeps
    | with_reducible apply State.retag_keeps
    | with_reducible apply State.setSnp_keeps
    | with_reducible apply State.wr_keeps
    | with_reducible apply Keeps.ite
    | simp only [Keeps.mk1]
    | with_reducible rfl
    | split)

theorem State.initFinish_keeps {s0 : State} (s : State) (c : Nat) (ok : Bool) (hk : Keeps s0 s) : Keeps s0 (State.initFinish s c ok) := by
  unfold State.initFinish
  try dsimp only
  repeat' (first
    | with_reducible assumption
    | with_reducible apply State.fchDone_keeps
    | with_reducible apply State.fchRefuse_keeps
    | with_reducible apply State.pumpCh_keeps
    | with_reducible apply State.raise_keeps
    | with_reducible apply State.serviceEnd_keeps
    | with_reducible apply State.wr_keeps
    | with_reducible apply Keeps.ite
    | split)

theorem State.romBringUp_keeps {s0 : State} (s : State) (c : Nat) (hk : Keeps s0 s) : Keeps s0 (State.romBringUp s c) := by
  unfold State.romBringUp
  try dsimp only
  repeat' (first
    | with_reducible assumption
    | with_reducible apply State.spend_keeps
    | with_reducible apply State.wr_keeps
    | with_reducible apply Keeps.ite)

theorem State.leaseOp_keeps {s0 : State} (s : State) (n dur : Nat) (hk : Keeps s0 s) : Keeps s0 (State.leaseOp s n dur) := by
  unfold State.leaseOp
  try dsimp only
  repeat' (first
    | with_reducible assumption
    | with_reducible apply State.pumpCh_keeps
    | with_reducible apply State.setChan_keeps
    | with_reducible apply State.wrb_keeps
    | with_reducible apply Keeps.ite)

theorem State.leaseEnd_keeps {s0 : State} (s : State) (n : Nat) (hk : Keeps s0 s) : Keeps s0 (State.leaseEnd s n) := by
  unfold State.leaseEnd
  try dsimp only
  repeat' (first
    | with_reducible assumption
    | with_reducible apply State.setChan_keeps
    | with_reducible apply State.wr_keeps)

theorem State.braceChannel_keeps {s0 : State} (s : State) (c : Nat) (hk : Keeps s0 s) : Keeps s0 (State.braceChannel s c) := by
  unfold State.braceChannel
  try dsimp only
  repeat' (first
    | with_reducible assumption
    | with_reducible apply State.pumpCh_keeps
    | with_reducible apply State.setChan_keeps
    | with_reducible apply State.setSched_keeps
    | with_reducible apply State.wr_keeps
    | with_reducible apply Keeps.ite
    | simp only [Keeps.mk1]
    | with_reducible rfl
    | split)

theorem State.braceChannels_keeps {s0 : State} (s : State) (hk : Keeps s0 s) : Keeps s0 (State.braceChannels s) := by
  unfold State.braceChannels
  try dsimp only
  repeat' (first
    | with_reducible assumption
    | intro _
    | with_reducible apply State.braceChannel_keeps
    | with_reducible apply State.setSched_keeps
    | with_reducible apply Keeps.foldl)

theorem State.resumeChannels_keeps {s0 : State} (s : State) (hk : Keeps s0 s) : Keeps s0 (State.resumeChannels s) := by
  unfold State.resumeChannels
  try dsimp only
  repeat' (first
    | with_reducible assumption
    | intro _
    | with_reducible apply State.pumpCh_keeps
    | with_reducible apply State.pumpPke_keeps
    | with_reducible apply Keeps.foldl)

theorem State.ageReq_keeps {s0 : State} (s : State) (x i : Nat) (hk : Keeps s0 s) : Keeps s0 (State.ageReq s x i) := by
  unfold State.ageReq
  try dsimp only
  repeat' (first
    | with_reducible assumption
    | with_reducible apply State.bump_keeps
    | with_reducible apply State.pumpCh_keeps
    | with_reducible apply State.setSched_keeps
    | with_reducible apply Keeps.ite
    | simp only [Keeps.mk1]
    | with_reducible rfl
    | split)

theorem State.showLevels_keeps {s0 : State} (s : State) (hk : Keeps s0 s) : Keeps s0 (State.showLevels s) := by
  unfold State.showLevels
  try dsimp only
  repeat' (first
    | with_reducible assumption
    | intro _
    | with_reducible apply State.wr_keeps)

theorem State.windowEnd_keeps {s0 : State} (s : State) (x below : Nat) (hk : Keeps s0 s) : Keeps s0 (State.windowEnd s x below) := by
  unfold State.windowEnd
  try dsimp only
  repeat' (first
    | with_reducible assumption
    | intro _
    | with_reducible apply State.bump_keeps
    | with_reducible apply State.pumpCh_keeps
    | with_reducible apply State.pumpPke_keeps
    | with_reducible apply State.raise_keeps
    | with_reducible apply State.setSched_keeps
    | with_reducible apply State.showLevels_keeps
    | with_reducible apply Keeps.ite
    | with_reducible apply Keeps.foldl)

end Sys2Proof.Machine
end

