-- ==== Sys2Proof/Laws/KeepsPort.lean ====
section
/-! SUPPORT. What the operations of Machine/Port.lean keep. -/

namespace Sys2Proof.Machine

theorem State.hostWrite_keeps {s0 : State} (s : State) (n : Nat) (t : HostTxn) (hk : Keeps s0 s) : Keeps s0 (State.hostWrite s n t) := by
  unfold State.hostWrite
  try dsimp only
  repeat' (first
    | with_reducible assumption
    | with_reducible apply State.flashErase_keeps
    | with_reducible apply State.flashProgram_keeps
    | with_reducible apply Keeps.ite)

theorem State.laneHSees_keeps {s0 : State} (s : State) (n : Nat) (t : HostTxn) (hk : Keeps s0 s) : Keeps s0 (State.laneHSees s n t) := by
  unfold State.laneHSees
  try dsimp only
  repeat' (first
    | with_reducible assumption
    | with_reducible apply State.showLaneH_keeps
    | with_reducible apply State.stageData_keeps
    | with_reducible apply State.stageErase_keeps
    | with_reducible apply Keeps.ite)

theorem State.stageFail_keeps {s0 : State} (s : State) (n code cause : Nat) (hk : Keeps s0 s) : Keeps s0 (State.stageFail s n code cause) := by
  unfold State.stageFail
  try dsimp only
  repeat' (first
    | with_reducible assumption
    | with_reducible apply State.disarmLaneH_keeps
    | with_reducible apply State.raise_keeps
    | with_reducible apply State.refuse_keeps
    | with_reducible apply State.wr_keeps)

theorem State.policyAbort_keeps {s0 : State} (s : State) (n : Nat) (t : HostTxn) (hk : Keeps s0 s) : Keeps s0 (State.policyAbort s n t) := by
  unfold State.policyAbort
  try dsimp only
  repeat' (first
    | with_reducible assumption
    | with_reducible apply State.dropIssuer_keeps
    | with_reducible apply State.stageFail_keeps
    | with_reducible apply Keeps.ite)

theorem State.logAbsorbed_keeps {s0 : State} (s : State) (n : Nat) (hk : Keeps s0 s) : Keeps s0 (State.logAbsorbed s n) := by
  unfold State.logAbsorbed
  try dsimp only
  repeat' (first
    | with_reducible assumption
    | with_reducible apply State.bump_keeps
    | with_reducible apply State.secLog_keeps
    | with_reducible apply State.setPort_keeps
    | with_reducible apply Keeps.ite)

theorem State.openTxn_keeps {s0 : State} (s : State) (n : Nat) (l : Live) (hk : Keeps s0 s) : Keeps s0 (State.openTxn s n l) := by
  unfold State.openTxn
  try dsimp only
  repeat' (first
    | with_reducible assumption
    | with_reducible apply State.setPort_keeps)

theorem State.absorbTxn_keeps {s0 : State} (s : State) (n : Nat) (t : HostTxn) (w : DenyWhy) (mixed : Bool) (hk : Keeps s0 s) : Keeps s0 (State.absorbTxn s n t w mixed) := by
  unfold State.absorbTxn
  try dsimp only
  repeat' (first
    | with_reducible assumption
    | with_reducible apply State.logAbsorbed_keeps
    | with_reducible apply State.openTxn_keeps
    | with_reducible apply State.policyAbort_keeps
    | with_reducible apply State.setPort_keeps
    | with_reducible apply Keeps.ite)

theorem State.denyTxn_keeps {s0 : State} (s : State) (n : Nat) (t : HostTxn) (w : DenyWhy) (mixed : Bool) (hk : Keeps s0 s) : Keeps s0 (State.denyTxn s n t w mixed) := by
  unfold State.denyTxn
  try dsimp only
  repeat' (first
    | with_reducible assumption
    | with_reducible apply State.absorbTxn_keeps
    | with_reducible apply State.openTxn_keeps
    | simp only [Keeps.mk1]
    | with_reducible rfl
    | split)

theorem State.beginTouch_keeps {s0 : State} (s : State) (n p : Nat) (t : HostTxn) (mixed : Bool) (hk : Keeps s0 s) : Keeps s0 (State.beginTouch s n p t mixed) := by
  unfold State.beginTouch
  try dsimp only
  repeat' (first
    | with_reducible assumption
    | with_reducible apply State.bump_keeps
    | with_reducible apply State.holdHost_keeps
    | with_reducible apply State.openTxn_keeps
    | with_reducible apply State.setChan_keeps
    | with_reducible apply State.takePins_keeps
    | with_reducible apply Keeps.ite)

theorem State.passRead_keeps {s0 : State} (s : State) (n : Nat) (t : HostTxn) (mixed : Bool) (hk : Keeps s0 s) : Keeps s0 (State.passRead s n t mixed) := by
  unfold State.passRead
  try dsimp only
  repeat' (first
    | with_reducible assumption
    | with_reducible apply State.beginTouch_keeps
    | with_reducible apply State.denyTxn_keeps
    | with_reducible apply State.openTxn_keeps
    | with_reducible apply Keeps.ite)

theorem State.passWrite_keeps {s0 : State} (s : State) (n : Nat) (t : HostTxn) (mixed : Bool) (hk : Keeps s0 s) : Keeps s0 (State.passWrite s n t mixed) := by
  unfold State.passWrite
  try dsimp only
  repeat' (first
    | with_reducible assumption
    | with_reducible apply State.absorbTxn_keeps
    | with_reducible apply State.bump_keeps
    | with_reducible apply State.hostWrite_keeps
    | with_reducible apply State.laneHSees_keeps
    | with_reducible apply State.openTxn_keeps
    | with_reducible apply State.raise_keeps
    | with_reducible apply State.setPort_keeps
    | with_reducible apply Keeps.ite
    | simp only [Keeps.mk1]
    | with_reducible rfl
    | split)

theorem State.emuOpcode_keeps {s0 : State} (s : State) (n : Nat) (t : HostTxn) (hk : Keeps s0 s) : Keeps s0 (State.emuOpcode s n t) := by
  unfold State.emuOpcode
  try dsimp only
  repeat' (first
    | with_reducible assumption
    | with_reducible apply State.setPort_keeps
    | with_reducible apply Keeps.ite
    | simp only [Keeps.mk1]
    | with_reducible rfl
    | split)

theorem State.registerIntegrity_keeps {s0 : State} (s : State) (n : Nat) (hk : Keeps s0 s) : Keeps s0 (State.registerIntegrity s n) := by
  unfold State.registerIntegrity
  try dsimp only
  repeat' (first
    | with_reducible assumption
    | with_reducible apply State.raise_keeps
    | with_reducible apply State.wr_keeps
    | with_reducible apply Keeps.ite)

theorem State.markBroken_keeps {s0 : State} (s : State) (n : Nat) (broke : Bool) (hk : Keeps s0 s) : Keeps s0 (State.markBroken s n broke) := by
  unfold State.markBroken
  try dsimp only
  repeat' (first
    | with_reducible assumption
    | with_reducible apply State.openTxn_keeps
    | simp only [Keeps.mk1]
    | with_reducible rfl
    | split)

theorem State.beginTxn_keeps {s0 : State} (s : State) (n : Nat) (t : HostTxn) (hk : Keeps s0 s) : Keeps s0 (State.beginTxn s n t) := by
  unfold State.beginTxn
  try dsimp only
  repeat' (first
    | with_reducible assumption
    | with_reducible apply State.absorbTxn_keeps
    | with_reducible apply State.denyTxn_keeps
    | with_reducible apply State.emuOpcode_keeps
    | with_reducible apply State.markBroken_keeps
    | with_reducible apply State.passRead_keeps
    | with_reducible apply State.passWrite_keeps
    | with_reducible apply State.registerIntegrity_keeps
    | with_reducible apply Keeps.ite
    | split)

theorem State.hostTxn_keeps {s0 : State} (s : State) (n : Nat) (t : HostTxn) (hk : Keeps s0 s) : Keeps s0 (State.hostTxn s n t) := by
  unfold State.hostTxn
  try dsimp only
  repeat' (first
    | with_reducible assumption
    | with_reducible apply State.beginTxn_keeps
    | with_reducible apply Keeps.ite)

theorem State.countRefused_keeps {s0 : State} (s : State) (n : Nat) (l : Live) (hk : Keeps s0 s) : Keeps s0 (State.countRefused s n l) := by
  unfold State.countRefused
  try dsimp only
  repeat' (first
    | with_reducible assumption
    | with_reducible apply State.bump_keeps
    | with_reducible apply State.raise_keeps
    | with_reducible apply State.wr_keeps
    | with_reducible apply State.wrb_keeps)

theorem State.countTxn_keeps {s0 : State} (s : State) (n : Nat) (l : Live) (hk : Keeps s0 s) : Keeps s0 (State.countTxn s n l) := by
  unfold State.countTxn
  try dsimp only
  repeat' (first
    | with_reducible assumption
    | with_reducible apply State.bump_keeps
    | with_reducible apply State.countRefused_keeps
    | with_reducible apply State.peak_keeps
    | with_reducible apply State.raise_keeps
    | with_reducible apply Keeps.ite)

theorem State.portEnd_keeps {s0 : State} (s : State) (n : Nat) (hk : Keeps s0 s) : Keeps s0 (State.portEnd s n) := by
  unfold State.portEnd
  try dsimp only
  repeat' (first
    | with_reducible assumption
    | with_reducible apply State.countTxn_keeps
    | with_reducible apply State.givePins_keeps
    | with_reducible apply State.pumpCh_keeps
    | with_reducible apply State.setChan_keeps
    | with_reducible apply State.setPort_keeps
    | with_reducible apply State.swapPort_keeps
    | with_reducible apply Keeps.ite
    | simp only [Keeps.mk1]
    | with_reducible rfl
    | split)

theorem State.holdExpired_keeps {s0 : State} (s : State) (n : Nat) (hk : Keeps s0 s) : Keeps s0 (State.holdExpired s n) := by
  unfold State.holdExpired
  try dsimp only
  repeat' (first
    | with_reducible assumption
    | with_reducible apply State.bump_keeps
    | with_reducible apply State.openTxn_keeps
    | with_reducible apply State.raise_keeps
    | with_reducible apply Keeps.ite
    | simp only [Keeps.mk1]
    | with_reducible rfl
    | split)

theorem State.pinGrant_keeps {s0 : State} (s : State) (n cycles : Nat) (hk : Keeps s0 s) : Keeps s0 (State.pinGrant s n cycles) := by
  unfold State.pinGrant
  try dsimp only
  repeat' (first
    | with_reducible assumption
    | with_reducible apply State.givePins_keeps
    | with_reducible apply State.holdExpired_keeps
    | with_reducible apply State.openTxn_keeps
    | with_reducible apply Keeps.ite
    | simp only [Keeps.mk1]
    | with_reducible rfl
    | split)

theorem State.wbufReplay_keeps {s0 : State} (s : State) (n : Nat) (hk : Keeps s0 s) : Keeps s0 (State.wbufReplay s n) := by
  unfold State.wbufReplay
  try dsimp only
  repeat' (first
    | with_reducible assumption
    | with_reducible apply State.givePins_keeps
    | with_reducible apply State.hostWrite_keeps
    | with_reducible apply State.pumpCh_keeps
    | with_reducible apply State.setPort_keeps
    | with_reducible apply Keeps.ite
    | simp only [Keeps.mk1]
    | with_reducible rfl
    | split)

end Sys2Proof.Machine
end

