-- ==== Sys2Proof/Laws/KeepsStaging.lean ====
section
/-! SUPPORT. What the operations of Machine/Staging.lean keep. -/

namespace Sys2Proof.Machine

theorem State.setStage_keeps {s0 : State} (s : State) (n : Nat) (g : Stage) (hk : Keeps s0 s) : Keeps s0 (State.setStage s n g) := by
  unfold State.setStage
  try dsimp only
  repeat' (first
    | with_reducible assumption
    | simp only [Keeps.mk1])

theorem State.setStageSt_keeps {s0 : State} (s : State) (n v : Nat) (hk : Keeps s0 s) : Keeps s0 (State.setStageSt s n v) := by
  unfold State.setStageSt
  try dsimp only
  repeat' (first
    | with_reducible assumption
    | with_reducible apply State.wr_keeps)

theorem State.stageRefuse_keeps {s0 : State} (s : State) (n code : Nat) (hk : Keeps s0 s) : Keeps s0 (State.stageRefuse s n code) := by
  unfold State.stageRefuse
  try dsimp only
  repeat' (first
    | with_reducible assumption
    | with_reducible apply State.cmdEnd_keeps
    | with_reducible apply State.refuse_keeps)

theorem State.stageOpenNow_keeps {s0 : State} (s : State) (n : Nat) (hk : Keeps s0 s) : Keeps s0 (State.stageOpenNow s n) := by
  unfold State.stageOpenNow
  try dsimp only
  repeat' (first
    | with_reducible assumption
    | with_reducible apply State.cmdEnd_keeps
    | with_reducible apply State.setStage_keeps
    | with_reducible apply State.setStageSt_keeps
    | with_reducible apply State.voidNow_keeps
    | with_reducible apply State.wr_keeps)

theorem State.startStageOpen_keeps {s0 : State} (n : Fin 6) (s : State) (hk : Keeps s0 s) : Keeps s0 (State.startStageOpen n s) := by
  unfold State.startStageOpen
  try dsimp only
  repeat' (first
    | with_reducible assumption
    | with_reducible apply State.cmdStart_keeps
    | with_reducible apply State.disarmLaneH_keeps
    | with_reducible apply State.stageOpenNow_keeps
    | with_reducible apply State.stageRefuse_keeps
    | with_reducible apply Keeps.ite
    | simp only [Keeps.mk1])

theorem State.stageArmNow_keeps {s0 : State} (s : State) (n addr : Nat) (hk : Keeps s0 s) : Keeps s0 (State.stageArmNow s n addr) := by
  unfold State.stageArmNow
  try dsimp only
  repeat' (first
    | with_reducible assumption
    | with_reducible apply State.armLaneH_keeps
    | with_reducible apply State.cmdEnd_keeps
    | with_reducible apply State.hashOn_keeps
    | with_reducible apply State.setStage_keeps
    | with_reducible apply State.setStageSt_keeps
    | with_reducible apply State.stageRefuse_keeps
    | with_reducible apply State.wr_keeps
    | with_reducible apply Keeps.ite
    | simp only [Keeps.mk1]
    | with_reducible rfl
    | split)

theorem State.startStageArm_keeps {s0 : State} (n : Fin 6) (addr : Nat) (s : State) (hk : Keeps s0 s) : Keeps s0 (State.startStageArm n addr s) := by
  unfold State.startStageArm
  try dsimp only
  repeat' (first
    | with_reducible assumption
    | with_reducible apply State.cmdStart_keeps
    | with_reducible apply State.stageArmNow_keeps)

theorem State.startSweep_keeps {s0 : State} (n : Fin 6) (s : State) (hk : Keeps s0 s) : Keeps s0 (State.startSweep n s) := by
  unfold State.startSweep
  try dsimp only
  repeat' (first
    | with_reducible assumption
    | with_reducible apply State.enqueue_keeps
    | with_reducible apply State.setStage_keeps
    | with_reducible apply State.setStageSt_keeps
    | with_reducible apply State.stageRefuse_keeps
    | with_reducible apply State.wr_keeps
    | with_reducible apply Keeps.ite)

theorem State.sweepFail_keeps {s0 : State} (s : State) (n code : Nat) (hk : Keeps s0 s) : Keeps s0 (State.sweepFail s n code) := by
  unfold State.sweepFail
  try dsimp only
  repeat' (first
    | with_reducible assumption
    | with_reducible apply State.raise_keeps
    | with_reducible apply State.setStageSt_keeps
    | with_reducible apply State.wr_keeps)

theorem State.sweepServed_keeps {s0 : State} (s : State) (n : Nat) (r : Req) (corrupt : Bool) (hk : Keeps s0 s) : Keeps s0 (State.sweepServed s n r corrupt) := by
  unfold State.sweepServed
  try dsimp only
  repeat' (first
    | with_reducible assumption
    | with_reducible apply State.bump_keeps
    | with_reducible apply State.delivered_keeps
    | with_reducible apply State.readFailed_keeps
    | with_reducible apply State.requeue_keeps
    | with_reducible apply State.setStage_keeps
    | with_reducible apply Keeps.ite)

theorem State.sweepEnd_keeps {s0 : State} (s : State) (n : Nat) (hk : Keeps s0 s) : Keeps s0 (State.sweepEnd s n) := by
  unfold State.sweepEnd
  try dsimp only
  repeat' (first
    | with_reducible assumption
    | with_reducible apply State.raise_keeps
    | with_reducible apply State.setStage_keeps
    | with_reducible apply State.setStageSt_keeps
    | with_reducible apply State.sweepFail_keeps
    | with_reducible apply State.wr_keeps
    | with_reducible apply Keeps.ite
    | simp only [Keeps.mk1]
    | with_reducible rfl
    | split)

theorem State.startCommit_keeps {s0 : State} (n : Fin 6) (addr : Nat) (s : State) (hk : Keeps s0 s) : Keeps s0 (State.startCommit n addr s) := by
  unfold State.startCommit
  try dsimp only
  repeat' (first
    | with_reducible assumption
    | with_reducible apply State.cmdStart_keeps
    | with_reducible apply State.enqueue_keeps
    | with_reducible apply State.judgePair_keeps
    | with_reducible apply State.setStage_keeps
    | with_reducible apply State.stageRefuse_keeps
    | with_reducible apply Keeps.ite)

theorem State.commitNow_keeps {s0 : State} (s : State) (n addr : Nat) (hk : Keeps s0 s) : Keeps s0 (State.commitNow s n addr) := by
  unfold State.commitNow
  try dsimp only
  repeat' (first
    | with_reducible assumption
    | with_reducible apply State.appendNow_keeps
    | with_reducible apply State.cmdEnd_keeps
    | with_reducible apply State.disarmLaneH_keeps
    | with_reducible apply State.raise_keeps
    | with_reducible apply State.setStageSt_keeps)

theorem State.commitCheck_keeps {s0 : State} (s : State) (n addr : Nat) (hk : Keeps s0 s) : Keeps s0 (State.commitCheck s n addr) := by
  unfold State.commitCheck
  try dsimp only
  repeat' (first
    | with_reducible assumption
    | with_reducible apply State.commitNow_keeps
    | with_reducible apply State.hashOn_keeps
    | with_reducible apply State.stageRefuse_keeps
    | with_reducible apply Keeps.ite
    | simp only [Keeps.mk1])

theorem State.commitFinish_keeps {s0 : State} (s : State) (n addr : Nat) (m : List Byte) (hk : Keeps s0 s) : Keeps s0 (State.commitFinish s n addr m) := by
  unfold State.commitFinish
  try dsimp only
  repeat' (first
    | with_reducible assumption
    | with_reducible apply State.commitCheck_keeps
    | with_reducible apply State.stageRefuse_keeps
    | with_reducible apply Keeps.ite)

theorem State.commitServed_keeps {s0 : State} (s : State) (n : Nat) (r : Req) (corrupt : Bool) (hk : Keeps s0 s) : Keeps s0 (State.commitServed s n r corrupt) := by
  unfold State.commitServed
  try dsimp only
  repeat' (first
    | with_reducible assumption
    | with_reducible apply State.commitFinish_keeps
    | with_reducible apply State.delivered_keeps
    | with_reducible apply State.requeue_keeps
    | with_reducible apply State.setStage_keeps
    | with_reducible apply Keeps.ite)

theorem State.stageReadFail_keeps {s0 : State} (s : State) (n : Nat) (r : Req) (hk : Keeps s0 s) : Keeps s0 (State.stageReadFail s n r) := by
  unfold State.stageReadFail
  try dsimp only
  repeat' (first
    | with_reducible assumption
    | with_reducible apply State.cmdEnd_keeps
    | with_reducible apply State.sweepFail_keeps
    | with_reducible apply State.wr_keeps
    | with_reducible apply Keeps.ite)

theorem State.stageStop_keeps {s0 : State} (s : State) (n cause : Nat) (hk : Keeps s0 s) : Keeps s0 (State.stageStop s n cause) := by
  unfold State.stageStop
  try dsimp only
  repeat' (first
    | with_reducible assumption
    | intro _
    | with_reducible apply State.cmdDrop_keeps
    | with_reducible apply State.disarmLaneH_keeps
    | with_reducible apply State.dropIssuer_keeps
    | with_reducible apply State.setStage_keeps
    | with_reducible apply State.setStageSt_keeps
    | with_reducible apply State.wr_keeps
    | simp only [Keeps.mk1])

end Sys2Proof.Machine
end

