-- ==== Sys2Proof/Laws/KeepsRelease.lean ====
section
/-! SUPPORT. What the operations of Machine/Release.lean keep. -/

namespace Sys2Proof.Machine

theorem State.hostRefuse_keeps {s0 : State} (s : State) (code : Nat) (hk : Keeps s0 s) : Keeps s0 (State.hostRefuse s code) := by
  unfold State.hostRefuse
  try dsimp only
  repeat' (first
    | with_reducible assumption
    | with_reducible apply State.refuse_keeps)

theorem State.startVerify_keeps {s0 : State} (n : Fin 6) (s : State) (hk : Keeps s0 s) : Keeps s0 (State.startVerify n s) := by
  unfold State.startVerify
  try dsimp only
  repeat' (first
    | with_reducible assumption
    | with_reducible apply State.gateStart_keeps
    | with_reducible apply State.hostRefuse_keeps
    | with_reducible apply State.setHost_keeps
    | with_reducible apply State.setHostSt_keeps
    | with_reducible apply State.wr_keeps
    | with_reducible apply Keeps.ite)

theorem State.startQuarantine_keeps {s0 : State} (n : Fin 6) (s : State) (hk : Keeps s0 s) : Keeps s0 (State.startQuarantine n s) := by
  unfold State.startQuarantine
  try dsimp only
  repeat' (first
    | with_reducible assumption
    | with_reducible apply State.hostRefuse_keeps
    | with_reducible apply State.quarantineHost_keeps
    | with_reducible apply Keeps.ite)

theorem State.startHold_keeps {s0 : State} (n : Fin 6) (s : State) (hk : Keeps s0 s) : Keeps s0 (State.startHold n s) := by
  unfold State.startHold
  try dsimp only
  repeat' (first
    | with_reducible assumption
    | with_reducible apply State.hostRefuse_keeps
    | with_reducible apply State.setHost_keeps
    | with_reducible apply State.setHostSt_keeps
    | with_reducible apply State.wr_keeps
    | with_reducible apply Keeps.ite)

theorem State.startMend_keeps {s0 : State} (n : Fin 6) (s : State) (hk : Keeps s0 s) : Keeps s0 (State.startMend n s) := by
  unfold State.startMend
  try dsimp only
  repeat' (first
    | with_reducible assumption
    | with_reducible apply State.hostRefuse_keeps
    | with_reducible apply State.ladder_keeps
    | with_reducible apply State.raise_keeps
    | with_reducible apply State.setHost_keeps
    | with_reducible apply State.setHostSt_keeps
    | with_reducible apply State.wr_keeps
    | with_reducible apply Keeps.ite)

theorem State.setRead_keeps {s0 : State} (s : State) (n : Nat) (r : HostRead) (hk : Keeps s0 s) : Keeps s0 (State.setRead s n r) := by
  unfold State.setRead
  try dsimp only
  repeat' (first
    | with_reducible assumption
    | with_reducible apply State.setHost_keeps)

theorem State.readAsk_keeps {s0 : State} (s : State) (n : Nat) (hk : Keeps s0 s) : Keeps s0 (State.readAsk s n) := by
  unfold State.readAsk
  try dsimp only
  repeat' (first
    | with_reducible assumption
    | with_reducible apply State.enqueue_keeps)

theorem State.startEnroll_keeps {s0 : State} (n : Nat) (sl : Nat) (i : Instr) (s : State) (hk : Keeps s0 s) : Keeps s0 (State.startEnroll n sl i s) := by
  unfold State.startEnroll
  try dsimp only
  repeat' (first
    | with_reducible assumption
    | with_reducible apply State.cmdStart_keeps
    | with_reducible apply State.hostRefuse_keeps
    | with_reducible apply State.readAsk_keeps
    | with_reducible apply State.setRead_keeps
    | with_reducible apply Keeps.ite)

theorem State.setGate_keeps {s0 : State} (s : State) (n : Nat) (g : Gate) (hk : Keeps s0 s) : Keeps s0 (State.setGate s n g) := by
  unfold State.setGate
  try dsimp only
  repeat' (first
    | with_reducible assumption
    | with_reducible apply State.setHost_keeps)

theorem State.gateAsk_keeps {s0 : State} (s : State) (n : Nat) (hk : Keeps s0 s) : Keeps s0 (State.gateAsk s n) := by
  unfold State.gateAsk
  try dsimp only
  repeat' (first
    | with_reducible assumption
    | with_reducible apply State.enqueue_keeps
    | with_reducible apply Keeps.ite)

theorem State.streamStart_keeps {s0 : State} (s : State) (n : Nat) (g : Gate) (hk : Keeps s0 s) : Keeps s0 (State.streamStart s n g) := by
  unfold State.streamStart
  try dsimp only
  repeat' (first
    | with_reducible assumption
    | intro _
    | with_reducible apply State.claimDge_keeps
    | with_reducible apply State.gateAsk_keeps
    | with_reducible apply State.seqBegin_keeps
    | with_reducible apply State.setGate_keeps
    | with_reducible apply State.setLaneI_keeps
    | with_reducible apply Keeps.ite)

theorem State.gateReady_keeps {s0 : State} (s : State) (n : Nat) (g : Gate) (hk : Keeps s0 s) : Keeps s0 (State.gateReady s n g) := by
  unfold State.gateReady
  try dsimp only
  repeat' (first
    | with_reducible assumption
    | intro _
    | with_reducible apply State.releaseDge_keeps
    | with_reducible apply State.setGate_keeps
    | with_reducible apply Keeps.foldl)

theorem State.escortNext_keeps {s0 : State} (s : State) (n : Nat) (g : Gate) (k : Nat) (hk : Keeps s0 s) : Keeps s0 (State.escortNext s n g k) := by
  unfold State.escortNext
  try dsimp only
  repeat' (first
    | with_reducible assumption
    | with_reducible apply State.seqBegin_keeps
    | with_reducible apply State.gateAsk_keeps
    | with_reducible apply State.gateReady_keeps
    | with_reducible apply State.setGate_keeps
    | simp only [Keeps.mk1]
    | with_reducible rfl
    | split)

theorem State.gateAdvance_keeps {s0 : State} (s : State) (n : Nat) (hk : Keeps s0 s) : Keeps s0 (State.gateAdvance s n) := by
  unfold State.gateAdvance
  try dsimp only
  repeat' (first
    | with_reducible assumption
    | with_reducible apply State.escortNext_keeps
    | with_reducible apply State.gateReady_keeps
    | with_reducible apply State.hostFailed_keeps
    | with_reducible apply Keeps.ite
    | split)

theorem State.manifestRead_keeps {s0 : State} (s : State) (n : Nat) (g : Gate) (hk : Keeps s0 s) : Keeps s0 (State.manifestRead s n g) := by
  unfold State.manifestRead
  try dsimp only
  repeat' (first
    | with_reducible assumption
    | intro _
    | with_reducible apply State.enqueuePke_keeps
    | with_reducible apply State.hostFailed_keeps
    | with_reducible apply State.setGate_keeps
    | with_reducible apply Keeps.ite)

theorem State.laneBlock_keeps {s0 : State} (s : State) (n i : Nat) (g : Gate) (d : List Byte) (hk : Keeps s0 s) : Keeps s0 (State.laneBlock s n i g d).1 := by
  unfold State.laneBlock
  try dsimp only
  repeat' (first
    | with_reducible assumption
    | with_reducible apply State.setSnp_keeps
    | with_reducible apply State.wr_keeps)

theorem State.streamServed_keeps {s0 : State} (s : State) (n : Nat) (g : Gate) (again corrupt : Bool) (hk : Keeps s0 s) : Keeps s0 (State.streamServed s n g again corrupt) := by
  unfold State.streamServed
  try dsimp only
  repeat' (first
    | with_reducible assumption
    | intro _
    | with_reducible apply State.delivered_keeps
    | with_reducible apply State.laneBlock_keeps
    | with_reducible apply State.setGate_keeps
    | with_reducible apply State.sramStore_keeps
    | with_reducible apply Keeps.ite
    | with_reducible apply Keeps.iteFst
    | simp only [Keeps.mk1]
    | with_reducible rfl
    | split)

theorem State.loadLeaves_keeps {s0 : State} (s : State) (first : Nat) (bs : List Byte) (hk : Keeps s0 s) : Keeps s0 (State.loadLeaves s first bs) := by
  unfold State.loadLeaves
  try dsimp only
  repeat' (first
    | with_reducible assumption
    | intro _
    | with_reducible apply Keeps.foldl
    | with_reducible apply Keeps.foldlFst
    | simp only [Keeps.mk1])

theorem State.escortServed_keeps {s0 : State} (s : State) (n : Nat) (g : Gate) (corrupt : Bool) (hk : Keeps s0 s) : Keeps s0 (State.escortServed s n g corrupt) := by
  unfold State.escortServed
  try dsimp only
  repeat' (first
    | with_reducible assumption
    | with_reducible apply State.delivered_keeps
    | with_reducible apply State.loadLeaves_keeps
    | with_reducible apply State.setGate_keeps
    | simp only [Keeps.mk1]
    | with_reducible rfl
    | split)

theorem State.gateServed_keeps {s0 : State} (s : State) (n : Nat) (r : Req) (corrupt : Bool) (hk : Keeps s0 s) : Keeps s0 (State.gateServed s n r corrupt) := by
  unfold State.gateServed
  try dsimp only
  repeat' (first
    | with_reducible assumption
    | with_reducible apply State.delivered_keeps
    | with_reducible apply State.escortServed_keeps
    | with_reducible apply State.manifestRead_keeps
    | with_reducible apply State.requeue_keeps
    | with_reducible apply State.setGate_keeps
    | with_reducible apply State.streamServed_keeps
    | with_reducible apply Keeps.ite
    | with_reducible apply Keeps.iteFst
    | simp only [Keeps.mk1]
    | with_reducible rfl
    | split)

theorem State.gateSigned_keeps {s0 : State} (s : State) (n : Nat) (hk : Keeps s0 s) : Keeps s0 (State.gateSigned s n) := by
  unfold State.gateSigned
  try dsimp only
  repeat' (first
    | with_reducible assumption
    | with_reducible apply State.enqueuePke_keeps
    | with_reducible apply State.hostFailed_keeps
    | with_reducible apply State.setGate_keeps
    | with_reducible apply State.streamStart_keeps
    | with_reducible apply Keeps.ite
    | with_reducible apply Keeps.iteFst
    | simp only [Keeps.mk1]
    | with_reducible rfl
    | split)

theorem State.tableVerdict_keeps {s0 : State} (s : State) (n : Nat) (hk : Keeps s0 s) : Keeps s0 (State.tableVerdict s n) := by
  unfold State.tableVerdict
  try dsimp only
  repeat' (first
    | with_reducible assumption
    | with_reducible apply State.seqVerdict_keeps
    | with_reducible apply State.seqLeaf_keeps
    | with_reducible apply State.seqBegin_keeps
    | with_reducible apply State.escortNext_keeps
    | with_reducible apply State.gateAdvance_keeps
    | with_reducible apply State.hostFailed_keeps
    | with_reducible apply State.setGate_keeps
    | with_reducible apply State.setHost_keeps
    | with_reducible apply State.wr_keeps
    | with_reducible apply Keeps.ite
    | simp only [Keeps.mk1]
    | with_reducible rfl
    | split)

theorem State.gateMore_keeps {s0 : State} (s : State) (n : Nat) (hk : Keeps s0 s) : Keeps s0 (State.gateMore s n) := by
  unfold State.gateMore
  try dsimp only
  repeat' (first
    | with_reducible assumption
    | with_reducible apply State.gateAsk_keeps
    | with_reducible apply Keeps.ite
    | split)

theorem State.preVerdict_keeps {s0 : State} (s : State) (n : Nat) (hk : Keeps s0 s) : Keeps s0 (State.preVerdict s n) := by
  unfold State.preVerdict
  try dsimp only
  repeat' (first
    | with_reducible assumption
    | intro _
    | with_reducible apply State.bump_keeps
    | with_reducible apply State.gateAdvance_keeps
    | with_reducible apply State.gateMore_keeps
    | with_reducible apply State.hostFailed_keeps
    | with_reducible apply State.readFailed_keeps
    | with_reducible apply State.retag_keeps
    | with_reducible apply State.seqLeaf_keeps
    | with_reducible apply State.seqVerdict_keeps
    | with_reducible apply State.setGate_keeps
    | with_reducible apply State.setSnp_keeps
    | with_reducible apply State.wr_keeps
    | with_reducible apply Keeps.ite
    | simp only [Keeps.mk1]
    | with_reducible rfl
    | split)

theorem State.hostRuns_keeps {s0 : State} (s : State) (n : Nat) (hk : Keeps s0 s) : Keeps s0 (State.hostRuns s n) := by
  unfold State.hostRuns
  try dsimp only
  repeat' (first
    | with_reducible assumption
    | with_reducible apply State.raise_keeps
    | with_reducible apply State.setHost_keeps
    | with_reducible apply State.setHostSt_keeps
    | with_reducible apply State.setLaneI_keeps)

theorem State.hostRelease_keeps {s0 : State} (s : State) (n : Nat) (hk : Keeps s0 s) : Keeps s0 (State.hostRelease s n) := by
  unfold State.hostRelease
  try dsimp only
  repeat' (first
    | with_reducible assumption
    | with_reducible apply State.enqueue_keeps
    | with_reducible apply State.gateStart_keeps
    | with_reducible apply State.hostRuns_keeps
    | with_reducible apply State.okHost_keeps
    | with_reducible apply State.raise_keeps
    | with_reducible apply State.setHost_keeps
    | with_reducible apply State.setHostSt_keeps
    | with_reducible apply State.setLaneI_keeps
    | with_reducible apply State.setPort_keeps
    | with_reducible apply State.wr_keeps
    | with_reducible apply Keeps.ite
    | simp only [Keeps.mk1]
    | with_reducible rfl
    | split)

theorem State.sweepOn_keeps {s0 : State} (s : State) (n : Nat) (r : Req) (hk : Keeps s0 s) : Keeps s0 (State.sweepOn s n r) := by
  unfold State.sweepOn
  try dsimp only
  repeat' (first
    | with_reducible assumption
    | with_reducible apply State.requeue_keeps
    | with_reducible apply Keeps.ite)

theorem State.sweepBurst_keeps {s0 : State} (s : State) (n : Nat) (r : Req) (corrupt : Bool) (hk : Keeps s0 s) : Keeps s0 (State.sweepBurst s n r corrupt) := by
  unfold State.sweepBurst
  try dsimp only
  repeat' (first
    | with_reducible assumption
    | with_reducible apply State.bump_keeps
    | with_reducible apply State.delivered_keeps
    | with_reducible apply State.hostFailed_keeps
    | with_reducible apply State.markVerified_keeps
    | with_reducible apply State.readFailed_keeps
    | with_reducible apply State.requeue_keeps
    | with_reducible apply State.setHost_keeps
    | with_reducible apply State.sweepOn_keeps
    | with_reducible apply Keeps.ite
    | with_reducible apply Keeps.iteFst
    | simp only [Keeps.mk1]
    | with_reducible rfl
    | split)

theorem State.sweepFinish_keeps {s0 : State} (s : State) (n : Nat) (hk : Keeps s0 s) : Keeps s0 (State.sweepFinish s n) := by
  unfold State.sweepFinish
  try dsimp only
  repeat' (first
    | with_reducible assumption
    | with_reducible apply State.dropIssuer_keeps
    | with_reducible apply State.hostRuns_keeps
    | with_reducible apply State.raise_keeps
    | with_reducible apply Keeps.ite)

theorem State.fetchEnds_keeps {s0 : State} (s : State) (n : Nat) (hk : Keeps s0 s) : Keeps s0 (State.fetchEnds s n) := by
  unfold State.fetchEnds
  try dsimp only
  repeat' (first
    | with_reducible assumption
    | with_reducible apply State.pumpCh_keeps
    | with_reducible apply State.setChan_keeps)

theorem State.touchFail_keeps {s0 : State} (s : State) (n reason : Nat) (hk : Keeps s0 s) : Keeps s0 (State.touchFail s n reason) := by
  unfold State.touchFail
  try dsimp only
  repeat' (first
    | with_reducible assumption
    | with_reducible apply State.hostFailed_keeps
    | with_reducible apply State.raise_keeps
    | with_reducible apply State.readFailed_keeps)

theorem State.fetchDone_keeps {s0 : State} (s : State) (n : Nat) (corrupt : Bool) (cycles ns : Nat) (hk : Keeps s0 s) : Keeps s0 (State.fetchDone s n corrupt cycles ns) := by
  unfold State.fetchDone
  try dsimp only
  repeat' (first
    | with_reducible assumption
    | with_reducible apply State.bump_keeps
    | with_reducible apply State.delivered_keeps
    | with_reducible apply State.fetchEnds_keeps
    | with_reducible apply State.markVerified_keeps
    | with_reducible apply State.openTxn_keeps
    | with_reducible apply State.peak_keeps
    | with_reducible apply State.touchFail_keeps
    | with_reducible apply Keeps.ite
    | with_reducible apply Keeps.iteFst
    | simp only [Keeps.mk1]
    | with_reducible rfl
    | split)

theorem State.missedOk_keeps {s0 : State} (s : State) (n reason : Nat) (hk : Keeps s0 s) : Keeps s0 (State.missedOk s n reason) := by
  unfold State.missedOk
  try dsimp only
  repeat' (first
    | with_reducible assumption
    | with_reducible apply State.hostFailed_keeps
    | with_reducible apply State.setHost_keeps
    | with_reducible apply State.wr_keeps
    | with_reducible apply Keeps.ite)

theorem State.okPin_keeps {s0 : State} (s : State) (n : Nat) (level : Bool) (hk : Keeps s0 s) : Keeps s0 (State.okPin s n level) := by
  unfold State.okPin
  try dsimp only
  repeat' (first
    | with_reducible assumption
    | with_reducible apply State.okHost_keeps
    | with_reducible apply State.setHost_keeps
    | with_reducible apply Keeps.ite)

theorem State.pulseEnd_keeps {s0 : State} (s : State) (n : Nat) (hk : Keeps s0 s) : Keeps s0 (State.pulseEnd s n) := by
  unfold State.pulseEnd
  try dsimp only
  repeat' (first
    | with_reducible assumption
    | with_reducible apply State.okHost_keeps
    | with_reducible apply State.okPin_keeps
    | with_reducible apply State.setHost_keeps
    | with_reducible apply Keeps.ite)

theorem State.bootTimeout_keeps {s0 : State} (s : State) (n : Nat) (hk : Keeps s0 s) : Keeps s0 (State.bootTimeout s n) := by
  unfold State.bootTimeout
  try dsimp only
  repeat' (first
    | with_reducible assumption
    | with_reducible apply State.missedOk_keeps
    | with_reducible apply Keeps.ite)

theorem State.okLost_keeps {s0 : State} (s : State) (n : Nat) (hk : Keeps s0 s) : Keeps s0 (State.okLost s n) := by
  unfold State.okLost
  try dsimp only
  repeat' (first
    | with_reducible assumption
    | with_reducible apply State.missedOk_keeps
    | with_reducible apply Keeps.ite)

theorem State.gateLimit_keeps {s0 : State} (s : State) (n : Nat) (hk : Keeps s0 s) : Keeps s0 (State.gateLimit s n) := by
  unfold State.gateLimit
  try dsimp only
  repeat' (first
    | with_reducible assumption
    | with_reducible apply State.hostFailed_keeps
    | with_reducible apply Keeps.ite
    | split)

theorem State.mendDeadline_keeps {s0 : State} (s : State) (n : Nat) (hk : Keeps s0 s) : Keeps s0 (State.mendDeadline s n) := by
  unfold State.mendDeadline
  try dsimp only
  repeat' (first
    | with_reducible assumption
    | with_reducible apply State.gateStart_keeps
    | with_reducible apply State.quarantineHost_keeps
    | with_reducible apply Keeps.ite)

theorem State.setRestore_keeps {s0 : State} (s : State) (n : Nat) (t : Restore) (hk : Keeps s0 s) : Keeps s0 (State.setRestore s n t) := by
  unfold State.setRestore
  try dsimp only
  repeat' (first
    | with_reducible assumption
    | with_reducible apply State.setHost_keeps)

theorem State.pumpCmp_keeps {s0 : State} (s : State) (hk : Keeps s0 s) : Keeps s0 (State.pumpCmp s) := by
  unfold State.pumpCmp
  try dsimp only
  repeat' (first
    | with_reducible assumption
    | with_reducible apply State.wr_keeps
    | intro _
    | with_reducible apply Keeps.ite
    | simp only [Keeps.mk1]
    | with_reducible rfl
    | split)

theorem State.restoreGo_keeps {s0 : State} (s : State) (n : Nat) (hk : Keeps s0 s) : Keeps s0 (State.restoreGo s n) := by
  unfold State.restoreGo
  try dsimp only
  repeat' (first
    | with_reducible assumption
    | with_reducible apply State.awaitPke_keeps
    | with_reducible apply State.claimDge_keeps
    | with_reducible apply State.enqueue_keeps
    | with_reducible apply State.hashOn_keeps
    | with_reducible apply State.restoreFail_keeps
    | with_reducible apply State.seqBegin_keeps
    | with_reducible apply State.setRestore_keeps
    | with_reducible apply State.voidRec_keeps
    | with_reducible apply Keeps.ite
    | with_reducible apply Keeps.iteFst
    | simp only [Keeps.mk1]
    | with_reducible rfl
    | split)

theorem State.goldenBlock_keeps {s0 : State} (s : State) (c n : Nat) (t : Restore) (r : Req) (hk : Keeps s0 s) : Keeps s0 (State.goldenBlock s c n t r) := by
  unfold State.goldenBlock
  try dsimp only
  repeat' (first
    | with_reducible assumption
    | with_reducible apply State.bump_keeps
    | with_reducible apply State.pumpCmp_keeps
    | with_reducible apply State.readFailed_keeps
    | with_reducible apply State.releaseDge_keeps
    | with_reducible apply State.requeue_keeps
    | with_reducible apply State.restoreFail_keeps
    | with_reducible apply State.seqBegin_keeps
    | with_reducible apply State.seqVerdict_keeps
    | with_reducible apply State.setRestore_keeps
    | with_reducible apply Keeps.ite
    | simp only [Keeps.mk1]
    | with_reducible rfl
    | split)

theorem State.restoreServed_keeps {s0 : State} (s : State) (c n : Nat) (r : Req) (corrupt : Bool) (hk : Keeps s0 s) : Keeps s0 (State.restoreServed s c n r corrupt) := by
  unfold State.restoreServed
  try dsimp only
  repeat' (first
    | with_reducible assumption
    | with_reducible apply State.delivered_keeps
    | with_reducible apply State.flashErase_keeps
    | with_reducible apply State.flashProgram_keeps
    | with_reducible apply State.goldenBlock_keeps
    | with_reducible apply State.readAsk_keeps
    | with_reducible apply State.requeue_keeps
    | with_reducible apply State.restoreGo_keeps
    | with_reducible apply State.setRead_keeps
    | with_reducible apply State.setRestore_keeps
    | with_reducible apply Keeps.ite
    | with_reducible apply Keeps.iteFst
    | simp only [Keeps.mk1]
    | with_reducible rfl
    | split)

theorem State.readFail_keeps {s0 : State} (s : State) (n reason : Nat) (hk : Keeps s0 s) : Keeps s0 (State.readFail s n reason) := by
  unfold State.readFail
  try dsimp only
  repeat' (first
    | with_reducible assumption
    | with_reducible apply State.cmdEnd_keeps
    | with_reducible apply State.hostFailed_keeps
    | with_reducible apply State.hostRefuse_keeps
    | with_reducible apply State.restoreFail_keeps
    | with_reducible apply State.setHost_keeps
    | with_reducible apply Keeps.ite
    | simp only [Keeps.mk1]
    | with_reducible rfl
    | split)

theorem State.enrollDone_keeps {s0 : State} (s : State) (n : Nat) (h : HostRead) (hk : Keeps s0 s) : Keeps s0 (State.enrollDone s n h) := by
  unfold State.enrollDone
  try dsimp only
  repeat' (first
    | with_reducible assumption
    | with_reducible apply State.appendNow_keeps
    | with_reducible apply State.cmdEnd_keeps
    | with_reducible apply State.imageReady_keeps
    | with_reducible apply State.setHost_keeps
    | with_reducible apply Keeps.ite)

theorem State.reloadDone_keeps {s0 : State} (s : State) (n : Nat) (hk : Keeps s0 s) : Keeps s0 (State.reloadDone s n) := by
  unfold State.reloadDone
  try dsimp only
  repeat' (first
    | with_reducible assumption
    | intro _
    | with_reducible apply State.cmdEnd_keeps
    | with_reducible apply State.dropIssuer_keeps
    | with_reducible apply State.enqueue_keeps
    | with_reducible apply State.raise_keeps
    | with_reducible apply State.setHost_keeps
    | with_reducible apply State.setLaneI_keeps
    | with_reducible apply State.wr_keeps
    | with_reducible apply Keeps.ite
    | with_reducible apply Keeps.foldl)

theorem State.readHashed_keeps {s0 : State} (s : State) (n : Nat) (h : HostRead) (hk : Keeps s0 s) : Keeps s0 (State.readHashed s n h) := by
  unfold State.readHashed
  try dsimp only
  repeat' (first
    | with_reducible assumption
    | with_reducible apply State.enrollDone_keeps
    | with_reducible apply State.hashOn_keeps
    | with_reducible apply State.readAsk_keeps
    | with_reducible apply State.readFail_keeps
    | with_reducible apply State.reloadDone_keeps
    | with_reducible apply State.setRead_keeps
    | with_reducible apply State.wr_keeps
    | with_reducible apply Keeps.ite
    | with_reducible apply Keeps.iteFst
    | simp only [Keeps.mk1]
    | with_reducible rfl
    | split)

theorem State.readGo_keeps {s0 : State} (s : State) (n : Nat) (hk : Keeps s0 s) : Keeps s0 (State.readGo s n) := by
  unfold State.readGo
  try dsimp only
  repeat' (first
    | with_reducible assumption
    | with_reducible apply State.awaitPke_keeps
    | with_reducible apply State.readAsk_keeps
    | with_reducible apply State.readFail_keeps
    | with_reducible apply State.readHashed_keeps
    | with_reducible apply State.setRead_keeps
    | with_reducible apply Keeps.ite
    | simp only [Keeps.mk1]
    | with_reducible rfl
    | split)

theorem State.hostReadServed_keeps {s0 : State} (s : State) (n : Nat) (r : Req) (corrupt : Bool) (hk : Keeps s0 s) : Keeps s0 (State.hostReadServed s n r corrupt) := by
  unfold State.hostReadServed
  try dsimp only
  repeat' (first
    | with_reducible assumption
    | with_reducible apply State.delivered_keeps
    | with_reducible apply State.loadLeaves_keeps
    | with_reducible apply State.readFail_keeps
    | with_reducible apply State.readGo_keeps
    | with_reducible apply State.requeue_keeps
    | with_reducible apply State.setRead_keeps
    | with_reducible apply Keeps.ite
    | with_reducible apply Keeps.iteFst
    | simp only [Keeps.mk1]
    | with_reducible rfl
    | split)

theorem State.streamGo_keeps {s0 : State} (s : State) (n : Nat) (hk : Keeps s0 s) : Keeps s0 (State.streamGo s n) := by
  unfold State.streamGo
  try dsimp only
  repeat' (first
    | with_reducible assumption
    | with_reducible apply State.streamStart_keeps
    | with_reducible apply Keeps.ite
    | split)

theorem State.hostGo_keeps {s0 : State} (s : State) (n : Nat) (hk : Keeps s0 s) : Keeps s0 (State.hostGo s n) := by
  unfold State.hostGo
  try dsimp only
  repeat' (first
    | with_reducible assumption
    | with_reducible apply State.readGo_keeps
    | with_reducible apply State.restoreGo_keeps
    | with_reducible apply State.streamGo_keeps)

theorem State.blockTimeout_keeps {s0 : State} (s : State) (n : Nat) (hk : Keeps s0 s) : Keeps s0 (State.blockTimeout s n) := by
  unfold State.blockTimeout
  try dsimp only
  repeat' (first
    | with_reducible assumption
    | with_reducible apply State.hostFailed_keeps
    | with_reducible apply State.raise_keeps
    | with_reducible apply State.readFail_keeps
    | with_reducible apply State.restoreFail_keeps
    | with_reducible apply Keeps.ite)

theorem State.startReload_keeps {s0 : State} (n : Nat) (i : Instr) (s : State) (hk : Keeps s0 s) : Keeps s0 (State.startReload n i s) := by
  unfold State.startReload
  try dsimp only
  repeat' (first
    | with_reducible assumption
    | with_reducible apply State.cmdStart_keeps
    | with_reducible apply State.readAsk_keeps
    | with_reducible apply State.refuse_keeps
    | with_reducible apply State.setRead_keeps
    | with_reducible apply Keeps.ite)

theorem State.doDeferred_keeps {s0 : State} (s : State) (d : Deferred) (hk : Keeps s0 s) : Keeps s0 (State.doDeferred s d) := by
  unfold State.doDeferred
  try dsimp only
  repeat' (first
    | with_reducible assumption
    | with_reducible apply State.commitCheck_keeps
    | with_reducible apply State.stageArmNow_keeps
    | with_reducible apply State.stageOpenNow_keeps
    | with_reducible apply State.voidNow_keeps
    | split)

theorem State.runDeferred_keeps {s0 : State} (s : State) (hk : Keeps s0 s) : Keeps s0 (State.runDeferred s) := by
  unfold State.runDeferred
  try dsimp only
  repeat' (first
    | with_reducible assumption
    | intro _
    | with_reducible apply State.doDeferred_keeps
    | with_reducible apply Keeps.foldl
    | with_reducible apply Keeps.foldlFst
    | simp only [Keeps.mk1])

theorem State.hostsGo_keeps {s0 : State} (s : State) (hk : Keeps s0 s) : Keeps s0 (State.hostsGo s) := by
  unfold State.hostsGo
  try dsimp only
  repeat' (first
    | with_reducible assumption
    | intro _
    | with_reducible apply State.gateStart_keeps
    | with_reducible apply State.hostGo_keeps
    | with_reducible apply State.runDeferred_keeps
    | with_reducible apply Keeps.ite
    | with_reducible apply Keeps.foldl)

end Sys2Proof.Machine
end

