-- ==== Sys2Proof/Laws/KeepsCmp.lean ====
section
/-! SUPPORT. What the operations of Machine/Cmp.lean keep. -/

namespace Sys2Proof.Machine

theorem State.startCmp_keeps {s0 : State} (addr : Nat) (s : State) (hk : Keeps s0 s) : Keeps s0 (State.startCmp addr s) := by
  unfold State.startCmp
  try dsimp only
  repeat' (first
    | with_reducible assumption
    | with_reducible apply State.cmdStart_keeps
    | with_reducible apply State.refuse_keeps
    | with_reducible apply State.setCmdSlot_keeps
    | with_reducible apply State.wr_keeps
    | with_reducible apply Keeps.ite
    | simp only [Keeps.mk1])

theorem State.cmpIdle_keeps {s0 : State} (s : State) (fault : Option (Nat × Option Nat)) (hk : Keeps s0 s) : Keeps s0 (State.cmpIdle s fault) := by
  unfold State.cmpIdle
  try dsimp only
  repeat' (first
    | with_reducible assumption
    | with_reducible apply State.cmdEnd_keeps
    | with_reducible apply State.pumpCmp_keeps
    | with_reducible apply State.raise_keeps
    | with_reducible apply State.refuse_keeps
    | with_reducible apply State.wr_keeps
    | simp only [Keeps.mk1]
    | with_reducible rfl
    | split)

theorem State.cmpFinish_keeps {s0 : State} (s : State) (d : List Byte) (hk : Keeps s0 s) : Keeps s0 (State.cmpFinish s d) := by
  unfold State.cmpFinish
  try dsimp only
  repeat' (first
    | with_reducible assumption
    | intro _
    | with_reducible apply State.cmpIdle_keeps
    | with_reducible apply State.flashProgram_keeps
    | with_reducible apply State.sramStore_keeps
    | with_reducible apply State.wr_keeps
    | with_reducible apply Keeps.ite)

theorem State.cmpRestore_keeps {s0 : State} (s : State) (n : Nat) (hk : Keeps s0 s) : Keeps s0 (State.cmpRestore s n) := by
  unfold State.cmpRestore
  try dsimp only
  repeat' (first
    | with_reducible assumption
    | with_reducible apply State.raise_keeps
    | with_reducible apply State.refuse_keeps
    | with_reducible apply State.wr_keeps
    | with_reducible apply State.enqueue_keeps
    | with_reducible apply State.pumpCmp_keeps
    | with_reducible apply State.restoreFail_keeps
    | with_reducible apply State.setRestore_keeps
    | with_reducible apply Keeps.ite
    | simp only [Keeps.mk1]
    | with_reducible rfl
    | split)

theorem State.cmpDone_keeps {s0 : State} (s : State) (hk : Keeps s0 s) : Keeps s0 (State.cmpDone s) := by
  unfold State.cmpDone
  try dsimp only
  repeat' (first
    | with_reducible assumption
    | with_reducible apply State.cmpFinish_keeps
    | with_reducible apply State.cmpRestore_keeps
    | with_reducible apply Keeps.ite
    | split)

end Sys2Proof.Machine
end

