-- ==== Sys2Proof/Laws/KeepsMailbox.lean ====
section
/-! SUPPORT. What the operations of Machine/Mailbox.lean keep. -/

namespace Sys2Proof.Machine

theorem State.mboxStore_keeps {s0 : State} (s : State) (off : Nat) (bs : List Byte) (h : Keeps s0 s) : Keeps s0 (State.mboxStore s off bs) :=
  ⟨h.pending, h.free, h.sram, h.retention, h.flash, fun x => Mem.wf_store 0 _ _ _ (h.mbox x), h.tcm, h.otp, h.blobs⟩


theorem State.mgpErr_keeps {s0 : State} (s : State) (hk : Keeps s0 s) : Keeps s0 (State.mgpErr s) := by
  unfold State.mgpErr
  try dsimp only
  repeat' (first
    | with_reducible assumption
    | simp only [Keeps.mk1])

theorem State.mgpOut_keeps {s0 : State} (s : State) (bs : List Byte) (hk : Keeps s0 s) : Keeps s0 (State.mgpOut s bs) := by
  unfold State.mgpOut
  try dsimp only
  repeat' (first
    | with_reducible assumption
    | simp only [Keeps.mk1])

theorem State.mgpWrite_keeps {s0 : State} (s : State) (off : Nat) (data : List Byte) (hk : Keeps s0 s) : Keeps s0 (State.mgpWrite s off data) := by
  unfold State.mgpWrite
  try dsimp only
  repeat' (first
    | with_reducible assumption
    | with_reducible apply State.mboxStore_keeps
    | with_reducible apply State.mgpErr_keeps
    | with_reducible apply Keeps.ite
    | simp only [Keeps.mk1])

theorem State.mgpRespond_keeps {s0 : State} (s : State) (status : Nat) (payload : List Byte) (hk : Keeps s0 s) : Keeps s0 (State.mgpRespond s status payload) := by
  unfold State.mgpRespond
  try dsimp only
  repeat' (first
    | with_reducible assumption
    | with_reducible apply State.mboxStore_keeps
    | with_reducible apply State.wr_keeps
    | simp only [Keeps.mk1])

theorem State.mgpReject_keeps {s0 : State} (s : State) (reason : Nat) (hk : Keeps s0 s) : Keeps s0 (State.mgpReject s reason) := by
  unfold State.mgpReject
  try dsimp only
  repeat' (first
    | with_reducible assumption
    | with_reducible apply State.mgpRespond_keeps)

theorem State.mgpRefuse_keeps {s0 : State} (s : State) (code : Nat) (hk : Keeps s0 s) : Keeps s0 (State.mgpRefuse s code) := by
  unfold State.mgpRefuse
  try dsimp only
  repeat' (first
    | with_reducible assumption
    | with_reducible apply State.refuse_keeps)

theorem State.startFetch_keeps {s0 : State} (addr : Nat) (s : State) (hk : Keeps s0 s) : Keeps s0 (State.startFetch addr s) := by
  unfold State.startFetch
  try dsimp only
  repeat' (first
    | with_reducible assumption
    | with_reducible apply State.mgpRefuse_keeps
    | with_reducible apply State.sramStore_keeps
    | with_reducible apply State.wr_keeps
    | with_reducible apply Keeps.ite)

theorem State.startReply_keeps {s0 : State} (addr : Nat) (s : State) (hk : Keeps s0 s) : Keeps s0 (State.startReply addr s) := by
  unfold State.startReply
  try dsimp only
  repeat' (first
    | with_reducible assumption
    | with_reducible apply State.mboxStore_keeps
    | with_reducible apply State.mgpRefuse_keeps
    | with_reducible apply State.wr_keeps
    | with_reducible apply Keeps.ite
    | simp only [Keeps.mk1])

theorem State.mgpWarm_keeps {s0 : State} (s : State) (h : Keeps s0 s) : Keeps s0 (State.mgpWarm s) := by
  unfold State.mgpWarm
  split
  · have k := State.wr_keeps _ Reg.MGP.STATUS_RESET_SEEN 1 (State.wr_keeps _ Reg.MGP.STATUS_OWNER 0 h)
    exact ⟨k.1, k.2, k.3, k.4, k.5, k.6, k.7, k.8, k.9⟩
  · exact ⟨h.1, h.2, h.3, h.4, h.5, h.6, h.7, h.8, h.9⟩

end Sys2Proof.Machine
end

