-- ==== Sys2Proof/Laws/KeepsNet.lean ====
section
/-! SUPPORT. What the operations of Machine/Net.lean keep. -/

namespace Sys2Proof.Machine

theorem State.showCarrying_keeps {s0 : State} (s : State) (hk : Keeps s0 s) : Keeps s0 (State.showCarrying s) := by
  unfold State.showCarrying
  try dsimp only
  repeat' (first
    | with_reducible assumption
    | intro _
    | with_reducible apply State.wrb_keeps
    | with_reducible apply Keeps.foldl)

theorem State.setPn_keeps {s0 : State} (s : State) (x pn : Nat) (hk : Keeps s0 s) : Keeps s0 (State.setPn s x pn) := by
  unfold State.setPn
  try dsimp only
  repeat' (first
    | with_reducible assumption
    | with_reducible apply State.wr_keeps
    | with_reducible apply Keeps.ite)

theorem State.usePn_keeps {s0 : State} (s : State) (l : Nat) (hk : Keeps s0 s) : Keeps s0 (State.usePn s l) := by
  unfold State.usePn
  try dsimp only
  repeat' (first
    | with_reducible assumption
    | with_reducible apply State.raise_keeps
    | with_reducible apply State.refuse_keeps
    | with_reducible apply State.setPn_keeps
    | with_reducible apply Keeps.ite)

theorem State.pumpLane_keeps {s0 : State} (s : State) (l : Nat) (hk : Keeps s0 s) : Keeps s0 (State.pumpLane s l) := by
  unfold State.pumpLane
  try dsimp only
  repeat' (first
    | with_reducible assumption
    | intro _
    | with_reducible apply State.setLane_keeps
    | with_reducible apply State.usePn_keeps
    | with_reducible apply Keeps.ite
    | simp only [Keeps.mk1]
    | with_reducible rfl
    | split)

theorem State.sendFrame_keeps {s0 : State} (s : State) (l : Nat) (f : List Byte) (hk : Keeps s0 s) : Keeps s0 (State.sendFrame s l f) := by
  unfold State.sendFrame
  try dsimp only
  repeat' (first
    | with_reducible assumption
    | with_reducible apply State.bump_keeps
    | with_reducible apply State.pumpLane_keeps
    | with_reducible apply State.setLane_keeps
    | with_reducible apply Keeps.ite)

theorem State.sendEth_keeps {s0 : State} (s : State) (l peer : Nat) (bs : List Byte) (hk : Keeps s0 s) : Keeps s0 (State.sendEth s l peer bs) := by
  unfold State.sendEth
  try dsimp only
  repeat' (first
    | with_reducible assumption
    | with_reducible apply State.sendFrame_keeps)

theorem State.frameEnd_keeps {s0 : State} (s : State) (l : Nat) (hk : Keeps s0 s) : Keeps s0 (State.frameEnd s l) := by
  unfold State.frameEnd
  try dsimp only
  repeat' (first
    | with_reducible assumption
    | intro _
    | with_reducible apply State.bump_keeps
    | with_reducible apply State.pumpLane_keeps
    | with_reducible apply State.saWithdrawn_keeps
    | with_reducible apply State.setLane_keeps
    | with_reducible apply Keeps.ite
    | simp only [Keeps.mk1]
    | with_reducible rfl
    | split)

theorem State.repin_keeps {s0 : State} (s : State) (l : Nat) (hk : Keeps s0 s) : Keeps s0 (State.repin s l) := by
  unfold State.repin
  try dsimp only
  repeat' (first
    | with_reducible assumption
    | intro _
    | with_reducible apply State.raise_keeps
    | with_reducible apply Keeps.ite
    | with_reducible apply Keeps.foldl
    | with_reducible apply Keeps.foldlFst
    | simp only [Keeps.mk1])

theorem State.linkRises_keeps {s0 : State} (s : State) (l : Nat) (hk : Keeps s0 s) : Keeps s0 (State.linkRises s l) := by
  unfold State.linkRises
  try dsimp only
  repeat' (first
    | with_reducible assumption
    | with_reducible apply State.pumpLane_keeps
    | with_reducible apply State.raise_keeps
    | with_reducible apply State.showCarrying_keeps
    | with_reducible apply State.wr_keeps
    | with_reducible apply Keeps.ite)

theorem State.linkFalls_keeps {s0 : State} (s : State) (l : Nat) (hk : Keeps s0 s) : Keeps s0 (State.linkFalls s l) := by
  unfold State.linkFalls
  try dsimp only
  repeat' (first
    | with_reducible assumption
    | with_reducible apply State.bump_keeps
    | with_reducible apply State.raise_keeps
    | with_reducible apply State.repin_keeps
    | with_reducible apply State.showCarrying_keeps
    | with_reducible apply State.wr_keeps
    | with_reducible apply Keeps.ite)

theorem State.laneOff_keeps {s0 : State} (s : State) (l : Nat) (hk : Keeps s0 s) : Keeps s0 (State.laneOff s l) := by
  unfold State.laneOff
  try dsimp only
  repeat' (first
    | with_reducible assumption
    | with_reducible apply State.wr_keeps)

theorem State.lanesFollow_keeps {s0 : State} (s : State) (hk : Keeps s0 s) : Keeps s0 (State.lanesFollow s) := by
  unfold State.lanesFollow
  try dsimp only
  repeat' (first
    | with_reducible assumption
    | intro _
    | with_reducible apply State.laneOff_keeps
    | with_reducible apply State.pumpLane_keeps
    | with_reducible apply State.showCarrying_keeps
    | with_reducible apply Keeps.ite
    | with_reducible apply Keeps.foldl)

theorem State.netApplied_keeps {s0 : State} (s : State) (hk : Keeps s0 s) : Keeps s0 (State.netApplied s) := by
  unfold State.netApplied
  try dsimp only
  repeat' (first
    | with_reducible assumption
    | intro _
    | with_reducible apply State.lanesFollow_keeps
    | with_reducible apply State.linkFalls_keeps
    | with_reducible apply Keeps.ite
    | with_reducible apply Keeps.foldl)

theorem State.netRefuse_keeps {s0 : State} (s : State) (code : Nat) (hk : Keeps s0 s) : Keeps s0 (State.netRefuse s code) := by
  unfold State.netRefuse
  try dsimp only
  repeat' (first
    | with_reducible assumption
    | with_reducible apply State.refuse_keeps)

theorem State.startNetSend_keeps {s0 : State} (addr : Nat) (s : State) (hk : Keeps s0 s) : Keeps s0 (State.startNetSend addr s) := by
  unfold State.startNetSend
  try dsimp only
  repeat' (first
    | with_reducible assumption
    | with_reducible apply State.netRefuse_keeps
    | with_reducible apply State.sendFrame_keeps
    | with_reducible apply Keeps.ite)

theorem State.startNetRecv_keeps {s0 : State} (addr : Nat) (s : State) (hk : Keeps s0 s) : Keeps s0 (State.startNetRecv addr s) := by
  unfold State.startNetRecv
  try dsimp only
  repeat' (first
    | with_reducible assumption
    | with_reducible apply State.netRefuse_keeps
    | with_reducible apply State.setLane_keeps
    | with_reducible apply State.sramStore_keeps
    | with_reducible apply Keeps.ite
    | simp only [Keeps.mk1]
    | with_reducible rfl
    | split)

theorem State.startEnable_keeps {s0 : State} (x : Nat) (s : State) (hk : Keeps s0 s) : Keeps s0 (State.startEnable x s) := by
  unfold State.startEnable
  try dsimp only
  repeat' (first
    | with_reducible assumption
    | with_reducible apply State.pumpLane_keeps
    | with_reducible apply State.startSaEnable_keeps)

theorem State.startSetTxAn_keeps {s0 : State} (x : Nat) (s : State) (hk : Keeps s0 s) : Keeps s0 (State.startSetTxAn x s) := by
  unfold State.startSetTxAn
  try dsimp only
  repeat' (first
    | with_reducible assumption
    | with_reducible apply State.pumpLane_keeps
    | with_reducible apply State.saRefuse_keeps
    | with_reducible apply State.wr_keeps
    | with_reducible apply Keeps.ite)

end Sys2Proof.Machine
end

