-- ==== Sys2Proof/Laws/KeepsCan.lean ====
section
/-! SUPPORT. What the operations of Machine/Can.lean keep. -/

namespace Sys2Proof.Machine

theorem State.setCan_keeps {s0 : State} (s : State) (p : Nat) (v : CanPort) (hk : Keeps s0 s) : Keeps s0 (State.setCan s p v) := by
  unfold State.setCan
  try dsimp only
  repeat' (first
    | with_reducible assumption
    | simp only [Keeps.mk1])

theorem State.canPut_keeps {s0 : State} (s : State) (p : Nat) (fs : List CanFrame) (hk : Keeps s0 s) : Keeps s0 (State.canPut s p fs) := by
  unfold State.canPut
  try dsimp only
  repeat' (first
    | with_reducible assumption
    | with_reducible apply State.bumpBy_keeps
    | with_reducible apply State.setCan_keeps)

theorem State.tpStart_keeps {s0 : State} (s : State) (p : Nat) (t : TpTx) (hk : Keeps s0 s) : Keeps s0 (State.tpStart s p t).1 := by
  unfold State.tpStart
  try dsimp only
  repeat' (first
    | with_reducible assumption
    | with_reducible apply State.canPut_keeps
    | with_reducible apply Keeps.ite
    | with_reducible apply Keeps.iteFst)

theorem State.tpNext_keeps {s0 : State} (p peer n : Nat) (s : State) (h : Keeps s0 s) : Keeps s0 (State.tpNext p peer n s) := by
  induction n generalizing s with
  | zero => exact h
  | succ n ih =>
    unfold State.tpNext
    repeat' (first
      | with_reducible apply ih
      | with_reducible assumption
      | intro _
      | with_reducible apply State.setCan_keeps
      | with_reducible apply State.tpStart_keeps
      | with_reducible apply Keeps.ite
      | with_reducible apply Keeps.iteFst
      | simp only []
      | with_reducible rfl
      | split)

theorem State.sendCan_keeps {s0 : State} (s : State) (p peer : Nat) (bs : List Byte) (hk : Keeps s0 s) : Keeps s0 (State.sendCan s p peer bs) := by
  unfold State.sendCan
  try dsimp only
  repeat' (first
    | with_reducible assumption
    | intro _
    | with_reducible apply State.setCan_keeps
    | with_reducible apply State.tpNext_keeps
    | with_reducible apply Keeps.ite)

theorem State.tpStep_keeps {s0 : State} (s : State) (p : Nat) (t : TpTx) (hk : Keeps s0 s) : Keeps s0 (State.tpStep s p t) := by
  unfold State.tpStep
  try dsimp only
  repeat' (first
    | with_reducible assumption
    | with_reducible apply State.canPut_keeps
    | with_reducible apply State.setCan_keeps
    | with_reducible apply State.tpNext_keeps
    | with_reducible apply Keeps.ite)

theorem State.tpTick_keeps {s0 : State} (s : State) (p : Nat) (hk : Keeps s0 s) : Keeps s0 (State.tpTick s p) := by
  unfold State.tpTick
  try dsimp only
  repeat' (first
    | with_reducible assumption
    | intro _
    | with_reducible apply State.tpStep_keeps
    | with_reducible apply Keeps.foldl)

theorem State.tpFlow_keeps {s0 : State} (s : State) (p peer st bs : Nat) (hk : Keeps s0 s) : Keeps s0 (State.tpFlow s p peer st bs) := by
  unfold State.tpFlow
  try dsimp only
  repeat' (first
    | with_reducible assumption
    | intro _
    | with_reducible apply State.bump_keeps
    | with_reducible apply State.raise_keeps
    | with_reducible apply State.setCan_keeps
    | with_reducible apply State.tpNext_keeps
    | with_reducible apply State.tpStep_keeps
    | with_reducible apply Keeps.ite
    | simp only [Keeps.mk1]
    | with_reducible rfl
    | split)

theorem State.tpAbort_keeps {s0 : State} (s : State) (p : Nat) (rx : Bool) (hk : Keeps s0 s) : Keeps s0 (State.tpAbort s p rx) := by
  unfold State.tpAbort
  try dsimp only
  repeat' (first
    | with_reducible assumption
    | intro _
    | with_reducible apply State.bump_keeps
    | with_reducible apply State.raise_keeps
    | with_reducible apply State.setCan_keeps
    | with_reducible apply State.tpNext_keeps
    | with_reducible apply Keeps.ite
    | simp only [Keeps.mk1]
    | with_reducible rfl
    | split)

theorem State.busOff_keeps {s0 : State} (s : State) (p : Nat) (hk : Keeps s0 s) : Keeps s0 (State.busOff s p) := by
  unfold State.busOff
  try dsimp only
  repeat' (first
    | with_reducible assumption
    | with_reducible apply State.bump_keeps
    | with_reducible apply State.bumpBy_keeps
    | with_reducible apply State.raise_keeps
    | with_reducible apply State.setCan_keeps
    | with_reducible apply State.wr_keeps
    | with_reducible apply Keeps.ite)

theorem State.busBack_keeps {s0 : State} (s : State) (p : Nat) (hk : Keeps s0 s) : Keeps s0 (State.busBack s p) := by
  unfold State.busBack
  try dsimp only
  repeat' (first
    | with_reducible assumption
    | with_reducible apply State.setCan_keeps
    | with_reducible apply State.wr_keeps
    | with_reducible apply Keeps.ite)

theorem State.canOff_keeps {s0 : State} (s : State) (p : Nat) (hk : Keeps s0 s) : Keeps s0 (State.canOff s p) := by
  unfold State.canOff
  try dsimp only
  repeat' (first
    | with_reducible assumption
    | with_reducible apply State.setCan_keeps
    | with_reducible apply State.wr_keeps)

theorem State.canApplied_keeps {s0 : State} (old s : State) (hk : Keeps s0 s) : Keeps s0 (State.canApplied old s) := by
  unfold State.canApplied
  try dsimp only
  repeat' (first
    | with_reducible assumption
    | intro _
    | with_reducible apply State.canOff_keeps
    | with_reducible apply State.wr_keeps
    | with_reducible apply Keeps.ite
    | with_reducible apply Keeps.foldl)

theorem State.canRefuse_keeps {s0 : State} (s : State) (code : Nat) (hk : Keeps s0 s) : Keeps s0 (State.canRefuse s code) := by
  unfold State.canRefuse
  try dsimp only
  repeat' (first
    | with_reducible assumption
    | with_reducible apply State.refuse_keeps)

theorem State.startCanSend_keeps {s0 : State} (p : Fin 2) (addr : Nat) (s : State) (hk : Keeps s0 s) : Keeps s0 (State.startCanSend p addr s) := by
  unfold State.startCanSend
  try dsimp only
  repeat' (first
    | with_reducible assumption
    | with_reducible apply State.canPut_keeps
    | with_reducible apply State.canRefuse_keeps
    | with_reducible apply Keeps.ite)

theorem State.startCanRecv_keeps {s0 : State} (p : Fin 2) (addr : Nat) (s : State) (hk : Keeps s0 s) : Keeps s0 (State.startCanRecv p addr s) := by
  unfold State.startCanRecv
  try dsimp only
  repeat' (first
    | with_reducible assumption
    | with_reducible apply State.canRefuse_keeps
    | with_reducible apply State.setCan_keeps
    | with_reducible apply State.sramStore_keeps
    | with_reducible apply Keeps.ite
    | simp only [Keeps.mk1]
    | with_reducible rfl
    | split)

theorem State.startRecover_keeps {s0 : State} (p : Fin 2) (s : State) (hk : Keeps s0 s) : Keeps s0 (State.startRecover p s) := by
  unfold State.startRecover
  try dsimp only
  repeat' (first
    | with_reducible assumption
    | with_reducible apply State.setCan_keeps
    | with_reducible apply Keeps.ite)

end Sys2Proof.Machine
end

