-- ==== Sys2Proof/Laws/KeepsStx.lean ====
section
/-! SUPPORT. What the operations of Machine/Stx.lean keep. -/

namespace Sys2Proof.Machine

theorem State.setSess_keeps {s0 : State} (s : State) (i : Nat) (c : Sess) (hk : Keeps s0 s) : Keeps s0 (State.setSess s i c) := by
  unfold State.setSess
  try dsimp only
  repeat' (first
    | with_reducible assumption
    | with_reducible apply State.wr_keeps
    | simp only [Keeps.mk1])

theorem State.bufStore_keeps {s0 : State} (s : State) (b i size : Nat) (body : List Byte) (hk : Keeps s0 s) : Keeps s0 (State.bufStore s b i size body) := by
  unfold State.bufStore
  try dsimp only
  repeat' (first
    | with_reducible assumption
    | with_reducible apply State.sramStore_keeps)

theorem State.dropFrame_keeps {s0 : State} (s : State) (hk : Keeps s0 s) : Keeps s0 (State.dropFrame s) := by
  unfold State.dropFrame
  try dsimp only
  repeat' (first
    | with_reducible assumption
    | with_reducible apply State.bump_keeps)

theorem State.roundVerdict_keeps {s0 : State} (s : State) (sid code : Nat) (hk : Keeps s0 s) : Keeps s0 (State.roundVerdict s sid code) := by
  unfold State.roundVerdict
  try dsimp only
  repeat' (first
    | with_reducible assumption
    | intro _
    | simp only [Keeps.mk1]
    | with_reducible rfl
    | split)

theorem State.roundLeave_keeps {s0 : State} (s : State) (sid : Nat) (hk : Keeps s0 s) : Keeps s0 (State.roundLeave s sid) := by
  unfold State.roundLeave
  try dsimp only
  repeat' (first
    | with_reducible assumption
    | intro _
    | with_reducible apply State.roundVerdict_keeps
    | with_reducible apply Keeps.ite
    | with_reducible apply Keeps.iteFst
    | split)

theorem State.toIdle_keeps {s0 : State} (s : State) (sid cause : Nat) (hk : Keeps s0 s) : Keeps s0 (State.toIdle s sid cause) := by
  unfold State.toIdle
  try dsimp only
  repeat' (first
    | with_reducible assumption
    | intro _
    | with_reducible apply State.dropReqs_keeps
    | with_reducible apply State.pumpPke_keeps
    | with_reducible apply State.raise_keeps
    | with_reducible apply State.roundLeave_keeps
    | with_reducible apply State.setKeyReg_keeps
    | with_reducible apply State.setSess_keeps
    | with_reducible apply Keeps.ite
    | simp only [Keeps.mk1]
    | with_reducible rfl
    | split)

theorem State.allIdle_keeps {s0 : State} (s : State) (cause : Nat) (hk : Keeps s0 s) : Keeps s0 (State.allIdle s cause) := by
  unfold State.allIdle
  try dsimp only
  repeat' (first
    | with_reducible assumption
    | intro _
    | with_reducible apply State.toIdle_keeps
    | with_reducible apply Keeps.foldl)

theorem State.sendOn_keeps {s0 : State} (s : State) (medium peer : Nat) (f : List Byte) (hk : Keeps s0 s) : Keeps s0 (State.sendOn s medium peer f) := by
  unfold State.sendOn
  try dsimp only
  repeat' (first
    | with_reducible assumption
    | with_reducible apply State.sendCan_keeps
    | with_reducible apply State.sendEth_keeps
    | with_reducible apply Keeps.ite
    | simp only [Keeps.mk1])

theorem State.sendAck_keeps {s0 : State} (s : State) (medium peer sid seq : Nat) (payload : List Byte) (hk : Keeps s0 s) : Keeps s0 (State.sendAck s medium peer sid seq payload) := by
  unfold State.sendAck
  try dsimp only
  repeat' (first
    | with_reducible assumption
    | with_reducible apply State.sendOn_keeps
    | with_reducible apply Keeps.ite)

theorem State.sessEngine_keeps {s0 : State} (s : State) (hk : Keeps s0 s) : Keeps s0 (State.sessEngine s) := by
  unfold State.sessEngine
  try dsimp only
  repeat' (first
    | with_reducible assumption
    | with_reducible apply State.aesBorrow_keeps
    | with_reducible apply State.cacheFill_keeps
    | with_reducible apply Keeps.ite)

theorem State.sendPart_keeps {s0 : State} (s : State) (sid type : Nat) (prot more : Bool) (part : List Byte) (hk : Keeps s0 s) : Keeps s0 (State.sendPart s sid type prot more part) := by
  unfold State.sendPart
  try dsimp only
  repeat' (first
    | with_reducible assumption
    | with_reducible apply State.sendOn_keeps
    | with_reducible apply State.sessEngine_keeps
    | with_reducible apply State.setSess_keeps
    | with_reducible apply Keeps.ite)

theorem State.sendParts_keeps {s0 : State} (sid type : Nat) (prot : Bool) (l : List (List Byte)) (s : State) (h : Keeps s0 s) :
    Keeps s0 (State.sendParts sid type prot l s) := by
  induction l generalizing s with
  | nil => exact h
  | cons p ps ih =>
    cases ps with
    | nil => exact State.sendPart_keeps _ _ _ _ _ _ h
    | cons q qs => exact ih _ (State.sendPart_keeps _ _ _ _ _ _ h)

theorem State.sendMsg_keeps {s0 : State} (s : State) (sid type : Nat) (m : List Byte) (hk : Keeps s0 s) : Keeps s0 (State.sendMsg s sid type m) := by
  unfold State.sendMsg
  try dsimp only
  repeat' (first
    | with_reducible assumption
    | with_reducible apply State.sendParts_keeps
    | with_reducible apply State.toIdle_keeps
    | with_reducible apply Keeps.ite)

theorem State.refuseHello_keeps {s0 : State} (s : State) (medium peer sid code : Nat) (hk : Keeps s0 s) : Keeps s0 (State.refuseHello s medium peer sid code) := by
  unfold State.refuseHello
  try dsimp only
  repeat' (first
    | with_reducible assumption
    | with_reducible apply State.sendOn_keeps)

theorem State.linkAck_keeps {s0 : State} (s : State) (medium peer sid seq : Nat) (hk : Keeps s0 s) : Keeps s0 (State.linkAck s medium peer sid seq) := by
  unfold State.linkAck
  try dsimp only
  repeat' (first
    | with_reducible assumption
    | intro _
    | with_reducible apply State.dropFrame_keeps
    | with_reducible apply State.setSess_keeps
    | with_reducible apply State.toIdle_keeps
    | with_reducible apply Keeps.ite)

theorem State.retransmit_keeps {s0 : State} (s : State) (sid : Nat) (hk : Keeps s0 s) : Keeps s0 (State.retransmit s sid) := by
  unfold State.retransmit
  try dsimp only
  repeat' (first
    | with_reducible assumption
    | with_reducible apply State.bump_keeps
    | with_reducible apply State.raise_keeps
    | with_reducible apply State.sendOn_keeps
    | with_reducible apply State.setSess_keeps
    | with_reducible apply State.toIdle_keeps
    | with_reducible apply Keeps.ite
    | simp only [Keeps.mk1]
    | with_reducible rfl
    | split)

theorem State.sessTimeout_keeps {s0 : State} (s : State) (sid : Nat) (hk : Keeps s0 s) : Keeps s0 (State.sessTimeout s sid) := by
  unfold State.sessTimeout
  try dsimp only
  repeat' (first
    | with_reducible assumption
    | with_reducible apply State.bump_keeps
    | with_reducible apply State.toIdle_keeps
    | with_reducible apply Keeps.ite)

theorem State.closeSess_keeps {s0 : State} (s : State) (sid reason : Nat) (hk : Keeps s0 s) : Keeps s0 (State.closeSess s sid reason) := by
  unfold State.closeSess
  try dsimp only
  repeat' (first
    | with_reducible assumption
    | with_reducible apply State.sendMsg_keeps
    | with_reducible apply State.setSess_keeps
    | with_reducible apply Keeps.ite)

theorem State.sealSess_keeps {s0 : State} (s : State) (sid : Nat) (hk : Keeps s0 s) : Keeps s0 (State.sealSess s sid) := by
  unfold State.sealSess
  try dsimp only
  repeat' (first
    | with_reducible assumption
    | with_reducible apply State.closeSess_keeps
    | with_reducible apply State.sendMsg_keeps
    | with_reducible apply Keeps.ite)

theorem State.abandonSess_keeps {s0 : State} (s : State) (sid : Nat) (hk : Keeps s0 s) : Keeps s0 (State.abandonSess s sid) := by
  unfold State.abandonSess
  try dsimp only
  repeat' (first
    | with_reducible assumption
    | with_reducible apply State.bump_keeps
    | with_reducible apply State.toIdle_keeps
    | with_reducible apply Keeps.ite)

theorem State.peerClose_keeps {s0 : State} (s : State) (sid : Nat) (m : List Byte) (hk : Keeps s0 s) : Keeps s0 (State.peerClose s sid m) := by
  unfold State.peerClose
  try dsimp only
  repeat' (first
    | with_reducible assumption
    | with_reducible apply State.toIdle_keeps)

theorem State.toFw_keeps {s0 : State} (s : State) (sid type : Nat) (m : List Byte) (hk : Keeps s0 s) : Keeps s0 (State.toFw s sid type m) := by
  unfold State.toFw
  try dsimp only
  repeat' (first
    | with_reducible assumption
    | with_reducible apply State.raise_keeps
    | simp only [Keeps.mk1])

theorem State.stxResult_keeps {s0 : State} (s : State) (sid code : Nat) (hk : Keeps s0 s) : Keeps s0 (State.stxResult s sid code) := by
  unfold State.stxResult
  try dsimp only
  repeat' (first
    | with_reducible assumption
    | with_reducible apply State.refuse_keeps
    | with_reducible apply State.wr_keeps
    | with_reducible apply Keeps.ite)

theorem State.stxWait_keeps {s0 : State} (s : State) (i : Instr) (hk : Keeps s0 s) : Keeps s0 (State.stxWait s i) := by
  unfold State.stxWait
  try dsimp only
  repeat' (first
    | with_reducible assumption
    | with_reducible apply State.setCmdSlot_keeps)

theorem State.startStxSend_keeps {s0 : State} (addr : Nat) (s : State) (hk : Keeps s0 s) : Keeps s0 (State.startStxSend addr s) := by
  unfold State.startStxSend
  try dsimp only
  repeat' (first
    | with_reducible assumption
    | with_reducible apply State.sendMsg_keeps
    | with_reducible apply State.stxResult_keeps
    | with_reducible apply State.stxWait_keeps
    | with_reducible apply Keeps.ite)

theorem State.startStxRecv_keeps {s0 : State} (addr : Nat) (s : State) (hk : Keeps s0 s) : Keeps s0 (State.startStxRecv addr s) := by
  unfold State.startStxRecv
  try dsimp only
  repeat' (first
    | with_reducible assumption
    | with_reducible apply State.sramStore_keeps
    | with_reducible apply State.stxResult_keeps
    | with_reducible apply Keeps.ite
    | simp only [Keeps.mk1]
    | with_reducible rfl
    | split)

theorem State.startStxClose_keeps {s0 : State} (addr : Nat) (s : State) (hk : Keeps s0 s) : Keeps s0 (State.startStxClose addr s) := by
  unfold State.startStxClose
  try dsimp only
  repeat' (first
    | with_reducible assumption
    | with_reducible apply State.closeSess_keeps
    | with_reducible apply State.stxResult_keeps
    | with_reducible apply State.stxWait_keeps
    | with_reducible apply Keeps.ite)

theorem State.startReadCtx_keeps {s0 : State} (addr : Nat) (s : State) (hk : Keeps s0 s) : Keeps s0 (State.startReadCtx addr s) := by
  unfold State.startReadCtx
  try dsimp only
  repeat' (first
    | with_reducible assumption
    | with_reducible apply State.sramStore_keeps
    | with_reducible apply State.stxResult_keeps
    | with_reducible apply Keeps.ite)

end Sys2Proof.Machine
end

