-- ==== Sys2Proof/Laws/KeepsAtt.lean ====
section
/-! SUPPORT. What the operations of Machine/Att.lean keep. -/

namespace Sys2Proof.Machine

theorem State.attWait_keeps {s0 : State} (s : State) (i : Instr) (hk : Keeps s0 s) : Keeps s0 (State.attWait s i) := by
  unfold State.attWait
  try dsimp only
  repeat' (first
    | with_reducible assumption
    | with_reducible apply State.setCmdSlot_keeps)

theorem State.attEnd_keeps {s0 : State} (s : State) (code : Nat) (hk : Keeps s0 s) : Keeps s0 (State.attEnd s code) := by
  unfold State.attEnd
  try dsimp only
  repeat' (first
    | with_reducible assumption
    | with_reducible apply State.cmdEnd_keeps
    | with_reducible apply State.wr_keeps
    | with_reducible apply Keeps.ite)

theorem State.attResult_keeps {s0 : State} (s : State) (code : Nat) (hk : Keeps s0 s) : Keeps s0 (State.attResult s code) := by
  unfold State.attResult
  try dsimp only
  repeat' (first
    | with_reducible assumption
    | with_reducible apply State.attEnd_keeps)

theorem State.attAwait_keeps {s0 : State} (s : State) (i : Instr) (hk : Keeps s0 s) : Keeps s0 (State.attAwait s i) := by
  unfold State.attAwait
  try dsimp only
  repeat' (first
    | with_reducible assumption
    | with_reducible apply State.awaitPke_keeps
    | with_reducible apply State.cmdStart_keeps)

theorem State.regSign_keeps {s0 : State} (s : State) (r : Nat) (m : List Byte) (hk : Keeps s0 s) : Keeps s0 (State.regSign s r m).1 := by
  unfold State.regSign
  try dsimp only
  repeat' (first
    | with_reducible assumption
    | with_reducible apply State.draw_keeps)

theorem State.signBoth_keeps {s0 : State} (s : State) (r : Nat) (hybrid : Bool) (m : List Byte) (hk : Keeps s0 s) : Keeps s0 (State.signBoth s r hybrid m).1 := by
  unfold State.signBoth
  try dsimp only
  repeat' (first
    | with_reducible assumption
    | with_reducible apply State.regSign_keeps
    | with_reducible apply Keeps.ite
    | with_reducible apply Keeps.iteFst
    | split)

theorem State.identityKey_keeps {s0 : State} (s : State) (r alg sl : Nat) (hk : Keeps s0 s) : Keeps s0 (State.identityKey s r alg sl) := by
  unfold State.identityKey
  try dsimp only
  repeat' (first
    | with_reducible assumption
    | with_reducible apply State.setKeyReg_keeps)

theorem State.identityRun_keeps {s0 : State} (s : State) (addr : Nat) (hk : Keeps s0 s) : Keeps s0 (State.identityRun s addr) := by
  unfold State.identityRun
  try dsimp only
  repeat' (first
    | with_reducible assumption
    | with_reducible apply State.attEnd_keeps
    | with_reducible apply State.attResult_keeps
    | with_reducible apply State.identityKey_keeps
    | with_reducible apply State.raise_keeps
    | with_reducible apply State.signBoth_keeps
    | with_reducible apply State.sramStore_keeps
    | with_reducible apply State.wr_keeps
    | simp only [Keeps.mk1]
    | with_reducible rfl
    | split)

theorem State.startAttIdentity_keeps {s0 : State} (addr : Nat) (s : State) (hk : Keeps s0 s) : Keeps s0 (State.startAttIdentity addr s) := by
  unfold State.startAttIdentity
  try dsimp only
  repeat' (first
    | with_reducible assumption
    | with_reducible apply State.attAwait_keeps
    | with_reducible apply State.attEnd_keeps
    | with_reducible apply State.attResult_keeps
    | with_reducible apply State.attWait_keeps
    | with_reducible apply State.cacheFill_keeps
    | with_reducible apply State.captureFault_keeps
    | with_reducible apply State.identityRun_keeps
    | with_reducible apply State.maskStall_keeps
    | with_reducible apply Keeps.ite
    | with_reducible apply Keeps.iteFst
    | split)

theorem State.identityLost_keeps {s0 : State} (s : State) (hk : Keeps s0 s) : Keeps s0 (State.identityLost s) := by
  unfold State.identityLost
  try dsimp only
  repeat' (first
    | with_reducible assumption
    | with_reducible apply State.allIdle_keeps
    | with_reducible apply State.wr_keeps
    | simp only [Keeps.mk1]
    | with_reducible rfl
    | split)

theorem State.startLockRmt_keeps {s0 : State} (s : State) (hk : Keeps s0 s) : Keeps s0 (State.startLockRmt s) := by
  unfold State.startLockRmt
  try dsimp only
  repeat' (first
    | with_reducible assumption
    | intro _
    | with_reducible apply State.attResult_keeps
    | with_reducible apply State.attWait_keeps
    | with_reducible apply State.wr_keeps
    | with_reducible apply Keeps.ite
    | with_reducible apply Keeps.foldl
    | with_reducible apply Keeps.foldlFst
    | simp only [Keeps.mk1]
    | with_reducible rfl
    | split)

theorem State.startUnlockRmt_keeps {s0 : State} (s : State) (hk : Keeps s0 s) : Keeps s0 (State.startUnlockRmt s) := by
  unfold State.startUnlockRmt
  try dsimp only
  repeat' (first
    | with_reducible assumption
    | with_reducible apply State.attResult_keeps
    | with_reducible apply State.wr_keeps
    | with_reducible apply Keeps.ite
    | simp only [Keeps.mk1])

theorem State.attQuote_keeps {s0 : State} (s : State) (sid : Nat) (q : List Byte) (hk : Keeps s0 s) : Keeps s0 (State.attQuote s sid q) := by
  unfold State.attQuote
  try dsimp only
  repeat' (first
    | with_reducible assumption
    | with_reducible apply State.dropFrame_keeps
    | with_reducible apply State.enqueuePke_keeps
    | with_reducible apply State.roundVerdict_keeps
    | with_reducible apply Keeps.ite
    | simp only [Keeps.mk1]
    | with_reducible rfl
    | split)

theorem State.quoteServed_keeps {s0 : State} (s : State) (sid : Nat) (hk : Keeps s0 s) : Keeps s0 (State.quoteServed s sid) := by
  unfold State.quoteServed
  try dsimp only
  repeat' (first
    | with_reducible assumption
    | intro _
    | with_reducible apply State.roundVerdict_keeps
    | split)

theorem State.startRound_keeps {s0 : State} (addr : Nat) (s : State) (hk : Keeps s0 s) : Keeps s0 (State.startRound addr s) := by
  unfold State.startRound
  try dsimp only
  repeat' (first
    | with_reducible assumption
    | intro _
    | with_reducible apply State.attResult_keeps
    | with_reducible apply State.attWait_keeps
    | with_reducible apply State.cmdStart_keeps
    | with_reducible apply State.enqueue_keeps
    | with_reducible apply State.sendMsg_keeps
    | with_reducible apply State.wr_keeps
    | with_reducible apply Keeps.ite
    | with_reducible apply Keeps.foldl
    | with_reducible apply Keeps.foldlFst
    | simp only [Keeps.mk1])

theorem State.measureEnd_keeps {s0 : State} (s : State) (n : Nat) (good : Bool) (hk : Keeps s0 s) : Keeps s0 (State.measureEnd s n good) := by
  unfold State.measureEnd
  try dsimp only
  repeat' (first
    | with_reducible assumption
    | with_reducible apply Keeps.ite
    | simp only [Keeps.mk1]
    | with_reducible rfl
    | split)

theorem State.measureServed_keeps {s0 : State} (s : State) (n : Nat) (r : Req) (corrupt : Bool) (hk : Keeps s0 s) : Keeps s0 (State.measureServed s n r corrupt) := by
  unfold State.measureServed
  try dsimp only
  repeat' (first
    | with_reducible assumption
    | with_reducible apply State.delivered_keeps
    | with_reducible apply State.measureEnd_keeps
    | with_reducible apply State.requeue_keeps
    | with_reducible apply Keeps.ite)

theorem State.roundExpire_keeps {s0 : State} (s : State) (hk : Keeps s0 s) : Keeps s0 (State.roundExpire s) := by
  unfold State.roundExpire
  try dsimp only
  repeat' (first
    | with_reducible assumption
    | intro _
    | with_reducible apply State.dropIssuer_keeps
    | with_reducible apply State.dropReqs_keeps
    | with_reducible apply State.pumpPke_keeps
    | with_reducible apply Keeps.ite
    | with_reducible apply Keeps.iteFst
    | with_reducible apply Keeps.foldl
    | with_reducible apply Keeps.foldlFst
    | simp only [Keeps.mk1]
    | with_reducible rfl
    | split)

theorem State.roundEnd_keeps {s0 : State} (s : State) (code : Nat) (hk : Keeps s0 s) : Keeps s0 (State.roundEnd s code) := by
  unfold State.roundEnd
  try dsimp only
  repeat' (first
    | with_reducible assumption
    | with_reducible apply State.attEnd_keeps
    | with_reducible apply State.raise_keeps
    | with_reducible apply State.wr_keeps
    | simp only [Keeps.mk1])

theorem State.roundOver_keeps {s0 : State} (s : State) (code : Nat) (hk : Keeps s0 s) : Keeps s0 (State.roundOver s code) := by
  unfold State.roundOver
  try dsimp only
  repeat' (first
    | with_reducible assumption
    | with_reducible apply State.roundEnd_keeps)

theorem State.roundFinish_keeps {s0 : State} (s : State) (hk : Keeps s0 s) : Keeps s0 (State.roundFinish s) := by
  unfold State.roundFinish
  try dsimp only
  repeat' (first
    | with_reducible assumption
    | intro _
    | with_reducible apply State.awaitPke_keeps
    | with_reducible apply State.raise_keeps
    | with_reducible apply State.roundEnd_keeps
    | with_reducible apply State.roundOver_keeps
    | with_reducible apply State.signBoth_keeps
    | with_reducible apply State.sramStore_keeps
    | with_reducible apply State.wr_keeps
    | with_reducible apply Keeps.ite
    | with_reducible apply Keeps.iteFst
    | simp only [Keeps.mk1]
    | with_reducible rfl
    | split)

theorem State.attGranted_keeps {s0 : State} (s : State) (hk : Keeps s0 s) : Keeps s0 (State.attGranted s) := by
  unfold State.attGranted
  try dsimp only
  repeat' (first
    | with_reducible assumption
    | with_reducible apply State.cmdEnd_keeps
    | with_reducible apply State.roundFinish_keeps
    | with_reducible apply State.startAttIdentity_keeps
    | split)

theorem State.startVerdicts_keeps {s0 : State} (addr : Nat) (s : State) (hk : Keeps s0 s) : Keeps s0 (State.startVerdicts addr s) := by
  unfold State.startVerdicts
  try dsimp only
  repeat' (first
    | with_reducible assumption
    | with_reducible apply State.attResult_keeps
    | with_reducible apply State.sramStore_keeps
    | with_reducible apply Keeps.ite)

theorem State.sealRefuse_keeps {s0 : State} (s : State) (e code : Nat) (hk : Keeps s0 s) : Keeps s0 (State.sealRefuse s e code) := by
  unfold State.sealRefuse
  try dsimp only
  repeat' (first
    | with_reducible assumption
    | with_reducible apply State.aesRestore_keeps
    | with_reducible apply State.attResult_keeps
    | simp only [Keeps.mk1])

theorem State.sealTake_keeps {s0 : State} (s : State) (a : Nat) (hk : Keeps s0 s) : Keeps s0 (State.sealTake s a) := by
  unfold State.sealTake
  try dsimp only
  repeat' (first
    | with_reducible assumption
    | with_reducible apply State.cmdStart_keeps
    | with_reducible apply State.dgeBorrow_keeps
    | with_reducible apply State.sealRefuse_keeps
    | with_reducible apply State.setAes_keeps
    | with_reducible apply State.startAesRun_keeps
    | with_reducible apply Keeps.ite
    | simp only [Keeps.mk1]
    | with_reducible rfl
    | split)

theorem State.sealKick_keeps {s0 : State} (s : State) (hk : Keeps s0 s) : Keeps s0 (State.sealKick s) := by
  unfold State.sealKick
  try dsimp only
  repeat' (first
    | with_reducible assumption
    | with_reducible apply State.aesSave_keeps
    | with_reducible apply State.sealTake_keeps
    | with_reducible apply Keeps.ite
    | split)

theorem State.sealDone_keeps {s0 : State} (s : State) (e : Nat) (hk : Keeps s0 s) : Keeps s0 (State.sealDone s e) := by
  unfold State.sealDone
  try dsimp only
  repeat' (first
    | with_reducible assumption
    | with_reducible apply State.aesRestore_keeps
    | with_reducible apply State.attResult_keeps
    | with_reducible apply State.showDkr_keeps
    | with_reducible apply Keeps.ite
    | simp only [Keeps.mk1]
    | with_reducible rfl
    | split)

theorem State.startSealOp_keeps {s0 : State} (addr : Nat) (s : State) (hk : Keeps s0 s) : Keeps s0 (State.startSealOp addr s) := by
  unfold State.startSealOp
  try dsimp only
  repeat' (first
    | with_reducible assumption
    | with_reducible apply State.attResult_keeps
    | with_reducible apply State.cmdStart_keeps
    | with_reducible apply State.sealKick_keeps
    | simp only [Keeps.mk1]
    | with_reducible rfl
    | split)

theorem State.aesEnd_keeps {s0 : State} (s : State) (e : Nat) (hk : Keeps s0 s) : Keeps s0 (State.aesEnd s e) := by
  unfold State.aesEnd
  try dsimp only
  repeat' (first
    | with_reducible assumption
    | with_reducible apply State.aesFinish_keeps
    | with_reducible apply State.sealDone_keeps
    | with_reducible apply State.sealKick_keeps)

theorem State.aesAbort_keeps {s0 : State} (e : Fin 2) (s : State) (hk : Keeps s0 s) : Keeps s0 (State.aesAbort e s) := by
  unfold State.aesAbort
  try dsimp only
  repeat' (first
    | with_reducible assumption
    | with_reducible apply State.abortAes_keeps
    | with_reducible apply State.abortSaved_keeps
    | with_reducible apply State.sealKick_keeps
    | with_reducible apply State.setCmdSlot_keeps
    | with_reducible apply Keeps.ite)

end Sys2Proof.Machine
end

