-- ==== Sys2Proof/Laws/KeepsHandshake.lean ====
section
/-! SUPPORT. What the operations of Machine/Handshake.lean keep. -/

namespace Sys2Proof.Machine

theorem State.ephemeral_keeps {s0 : State} (s : State) (r : Nat) (hk : Keeps s0 s) : Keeps s0 (State.ephemeral s r) := by
  unfold State.ephemeral
  try dsimp only
  repeat' (first
    | with_reducible assumption
    | with_reducible apply State.draw_keeps
    | with_reducible apply State.setKeyReg_keeps)

theorem State.ownHello_keeps {s0 : State} (s : State) (suite role sid eph : Nat) (pre : List Byte) (hk : Keeps s0 s) : Keeps s0 (State.ownHello s suite role sid eph pre).1 := by
  unfold State.ownHello
  try dsimp only
  repeat' (first
    | with_reducible assumption
    | with_reducible apply State.draw_keeps
    | with_reducible apply State.signBoth_keeps
    | with_reducible apply Keeps.ite
    | with_reducible apply Keeps.iteFst
    | split)

theorem State.hold_keeps {s0 : State} (s : State) (h : Held) (hk : Keeps s0 s) : Keeps s0 (State.hold s h) := by
  unfold State.hold
  try dsimp only
  repeat' (first
    | with_reducible assumption
    | simp only [Keeps.mk1])

theorem State.holdPke_keeps {s0 : State} (s : State) (h : Held) (hk : Keeps s0 s) : Keeps s0 (State.holdPke s h) := by
  unfold State.holdPke
  try dsimp only
  repeat' (first
    | with_reducible assumption
    | with_reducible apply State.awaitPke_keeps
    | with_reducible apply State.hold_keeps
    | with_reducible apply Keeps.ite)

theorem State.helloIn_keeps {s0 : State} (s : State) (medium peer sid seq : Nat) (m : List Byte) (hk : Keeps s0 s) : Keeps s0 (State.helloIn s medium peer sid seq m) := by
  unfold State.helloIn
  try dsimp only
  repeat' (first
    | with_reducible assumption
    | intro _
    | with_reducible apply State.bump_keeps
    | with_reducible apply State.enqueuePke_keeps
    | with_reducible apply State.ephemeral_keeps
    | with_reducible apply State.holdPke_keeps
    | with_reducible apply State.ownHello_keeps
    | with_reducible apply State.refuseHello_keeps
    | with_reducible apply State.sendMsg_keeps
    | with_reducible apply State.setSess_keeps
    | with_reducible apply State.toIdle_keeps
    | with_reducible apply Keeps.ite
    | with_reducible apply Keeps.iteFst
    | simp only [Keeps.mk1]
    | with_reducible rfl
    | split)

theorem State.replyIn_keeps {s0 : State} (s : State) (sid : Nat) (m : List Byte) (hk : Keeps s0 s) : Keeps s0 (State.replyIn s sid m) := by
  unfold State.replyIn
  try dsimp only
  repeat' (first
    | with_reducible assumption
    | with_reducible apply State.enqueuePke_keeps
    | with_reducible apply State.holdPke_keeps
    | with_reducible apply State.refuseHello_keeps
    | with_reducible apply State.setSess_keeps
    | with_reducible apply State.toIdle_keeps
    | with_reducible apply Keeps.ite
    | simp only [Keeps.mk1]
    | with_reducible rfl
    | split)

theorem State.keysDone_keeps {s0 : State} (s : State) (sid : Nat) (hk : Keeps s0 s) : Keeps s0 (State.keysDone s sid) := by
  unfold State.keysDone
  try dsimp only
  repeat' (first
    | with_reducible assumption
    | with_reducible apply State.dgeBorrow_keeps
    | with_reducible apply State.pumpPke_keeps
    | with_reducible apply State.sendMsg_keeps
    | with_reducible apply State.sessEngine_keeps
    | with_reducible apply State.setKeyReg_keeps
    | with_reducible apply State.setSched_keeps
    | with_reducible apply State.setSess_keeps
    | with_reducible apply State.toIdle_keeps
    | with_reducible apply Keeps.ite
    | simp only [Keeps.mk1]
    | with_reducible rfl
    | split)

theorem State.confirmIn_keeps {s0 : State} (s : State) (sid : Nat) (m : List Byte) (hk : Keeps s0 s) : Keeps s0 (State.confirmIn s sid m) := by
  unfold State.confirmIn
  try dsimp only
  repeat' (first
    | with_reducible assumption
    | with_reducible apply State.raise_keeps
    | with_reducible apply State.sendMsg_keeps
    | with_reducible apply State.setSess_keeps
    | with_reducible apply State.toIdle_keeps
    | with_reducible apply Keeps.ite)

theorem State.authFail_keeps {s0 : State} (s : State) (sid type : Nat) (hk : Keeps s0 s) : Keeps s0 (State.authFail s sid type) := by
  unfold State.authFail
  try dsimp only
  repeat' (first
    | with_reducible assumption
    | with_reducible apply State.bump_keeps
    | with_reducible apply State.raise_keeps
    | with_reducible apply State.setSess_keeps
    | with_reducible apply State.toIdle_keeps
    | with_reducible apply Keeps.ite)

theorem State.stxMessage_keeps {s0 : State} (s : State) (sid type : Nat) (m : List Byte) (hk : Keeps s0 s) : Keeps s0 (State.stxMessage s sid type m) := by
  unfold State.stxMessage
  try dsimp only
  repeat' (first
    | with_reducible assumption
    | with_reducible apply State.attQuote_keeps
    | with_reducible apply State.confirmIn_keeps
    | with_reducible apply State.dropFrame_keeps
    | with_reducible apply State.peerClose_keeps
    | with_reducible apply State.replyIn_keeps
    | with_reducible apply State.toFw_keeps
    | with_reducible apply Keeps.ite)

theorem State.deliver_keeps {s0 : State} (sid n : Nat) (s : State) (h : Keeps s0 s) : Keeps s0 (State.deliver sid n s) := by
  induction n generalizing s with
  | zero => exact h
  | succ n ih =>
    unfold State.deliver
    repeat' (first
      | with_reducible apply ih
      | with_reducible assumption
      | intro _
      | with_reducible apply State.dropFrame_keeps
      | with_reducible apply State.setSess_keeps
      | with_reducible apply State.stxMessage_keeps
      | with_reducible apply Keeps.ite
      | with_reducible apply Keeps.iteFst
      | simp only []
      | with_reducible rfl
      | split)

theorem State.rxBody_keeps {s0 : State} (s : State) (sid type seq : Nat) (more : Bool) (body : Option (List Byte)) (hk : Keeps s0 s) : Keeps s0 (State.rxBody s sid type seq more body) := by
  unfold State.rxBody
  try dsimp only
  repeat' (first
    | with_reducible assumption
    | with_reducible apply State.bufStore_keeps
    | with_reducible apply State.bump_keeps
    | with_reducible apply State.deliver_keeps
    | with_reducible apply State.setSess_keeps
    | with_reducible apply Keeps.ite
    | simp only [Keeps.mk1]
    | with_reducible rfl
    | split)

theorem State.rxPart_keeps {s0 : State} (s : State) (sid type seq : Nat) (more : Bool) (head payload : List Byte) (hk : Keeps s0 s) : Keeps s0 (State.rxPart s sid type seq more head payload) := by
  unfold State.rxPart
  try dsimp only
  repeat' (first
    | with_reducible assumption
    | with_reducible apply State.authFail_keeps
    | with_reducible apply State.dropFrame_keeps
    | with_reducible apply State.rxBody_keeps
    | with_reducible apply State.sessEngine_keeps
    | with_reducible apply State.setSess_keeps
    | with_reducible apply Keeps.ite
    | split)

theorem State.rxHello_keeps {s0 : State} (s : State) (medium peer sid seq : Nat) (more : Bool) (payload : List Byte) (hk : Keeps s0 s) : Keeps s0 (State.rxHello s medium peer sid seq more payload) := by
  unfold State.rxHello
  try dsimp only
  repeat' (first
    | with_reducible assumption
    | intro _
    | with_reducible apply State.bufStore_keeps
    | with_reducible apply State.bump_keeps
    | with_reducible apply State.helloIn_keeps
    | with_reducible apply Keeps.ite
    | simp only [Keeps.mk1]
    | with_reducible rfl
    | split)

theorem State.takeFrame_keeps {s0 : State} (s : State) (medium peer : Nat) (f : List Byte) (hk : Keeps s0 s) : Keeps s0 (State.takeFrame s medium peer f) := by
  unfold State.takeFrame
  try dsimp only
  repeat' (first
    | with_reducible assumption
    | with_reducible apply State.dropFrame_keeps
    | with_reducible apply State.hold_keeps
    | with_reducible apply State.rxHello_keeps
    | with_reducible apply State.rxPart_keeps
    | with_reducible apply Keeps.ite)

theorem State.stxFrame_keeps {s0 : State} (s : State) (medium peer : Nat) (f : List Byte) (hk : Keeps s0 s) : Keeps s0 (State.stxFrame s medium peer f) := by
  unfold State.stxFrame
  try dsimp only
  repeat' (first
    | with_reducible assumption
    | with_reducible apply State.dropFrame_keeps
    | with_reducible apply State.linkAck_keeps
    | with_reducible apply State.takeFrame_keeps
    | with_reducible apply State.sendAck_keeps
    | with_reducible apply Keeps.ite)

theorem State.startStxOpen_keeps {s0 : State} (addr : Nat) (s : State) (hk : Keeps s0 s) : Keeps s0 (State.startStxOpen addr s) := by
  unfold State.startStxOpen
  try dsimp only
  repeat' (first
    | with_reducible assumption
    | with_reducible apply State.awaitPke_keeps
    | with_reducible apply State.cmdStart_keeps
    | with_reducible apply State.ephemeral_keeps
    | with_reducible apply State.ownHello_keeps
    | with_reducible apply State.sendMsg_keeps
    | with_reducible apply State.setSess_keeps
    | with_reducible apply State.stxResult_keeps
    | with_reducible apply State.stxWait_keeps
    | with_reducible apply State.toIdle_keeps
    | with_reducible apply Keeps.ite
    | with_reducible apply Keeps.iteFst
    | simp only [Keeps.mk1]
    | with_reducible rfl
    | split)

theorem State.stxGranted_keeps {s0 : State} (s : State) (hk : Keeps s0 s) : Keeps s0 (State.stxGranted s) := by
  unfold State.stxGranted
  try dsimp only
  repeat' (first
    | with_reducible assumption
    | with_reducible apply State.cmdEnd_keeps
    | with_reducible apply State.startStxOpen_keeps
    | split)

theorem State.wholeMessage_keeps {s0 : State} (s : State) (m : StxMessage) (type : Nat) (hk : Keeps s0 s) : Keeps s0 (State.wholeMessage s m type) := by
  unfold State.wholeMessage
  try dsimp only
  repeat' (first
    | with_reducible assumption
    | with_reducible apply State.authFail_keeps
    | with_reducible apply State.dropFrame_keeps
    | with_reducible apply State.hold_keeps
    | with_reducible apply State.setSess_keeps
    | with_reducible apply State.stxMessage_keeps
    | with_reducible apply Keeps.ite)

theorem State.wholeHello_keeps {s0 : State} (s : State) (m : StxMessage) (hk : Keeps s0 s) : Keeps s0 (State.wholeHello s m) := by
  unfold State.wholeHello
  try dsimp only
  repeat' (first
    | with_reducible assumption
    | with_reducible apply State.helloIn_keeps
    | with_reducible apply State.hold_keeps
    | with_reducible apply Keeps.ite)

theorem State.releaseOne_keeps {s0 : State} (s : State) (h : Held) (hk : Keeps s0 s) : Keeps s0 (State.releaseOne s h) := by
  unfold State.releaseOne
  try dsimp only
  repeat' (first
    | with_reducible assumption
    | with_reducible apply State.takeFrame_keeps
    | with_reducible apply State.wholeHello_keeps
    | with_reducible apply State.wholeMessage_keeps
    | with_reducible apply State.replyIn_keeps
    | with_reducible apply Keeps.ite
    | split)

theorem State.releaseHeld_keeps {s0 : State} (s : State) (hk : Keeps s0 s) : Keeps s0 (State.releaseHeld s) :=
  Keeps.foldl _ _ _ (fun _ h hx => State.releaseOne_keeps _ h hx) (by simp only [Keeps.mk1]; exact hk)

end Sys2Proof.Machine
end

