-- ==== Sys2Proof/Laws/KeepsJournal.lean ====
section
/-! SUPPORT. What the operations of Machine/Journal.lean keep. -/

namespace Sys2Proof.Machine

theorem State.setLedger_keeps {s0 : State} (s : State) (l : LedgerSt) (hk : Keeps s0 s) : Keeps s0 (State.setLedger s l) := by
  unfold State.setLedger
  try dsimp only
  repeat' (first
    | with_reducible assumption
    | simp only [Keeps.mk1])

theorem State.setJournal_keeps {s0 : State} (s : State) (j : List JRec) (hk : Keeps s0 s) : Keeps s0 (State.setJournal s j) := by
  unfold State.setJournal
  try dsimp only
  repeat' (first
    | with_reducible assumption
    | with_reducible apply State.raise_keeps
    | with_reducible apply State.setLedger_keeps
    | with_reducible apply State.wr_keeps
    | with_reducible apply Keeps.ite)

theorem State.setRing_keeps {s0 : State} (s : State) (r : Nat) (v : Ring) (hk : Keeps s0 s) : Keeps s0 (State.setRing s r v) := by
  unfold State.setRing
  try dsimp only
  repeat' (first
    | with_reducible assumption
    | simp only [Keeps.mk1])

theorem State.closePage_keeps {s0 : State} (s : State) (r : Nat) (hk : Keeps s0 s) : Keeps s0 (State.closePage s r) := by
  unfold State.closePage
  try dsimp only
  repeat' (first
    | with_reducible assumption
    | with_reducible apply State.flashProgram_keeps
    | with_reducible apply State.setRing_keeps
    | with_reducible apply Keeps.ite
    | simp only [Keeps.mk1]
    | with_reducible rfl
    | split)

theorem State.ringErased_keeps {s0 : State} (s : State) (r : Nat) (hk : Keeps s0 s) : Keeps s0 (State.ringErased s r) := by
  unfold State.ringErased
  try dsimp only
  repeat' (first
    | with_reducible assumption
    | with_reducible apply State.flashErase_keeps
    | with_reducible apply State.setRing_keeps)

theorem State.eraseAsk_keeps {s0 : State} (s : State) (r : Nat) (hk : Keeps s0 s) : Keeps s0 (State.eraseAsk s r) := by
  unfold State.eraseAsk
  try dsimp only
  repeat' (first
    | with_reducible assumption
    | with_reducible apply State.enqueue_keeps)

theorem State.openPage_keeps {s0 : State} (s : State) (r : Nat) (hk : Keeps s0 s) : Keeps s0 (State.openPage s r) := by
  unfold State.openPage
  try dsimp only
  repeat' (first
    | with_reducible assumption
    | with_reducible apply State.eraseAsk_keeps
    | with_reducible apply State.flashProgram_keeps
    | with_reducible apply State.ringErased_keeps
    | with_reducible apply State.setRing_keeps
    | with_reducible apply Keeps.ite)

theorem State.blockPlace_keeps {s0 : State} (s : State) (r n : Nat) (hk : Keeps s0 s) : Keeps s0 (State.blockPlace s r n) := by
  unfold State.blockPlace
  try dsimp only
  repeat' (first
    | with_reducible assumption
    | with_reducible apply State.closePage_keeps
    | with_reducible apply State.openPage_keeps
    | with_reducible apply State.setRing_keeps
    | with_reducible apply Keeps.ite)

theorem State.nextBlock_keeps {s0 : State} (s : State) (hk : Keeps s0 s) : Keeps s0 (State.nextBlock s) := by
  unfold State.nextBlock
  try dsimp only
  repeat' (first
    | with_reducible assumption
    | intro _
    | with_reducible apply State.blockPlace_keeps
    | with_reducible apply State.enqueue_keeps
    | with_reducible apply State.setLedger_keeps
    | with_reducible apply Keeps.ite
    | with_reducible apply Keeps.iteFst
    | simp only [Keeps.mk1]
    | with_reducible rfl
    | split)

theorem State.commitStart_keeps {s0 : State} (s : State) (hk : Keeps s0 s) : Keeps s0 (State.commitStart s) := by
  unfold State.commitStart
  try dsimp only
  repeat' (first
    | with_reducible assumption
    | with_reducible apply State.nextBlock_keeps
    | with_reducible apply Keeps.ite)

theorem State.blockWritten_keeps {s0 : State} (s : State) (hk : Keeps s0 s) : Keeps s0 (State.blockWritten s) := by
  unfold State.blockWritten
  try dsimp only
  repeat' (first
    | with_reducible assumption
    | with_reducible apply State.bump_keeps
    | with_reducible apply State.flashProgram_keeps
    | with_reducible apply State.raise_keeps
    | with_reducible apply State.setJournal_keeps
    | with_reducible apply State.setLedger_keeps
    | with_reducible apply State.setRing_keeps
    | simp only [Keeps.mk1]
    | with_reducible rfl
    | split)

theorem State.blockTorn_keeps {s0 : State} (s : State) (hk : Keeps s0 s) : Keeps s0 (State.blockTorn s) := by
  unfold State.blockTorn
  try dsimp only
  repeat' (first
    | with_reducible assumption
    | intro _
    | with_reducible apply State.flashProgram_keeps
    | with_reducible apply State.setLedger_keeps
    | with_reducible apply State.spend_keeps
    | with_reducible apply Keeps.ite
    | with_reducible apply Keeps.iteFst
    | simp only [Keeps.mk1]
    | with_reducible rfl
    | split)

theorem State.putItem_keeps {s0 : State} (s : State) (ring : Nat) (urgent : Bool) (mrt : Nat) (data : List Byte) (hk : Keeps s0 s) : Keeps s0 (State.putItem s ring urgent mrt data) := by
  unfold State.putItem
  try dsimp only
  repeat' (first
    | with_reducible assumption
    | with_reducible apply State.setJournal_keeps
    | with_reducible apply State.setLedger_keeps
    | with_reducible apply Keeps.ite
    | simp only [Keeps.mk1]
    | with_reducible rfl
    | split)

theorem State.recordAt_keeps {s0 : State} (s : State) (mrt t : Nat) (body : List Byte) (hk : Keeps s0 s) : Keeps s0 (State.recordAt s mrt t body) := by
  unfold State.recordAt
  try dsimp only
  repeat' (first
    | with_reducible assumption
    | intro _
    | with_reducible apply State.commitStart_keeps
    | with_reducible apply State.putItem_keeps
    | with_reducible apply Keeps.ite)

theorem State.record_keeps {s0 : State} (s : State) (t : Nat) (body : List Byte) (hk : Keeps s0 s) : Keeps s0 (State.record s t body) := by
  unfold State.record
  try dsimp only
  repeat' (first
    | with_reducible assumption
    | with_reducible apply State.recordAt_keeps)

theorem State.recordEvent_keeps {s0 : State} (s : State) (mrt code : Nat) (data : List Byte) (hk : Keeps s0 s) : Keeps s0 (State.recordEvent s mrt code data) := by
  unfold State.recordEvent
  try dsimp only
  repeat' (first
    | with_reducible assumption
    | with_reducible apply State.recordAt_keeps)

theorem State.keyLost_keeps {s0 : State} (s : State) (hk : Keeps s0 s) : Keeps s0 (State.keyLost s) := by
  unfold State.keyLost
  try dsimp only
  repeat' (first
    | with_reducible assumption
    | with_reducible apply State.raise_keeps
    | with_reducible apply State.setLedger_keeps
    | with_reducible apply State.wr_keeps
    | with_reducible apply Keeps.ite)

theorem State.keyFollows_keeps {s0 : State} (s : State) (hk : Keeps s0 s) : Keeps s0 (State.keyFollows s) := by
  unfold State.keyFollows
  try dsimp only
  repeat' (first
    | with_reducible assumption
    | with_reducible apply State.keyLost_keeps
    | with_reducible apply Keeps.ite)

theorem State.keyDerive_keeps {s0 : State} (s : State) (hk : Keeps s0 s) : Keeps s0 (State.keyDerive s) := by
  unfold State.keyDerive
  try dsimp only
  repeat' (first
    | with_reducible assumption
    | with_reducible apply State.cacheFill_keeps
    | with_reducible apply State.captureFault_keeps
    | with_reducible apply State.maskStall_keeps
    | with_reducible apply State.setLedger_keeps
    | with_reducible apply State.wr_keeps
    | with_reducible apply Keeps.ite)

theorem State.eraseAgain_keeps {s0 : State} (s : State) (r : Nat) (hk : Keeps s0 s) : Keeps s0 (State.eraseAgain s r) := by
  unfold State.eraseAgain
  try dsimp only
  repeat' (first
    | with_reducible assumption
    | with_reducible apply State.eraseAsk_keeps
    | with_reducible apply Keeps.ite)

theorem State.scanRing_keeps {s0 : State} (s : State) (r : Nat) (hk : Keeps s0 s) : Keeps s0 (State.scanRing s r).1 := by
  unfold State.scanRing
  try dsimp only
  repeat' (first
    | with_reducible assumption
    | with_reducible apply State.bump_keeps
    | with_reducible apply State.closePage_keeps
    | with_reducible apply State.raise_keeps
    | with_reducible apply State.setRing_keeps
    | with_reducible apply State.wr_keeps
    | with_reducible apply Keeps.ite
    | with_reducible apply Keeps.iteFst
    | simp only [Keeps.mk1]
    | with_reducible rfl
    | split)

end Sys2Proof.Machine
end

