-- ==== Sys2Proof/Laws/KeepsTimeBase.lean ====
section
/-! SUPPORT. What the operations of Machine/TimeBase.lean keep. -/

namespace Sys2Proof.Machine

theorem State.setTime_keeps {s0 : State} (s : State) (t : TimeSt) (hk : Keeps s0 s) : Keeps s0 (State.setTime s t) := by
  unfold State.setTime
  try dsimp only
  repeat' (first
    | with_reducible assumption
    | simp only [Keeps.mk1])

theorem State.setTotals_keeps {s0 : State} (s : State) (k : Nat) (v : Totals) (hk : Keeps s0 s) : Keeps s0 (State.setTotals s k v) := by
  unfold State.setTotals
  try dsimp only
  repeat' (first
    | with_reducible assumption
    | with_reducible apply State.setTime_keeps)

theorem State.retroCheck_keeps {s0 : State} (s : State) (hk : Keeps s0 s) : Keeps s0 (State.retroCheck s) := by
  unfold State.retroCheck
  try dsimp only
  repeat' (first
    | with_reducible assumption
    | with_reducible apply State.raise_keeps
    | with_reducible apply State.wrb_keeps
    | with_reducible apply Keeps.ite)

theorem State.adoptMeter_keeps {s0 : State} (s : State) (hk : Keeps s0 s) : Keeps s0 (State.adoptMeter s) := by
  unfold State.adoptMeter
  try dsimp only
  repeat' (first
    | with_reducible assumption
    | with_reducible apply State.setTime_keeps)

theorem State.crossKind_keeps {s0 : State} (sec mrt : Nat) (s : State) (k : Nat) (hk : Keeps s0 s) : Keeps s0 (State.crossKind sec mrt s k) := by
  unfold State.crossKind
  try dsimp only
  repeat' (first
    | with_reducible assumption
    | with_reducible apply State.adoptMeter_keeps
    | with_reducible apply State.raise_keeps
    | with_reducible apply State.recordAt_keeps
    | with_reducible apply State.setTotals_keeps
    | with_reducible apply State.wr_keeps
    | with_reducible apply Keeps.ite)

theorem State.crossAt_keeps {s0 : State} (s : State) (sec mrt : Nat) (hk : Keeps s0 s) : Keeps s0 (State.crossAt s sec mrt) := by
  unfold State.crossAt
  try dsimp only
  repeat' (first
    | with_reducible assumption
    | intro _
    | with_reducible apply State.crossKind_keeps
    | with_reducible apply Keeps.foldl)

theorem State.crossNow_keeps {s0 : State} (s : State) (hk : Keeps s0 s) : Keeps s0 (State.crossNow s) := by
  unfold State.crossNow
  try dsimp only
  repeat' (first
    | with_reducible assumption
    | with_reducible apply State.crossAt_keeps
    | with_reducible apply State.retroCheck_keeps
    | with_reducible apply Keeps.ite)

theorem State.setCoder_keeps {s0 : State} (s : State) (c : Coder) (hk : Keeps s0 s) : Keeps s0 (State.setCoder s c) := by
  unfold State.setCoder
  try dsimp only
  repeat' (first
    | with_reducible assumption
    | with_reducible apply State.setLedger_keeps)

theorem State.speedItem_keeps {s0 : State} (s : State) (bs : List Byte) (hk : Keeps s0 s) : Keeps s0 (State.speedItem s bs) := by
  unfold State.speedItem
  try dsimp only
  repeat' (first
    | with_reducible assumption
    | with_reducible apply State.putItem_keeps)

theorem State.knot_keeps {s0 : State} (s : State) (t v : Nat) (hk : Keeps s0 s) : Keeps s0 (State.knot s t v) := by
  unfold State.knot
  try dsimp only
  repeat' (first
    | with_reducible assumption
    | with_reducible apply State.setCoder_keeps
    | with_reducible apply State.speedItem_keeps)

theorem State.minuteEnd_keeps {s0 : State} (s : State) (hk : Keeps s0 s) : Keeps s0 (State.minuteEnd s) := by
  unfold State.minuteEnd
  try dsimp only
  repeat' (first
    | with_reducible assumption
    | with_reducible apply State.setCoder_keeps
    | with_reducible apply State.speedItem_keeps
    | with_reducible apply Keeps.ite
    | simp only [Keeps.mk1]
    | with_reducible rfl
    | split)

theorem State.coderFlush_keeps {s0 : State} (s : State) (hk : Keeps s0 s) : Keeps s0 (State.coderFlush s) := by
  unfold State.coderFlush
  try dsimp only
  repeat' (first
    | with_reducible assumption
    | with_reducible apply State.knot_keeps
    | with_reducible apply Keeps.ite)

theorem State.coderBreak_keeps {s0 : State} (s : State) (hk : Keeps s0 s) : Keeps s0 (State.coderBreak s) := by
  unfold State.coderBreak
  try dsimp only
  repeat' (first
    | with_reducible assumption
    | with_reducible apply State.coderFlush_keeps
    | with_reducible apply State.minuteEnd_keeps
    | with_reducible apply State.setCoder_keeps
    | with_reducible apply Keeps.ite)

theorem State.recordGap_keeps {s0 : State} (s : State) (cause frm till : Nat) (hk : Keeps s0 s) : Keeps s0 (State.recordGap s cause frm till) := by
  unfold State.recordGap
  try dsimp only
  repeat' (first
    | with_reducible assumption
    | with_reducible apply State.coderBreak_keeps
    | with_reducible apply State.record_keeps)

theorem State.setTimeChallenge_keeps {s0 : State} (s : State) (c : Option (BitVec 128 × Nat)) (hk : Keeps s0 s) : Keeps s0 (State.setTimeChallenge s c) := by
  unfold State.setTimeChallenge
  try dsimp only
  repeat' (first
    | with_reducible assumption
    | intro _
    | with_reducible apply State.setTime_keeps
    | with_reducible apply State.wr_keeps
    | with_reducible apply Keeps.foldl)

theorem State.setSlew_keeps {s0 : State} (s : State) (d : Int) (hk : Keeps s0 s) : Keeps s0 (State.setSlew s d) := by
  unfold State.setSlew
  try dsimp only
  repeat' (first
    | with_reducible assumption
    | with_reducible apply State.setTime_keeps
    | with_reducible apply State.wr_keeps
    | with_reducible apply State.wrb_keeps)

theorem State.timeStep_keeps {s0 : State} (s : State) (d : Int) (rt : Nat) (hk : Keeps s0 s) : Keeps s0 (State.timeStep s d rt) := by
  unfold State.timeStep
  try dsimp only
  repeat' (first
    | with_reducible assumption
    | with_reducible apply State.bump_keeps
    | with_reducible apply State.coderBreak_keeps
    | with_reducible apply State.crossNow_keeps
    | with_reducible apply State.raise_keeps
    | with_reducible apply State.record_keeps
    | with_reducible apply State.retroCheck_keeps
    | with_reducible apply State.setSlew_keeps
    | with_reducible apply State.setTime_keeps
    | with_reducible apply State.wr_keeps
    | with_reducible apply Keeps.ite)

theorem State.timeRefuse_keeps {s0 : State} (s : State) (code : Nat) (hk : Keeps s0 s) : Keeps s0 (State.timeRefuse s code) := by
  unfold State.timeRefuse
  try dsimp only
  repeat' (first
    | with_reducible assumption
    | with_reducible apply State.cmdEnd_keeps
    | with_reducible apply State.refuse_keeps
    | with_reducible apply State.wr_keeps)

theorem State.timeApplyRun_keeps {s0 : State} (addr : Nat) (s : State) (hk : Keeps s0 s) : Keeps s0 (State.timeApplyRun addr s) := by
  unfold State.timeApplyRun
  try dsimp only
  repeat' (first
    | with_reducible assumption
    | with_reducible apply State.bump_keeps
    | with_reducible apply State.cmdEnd_keeps
    | with_reducible apply State.raise_keeps
    | with_reducible apply State.setSlew_keeps
    | with_reducible apply State.setTimeChallenge_keeps
    | with_reducible apply State.timeRefuse_keeps
    | with_reducible apply State.timeStep_keeps
    | with_reducible apply State.wr_keeps
    | with_reducible apply Keeps.ite
    | split)

theorem State.startTimeApply_keeps {s0 : State} (addr : Nat) (s : State) (hk : Keeps s0 s) : Keeps s0 (State.startTimeApply addr s) := by
  unfold State.startTimeApply
  try dsimp only
  repeat' (first
    | with_reducible assumption
    | with_reducible apply State.awaitPke_keeps
    | with_reducible apply State.cmdStart_keeps
    | with_reducible apply State.timeApplyRun_keeps
    | with_reducible apply State.timeRefuse_keeps
    | with_reducible apply State.wr_keeps
    | with_reducible apply Keeps.ite)

theorem State.timeGranted_keeps {s0 : State} (s : State) (hk : Keeps s0 s) : Keeps s0 (State.timeGranted s) := by
  unfold State.timeGranted
  try dsimp only
  repeat' (first
    | with_reducible assumption
    | with_reducible apply State.timeApplyRun_keeps
    | split)

theorem State.startTimeChallenge_keeps {s0 : State} (s : State) (hk : Keeps s0 s) : Keeps s0 (State.startTimeChallenge s) := by
  unfold State.startTimeChallenge
  try dsimp only
  repeat' (first
    | with_reducible assumption
    | with_reducible apply State.draw_keeps
    | with_reducible apply State.setCmdSlot_keeps
    | with_reducible apply State.setTimeChallenge_keeps
    | with_reducible apply State.wr_keeps
    | with_reducible apply Keeps.ite)

theorem State.startTimeProgramAuth_keeps {s0 : State} (addr : Nat) (s : State) (h : Keeps s0 s) :
    Keeps s0 (State.startTimeProgramAuth addr s) := by
  unfold State.startTimeProgramAuth
  split
  · exact State.timeRefuse_keeps _ _ h
  split
  · exact State.timeRefuse_keeps _ _ h
  split
  · exact State.cmdStart_keeps _ _ _ _ h
  · exact ⟨h.1, h.2, h.3, h.4, h.5, h.6, h.7, h.8.trans ⟨rfl, rfl, id, id, id, id, id, id, id⟩, h.9⟩

theorem State.timeResume_keeps {s0 : State} (s : State) (hk : Keeps s0 s) : Keeps s0 (State.timeResume s) := by
  unfold State.timeResume
  try dsimp only
  repeat' (first
    | with_reducible assumption
    | with_reducible apply State.cmdEnd_keeps
    | with_reducible apply State.startTimeProgramAuth_keeps
    | split)

theorem State.slewTick_keeps {s0 : State} (s : State) (hk : Keeps s0 s) : Keeps s0 (State.slewTick s) := by
  unfold State.slewTick
  try dsimp only
  repeat' (first
    | with_reducible assumption
    | with_reducible apply State.retroCheck_keeps
    | with_reducible apply State.setSlew_keeps
    | with_reducible apply State.setTime_keeps
    | with_reducible apply Keeps.ite)

theorem State.startGap_keeps {s0 : State} (s : State) (hk : Keeps s0 s) : Keeps s0 (State.startGap s) := by
  unfold State.startGap
  try dsimp only
  repeat' (first
    | with_reducible assumption
    | with_reducible apply State.setSlew_keeps
    | with_reducible apply State.setTime_keeps
    | with_reducible apply State.wr_keeps)

theorem State.latchTime_keeps {s0 : State} (s : State) (hk : Keeps s0 s) : Keeps s0 (State.latchTime s) := by
  unfold State.latchTime
  try dsimp only
  repeat' (first
    | with_reducible assumption
    | with_reducible apply State.setTime_keeps)

theorem State.tick_keeps {s0 : State} (s : State) (hk : Keeps s0 s) : Keeps s0 (State.tick s) := by
  unfold State.tick
  try dsimp only
  repeat' (first
    | with_reducible assumption
    | with_reducible apply State.setTime_keeps
    | with_reducible apply Keeps.ite)

end Sys2Proof.Machine
end

