-- ==== Sys2Proof/Laws/KeepsLedger.lean ====
section
/-! SUPPORT. What the operations of Machine/Ledger.lean keep. -/

namespace Sys2Proof.Machine

theorem State.replayTo_keeps {s0 : State} (m n : Nat) (s : State) (h : Keeps s0 s) : Keeps s0 (State.replayTo m n s) := by
  induction n generalizing s with
  | zero => exact h
  | succ n ih =>
    unfold State.replayTo
    repeat' (first
      | with_reducible apply ih
      | with_reducible assumption
      | intro _
      | with_reducible apply State.crossAt_keeps
      | with_reducible apply Keeps.ite)

theorem State.accrue_keeps {s0 : State} (s : State) (pulses moving ign : Nat) (hk : Keeps s0 s) : Keeps s0 (State.accrue s pulses moving ign) := by
  unfold State.accrue
  try dsimp only
  repeat' (first
    | with_reducible assumption
    | intro _
    | with_reducible apply State.setLedger_keeps
    | with_reducible apply State.setTotals_keeps
    | with_reducible apply Keeps.foldl
    | with_reducible apply Keeps.foldlFst
    | simp only [Keeps.mk1])

theorem State.importOne_keeps {s0 : State} (s : State) (x : Imported) (hk : Keeps s0 s) : Keeps s0 (State.importOne s x) := by
  unfold State.importOne
  try dsimp only
  repeat' (first
    | with_reducible assumption
    | with_reducible apply State.accrue_keeps
    | with_reducible apply State.recordEvent_keeps
    | with_reducible apply State.replayTo_keeps)

theorem State.sinceWake_keeps {s0 : State} (s : State) (wp : Nat) (hk : Keeps s0 s) : Keeps s0 (State.sinceWake s wp) := by
  unfold State.sinceWake
  try dsimp only
  repeat' (first
    | with_reducible assumption
    | with_reducible apply State.accrue_keeps
    | with_reducible apply State.setLedger_keeps
    | with_reducible apply Keeps.ite)

theorem State.cloveImport_keeps {s0 : State} (s : State) (hk : Keeps s0 s) : Keeps s0 (State.cloveImport s) := by
  unfold State.cloveImport
  try dsimp only
  repeat' (first
    | with_reducible assumption
    | intro _
    | with_reducible apply State.importOne_keeps
    | with_reducible apply State.replayTo_keeps
    | with_reducible apply State.retroCheck_keeps
    | with_reducible apply State.sinceWake_keeps
    | with_reducible apply State.wr_keeps
    | with_reducible apply Keeps.foldl
    | with_reducible apply Keeps.foldlFst
    | simp only [Keeps.mk1]
    | with_reducible rfl
    | split)

theorem State.recordDistance_keeps {s0 : State} (s : State) (hk : Keeps s0 s) : Keeps s0 (State.recordDistance s) := by
  unfold State.recordDistance
  try dsimp only
  repeat' (first
    | with_reducible assumption
    | with_reducible apply State.record_keeps
    | with_reducible apply State.setLedger_keeps
    | with_reducible apply Keeps.ite)

theorem State.ignitionCheck_keeps {s0 : State} (s : State) (hk : Keeps s0 s) : Keeps s0 (State.ignitionCheck s) := by
  unfold State.ignitionCheck
  try dsimp only
  repeat' (first
    | with_reducible assumption
    | with_reducible apply State.coderFlush_keeps
    | with_reducible apply State.record_keeps
    | with_reducible apply State.recordDistance_keeps
    | with_reducible apply State.setLedger_keeps
    | with_reducible apply Keeps.ite)

theorem State.recordRise_keeps {s0 : State} (s : State) (hk : Keeps s0 s) : Keeps s0 (State.recordRise s) := by
  unfold State.recordRise
  try dsimp only
  repeat' (first
    | with_reducible assumption
    | with_reducible apply State.cloveImport_keeps
    | with_reducible apply State.coderBreak_keeps
    | with_reducible apply State.ignitionCheck_keeps
    | with_reducible apply State.recordGap_keeps
    | with_reducible apply State.setLedger_keeps
    | with_reducible apply State.wr_keeps
    | with_reducible apply Keeps.ite
    | simp only [Keeps.mk1]
    | with_reducible rfl
    | split)

theorem State.recordFall_keeps {s0 : State} (s : State) (hk : Keeps s0 s) : Keeps s0 (State.recordFall s) := by
  unfold State.recordFall
  try dsimp only
  repeat' (first
    | with_reducible assumption
    | with_reducible apply State.coderBreak_keeps
    | with_reducible apply State.setLedger_keeps
    | with_reducible apply State.wr_keeps)

theorem State.ledgerCheck_keeps {s0 : State} (s : State) (hk : Keeps s0 s) : Keeps s0 (State.ledgerCheck s) := by
  unfold State.ledgerCheck
  try dsimp only
  repeat' (first
    | with_reducible assumption
    | intro _
    | with_reducible apply State.commitStart_keeps
    | with_reducible apply State.eraseAgain_keeps
    | with_reducible apply State.keyDerive_keeps
    | with_reducible apply State.recordEvent_keeps
    | with_reducible apply State.recordFall_keeps
    | with_reducible apply State.recordRise_keeps
    | with_reducible apply State.scanRing_keeps
    | with_reducible apply State.setLedger_keeps
    | with_reducible apply Keeps.ite
    | with_reducible apply Keeps.iteFst
    | with_reducible apply Keeps.foldl)

theorem State.stopRecording_keeps {s0 : State} (s : State) (hk : Keeps s0 s) : Keeps s0 (State.stopRecording s) := by
  unfold State.stopRecording
  try dsimp only
  repeat' (first
    | with_reducible assumption
    | with_reducible apply State.ledgerCheck_keeps
    | with_reducible apply State.wr_keeps)

theorem State.ledgerDebugOpen_keeps {s0 : State} (s : State) (d : BitVec 384) (rights : Nat) (hk : Keeps s0 s) : Keeps s0 (State.ledgerDebugOpen s d rights) := by
  unfold State.ledgerDebugOpen
  try dsimp only
  repeat' (first
    | with_reducible assumption
    | with_reducible apply State.commitStart_keeps
    | with_reducible apply State.putItem_keeps
    | with_reducible apply State.setLedger_keeps)

theorem State.ledgerOff_keeps {s0 : State} (s : State) (hk : Keeps s0 s) : Keeps s0 (State.ledgerOff s) := by
  unfold State.ledgerOff
  try dsimp only
  repeat' (first
    | with_reducible assumption
    | with_reducible apply State.blockTorn_keeps
    | with_reducible apply State.recordFall_keeps
    | with_reducible apply State.setLedger_keeps
    | with_reducible apply Keeps.ite)

theorem State.ledgerWarm_keeps {s0 : State} (s : State) (hk : Keeps s0 s) : Keeps s0 (State.ledgerWarm s) := by
  unfold State.ledgerWarm
  try dsimp only
  repeat' (first
    | with_reducible assumption
    | with_reducible apply State.blockWritten_keeps
    | with_reducible apply State.recordFall_keeps
    | with_reducible apply State.ringErased_keeps
    | with_reducible apply State.setLedger_keeps
    | with_reducible apply Keeps.ite
    | simp only [Keeps.mk1]
    | with_reducible rfl
    | split)

theorem State.wheelFrame_keeps {s0 : State} (s : State) (data : List Byte) (hk : Keeps s0 s) : Keeps s0 (State.wheelFrame s data) := by
  unfold State.wheelFrame
  try dsimp only
  repeat' (first
    | with_reducible assumption
    | with_reducible apply State.setLedger_keeps
    | with_reducible apply Keeps.ite)

theorem State.wheelSecond_keeps {s0 : State} (s : State) (v : Nat) (hk : Keeps s0 s) : Keeps s0 (State.wheelSecond s v) := by
  unfold State.wheelSecond
  try dsimp only
  repeat' (first
    | with_reducible assumption
    | with_reducible apply State.setLedger_keeps
    | with_reducible apply Keeps.ite)

theorem State.anchor_keeps {s0 : State} (s : State) (t v : Nat) (hk : Keeps s0 s) : Keeps s0 (State.anchor s t v) := by
  unfold State.anchor
  try dsimp only
  repeat' (first
    | with_reducible assumption
    | with_reducible apply State.setCoder_keeps
    | with_reducible apply State.speedItem_keeps)

theorem State.codeSample_keeps {s0 : State} (s : State) (t v : Nat) (hk : Keeps s0 s) : Keeps s0 (State.codeSample s t v) := by
  unfold State.codeSample
  try dsimp only
  repeat' (first
    | with_reducible assumption
    | with_reducible apply State.anchor_keeps
    | with_reducible apply State.coderBreak_keeps
    | with_reducible apply State.knot_keeps
    | with_reducible apply State.setCoder_keeps
    | with_reducible apply Keeps.ite)

theorem State.minuteSample_keeps {s0 : State} (s : State) (t v : Nat) (hk : Keeps s0 s) : Keeps s0 (State.minuteSample s t v) := by
  unfold State.minuteSample
  try dsimp only
  repeat' (first
    | with_reducible assumption
    | with_reducible apply State.minuteEnd_keeps
    | with_reducible apply State.setCoder_keeps
    | with_reducible apply Keeps.ite
    | simp only [Keeps.mk1]
    | with_reducible rfl
    | split)

theorem State.ledgerSecond_keeps {s0 : State} (s : State) (t : Nat) (hk : Keeps s0 s) : Keeps s0 (State.ledgerSecond s t) := by
  unfold State.ledgerSecond
  try dsimp only
  repeat' (first
    | with_reducible assumption
    | with_reducible apply State.accrue_keeps
    | with_reducible apply State.codeSample_keeps
    | with_reducible apply State.minuteSample_keeps
    | with_reducible apply State.setLedger_keeps
    | with_reducible apply State.wheelSecond_keeps
    | with_reducible apply Keeps.ite)

theorem State.mismatchBegin_keeps {s0 : State} (s : State) (hk : Keeps s0 s) : Keeps s0 (State.mismatchBegin s) := by
  unfold State.mismatchBegin
  try dsimp only
  repeat' (first
    | with_reducible assumption
    | with_reducible apply State.bump_keeps
    | with_reducible apply State.raise_keeps
    | with_reducible apply State.recordEvent_keeps
    | with_reducible apply State.setLedger_keeps
    | with_reducible apply Keeps.ite)

theorem State.mismatchEnd_keeps {s0 : State} (s : State) (hk : Keeps s0 s) : Keeps s0 (State.mismatchEnd s) := by
  unfold State.mismatchEnd
  try dsimp only
  repeat' (first
    | with_reducible assumption
    | with_reducible apply State.recordEvent_keeps
    | with_reducible apply State.setLedger_keeps
    | with_reducible apply Keeps.ite)

theorem State.wheelLost_keeps {s0 : State} (s : State) (hk : Keeps s0 s) : Keeps s0 (State.wheelLost s) := by
  unfold State.wheelLost
  try dsimp only
  repeat' (first
    | with_reducible assumption
    | with_reducible apply State.recordEvent_keeps
    | with_reducible apply State.setLedger_keeps
    | with_reducible apply Keeps.ite)

theorem State.ledgerTake_keeps {s0 : State} (s : State) (open_ : Bool) (data : List Byte) (hk : Keeps s0 s) : Keeps s0 (State.ledgerTake s open_ data).1 := by
  unfold State.ledgerTake
  try dsimp only
  repeat' (first
    | with_reducible assumption
    | with_reducible apply State.record_keeps
    | with_reducible apply Keeps.ite
    | with_reducible apply Keeps.iteFst)

theorem State.startLedgInput_keeps {s0 : State} (addr : Nat) (s : State) (hk : Keeps s0 s) : Keeps s0 (State.startLedgInput addr s) := by
  unfold State.startLedgInput
  try dsimp only
  repeat' (first
    | with_reducible assumption
    | with_reducible apply State.ledgerTake_keeps
    | with_reducible apply State.refuse_keeps
    | with_reducible apply Keeps.ite
    | with_reducible apply Keeps.iteFst
    | split)

theorem State.freezeFinish_keeps {s0 : State} (s : State) (hk : Keeps s0 s) : Keeps s0 (State.freezeFinish s) := by
  unfold State.freezeFinish
  try dsimp only
  repeat' (first
    | with_reducible assumption
    | with_reducible apply State.closePage_keeps
    | with_reducible apply State.cmdEnd_keeps
    | with_reducible apply State.ledgerCheck_keeps
    | simp only [Keeps.mk1])

theorem State.freezeStep_keeps {s0 : State} (s : State) (hk : Keeps s0 s) : Keeps s0 (State.freezeStep s) := by
  unfold State.freezeStep
  try dsimp only
  repeat' (first
    | with_reducible assumption
    | with_reducible apply State.commitStart_keeps
    | with_reducible apply State.freezeFinish_keeps
    | with_reducible apply Keeps.ite
    | split)

theorem State.startFreeze_keeps {s0 : State} (s : State) (hk : Keeps s0 s) : Keeps s0 (State.startFreeze s) := by
  unfold State.startFreeze
  try dsimp only
  repeat' (first
    | with_reducible assumption
    | with_reducible apply State.cmdStart_keeps
    | with_reducible apply State.coderBreak_keeps
    | with_reducible apply State.freezeStep_keeps
    | with_reducible apply State.refuse_keeps
    | with_reducible apply Keeps.ite)

theorem State.startThaw_keeps {s0 : State} (s : State) (hk : Keeps s0 s) : Keeps s0 (State.startThaw s) := by
  unfold State.startThaw
  try dsimp only
  repeat' (first
    | with_reducible assumption
    | with_reducible apply State.cmdStart_keeps
    | with_reducible apply State.ledgerCheck_keeps
    | with_reducible apply State.setLedger_keeps
    | with_reducible apply Keeps.ite
    | simp only [Keeps.mk1])

theorem State.startReadPage_keeps {s0 : State} (addr : Nat) (s : State) (hk : Keeps s0 s) : Keeps s0 (State.startReadPage addr s) := by
  unfold State.startReadPage
  try dsimp only
  repeat' (first
    | with_reducible assumption
    | with_reducible apply State.cmdStart_keeps
    | with_reducible apply State.enqueue_keeps
    | with_reducible apply State.refuse_keeps
    | with_reducible apply Keeps.ite)

theorem State.readPageServed_keeps {s0 : State} (s : State) (r : Req) (corrupt : Bool) (hk : Keeps s0 s) : Keeps s0 (State.readPageServed s r corrupt) := by
  unfold State.readPageServed
  try dsimp only
  repeat' (first
    | with_reducible assumption
    | with_reducible apply State.cmdEnd_keeps
    | with_reducible apply State.delivered_keeps
    | with_reducible apply State.requeue_keeps
    | with_reducible apply State.sramStore_keeps
    | with_reducible apply Keeps.ite)

theorem State.setExportChallenge_keeps {s0 : State} (s : State) (c : Option (BitVec 128 × Nat)) (hk : Keeps s0 s) : Keeps s0 (State.setExportChallenge s c) := by
  unfold State.setExportChallenge
  try dsimp only
  repeat' (first
    | with_reducible assumption
    | intro _
    | with_reducible apply State.setLedger_keeps
    | with_reducible apply State.wr_keeps
    | with_reducible apply Keeps.foldl)

theorem State.startExportChallenge_keeps {s0 : State} (s : State) (hk : Keeps s0 s) : Keeps s0 (State.startExportChallenge s) := by
  unfold State.startExportChallenge
  try dsimp only
  repeat' (first
    | with_reducible assumption
    | with_reducible apply State.draw_keeps
    | with_reducible apply State.setCmdSlot_keeps
    | with_reducible apply State.setExportChallenge_keeps
    | with_reducible apply State.wr_keeps
    | with_reducible apply Keeps.ite)

theorem State.startExportAck_keeps {s0 : State} (addr : Nat) (s : State) (hk : Keeps s0 s) : Keeps s0 (State.startExportAck addr s) := by
  unfold State.startExportAck
  try dsimp only
  repeat' (first
    | with_reducible assumption
    | with_reducible apply State.awaitPke_keeps
    | with_reducible apply State.cmdStart_keeps
    | with_reducible apply State.raise_keeps
    | with_reducible apply State.refuse_keeps
    | with_reducible apply State.setExportChallenge_keeps
    | with_reducible apply Keeps.ite
    | simp only [Keeps.mk1]
    | with_reducible rfl
    | split)

theorem State.ledgGranted_keeps {s0 : State} (s : State) (hk : Keeps s0 s) : Keeps s0 (State.ledgGranted s) := by
  unfold State.ledgGranted
  try dsimp only
  repeat' (first
    | with_reducible assumption
    | with_reducible apply State.cmdEnd_keeps
    | with_reducible apply State.startExportAck_keeps
    | split)

theorem State.startSetOdometer_keeps {s0 : State} (addr : Nat) (s : State) (hk : Keeps s0 s) : Keeps s0 (State.startSetOdometer addr s) := by
  unfold State.startSetOdometer
  try dsimp only
  repeat' (first
    | with_reducible assumption
    | with_reducible apply State.cmdStart_keeps
    | with_reducible apply State.recordDistance_keeps
    | with_reducible apply State.refuse_keeps
    | with_reducible apply Keeps.ite
    | simp only [Keeps.mk1])

theorem State.ledgResume_keeps {s0 : State} (s : State) (hk : Keeps s0 s) : Keeps s0 (State.ledgResume s) := by
  unfold State.ledgResume
  try dsimp only
  repeat' (first
    | with_reducible assumption
    | with_reducible apply State.cmdEnd_keeps
    | with_reducible apply State.startSetOdometer_keeps
    | with_reducible apply State.startThaw_keeps
    | split)

end Sys2Proof.Machine
end

