-- ==== Sys2Proof/Laws/KeepsZeroise.lean ====
section
/-! SUPPORT. What the operations of Machine/Zeroise.lean keep. -/

namespace Sys2Proof.Machine

theorem State.keyRegsGone_keeps {s0 : State} (s : State) (gone : Nat → Bool) (hk : Keeps s0 s) : Keeps s0 (State.keyRegsGone s gone) := by
  unfold State.keyRegsGone
  try dsimp only
  repeat' (first
    | with_reducible assumption
    | intro _
    | with_reducible apply State.setKeyReg_keeps
    | with_reducible apply Keeps.ite
    | with_reducible apply Keeps.foldl
    | with_reducible apply Keeps.foldlFst
    | split)

theorem State.savedDkrGone_keeps {s0 : State} (s : State) (gone : Nat → Bool) (hk : Keeps s0 s) : Keeps s0 (State.savedDkrGone s gone) := by
  unfold State.savedDkrGone
  try dsimp only
  repeat' (first
    | with_reducible assumption
    | with_reducible apply Keeps.ite
    | simp only [Keeps.mk1]
    | with_reducible rfl
    | split)

theorem State.savedGone_keeps {s0 : State} (s : State) (hk : Keeps s0 s) : Keeps s0 (State.savedGone s) := by
  unfold State.savedGone
  try dsimp only
  repeat' (first
    | with_reducible assumption
    | intro _
    | with_reducible apply State.dgeClearResults_keeps
    | with_reducible apply State.dgeIdle_keeps
    | with_reducible apply State.revokedEnd_keeps
    | with_reducible apply State.wr_keeps
    | with_reducible apply Keeps.ite
    | with_reducible apply Keeps.foldl
    | split)

theorem State.dependents_keeps {s0 : State} (s : State) (gone : Nat → Bool) (hk : Keeps s0 s) : Keeps s0 (State.dependents s gone) := by
  unfold State.dependents
  try dsimp only
  repeat' (first
    | with_reducible assumption
    | with_reducible apply State.aesSavedGone_keeps
    | with_reducible apply State.allIdle_keeps
    | with_reducible apply State.keyFollows_keeps
    | with_reducible apply State.keyRegsGone_keeps
    | with_reducible apply State.ledgerCheck_keeps
    | with_reducible apply State.saRevoke_keeps
    | with_reducible apply State.savedDkrGone_keeps
    | with_reducible apply State.savedGone_keeps
    | with_reducible apply Keeps.ite)

theorem State.settle_keeps {s0 : State} (s : State) (hk : Keeps s0 s) : Keeps s0 (State.settle s) := by
  unfold State.settle
  try dsimp only
  repeat' (first
    | with_reducible assumption
    | intro _
    | with_reducible apply State.dependents_keeps)

theorem State.startInvalidate_keeps {s0 : State} (addr : Nat) (s : State) (hk : Keeps s0 s) : Keeps s0 (State.startInvalidate addr s) := by
  unfold State.startInvalidate
  try dsimp only
  repeat' (first
    | with_reducible assumption
    | with_reducible apply State.kvtResult_keeps
    | with_reducible apply State.settle_keeps
    | with_reducible apply State.withdraw_keeps
    | with_reducible apply Keeps.ite)

theorem State.scrubOne_keeps {s0 : State} (s : State) (i : Nat) (hk : Keeps s0 s) : Keeps s0 (State.scrubOne s i) := by
  unfold State.scrubOne
  try dsimp only
  repeat' (first
    | with_reducible assumption
    | with_reducible apply State.slotFails_keeps
    | with_reducible apply Keeps.ite)

theorem State.scrub_keeps {s0 : State} (bad : List Nat) (s : State) (hk : Keeps s0 s) : Keeps s0 (State.scrub bad s) := by
  unfold State.scrub
  try dsimp only
  repeat' (first
    | with_reducible assumption
    | intro _
    | with_reducible apply State.scrubOne_keeps
    | with_reducible apply State.settle_keeps
    | with_reducible apply State.slotDisturb_keeps
    | with_reducible apply Keeps.ite
    | with_reducible apply Keeps.foldl)

theorem State.seqLost_keeps {s0 : State} (s : State) (n : Nat) (hk : Keeps s0 s) : Keeps s0 (State.seqLost s n) := by
  unfold State.seqLost
  try dsimp only
  repeat' (first
    | with_reducible assumption
    | with_reducible apply State.dgeClearResults_keeps
    | with_reducible apply State.hostFailed_keeps
    | with_reducible apply State.refuse_keeps
    | with_reducible apply State.releaseDge_keeps
    | with_reducible apply State.restoreFail_keeps
    | with_reducible apply Keeps.ite
    | split)

theorem State.fwLost_keeps {s0 : State} (s : State) (n : Nat) (hk : Keeps s0 s) : Keeps s0 (State.fwLost s n) := by
  unfold State.fwLost
  try dsimp only
  repeat' (first
    | with_reducible assumption
    | with_reducible apply State.dgeClearResults_keeps
    | with_reducible apply State.dgeIdle_keeps
    | with_reducible apply State.refuse_keeps
    | with_reducible apply State.revokedEnd_keeps
    | with_reducible apply State.wr_keeps
    | with_reducible apply Keeps.ite)

theorem State.dgeLost_keeps {s0 : State} (s : State) (n : Nat) (hk : Keeps s0 s) : Keeps s0 (State.dgeLost s n) := by
  unfold State.dgeLost
  try dsimp only
  repeat' (first
    | with_reducible assumption
    | with_reducible apply State.fwLost_keeps
    | with_reducible apply State.seqLost_keeps)

theorem State.dkrLost_keeps {s0 : State} (s : State) (e : Nat) (hk : Keeps s0 s) : Keeps s0 (State.dkrLost s e) := by
  unfold State.dkrLost
  try dsimp only
  repeat' (first
    | with_reducible assumption
    | with_reducible apply State.showDkr_keeps)

theorem State.sakLost_keeps {s0 : State} (s : State) (x : Nat) (hk : Keeps s0 s) : Keeps s0 (State.sakLost s x) := by
  unfold State.sakLost
  try dsimp only
  repeat' (first
    | with_reducible assumption
    | with_reducible apply State.setSa_keeps
    | with_reducible apply Keeps.ite)

theorem State.zeroiseEpoch_keeps {s0 : State} (s : State) (hk : Keeps s0 s) : Keeps s0 (State.zeroiseEpoch s) := by
  unfold State.zeroiseEpoch
  try dsimp only
  repeat' (first
    | with_reducible assumption
    | intro _
    | with_reducible apply State.aesSavedGone_keeps
    | with_reducible apply State.dgeLost_keeps
    | with_reducible apply State.dkrLost_keeps
    | with_reducible apply State.identityLost_keeps
    | with_reducible apply State.keyLost_keeps
    | with_reducible apply State.keyRegsGone_keeps
    | with_reducible apply State.lanesGo_keeps
    | with_reducible apply State.revokeOps_keeps
    | with_reducible apply State.saRevoke_keeps
    | with_reducible apply State.sakLost_keeps
    | with_reducible apply State.savedDkrGone_keeps
    | with_reducible apply State.vaultEpoch_keeps
    | with_reducible apply Keeps.foldl
    | with_reducible apply Keeps.foldlFst
    | simp only [Keeps.mk1]
    | with_reducible rfl
    | split)

end Sys2Proof.Machine
end

