-- ==== Sys2Proof/Laws/KeepsClove.lean ====
section
/-! SUPPORT. What the operations of Machine/Clove.lean keep. -/

namespace Sys2Proof.Machine

theorem State.loopsSeeded_keeps {s0 : State} (s : State) (a b : BitVec 16) (hk : Keeps s0 s) : Keeps s0 (State.loopsSeeded s a b) := by
  unfold State.loopsSeeded
  try dsimp only
  repeat' (first
    | with_reducible assumption
    | simp only [Keeps.mk1])

theorem State.loopsDrawn_keeps {s0 : State} (s : State) (b : List Byte) (hk : Keeps s0 s) : Keeps s0 (State.loopsDrawn s b) := by
  unfold State.loopsDrawn
  try dsimp only
  repeat' (first
    | with_reducible assumption
    | with_reducible apply State.loopsSeeded_keeps)

theorem State.seedLoops_keeps {s0 : State} (s : State) (hk : Keeps s0 s) : Keeps s0 (State.seedLoops s) := by
  unfold State.seedLoops
  try dsimp only
  repeat' (first
    | with_reducible assumption
    | with_reducible apply State.loopsDrawn_keeps
    | with_reducible apply State.spend_keeps)

theorem State.seedLoopsAttach_keeps {s0 : State} (s : State) (hk : Keeps s0 s) : Keeps s0 (State.seedLoopsAttach s) := by
  unfold State.seedLoopsAttach
  try dsimp only
  repeat' (first
    | with_reducible assumption
    | with_reducible apply State.draw_keeps
    | with_reducible apply State.loopsDrawn_keeps
    | with_reducible apply Keeps.ite)

theorem State.seedLoopsCold_keeps {s0 : State} (s : State) (hk : Keeps s0 s) : Keeps s0 (State.seedLoopsCold s) := by
  unfold State.seedLoopsCold
  try dsimp only
  repeat' (first
    | with_reducible assumption
    | with_reducible apply State.loopsSeeded_keeps)

theorem State.setTamper_keeps {s0 : State} (s : State) (cause rule : Nat) (hk : Keeps s0 s) : Keeps s0 (State.setTamper s cause rule) := by
  unfold State.setTamper
  try dsimp only
  repeat' (first
    | with_reducible assumption
    | with_reducible apply State.bump_keeps
    | with_reducible apply State.raise_keeps
    | with_reducible apply State.wr_keeps
    | with_reducible apply Keeps.ite)

theorem State.cloveLog_keeps {s0 : State} (s : State) (rule kind chan pulses : Nat) (hk : Keeps s0 s) : Keeps s0 (State.cloveLog s rule kind chan pulses) := by
  unfold State.cloveLog
  try dsimp only
  repeat' (first
    | with_reducible assumption
    | with_reducible apply State.bump_keeps
    | with_reducible apply State.raise_keeps
    | with_reducible apply State.retStore_keeps
    | with_reducible apply State.wr_keeps
    | with_reducible apply Keeps.ite)

theorem State.wakeMain_keeps {s0 : State} (s : State) (rule : Nat) (hk : Keeps s0 s) : Keeps s0 (State.wakeMain s rule) := by
  unfold State.wakeMain
  try dsimp only
  repeat' (first
    | with_reducible assumption
    | with_reducible apply State.holdAll_keeps
    | with_reducible apply State.raise_keeps
    | with_reducible apply State.wr_keeps
    | simp only [Keeps.mk1])

theorem State.requestWake_keeps {s0 : State} (s : State) (rule : Nat) (hk : Keeps s0 s) : Keeps s0 (State.requestWake s rule) := by
  unfold State.requestWake
  try dsimp only
  repeat' (first
    | with_reducible assumption
    | with_reducible apply State.wakeMain_keeps
    | with_reducible apply Keeps.ite
    | simp only [Keeps.mk1])

theorem State.ruleActs_keeps {s0 : State} (pulses : Nat) (s : State) (r : Nat) (hk : Keeps s0 s) : Keeps s0 (State.ruleActs pulses s r) := by
  unfold State.ruleActs
  try dsimp only
  repeat' (first
    | with_reducible assumption
    | with_reducible apply State.bump_keeps
    | with_reducible apply State.cloveLog_keeps
    | with_reducible apply State.raise_keeps
    | with_reducible apply State.requestWake_keeps
    | with_reducible apply State.setTamper_keeps
    | with_reducible apply State.wr_keeps
    | with_reducible apply Keeps.ite)

theorem State.cloveFilters_keeps {s0 : State} (s : State) (i : CloveInputs) (hk : Keeps s0 s) : Keeps s0 (State.cloveFilters s i) := by
  unfold State.cloveFilters
  try dsimp only
  repeat' (first
    | with_reducible assumption
    | with_reducible apply Keeps.ite
    | simp only [Keeps.mk1])

theorem State.showValues_keeps {s0 : State} (s : State) (dist : Nat) (hk : Keeps s0 s) : Keeps s0 (State.showValues s dist) := by
  unfold State.showValues
  try dsimp only
  repeat' (first
    | with_reducible assumption
    | with_reducible apply State.wr_keeps)

theorem State.cloveSample_keeps {s0 : State} (s : State) (i : CloveInputs) (hk : Keeps s0 s) : Keeps s0 (State.cloveSample s i) := by
  unfold State.cloveSample
  try dsimp only
  repeat' (first
    | with_reducible assumption
    | intro _
    | with_reducible apply State.cloveFilters_keeps
    | with_reducible apply State.ruleActs_keeps
    | with_reducible apply State.showValues_keeps
    | with_reducible apply State.wakeMain_keeps
    | with_reducible apply Keeps.ite
    | with_reducible apply Keeps.iteFst
    | with_reducible apply Keeps.foldl
    | with_reducible apply Keeps.foldlFst
    | simp only [Keeps.mk1]
    | with_reducible rfl
    | split)

theorem State.clearTamper_keeps {s0 : State} (s : State) (hk : Keeps s0 s) : Keeps s0 (State.clearTamper s) := by
  unfold State.clearTamper
  try dsimp only
  repeat' (first
    | with_reducible assumption
    | with_reducible apply State.wr_keeps)

theorem State.startProgramFuse_keeps {s0 : State} (s : State) (h : Keeps s0 s) : Keeps s0 (State.startProgramFuse s) := by
  unfold State.startProgramFuse
  split
  · split
    · exact State.cmdStart_keeps _ _ _ _ h
    exact ⟨h.1, h.2, h.3, h.4, h.5, h.6, h.7, h.8.trans ⟨rfl, rfl, id, id, id, id, id, id, fun _ => rfl⟩, h.9⟩
  · exact State.refuse_keeps _ _ _ _ h

theorem State.fuseResume_keeps {s0 : State} (s : State) (hk : Keeps s0 s) : Keeps s0 (State.fuseResume s) := by
  unfold State.fuseResume
  try dsimp only
  repeat' (first
    | with_reducible assumption
    | with_reducible apply State.cmdEnd_keeps
    | with_reducible apply State.startProgramFuse_keeps
    | split)

theorem State.startDiscard_keeps {s0 : State} (s : State) (hk : Keeps s0 s) : Keeps s0 (State.startDiscard s) := by
  unfold State.startDiscard
  try dsimp only
  repeat' (first
    | with_reducible assumption
    | with_reducible apply State.refuse_keeps
    | with_reducible apply State.wr_keeps
    | with_reducible apply Keeps.ite)

end Sys2Proof.Machine
end

