-- ==== Sys2Proof/Laws/KeepsDebug.lean ====
section
/-! SUPPORT. What the operations of Machine/Debug.lean keep. -/

namespace Sys2Proof.Machine

theorem State.setChallenge_keeps {s0 : State} (s : State) (c : Option (BitVec 128)) (hk : Keeps s0 s) : Keeps s0 (State.setChallenge s c) := by
  unfold State.setChallenge
  try dsimp only
  repeat' (first
    | with_reducible assumption
    | intro _
    | with_reducible apply State.wr_keeps
    | with_reducible apply State.wrb_keeps
    | with_reducible apply Keeps.foldl
    | with_reducible apply Keeps.foldlFst
    | simp only [Keeps.mk1])

theorem State.drawChallenge_keeps {s0 : State} (s : State) (hk : Keeps s0 s) : Keeps s0 (State.drawChallenge s) := by
  unfold State.drawChallenge
  try dsimp only
  repeat' (first
    | with_reducible assumption
    | with_reducible apply State.draw_keeps
    | with_reducible apply State.setChallenge_keeps
    | with_reducible apply State.setCmdSlot_keeps
    | with_reducible apply State.wr_keeps
    | with_reducible apply Keeps.ite)

theorem State.grantRefuse_keeps {s0 : State} (s : State) (code : Nat) (d : BitVec 384) (hk : Keeps s0 s) : Keeps s0 (State.grantRefuse s code d) := by
  unfold State.grantRefuse
  try dsimp only
  repeat' (first
    | with_reducible assumption
    | with_reducible apply State.cmdEnd_keeps
    | with_reducible apply State.raise_keeps
    | with_reducible apply State.refuse_keeps
    | with_reducible apply State.secLog_keeps
    | with_reducible apply State.wr_keeps)

theorem State.grantAdd_keeps {s0 : State} (s : State) (rights : Nat) (d : BitVec 384) (hk : Keeps s0 s) : Keeps s0 (State.grantAdd s rights d) := by
  unfold State.grantAdd
  try dsimp only
  repeat' (first
    | with_reducible assumption
    | intro _
    | with_reducible apply State.cmdEnd_keeps
    | with_reducible apply State.raise_keeps
    | with_reducible apply State.secLog_keeps
    | with_reducible apply State.wr_keeps
    | with_reducible apply Keeps.ite
    | with_reducible apply Keeps.foldl
    | with_reducible apply Keeps.foldlFst
    | simp only [Keeps.mk1])

theorem State.applyClearTamper_keeps {s0 : State} (s : State) (rights : Nat) (hk : Keeps s0 s) : Keeps s0 (State.applyClearTamper s rights) := by
  unfold State.applyClearTamper
  try dsimp only
  repeat' (first
    | with_reducible assumption
    | with_reducible apply State.clearTamper_keeps
    | with_reducible apply State.ledgerCheck_keeps
    | with_reducible apply State.releaseRoot_keeps
    | with_reducible apply Keeps.ite)

theorem State.openingFinish_keeps {s0 : State} (s : State) (hk : Keeps s0 s) : Keeps s0 (State.openingFinish s) := by
  unfold State.openingFinish
  try dsimp only
  repeat' (first
    | with_reducible assumption
    | with_reducible apply State.grantAdd_keeps
    | with_reducible apply State.ledgerCheck_keeps
    | with_reducible apply State.raise_keeps
    | with_reducible apply State.rootLoad_keeps
    | with_reducible apply State.stopRecording_keeps
    | with_reducible apply State.wr_keeps
    | with_reducible apply State.zeroiseEpoch_keeps
    | simp only [Keeps.mk1]
    | with_reducible rfl
    | split)

theorem State.openingResume_keeps {s0 : State} (s : State) (hk : Keeps s0 s) : Keeps s0 (State.openingResume s) := by
  unfold State.openingResume
  try dsimp only
  repeat' (first
    | with_reducible assumption
    | with_reducible apply State.openingFinish_keeps
    | with_reducible apply State.setLedger_keeps
    | with_reducible apply Keeps.ite)

theorem State.presentGrant_keeps {s0 : State} (g : List Byte) (i : Option Instr) (s : State) (hk : Keeps s0 s) : Keeps s0 (State.presentGrant g i s) := by
  unfold State.presentGrant
  try dsimp only
  repeat' (first
    | with_reducible assumption
    | with_reducible apply State.applyClearTamper_keeps
    | with_reducible apply State.cmdStart_keeps
    | with_reducible apply State.grantAdd_keeps
    | with_reducible apply State.grantRefuse_keeps
    | with_reducible apply State.ledgerDebugOpen_keeps
    | with_reducible apply State.openingFinish_keeps
    | with_reducible apply State.setChallenge_keeps
    | with_reducible apply State.wr_keeps
    | with_reducible apply Keeps.ite
    | simp only [Keeps.mk1]
    | with_reducible rfl
    | split)

theorem State.grantTake_keeps {s0 : State} (g : List Byte) (i : Option Instr) (s : State) (hk : Keeps s0 s) : Keeps s0 (State.grantTake g i s) := by
  unfold State.grantTake
  try dsimp only
  repeat' (first
    | with_reducible assumption
    | with_reducible apply State.awaitPke_keeps
    | with_reducible apply State.cmdStart_keeps
    | with_reducible apply State.presentGrant_keeps
    | with_reducible apply State.wr_keeps
    | with_reducible apply Keeps.ite
    | simp only [Keeps.mk1]
    | with_reducible rfl
    | split)

theorem State.grantResume_keeps {s0 : State} (s : State) (hk : Keeps s0 s) : Keeps s0 (State.grantResume s) := by
  unfold State.grantResume
  try dsimp only
  repeat' (first
    | with_reducible assumption
    | with_reducible apply State.presentGrant_keeps
    | with_reducible apply State.cmdEnd_keeps
    | with_reducible apply State.wr_keeps
    | with_reducible apply Keeps.ite)

theorem State.startPresent_keeps {s0 : State} (addr : Nat) (s : State) (hk : Keeps s0 s) : Keeps s0 (State.startPresent addr s) := by
  unfold State.startPresent
  try dsimp only
  repeat' (first
    | with_reducible assumption
    | with_reducible apply State.grantRefuse_keeps
    | with_reducible apply State.grantTake_keeps
    | with_reducible apply State.setCmdSlot_keeps
    | with_reducible apply Keeps.ite)

theorem State.startRevoke_keeps {s0 : State} (s : State) (hk : Keeps s0 s) : Keeps s0 (State.startRevoke s) := by
  unfold State.startRevoke
  try dsimp only
  repeat' (first
    | with_reducible assumption
    | with_reducible apply State.wr_keeps)

theorem State.tapSelect_keeps {s0 : State} (s : State) (code : Nat) (ok : Bool) (hk : Keeps s0 s) : Keeps s0 (State.tapSelect s code ok) := by
  unfold State.tapSelect
  try dsimp only
  repeat' (first
    | with_reducible assumption
    | with_reducible apply Keeps.ite
    | simp only [Keeps.mk1])

end Sys2Proof.Machine
end

