-- ==== Sys2Proof/Laws/KeepsModes.lean ====
section
/-! SUPPORT. What the operations of Machine/Modes.lean keep. -/

namespace Sys2Proof.Machine

theorem State.dropReason_keeps {s0 : State} (s : State) (x : Nat) (r : Req) (hk : Keeps s0 s) : Keeps s0 (State.dropReason s x r) := by
  unfold State.dropReason
  try dsimp only
  repeat' (first
    | with_reducible assumption
    | with_reducible apply State.bump_keeps
    | with_reducible apply State.raise_keeps
    | with_reducible apply State.wr_keeps)

theorem State.readDropped_keeps {s0 : State} (s : State) (n : Nat) (hk : Keeps s0 s) : Keeps s0 (State.readDropped s n) := by
  unfold State.readDropped
  try dsimp only
  repeat' (first
    | with_reducible assumption
    | with_reducible apply State.cmdEnd_keeps
    | with_reducible apply State.setHost_keeps
    | with_reducible apply State.wr_keeps
    | with_reducible apply Keeps.ite
    | simp only [Keeps.mk1]
    | with_reducible rfl
    | split)

theorem State.attDropped_keeps {s0 : State} (s : State) (hk : Keeps s0 s) : Keeps s0 (State.attDropped s) := by
  unfold State.attDropped
  try dsimp only
  repeat' (first
    | with_reducible assumption
    | with_reducible apply State.attEnd_keeps
    | with_reducible apply State.roundEnd_keeps
    | with_reducible apply Keeps.ite
    | split)

theorem State.heldDropped_keeps {s0 : State} (s : State) (hk : Keeps s0 s) : Keeps s0 (State.heldDropped s) := by
  unfold State.heldDropped
  try dsimp only
  repeat' (first
    | with_reducible assumption
    | intro _
    | with_reducible apply State.toIdle_keeps
    | with_reducible apply Keeps.foldl
    | with_reducible apply Keeps.foldlFst
    | simp only [Keeps.mk1]
    | with_reducible rfl
    | split)

theorem State.dropEnds_keeps {s0 : State} (s : State) (x : Nat) (r : Req) (hk : Keeps s0 s) : Keeps s0 (State.dropEnds s x r) := by
  unfold State.dropEnds
  try dsimp only
  repeat' (first
    | with_reducible assumption
    | with_reducible apply State.attDropped_keeps
    | with_reducible apply State.cmdEnd_keeps
    | with_reducible apply State.fchDone_keeps
    | with_reducible apply State.heldDropped_keeps
    | with_reducible apply State.readDropped_keeps
    | with_reducible apply State.roundVerdict_keeps
    | with_reducible apply State.toIdle_keeps
    | with_reducible apply State.wr_keeps
    | with_reducible apply Keeps.ite
    | split)

theorem State.dropReq_keeps {s0 : State} (s : State) (x i : Nat) (hk : Keeps s0 s) : Keeps s0 (State.dropReq s x i) := by
  unfold State.dropReq
  try dsimp only
  repeat' (first
    | with_reducible assumption
    | with_reducible apply State.dropEnds_keeps
    | with_reducible apply State.dropReason_keeps
    | with_reducible apply State.setSched_keeps
    | with_reducible apply Keeps.ite
    | simp only [Keeps.mk1]
    | with_reducible rfl
    | split)

theorem State.sealDrop_keeps {s0 : State} (s : State) (x : Nat) (hk : Keeps s0 s) : Keeps s0 (State.sealDrop s x) := by
  unfold State.sealDrop
  try dsimp only
  repeat' (first
    | with_reducible assumption
    | intro _
    | with_reducible apply State.dropEnds_keeps
    | with_reducible apply State.dropReason_keeps
    | with_reducible apply State.pumpCh_keeps
    | with_reducible apply State.setChan_keeps
    | with_reducible apply State.setSched_keeps
    | with_reducible apply State.wr_keeps
    | with_reducible apply Keeps.ite
    | with_reducible apply Keeps.foldl)

theorem State.sealOpDropped_keeps {s0 : State} (s : State) (e : Nat) (hk : Keeps s0 s) : Keeps s0 (State.sealOpDropped s e) := by
  unfold State.sealOpDropped
  try dsimp only
  repeat' (first
    | with_reducible assumption
    | with_reducible apply State.aesIdle_keeps
    | with_reducible apply State.attEnd_keeps
    | with_reducible apply State.sealDone_keeps
    | with_reducible apply Keeps.ite
    | simp only [Keeps.mk1]
    | with_reducible rfl
    | split)

theorem State.sealEngines_keeps {s0 : State} (s : State) (hk : Keeps s0 s) : Keeps s0 (State.sealEngines s) := by
  unfold State.sealEngines
  try dsimp only
  repeat' (first
    | with_reducible assumption
    | intro _
    | with_reducible apply State.abortSaved_keeps
    | with_reducible apply State.aesIdle_keeps
    | with_reducible apply State.bump_keeps
    | with_reducible apply State.cmpIdle_keeps
    | with_reducible apply State.dgeClearResults_keeps
    | with_reducible apply State.dgeIdle_keeps
    | with_reducible apply State.lanesGo_keeps
    | with_reducible apply State.sealOpDropped_keeps
    | with_reducible apply State.wr_keeps
    | with_reducible apply Keeps.ite
    | with_reducible apply Keeps.foldl)

theorem State.mainLost_keeps {s0 : State} (s : State) (h : Keeps s0 s) : Keeps s0 (State.mainLost s) := by
  unfold State.mainLost
  dsimp only
  apply State.wr_keeps
  apply State.vaultEpoch_keeps
  apply State.setTime_keeps
  simp only [Keeps.mk1]
  refine Keeps.foldl _ _ _ (fun x n hx => State.setHost_keeps _ _ _ hx) ?_
  have k := State.ledgerOff_keeps _ h
  exact ⟨k.1, k.2, fun _ => rfl, k.4, k.5, fun _ => rfl, fun _ _ => rfl, k.8, k.9⟩

theorem State.vigilEntry_keeps {s0 : State} (s : State) (hk : Keeps s0 s) : Keeps s0 (State.vigilEntry s) := by
  unfold State.vigilEntry
  try dsimp only
  repeat' (first
    | with_reducible assumption
    | with_reducible apply State.bump_keeps
    | with_reducible apply State.seedLoops_keeps
    | with_reducible apply State.wr_keeps
    | simp only [Keeps.mk1])

theorem State.shelfEntry_keeps {s0 : State} (s : State) (hk : Keeps s0 s) : Keeps s0 (State.shelfEntry s) := by
  unfold State.shelfEntry
  try dsimp only
  repeat' (first
    | with_reducible assumption
    | with_reducible apply State.wr_keeps
    | simp only [Keeps.mk1])

theorem State.sealEnd_keeps {s0 : State} (s : State) (hk : Keeps s0 s) : Keeps s0 (State.sealEnd s) := by
  unfold State.sealEnd
  try dsimp only
  repeat' (first
    | with_reducible assumption
    | with_reducible apply State.mainLost_keeps
    | with_reducible apply State.shelfEntry_keeps
    | with_reducible apply State.vigilEntry_keeps
    | with_reducible apply State.zeroiseEpoch_keeps
    | with_reducible apply Keeps.ite
    | simp only [Keeps.mk1])

theorem State.sealStep4_keeps {s0 : State} (s : State) (hk : Keeps s0 s) : Keeps s0 (State.sealStep4 s) := by
  unfold State.sealStep4
  try dsimp only
  repeat' (first
    | with_reducible assumption
    | with_reducible apply State.commitStart_keeps
    | with_reducible apply State.kvtFinish_keeps
    | with_reducible apply State.sealEnd_keeps
    | with_reducible apply Keeps.ite
    | simp only [Keeps.mk1])

theorem State.sealStep3_keeps {s0 : State} (s : State) (hk : Keeps s0 s) : Keeps s0 (State.sealStep3 s) := by
  unfold State.sealStep3
  try dsimp only
  repeat' (first
    | with_reducible assumption
    | with_reducible apply State.holdAll_keeps
    | with_reducible apply State.sealStep4_keeps
    | simp only [Keeps.mk1])

theorem State.sealClose_keeps {s0 : State} (s : State) (hk : Keeps s0 s) : Keeps s0 (State.sealClose s) := by
  unfold State.sealClose
  try dsimp only
  repeat' (first
    | with_reducible assumption
    | intro _
    | with_reducible apply State.sealSess_keeps
    | with_reducible apply Keeps.ite
    | with_reducible apply Keeps.foldl
    | with_reducible apply Keeps.foldlFst
    | simp only [Keeps.mk1])

theorem State.sealStep1_keeps {s0 : State} (s : State) (hk : Keeps s0 s) : Keeps s0 (State.sealStep1 s) := by
  unfold State.sealStep1
  try dsimp only
  repeat' (first
    | with_reducible assumption
    | intro _
    | with_reducible apply State.sealClose_keeps
    | with_reducible apply State.sealDrop_keeps
    | with_reducible apply Keeps.ite
    | with_reducible apply Keeps.foldl)

theorem State.sealGo_keeps {s0 : State} (s : State) (hk : Keeps s0 s) : Keeps s0 (State.sealGo s) := by
  unfold State.sealGo
  try dsimp only
  repeat' (first
    | with_reducible assumption
    | intro _
    | with_reducible apply State.sealStep1_keeps
    | with_reducible apply State.sealStep3_keeps
    | with_reducible apply State.sealStep4_keeps
    | with_reducible apply Keeps.ite)

theorem State.sealFrom_keeps {s0 : State} (s : State) (k : Nat) (hk : Keeps s0 s) : Keeps s0 (State.sealFrom s k) := by
  unfold State.sealFrom
  try dsimp only
  repeat' (first
    | with_reducible assumption
    | intro _
    | with_reducible apply State.sealEngines_keeps
    | with_reducible apply State.sealGo_keeps
    | with_reducible apply State.sealStep3_keeps
    | with_reducible apply State.stageStop_keeps
    | with_reducible apply Keeps.ite
    | with_reducible apply Keeps.foldl
    | with_reducible apply Keeps.foldlFst
    | simp only [Keeps.mk1])

theorem State.modeRefuse_keeps {s0 : State} (s : State) (code : Nat) (hk : Keeps s0 s) : Keeps s0 (State.modeRefuse s code) := by
  unfold State.modeRefuse
  try dsimp only
  repeat' (first
    | with_reducible assumption
    | with_reducible apply State.refuse_keeps)

theorem State.startSeal_keeps {s0 : State} (shelf : Bool) (s : State) (hk : Keeps s0 s) : Keeps s0 (State.startSeal shelf s) := by
  unfold State.startSeal
  try dsimp only
  repeat' (first
    | with_reducible assumption
    | with_reducible apply State.modeRefuse_keeps
    | with_reducible apply State.sealFrom_keeps
    | with_reducible apply Keeps.ite
    | simp only [Keeps.mk1])

theorem State.startAttach_keeps {s0 : State} (s : State) (hk : Keeps s0 s) : Keeps s0 (State.startAttach s) := by
  unfold State.startAttach
  try dsimp only
  repeat' (first
    | with_reducible assumption
    | with_reducible apply State.modeRefuse_keeps
    | with_reducible apply State.seedLoopsAttach_keeps
    | with_reducible apply State.wr_keeps
    | with_reducible apply Keeps.ite
    | simp only [Keeps.mk1])

theorem State.reattachLate_keeps {s0 : State} (s : State) (hk : Keeps s0 s) : Keeps s0 (State.reattachLate s) := by
  unfold State.reattachLate
  try dsimp only
  repeat' (first
    | with_reducible assumption
    | intro _
    | with_reducible apply State.holdHost_keeps
    | with_reducible apply Keeps.ite
    | with_reducible apply Keeps.foldl
    | with_reducible apply Keeps.foldlFst
    | simp only [Keeps.mk1])

theorem State.chanWarm_keeps {s0 : State} (s : State) (c : Nat) (hk : Keeps s0 s) : Keeps s0 (State.chanWarm s c) := by
  unfold State.chanWarm
  try dsimp only
  repeat' (first
    | with_reducible assumption
    | with_reducible apply State.fwServed_keeps
    | with_reducible apply State.givePins_keeps
    | with_reducible apply State.setChan_keeps
    | with_reducible apply State.setSched_keeps
    | with_reducible apply Keeps.ite
    | simp only [Keeps.mk1]
    | with_reducible rfl
    | split)

theorem State.portWarm_keeps {s0 : State} (s : State) (n : Nat) (hk : Keeps s0 s) : Keeps s0 (State.portWarm s n) := by
  unfold State.portWarm
  try dsimp only
  repeat' (first
    | with_reducible assumption
    | with_reducible apply State.setPort_keeps
    | with_reducible apply State.touchEnd_keeps)

/-- A device warm reset clears the tightly coupled memory of C1-C3 and leaves that of C0. -/
theorem tcmKept {s0 s : State} (h : Keeps s0 s) (hw : ∀ c, Mem.wf 0 (Tbl.get [] s0.tcm c)) (c : Nat) :
    Mem.wf 0 (Tbl.get [] (Tbl.put [] [] 0 (Tbl.get [] s.tcm 0)) c) := by
  rw [Tbl.get_put]
  split
  · exact h.tcm hw 0
  · rfl

theorem State.clkLost_keeps {s0 : State} (s : State) (hk : Keeps s0 s) : Keeps s0 (State.clkLost s) := by
  unfold State.clkLost
  dsimp only
  apply State.vaultEpoch_keeps
  apply State.setTime_keeps
  have k := State.mgpWarm_keeps _ (Keeps.foldl State.portWarm (List.range 6) _ (fun x n hx => State.portWarm_keeps x n hx)
    (Keeps.foldl State.chanWarm (List.range 8) _ (fun x n hx => State.chanWarm_keeps x n hx) (State.ledgerWarm_keeps _ hk)))
  generalize (((List.range 6).foldl State.portWarm ((List.range 8).foldl State.chanWarm s.ledgerWarm)).mgpWarm) = y at k ⊢
  have k2 : Keeps s0 { y with tcm := Tbl.put [] [] 0 (Tbl.get [] y.tcm 0) } := ⟨k.1, k.2, k.3, k.4, k.5, k.6, tcmKept k, k.8, k.9⟩
  exact (Keeps.mk1 (a := { y with tcm := Tbl.put [] [] 0 (Tbl.get [] y.tcm 0) }) (hm := rfl) (hb := rfl) ..).2 k2

theorem State.warmHosts_keeps {s0 : State} (s : State) (hk : Keeps s0 s) : Keeps s0 (State.warmHosts s) := by
  unfold State.warmHosts
  try dsimp only
  repeat' (first
    | with_reducible assumption
    | intro _
    | with_reducible apply State.holdHost_keeps
    | with_reducible apply State.setHost_keeps
    | with_reducible apply Keeps.ite
    | with_reducible apply Keeps.foldl)

theorem State.aonLost_keeps {s0 : State} (s : State) (h : Keeps s0 s) : Keeps s0 (State.aonLost s) := by
  unfold State.aonLost
  dsimp only
  apply State.wr_keeps
  apply State.vaultEpoch_keeps
  refine Keeps.foldl _ _ _ (fun x n hx => State.setHost_keeps _ _ _ hx) ?_
  have k := State.ledgerOff_keeps _ h
  exact ⟨k.1, k.2, fun _ => rfl, fun _ => rfl, k.5, fun _ => rfl, fun _ _ => rfl, k.8, k.9⟩

end Sys2Proof.Machine
end

