-- ==== Sys2Proof/Laws/KeepsView.lean ====
section
/-! SUPPORT. What the operations of Machine/View.lean keep. -/

namespace Sys2Proof.Machine

theorem State.readWord_keeps {s0 : State} (s : State) (p off : Nat) (hk : Keeps s0 s) : Keeps s0 (State.readWord s p off).1 := by
  unfold State.readWord
  try dsimp only
  repeat' (first
    | with_reducible assumption
    | with_reducible apply State.latchTime_keeps
    | with_reducible apply Keeps.ite
    | with_reducible apply Keeps.iteFst)

end Sys2Proof.Machine
end

