-- ==== Sys2Proof/Laws/KeepsStrobe.lean ====
section
/-! SUPPORT. What the operations of Machine/Strobe.lean keep. -/

namespace Sys2Proof.Machine

theorem State.openGrace_keeps {s0 : State} (s : State) (hk : Keeps s0 s) : Keeps s0 (State.openGrace s) := by
  unfold State.openGrace
  try dsimp only
  repeat' (first
    | with_reducible assumption
    | with_reducible apply State.wr_keeps)

theorem State.failPage_keeps {s0 : State} (s : State) (f : Fail) (hk : Keeps s0 s) : Keeps s0 (State.failPage s f) := by
  unfold State.failPage
  try dsimp only
  repeat' (first
    | with_reducible assumption
    | with_reducible apply State.raise_keeps
    | with_reducible apply State.refuse_keeps
    | with_reducible apply State.wr_keeps)

theorem State.showBusy_keeps {s0 : State} (s : State) (p : Nat) (hk : Keeps s0 s) : Keeps s0 (State.showBusy s p) := by
  unfold State.showBusy
  try dsimp only
  repeat' (first
    | with_reducible assumption
    | with_reducible apply State.wrb_keeps)

theorem State.strobeEnd_keeps {s0 : State} (s : State) (hk : Keeps s0 s) : Keeps s0 (State.strobeEnd s) := by
  unfold State.strobeEnd
  try dsimp only
  repeat' (first
    | with_reducible assumption
    | intro _
    | with_reducible apply State.cmdEnd_keeps
    | with_reducible apply State.showBusy_keeps
    | with_reducible apply State.wr_keeps
    | with_reducible apply Keeps.foldl
    | with_reducible apply Keeps.foldlFst
    | simp only [Keeps.mk1])

theorem State.strobeRefuse_keeps {s0 : State} (s : State) (l : List Fail) (hk : Keeps s0 s) : Keeps s0 (State.strobeRefuse s l) := by
  unfold State.strobeRefuse
  try dsimp only
  repeat' (first
    | with_reducible assumption
    | intro _
    | with_reducible apply State.failPage_keeps
    | with_reducible apply State.strobeEnd_keeps
    | with_reducible apply State.wr_keeps
    | with_reducible apply Keeps.ite
    | with_reducible apply Keeps.foldl
    | with_reducible apply Keeps.foldlFst
    | simp only [Keeps.mk1]
    | with_reducible rfl
    | split)

theorem State.pageHook_keeps {s0 : State} (old s : State) (p : Nat) (hk : Keeps s0 s) : Keeps s0 (State.pageHook old s p) := by
  unfold State.pageHook
  try dsimp only
  repeat' (first
    | with_reducible assumption
    | with_reducible apply State.canApplied_keeps
    | with_reducible apply State.lanesGo_keeps
    | with_reducible apply State.ledgerCheck_keeps
    | with_reducible apply State.netApplied_keeps
    | with_reducible apply State.pumpLane_keeps
    | with_reducible apply State.setHostSt_keeps
    | with_reducible apply State.wr_keeps
    | with_reducible apply Keeps.ite
    | simp only [Keeps.mk1])

theorem State.clearHook_keeps {s0 : State} (s : State) (p : Nat) (hk : Keeps s0 s) : Keeps s0 (State.clearHook s p) := by
  unfold State.clearHook
  try dsimp only
  repeat' (first
    | with_reducible assumption
    | with_reducible apply State.gateStart_keeps
    | with_reducible apply State.hostOff_keeps
    | with_reducible apply State.ledgerCheck_keeps
    | with_reducible apply State.netApplied_keeps
    | with_reducible apply Keeps.ite)

theorem State.commitPage_keeps {s0 : State} (s : State) (p : Nat) (hk : Keeps s0 s) : Keeps s0 (State.commitPage s p) := by
  unfold State.commitPage
  try dsimp only
  repeat' (first
    | with_reducible assumption
    | with_reducible apply State.raise_keeps
    | with_reducible apply State.wr_keeps
    | with_reducible apply Keeps.ite
    | simp only [Keeps.mk1])

theorem State.strobeCommit_keeps {s0 : State} (s : State) (hk : Keeps s0 s) : Keeps s0 (State.strobeCommit s) := by
  unfold State.strobeCommit
  try dsimp only
  repeat' (first
    | with_reducible assumption
    | intro _
    | with_reducible apply State.clearHook_keeps
    | with_reducible apply State.commitPage_keeps
    | with_reducible apply State.openGrace_keeps
    | with_reducible apply State.pageHook_keeps
    | with_reducible apply State.strobeEnd_keeps
    | with_reducible apply State.swapPage_keeps
    | with_reducible apply State.wr_keeps
    | with_reducible apply Keeps.ite
    | with_reducible apply Keeps.foldl)

theorem State.armsDone_keeps {s0 : State} (s : State) (hk : Keeps s0 s) : Keeps s0 (State.armsDone s) := by
  unfold State.armsDone
  try dsimp only
  repeat' (first
    | with_reducible assumption
    | intro _
    | with_reducible apply State.strobeCommit_keeps
    | with_reducible apply Keeps.ite)

theorem State.strobeBegin_keeps {s0 : State} (s : State) (hk : Keeps s0 s) : Keeps s0 (State.strobeBegin s) := by
  unfold State.strobeBegin
  try dsimp only
  repeat' (first
    | with_reducible assumption
    | intro _
    | with_reducible apply State.showBusy_keeps
    | with_reducible apply State.strobeEnd_keeps
    | with_reducible apply State.strobeRefuse_keeps
    | with_reducible apply State.wr_keeps
    | with_reducible apply Keeps.ite
    | with_reducible apply Keeps.foldl
    | with_reducible apply Keeps.foldlFst
    | simp only [Keeps.mk1])

theorem State.startStrobe_keeps {s0 : State} (groups : Nat) (s : State) (hk : Keeps s0 s) : Keeps s0 (State.startStrobe groups s) := by
  unfold State.startStrobe
  try dsimp only
  repeat' (first
    | with_reducible assumption
    | with_reducible apply State.cmdStart_keeps
    | with_reducible apply State.strobeBegin_keeps
    | with_reducible apply Keeps.ite
    | simp only [Keeps.mk1])

theorem State.strobeChecked_keeps {s0 : State} (s : State) (hk : Keeps s0 s) : Keeps s0 (State.strobeChecked s) := by
  unfold State.strobeChecked
  try dsimp only
  repeat' (first
    | with_reducible assumption
    | with_reducible apply State.armsDone_keeps
    | with_reducible apply State.strobeRefuse_keeps
    | with_reducible apply Keeps.ite
    | simp only [Keeps.mk1])

theorem State.armPage_keeps {s0 : State} (s : State) (p : Nat) (hk : Keeps s0 s) : Keeps s0 (State.armPage s p) := by
  unfold State.armPage
  try dsimp only
  repeat' (first
    | with_reducible assumption
    | with_reducible apply State.armsDone_keeps
    | with_reducible apply Keeps.ite
    | simp only [Keeps.mk1])

theorem State.strobeLate_keeps {s0 : State} (s : State) (hk : Keeps s0 s) : Keeps s0 (State.strobeLate s) := by
  unfold State.strobeLate
  try dsimp only
  repeat' (first
    | with_reducible assumption
    | intro _
    | with_reducible apply State.strobeRefuse_keeps
    | with_reducible apply Keeps.ite)

theorem State.aonApplied_keeps {s0 : State} (s : State) (p : Nat) (hk : Keeps s0 s) : Keeps s0 (State.aonApplied s p) := by
  unfold State.aonApplied
  try dsimp only
  repeat' (first
    | with_reducible assumption
    | with_reducible apply State.raise_keeps
    | with_reducible apply State.wr_keeps
    | with_reducible apply Keeps.ite
    | simp only [Keeps.mk1])

theorem State.enableCheckOver_keeps {s0 : State} (s : State) (p : Nat) (hk : Keeps s0 s) : Keeps s0 (State.enableCheckOver s p) := by
  unfold State.enableCheckOver
  try dsimp only
  repeat' (first
    | with_reducible assumption
    | with_reducible apply State.showBusy_keeps
    | simp only [Keeps.mk1])

theorem State.strobeWaited_keeps {s0 : State} (s : State) (hk : Keeps s0 s) : Keeps s0 (State.strobeWaited s) := by
  unfold State.strobeWaited
  try dsimp only
  repeat' (first
    | with_reducible assumption
    | with_reducible apply State.strobeBegin_keeps
    | with_reducible apply Keeps.ite)

theorem State.ctrlEffect_keeps {s0 : State} (s : State) (p v : Nat) (hk : Keeps s0 s) : Keeps s0 (State.ctrlEffect s p v) := by
  unfold State.ctrlEffect
  try dsimp only
  repeat' (first
    | with_reducible assumption
    | with_reducible apply State.openGrace_keeps
    | with_reducible apply State.wr_keeps
    | with_reducible apply State.wrb_keeps
    | with_reducible apply Keeps.ite)

theorem State.enableChecked_keeps {s0 : State} (s : State) (p : Nat) (hk : Keeps s0 s) : Keeps s0 (State.enableChecked s p) := by
  unfold State.enableChecked
  try dsimp only
  repeat' (first
    | with_reducible assumption
    | with_reducible apply State.ctrlEffect_keeps
    | with_reducible apply State.enableCheckOver_keeps
    | with_reducible apply State.failPage_keeps
    | with_reducible apply State.strobeWaited_keeps
    | with_reducible apply State.wr_keeps
    | with_reducible apply Keeps.ite
    | split)

theorem State.pageCtrl_keeps {s0 : State} (s : State) (p v : Nat) (hk : Keeps s0 s) : Keeps s0 (State.pageCtrl s p v) := by
  unfold State.pageCtrl
  try dsimp only
  repeat' (first
    | with_reducible assumption
    | with_reducible apply State.ctrlEffect_keeps
    | with_reducible apply State.enableCheckOver_keeps
    | with_reducible apply State.showBusy_keeps
    | with_reducible apply State.strobeWaited_keeps
    | with_reducible apply State.writeLostWith_keeps
    | with_reducible apply Keeps.ite
    | simp only [Keeps.mk1])

theorem State.mismatch_keeps {s0 : State} (s : State) (hk : Keeps s0 s) : Keeps s0 (State.mismatch s) := by
  unfold State.mismatch
  try dsimp only
  repeat' (first
    | with_reducible assumption
    | intro _
    | with_reducible apply State.bump_keeps
    | with_reducible apply State.gateStart_keeps
    | with_reducible apply State.holdHost_keeps
    | with_reducible apply State.raise_keeps
    | with_reducible apply State.sealFrom_keeps
    | with_reducible apply Keeps.ite
    | with_reducible apply Keeps.foldl
    | with_reducible apply Keeps.foldlFst
    | simp only [Keeps.mk1])

theorem State.scanEnds_keeps {s0 : State} (s : State) (hk : Keeps s0 s) : Keeps s0 (State.scanEnds s) := by
  unfold State.scanEnds
  try dsimp only
  repeat' (first
    | with_reducible assumption
    | with_reducible apply State.cmdEnd_keeps
    | with_reducible apply State.mismatch_keeps
    | with_reducible apply State.raise_keeps
    | with_reducible apply State.refuse_keeps
    | with_reducible apply State.wr_keeps
    | with_reducible apply Keeps.ite
    | simp only [Keeps.mk1]
    | with_reducible rfl
    | split)

theorem State.startCrcCommit_keeps {s0 : State} (v : Nat) (s : State) (hk : Keeps s0 s) : Keeps s0 (State.startCrcCommit v s) := by
  unfold State.startCrcCommit
  try dsimp only
  repeat' (first
    | with_reducible assumption
    | with_reducible apply State.cmdStart_keeps
    | with_reducible apply State.wr_keeps
    | simp only [Keeps.mk1])

theorem State.graceEnds_keeps {s0 : State} (s : State) (hk : Keeps s0 s) : Keeps s0 (State.graceEnds s) := by
  unfold State.graceEnds
  try dsimp only
  repeat' (first
    | with_reducible assumption
    | with_reducible apply State.mismatch_keeps
    | with_reducible apply State.refuse_keeps
    | with_reducible apply State.wr_keeps
    | with_reducible apply Keeps.ite)

end Sys2Proof.Machine
end

