-- ==== Sys2Proof/Laws/KeepsAccess.lean ====
section
/-! SUPPORT. What the operations of Machine/Access.lean keep. -/

namespace Sys2Proof.Machine

theorem State.busError_keeps {s0 : State} (s : State) (hk : Keeps s0 s) : Keeps s0 (State.busError s) := by
  unfold State.busError
  try dsimp only
  repeat' (first
    | with_reducible assumption
    | simp only [Keeps.mk1])

theorem State.busData_keeps {s0 : State} (s : State) (v : Nat) (hk : Keeps s0 s) : Keeps s0 (State.busData s v) := by
  unfold State.busData
  try dsimp only
  repeat' (first
    | with_reducible assumption
    | simp only [Keeps.mk1])

theorem State.putField_keeps {s0 : State} (s : State) (value : Nat) (f : Fld) (hk : Keeps s0 s) : Keeps s0 (State.putField s value f) := by
  unfold State.putField
  try dsimp only
  repeat' (first
    | with_reducible assumption
    | with_reducible apply State.spend_keeps
    | with_reducible apply State.wr_keeps
    | with_reducible apply State.writeLost_keeps
    | with_reducible apply Keeps.ite
    | split)

theorem State.shadowWrite_keeps {s0 : State} (s : State) (p off value : Nat) (hk : Keeps s0 s) : Keeps s0 (State.shadowWrite s p off value) := by
  unfold State.shadowWrite
  try dsimp only
  repeat' (first
    | with_reducible assumption
    | intro _
    | with_reducible apply State.setShadow_keeps
    | with_reducible apply State.writeLost_keeps
    | with_reducible apply State.writeLostWith_keeps
    | with_reducible apply Keeps.ite
    | with_reducible apply Keeps.foldl
    | with_reducible apply Keeps.foldlFst
    | simp only [Keeps.mk1])

theorem State.cfdWord_keeps {s0 : State} (s : State) (p off value : Nat) (hk : Keeps s0 s) : Keeps s0 (State.cfdWord s p off value) := by
  unfold State.cfdWord
  try dsimp only
  repeat' (first
    | with_reducible assumption
    | intro _
    | with_reducible apply State.openGrace_keeps
    | with_reducible apply State.wr_keeps
    | with_reducible apply State.writeLostWith_keeps
    | with_reducible apply Keeps.ite
    | with_reducible apply Keeps.foldl
    | with_reducible apply Keeps.foldlFst
    | split)

theorem State.plainWrite_keeps {s0 : State} (s : State) (p off value : Nat) (hk : Keeps s0 s) : Keeps s0 (State.plainWrite s p off value) := by
  unfold State.plainWrite
  try dsimp only
  repeat' (first
    | with_reducible assumption
    | intro _
    | with_reducible apply State.cfdWord_keeps
    | with_reducible apply State.pageCtrl_keeps
    | with_reducible apply State.pumpLane_keeps
    | with_reducible apply State.putField_keeps
    | with_reducible apply State.shadowWrite_keeps
    | with_reducible apply State.writeLost_keeps
    | with_reducible apply Keeps.ite
    | with_reducible apply Keeps.foldl)

theorem State.crossDone_keeps {s0 : State} (s : State) (x : XAccess) (hk : Keeps s0 s) : Keeps s0 (State.crossDone s x) := by
  unfold State.crossDone
  try dsimp only
  repeat' (first
    | with_reducible assumption
    | with_reducible apply State.busData_keeps
    | with_reducible apply State.plainWrite_keeps
    | with_reducible apply State.readWord_keeps
    | split)

theorem State.waitsDone_keeps {s0 : State} (s : State) (n : Nat) (hk : Keeps s0 s) : Keeps s0 (State.waitsDone s n) := by
  unfold State.waitsDone
  try dsimp only
  repeat' (first
    | with_reducible assumption
    | intro _
    | with_reducible apply State.crossDone_keeps
    | with_reducible apply Keeps.foldl
    | with_reducible apply Keeps.foldlFst
    | simp only [Keeps.mk1])

theorem State.portCsRise_keeps {s0 : State} (s : State) (n : Nat) (hk : Keeps s0 s) : Keeps s0 (State.portCsRise s n) := by
  unfold State.portCsRise
  try dsimp only
  repeat' (first
    | with_reducible assumption
    | with_reducible apply State.portEnd_keeps
    | with_reducible apply State.waitsDone_keeps
    | with_reducible apply Keeps.ite)

theorem State.stallAbort_keeps {s0 : State} (s : State) (dom : Nat) (hk : Keeps s0 s) : Keeps s0 (State.stallAbort s dom) := by
  unfold State.stallAbort
  try dsimp only
  repeat' (first
    | with_reducible assumption
    | intro _
    | with_reducible apply State.busError_keeps
    | with_reducible apply State.raise_keeps
    | with_reducible apply State.wr_keeps
    | simp only [Keeps.mk1]
    | with_reducible rfl
    | split)

end Sys2Proof.Machine
end

