-- ==== Sys2Proof/Laws/KeepsBoot.lean ====
section
/-! SUPPORT. What the operations of Machine/Boot.lean keep. -/

namespace Sys2Proof.Machine

theorem State.recordSigs_keeps {s0 : State} (s : State) (ml ec : Bool) (hk : Keeps s0 s) : Keeps s0 (State.recordSigs s ml ec) := by
  unfold State.recordSigs
  try dsimp only
  repeat' (first
    | with_reducible assumption
    | with_reducible apply State.wrb_keeps)

theorem State.attemptEntry_keeps {s0 : State} (s : State) (source slot code : Nat) (hk : Keeps s0 s) : Keeps s0 (State.attemptEntry s source slot code) := by
  unfold State.attemptEntry
  try dsimp only
  repeat' (first
    | with_reducible assumption
    | intro _
    | with_reducible apply State.wr_keeps
    | with_reducible apply Keeps.ite
    | with_reducible apply Keeps.foldl
    | with_reducible apply Keeps.foldlFst
    | simp only [Keeps.mk1])

theorem State.attempt_keeps {s0 : State} (s : State) (source slot reason : Nat) (hk : Keeps s0 s) : Keeps s0 (State.attempt s source slot reason) := by
  unfold State.attempt
  try dsimp only
  repeat' (first
    | with_reducible assumption
    | with_reducible apply State.attemptEntry_keeps)

theorem State.attemptOk_keeps {s0 : State} (s : State) (source slot : Nat) (hk : Keeps s0 s) : Keeps s0 (State.attemptOk s source slot) := by
  unfold State.attemptOk
  try dsimp only
  repeat' (first
    | with_reducible assumption
    | with_reducible apply State.attemptEntry_keeps)

theorem State.signerFault_keeps {s0 : State} (s : State) (m : List Byte) (hk : Keeps s0 s) : Keeps s0 (State.signerFault s m).1 := by
  unfold State.signerFault
  try dsimp only
  repeat' (first
    | with_reducible assumption
    | with_reducible apply State.recordSigs_keeps
    | with_reducible apply Keeps.ite
    | with_reducible apply Keeps.iteFst)

theorem State.tryStored_keeps {s0 : State} (s : State) (source slot ch base : Nat) (hk : Keeps s0 s) : Keeps s0 (State.tryStored s source slot ch base).1 := by
  unfold State.tryStored
  try dsimp only
  repeat' (first
    | with_reducible assumption
    | with_reducible apply State.attempt_keeps
    | with_reducible apply State.attemptOk_keeps
    | with_reducible apply State.signerFault_keeps
    | with_reducible apply State.sramClear_keeps
    | with_reducible apply State.sramStore_keeps
    | simp only [Keeps.mk1]
    | with_reducible rfl
    | split)

theorem State.tryS0_keeps {s0 : State} (s : State) (hk : Keeps s0 s) : Keeps s0 (State.tryS0 s).1 := by
  unfold State.tryS0
  try dsimp only
  repeat' (first
    | with_reducible assumption
    | with_reducible apply State.attempt_keeps
    | with_reducible apply State.tryStored_keeps
    | with_reducible apply Keeps.ite
    | with_reducible apply Keeps.iteFst
    | simp only [Keeps.mk1]
    | with_reducible rfl
    | split)

theorem State.tryS1_keeps {s0 : State} (s : State) (hk : Keeps s0 s) : Keeps s0 (State.tryS1 s).1 := by
  unfold State.tryS1
  try dsimp only
  repeat' (first
    | with_reducible assumption
    | with_reducible apply State.attempt_keeps
    | with_reducible apply State.romBringUp_keeps
    | with_reducible apply State.tryStored_keeps
    | split)

theorem State.enterAwait_keeps {s0 : State} (s : State) (hk : Keeps s0 s) : Keeps s0 (State.enterAwait s) := by
  unfold State.enterAwait
  try dsimp only
  repeat' (first
    | with_reducible assumption
    | with_reducible apply State.holdAll_keeps
    | with_reducible apply State.wr_keeps
    | simp only [Keeps.mk1])

theorem State.handOver_keeps {s0 : State} (s : State) (hk : Keeps s0 s) : Keeps s0 (State.handOver s) := by
  unfold State.handOver
  try dsimp only
  repeat' (first
    | with_reducible assumption
    | intro _
    | with_reducible apply State.clearDge_keeps
    | with_reducible apply State.rootLoad_keeps
    | with_reducible apply State.sramClear_keeps
    | with_reducible apply State.wr_keeps
    | with_reducible apply State.wrb_keeps
    | with_reducible apply Keeps.ite
    | with_reducible apply Keeps.foldl
    | with_reducible apply Keeps.foldlFst
    | simp only [Keeps.mk1]
    | with_reducible rfl
    | split)

theorem State.trySources_keeps {s0 : State} (s : State) (l : List Nat) (h : Keeps s0 s) : Keeps s0 (State.trySources s l) := by
  induction l generalizing s with
  | nil => exact State.enterAwait_keeps _ h
  | cons src rest ih =>
    unfold State.trySources
    repeat' (first
      | with_reducible apply ih
      | with_reducible assumption
      | intro _
      | with_reducible apply State.enterAwait_keeps
      | with_reducible apply State.handOver_keeps
      | with_reducible apply State.tryS0_keeps
      | with_reducible apply State.tryS1_keeps
      | with_reducible apply Keeps.ite
      | with_reducible apply Keeps.iteFst
      | simp only [Keeps.mk1])

theorem State.romSources_keeps {s0 : State} (s : State) (l : List Nat) (hk : Keeps s0 s) : Keeps s0 (State.romSources s l) := by
  unfold State.romSources
  try dsimp only
  repeat' (first
    | with_reducible assumption
    | with_reducible apply State.romBringUp_keeps
    | with_reducible apply State.trySources_keeps
    | with_reducible apply Keeps.ite
    | simp only [Keeps.mk1])

theorem State.loadMac_keeps {s0 : State} (s : State) (hk : Keeps s0 s) : Keeps s0 (State.loadMac s) := by
  unfold State.loadMac
  try dsimp only
  repeat' (first
    | with_reducible assumption
    | intro _
    | with_reducible apply State.setApplied_keeps
    | with_reducible apply State.setShadow_keeps
    | with_reducible apply Keeps.foldl)

theorem State.romState_keeps {s0 : State} (s : State) (fresh : Bool) (hk : Keeps s0 s) : Keeps s0 (State.romState s fresh) := by
  unfold State.romState
  try dsimp only
  repeat' (first
    | with_reducible assumption
    | with_reducible apply State.loadMac_keeps
    | with_reducible apply State.raise_keeps
    | with_reducible apply State.wr_keeps
    | with_reducible apply Keeps.ite)

theorem State.bornRoot_keeps {s0 : State} (s : State) (h : Keeps s0 s) : Keeps s0 (State.bornRoot s) := by
  have k := State.draw_keeps s 48 h
  exact ⟨k.1, k.2, k.3, k.4, k.5, k.6, k.7, h.8.trans ⟨rfl, rfl, id, id, id, id, id, id, id⟩, k.9⟩

theorem State.romTry_keeps {s0 : State} (s : State) (hk : Keeps s0 s) : Keeps s0 (State.romTry s) := by
  unfold State.romTry
  try dsimp only
  repeat' (first
    | with_reducible assumption
    | with_reducible apply State.romSources_keeps
    | with_reducible apply State.wr_keeps
    | with_reducible apply State.wrb_keeps)

theorem State.romGo_keeps {s0 : State} (s : State) (hk : Keeps s0 s) : Keeps s0 (State.romGo s) := by
  unfold State.romGo
  try dsimp only
  repeat' (first
    | with_reducible assumption
    | with_reducible apply State.bornRoot_keeps
    | with_reducible apply State.romSources_keeps
    | with_reducible apply State.romTry_keeps
    | with_reducible apply Keeps.ite
    | split)

theorem State.romOrder_keeps {s0 : State} (s : State) (fresh : Bool) (hk : Keeps s0 s) : Keeps s0 (State.romOrder s fresh) := by
  unfold State.romOrder
  try dsimp only
  repeat' (first
    | with_reducible assumption
    | with_reducible apply State.romGo_keeps
    | with_reducible apply State.romTry_keeps
    | with_reducible apply Keeps.ite
    | simp only [Keeps.mk1])

theorem State.romFatal_keeps {s0 : State} (s : State) (hk : Keeps s0 s) : Keeps s0 (State.romFatal s) := by
  unfold State.romFatal
  try dsimp only
  repeat' (first
    | with_reducible assumption
    | intro _
    | with_reducible apply State.attempt_keeps
    | with_reducible apply State.holdHost_keeps
    | with_reducible apply State.wr_keeps
    | with_reducible apply Keeps.ite
    | with_reducible apply Keeps.foldl
    | with_reducible apply Keeps.foldlFst
    | simp only [Keeps.mk1])

theorem State.romBoot_keeps {s0 : State} (s : State) (c0Ok fresh : Bool) (testEn : Bool) (hk : Keeps s0 s) : Keeps s0 (State.romBoot s c0Ok fresh testEn) := by
  unfold State.romBoot
  try dsimp only
  repeat' (first
    | with_reducible assumption
    | with_reducible apply State.romFatal_keeps
    | with_reducible apply State.romOrder_keeps
    | with_reducible apply State.romState_keeps
    | with_reducible apply State.sealFrom_keeps
    | with_reducible apply State.wr_keeps
    | with_reducible apply Keeps.ite
    | simp only [Keeps.mk1])

theorem State.pushFail_keeps {s0 : State} (s : State) (medium reason : Nat) (hk : Keeps s0 s) : Keeps s0 (State.pushFail s medium reason) := by
  unfold State.pushFail
  try dsimp only
  repeat' (first
    | with_reducible assumption
    | with_reducible apply State.attempt_keeps
    | with_reducible apply State.sramClear_keeps
    | with_reducible apply State.trySources_keeps
    | simp only [Keeps.mk1]
    | with_reducible rfl
    | split)

theorem State.pushManifest_keeps {s0 : State} (s : State) (medium off : Nat) (last : Bool) (data : List Byte) (hk : Keeps s0 s) : Keeps s0 (State.pushManifest s medium off last data).1 := by
  unfold State.pushManifest
  try dsimp only
  repeat' (first
    | with_reducible assumption
    | with_reducible apply State.pushFail_keeps
    | with_reducible apply State.signerFault_keeps
    | with_reducible apply Keeps.ite
    | with_reducible apply Keeps.iteFst
    | simp only [Keeps.mk1]
    | with_reducible rfl
    | split)

theorem State.pushLeaves_keeps {s0 : State} (s : State) (medium off : Nat) (data : List Byte) (hk : Keeps s0 s) : Keeps s0 (State.pushLeaves s medium off data).1 := by
  unfold State.pushLeaves
  try dsimp only
  repeat' (first
    | with_reducible assumption
    | with_reducible apply State.pushFail_keeps
    | with_reducible apply Keeps.ite
    | with_reducible apply Keeps.iteFst
    | simp only [Keeps.mk1]
    | with_reducible rfl
    | split)

theorem State.pushData_keeps {s0 : State} (s : State) (medium off : Nat) (data : List Byte) (hk : Keeps s0 s) : Keeps s0 (State.pushData s medium off data).1 := by
  unfold State.pushData
  try dsimp only
  repeat' (first
    | with_reducible assumption
    | with_reducible apply State.pushFail_keeps
    | with_reducible apply State.sramStore_keeps
    | with_reducible apply Keeps.ite
    | with_reducible apply Keeps.iteFst
    | simp only [Keeps.mk1]
    | with_reducible rfl
    | split)

theorem State.pushEnd_keeps {s0 : State} (s : State) (medium : Nat) (hk : Keeps s0 s) : Keeps s0 (State.pushEnd s medium).1 := by
  unfold State.pushEnd
  try dsimp only
  repeat' (first
    | with_reducible assumption
    | with_reducible apply State.attemptOk_keeps
    | with_reducible apply State.handOver_keeps
    | with_reducible apply State.pushFail_keeps
    | with_reducible apply Keeps.ite
    | with_reducible apply Keeps.iteFst
    | simp only [Keeps.mk1]
    | with_reducible rfl
    | split)

theorem State.startCore_keeps {s0 : State} (s : State) (c entry : Nat) (hk : Keeps s0 s) : Keeps s0 (State.startCore s c entry) := by
  unfold State.startCore
  try dsimp only
  repeat' (first
    | with_reducible assumption
    | with_reducible apply State.wr_keeps
    | simp only [Keeps.mk1])

theorem State.startRing_keeps {s0 : State} (c entry : Nat) (s : State) (hk : Keeps s0 s) : Keeps s0 (State.startRing c entry s) := by
  unfold State.startRing
  try dsimp only
  repeat' (first
    | with_reducible assumption
    | with_reducible apply State.refuse_keeps
    | with_reducible apply State.startCore_keeps
    | with_reducible apply Keeps.ite)

theorem State.startGo_keeps {s0 : State} (s : State) (hk : Keeps s0 s) : Keeps s0 (State.startGo s) := by
  unfold State.startGo
  try dsimp only
  repeat' (first
    | with_reducible assumption
    | intro _
    | with_reducible apply State.lanesFollow_keeps
    | with_reducible apply State.spend_keeps
    | with_reducible apply State.startCore_keeps
    | with_reducible apply State.wr_keeps
    | with_reducible apply Keeps.ite
    | with_reducible apply Keeps.foldl
    | with_reducible apply Keeps.foldlFst
    | simp only [Keeps.mk1]
    | with_reducible rfl
    | split)

theorem State.otpRefuse_keeps {s0 : State} (s : State) (code : Nat) (hk : Keeps s0 s) : Keeps s0 (State.otpRefuse s code) := by
  unfold State.otpRefuse
  try dsimp only
  repeat' (first
    | with_reducible assumption
    | with_reducible apply State.cmdEnd_keeps
    | with_reducible apply State.refuse_keeps)

theorem State.otpStart_keeps {s0 : State} (s : State) (i : Instr) (rec : List Byte) (hk : Keeps s0 s) : Keeps s0 (State.otpStart s i rec) := by
  unfold State.otpStart
  try dsimp only
  repeat' (first
    | with_reducible assumption
    | with_reducible apply State.cmdStart_keeps
    | simp only [Keeps.mk1])

theorem State.startProgramFields_keeps {s0 : State} (addr : Nat) (s : State) (hk : Keeps s0 s) : Keeps s0 (State.startProgramFields addr s) := by
  unfold State.startProgramFields
  try dsimp only
  repeat' (first
    | with_reducible assumption
    | with_reducible apply State.otpRefuse_keeps
    | with_reducible apply State.otpStart_keeps
    | with_reducible apply Keeps.ite)

theorem State.startRevokeEntry_keeps {s0 : State} (b : Bool) (s : State) (hk : Keeps s0 s) : Keeps s0 (State.startRevokeEntry b s) := by
  unfold State.startRevokeEntry
  try dsimp only
  repeat' (first
    | with_reducible assumption
    | with_reducible apply State.otpRefuse_keeps
    | with_reducible apply State.otpStart_keeps
    | with_reducible apply Keeps.ite)

theorem State.otpFinish_keeps {s0 : State} (s : State) (h : Keeps s0 s) : Keeps s0 (State.otpFinish s) := by
  unfold State.otpFinish
  split
  · exact h
  split
  · exact h
  apply State.cmdEnd_keeps
  apply State.raise_keeps
  refine ⟨h.1, h.2, h.3, h.4, h.5, h.6, h.7, h.8.trans ?_, h.9⟩
  split
  · exact ⟨rfl, rfl, id, id, id, id, id, id, id⟩
  · exact ⟨rfl, rfl, id, id, id, id, fun _ => rfl, id, id⟩
  · exact ⟨rfl, rfl, id, id, id, id, id, fun _ => rfl, id⟩
  · exact otpOneWay.refl _

end Sys2Proof.Machine
end

