-- ==== Sys2Proof/Laws/KeepsService.lean ====
section
/-! SUPPORT. What the operations of Machine/Service.lean keep. -/

namespace Sys2Proof.Machine

theorem State.jobStep_keeps {s0 : State} (s : State) (hk : Keeps s0 s) : Keeps s0 (State.jobStep s) := by
  unfold State.jobStep
  try dsimp only
  repeat' (first
    | with_reducible assumption
    | with_reducible apply State.attGranted_keeps
    | with_reducible apply State.grantResume_keeps
    | with_reducible apply State.hostGo_keeps
    | with_reducible apply State.lcsGranted_keeps
    | with_reducible apply State.ledgGranted_keeps
    | with_reducible apply State.pumpPke_keeps
    | with_reducible apply State.releaseHeld_keeps
    | with_reducible apply State.setSched_keeps
    | with_reducible apply State.stxGranted_keeps
    | with_reducible apply State.timeGranted_keeps
    | with_reducible apply Keeps.ite
    | simp only [Keeps.mk1]
    | with_reducible rfl
    | split)

theorem State.goOn_keeps {s0 : State} (s : State) (hk : Keeps s0 s) : Keeps s0 (State.goOn s) := by
  unfold State.goOn
  try dsimp only
  repeat' (first
    | with_reducible assumption
    | intro _
    | with_reducible apply State.hostsGo_keeps
    | with_reducible apply State.jobStep_keeps
    | with_reducible apply State.releaseHeld_keeps
    | with_reducible apply State.romGo_keeps
    | with_reducible apply State.sealGo_keeps
    | with_reducible apply State.sealKick_keeps
    | with_reducible apply State.settle_keeps
    | with_reducible apply State.vaultGo_keeps
    | with_reducible apply Keeps.ite
    | with_reducible apply Keeps.foldl)

theorem State.resumeAfterBrace_keeps {s0 : State} (s : State) (hk : Keeps s0 s) : Keeps s0 (State.resumeAfterBrace s) := by
  unfold State.resumeAfterBrace
  try dsimp only
  repeat' (first
    | with_reducible assumption
    | with_reducible apply State.commitStart_keeps
    | with_reducible apply State.freezeStep_keeps
    | with_reducible apply State.fuseResume_keeps
    | with_reducible apply State.goOn_keeps
    | with_reducible apply State.lcsContinue_keeps
    | with_reducible apply State.ledgResume_keeps
    | with_reducible apply State.pumpLane_keeps
    | with_reducible apply State.resumeChannels_keeps
    | with_reducible apply State.saveContinue_keeps
    | with_reducible apply State.stageResume_keeps
    | with_reducible apply State.timeResume_keeps
    | with_reducible apply Keeps.ite)

theorem State.servedBy_keeps {s0 : State} (s : State) (c : Nat) (r : Req) (corrupt : Bool) (hk : Keeps s0 s) : Keeps s0 (State.servedBy s c r corrupt) := by
  unfold State.servedBy
  try dsimp only
  repeat' (first
    | with_reducible assumption
    | with_reducible apply State.commitServed_keeps
    | with_reducible apply State.fwServed_keeps
    | with_reducible apply State.gateServed_keeps
    | with_reducible apply State.hostReadServed_keeps
    | with_reducible apply State.measureServed_keeps
    | with_reducible apply State.readPageServed_keeps
    | with_reducible apply State.restoreServed_keeps
    | with_reducible apply State.ringErased_keeps
    | with_reducible apply State.sweepBurst_keeps
    | with_reducible apply State.sweepServed_keeps
    | with_reducible apply Keeps.ite
    | split)

theorem State.serviceDone_keeps {s0 : State} (s : State) (c : Nat) (corrupt : Bool) (hk : Keeps s0 s) : Keeps s0 (State.serviceDone s c corrupt) := by
  unfold State.serviceDone
  try dsimp only
  repeat' (first
    | with_reducible assumption
    | with_reducible apply State.goOn_keeps
    | with_reducible apply State.pumpCh_keeps
    | with_reducible apply State.servedBy_keeps
    | with_reducible apply State.serviceEnd_keeps
    | with_reducible apply Keeps.ite
    | split)

theorem State.readFailTo_keeps {s0 : State} (s : State) (c : Nat) (r : Req) (hk : Keeps s0 s) : Keeps s0 (State.readFailTo s c r) := by
  unfold State.readFailTo
  try dsimp only
  repeat' (first
    | with_reducible assumption
    | with_reducible apply State.cmdEnd_keeps
    | with_reducible apply State.fchDone_keeps
    | with_reducible apply State.hostFailed_keeps
    | with_reducible apply State.measureEnd_keeps
    | with_reducible apply State.readFail_keeps
    | with_reducible apply State.refuse_keeps
    | with_reducible apply State.restoreFail_keeps
    | with_reducible apply State.stageReadFail_keeps
    | with_reducible apply State.wr_keeps
    | split)

theorem State.strobeMissed_keeps {s0 : State} (s : State) (c : Nat) (hk : Keeps s0 s) : Keeps s0 (State.strobeMissed s c) := by
  unfold State.strobeMissed
  try dsimp only
  repeat' (first
    | with_reducible assumption
    | with_reducible apply State.bump_keeps
    | with_reducible apply State.goOn_keeps
    | with_reducible apply State.openTxn_keeps
    | with_reducible apply State.pumpCh_keeps
    | with_reducible apply State.readFailTo_keeps
    | with_reducible apply State.readFailed_keeps
    | with_reducible apply State.serviceEnd_keeps
    | with_reducible apply State.setChan_keeps
    | with_reducible apply State.touchFail_keeps
    | with_reducible apply Keeps.ite
    | simp only [Keeps.mk1]
    | with_reducible rfl
    | split)

theorem State.pkeEnds_keeps {s0 : State} (s : State) (hk : Keeps s0 s) : Keeps s0 (State.pkeEnds s) := by
  unfold State.pkeEnds
  try dsimp only
  repeat' (first
    | with_reducible assumption
    | with_reducible apply State.gateSigned_keeps
    | with_reducible apply State.goOn_keeps
    | with_reducible apply State.pkeFinish_keeps
    | with_reducible apply State.pumpPke_keeps
    | with_reducible apply State.quoteServed_keeps
    | with_reducible apply State.setSched_keeps
    | with_reducible apply Keeps.ite
    | simp only [Keeps.mk1]
    | with_reducible rfl
    | split)

theorem State.commitDone_keeps {s0 : State} (s : State) (hk : Keeps s0 s) : Keeps s0 (State.commitDone s) := by
  unfold State.commitDone
  try dsimp only
  repeat' (first
    | with_reducible assumption
    | with_reducible apply State.blockWritten_keeps
    | with_reducible apply State.freezeStep_keeps
    | with_reducible apply State.nextBlock_keeps
    | with_reducible apply State.openingResume_keeps
    | with_reducible apply State.pumpCh_keeps
    | with_reducible apply State.sealGo_keeps
    | with_reducible apply State.serviceEnd_keeps
    | with_reducible apply State.setLedger_keeps
    | with_reducible apply Keeps.ite
    | simp only [Keeps.mk1]
    | with_reducible rfl
    | split)

theorem State.rngReady_keeps {s0 : State} (s : State) (hk : Keeps s0 s) : Keeps s0 (State.rngReady s) := by
  unfold State.rngReady
  try dsimp only
  repeat' (first
    | with_reducible assumption
    | with_reducible apply State.cmdEnd_keeps
    | with_reducible apply State.goOn_keeps
    | with_reducible apply State.wr_keeps
    | simp only [Keeps.mk1])

end Sys2Proof.Machine
end

