-- ==== Sys2Proof/Laws/KeepsLinks.lean ====
section
/-! SUPPORT. What the operations of Machine/Links.lean keep. -/

namespace Sys2Proof.Machine

theorem State.holdRom_keeps {s0 : State} (s : State) (h : RomHeld) (hk : Keeps s0 s) : Keeps s0 (State.holdRom s h) := by
  unfold State.holdRom
  try dsimp only
  repeat' (first
    | with_reducible assumption
    | simp only [Keeps.mk1])

theorem State.romChunk_keeps {s0 : State} (s : State) (medium peer seq : Nat) (c : ImageChunk) (hk : Keeps s0 s) : Keeps s0 (State.romChunk s medium peer seq c) := by
  unfold State.romChunk
  try dsimp only
  repeat' (first
    | with_reducible assumption
    | with_reducible apply State.holdRom_keeps
    | with_reducible apply State.pushData_keeps
    | with_reducible apply State.pushEnd_keeps
    | with_reducible apply State.pushLeaves_keeps
    | with_reducible apply State.pushManifest_keeps
    | with_reducible apply State.sendOn_keeps
    | with_reducible apply Keeps.ite
    | with_reducible apply Keeps.iteFst
    | simp only [Keeps.mk1]
    | with_reducible rfl
    | split)

theorem State.romFrame_keeps {s0 : State} (s : State) (medium peer : Nat) (f : List Byte) (hk : Keeps s0 s) : Keeps s0 (State.romFrame s medium peer f) := by
  unfold State.romFrame
  try dsimp only
  repeat' (first
    | with_reducible assumption
    | with_reducible apply State.romChunk_keeps
    | with_reducible apply Keeps.ite)

theorem State.fwFrame_keeps {s0 : State} (s : State) (l : Nat) (f : EthFrame) (etype : Nat) (payload : List Byte) (hk : Keeps s0 s) : Keeps s0 (State.fwFrame s l f etype payload) := by
  unfold State.fwFrame
  try dsimp only
  repeat' (first
    | with_reducible assumption
    | with_reducible apply State.bump_keeps
    | with_reducible apply State.raise_keeps
    | with_reducible apply State.setLane_keeps
    | with_reducible apply Keeps.ite)

theorem State.routeFrame_keeps {s0 : State} (s : State) (l : Nat) (f : EthFrame) (etype : Nat) (payload : List Byte) (hk : Keeps s0 s) : Keeps s0 (State.routeFrame s l f etype payload) := by
  unfold State.routeFrame
  try dsimp only
  repeat' (first
    | with_reducible assumption
    | with_reducible apply State.bump_keeps
    | with_reducible apply State.fwFrame_keeps
    | with_reducible apply State.romFrame_keeps
    | with_reducible apply State.sealGo_keeps
    | with_reducible apply State.stxFrame_keeps
    | with_reducible apply Keeps.ite)

theorem State.rxSecure_keeps {s0 : State} (s : State) (l : Nat) (f : EthFrame) (t : SecTag) (hk : Keeps s0 s) : Keeps s0 (State.rxSecure s l f t) := by
  unfold State.rxSecure
  try dsimp only
  repeat' (first
    | with_reducible assumption
    | with_reducible apply State.bump_keeps
    | with_reducible apply State.routeFrame_keeps
    | with_reducible apply State.setPn_keeps
    | with_reducible apply Keeps.ite)

theorem State.frameIn_keeps {s0 : State} (s : State) (l : Nat) (f : EthFrame) (hk : Keeps s0 s) : Keeps s0 (State.frameIn s l f) := by
  unfold State.frameIn
  try dsimp only
  repeat' (first
    | with_reducible assumption
    | with_reducible apply State.bump_keeps
    | with_reducible apply State.bumpBy_keeps
    | with_reducible apply State.routeFrame_keeps
    | with_reducible apply State.rxSecure_keeps
    | with_reducible apply Keeps.ite
    | split)

theorem State.sendFlow_keeps {s0 : State} (s : State) (p peer st : Nat) (hk : Keeps s0 s) : Keeps s0 (State.sendFlow s p peer st) := by
  unfold State.sendFlow
  try dsimp only
  repeat' (first
    | with_reducible assumption
    | with_reducible apply State.canPut_keeps)

theorem State.canMessage_keeps {s0 : State} (s : State) (p peer : Nat) (m : List Byte) (hk : Keeps s0 s) : Keeps s0 (State.canMessage s p peer m) := by
  unfold State.canMessage
  try dsimp only
  repeat' (first
    | with_reducible assumption
    | with_reducible apply State.romFrame_keeps
    | with_reducible apply State.sealGo_keeps
    | with_reducible apply State.stxFrame_keeps
    | with_reducible apply Keeps.ite)

theorem State.tpSingle_keeps {s0 : State} (s : State) (p peer : Nat) (d : List Byte) (hk : Keeps s0 s) : Keeps s0 (State.tpSingle s p peer d) := by
  unfold State.tpSingle
  try dsimp only
  repeat' (first
    | with_reducible assumption
    | intro _
    | with_reducible apply State.canMessage_keeps
    | with_reducible apply State.setCan_keeps
    | with_reducible apply Keeps.ite)

theorem State.tpFirst_keeps {s0 : State} (s : State) (p peer : Nat) (d : List Byte) (hk : Keeps s0 s) : Keeps s0 (State.tpFirst s p peer d) := by
  unfold State.tpFirst
  try dsimp only
  repeat' (first
    | with_reducible assumption
    | intro _
    | with_reducible apply State.sendFlow_keeps
    | with_reducible apply State.setCan_keeps
    | with_reducible apply Keeps.ite)

theorem State.tpNextFrame_keeps {s0 : State} (s : State) (p peer : Nat) (d : List Byte) (hk : Keeps s0 s) : Keeps s0 (State.tpNextFrame s p peer d) := by
  unfold State.tpNextFrame
  try dsimp only
  repeat' (first
    | with_reducible assumption
    | intro _
    | with_reducible apply State.canMessage_keeps
    | with_reducible apply State.sendFlow_keeps
    | with_reducible apply State.setCan_keeps
    | with_reducible apply Keeps.ite
    | simp only [Keeps.mk1]
    | with_reducible rfl
    | split)

theorem State.tpIn_keeps {s0 : State} (s : State) (p peer : Nat) (d : List Byte) (hk : Keeps s0 s) : Keeps s0 (State.tpIn s p peer d) := by
  unfold State.tpIn
  try dsimp only
  repeat' (first
    | with_reducible assumption
    | with_reducible apply State.tpFirst_keeps
    | with_reducible apply State.tpFlow_keeps
    | with_reducible apply State.tpNextFrame_keeps
    | with_reducible apply State.tpSingle_keeps
    | with_reducible apply Keeps.ite)

theorem State.canIn_keeps {s0 : State} (s : State) (p : Nat) (f : CanFrame) (hk : Keeps s0 s) : Keeps s0 (State.canIn s p f) := by
  unfold State.canIn
  try dsimp only
  repeat' (first
    | with_reducible assumption
    | with_reducible apply State.bump_keeps
    | with_reducible apply State.raise_keeps
    | with_reducible apply State.setCan_keeps
    | with_reducible apply State.tpIn_keeps
    | with_reducible apply State.wheelFrame_keeps
    | with_reducible apply Keeps.ite)

theorem State.mgpFrameError_keeps {s0 : State} (s : State) (reason : Nat) (hk : Keeps s0 s) : Keeps s0 (State.mgpFrameError s reason) := by
  unfold State.mgpFrameError
  try dsimp only
  repeat' (first
    | with_reducible assumption
    | with_reducible apply State.mgpReject_keeps
    | with_reducible apply State.raise_keeps)

theorem State.mgpLease_keeps {s0 : State} (s : State) (hk : Keeps s0 s) : Keeps s0 (State.mgpLease s) := by
  unfold State.mgpLease
  try dsimp only
  repeat' (first
    | with_reducible assumption
    | with_reducible apply State.leaseOp_keeps
    | with_reducible apply State.mgpFrameError_keeps
    | with_reducible apply State.mgpReject_keeps
    | with_reducible apply State.mgpRespond_keeps
    | with_reducible apply Keeps.ite)

theorem State.mgpMilestone_keeps {s0 : State} (s : State) (hk : Keeps s0 s) : Keeps s0 (State.mgpMilestone s) := by
  unfold State.mgpMilestone
  try dsimp only
  repeat' (first
    | with_reducible assumption
    | with_reducible apply State.mgpFrameError_keeps
    | with_reducible apply State.mgpReject_keeps
    | with_reducible apply State.mgpRespond_keeps
    | with_reducible apply State.okMilestone_keeps
    | with_reducible apply Keeps.ite)

theorem State.closeTaken_keeps {s0 : State} (s : State) (f : List Byte) (hk : Keeps s0 s) : Keeps s0 (State.closeTaken s f) := by
  unfold State.closeTaken
  try dsimp only
  repeat' (first
    | with_reducible assumption
    | with_reducible apply State.toIdle_keeps
    | with_reducible apply Keeps.ite)

theorem State.mgpStx_keeps {s0 : State} (s : State) (hk : Keeps s0 s) : Keeps s0 (State.mgpStx s) := by
  unfold State.mgpStx
  try dsimp only
  repeat' (first
    | with_reducible assumption
    | with_reducible apply State.closeTaken_keeps
    | with_reducible apply State.mgpRespond_keeps
    | with_reducible apply State.sealGo_keeps
    | with_reducible apply State.stxFrame_keeps
    | with_reducible apply Keeps.ite
    | simp only [Keeps.mk1]
    | with_reducible rfl
    | split)

theorem State.mgpLedger_keeps {s0 : State} (s : State) (hk : Keeps s0 s) : Keeps s0 (State.mgpLedger s) := by
  unfold State.mgpLedger
  try dsimp only
  repeat' (first
    | with_reducible assumption
    | with_reducible apply State.ledgerTake_keeps
    | with_reducible apply State.mgpReject_keeps
    | with_reducible apply State.mgpRespond_keeps
    | with_reducible apply Keeps.ite
    | with_reducible apply Keeps.iteFst
    | split)

theorem State.mgpPush_keeps {s0 : State} (r : State × PushAnswer) (h : Keeps s0 r.1) : Keeps s0 (State.mgpPush r) :=
  State.mgpRespond_keeps _ _ _ h


theorem State.mgpIdentity_keeps {s0 : State} (s : State) (hk : Keeps s0 s) : Keeps s0 (State.mgpIdentity s) := by
  unfold State.mgpIdentity
  try dsimp only
  repeat' (first
    | with_reducible assumption
    | with_reducible apply State.mgpFrameError_keeps
    | with_reducible apply State.mgpRespond_keeps
    | with_reducible apply Keeps.ite)

theorem State.romMessage_keeps {s0 : State} (s : State) (code : Nat) (more : Bool) (hk : Keeps s0 s) : Keeps s0 (State.romMessage s code more) := by
  unfold State.romMessage
  try dsimp only
  repeat' (first
    | with_reducible assumption
    | with_reducible apply State.holdRom_keeps
    | with_reducible apply State.mgpFrameError_keeps
    | with_reducible apply State.mgpIdentity_keeps
    | with_reducible apply State.mgpPush_keeps
    | with_reducible apply State.pushData_keeps
    | with_reducible apply State.pushEnd_keeps
    | with_reducible apply State.pushLeaves_keeps
    | with_reducible apply State.pushManifest_keeps
    | with_reducible apply Keeps.ite)

theorem State.pushResume_keeps {s0 : State} (s : State) (hk : Keeps s0 s) : Keeps s0 (State.pushResume s) := by
  unfold State.pushResume
  try dsimp only
  repeat' (first
    | with_reducible assumption
    | intro _
    | with_reducible apply State.romChunk_keeps
    | with_reducible apply State.romMessage_keeps
    | with_reducible apply Keeps.foldl
    | with_reducible apply Keeps.foldlFst
    | simp only [Keeps.mk1]
    | with_reducible rfl
    | split)

theorem State.hwMessage_keeps {s0 : State} (s : State) (code : Nat) (more : Bool) (hk : Keeps s0 s) : Keeps s0 (State.hwMessage s code more) := by
  unfold State.hwMessage
  try dsimp only
  repeat' (first
    | with_reducible assumption
    | with_reducible apply State.bump_keeps
    | with_reducible apply State.mgpFrameError_keeps
    | with_reducible apply State.mgpLease_keeps
    | with_reducible apply State.mgpLedger_keeps
    | with_reducible apply State.mgpMilestone_keeps
    | with_reducible apply State.mgpStx_keeps
    | with_reducible apply Keeps.ite)

theorem State.routeMessage_keeps {s0 : State} (s : State) (hk : Keeps s0 s) : Keeps s0 (State.routeMessage s) := by
  unfold State.routeMessage
  try dsimp only
  repeat' (first
    | with_reducible assumption
    | with_reducible apply State.hwMessage_keeps
    | with_reducible apply State.mgpFrameError_keeps
    | with_reducible apply State.mgpIdentity_keeps
    | with_reducible apply State.mgpReject_keeps
    | with_reducible apply State.raise_keeps
    | with_reducible apply State.romMessage_keeps
    | with_reducible apply State.wr_keeps
    | with_reducible apply Keeps.ite)

theorem State.mgpSubmit_keeps {s0 : State} (s : State) (hk : Keeps s0 s) : Keeps s0 (State.mgpSubmit s) := by
  unfold State.mgpSubmit
  try dsimp only
  repeat' (first
    | with_reducible assumption
    | with_reducible apply State.bump_keeps
    | with_reducible apply State.mgpFrameError_keeps
    | with_reducible apply State.routeMessage_keeps
    | with_reducible apply State.wr_keeps
    | with_reducible apply Keeps.ite
    | simp only [Keeps.mk1]
    | with_reducible rfl
    | split)

theorem State.hostMessage_keeps {s0 : State} (s : State) (code flags off : Nat) (payload : List Byte) (hk : Keeps s0 s) : Keeps s0 (State.hostMessage s code flags off payload) := by
  unfold State.hostMessage
  try dsimp only
  repeat' (first
    | with_reducible assumption
    | with_reducible apply State.mgpSubmit_keeps
    | with_reducible apply State.mgpWrite_keeps
    | with_reducible apply Keeps.ite)

theorem State.hostFragments_keeps {s0 : State} (code off : Nat) (l : List (List Byte)) (s : State) (h : Keeps s0 s) :
    Keeps s0 (State.hostFragments code off l s) := by
  induction l generalizing s off with
  | nil => exact h
  | cons p ps ih =>
    cases ps with
    | nil => exact State.hostMessage_keeps _ _ _ _ _ h
    | cons q qs => exact ih _ _ (State.hostMessage_keeps _ _ _ _ _ h)

theorem State.pageReqEnds_keeps {s0 : State} (s : State) (ok : Bool) (bs : List Byte) (hk : Keeps s0 s) : Keeps s0 (State.pageReqEnds s ok bs) := by
  unfold State.pageReqEnds
  try dsimp only
  repeat' (first
    | with_reducible assumption
    | simp only [Keeps.mk1])

theorem State.pageReqFinish_keeps {s0 : State} (s : State) (hk : Keeps s0 s) : Keeps s0 (State.pageReqFinish s) := by
  unfold State.pageReqFinish
  try dsimp only
  repeat' (first
    | with_reducible assumption
    | intro _
    | with_reducible apply State.bump_keeps
    | with_reducible apply State.pageReqEnds_keeps
    | with_reducible apply State.raise_keeps
    | with_reducible apply State.refuse_keeps
    | with_reducible apply State.wr_keeps
    | with_reducible apply Keeps.ite
    | simp only [Keeps.mk1]
    | with_reducible rfl
    | split)

end Sys2Proof.Machine
end

