-- ==== Sys2Proof/Laws/KeepsPower.lean ====
section
/-! SUPPORT. What the operations of Machine/Power.lean keep. -/

namespace Sys2Proof.Machine

theorem State.mainPor_keeps {s0 : State} (s : State) (cause : Nat) (hk : Keeps s0 s) : Keeps s0 (State.mainPor s cause) := by
  unfold State.mainPor
  try dsimp only
  repeat' (first
    | with_reducible assumption
    | with_reducible apply State.holdAll_keeps
    | with_reducible apply State.mainLost_keeps
    | simp only [Keeps.mk1])

theorem State.warmReset_keeps {s0 : State} (s : State) (cause : Nat) (c0Ok : Bool) (hk : Keeps s0 s) : Keeps s0 (State.warmReset s cause c0Ok) := by
  unfold State.warmReset
  try dsimp only
  repeat' (first
    | with_reducible assumption
    | with_reducible apply State.clkLost_keeps
    | with_reducible apply State.romBoot_keeps
    | with_reducible apply State.romFatal_keeps
    | with_reducible apply State.romState_keeps
    | with_reducible apply State.warmHosts_keeps
    | with_reducible apply State.wr_keeps
    | with_reducible apply Keeps.ite
    | simp only [Keeps.mk1])

theorem State.aonReset_keeps {s0 : State} (s : State) (hk : Keeps s0 s) : Keeps s0 (State.aonReset s) := by
  unfold State.aonReset
  try dsimp only
  repeat' (first
    | with_reducible assumption
    | with_reducible apply State.aonLost_keeps
    | with_reducible apply State.seedLoopsCold_keeps
    | with_reducible apply State.setTamper_keeps
    | with_reducible apply Keeps.ite
    | simp only [Keeps.mk1])

theorem State.mainRelease_keeps {s0 : State} (s : State) (pins : BootPins) (hk : Keeps s0 s) : Keeps s0 (State.mainRelease s pins) := by
  unfold State.mainRelease
  try dsimp only
  repeat' (first
    | with_reducible assumption
    | with_reducible apply State.cloveLog_keeps
    | with_reducible apply State.romBoot_keeps
    | with_reducible apply State.setTamper_keeps
    | with_reducible apply State.wr_keeps
    | with_reducible apply Keeps.ite
    | simp only [Keeps.mk1])

theorem State.braceDefers_keeps {s0 : State} (s : State) (hk : Keeps s0 s) : Keeps s0 (State.braceDefers s) := by
  unfold State.braceDefers
  try dsimp only
  repeat' (first
    | with_reducible assumption
    | with_reducible apply State.wr_keeps
    | with_reducible apply Keeps.ite)

theorem State.transitionFinish_keeps {s0 : State} (s : State) (hk : Keeps s0 s) : Keeps s0 (State.transitionFinish s) := by
  unfold State.transitionFinish
  try dsimp only
  repeat' (first
    | with_reducible assumption
    | with_reducible apply State.mainPor_keeps
    | with_reducible apply State.raise_keeps
    | with_reducible apply State.secLog_keeps
    | with_reducible apply Keeps.ite
    | simp only [Keeps.mk1])

end Sys2Proof.Machine
end

