-- ==== Sys2Proof/Laws/KeepsCommands.lean ====
section
/-! SUPPORT. What the operations of Machine/Commands.lean keep. -/

namespace Sys2Proof.Machine

theorem cmdLow_keeps {s0 : State} {i : Instr} {r : Nat × Nat × (State → State)} (e : cmdLow i = some r) (x : State)
    (h : Keeps s0 x) : Keeps s0 (r.2.2 x) := by
  unfold cmdLow at e
  split at e <;> cases e <;> dsimp only <;> (repeat' (first
    | with_reducible assumption
    | with_reducible apply State.drawChallenge_keeps
    | with_reducible apply State.startApply_keeps
    | with_reducible apply State.startAttach_keeps
    | with_reducible apply State.startCmp_keeps
    | with_reducible apply State.startCommit_keeps
    | with_reducible apply State.startCrcCommit_keeps
    | with_reducible apply State.startEnroll_keeps
    | with_reducible apply State.startFch_keeps
    | with_reducible apply State.startFetch_keeps
    | with_reducible apply State.startGo_keeps
    | with_reducible apply State.startHold_keeps
    | with_reducible apply State.startInit_keeps
    | with_reducible apply State.startMend_keeps
    | with_reducible apply State.startPresent_keeps
    | with_reducible apply State.startProgramAuth_keeps
    | with_reducible apply State.startProgramFields_keeps
    | with_reducible apply State.startProgramFuse_keeps
    | with_reducible apply State.startQuarantine_keeps
    | with_reducible apply State.startReload_keeps
    | with_reducible apply State.startReply_keeps
    | with_reducible apply State.startResume_keeps
    | with_reducible apply State.startRevoke_keeps
    | with_reducible apply State.startRevokeEntry_keeps
    | with_reducible apply State.startRing_keeps
    | with_reducible apply State.startSeal_keeps
    | with_reducible apply State.startStageArm_keeps
    | with_reducible apply State.startStageOpen_keeps
    | with_reducible apply State.startStrobe_keeps
    | with_reducible apply State.startSweep_keeps
    | with_reducible apply State.startVerify_keeps
    | with_reducible apply State.warmReset_keeps
    | with_reducible apply State.okMilestone_keeps
    | with_reducible apply State.wr_keeps
    | simp only [Keeps.mk1]))


theorem cmdHigh_keeps {s0 : State} {i : Instr} {r : Nat × Nat × (State → State)} (e : cmdHigh i = some r) (x : State)
    (h : Keeps s0 x) : Keeps s0 (r.2.2 x) := by
  unfold cmdHigh at e
  split at e <;> cases e <;> dsimp only <;> (repeat' (first
    | with_reducible assumption
    | with_reducible apply State.fwAesRun_keeps
    | with_reducible apply State.startAttIdentity_keeps
    | with_reducible apply State.startCanRecv_keeps
    | with_reducible apply State.startCanSend_keeps
    | with_reducible apply State.startChain_keeps
    | with_reducible apply State.startDefine_keeps
    | with_reducible apply State.startDgeRun_keeps
    | with_reducible apply State.startDiscard_keeps
    | with_reducible apply State.startDkrClear_keeps
    | with_reducible apply State.startEnable_keeps
    | with_reducible apply State.startExportAck_keeps
    | with_reducible apply State.startExportChallenge_keeps
    | with_reducible apply State.startFreeze_keeps
    | with_reducible apply State.startGen_keeps
    | with_reducible apply State.startInvalidate_keeps
    | with_reducible apply State.startLeaves_keeps
    | with_reducible apply State.startLedgInput_keeps
    | with_reducible apply State.startLoadKey_keeps
    | with_reducible apply State.startLoadRef_keeps
    | with_reducible apply State.startLockRmt_keeps
    | with_reducible apply State.startNetRecv_keeps
    | with_reducible apply State.startNetSend_keeps
    | with_reducible apply State.startPke_keeps
    | with_reducible apply State.startReadCtx_keeps
    | with_reducible apply State.startReadMeta_keeps
    | with_reducible apply State.startReadPage_keeps
    | with_reducible apply State.startRecover_keeps
    | with_reducible apply State.startRestart_keeps
    | with_reducible apply State.startRound_keeps
    | with_reducible apply State.startSaClear_keeps
    | with_reducible apply State.startSaDisable_keeps
    | with_reducible apply State.startSaLoadKey_keeps
    | with_reducible apply State.startSaLoadRef_keeps
    | with_reducible apply State.startSaveRestore_keeps
    | with_reducible apply State.startSealOp_keeps
    | with_reducible apply State.startSetOdometer_keeps
    | with_reducible apply State.startSetTxAn_keeps
    | with_reducible apply State.startSnpArm_keeps
    | with_reducible apply State.startSnpDisarm_keeps
    | with_reducible apply State.startStxClose_keeps
    | with_reducible apply State.startStxOpen_keeps
    | with_reducible apply State.startStxRecv_keeps
    | with_reducible apply State.startStxSend_keeps
    | with_reducible apply State.startThaw_keeps
    | with_reducible apply State.startTimeApply_keeps
    | with_reducible apply State.startTimeChallenge_keeps
    | with_reducible apply State.startTimeProgramAuth_keeps
    | with_reducible apply State.startUnlockRmt_keeps
    | with_reducible apply State.startVerdicts_keeps
    | with_reducible apply State.startWrapUnwrap_keeps
    | with_reducible apply State.setTamper_keeps))


theorem cmdSpec_keeps {s0 : State} {i : Instr} {r : Nat × Nat × (State → State)} (e : cmdSpec i = some r) (x : State)
    (h : Keeps s0 x) : Keeps s0 (r.2.2 x) := by
  unfold cmdSpec at e
  cases k : cmdLow i with
  | none => rw [k] at e; exact cmdHigh_keeps e x h
  | some q => rw [k] at e; cases e; exact cmdLow_keeps k x h


theorem State.issueCmd_keeps {s0 : State} (s : State) (i : Instr) (h : Keeps s0 s) : Keeps s0 (State.issueCmd s i) := by
  unfold State.issueCmd
  split
  · rename_i r e
    exact State.issue_keeps _ _ _ _ _ h (fun x => cmdSpec_keeps e x)
  · exact h


theorem State.abortCmd_keeps {s0 : State} (s : State) (p off : Nat) (hk : Keeps s0 s) : Keeps s0 (State.abortCmd s p off) := by
  unfold State.abortCmd
  try dsimp only
  repeat' (first
    | with_reducible assumption
    | with_reducible apply State.abortDge_keeps
    | with_reducible apply State.abortFch_keeps
    | with_reducible apply State.aesAbort_keeps
    | with_reducible apply State.cmdDrop_keeps
    | with_reducible apply State.cmpIdle_keeps
    | with_reducible apply State.goOn_keeps
    | with_reducible apply State.lanesGo_keeps
    | with_reducible apply State.stageStop_keeps
    | with_reducible apply Keeps.ite)

theorem State.cmdWrite_keeps {s0 : State} (s : State) (p off v : Nat) (hk : Keeps s0 s) : Keeps s0 (State.cmdWrite s p off v) := by
  unfold State.cmdWrite
  try dsimp only
  repeat' (first
    | with_reducible assumption
    | with_reducible apply State.abortCmd_keeps
    | with_reducible apply State.issueCmd_keeps
    | with_reducible apply State.refuse_keeps
    | with_reducible apply State.spend_keeps
    | with_reducible apply State.wr_keeps
    | with_reducible apply Keeps.ite
    | split)

theorem State.queuedStart_keeps {s0 : State} (s : State) (p off : Nat) (h : Keeps s0 s) : Keeps s0 (State.queuedStart s p off) := by
  unfold State.queuedStart
  split
  · split
    · rename_i e
      exact cmdSpec_keeps e _ (State.setCmdSlot_keeps _ _ _ _ h)
    · exact h
  · exact h

end Sys2Proof.Machine
end

