-- ==== Sys2Proof/Laws/KeepsPages.lean ====
section
/-! SUPPORT. What the operations of Machine/Pages.lean keep. -/

namespace Sys2Proof.Machine

theorem State.wordWrite_keeps {s0 : State} (s : State) (p off v : Nat) (hk : Keeps s0 s) : Keeps s0 (State.wordWrite s p off v) := by
  unfold State.wordWrite
  try dsimp only
  repeat' (first
    | with_reducible assumption
    | intro _
    | with_reducible apply State.cmdWrite_keeps
    | with_reducible apply State.plainWrite_keeps
    | with_reducible apply Keeps.ite)

theorem State.regAccess_keeps {s0 : State} (s : State) (x : CoreAccess) (write : Option Nat) (hk : Keeps s0 s) : Keeps s0 (State.regAccess s x write) := by
  unfold State.regAccess
  try dsimp only
  repeat' (first
    | with_reducible assumption
    | with_reducible apply State.busData_keeps
    | with_reducible apply State.busError_keeps
    | with_reducible apply State.crossDone_keeps
    | with_reducible apply State.readWord_keeps
    | with_reducible apply State.wordWrite_keeps
    | with_reducible apply Keeps.ite
    | with_reducible apply Keeps.iteFst
    | simp only [Keeps.mk1]
    | with_reducible rfl
    | split)

theorem State.tcmStore_keeps {s0 : State} (s : State) (c a : Nat) (bs : List Byte) (h : Keeps s0 s) :
    Keeps s0 (State.tcmStore s c a bs) := by
  refine ⟨h.1, h.2, h.3, h.4, h.5, h.6, fun x i => ?_, h.8, h.9⟩
  have y := h.7 x
  show Mem.wf 0 (Tbl.get [] (Tbl.put [] s.tcm c (Mem.store 0 (Tbl.get [] s.tcm c) a bs)) i)
  rw [Tbl.get_put]
  split
  · exact Mem.wf_store 0 bs _ a (y c)
  · exact y i

theorem State.memAccess_keeps {s0 : State} (s : State) (x : CoreAccess) (write : Option Nat) (hk : Keeps s0 s) : Keeps s0 (State.memAccess s x write) := by
  unfold State.memAccess
  try dsimp only
  repeat' (first
    | with_reducible assumption
    | with_reducible apply State.busData_keeps
    | with_reducible apply State.busError_keeps
    | with_reducible apply State.retStore_keeps
    | with_reducible apply State.spend_keeps
    | with_reducible apply State.sramStore_keeps
    | with_reducible apply State.tcmStore_keeps
    | with_reducible apply Keeps.ite
    | split)

theorem State.setCore_keeps {s0 : State} (s : State) (c : Nat) (v : CoreSt) (hk : Keeps s0 s) : Keeps s0 (State.setCore s c v) := by
  unfold State.setCore
  try dsimp only
  repeat' (first
    | with_reducible assumption
    | simp only [Keeps.mk1])

theorem State.access_keeps {s0 : State} (s : State) (x : CoreAccess) (write : Option Nat) (hk : Keeps s0 s) : Keeps s0 (State.access s x write) := by
  unfold State.access
  try dsimp only
  repeat' (first
    | with_reducible assumption
    | with_reducible apply State.busError_keeps
    | with_reducible apply State.memAccess_keeps
    | with_reducible apply State.regAccess_keeps
    | with_reducible apply Keeps.ite)

theorem State.tapResult_keeps {s0 : State} (s : State) (error : Bool) (data : Nat) (hk : Keeps s0 s) : Keeps s0 (State.tapResult s error data) := by
  unfold State.tapResult
  try dsimp only
  repeat' (first
    | with_reducible assumption
    | simp only [Keeps.mk1])

theorem State.debugWord_keeps {s0 : State} (s : State) (p off : Nat) (write : Option Nat) (hk : Keeps s0 s) : Keeps s0 (State.debugWord s p off write) := by
  unfold State.debugWord
  try dsimp only
  repeat' (first
    | with_reducible assumption
    | with_reducible apply State.raise_keeps
    | with_reducible apply State.readWord_keeps
    | with_reducible apply State.tapResult_keeps
    | with_reducible apply State.wordWrite_keeps
    | with_reducible apply State.wr_keeps
    | with_reducible apply Keeps.ite
    | with_reducible apply Keeps.iteFst
    | simp only [Keeps.mk1]
    | with_reducible rfl
    | split)

theorem State.coreRan_keeps {s0 : State} (s : State) (c : Nat) (hk : Keeps s0 s) : Keeps s0 (State.coreRan s c) := by
  unfold State.coreRan
  try dsimp only
  repeat' (first
    | with_reducible assumption
    | intro _
    | with_reducible apply State.setCore_keeps
    | with_reducible apply State.spend_keeps)

theorem State.haltCore_keeps {s0 : State} (s : State) (c : Nat) (b : Bool) (hk : Keeps s0 s) : Keeps s0 (State.haltCore s c b) := by
  unfold State.haltCore
  try dsimp only
  repeat' (first
    | with_reducible assumption
    | with_reducible apply State.coreRan_keeps
    | with_reducible apply State.setCore_keeps
    | with_reducible apply Keeps.ite)

theorem State.setCoreReg_keeps {s0 : State} (s : State) (c : Nat) (r : CoreReg) (v : Nat) (hk : Keeps s0 s) : Keeps s0 (State.setCoreReg s c r v) := by
  unfold State.setCoreReg
  try dsimp only
  repeat' (first
    | with_reducible assumption
    | with_reducible apply State.setCore_keeps
    | with_reducible apply Keeps.ite
    | simp only [Keeps.mk1]
    | with_reducible rfl
    | split)

theorem State.onCore_keeps {s0 : State} (s : State) (c : Fin 4) (f : State → State) (h : Keeps s0 s)
    (hf : ∀ x, Keeps s0 x → Keeps s0 (f x)) : Keeps s0 (State.onCore s c f) := by
  unfold State.onCore
  exact Keeps.ite (hf s h) (State.tapResult_keeps _ _ _ h)

theorem State.debugAccess_keeps {s0 : State} (s : State) (d : DebugAccess) (h : Keeps s0 s) : Keeps s0 (State.debugAccess s d) := by
  unfold State.debugAccess
  repeat' (first
    | with_reducible assumption
    | intro _
    | with_reducible apply State.onCore_keeps
    | with_reducible apply State.debugWord_keeps
    | with_reducible apply State.haltCore_keeps
    | with_reducible apply State.coreRan_keeps
    | with_reducible apply State.setCoreReg_keeps
    | with_reducible apply State.tcmStore_keeps
    | with_reducible apply State.mboxStore_keeps
    | with_reducible apply State.spend_keeps
    | with_reducible apply State.tapResult_keeps
    | with_reducible apply Keeps.ite
    | split)

end Sys2Proof.Machine
end

