-- ==== Sys2Proof/Laws/KeepsExec.lean ====
section
/-! SUPPORT. What the meaning of every command keeps. -/

namespace Sys2Proof.Machine

theorem execCfdWrite_keeps {s0 : State} (page off value : Nat) (s : State) (s1 : State) (hk : Keeps s0 s) (he : execCfdWrite page off value s = .next s1) : Keeps s0 s1 := by
  unfold execCfdWrite at he
  cases he
  try dsimp only
  repeat' (first
    | with_reducible assumption
    | intro _
    | with_reducible apply State.plainWrite_keeps
    | with_reducible apply Keeps.ite)

theorem execStallLimitExpiry_keeps {s0 : State} (dom : Nat) (s : State) (s1 : State) (hk : Keeps s0 s) (he : execStallLimitExpiry dom s = .next s1) : Keeps s0 s1 := by
  unfold execStallLimitExpiry at he
  cases he
  try dsimp only
  repeat' (first
    | with_reducible assumption
    | intro _
    | with_reducible apply State.stallAbort_keeps)

theorem execHostCsRise_keeps {s0 : State} (n : Fin 6) (s : State) (s1 : State) (hk : Keeps s0 s) (he : execHostCsRise n s = .next s1) : Keeps s0 s1 := by
  unfold execHostCsRise at he
  cases he
  try dsimp only
  repeat' (first
    | with_reducible assumption
    | intro _
    | with_reducible apply State.portCsRise_keeps)

theorem execAttIdentity_keeps {s0 : State} (addr : Nat) (s : State) (s1 : State) (hk : Keeps s0 s) (he : execAttIdentity addr s = .next s1) : Keeps s0 s1 := by
  unfold execAttIdentity at he
  cases he
  try dsimp only
  repeat' (first
    | with_reducible assumption
    | intro _
    | with_reducible apply State.issue_keeps
    | with_reducible apply State.startAttIdentity_keeps)

theorem execLockRmt_keeps {s0 : State} (s : State) (s1 : State) (hk : Keeps s0 s) (he : execLockRmt s = .next s1) : Keeps s0 s1 := by
  unfold execLockRmt at he
  cases he
  try dsimp only
  repeat' (first
    | with_reducible assumption
    | intro _
    | with_reducible apply State.issue_keeps
    | with_reducible apply State.startLockRmt_keeps)

theorem execUnlockRmt_keeps {s0 : State} (s : State) (s1 : State) (hk : Keeps s0 s) (he : execUnlockRmt s = .next s1) : Keeps s0 s1 := by
  unfold execUnlockRmt at he
  cases he
  try dsimp only
  repeat' (first
    | with_reducible assumption
    | intro _
    | with_reducible apply State.issue_keeps
    | with_reducible apply State.refuse_keeps
    | with_reducible apply State.startUnlockRmt_keeps
    | with_reducible apply State.wr_keeps
    | with_reducible apply Keeps.ite)

theorem execRound_keeps {s0 : State} (addr : Nat) (s : State) (s1 : State) (hk : Keeps s0 s) (he : execRound addr s = .next s1) : Keeps s0 s1 := by
  unfold execRound at he
  cases he
  try dsimp only
  repeat' (first
    | with_reducible assumption
    | intro _
    | with_reducible apply State.issue_keeps
    | with_reducible apply State.startRound_keeps)

theorem execRoundLimit_keeps {s0 : State} (s : State) (s1 : State) (hk : Keeps s0 s) (he : execRoundLimit s = .next s1) : Keeps s0 s1 := by
  unfold execRoundLimit at he
  cases he
  try dsimp only
  repeat' (first
    | with_reducible assumption
    | intro _
    | with_reducible apply State.roundExpire_keeps)

theorem execRoundDone_keeps {s0 : State} (s : State) (s1 : State) (hk : Keeps s0 s) (he : execRoundDone s = .next s1) : Keeps s0 s1 := by
  unfold execRoundDone at he
  cases he
  try dsimp only
  repeat' (first
    | with_reducible assumption
    | intro _
    | with_reducible apply State.roundFinish_keeps)

theorem execSealOp_keeps {s0 : State} (addr : Nat) (s : State) (s1 : State) (hk : Keeps s0 s) (he : execSealOp addr s = .next s1) : Keeps s0 s1 := by
  unfold execSealOp at he
  cases he
  try dsimp only
  repeat' (first
    | with_reducible assumption
    | intro _
    | with_reducible apply State.issue_keeps
    | with_reducible apply State.startSealOp_keeps)

theorem execVerdicts_keeps {s0 : State} (addr : Nat) (s : State) (s1 : State) (hk : Keeps s0 s) (he : execVerdicts addr s = .next s1) : Keeps s0 s1 := by
  unfold execVerdicts at he
  cases he
  try dsimp only
  repeat' (first
    | with_reducible assumption
    | intro _
    | with_reducible apply State.issue_keeps
    | with_reducible apply State.startVerdicts_keeps)

theorem execCoreSelftestDone_keeps {s0 : State} (c : Fin 4) (lockstep mbist : Bool) (s : State) (s1 : State) (hk : Keeps s0 s) (he : execCoreSelftestDone c lockstep mbist s = .next s1) : Keeps s0 s1 := by
  unfold execCoreSelftestDone at he
  cases he
  try dsimp only
  repeat' (first
    | with_reducible assumption
    | intro _
    | with_reducible apply State.handOver_keeps
    | with_reducible apply State.wr_keeps
    | with_reducible apply State.wrb_keeps
    | with_reducible apply Keeps.ite)

theorem execPushWindowExpiry_keeps {s0 : State} (s : State) (s1 : State) (hk : Keeps s0 s) (he : execPushWindowExpiry s = .next s1) : Keeps s0 s1 := by
  unfold execPushWindowExpiry at he
  cases he
  try dsimp only
  repeat' (first
    | with_reducible assumption
    | intro _
    | with_reducible apply State.attempt_keeps
    | with_reducible apply State.trySources_keeps
    | simp only [Keeps.mk1]
    | with_reducible rfl
    | split)

theorem execPushTimeout_keeps {s0 : State} (s : State) (s1 : State) (hk : Keeps s0 s) (he : execPushTimeout s = .next s1) : Keeps s0 s1 := by
  unfold execPushTimeout at he
  cases he
  try dsimp only
  repeat' (first
    | with_reducible assumption
    | intro _
    | with_reducible apply State.pushFail_keeps
    | simp only [Keeps.mk1]
    | with_reducible rfl
    | split)

theorem execGo_keeps {s0 : State} (s : State) (s1 : State) (hk : Keeps s0 s) (he : execGo s = .next s1) : Keeps s0 s1 := by
  unfold execGo at he
  cases he
  try dsimp only
  repeat' (first
    | with_reducible assumption
    | intro _
    | with_reducible apply State.issue_keeps
    | with_reducible apply State.startGo_keeps)

theorem execProgramFields_keeps {s0 : State} (addr : Nat) (s : State) (s1 : State) (hk : Keeps s0 s) (he : execProgramFields addr s = .next s1) : Keeps s0 s1 := by
  unfold execProgramFields at he
  cases he
  try dsimp only
  repeat' (first
    | with_reducible assumption
    | intro _
    | with_reducible apply State.issue_keeps
    | with_reducible apply State.startProgramFields_keeps)

theorem execRevokeA_keeps {s0 : State} (s : State) (s1 : State) (hk : Keeps s0 s) (he : execRevokeA s = .next s1) : Keeps s0 s1 := by
  unfold execRevokeA at he
  cases he
  try dsimp only
  repeat' (first
    | with_reducible assumption
    | intro _
    | with_reducible apply State.issue_keeps
    | with_reducible apply State.startRevokeEntry_keeps)

theorem execRevokeB_keeps {s0 : State} (s : State) (s1 : State) (hk : Keeps s0 s) (he : execRevokeB s = .next s1) : Keeps s0 s1 := by
  unfold execRevokeB at he
  cases he
  try dsimp only
  repeat' (first
    | with_reducible assumption
    | intro _
    | with_reducible apply State.issue_keeps
    | with_reducible apply State.startRevokeEntry_keeps)

theorem execOtpDone_keeps {s0 : State} (s : State) (s1 : State) (hk : Keeps s0 s) (he : execOtpDone s = .next s1) : Keeps s0 s1 := by
  unfold execOtpDone at he
  cases he
  try dsimp only
  repeat' (first
    | with_reducible assumption
    | intro _
    | with_reducible apply State.otpFinish_keeps)

theorem execRing_keeps {s0 : State} (c : Fin 4) (entry : Nat) (s : State) (s1 : State) (hk : Keeps s0 s) (he : execRing c entry s = .next s1) : Keeps s0 s1 := by
  unfold execRing at he
  cases he
  try dsimp only
  repeat' (first
    | with_reducible assumption
    | intro _
    | with_reducible apply State.issue_keeps
    | with_reducible apply State.startRing_keeps)

theorem execTpTimeout_keeps {s0 : State} (p : Fin 2) (rx : Bool) (s : State) (s1 : State) (hk : Keeps s0 s) (he : execTpTimeout p rx s = .next s1) : Keeps s0 s1 := by
  unfold execTpTimeout at he
  cases he
  try dsimp only
  repeat' (first
    | with_reducible assumption
    | intro _
    | with_reducible apply State.tpAbort_keeps)

theorem execBusOff_keeps {s0 : State} (p : Fin 2) (s : State) (s1 : State) (hk : Keeps s0 s) (he : execBusOff p s = .next s1) : Keeps s0 s1 := by
  unfold execBusOff at he
  cases he
  try dsimp only
  repeat' (first
    | with_reducible assumption
    | intro _
    | with_reducible apply State.busOff_keeps)

theorem execBusOffRecovered_keeps {s0 : State} (p : Fin 2) (s : State) (s1 : State) (hk : Keeps s0 s) (he : execBusOffRecovered p s = .next s1) : Keeps s0 s1 := by
  unfold execBusOffRecovered at he
  cases he
  try dsimp only
  repeat' (first
    | with_reducible assumption
    | intro _
    | with_reducible apply State.busBack_keeps)

theorem execCanSend_keeps {s0 : State} (p : Fin 2) (addr : Nat) (s : State) (s1 : State) (hk : Keeps s0 s) (he : execCanSend p addr s = .next s1) : Keeps s0 s1 := by
  unfold execCanSend at he
  cases he
  try dsimp only
  repeat' (first
    | with_reducible assumption
    | intro _
    | with_reducible apply State.issue_keeps
    | with_reducible apply State.startCanSend_keeps)

theorem execCanRecv_keeps {s0 : State} (p : Fin 2) (addr : Nat) (s : State) (s1 : State) (hk : Keeps s0 s) (he : execCanRecv p addr s = .next s1) : Keeps s0 s1 := by
  unfold execCanRecv at he
  cases he
  try dsimp only
  repeat' (first
    | with_reducible assumption
    | intro _
    | with_reducible apply State.issue_keeps
    | with_reducible apply State.startCanRecv_keeps)

theorem execRecover_keeps {s0 : State} (p : Fin 2) (s : State) (s1 : State) (hk : Keeps s0 s) (he : execRecover p s = .next s1) : Keeps s0 s1 := by
  unfold execRecover at he
  cases he
  try dsimp only
  repeat' (first
    | with_reducible assumption
    | intro _
    | with_reducible apply State.issue_keeps
    | with_reducible apply State.startRecover_keeps)

theorem execStminExpiry_keeps {s0 : State} (p : Fin 2) (s : State) (s1 : State) (hk : Keeps s0 s) (he : execStminExpiry p s = .next s1) : Keeps s0 s1 := by
  unfold execStminExpiry at he
  cases he
  try dsimp only
  repeat' (first
    | with_reducible assumption
    | intro _
    | with_reducible apply State.tpTick_keeps
    | with_reducible apply Keeps.ite)

theorem execDgeAbort_keeps {s0 : State} (n : Fin 4) (s : State) (s1 : State) (hk : Keeps s0 s) (he : execDgeAbort n s = .next s1) : Keeps s0 s1 := by
  unfold execDgeAbort at he
  cases he
  try dsimp only
  repeat' (first
    | with_reducible assumption
    | intro _
    | with_reducible apply State.abortDge_keeps
    | with_reducible apply State.lanesGo_keeps
    | with_reducible apply Keeps.ite)

theorem execFchRead_keeps {s0 : State} (ch : Fin 8) (addr : Nat) (s : State) (s1 : State) (hk : Keeps s0 s) (he : execFchRead ch addr s = .next s1) : Keeps s0 s1 := by
  unfold execFchRead at he
  cases he
  try dsimp only
  repeat' (first
    | with_reducible assumption
    | intro _
    | with_reducible apply State.issue_keeps
    | with_reducible apply State.startFch_keeps)

theorem execFchProgram_keeps {s0 : State} (ch : Fin 8) (addr : Nat) (s : State) (s1 : State) (hk : Keeps s0 s) (he : execFchProgram ch addr s = .next s1) : Keeps s0 s1 := by
  unfold execFchProgram at he
  cases he
  try dsimp only
  repeat' (first
    | with_reducible assumption
    | intro _
    | with_reducible apply State.issue_keeps
    | with_reducible apply State.startFch_keeps)

theorem execFchErase_keeps {s0 : State} (ch : Fin 8) (addr : Nat) (s : State) (s1 : State) (hk : Keeps s0 s) (he : execFchErase ch addr s = .next s1) : Keeps s0 s1 := by
  unfold execFchErase at he
  cases he
  try dsimp only
  repeat' (first
    | with_reducible assumption
    | intro _
    | with_reducible apply State.issue_keeps
    | with_reducible apply State.startFch_keeps)

theorem execInit_keeps {s0 : State} (ch : Fin 8) (addr : Nat) (s : State) (s1 : State) (hk : Keeps s0 s) (he : execInit ch addr s = .next s1) : Keeps s0 s1 := by
  unfold execInit at he
  cases he
  try dsimp only
  repeat' (first
    | with_reducible assumption
    | intro _
    | with_reducible apply State.issue_keeps
    | with_reducible apply State.startInit_keeps)

theorem execFchAbort_keeps {s0 : State} (ch : Fin 8) (s : State) (s1 : State) (hk : Keeps s0 s) (he : execFchAbort ch s = .next s1) : Keeps s0 s1 := by
  unfold execFchAbort at he
  cases he
  try dsimp only
  repeat' (first
    | with_reducible assumption
    | intro _
    | with_reducible apply State.abortFch_keeps
    | with_reducible apply Keeps.ite)

theorem execInitDone_keeps {s0 : State} (ch : Fin 8) (ok : Bool) (s : State) (s1 : State) (hk : Keeps s0 s) (he : execInitDone ch ok s = .next s1) : Keeps s0 s1 := by
  unfold execInitDone at he
  cases he
  try dsimp only
  repeat' (first
    | with_reducible assumption
    | intro _
    | with_reducible apply State.initFinish_keeps)

theorem execEraseSuspendDone_keeps {s0 : State} (ch : Fin 8) (s : State) (s1 : State) (hk : Keeps s0 s) (he : execEraseSuspendDone ch s = .next s1) : Keeps s0 s1 := by
  unfold execEraseSuspendDone at he
  cases he
  try dsimp only
  repeat' (first
    | with_reducible assumption
    | intro _
    | with_reducible apply State.pumpCh_keeps
    | with_reducible apply State.setChan_keeps
    | with_reducible apply State.setSched_keeps
    | with_reducible apply State.wr_keeps
    | with_reducible apply Keeps.ite
    | simp only [Keeps.mk1]
    | with_reducible rfl
    | split)

theorem execChannelPollDone_keeps {s0 : State} (ch : Fin 8) (s : State) (s1 : State) (hk : Keeps s0 s) (he : execChannelPollDone ch s = .next s1) : Keeps s0 s1 := by
  unfold execChannelPollDone at he
  cases he
  try dsimp only
  repeat' (first
    | with_reducible assumption
    | intro _
    | with_reducible apply State.pumpCh_keeps
    | with_reducible apply State.setChan_keeps
    | with_reducible apply Keeps.ite)

theorem execAgePromotion_keeps {s0 : State} (res idx : Nat) (s : State) (s1 : State) (hk : Keeps s0 s) (he : execAgePromotion res idx s = .next s1) : Keeps s0 s1 := by
  unfold execAgePromotion at he
  cases he
  try dsimp only
  repeat' (first
    | with_reducible assumption
    | intro _
    | with_reducible apply State.ageReq_keeps)

theorem execShortWindowEnd_keeps {s0 : State} (res below : Nat) (s : State) (s1 : State) (hk : Keeps s0 s) (he : execShortWindowEnd res below s = .next s1) : Keeps s0 s1 := by
  unfold execShortWindowEnd at he
  cases he
  try dsimp only
  repeat' (first
    | with_reducible assumption
    | intro _
    | with_reducible apply State.windowEnd_keeps
    | with_reducible apply Keeps.ite)

theorem execLeaseReturnDue_keeps {s0 : State} (n : Fin 6) (s : State) (s1 : State) (hk : Keeps s0 s) (he : execLeaseReturnDue n s = .next s1) : Keeps s0 s1 := by
  unfold execLeaseReturnDue at he
  cases he
  try dsimp only
  repeat' (first
    | with_reducible assumption
    | intro _
    | with_reducible apply State.chanRest_keeps
    | with_reducible apply State.setChan_keeps
    | with_reducible apply Keeps.ite)

theorem execLeaseExpiry_keeps {s0 : State} (n : Fin 6) (s : State) (s1 : State) (hk : Keeps s0 s) (he : execLeaseExpiry n s = .next s1) : Keeps s0 s1 := by
  unfold execLeaseExpiry at he
  cases he
  try dsimp only
  repeat' (first
    | with_reducible assumption
    | intro _
    | with_reducible apply State.leaseEnd_keeps
    | with_reducible apply State.pumpCh_keeps
    | with_reducible apply Keeps.ite)

theorem execAesRun_keeps {s0 : State} (e : Fin 2) (addr : Nat) (s : State) (s1 : State) (hk : Keeps s0 s) (he : execAesRun e addr s = .next s1) : Keeps s0 s1 := by
  unfold execAesRun at he
  cases he
  try dsimp only
  repeat' (first
    | with_reducible assumption
    | intro _
    | with_reducible apply State.fwAesRun_keeps
    | with_reducible apply State.issue_keeps)

theorem execWrap_keeps {s0 : State} (e : Fin 2) (addr : Nat) (s : State) (s1 : State) (hk : Keeps s0 s) (he : execWrap e addr s = .next s1) : Keeps s0 s1 := by
  unfold execWrap at he
  cases he
  try dsimp only
  repeat' (first
    | with_reducible assumption
    | intro _
    | with_reducible apply State.issue_keeps
    | with_reducible apply State.startWrapUnwrap_keeps)

theorem execUnwrap_keeps {s0 : State} (e : Fin 2) (addr : Nat) (s : State) (s1 : State) (hk : Keeps s0 s) (he : execUnwrap e addr s = .next s1) : Keeps s0 s1 := by
  unfold execUnwrap at he
  cases he
  try dsimp only
  repeat' (first
    | with_reducible assumption
    | intro _
    | with_reducible apply State.issue_keeps
    | with_reducible apply State.startWrapUnwrap_keeps)

theorem execLoadRef_keeps {s0 : State} (e : Fin 2) (attr slot : Nat) (s : State) (s1 : State) (hk : Keeps s0 s) (he : execLoadRef e attr slot s = .next s1) : Keeps s0 s1 := by
  unfold execLoadRef at he
  cases he
  try dsimp only
  repeat' (first
    | with_reducible assumption
    | intro _
    | with_reducible apply State.issue_keeps
    | with_reducible apply State.startLoadRef_keeps)

theorem execLoadKey_keeps {s0 : State} (e : Fin 2) (attr : Nat) (s : State) (s1 : State) (hk : Keeps s0 s) (he : execLoadKey e attr s = .next s1) : Keeps s0 s1 := by
  unfold execLoadKey at he
  cases he
  try dsimp only
  repeat' (first
    | with_reducible assumption
    | intro _
    | with_reducible apply State.issue_keeps
    | with_reducible apply State.startLoadKey_keeps)

theorem execDkrClear_keeps {s0 : State} (e : Fin 2) (s : State) (s1 : State) (hk : Keeps s0 s) (he : execDkrClear e s = .next s1) : Keeps s0 s1 := by
  unfold execDkrClear at he
  cases he
  try dsimp only
  repeat' (first
    | with_reducible assumption
    | intro _
    | with_reducible apply State.issue_keeps
    | with_reducible apply State.startDkrClear_keeps)

theorem execKeyClearTimeout_keeps {s0 : State} (e : Fin 3) (s : State) (s1 : State) (hk : Keeps s0 s) (he : execKeyClearTimeout e s = .next s1) : Keeps s0 s1 := by
  unfold execKeyClearTimeout at he
  cases he
  try dsimp only
  repeat' (first
    | with_reducible assumption
    | intro _
    | with_reducible apply State.clearKeyWords_keeps
    | with_reducible apply State.wr_keeps
    | with_reducible apply Keeps.ite
    | with_reducible apply Keeps.foldl)

theorem execVerify_keeps {s0 : State} (addr : Nat) (s : State) (s1 : State) (hk : Keeps s0 s) (he : execVerify addr s = .next s1) : Keeps s0 s1 := by
  unfold execVerify at he
  cases he
  try dsimp only
  repeat' (first
    | with_reducible assumption
    | intro _
    | with_reducible apply State.issue_keeps
    | with_reducible apply State.startPke_keeps)

theorem execSign_keeps {s0 : State} (addr : Nat) (s : State) (s1 : State) (hk : Keeps s0 s) (he : execSign addr s = .next s1) : Keeps s0 s1 := by
  unfold execSign at he
  cases he
  try dsimp only
  repeat' (first
    | with_reducible assumption
    | intro _
    | with_reducible apply State.issue_keeps
    | with_reducible apply State.startPke_keeps)

theorem execGenkey_keeps {s0 : State} (addr : Nat) (s : State) (s1 : State) (hk : Keeps s0 s) (he : execGenkey addr s = .next s1) : Keeps s0 s1 := by
  unfold execGenkey at he
  cases he
  try dsimp only
  repeat' (first
    | with_reducible assumption
    | intro _
    | with_reducible apply State.issue_keeps
    | with_reducible apply State.startPke_keeps)

theorem execEcdh_keeps {s0 : State} (addr : Nat) (s : State) (s1 : State) (hk : Keeps s0 s) (he : execEcdh addr s = .next s1) : Keeps s0 s1 := by
  unfold execEcdh at he
  cases he
  try dsimp only
  repeat' (first
    | with_reducible assumption
    | intro _
    | with_reducible apply State.issue_keeps
    | with_reducible apply State.startPke_keeps)

theorem execPkeClear_keeps {s0 : State} (addr : Nat) (s : State) (s1 : State) (hk : Keeps s0 s) (he : execPkeClear addr s = .next s1) : Keeps s0 s1 := by
  unfold execPkeClear at he
  cases he
  try dsimp only
  repeat' (first
    | with_reducible assumption
    | intro _
    | with_reducible apply State.issue_keeps
    | with_reducible apply State.startPke_keeps)

theorem execGen_keeps {s0 : State} (addr : Nat) (s : State) (s1 : State) (hk : Keeps s0 s) (he : execGen addr s = .next s1) : Keeps s0 s1 := by
  unfold execGen at he
  cases he
  try dsimp only
  repeat' (first
    | with_reducible assumption
    | intro _
    | with_reducible apply State.issue_keeps
    | with_reducible apply State.startGen_keeps)

theorem execRestart_keeps {s0 : State} (s : State) (s1 : State) (hk : Keeps s0 s) (he : execRestart s = .next s1) : Keeps s0 s1 := by
  unfold execRestart at he
  cases he
  try dsimp only
  repeat' (first
    | with_reducible assumption
    | intro _
    | with_reducible apply State.issue_keeps
    | with_reducible apply State.startRestart_keeps)

theorem execHealthFail_keeps {s0 : State} (s : State) (s1 : State) (hk : Keeps s0 s) (he : execHealthFail s = .next s1) : Keeps s0 s1 := by
  unfold execHealthFail at he
  cases he
  try dsimp only
  repeat' (first
    | with_reducible assumption
    | intro _
    | with_reducible apply State.bump_keeps
    | with_reducible apply State.cmdEnd_keeps
    | with_reducible apply State.raise_keeps
    | with_reducible apply State.wr_keeps
    | with_reducible apply Keeps.ite
    | simp only [Keeps.mk1])

theorem execReseed_keeps {s0 : State} (s : State) (s1 : State) (hk : Keeps s0 s) (he : execReseed s = .next s1) : Keeps s0 s1 := by
  unfold execReseed at he
  cases he
  try dsimp only
  repeat' (first
    | with_reducible assumption
    | intro _
    | with_reducible apply State.reseed_keeps
    | with_reducible apply Keeps.ite)

theorem execDistPulse_keeps {s0 : State} (phaseNs : Nat) (s : State) (s1 : State) (hk : Keeps s0 s) (he : execDistPulse phaseNs s = .next s1) : Keeps s0 s1 := by
  unfold execDistPulse at he
  cases he
  try dsimp only
  repeat' (first
    | with_reducible assumption
    | intro _
    | with_reducible apply State.wr_keeps
    | with_reducible apply Keeps.ite)

theorem execCloveSample_keeps {s0 : State} (inp : CloveInputs) (s : State) (s1 : State) (hk : Keeps s0 s) (he : execCloveSample inp s = .next s1) : Keeps s0 s1 := by
  unfold execCloveSample at he
  cases he
  try dsimp only
  repeat' (first
    | with_reducible assumption
    | intro _
    | with_reducible apply State.cloveSample_keeps
    | with_reducible apply State.ignitionCheck_keeps
    | with_reducible apply Keeps.ite)

theorem execWakeOutEnd_keeps {s0 : State} (s : State) (s1 : State) (hk : Keeps s0 s) (he : execWakeOutEnd s = .next s1) : Keeps s0 s1 := by
  unfold execWakeOutEnd at he
  cases he
  try dsimp only
  repeat' (first
    | with_reducible assumption
    | intro _
    | with_reducible apply State.wr_keeps)

theorem execAonSetTamper_keeps {s0 : State} (s : State) (s1 : State) (hk : Keeps s0 s) (he : execAonSetTamper s = .next s1) : Keeps s0 s1 := by
  unfold execAonSetTamper at he
  cases he
  try dsimp only
  repeat' (first
    | with_reducible assumption
    | intro _
    | with_reducible apply State.issue_keeps
    | with_reducible apply State.setTamper_keeps)

theorem execProgramFuse_keeps {s0 : State} (s : State) (s1 : State) (hk : Keeps s0 s) (he : execProgramFuse s = .next s1) : Keeps s0 s1 := by
  unfold execProgramFuse at he
  cases he
  try dsimp only
  repeat' (first
    | with_reducible assumption
    | intro _
    | with_reducible apply State.issue_keeps
    | with_reducible apply State.startProgramFuse_keeps)

theorem execDiscard_keeps {s0 : State} (s : State) (s1 : State) (hk : Keeps s0 s) (he : execDiscard s = .next s1) : Keeps s0 s1 := by
  unfold execDiscard at he
  cases he
  try dsimp only
  repeat' (first
    | with_reducible assumption
    | intro _
    | with_reducible apply State.issue_keeps
    | with_reducible apply State.startDiscard_keeps)

theorem execCmpRun_keeps {s0 : State} (addr : Nat) (s : State) (s1 : State) (hk : Keeps s0 s) (he : execCmpRun addr s = .next s1) : Keeps s0 s1 := by
  unfold execCmpRun at he
  cases he
  try dsimp only
  repeat' (first
    | with_reducible assumption
    | intro _
    | with_reducible apply State.issue_keeps
    | with_reducible apply State.startCmp_keeps)

theorem execCmpAbort_keeps {s0 : State} (s : State) (s1 : State) (hk : Keeps s0 s) (he : execCmpAbort s = .next s1) : Keeps s0 s1 := by
  unfold execCmpAbort at he
  cases he
  try dsimp only
  repeat' (first
    | with_reducible assumption
    | intro _
    | with_reducible apply State.cmdDrop_keeps
    | with_reducible apply State.cmpIdle_keeps
    | with_reducible apply Keeps.ite)

theorem execCmpDone_keeps {s0 : State} (s : State) (s1 : State) (hk : Keeps s0 s) (he : execCmpDone s = .next s1) : Keeps s0 s1 := by
  unfold execCmpDone at he
  cases he
  try dsimp only
  repeat' (first
    | with_reducible assumption
    | intro _
    | with_reducible apply State.cmpDone_keeps)

theorem execQueuedCmdStart_keeps {s0 : State} (page off : Nat) (s : State) (s1 : State) (hk : Keeps s0 s) (he : execQueuedCmdStart page off s = .next s1) : Keeps s0 s1 := by
  unfold execQueuedCmdStart at he
  cases he
  try dsimp only
  repeat' (first
    | with_reducible assumption
    | intro _
    | with_reducible apply State.queuedStart_keeps
    | with_reducible apply Keeps.ite)

theorem execDbgChallenge_keeps {s0 : State} (s : State) (s1 : State) (hk : Keeps s0 s) (he : execDbgChallenge s = .next s1) : Keeps s0 s1 := by
  unfold execDbgChallenge at he
  cases he
  try dsimp only
  repeat' (first
    | with_reducible assumption
    | intro _
    | with_reducible apply State.drawChallenge_keeps
    | with_reducible apply State.issue_keeps)

theorem execPresent_keeps {s0 : State} (addr : Nat) (s : State) (s1 : State) (hk : Keeps s0 s) (he : execPresent addr s = .next s1) : Keeps s0 s1 := by
  unfold execPresent at he
  cases he
  try dsimp only
  repeat' (first
    | with_reducible assumption
    | intro _
    | with_reducible apply State.issue_keeps
    | with_reducible apply State.startPresent_keeps)

theorem execRevoke_keeps {s0 : State} (s : State) (s1 : State) (hk : Keeps s0 s) (he : execRevoke s = .next s1) : Keeps s0 s1 := by
  unfold execRevoke at he
  cases he
  try dsimp only
  repeat' (first
    | with_reducible assumption
    | intro _
    | with_reducible apply State.issue_keeps
    | with_reducible apply State.startRevoke_keeps)

theorem execDebugOpenFailed_keeps {s0 : State} (s : State) (s1 : State) (hk : Keeps s0 s) (he : execDebugOpenFailed s = .next s1) : Keeps s0 s1 := by
  unfold execDebugOpenFailed at he
  cases he
  try dsimp only
  repeat' (first
    | with_reducible assumption
    | intro _
    | with_reducible apply State.grantRefuse_keeps
    | with_reducible apply Keeps.ite
    | simp only [Keeps.mk1]
    | with_reducible rfl
    | split)

theorem execExtest_keeps {s0 : State} (s : State) (s1 : State) (hk : Keeps s0 s) (he : execExtest s = .next s1) : Keeps s0 s1 := by
  unfold execExtest at he
  cases he
  try dsimp only
  repeat' (first
    | with_reducible assumption
    | intro _
    | with_reducible apply State.tapSelect_keeps
    | with_reducible apply Keeps.ite)

theorem execIdcode_keeps {s0 : State} (s : State) (s1 : State) (hk : Keeps s0 s) (he : execIdcode s = .next s1) : Keeps s0 s1 := by
  unfold execIdcode at he
  cases he
  try dsimp only
  repeat' (first
    | with_reducible assumption
    | intro _
    | with_reducible apply State.tapSelect_keeps
    | with_reducible apply Keeps.ite
    | simp only [Keeps.mk1])

theorem execSamplePreload_keeps {s0 : State} (s : State) (s1 : State) (hk : Keeps s0 s) (he : execSamplePreload s = .next s1) : Keeps s0 s1 := by
  unfold execSamplePreload at he
  cases he
  try dsimp only
  repeat' (first
    | with_reducible assumption
    | intro _
    | with_reducible apply State.tapSelect_keeps
    | with_reducible apply Keeps.ite)

theorem execTapChallenge_keeps {s0 : State} (s : State) (s1 : State) (hk : Keeps s0 s) (he : execTapChallenge s = .next s1) : Keeps s0 s1 := by
  unfold execTapChallenge at he
  cases he
  try dsimp only
  repeat' (first
    | with_reducible assumption
    | intro _
    | with_reducible apply State.drawChallenge_keeps
    | with_reducible apply State.tapSelect_keeps
    | with_reducible apply Keeps.ite)

theorem execGrantLoad_keeps {s0 : State} (grant : List Byte) (s : State) (s1 : State) (hk : Keeps s0 s) (he : execGrantLoad grant s = .next s1) : Keeps s0 s1 := by
  unfold execGrantLoad at he
  cases he
  try dsimp only
  repeat' (first
    | with_reducible assumption
    | intro _
    | with_reducible apply State.grantTake_keeps
    | with_reducible apply State.raise_keeps
    | with_reducible apply State.refuse_keeps
    | with_reducible apply State.secLog_keeps
    | with_reducible apply State.tapSelect_keeps
    | with_reducible apply Keeps.ite)

theorem execBypass_keeps {s0 : State} (code : Nat) (s : State) (s1 : State) (hk : Keeps s0 s) (he : execBypass code s = .next s1) : Keeps s0 s1 := by
  unfold execBypass at he
  cases he
  try dsimp only
  repeat' (first
    | with_reducible assumption
    | intro _
    | with_reducible apply State.tapSelect_keeps
    | with_reducible apply Keeps.ite)

theorem execTapResume_keeps {s0 : State} (token : List Byte) (s : State) (s1 : State) (hk : Keeps s0 s) (he : execTapResume token s = .next s1) : Keeps s0 s1 := by
  unfold execTapResume at he
  cases he
  try dsimp only
  repeat' (first
    | with_reducible assumption
    | intro _
    | with_reducible apply State.resumeWith_keeps
    | with_reducible apply State.tapSelect_keeps
    | with_reducible apply Keeps.ite)

theorem execDgeRun_keeps {s0 : State} (n : Fin 4) (addr : Nat) (s : State) (s1 : State) (hk : Keeps s0 s) (he : execDgeRun n addr s = .next s1) : Keeps s0 s1 := by
  unfold execDgeRun at he
  cases he
  try dsimp only
  repeat' (first
    | with_reducible assumption
    | intro _
    | with_reducible apply State.issue_keeps
    | with_reducible apply State.startDgeRun_keeps)

theorem execLeaves_keeps {s0 : State} (n : Fin 4) (addr : Nat) (s : State) (s1 : State) (hk : Keeps s0 s) (he : execLeaves n addr s = .next s1) : Keeps s0 s1 := by
  unfold execLeaves at he
  cases he
  try dsimp only
  repeat' (first
    | with_reducible assumption
    | intro _
    | with_reducible apply State.issue_keeps
    | with_reducible apply State.startLeaves_keeps)

theorem execSnpArm_keeps {s0 : State} (u : Fin 6) (addr : Nat) (s : State) (s1 : State) (hk : Keeps s0 s) (he : execSnpArm u addr s = .next s1) : Keeps s0 s1 := by
  unfold execSnpArm at he
  cases he
  try dsimp only
  repeat' (first
    | with_reducible assumption
    | intro _
    | with_reducible apply State.issue_keeps
    | with_reducible apply State.startSnpArm_keeps)

theorem execSnpDisarm_keeps {s0 : State} (u : Fin 6) (s : State) (s1 : State) (hk : Keeps s0 s) (he : execSnpDisarm u s = .next s1) : Keeps s0 s1 := by
  unfold execSnpDisarm at he
  cases he
  try dsimp only
  repeat' (first
    | with_reducible assumption
    | intro _
    | with_reducible apply State.issue_keeps
    | with_reducible apply State.startSnpDisarm_keeps)

theorem execStxOpen_keeps {s0 : State} (addr : Nat) (s : State) (s1 : State) (hk : Keeps s0 s) (he : execStxOpen addr s = .next s1) : Keeps s0 s1 := by
  unfold execStxOpen at he
  cases he
  try dsimp only
  repeat' (first
    | with_reducible assumption
    | intro _
    | with_reducible apply State.issue_keeps
    | with_reducible apply State.startStxOpen_keeps)

theorem execHello_keeps {s0 : State} (m : StxMessage) (s : State) (s1 : State) (hk : Keeps s0 s) (he : execHello m s = .next s1) : Keeps s0 s1 := by
  unfold execHello at he
  cases he
  try dsimp only
  repeat' (first
    | with_reducible assumption
    | with_reducible apply State.wholeHello_keeps)

theorem execApply_keeps {s0 : State} (addr : Nat) (s : State) (s1 : State) (hk : Keeps s0 s) (he : execApply addr s = .next s1) : Keeps s0 s1 := by
  unfold execApply at he
  cases he
  try dsimp only
  repeat' (first
    | with_reducible assumption
    | intro _
    | with_reducible apply State.issue_keeps
    | with_reducible apply State.startApply_keeps)

theorem execResume_keeps {s0 : State} (addr : Nat) (s : State) (s1 : State) (hk : Keeps s0 s) (he : execResume addr s = .next s1) : Keeps s0 s1 := by
  unfold execResume at he
  cases he
  try dsimp only
  repeat' (first
    | with_reducible assumption
    | intro _
    | with_reducible apply State.issue_keeps
    | with_reducible apply State.startResume_keeps)

theorem execLcsProgramAuth_keeps {s0 : State} (addr : Nat) (s : State) (s1 : State) (hk : Keeps s0 s) (he : execLcsProgramAuth addr s = .next s1) : Keeps s0 s1 := by
  unfold execLcsProgramAuth at he
  cases he
  try dsimp only
  repeat' (first
    | with_reducible assumption
    | intro _
    | with_reducible apply State.issue_keeps
    | with_reducible apply State.startProgramAuth_keeps)

theorem execUtcSecond_keeps {s0 : State} (s : State) (s1 : State) (hk : Keeps s0 s) (he : execUtcSecond s = .next s1) : Keeps s0 s1 := by
  unfold execUtcSecond at he
  cases he
  try dsimp only
  repeat' (first
    | with_reducible assumption
    | intro _
    | with_reducible apply State.crossNow_keeps
    | with_reducible apply State.ledgerSecond_keeps
    | with_reducible apply State.retroCheck_keeps
    | with_reducible apply Keeps.ite)

theorem execMrtSecond_keeps {s0 : State} (s : State) (s1 : State) (hk : Keeps s0 s) (he : execMrtSecond s = .next s1) : Keeps s0 s1 := by
  unfold execMrtSecond at he
  cases he
  try dsimp only
  repeat' (first
    | with_reducible assumption
    | intro _
    | with_reducible apply State.ledgerSecond_keeps
    | with_reducible apply Keeps.ite)

theorem execSensorMismatchBegin_keeps {s0 : State} (s : State) (s1 : State) (hk : Keeps s0 s) (he : execSensorMismatchBegin s = .next s1) : Keeps s0 s1 := by
  unfold execSensorMismatchBegin at he
  cases he
  try dsimp only
  repeat' (first
    | with_reducible assumption
    | intro _
    | with_reducible apply State.mismatchBegin_keeps)

theorem execSensorMismatchEnd_keeps {s0 : State} (s : State) (s1 : State) (hk : Keeps s0 s) (he : execSensorMismatchEnd s = .next s1) : Keeps s0 s1 := by
  unfold execSensorMismatchEnd at he
  cases he
  try dsimp only
  repeat' (first
    | with_reducible assumption
    | intro _
    | with_reducible apply State.mismatchEnd_keeps)

theorem execWheelSpeedLost_keeps {s0 : State} (s : State) (s1 : State) (hk : Keeps s0 s) (he : execWheelSpeedLost s = .next s1) : Keeps s0 s1 := by
  unfold execWheelSpeedLost at he
  cases he
  try dsimp only
  repeat' (first
    | with_reducible assumption
    | intro _
    | with_reducible apply State.wheelLost_keeps)

theorem execDistanceInterval_keeps {s0 : State} (s : State) (s1 : State) (hk : Keeps s0 s) (he : execDistanceInterval s = .next s1) : Keeps s0 s1 := by
  unfold execDistanceInterval at he
  cases he
  try dsimp only
  repeat' (first
    | with_reducible assumption
    | intro _
    | with_reducible apply State.recordDistance_keeps
    | with_reducible apply Keeps.ite)

theorem execLedgerCommitDue_keeps {s0 : State} (s : State) (s1 : State) (hk : Keeps s0 s) (he : execLedgerCommitDue s = .next s1) : Keeps s0 s1 := by
  unfold execLedgerCommitDue at he
  cases he
  try dsimp only
  repeat' (first
    | with_reducible assumption
    | intro _
    | with_reducible apply State.commitStart_keeps
    | with_reducible apply Keeps.ite)

theorem execFreeze_keeps {s0 : State} (s : State) (s1 : State) (hk : Keeps s0 s) (he : execFreeze s = .next s1) : Keeps s0 s1 := by
  unfold execFreeze at he
  cases he
  try dsimp only
  repeat' (first
    | with_reducible assumption
    | intro _
    | with_reducible apply State.issue_keeps
    | with_reducible apply State.startFreeze_keeps)

theorem execThaw_keeps {s0 : State} (s : State) (s1 : State) (hk : Keeps s0 s) (he : execThaw s = .next s1) : Keeps s0 s1 := by
  unfold execThaw at he
  cases he
  try dsimp only
  repeat' (first
    | with_reducible assumption
    | intro _
    | with_reducible apply State.issue_keeps
    | with_reducible apply State.startThaw_keeps)

theorem execLedgInput_keeps {s0 : State} (addr : Nat) (s : State) (s1 : State) (hk : Keeps s0 s) (he : execLedgInput addr s = .next s1) : Keeps s0 s1 := by
  unfold execLedgInput at he
  cases he
  try dsimp only
  repeat' (first
    | with_reducible assumption
    | intro _
    | with_reducible apply State.issue_keeps
    | with_reducible apply State.startLedgInput_keeps)

theorem execReadPage_keeps {s0 : State} (addr : Nat) (s : State) (s1 : State) (hk : Keeps s0 s) (he : execReadPage addr s = .next s1) : Keeps s0 s1 := by
  unfold execReadPage at he
  cases he
  try dsimp only
  repeat' (first
    | with_reducible assumption
    | intro _
    | with_reducible apply State.issue_keeps
    | with_reducible apply State.startReadPage_keeps)

theorem execExportChallenge_keeps {s0 : State} (s : State) (s1 : State) (hk : Keeps s0 s) (he : execExportChallenge s = .next s1) : Keeps s0 s1 := by
  unfold execExportChallenge at he
  cases he
  try dsimp only
  repeat' (first
    | with_reducible assumption
    | intro _
    | with_reducible apply State.issue_keeps
    | with_reducible apply State.startExportChallenge_keeps)

theorem execExportAck_keeps {s0 : State} (addr : Nat) (s : State) (s1 : State) (hk : Keeps s0 s) (he : execExportAck addr s = .next s1) : Keeps s0 s1 := by
  unfold execExportAck at he
  cases he
  try dsimp only
  repeat' (first
    | with_reducible assumption
    | intro _
    | with_reducible apply State.issue_keeps
    | with_reducible apply State.startExportAck_keeps)

theorem execSetOdometer_keeps {s0 : State} (addr : Nat) (s : State) (s1 : State) (hk : Keeps s0 s) (he : execSetOdometer addr s = .next s1) : Keeps s0 s1 := by
  unfold execSetOdometer at he
  cases he
  try dsimp only
  repeat' (first
    | with_reducible assumption
    | intro _
    | with_reducible apply State.issue_keeps
    | with_reducible apply State.startSetOdometer_keeps)

theorem execChallengeExpiry_keeps {s0 : State} (ledger : Bool) (s : State) (s1 : State) (hk : Keeps s0 s) (he : execChallengeExpiry ledger s = .next s1) : Keeps s0 s1 := by
  unfold execChallengeExpiry at he
  cases he
  try dsimp only
  repeat' (first
    | with_reducible assumption
    | intro _
    | with_reducible apply State.setExportChallenge_keeps
    | with_reducible apply State.setTimeChallenge_keeps
    | with_reducible apply Keeps.ite)

theorem execFrameReceived_keeps {s0 : State} (l : Fin 2) (f : EthFrame) (s : State) (s1 : State) (hk : Keeps s0 s) (he : execFrameReceived l f s = .next s1) : Keeps s0 s1 := by
  unfold execFrameReceived at he
  cases he
  try dsimp only
  repeat' (first
    | with_reducible assumption
    | intro _
    | with_reducible apply State.frameIn_keeps)

theorem execCanFrameReceived_keeps {s0 : State} (p : Fin 2) (f : CanFrame) (s : State) (s1 : State) (hk : Keeps s0 s) (he : execCanFrameReceived p f s = .next s1) : Keeps s0 s1 := by
  unfold execCanFrameReceived at he
  cases he
  try dsimp only
  repeat' (first
    | with_reducible assumption
    | intro _
    | with_reducible apply State.canIn_keeps)

theorem execRomImageChunk_keeps {s0 : State} (port : PushPort) (chunk : ImageChunk) (s : State) (s1 : State) (hk : Keeps s0 s) (he : execRomImageChunk port chunk s = .next s1) : Keeps s0 s1 := by
  unfold execRomImageChunk at he
  cases he
  try dsimp only
  repeat' (first
    | with_reducible assumption
    | intro _
    | with_reducible apply State.romChunk_keeps
    | with_reducible apply Keeps.ite
    | simp only [Keeps.mk1]
    | with_reducible rfl
    | split)

theorem execSubmit_keeps {s0 : State} (s : State) (s1 : State) (hk : Keeps s0 s) (he : execSubmit s = .next s1) : Keeps s0 s1 := by
  unfold execSubmit at he
  cases he
  try dsimp only
  repeat' (first
    | with_reducible assumption
    | intro _
    | with_reducible apply State.mgpSubmit_keeps
    | with_reducible apply Keeps.ite)

theorem execIdentity_keeps {s0 : State} (s : State) (s1 : State) (hk : Keeps s0 s) (he : execIdentity s = .next s1) : Keeps s0 s1 := by
  unfold execIdentity at he
  cases he
  try dsimp only
  repeat' (first
    | with_reducible assumption
    | intro _
    | with_reducible apply State.hostMessage_keeps)

theorem execPushManifest_keeps {s0 : State} (data : List Byte) (s : State) (s1 : State) (hk : Keeps s0 s) (he : execPushManifest data s = .next s1) : Keeps s0 s1 := by
  unfold execPushManifest at he
  cases he
  try dsimp only
  repeat' (first
    | with_reducible assumption
    | intro _
    | with_reducible apply State.hostFragments_keeps)

theorem execPushLeaves_keeps {s0 : State} (off : Nat) (data : List Byte) (s : State) (s1 : State) (hk : Keeps s0 s) (he : execPushLeaves off data s = .next s1) : Keeps s0 s1 := by
  unfold execPushLeaves at he
  cases he
  try dsimp only
  repeat' (first
    | with_reducible assumption
    | intro _
    | with_reducible apply State.hostMessage_keeps)

theorem execPushData_keeps {s0 : State} (off : Nat) (data : List Byte) (s : State) (s1 : State) (hk : Keeps s0 s) (he : execPushData off data s = .next s1) : Keeps s0 s1 := by
  unfold execPushData at he
  cases he
  try dsimp only
  repeat' (first
    | with_reducible assumption
    | intro _
    | with_reducible apply State.hostMessage_keeps)

theorem execPushEnd_keeps {s0 : State} (s : State) (s1 : State) (hk : Keeps s0 s) (he : execPushEnd s = .next s1) : Keeps s0 s1 := by
  unfold execPushEnd at he
  cases he
  try dsimp only
  repeat' (first
    | with_reducible assumption
    | intro _
    | with_reducible apply State.hostMessage_keeps)

theorem execLease_keeps {s0 : State} (n dur : Nat) (s : State) (s1 : State) (hk : Keeps s0 s) (he : execLease n dur s = .next s1) : Keeps s0 s1 := by
  unfold execLease at he
  cases he
  try dsimp only
  repeat' (first
    | with_reducible assumption
    | intro _
    | with_reducible apply State.hostMessage_keeps)

theorem execMilestone_keeps {s0 : State} (data : List Byte) (s : State) (s1 : State) (hk : Keeps s0 s) (he : execMilestone data s = .next s1) : Keeps s0 s1 := by
  unfold execMilestone at he
  cases he
  try dsimp only
  repeat' (first
    | with_reducible assumption
    | intro _
    | with_reducible apply State.hostMessage_keeps)

theorem execStxFrame_keeps {s0 : State} (data : List Byte) (s : State) (s1 : State) (hk : Keeps s0 s) (he : execStxFrame data s = .next s1) : Keeps s0 s1 := by
  unfold execStxFrame at he
  cases he
  try dsimp only
  repeat' (first
    | with_reducible assumption
    | intro _
    | with_reducible apply State.hostMessage_keeps)

theorem execLedgerInput_keeps {s0 : State} (data : List Byte) (s : State) (s1 : State) (hk : Keeps s0 s) (he : execLedgerInput data s = .next s1) : Keeps s0 s1 := by
  unfold execLedgerInput at he
  cases he
  try dsimp only
  repeat' (first
    | with_reducible assumption
    | intro _
    | with_reducible apply State.hostMessage_keeps)

theorem execPageReq_keeps {s0 : State} (page off count : Nat) (s : State) (s1 : State) (hk : Keeps s0 s) (he : execPageReq page off count s = .next s1) : Keeps s0 s1 := by
  unfold execPageReq at he
  cases he
  try dsimp only
  repeat' (first
    | with_reducible assumption
    | intro _
    | with_reducible apply Keeps.ite
    | simp only [Keeps.mk1])

theorem execPageReqDone_keeps {s0 : State} (s : State) (s1 : State) (hk : Keeps s0 s) (he : execPageReqDone s = .next s1) : Keeps s0 s1 := by
  unfold execPageReqDone at he
  cases he
  try dsimp only
  repeat' (first
    | with_reducible assumption
    | intro _
    | with_reducible apply State.pageReqFinish_keeps
    | with_reducible apply Keeps.ite)

theorem execRetxTimeout_keeps {s0 : State} (session : Nat) (s : State) (s1 : State) (hk : Keeps s0 s) (he : execRetxTimeout session s = .next s1) : Keeps s0 s1 := by
  unfold execRetxTimeout at he
  cases he
  try dsimp only
  repeat' (first
    | with_reducible assumption
    | intro _
    | with_reducible apply State.retransmit_keeps
    | with_reducible apply State.sealGo_keeps)

theorem execSessionTimeout_keeps {s0 : State} (session : Nat) (s : State) (s1 : State) (hk : Keeps s0 s) (he : execSessionTimeout session s = .next s1) : Keeps s0 s1 := by
  unfold execSessionTimeout at he
  cases he
  try dsimp only
  repeat' (first
    | with_reducible assumption
    | intro _
    | with_reducible apply State.sealGo_keeps
    | with_reducible apply State.sessTimeout_keeps)

theorem execHelloReply_keeps {s0 : State} (m : StxMessage) (s : State) (s1 : State) (hk : Keeps s0 s) (he : execHelloReply m s = .next s1) : Keeps s0 s1 := by
  unfold execHelloReply at he
  cases he
  try dsimp only
  repeat' (first
    | with_reducible assumption
    | intro _
    | with_reducible apply State.sealGo_keeps
    | with_reducible apply State.wholeMessage_keeps)

theorem execHandshakeKeysDone_keeps {s0 : State} (session : Nat) (s : State) (s1 : State) (hk : Keeps s0 s) (he : execHandshakeKeysDone session s = .next s1) : Keeps s0 s1 := by
  unfold execHandshakeKeysDone at he
  cases he
  try dsimp only
  repeat' (first
    | with_reducible assumption
    | intro _
    | with_reducible apply State.keysDone_keeps
    | with_reducible apply State.sealGo_keeps
    | with_reducible apply Keeps.ite)

theorem execKeyConfirm_keeps {s0 : State} (m : StxMessage) (s : State) (s1 : State) (hk : Keeps s0 s) (he : execKeyConfirm m s = .next s1) : Keeps s0 s1 := by
  unfold execKeyConfirm at he
  cases he
  try dsimp only
  repeat' (first
    | with_reducible assumption
    | intro _
    | with_reducible apply State.sealGo_keeps
    | with_reducible apply State.wholeMessage_keeps)

theorem execClose_keeps {s0 : State} (m : StxMessage) (s : State) (s1 : State) (hk : Keeps s0 s) (he : execClose m s = .next s1) : Keeps s0 s1 := by
  unfold execClose at he
  cases he
  try dsimp only
  repeat' (first
    | with_reducible assumption
    | intro _
    | with_reducible apply State.sealGo_keeps
    | with_reducible apply State.wholeMessage_keeps)

theorem execQuote_keeps {s0 : State} (m : StxMessage) (s : State) (s1 : State) (hk : Keeps s0 s) (he : execQuote m s = .next s1) : Keeps s0 s1 := by
  unfold execQuote at he
  cases he
  try dsimp only
  repeat' (first
    | with_reducible assumption
    | intro _
    | with_reducible apply State.sealGo_keeps
    | with_reducible apply State.wholeMessage_keeps)

theorem execSaLoadRef_keeps {s0 : State} (x attr slot : Nat) (s : State) (s1 : State) (hk : Keeps s0 s) (he : execSaLoadRef x attr slot s = .next s1) : Keeps s0 s1 := by
  unfold execSaLoadRef at he
  cases he
  try dsimp only
  repeat' (first
    | with_reducible assumption
    | intro _
    | with_reducible apply State.issue_keeps
    | with_reducible apply State.startSaLoadRef_keeps)

theorem execSaLoadKey_keeps {s0 : State} (x attr : Nat) (s : State) (s1 : State) (hk : Keeps s0 s) (he : execSaLoadKey x attr s = .next s1) : Keeps s0 s1 := by
  unfold execSaLoadKey at he
  cases he
  try dsimp only
  repeat' (first
    | with_reducible assumption
    | intro _
    | with_reducible apply State.issue_keeps
    | with_reducible apply State.startSaLoadKey_keeps)

theorem execSaClear_keeps {s0 : State} (x : Nat) (s : State) (s1 : State) (hk : Keeps s0 s) (he : execSaClear x s = .next s1) : Keeps s0 s1 := by
  unfold execSaClear at he
  cases he
  try dsimp only
  repeat' (first
    | with_reducible assumption
    | intro _
    | with_reducible apply State.issue_keeps
    | with_reducible apply State.startSaClear_keeps)

theorem execDisable_keeps {s0 : State} (x : Nat) (s : State) (s1 : State) (hk : Keeps s0 s) (he : execDisable x s = .next s1) : Keeps s0 s1 := by
  unfold execDisable at he
  cases he
  try dsimp only
  repeat' (first
    | with_reducible assumption
    | intro _
    | with_reducible apply State.issue_keeps
    | with_reducible apply State.startSaDisable_keeps)

theorem execReadId_keeps {s0 : State} (s : State) (s1 : State) (hk : Keeps s0 s) (he : execReadId s = .next s1) : Keeps s0 s1 := by
  unfold execReadId at he
  cases he
  try dsimp only
  repeat' (first
    | with_reducible assumption
    | intro _
    | with_reducible apply State.mgpOut_keeps
    | with_reducible apply Keeps.ite)

theorem execReadStatus_keeps {s0 : State} (s : State) (s1 : State) (hk : Keeps s0 s) (he : execReadStatus s = .next s1) : Keeps s0 s1 := by
  unfold execReadStatus at he
  cases he
  try dsimp only
  repeat' (first
    | with_reducible assumption
    | intro _
    | with_reducible apply State.mgpOut_keeps
    | with_reducible apply State.wr_keeps
    | with_reducible apply Keeps.ite)

theorem execWriteMbox_keeps {s0 : State} (off : Nat) (data : List Byte) (s : State) (s1 : State) (hk : Keeps s0 s) (he : execWriteMbox off data s = .next s1) : Keeps s0 s1 := by
  unfold execWriteMbox at he
  cases he
  try dsimp only
  repeat' (first
    | with_reducible assumption
    | intro _
    | with_reducible apply State.mgpWrite_keeps
    | with_reducible apply Keeps.ite)

theorem execReadMbox_keeps {s0 : State} (off len : Nat) (s : State) (s1 : State) (hk : Keeps s0 s) (he : execReadMbox off len s = .next s1) : Keeps s0 s1 := by
  unfold execReadMbox at he
  cases he
  try dsimp only
  repeat' (first
    | with_reducible assumption
    | intro _
    | with_reducible apply State.mgpOut_keeps
    | with_reducible apply State.spend_keeps
    | with_reducible apply Keeps.ite)

theorem execReadRdbuf_keeps {s0 : State} (s : State) (s1 : State) (hk : Keeps s0 s) (he : execReadRdbuf s = .next s1) : Keeps s0 s1 := by
  unfold execReadRdbuf at he
  cases he
  try dsimp only
  repeat' (first
    | with_reducible assumption
    | intro _
    | with_reducible apply State.mgpOut_keeps
    | with_reducible apply Keeps.ite)

theorem execClearErr_keeps {s0 : State} (s : State) (s1 : State) (hk : Keeps s0 s) (he : execClearErr s = .next s1) : Keeps s0 s1 := by
  unfold execClearErr at he
  cases he
  try dsimp only
  repeat' (first
    | with_reducible assumption
    | intro _
    | with_reducible apply Keeps.ite
    | simp only [Keeps.mk1])

theorem execUnknownOpcode_keeps {s0 : State} (code : Nat) (s : State) (s1 : State) (hk : Keeps s0 s) (he : execUnknownOpcode code s = .next s1) : Keeps s0 s1 := by
  unfold execUnknownOpcode at he
  cases he
  try dsimp only
  repeat' (first
    | with_reducible assumption
    | intro _
    | with_reducible apply State.mgpErr_keeps
    | with_reducible apply Keeps.ite)

theorem execFetch_keeps {s0 : State} (addr : Nat) (s : State) (s1 : State) (hk : Keeps s0 s) (he : execFetch addr s = .next s1) : Keeps s0 s1 := by
  unfold execFetch at he
  cases he
  try dsimp only
  repeat' (first
    | with_reducible assumption
    | intro _
    | with_reducible apply State.issue_keeps
    | with_reducible apply State.startFetch_keeps)

theorem execReply_keeps {s0 : State} (addr : Nat) (s : State) (s1 : State) (hk : Keeps s0 s) (he : execReply addr s = .next s1) : Keeps s0 s1 := by
  unfold execReply at he
  cases he
  try dsimp only
  repeat' (first
    | with_reducible assumption
    | intro _
    | with_reducible apply State.issue_keeps
    | with_reducible apply State.startReply_keeps)

theorem execDoorbell_keeps {s0 : State} (s : State) (s1 : State) (hk : Keeps s0 s) (he : execDoorbell s = .next s1) : Keeps s0 s1 := by
  unfold execDoorbell at he
  cases he
  try dsimp only
  repeat' (first
    | with_reducible assumption
    | intro _
    | with_reducible apply State.issue_keeps
    | with_reducible apply State.wr_keeps)

theorem execAttach_keeps {s0 : State} (s : State) (s1 : State) (hk : Keeps s0 s) (he : execAttach s = .next s1) : Keeps s0 s1 := by
  unfold execAttach at he
  cases he
  try dsimp only
  repeat' (first
    | with_reducible assumption
    | intro _
    | with_reducible apply State.issue_keeps
    | with_reducible apply State.startAttach_keeps)

theorem execSeal_keeps {s0 : State} (s : State) (s1 : State) (hk : Keeps s0 s) (he : execSeal s = .next s1) : Keeps s0 s1 := by
  unfold execSeal at he
  cases he
  try dsimp only
  repeat' (first
    | with_reducible assumption
    | intro _
    | with_reducible apply State.issue_keeps
    | with_reducible apply State.startSeal_keeps)

theorem execSealToShelf_keeps {s0 : State} (s : State) (s1 : State) (hk : Keeps s0 s) (he : execSealToShelf s = .next s1) : Keeps s0 s1 := by
  unfold execSealToShelf at he
  cases he
  try dsimp only
  repeat' (first
    | with_reducible assumption
    | intro _
    | with_reducible apply State.issue_keeps
    | with_reducible apply State.startSeal_keeps)

theorem execSealCloseTimeout_keeps {s0 : State} (session : Nat) (s : State) (s1 : State) (hk : Keeps s0 s) (he : execSealCloseTimeout session s = .next s1) : Keeps s0 s1 := by
  unfold execSealCloseTimeout at he
  cases he
  try dsimp only
  repeat' (first
    | with_reducible assumption
    | intro _
    | with_reducible apply State.abandonSess_keeps
    | with_reducible apply State.sealGo_keeps
    | with_reducible apply Keeps.ite)

theorem execReattachExpired_keeps {s0 : State} (s : State) (s1 : State) (hk : Keeps s0 s) (he : execReattachExpired s = .next s1) : Keeps s0 s1 := by
  unfold execReattachExpired at he
  cases he
  try dsimp only
  repeat' (first
    | with_reducible assumption
    | intro _
    | with_reducible apply State.reattachLate_keeps)

theorem execShortfallDrop_keeps {s0 : State} (res idx : Nat) (s : State) (s1 : State) (hk : Keeps s0 s) (he : execShortfallDrop res idx s = .next s1) : Keeps s0 s1 := by
  unfold execShortfallDrop at he
  cases he
  try dsimp only
  repeat' (first
    | with_reducible assumption
    | intro _
    | with_reducible apply State.dropReq_keeps)

theorem execLaneStatusChange_keeps {s0 : State} (l : Fin 2) (lock hiBer : Bool) (s : State) (s1 : State) (hk : Keeps s0 s) (he : execLaneStatusChange l lock hiBer s = .next s1) : Keeps s0 s1 := by
  unfold execLaneStatusChange at he
  cases he
  try dsimp only
  repeat' (first
    | with_reducible assumption
    | intro _
    | with_reducible apply State.wrb_keeps
    | with_reducible apply Keeps.ite)

theorem execLinkUp_keeps {s0 : State} (l : Fin 2) (s : State) (s1 : State) (hk : Keeps s0 s) (he : execLinkUp l s = .next s1) : Keeps s0 s1 := by
  unfold execLinkUp at he
  cases he
  try dsimp only
  repeat' (first
    | with_reducible assumption
    | intro _
    | with_reducible apply State.linkRises_keeps)

theorem execLinkDown_keeps {s0 : State} (l : Fin 2) (s : State) (s1 : State) (hk : Keeps s0 s) (he : execLinkDown l s = .next s1) : Keeps s0 s1 := by
  unfold execLinkDown at he
  cases he
  try dsimp only
  repeat' (first
    | with_reducible assumption
    | intro _
    | with_reducible apply State.linkFalls_keeps
    | with_reducible apply Keeps.ite)

theorem execNetSend_keeps {s0 : State} (addr : Nat) (s : State) (s1 : State) (hk : Keeps s0 s) (he : execNetSend addr s = .next s1) : Keeps s0 s1 := by
  unfold execNetSend at he
  cases he
  try dsimp only
  repeat' (first
    | with_reducible assumption
    | intro _
    | with_reducible apply State.issue_keeps
    | with_reducible apply State.startNetSend_keeps)

theorem execNetRecv_keeps {s0 : State} (addr : Nat) (s : State) (s1 : State) (hk : Keeps s0 s) (he : execNetRecv addr s = .next s1) : Keeps s0 s1 := by
  unfold execNetRecv at he
  cases he
  try dsimp only
  repeat' (first
    | with_reducible assumption
    | intro _
    | with_reducible apply State.issue_keeps
    | with_reducible apply State.startNetRecv_keeps)

theorem execEnable_keeps {s0 : State} (x : Nat) (s : State) (s1 : State) (hk : Keeps s0 s) (he : execEnable x s = .next s1) : Keeps s0 s1 := by
  unfold execEnable at he
  cases he
  try dsimp only
  repeat' (first
    | with_reducible assumption
    | intro _
    | with_reducible apply State.issue_keeps
    | with_reducible apply State.startEnable_keeps)

theorem execSetTxAn_keeps {s0 : State} (x : Nat) (s : State) (s1 : State) (hk : Keeps s0 s) (he : execSetTxAn x s = .next s1) : Keeps s0 s1 := by
  unfold execSetTxAn at he
  cases he
  try dsimp only
  repeat' (first
    | with_reducible assumption
    | intro _
    | with_reducible apply State.issue_keeps
    | with_reducible apply State.startSetTxAn_keeps)

theorem execTxFrameEnd_keeps {s0 : State} (l : Fin 2) (s : State) (s1 : State) (hk : Keeps s0 s) (he : execTxFrameEnd l s = .next s1) : Keeps s0 s1 := by
  unfold execTxFrameEnd at he
  cases he
  try dsimp only
  repeat' (first
    | with_reducible assumption
    | intro _
    | with_reducible apply State.frameEnd_keeps)

theorem execRegisterWrite_keeps {s0 : State} (acc : CoreAccess) (value : Nat) (s : State) (s1 : State) (hk : Keeps s0 s) (he : execRegisterWrite acc value s = .next s1) : Keeps s0 s1 := by
  unfold execRegisterWrite at he
  cases he
  try dsimp only
  repeat' (first
    | with_reducible assumption
    | intro _
    | with_reducible apply State.access_keeps
    | with_reducible apply Keeps.ite)

theorem execCrossDomainAccess_keeps {s0 : State} (acc : CoreAccess) (write : Option Nat) (s : State) (s1 : State) (hk : Keeps s0 s) (he : execCrossDomainAccess acc write s = .next s1) : Keeps s0 s1 := by
  unfold execCrossDomainAccess at he
  cases he
  try dsimp only
  repeat' (first
    | with_reducible assumption
    | intro _
    | with_reducible apply State.access_keeps
    | with_reducible apply Keeps.ite)

theorem execDebugIr_keeps {s0 : State} (acc : DebugAccess) (s : State) (s1 : State) (hk : Keeps s0 s) (he : execDebugIr acc s = .next s1) : Keeps s0 s1 := by
  unfold execDebugIr at he
  cases he
  try dsimp only
  repeat' (first
    | with_reducible assumption
    | intro _
    | with_reducible apply State.debugAccess_keeps
    | with_reducible apply State.tapSelect_keeps
    | with_reducible apply Keeps.ite)

theorem execTapHostCmd_keeps {s0 : State} (op host slot : Nat) (s : State) (s1 : State) (hk : Keeps s0 s) (he : execTapHostCmd op host slot s = .next s1) : Keeps s0 s1 := by
  unfold execTapHostCmd at he
  cases he
  try dsimp only
  repeat' (first
    | with_reducible assumption
    | intro _
    | with_reducible apply State.cmdWrite_keeps
    | with_reducible apply State.tapSelect_keeps
    | with_reducible apply Keeps.ite)

theorem execHostTransaction_keeps {s0 : State} (n : Fin 6) (t : HostTxn) (s : State) (s1 : State) (hk : Keeps s0 s) (he : execHostTransaction n t s = .next s1) : Keeps s0 s1 := by
  unfold execHostTransaction at he
  cases he
  try dsimp only
  repeat' (first
    | with_reducible assumption
    | intro _
    | with_reducible apply State.hostTxn_keeps)

theorem execPinGrant_keeps {s0 : State} (n : Fin 6) (cycles : Nat) (s : State) (s1 : State) (hk : Keeps s0 s) (he : execPinGrant n cycles s = .next s1) : Keeps s0 s1 := by
  unfold execPinGrant at he
  cases he
  try dsimp only
  repeat' (first
    | with_reducible assumption
    | intro _
    | with_reducible apply State.pinGrant_keeps)

theorem execHoldExpired_keeps {s0 : State} (n : Fin 6) (s : State) (s1 : State) (hk : Keeps s0 s) (he : execHoldExpired n s = .next s1) : Keeps s0 s1 := by
  unfold execHoldExpired at he
  cases he
  try dsimp only
  repeat' (first
    | with_reducible assumption
    | intro _
    | with_reducible apply State.holdExpired_keeps)

theorem execWbufReplay_keeps {s0 : State} (n : Fin 6) (s : State) (s1 : State) (hk : Keeps s0 s) (he : execWbufReplay n s = .next s1) : Keeps s0 s1 := by
  unfold execWbufReplay at he
  cases he
  try dsimp only
  repeat' (first
    | with_reducible assumption
    | intro _
    | with_reducible apply State.wbufReplay_keeps)

theorem execEmuBusyEnd_keeps {s0 : State} (n : Fin 6) (s : State) (s1 : State) (hk : Keeps s0 s) (he : execEmuBusyEnd n s = .next s1) : Keeps s0 s1 := by
  unfold execEmuBusyEnd at he
  cases he
  try dsimp only
  repeat' (first
    | with_reducible assumption
    | intro _
    | with_reducible apply State.setPort_keeps
    | with_reducible apply Keeps.ite
    | simp only [Keeps.mk1]
    | with_reducible rfl
    | split)

theorem execAlwaysOnReset_keeps {s0 : State} (s : State) (s1 : State) (hk : Keeps s0 s) (he : execAlwaysOnReset s = .next s1) : Keeps s0 s1 := by
  unfold execAlwaysOnReset at he
  cases he
  try dsimp only
  repeat' (first
    | with_reducible assumption
    | intro _
    | with_reducible apply State.aonReset_keeps)

theorem execVddAonRise_keeps {s0 : State} (s : State) (s1 : State) (hk : Keeps s0 s) (he : execVddAonRise s = .next s1) : Keeps s0 s1 := by
  unfold execVddAonRise at he
  cases he
  try dsimp only
  repeat' (first
    | with_reducible assumption
    | intro _
    | simp only [Keeps.mk1])

theorem execPowerOnReset_keeps {s0 : State} (s : State) (s1 : State) (hk : Keeps s0 s) (he : execPowerOnReset s = .next s1) : Keeps s0 s1 := by
  unfold execPowerOnReset at he
  cases he
  try dsimp only
  repeat' (first
    | with_reducible assumption
    | intro _
    | with_reducible apply State.mainPor_keeps
    | with_reducible apply Keeps.ite)

theorem execMainResetRelease_keeps {s0 : State} (pins : BootPins) (s : State) (s1 : State) (hk : Keeps s0 s) (he : execMainResetRelease pins s = .next s1) : Keeps s0 s1 := by
  unfold execMainResetRelease at he
  cases he
  try dsimp only
  repeat' (first
    | with_reducible assumption
    | intro _
    | with_reducible apply State.mainRelease_keeps
    | with_reducible apply Keeps.ite)

theorem execLockstepMismatch_keeps {s0 : State} (_pair : Fin 4) (c0Ok : Bool) (s : State) (s1 : State) (hk : Keeps s0 s) (he : execLockstepMismatch _pair c0Ok s = .next s1) : Keeps s0 s1 := by
  unfold execLockstepMismatch at he
  cases he
  try dsimp only
  repeat' (first
    | with_reducible assumption
    | intro _
    | with_reducible apply State.warmReset_keeps)

theorem execWarm_keeps {s0 : State} (c0Ok : Bool) (s : State) (s1 : State) (hk : Keeps s0 s) (he : execWarm c0Ok s = .next s1) : Keeps s0 s1 := by
  unfold execWarm at he
  cases he
  try dsimp only
  repeat' (first
    | with_reducible assumption
    | intro _
    | with_reducible apply State.issue_keeps
    | with_reducible apply State.warmReset_keeps)

theorem execWatchdogExpiry_keeps {s0 : State} (c0Ok : Bool) (s : State) (s1 : State) (hk : Keeps s0 s) (he : execWatchdogExpiry c0Ok s = .next s1) : Keeps s0 s1 := by
  unfold execWatchdogExpiry at he
  cases he
  try dsimp only
  repeat' (first
    | with_reducible assumption
    | intro _
    | with_reducible apply State.warmReset_keeps
    | with_reducible apply Keeps.ite)

theorem execWdtKick_keeps {s0 : State} (s : State) (s1 : State) (hk : Keeps s0 s) (he : execWdtKick s = .next s1) : Keeps s0 s1 := by
  unfold execWdtKick at he
  cases he
  try dsimp only
  repeat' (first
    | with_reducible assumption
    | intro _
    | with_reducible apply State.issue_keeps
    | simp only [Keeps.mk1])

theorem execVddCoreVreset_keeps {s0 : State} (s : State) (s1 : State) (hk : Keeps s0 s) (he : execVddCoreVreset s = .next s1) : Keeps s0 s1 := by
  unfold execVddCoreVreset at he
  cases he
  try dsimp only
  repeat' (first
    | with_reducible assumption
    | intro _
    | with_reducible apply State.holdAll_keeps
    | with_reducible apply State.mainLost_keeps
    | with_reducible apply State.vigilEntry_keeps
    | with_reducible apply Keeps.ite
    | simp only [Keeps.mk1])

theorem execVddCoreRise_keeps {s0 : State} (s : State) (s1 : State) (hk : Keeps s0 s) (he : execVddCoreRise s = .next s1) : Keeps s0 s1 := by
  unfold execVddCoreRise at he
  cases he
  try dsimp only
  repeat' (first
    | with_reducible assumption
    | intro _
    | with_reducible apply State.mainPor_keeps
    | with_reducible apply State.startGap_keeps
    | with_reducible apply State.wr_keeps
    | with_reducible apply Keeps.ite
    | simp only [Keeps.mk1])

theorem execBraceEnter_keeps {s0 : State} (src : WarnSource) (s : State) (s1 : State) (hk : Keeps s0 s) (he : execBraceEnter src s = .next s1) : Keeps s0 s1 := by
  unfold execBraceEnter at he
  cases he
  try dsimp only
  repeat' (first
    | with_reducible assumption
    | intro _
    | with_reducible apply State.braceChannels_keeps
    | with_reducible apply State.braceDefers_keeps
    | with_reducible apply State.bump_keeps
    | with_reducible apply State.raise_keeps
    | with_reducible apply State.wr_keeps
    | with_reducible apply Keeps.ite
    | simp only [Keeps.mk1]
    | with_reducible rfl
    | split)

theorem execBraceExit_keeps {s0 : State} (us : Nat) (s : State) (s1 : State) (hk : Keeps s0 s) (he : execBraceExit us s = .next s1) : Keeps s0 s1 := by
  unfold execBraceExit at he
  cases he
  try dsimp only
  repeat' (first
    | with_reducible assumption
    | intro _
    | with_reducible apply State.bump_keeps
    | with_reducible apply State.openingResume_keeps
    | with_reducible apply State.peak_keeps
    | with_reducible apply State.pushResume_keeps
    | with_reducible apply State.raise_keeps
    | with_reducible apply State.resumeAfterBrace_keeps
    | with_reducible apply State.wr_keeps
    | with_reducible apply Keeps.ite
    | simp only [Keeps.mk1])

theorem execBraceLong_keeps {s0 : State} (s : State) (s1 : State) (hk : Keeps s0 s) (he : execBraceLong s = .next s1) : Keeps s0 s1 := by
  unfold execBraceLong at he
  cases he
  try dsimp only
  repeat' (first
    | with_reducible assumption
    | intro _
    | with_reducible apply State.raise_keeps
    | with_reducible apply State.wr_keeps
    | with_reducible apply Keeps.ite)

theorem execGlitch_keeps {s0 : State} (core aon : Bool) (s : State) (s1 : State) (hk : Keeps s0 s) (he : execGlitch core aon s = .next s1) : Keeps s0 s1 := by
  unfold execGlitch at he
  cases he
  try dsimp only
  repeat' (first
    | with_reducible assumption
    | intro _
    | with_reducible apply State.bump_keeps
    | with_reducible apply State.mainPor_keeps
    | with_reducible apply State.raise_keeps
    | with_reducible apply State.secLog_keeps
    | with_reducible apply State.wr_keeps
    | with_reducible apply Keeps.ite)

theorem execEnclOpen_keeps {s0 : State} (s : State) (s1 : State) (hk : Keeps s0 s) (he : execEnclOpen s = .next s1) : Keeps s0 s1 := by
  unfold execEnclOpen at he
  cases he
  try dsimp only
  repeat' (first
    | with_reducible assumption
    | intro _
    | with_reducible apply State.setTamper_keeps
    | with_reducible apply State.wr_keeps
    | with_reducible apply Keeps.ite
    | simp only [Keeps.mk1])

theorem execVddioDetect_keeps {s0 : State} (rail : IoRail) (above : Bool) (s : State) (s1 : State) (hk : Keeps s0 s) (he : execVddioDetect rail above s = .next s1) : Keeps s0 s1 := by
  unfold execVddioDetect at he
  cases he
  try dsimp only
  repeat' (first
    | with_reducible assumption
    | intro _
    | with_reducible apply State.portCsRise_keeps
    | with_reducible apply Keeps.ite
    | simp only [Keeps.mk1]
    | with_reducible rfl
    | split)

theorem execTransitionDone_keeps {s0 : State} (s : State) (s1 : State) (hk : Keeps s0 s) (he : execTransitionDone s = .next s1) : Keeps s0 s1 := by
  unfold execTransitionDone at he
  cases he
  try dsimp only
  repeat' (first
    | with_reducible assumption
    | intro _
    | with_reducible apply State.transitionFinish_keeps)

theorem execHostVerify_keeps {s0 : State} (h : Fin 6) (s : State) (s1 : State) (hk : Keeps s0 s) (he : execHostVerify h s = .next s1) : Keeps s0 s1 := by
  unfold execHostVerify at he
  cases he
  try dsimp only
  repeat' (first
    | with_reducible assumption
    | intro _
    | with_reducible apply State.issue_keeps
    | with_reducible apply State.startVerify_keeps)

theorem execQuarantine_keeps {s0 : State} (h : Fin 6) (s : State) (s1 : State) (hk : Keeps s0 s) (he : execQuarantine h s = .next s1) : Keeps s0 s1 := by
  unfold execQuarantine at he
  cases he
  try dsimp only
  repeat' (first
    | with_reducible assumption
    | intro _
    | with_reducible apply State.issue_keeps
    | with_reducible apply State.startQuarantine_keeps)

theorem execHold_keeps {s0 : State} (h : Fin 6) (s : State) (s1 : State) (hk : Keeps s0 s) (he : execHold h s = .next s1) : Keeps s0 s1 := by
  unfold execHold at he
  cases he
  try dsimp only
  repeat' (first
    | with_reducible assumption
    | intro _
    | with_reducible apply State.issue_keeps
    | with_reducible apply State.startHold_keeps)

theorem execMend_keeps {s0 : State} (h : Fin 6) (s : State) (s1 : State) (hk : Keeps s0 s) (he : execMend h s = .next s1) : Keeps s0 s1 := by
  unfold execMend at he
  cases he
  try dsimp only
  repeat' (first
    | with_reducible assumption
    | intro _
    | with_reducible apply State.issue_keeps
    | with_reducible apply State.startMend_keeps)

theorem execEnroll_keeps {s0 : State} (h : Fin 6) (slot : Nat) (s : State) (s1 : State) (hk : Keeps s0 s) (he : execEnroll h slot s = .next s1) : Keeps s0 s1 := by
  unfold execEnroll at he
  cases he
  try dsimp only
  repeat' (first
    | with_reducible assumption
    | intro _
    | with_reducible apply State.issue_keeps
    | with_reducible apply State.startEnroll_keeps)

theorem execOk_keeps {s0 : State} (h : Fin 6) (s : State) (s1 : State) (hk : Keeps s0 s) (he : execOk h s = .next s1) : Keeps s0 s1 := by
  unfold execOk at he
  cases he
  try dsimp only
  repeat' (first
    | with_reducible assumption
    | intro _
    | with_reducible apply State.issue_keeps
    | with_reducible apply State.okMilestone_keeps)

theorem execHostRelease_keeps {s0 : State} (h : Fin 6) (s : State) (s1 : State) (hk : Keeps s0 s) (he : execHostRelease h s = .next s1) : Keeps s0 s1 := by
  unfold execHostRelease at he
  cases he
  try dsimp only
  repeat' (first
    | with_reducible assumption
    | intro _
    | with_reducible apply State.hostRelease_keeps)

theorem execGateLimit_keeps {s0 : State} (h : Fin 6) (s : State) (s1 : State) (hk : Keeps s0 s) (he : execGateLimit h s = .next s1) : Keeps s0 s1 := by
  unfold execGateLimit at he
  cases he
  try dsimp only
  repeat' (first
    | with_reducible assumption
    | intro _
    | with_reducible apply State.gateLimit_keeps)

theorem execEscortFetchDone_keeps {s0 : State} (h : Fin 6) (corrupt : Bool) (cycles ns : Nat) (s : State) (s1 : State) (hk : Keeps s0 s) (he : execEscortFetchDone h corrupt cycles ns s = .next s1) : Keeps s0 s1 := by
  unfold execEscortFetchDone at he
  cases he
  try dsimp only
  repeat' (first
    | with_reducible assumption
    | intro _
    | with_reducible apply State.fetchDone_keeps)

theorem execEscortSweepDone_keeps {s0 : State} (h : Fin 6) (s : State) (s1 : State) (hk : Keeps s0 s) (he : execEscortSweepDone h s = .next s1) : Keeps s0 s1 := by
  unfold execEscortSweepDone at he
  cases he
  try dsimp only
  repeat' (first
    | with_reducible assumption
    | intro _
    | with_reducible apply State.sweepFinish_keeps)

theorem execBlockTimeout_keeps {s0 : State} (h : Fin 6) (s : State) (s1 : State) (hk : Keeps s0 s) (he : execBlockTimeout h s = .next s1) : Keeps s0 s1 := by
  unfold execBlockTimeout at he
  cases he
  try dsimp only
  repeat' (first
    | with_reducible assumption
    | intro _
    | with_reducible apply State.blockTimeout_keeps)

theorem execHostOkChange_keeps {s0 : State} (h : Fin 6) (level : Bool) (s : State) (s1 : State) (hk : Keeps s0 s) (he : execHostOkChange h level s = .next s1) : Keeps s0 s1 := by
  unfold execHostOkChange at he
  cases he
  try dsimp only
  repeat' (first
    | with_reducible assumption
    | intro _
    | with_reducible apply State.okPin_keeps)

theorem execBootTimeout_keeps {s0 : State} (h : Fin 6) (s : State) (s1 : State) (hk : Keeps s0 s) (he : execBootTimeout h s = .next s1) : Keeps s0 s1 := by
  unfold execBootTimeout at he
  cases he
  try dsimp only
  repeat' (first
    | with_reducible assumption
    | intro _
    | with_reducible apply State.bootTimeout_keeps)

theorem execResetPulseEnd_keeps {s0 : State} (h : Fin 6) (s : State) (s1 : State) (hk : Keeps s0 s) (he : execResetPulseEnd h s = .next s1) : Keeps s0 s1 := by
  unfold execResetPulseEnd at he
  cases he
  try dsimp only
  repeat' (first
    | with_reducible assumption
    | intro _
    | with_reducible apply State.pulseEnd_keeps)

theorem execOkLossExpiry_keeps {s0 : State} (h : Fin 6) (s : State) (s1 : State) (hk : Keeps s0 s) (he : execOkLossExpiry h s = .next s1) : Keeps s0 s1 := by
  unfold execOkLossExpiry at he
  cases he
  try dsimp only
  repeat' (first
    | with_reducible assumption
    | intro _
    | with_reducible apply State.okLost_keeps)

theorem execMendDeadline_keeps {s0 : State} (h : Fin 6) (s : State) (s1 : State) (hk : Keeps s0 s) (he : execMendDeadline h s = .next s1) : Keeps s0 s1 := by
  unfold execMendDeadline at he
  cases he
  try dsimp only
  repeat' (first
    | with_reducible assumption
    | intro _
    | with_reducible apply State.mendDeadline_keeps)

theorem execRestoreLimit_keeps {s0 : State} (h : Fin 6) (s : State) (s1 : State) (hk : Keeps s0 s) (he : execRestoreLimit h s = .next s1) : Keeps s0 s1 := by
  unfold execRestoreLimit at he
  cases he
  try dsimp only
  repeat' (first
    | with_reducible assumption
    | intro _
    | with_reducible apply State.restoreFail_keeps
    | with_reducible apply Keeps.ite)

theorem execReload_keeps {s0 : State} (h : Fin 6) (s : State) (s1 : State) (hk : Keeps s0 s) (he : execReload h s = .next s1) : Keeps s0 s1 := by
  unfold execReload at he
  cases he
  try dsimp only
  repeat' (first
    | with_reducible assumption
    | intro _
    | with_reducible apply State.issue_keeps
    | with_reducible apply State.startReload_keeps)

theorem execDgeDone_keeps {s0 : State} (n : Fin 4) (s : State) (s1 : State) (hk : Keeps s0 s) (he : execDgeDone n s = .next s1) : Keeps s0 s1 := by
  unfold execDgeDone at he
  cases he
  try dsimp only
  repeat' (first
    | with_reducible assumption
    | intro _
    | with_reducible apply State.dgeFinish_keeps
    | with_reducible apply State.tableVerdict_keeps
    | with_reducible apply Keeps.ite
    | simp only [Keeps.mk1]
    | with_reducible rfl
    | split)

theorem execLeafVerdict_keeps {s0 : State} (n : Fin 4) (s : State) (s1 : State) (hk : Keeps s0 s) (he : execLeafVerdict n s = .next s1) : Keeps s0 s1 := by
  unfold execLeafVerdict at he
  cases he
  try dsimp only
  repeat' (first
    | with_reducible assumption
    | intro _
    | with_reducible apply State.leafVerdict_keeps
    | with_reducible apply State.preVerdict_keeps
    | with_reducible apply Keeps.ite
    | simp only [Keeps.mk1]
    | with_reducible rfl
    | split)

theorem execAesDone_keeps {s0 : State} (e : Fin 2) (s : State) (s1 : State) (hk : Keeps s0 s) (he : execAesDone e s = .next s1) : Keeps s0 s1 := by
  unfold execAesDone at he
  cases he
  try dsimp only
  repeat' (first
    | with_reducible assumption
    | intro _
    | with_reducible apply State.aesEnd_keeps
    | with_reducible apply State.goOn_keeps)

theorem execAesAbort_keeps {s0 : State} (e : Fin 2) (s : State) (s1 : State) (hk : Keeps s0 s) (he : execAesAbort e s = .next s1) : Keeps s0 s1 := by
  unfold execAesAbort at he
  cases he
  try dsimp only
  repeat' (first
    | with_reducible assumption
    | intro _
    | with_reducible apply State.aesAbort_keeps
    | with_reducible apply State.goOn_keeps
    | with_reducible apply Keeps.ite)

theorem execRngReady_keeps {s0 : State} (s : State) (s1 : State) (hk : Keeps s0 s) (he : execRngReady s = .next s1) : Keeps s0 s1 := by
  unfold execRngReady at he
  cases he
  try dsimp only
  repeat' (first
    | with_reducible assumption
    | intro _
    | with_reducible apply State.rngReady_keeps
    | with_reducible apply Keeps.ite)

theorem execChannelServiceDone_keeps {s0 : State} (ch : Fin 8) (corrupt : Bool) (s : State) (s1 : State) (hk : Keeps s0 s) (he : execChannelServiceDone ch corrupt s = .next s1) : Keeps s0 s1 := by
  unfold execChannelServiceDone at he
  cases he
  try dsimp only
  repeat' (first
    | with_reducible assumption
    | intro _
    | with_reducible apply State.serviceDone_keeps)

theorem execStrobeWaitExpiry_keeps {s0 : State} (ch : Fin 8) (s : State) (s1 : State) (hk : Keeps s0 s) (he : execStrobeWaitExpiry ch s = .next s1) : Keeps s0 s1 := by
  unfold execStrobeWaitExpiry at he
  cases he
  try dsimp only
  repeat' (first
    | with_reducible assumption
    | intro _
    | with_reducible apply State.strobeMissed_keeps)

theorem execPkeDone_keeps {s0 : State} (s : State) (s1 : State) (hk : Keeps s0 s) (he : execPkeDone s = .next s1) : Keeps s0 s1 := by
  unfold execPkeDone at he
  cases he
  try dsimp only
  repeat' (first
    | with_reducible assumption
    | intro _
    | with_reducible apply State.pkeEnds_keeps)

theorem execLedgerCommitDone_keeps {s0 : State} (s : State) (s1 : State) (hk : Keeps s0 s) (he : execLedgerCommitDone s = .next s1) : Keeps s0 s1 := by
  unfold execLedgerCommitDone at he
  cases he
  try dsimp only
  repeat' (first
    | with_reducible assumption
    | intro _
    | with_reducible apply State.commitDone_keeps)

theorem execStageOpen_keeps {s0 : State} (n : Fin 6) (s : State) (s1 : State) (hk : Keeps s0 s) (he : execStageOpen n s = .next s1) : Keeps s0 s1 := by
  unfold execStageOpen at he
  cases he
  try dsimp only
  repeat' (first
    | with_reducible assumption
    | intro _
    | with_reducible apply State.issue_keeps
    | with_reducible apply State.startStageOpen_keeps)

theorem execStageArm_keeps {s0 : State} (n : Fin 6) (addr : Nat) (s : State) (s1 : State) (hk : Keeps s0 s) (he : execStageArm n addr s = .next s1) : Keeps s0 s1 := by
  unfold execStageArm at he
  cases he
  try dsimp only
  repeat' (first
    | with_reducible assumption
    | intro _
    | with_reducible apply State.issue_keeps
    | with_reducible apply State.startStageArm_keeps)

theorem execSweep_keeps {s0 : State} (n : Fin 6) (s : State) (s1 : State) (hk : Keeps s0 s) (he : execSweep n s = .next s1) : Keeps s0 s1 := by
  unfold execSweep at he
  cases he
  try dsimp only
  repeat' (first
    | with_reducible assumption
    | intro _
    | with_reducible apply State.issue_keeps
    | with_reducible apply State.startSweep_keeps)

theorem execStagingSweepDone_keeps {s0 : State} (n : Fin 6) (s : State) (s1 : State) (hk : Keeps s0 s) (he : execStagingSweepDone n s = .next s1) : Keeps s0 s1 := by
  unfold execStagingSweepDone at he
  cases he
  try dsimp only
  repeat' (first
    | with_reducible assumption
    | intro _
    | with_reducible apply State.sweepEnd_keeps)

theorem execCommit_keeps {s0 : State} (n : Fin 6) (addr : Nat) (s : State) (s1 : State) (hk : Keeps s0 s) (he : execCommit n addr s = .next s1) : Keeps s0 s1 := by
  unfold execCommit at he
  cases he
  try dsimp only
  repeat' (first
    | with_reducible assumption
    | intro _
    | with_reducible apply State.issue_keeps
    | with_reducible apply State.startCommit_keeps)

theorem execStageAbort_keeps {s0 : State} (n : Fin 6) (s : State) (s1 : State) (hk : Keeps s0 s) (he : execStageAbort n s = .next s1) : Keeps s0 s1 := by
  unfold execStageAbort at he
  cases he
  try dsimp only
  repeat' (first
    | with_reducible assumption
    | intro _
    | with_reducible apply State.stageStop_keeps
    | with_reducible apply Keeps.ite)

theorem execPageCtrlWrite_keeps {s0 : State} (page value : Nat) (s : State) (s1 : State) (hk : Keeps s0 s) (he : execPageCtrlWrite page value s = .next s1) : Keeps s0 s1 := by
  unfold execPageCtrlWrite at he
  cases he
  try dsimp only
  repeat' (first
    | with_reducible assumption
    | intro _
    | with_reducible apply State.pageCtrl_keeps
    | with_reducible apply Keeps.ite)

theorem execEnableCheckDone_keeps {s0 : State} (page : Nat) (s : State) (s1 : State) (hk : Keeps s0 s) (he : execEnableCheckDone page s = .next s1) : Keeps s0 s1 := by
  unfold execEnableCheckDone at he
  cases he
  try dsimp only
  repeat' (first
    | with_reducible assumption
    | intro _
    | with_reducible apply State.enableChecked_keeps)

theorem execUpdateStrobe_keeps {s0 : State} (groups : Nat) (s : State) (s1 : State) (hk : Keeps s0 s) (he : execUpdateStrobe groups s = .next s1) : Keeps s0 s1 := by
  unfold execUpdateStrobe at he
  cases he
  try dsimp only
  repeat' (first
    | with_reducible assumption
    | intro _
    | with_reducible apply State.issue_keeps
    | with_reducible apply State.startStrobe_keeps
    | with_reducible apply Keeps.ite)

theorem execStrobeCheckDone_keeps {s0 : State} (s : State) (s1 : State) (hk : Keeps s0 s) (he : execStrobeCheckDone s = .next s1) : Keeps s0 s1 := by
  unfold execStrobeCheckDone at he
  cases he
  try dsimp only
  repeat' (first
    | with_reducible assumption
    | intro _
    | with_reducible apply State.strobeChecked_keeps)

theorem execStrobeArm_keeps {s0 : State} (page : Nat) (s : State) (s1 : State) (hk : Keeps s0 s) (he : execStrobeArm page s = .next s1) : Keeps s0 s1 := by
  unfold execStrobeArm at he
  cases he
  try dsimp only
  repeat' (first
    | with_reducible assumption
    | intro _
    | with_reducible apply State.armPage_keeps)

theorem execStrobeLimitExpiry_keeps {s0 : State} (s : State) (s1 : State) (hk : Keeps s0 s) (he : execStrobeLimitExpiry s = .next s1) : Keeps s0 s1 := by
  unfold execStrobeLimitExpiry at he
  cases he
  try dsimp only
  repeat' (first
    | with_reducible assumption
    | intro _
    | with_reducible apply State.strobeLate_keeps)

theorem execAonApply_keeps {s0 : State} (page : Nat) (s : State) (s1 : State) (hk : Keeps s0 s) (he : execAonApply page s = .next s1) : Keeps s0 s1 := by
  unfold execAonApply at he
  cases he
  try dsimp only
  repeat' (first
    | with_reducible assumption
    | intro _
    | with_reducible apply State.aonApplied_keeps)

theorem execWalkerScanEnd_keeps {s0 : State} (s : State) (s1 : State) (hk : Keeps s0 s) (he : execWalkerScanEnd s = .next s1) : Keeps s0 s1 := by
  unfold execWalkerScanEnd at he
  cases he
  try dsimp only
  repeat' (first
    | with_reducible assumption
    | intro _
    | with_reducible apply State.scanEnds_keeps
    | with_reducible apply Keeps.ite)

theorem execCrcCommit_keeps {s0 : State} (value : Nat) (s : State) (s1 : State) (hk : Keeps s0 s) (he : execCrcCommit value s = .next s1) : Keeps s0 s1 := by
  unfold execCrcCommit at he
  cases he
  try dsimp only
  repeat' (first
    | with_reducible assumption
    | intro _
    | with_reducible apply State.issue_keeps
    | with_reducible apply State.startCrcCommit_keeps)

theorem execGraceExpired_keeps {s0 : State} (s : State) (s1 : State) (hk : Keeps s0 s) (he : execGraceExpired s = .next s1) : Keeps s0 s1 := by
  unfold execGraceExpired at he
  cases he
  try dsimp only
  repeat' (first
    | with_reducible assumption
    | intro _
    | with_reducible apply State.graceEnds_keeps)

theorem execStxSend_keeps {s0 : State} (addr : Nat) (s : State) (s1 : State) (hk : Keeps s0 s) (he : execStxSend addr s = .next s1) : Keeps s0 s1 := by
  unfold execStxSend at he
  cases he
  try dsimp only
  repeat' (first
    | with_reducible assumption
    | intro _
    | with_reducible apply State.issue_keeps
    | with_reducible apply State.startStxSend_keeps)

theorem execStxRecv_keeps {s0 : State} (addr : Nat) (s : State) (s1 : State) (hk : Keeps s0 s) (he : execStxRecv addr s = .next s1) : Keeps s0 s1 := by
  unfold execStxRecv at he
  cases he
  try dsimp only
  repeat' (first
    | with_reducible assumption
    | intro _
    | with_reducible apply State.issue_keeps
    | with_reducible apply State.startStxRecv_keeps)

theorem execStxClose_keeps {s0 : State} (addr : Nat) (s : State) (s1 : State) (hk : Keeps s0 s) (he : execStxClose addr s = .next s1) : Keeps s0 s1 := by
  unfold execStxClose at he
  cases he
  try dsimp only
  repeat' (first
    | with_reducible assumption
    | intro _
    | with_reducible apply State.issue_keeps
    | with_reducible apply State.startStxClose_keeps)

theorem execReadCtx_keeps {s0 : State} (addr : Nat) (s : State) (s1 : State) (hk : Keeps s0 s) (he : execReadCtx addr s = .next s1) : Keeps s0 s1 := by
  unfold execReadCtx at he
  cases he
  try dsimp only
  repeat' (first
    | with_reducible assumption
    | intro _
    | with_reducible apply State.issue_keeps
    | with_reducible apply State.startReadCtx_keeps)

theorem execTimeChallenge_keeps {s0 : State} (s : State) (s1 : State) (hk : Keeps s0 s) (he : execTimeChallenge s = .next s1) : Keeps s0 s1 := by
  unfold execTimeChallenge at he
  cases he
  try dsimp only
  repeat' (first
    | with_reducible assumption
    | intro _
    | with_reducible apply State.issue_keeps
    | with_reducible apply State.startTimeChallenge_keeps)

theorem execTimeApply_keeps {s0 : State} (addr : Nat) (s : State) (s1 : State) (hk : Keeps s0 s) (he : execTimeApply addr s = .next s1) : Keeps s0 s1 := by
  unfold execTimeApply at he
  cases he
  try dsimp only
  repeat' (first
    | with_reducible assumption
    | intro _
    | with_reducible apply State.issue_keeps
    | with_reducible apply State.startTimeApply_keeps)

theorem execTimeProgramAuth_keeps {s0 : State} (addr : Nat) (s : State) (s1 : State) (hk : Keeps s0 s) (he : execTimeProgramAuth addr s = .next s1) : Keeps s0 s1 := by
  unfold execTimeProgramAuth at he
  cases he
  try dsimp only
  repeat' (first
    | with_reducible assumption
    | intro _
    | with_reducible apply State.issue_keeps
    | with_reducible apply State.startTimeProgramAuth_keeps)

theorem execSlewTick_keeps {s0 : State} (s : State) (s1 : State) (hk : Keeps s0 s) (he : execSlewTick s = .next s1) : Keeps s0 s1 := by
  unfold execSlewTick at he
  cases he
  try dsimp only
  repeat' (first
    | with_reducible assumption
    | intro _
    | with_reducible apply State.slewTick_keeps
    | with_reducible apply Keeps.ite)

theorem execDefine_keeps {s0 : State} (addr : Nat) (s : State) (s1 : State) (hk : Keeps s0 s) (he : execDefine addr s = .next s1) : Keeps s0 s1 := by
  unfold execDefine at he
  cases he
  try dsimp only
  repeat' (first
    | with_reducible assumption
    | intro _
    | with_reducible apply State.issue_keeps
    | with_reducible apply State.startDefine_keeps)

theorem execChain_keeps {s0 : State} (addr : Nat) (s : State) (s1 : State) (hk : Keeps s0 s) (he : execChain addr s = .next s1) : Keeps s0 s1 := by
  unfold execChain at he
  cases he
  try dsimp only
  repeat' (first
    | with_reducible assumption
    | intro _
    | with_reducible apply State.issue_keeps
    | with_reducible apply State.startChain_keeps)

theorem execSave_keeps {s0 : State} (s : State) (s1 : State) (hk : Keeps s0 s) (he : execSave s = .next s1) : Keeps s0 s1 := by
  unfold execSave at he
  cases he
  try dsimp only
  repeat' (first
    | with_reducible assumption
    | intro _
    | with_reducible apply State.issue_keeps
    | with_reducible apply State.startSaveRestore_keeps)

theorem execRestore_keeps {s0 : State} (s : State) (s1 : State) (hk : Keeps s0 s) (he : execRestore s = .next s1) : Keeps s0 s1 := by
  unfold execRestore at he
  cases he
  try dsimp only
  repeat' (first
    | with_reducible assumption
    | intro _
    | with_reducible apply State.issue_keeps
    | with_reducible apply State.startSaveRestore_keeps)

theorem execReadMeta_keeps {s0 : State} (addr : Nat) (s : State) (s1 : State) (hk : Keeps s0 s) (he : execReadMeta addr s = .next s1) : Keeps s0 s1 := by
  unfold execReadMeta at he
  cases he
  try dsimp only
  repeat' (first
    | with_reducible assumption
    | intro _
    | with_reducible apply State.issue_keeps
    | with_reducible apply State.startReadMeta_keeps)

theorem execKvtCmdDone_keeps {s0 : State} (s : State) (s1 : State) (hk : Keeps s0 s) (he : execKvtCmdDone s = .next s1) : Keeps s0 s1 := by
  unfold execKvtCmdDone at he
  cases he
  try dsimp only
  repeat' (first
    | with_reducible assumption
    | intro _
    | with_reducible apply State.kvtFinish_keeps)

theorem execMaskRefresh_keeps {s0 : State} (s : State) (s1 : State) (hk : Keeps s0 s) (he : execMaskRefresh s = .next s1) : Keeps s0 s1 := by
  unfold execMaskRefresh at he
  cases he
  try dsimp only
  repeat' (first
    | with_reducible assumption
    | intro _
    | with_reducible apply State.refreshMasks_keeps
    | with_reducible apply Keeps.ite)

theorem execInvalidate_keeps {s0 : State} (addr : Nat) (s : State) (s1 : State) (hk : Keeps s0 s) (he : execInvalidate addr s = .next s1) : Keeps s0 s1 := by
  unfold execInvalidate at he
  cases he
  try dsimp only
  repeat' (first
    | with_reducible assumption
    | intro _
    | with_reducible apply State.issue_keeps
    | with_reducible apply State.startInvalidate_keeps)

theorem execScrub_keeps {s0 : State} (bad : List Nat) (s : State) (s1 : State) (hk : Keeps s0 s) (he : execScrub bad s = .next s1) : Keeps s0 s1 := by
  unfold execScrub at he
  cases he
  try dsimp only
  repeat' (first
    | with_reducible assumption
    | intro _
    | with_reducible apply State.scrub_keeps
    | with_reducible apply Keeps.ite)

end Sys2Proof.Machine
end

