-- ==== Sys2Proof/Tests/Slice0.lean ====
section
/-! SUPPORT. Witnesses that the hypotheses of the statements can be met together, ill-formed commands that WellFormed refuses, and
small one-step tests whose expected values come from the spec. -/

set_option maxRecDepth 100000
set_option Elab.async false

namespace Sys2Proof.Tests

open Sys2Proof Sys2Proof.Machine

/-- A state with the main domain up and nothing else done. -/
def upState : State := { State.reset with power := { Power.reset with mainReset := false } }

/-- The next state of an outcome, or a state that stands for none. -/
def nextOr (d : State) : Host.Outcome State Fault Refusal → State
  | .next t => t
  | _ => d


/-- A device in PROVISIONED with a life-cycle token for FIELD at the start of main SRAM; its signatures are opaque. -/
def tokSram : Mem := [(0x20000000, 0x53), (0x20000001, 0x59), (0x20000002, 0x54), (0x20000003, 0x4B), (0x20000004, 1), (0x20000018, 3),
  (0x20000019, 4), (0x2000001A, 3), (0x2000001B, 2)]
def tokState : State := { upState.wr Reg.LCS.STATE lcPROVISIONED with
  sram := tokSram,
  otp := { Otp.blank with therm := 7#16, bornA := ⟨1, BitVec.allOnes 16⟩, custHash := keysHash (Mem.bytes 0 tokSram 0x20000000 tokenLen) 0x20 } }


/-- A state whose slot 5 is DEFINED with attribute `a` under the blank slot 0. -/
def slotState (a : Nat) (mem : Mem) : State := ({ upState with sram := mem }).setSlot 5 (State.rootSlot a [])

theorem slotState_slot (a : Nat) (mem : Mem) : (slotState a mem).slot 5 = State.rootSlot a [] := Tbl.get_put_same _ _ _ _

theorem slotState_captureFault (a : Nat) (mem : Mem) : (slotState a mem).captureFault 5 = (slotState a mem, none) := by
  have p : (slotState a mem).slot 0 = Slot.blank := Tbl.get_put_ne _ _ _ _ _ (by decide)
  have u : (slotState a mem).slotUsable 5 = true := by
    simp [State.slotUsable, slotState_slot, p, State.rootSlot, Slot.blank, slDEFINED, slIN_USE]
  simp [State.captureFault, State.slotTagOk, u, slotState_slot, State.rootSlot, Slot.blank, slFREE, slDEFINED]

/-- The same with the CTR_DRBG in service. -/
def servingSlot (a : Nat) (mem : Mem) : State := (slotState a mem).wr Reg.RNG.STATUS_READY 1

theorem servingSlot_slot (a : Nat) (mem : Mem) : (servingSlot a mem).slot 5 = State.rootSlot a [] := slotState_slot a mem

theorem servingSlot_captureFault (a : Nat) (mem : Mem) : (servingSlot a mem).captureFault 5 = (servingSlot a mem, none) := by
  have g : (servingSlot a mem).slot = (slotState a mem).slot := rfl
  have k : (servingSlot a mem).slotTagOk 5 = (slotState a mem).slotTagOk 5 := rfl
  have p : (slotState a mem).slot 0 = Slot.blank := Tbl.get_put_ne _ _ _ _ _ (by decide)
  have u : (servingSlot a mem).slotUsable 5 = true := by
    simp [State.slotUsable, g, slotState_slot, p, State.rootSlot, Slot.blank, slDEFINED, slIN_USE]
  simp [State.captureFault, k, State.slotTagOk, u, g, slotState_slot, State.rootSlot, Slot.blank, slFREE, slDEFINED]

/-- A read of host port 0 that waits for the pins, a buffered command and status emulation on port 5. -/
def waitLive : Live := ⟨⟨0, false, false, 3, 0, 8, [], []⟩, .waitPins, .none, [], true, 0, false, false, none, none, false⟩
def waitState : State := (upState.openTxn 0 waitLive).setPort 5 { Port.idle with wbuf := [⟨0, false, false, 3, 0, 8, [], []⟩], emu := some ⟨true, true, 1⟩ }

/-! O1 StepRunsFront -/

theorem test_witness_StepRunsFront : ({ State.reset with pending := [.enclOpen] } : State).pending = .enclOpen :: [] := by decide

/-! O2 StepIdlesOneTick -/

theorem test_witness_StepIdlesOneTick : State.reset.pending = [] ∧ State.reset.power.aon ≠ .reset ∧ State.reset.mode.phase ≠ .shelf ∧ State.reset.up = false := by decide
theorem test_witness_StepIdlesOneTick_shelf :
    ({ State.reset with mode := { ModeSt.reset with phase := .shelf } } : State).mode.phase = .shelf := by decide

/-! O3 EveryStepAnswersNext -/



/-! O4 ResetHoldsInvariant -/



/-! O5 StepKeepsMemories -/

theorem test_witness_StepKeepsMemories :
    memoriesWf { State.reset with pending := [.enclOpen], sram := [(sramBase, 1)], flash := [(5, 0)] } :=
  ⟨rfl, rfl, rfl, rfl, fun _ => rfl, rfl⟩

/-! O6 StepOtpOneWay -/

theorem test_witness_StepOtpOneWay : ∃ t, step { State.reset with otp := { Otp.blank with custLock := true } } = .next t := ⟨_, rfl⟩

/-! O7 StepTakesOneCommand -/

theorem test_witness_StepTakesOneCommand : ∃ t, step { State.reset with pending := [.enclOpen, .seal] } = .next t := ⟨_, rfl⟩

/-! O8 ResetRegisters -/



/-! O9 CommandQueue -/

theorem test_witness_CommandQueue : (cmdSpec .doorbell).isSome = true ∧ upState.ready pgMGP mgpCmdOff = true
    ∧ (upState.setCmdSlot pgKVT 0x44 ⟨some .save, none⟩).up = true
    ∧ ((upState.setCmdSlot pgKVT 0x44 ⟨some .save, none⟩).cmdSlot pgKVT 0x44).running.isSome = true
    ∧ ((upState.setCmdSlot pgKVT 0x44 ⟨some .save, some .restore⟩).cmdSlot pgKVT 0x44).queued.isSome = true
    ∧ State.reset.up = false := by decide

/-! O10 QueuedCommandStarts -/

theorem test_witness_QueuedCommandStarts : (upState.setCmdSlot pgMGP mgpCmdOff ⟨none, some .doorbell⟩).up = true
    ∧ (upState.setCmdSlot pgMGP mgpCmdOff ⟨none, some .doorbell⟩).cmdSlot pgMGP mgpCmdOff = ⟨none, some .doorbell⟩
    ∧ (cmdSpec .doorbell).isSome = true := by decide

/-! O11 RegisterAccessWidth -/

theorem test_witness_RegisterAccessWidth : upState.up = true ∧ regBase ≤ regBase + 0x870 ∧ regBase + 0x870 < regBase + 0x100000
    ∧ (⟨0, false, regBase + 0x870, 2⟩ : CoreAccess).size ≠ 4 ∧ (regBase + 0x871) % 4 ≠ 0 ∧ 0x32 ≤ pageOf (regBase + 0x32000)
    ∧ 0x32 ≤ pageOf (regBase + 0xFFFFC) ∧ machinePages.contains (pageOf (regBase + 0x1000 * pgKVT)) = true := by decide

/-! O12 ActiveViewOfCfg -/

theorem test_witness_ActiveViewOfCfg : upState.up = true ∧ pageOf (regBase + 0x70) < 0x32 ∧ 0x40 ≤ offOf (regBase + 0x70)
    ∧ offOf (regBase + 0x70) < 0x800 ∧ upState.wordAt (pageOf (regBase + 0x70)) (offOf (regBase + 0x70)) = [Reg.GLB.CRC_CTRL]
    ∧ upState.crossDom 0 0x70 = none ∧ Reg.GLB.CRC_CTRL.kind = .cfg
    ∧ 0x840 ≤ offOf (regBase + 0x840) ∧ upState.wordAt (pageOf (regBase + 0x840)) (offOf (regBase + 0x840)) = [] := by decide

/-! O13 ShadowWrite -/

theorem test_witness_ShadowWrite : upState.up = true ∧ pageOf (regBase + 0x870) < 0x32 ∧ 0x840 ≤ offOf (regBase + 0x870)
    ∧ upState.wordAt (pageOf (regBase + 0x870)) (offOf (regBase + 0x870)) = [Reg.GLB.CRC_CTRL]
    ∧ upState.flag (Hdr.LOCK 0) = false ∧ upState.flag (Hdr.CHECK_BUSY 0) = false
    ∧ (upState.wr (Hdr.LOCK 0) 1).flag (Hdr.LOCK 0) = true ∧ (upState.wr (Hdr.CHECK_BUSY 0) 1).flag (Hdr.CHECK_BUSY 0) = true := by decide
theorem test_witness_ShadowWrite_pairwise : [Reg.GLB.CRC_CTRL].Pairwise (fun f g => f.keyOf ≠ g.keyOf) := by decide
/-- User mode of core 1, whose PMP is as reset leaves it. -/
theorem test_witness_ShadowWrite_pmp : upState.up = true ∧ (upState.core 1).pmpCfg = [] ∧ (upState.core 1).pmpOk true regBase 4 true = false
    ∧ (upState.core 1).pmpOk true regBase 4 false = false := by decide

/-! O14 CfdWrite -/

theorem test_witness_CfdWrite : upState.up = true ∧ upState.wordAt pgGLB 0x60 ≠ []
    ∧ (upState.wordAt pgGLB 0x60).all (fun f => f.kind = .cfd && f.keyOf ≠ Reg.GLB.CRC_STATUS_GRACE_OPEN.keyOf) = true
    ∧ (upState.wordAt pgGLB 0x60).length = 1
    ∧ upState.flag (Hdr.LOCK 0) = false ∧ upState.cfdFault pgGLB (upState.wordAt pgGLB 0x60) 200 = none
    ∧ upState.cfdFault pgGLB (upState.wordAt pgGLB 0x60) 0 = some Reason.FIELD_RANGE
    ∧ ((upState.wr Reg.GLB.CRC_STATUS_GRACE_OPEN 1).wr Reg.GLB.CRC_STATUS_ARMED 1).graceCloses = true := by decide

/-! O15 PageCtrlWrite -/

theorem test_witness_PageCtrlWrite : upState.up = true ∧ upState.flag (Hdr.LOCK 0x31) = false ∧ (upState.wr (Hdr.LOCK 0) 1).flag (Hdr.LOCK 0) = true
    ∧ Nat.land 0x80000000 (2 ^ 32 - 1 - 0x171) ≠ 0 ∧ Nat.land 0x171 (2 ^ 32 - 1 - 0x171) = 0
    ∧ (upState.wr (Hdr.ENABLE 5) 1).enabled 5 = true ∧ bits 0x71 6 4 ≠ (upState.wr (Hdr.ENABLE 5) 1).rd (Hdr.UPD_GROUP 5)
    ∧ bit 0x171 0 = true ∧ upState.enabled 5 = false ∧ bit 0x170 0 = false ∧ upState.flag Reg.GLB.CRC_STATUS_GRACE_OPEN = false
    ∧ ((upState.wr Reg.GLB.CRC_STATUS_GRACE_OPEN 1).wr Reg.GLB.CRC_STATUS_ARMED 1).flag Reg.GLB.CRC_STATUS_ARMED = true := by decide

/-! O16 EnableCheckEnds -/

theorem test_witness_EnableCheckEnds : Tbl.get 0 ({ upState with enableChecks := [(pgGLB, 1)] } : State).enableChecks pgGLB ≠ 0
    ∧ Tbl.get 0 upState.enableChecks 5 = 0 := by decide
theorem test_witness_EnableCheckEnds_pass :
    firstFail ((({ upState with enableChecks := [] } : State).wr (Hdr.CHECK_BUSY pgCORE) 0).checkFails ⟨[pgCORE], []⟩) pgCORE = none := by decide
theorem test_witness_EnableCheckEnds_fail :
    (firstFail ((upState.setShadow Reg.GLB.CRC_CTRL 3).checkFails ⟨[pgGLB], []⟩) pgGLB).map (fun f => f.page) = some pgGLB := by decide

/-! O17 StrobeBegins -/

theorem test_witness_StrobeBegins : upState.ready pgGLB strobeOff = true ∧ upState.checksRun 255 = false ∧ ({ upState with enableChecks := [(5, 0x11)] } : State).checksRun 2 = true
    ∧ upState.groupPages 1 (fun p => upState.enabled p) = []
    ∧ (upState.wr (Hdr.ENABLE 5) 1).groupPages 1 (fun p => (upState.wr (Hdr.ENABLE 5) 1).enabled p) = [5]
    ∧ upState.graceCloses = false
    ∧ (((upState.wr (Hdr.ENABLE 5) 1).wr Reg.GLB.CRC_STATUS_GRACE_OPEN 1).wr Reg.GLB.CRC_STATUS_ARMED 1).graceCloses = true := by decide

/-! O18 StrobeCheckEnds -/

theorem test_witness_StrobeCheckEnds :
    ({ upState with strobe := ⟨.check, 1, [pgHFP 0], [], []⟩ } : State).strobe.phase = StrobePhase.check
    ∧ State.sckPage (pgHFP 0) = true ∧ pgHFP 0 ∉ ({ upState with strobe := ⟨.check, 1, [pgHFP 0], [], []⟩ } : State).strobe.armed
    ∧ ({ upState with strobe := ⟨.check, 1, [pgCORE], [], []⟩ } : State).toArm = []
    ∧ upState.strobe.phase ≠ StrobePhase.check := by decide
theorem test_witness_StrobeCheckEnds_pass : ({ upState with strobe := ⟨.check, 1, [pgCORE], [], []⟩ } : State).strobeFails ⟨[pgCORE], []⟩ = [] := by decide
theorem test_witness_StrobeCheckEnds_fail : (upState.setShadow Reg.GLB.CRC_CTRL 3).strobeFails ⟨[pgGLB], []⟩ ≠ [] := by decide

/-! O19 StrobeArms -/

theorem test_witness_StrobeArms :
    ({ upState with strobe := ⟨.arm, 1, [pgHFP 0, pgHFP 1], [], []⟩ } : State).toArm.contains (pgHFP 0) = true
    ∧ upState.flag (Hdr.PENDING (pgHFP 0)) = false ∧ State.sckPort (pgHFP 0) ≠ 6 ∧ upState.csLow 0 = false
    ∧ State.sckPage (pgHFP 1) = true ∧ pgHFP 1 ≠ pgHFP 0 ∧ upState.strobe.phase ≠ StrobePhase.arm := by decide

/-! O20 AonApplies -/

theorem test_witness_AonApplies : State.aonPage pgCLOV = true ∧ (upState.wr (Hdr.PENDING pgCLOV) 1).flag (Hdr.PENDING pgCLOV) = true
    ∧ State.aonPage pgAON = true ∧ State.aonPage 0 = false ∧ upState.flag (Hdr.PENDING pgCLOV) = false := by decide

/-! O21 CrcCommitAndScan -/

theorem test_witness_CrcCommitAndScan : upState.ready pgGLB crcCommitOff = true ∧ upState.up = true ∧ upState.walker.commit = none
    ∧ ({ upState with walker := ⟨some 5, none⟩ } : State).walker.commit = some 5
    ∧ upState.flag Reg.GLB.CRC_STATUS_ARMED = false ∧ (upState.wr Reg.GLB.CRC_STATUS_ARMED 1).flag Reg.GLB.CRC_STATUS_GRACE_OPEN = false
    ∧ upState.cfg Reg.GLB.CRC_CTRL = 0 := by decide

/-! O22 GraceAndStallLimit -/

theorem test_witness_GraceAndStallLimit : (upState.wr Reg.GLB.CRC_STATUS_GRACE_OPEN 1).flag Reg.GLB.CRC_STATUS_GRACE_OPEN = true
    ∧ (upState.wr Reg.GLB.CRC_STATUS_GRACE_OPEN 1).flag Reg.GLB.CRC_STATUS_ARMED = false
    ∧ ((upState.wr Reg.GLB.CRC_STATUS_GRACE_OPEN 1).wr Reg.GLB.CRC_STATUS_ARMED 1).flag Reg.GLB.CRC_STATUS_ARMED = true
    ∧ upState.cfg Reg.GLB.CRC_CTRL = 0 ∧ upState.waits.find? (fun x => x.dom = 3) = none
    ∧ (({ upState with waits := [⟨3, ⟨0, false, regBase + 0xB040, 4⟩, none⟩] } : State).waits.find? (fun x => x.dom = 3)).isSome = true := by decide

/-! O23 SupplyEvents -/

theorem test_witness_SupplyEvents : State.reset.flag Reg.PWR.STATUS_BRACE = false
    ∧ (State.reset.wr Reg.PWR.STATUS_BRACE 1).flag Reg.PWR.STATUS_BRACE = true ∧ State.reset.power.core ≠ Level.reset
    ∧ State.reset.power.aon ≠ Level.reset ∧ (State.reset.wr Reg.PWR.STATUS_BRACE 1).flag Reg.PWR.STATUS_BRACE_LONG = false
    ∧ State.reset.power.mainOn = true ∧ ({ State.reset with power := { Power.reset with mainOn := false } } : State).power.mainOn = false
    ∧ State.reset.cfgb Reg.PWR.GLITCH_CTRL = false ∧ (State.reset.setCfg Reg.AON.TAMPER_CFG 1).cfgb Reg.AON.TAMPER_CFG = true
    ∧ State.reset.mode.phase ≠ Phase.shelf ∧ ({ State.reset with mode := { ModeSt.reset with phase := .shelf } } : State).mode.phase = Phase.shelf
    ∧ State.reset.cfgb Reg.AON.TAMPER_CFG = false
    ∧ ({ State.reset with lcs := { State.reset.lcs with busy := true } } : State).lcs.busy = true
    ∧ (let s := (upState.wr Reg.LCS.STATE lcISSUED).wr Reg.PWR.STATUS_BRACE 1; s.ready pgLCS 0x5C = true ∧ s.brace = true ∧ s.lc = lcISSUED ∧ s.otp.custHash = 0)
    ∧ State.inSram 0x20000000 48 = true := by decide

/-! O24 RailsAndResets -/

theorem test_witness_RailsAndResets : State.reset.csLow 0 = false ∧ State.reset.ledger.block = none ∧ State.reset.power.aon ≠ Level.reset ∧ State.reset.mode.phase ≠ Phase.shelf
    ∧ State.reset.mode.phase ≠ Phase.vigil ∧ State.reset.power.mainOn = true
    ∧ ({ State.reset with mode := { ModeSt.reset with phase := .vigil } } : State).mode.phase = Phase.vigil
    ∧ ({ State.reset with mode := { ModeSt.reset with phase := .shelf } } : State).mode.phase = Phase.shelf
    ∧ ({ State.reset with power := { Power.reset with core := .reset } } : State).power.core = Level.reset
    ∧ ({ State.reset with power := { Power.reset with mainOn := false } } : State).power.mainOn = false
    ∧ waitState.csLow 0 = true ∧ ({ State.reset with power := { Power.reset with aon := .reset } } : State).power.aon = Level.reset
    ∧ ({ State.reset with otp := { Otp.blank with lossTamper := true } } : State).otp.lossTamper = true := by decide

/-! O25 ReleaseAndWarm -/

theorem test_witness_ReleaseAndWarm : State.reset.power.mainOn = true ∧ State.reset.power.mainReset = true ∧ State.reset.power.core = Level.ok
    ∧ State.reset.power.aon = Level.ok ∧ State.reset.power.ioFlash = true ∧ State.reset.power.ioGen = true ∧ State.reset.power.pwrWarn = false
    ∧ State.reset.flag Reg.PWR.STATUS_BRACE = false ∧ State.reset.power.enclInShelf = false ∧ State.reset.power.fromVigil = false
    ∧ upState.power.mainReset = false ∧ upState.up = true ∧ (upState.wr Reg.CORE.WDT_PERIOD 100).rd Reg.CORE.WDT_PERIOD ≠ 0
    ∧ upState.rd Reg.CORE.WDT_PERIOD = 0 ∧ upState.ready pgCORE 0x68 = true ∧ upState.ready pgCORE 0x64 = true
    ∧ State.reset.up = false ∧ ({ State.reset with power := { Power.reset with fromVigil := true, enclInShelf := true } } : State).power.fromVigil = true ∧ upState.hostSt 3 = hsOFF := by decide

/-! O26 CloveAndTamper -/

theorem test_witness_CloveAndTamper : upState.power.aon ≠ Level.reset ∧ upState.mode.phase ≠ Phase.shelf
    ∧ (if upState.cfgb Reg.CLOV.INPUT_CFG_DIST_FILT then 5000 ≤ 5000 else 50 ≤ 50)
    ∧ (upState.setCfg Reg.CLOV.CTRL_EN 1).cfgb Reg.CLOV.CTRL_EN = true ∧ upState.cfgb Reg.CLOV.CTRL_EN = false
    ∧ (⟨false, 1, true⟩ : Debounce).started = true ∧ upState.ready pgAON 0x48 = true ∧ upState.flag Reg.AON.TAMPER_LATCH = false
    ∧ upState.ready pgPWR 0x60 = true ∧ upState.ready pgCLOV 0x78 = true ∧ upState.enabled pgLEDG = false ∧ upState.active pgLEDG = false
    ∧ upState.lc = lcWAFER ∧ upState.inService = false ∧ upState.brace = false ∧ (upState.wr Reg.PWR.STATUS_BRACE 1).brace = true := by decide
theorem test_witness_CloveAndTamper_issued : (upState.wr Reg.LCS.STATE lcISSUED).lc = lcISSUED ∧ (upState.wr Reg.LCS.STATE lcFIELD).inService = true := by decide

/-! O27 ModeCommands -/

theorem test_witness_ModeCommands : upState.ready pgGLB modeCmdOff = true ∧ upState.mode.phase ≠ Phase.seal ∧ upState.mode.afterWarm = false
    ∧ upState.strobesDone = true ∧ upState.tablesLoaded = true ∧ upState.mode.attached = false ∧ upState.rngServes = false ∧ (upState.wr Reg.RNG.STATUS_READY 1).rngServes = true
    ∧ (nextOr upState (exec .attach upState)).mode.attached = true ∧ upState.lc < lcFIELD
    ∧ ({ upState with strobe := ⟨.check, 1, [], [], []⟩ } : State).strobesDone = false
    ∧ ({ upState with mode := { ModeSt.reset with phase := .seal, sealStep := 2 } } : State).mode.phase = Phase.seal
    ∧ ({ upState with mode := { ModeSt.reset with reattach := true } } : State).mode.reattach = true
    ∧ (upState.wr (Reg.HSV.HOST_STATE_STATE 5) hsESCORTED).hostSt 5 = hsESCORTED
    ∧ ({ upState with mode := { ModeSt.reset with sealShelf := true } } : State).mode.sealShelf = true := by decide

/-! O28 Transitions -/

theorem test_witness_Transitions : tokState.ready pgLCS 0x5C = true ∧ State.inSram 0x20000000 tokenLen = true ∧ tokState.flag Reg.PWR.STATUS_BRACE = false
    ∧ tokenTarget (tokState.sramBytes 0x20000000 tokenLen) = lcFIELD
    ∧ tokState.preconditionFault (tokState.sramBytes 0x20000000 tokenLen) = none
    ∧ upState.tokenFault (upState.sramBytes 0x20000000 tokenLen) = some Reason.FIELD_RANGE
    ∧ (tokState.wr Reg.PWR.STATUS_BRACE 1).flag Reg.PWR.STATUS_BRACE = true ∧ tokState.lc ≠ lcINVALID
    ∧ (tokState.wr Reg.LCS.STATE lcINVALID).lc = lcINVALID ∧ tokState.openIntents = [] ∧ tokState.tapUp = true
    ∧ tokState.right rightRESUME = false ∧ (tokState.wr Reg.DBG.RIGHTS_ACTIVE (2 ^ rightRESUME)).right rightRESUME = true
    ∧ tokState.cmdRuns pgLCS 0x5C = false ∧ tokState.ledger.block = none ∧ tokState.pkeFree 2 = true ∧ (tokState.wr Reg.PWR.STATUS_BRACE 1).pkeFree 2 = false
    ∧ State.inSram 0x100 tokenLen = false
    ∧ ({ tokState with lcs := ⟨true, 3, false, 0⟩ } : State).lcs.busy = true ∧ tokState.lcs.busy = false := by decide
/-- The signatures are opaque, so that the token verifies is shown where they do. -/
theorem test_witness_Transitions_token (h : bothSigsOk (tokState.sramBytes 0x20000000 tokenLen) 0x20 0x824 = true) :
    tokState.tokenFault (tokState.sramBytes 0x20000000 tokenLen) = none := by
  have a : tokenFormatOk (tokState.sramBytes 0x20000000 tokenLen) = true := by decide
  have b : tokenAuthority (tokState.sramBytes 0x20000000 tokenLen) = 2 := by decide
  have c : tokenTarget (tokState.sramBytes 0x20000000 tokenLen) = 4 := by decide
  have d : tokenSerial (tokState.sramBytes 0x20000000 tokenLen) = 0 := by decide
  have e : tokenFrom (tokState.sramBytes 0x20000000 tokenLen) = 3 := by decide
  have f : tokenCount (tokState.sramBytes 0x20000000 tokenLen) = 3 := by decide
  have g : keysHash (tokState.sramBytes 0x20000000 tokenLen) 0x20 = tokState.otp.custHash := rfl
  have i : tokState.lc = 3 := by decide
  have j : tokState.otp.thermCount = 3 := by decide
  have k : tokState.otp.serial = 0 := by decide
  unfold State.tokenFault
  simp [a, b, c, d, e, f, h, g, i, j, k, authorityFor, offered, lcCHARACTERISED, lcISSUED, lcWAFER, lcPROVISIONED, lcFIELD]
/-- The same device with the transition interrupted after step 1: one open intent slot with the token's digest. -/
def resumeState : State := { tokState.wr Reg.LCS.STATE lcINVALID with
  nvm := { Nvm.blank with intents := [(3, ⟨4, 3, Config.sha384 (Mem.bytes 0 tokSram 0x20000000 tokenLen), true, 0, BitVec.allOnes 64⟩)] } }
theorem test_witness_Transitions_actions : actionsDone tokState lcFIELD := rfl
theorem test_witness_Transitions_resumes (h : bothSigsOk (tokState.sramBytes 0x20000000 tokenLen) 0x20 0x824 = true) :
    resumes resumeState (tokState.sramBytes 0x20000000 tokenLen) 3 :=
  ⟨by decide, by decide, rfl, by decide, by decide, rfl, h, Or.inl (by decide), by decide, by decide, by decide⟩
theorem test_witness_Transitions_resume : resumeState.lc = lcINVALID ∧ resumeState.openIntents = [3]
    ∧ Config.sha384 (tokState.sramBytes 0x20000000 tokenLen) = (resumeState.intent 3).digest
    ∧ tokenSerial (tokState.sramBytes 0x20000000 tokenLen) = resumeState.otp.serial
    ∧ tokenCount (tokState.sramBytes 0x20000000 tokenLen) = (resumeState.intent 3).count
    ∧ keysHash (tokState.sramBytes 0x20000000 tokenLen) 0x20 = resumeState.otp.custHash
    ∧ tokenTarget (tokState.sramBytes 0x20000000 tokenLen) = (resumeState.intent 3).target :=
  ⟨by decide, by decide, rfl, by decide, by decide, rfl, by decide⟩

/-! O29 ProgramAuth -/

theorem test_witness_ProgramAuth : (upState.wr Reg.LCS.STATE lcISSUED).ready pgLCS 0x5C = true ∧ (upState.wr Reg.LCS.STATE lcISSUED).lc = lcISSUED
    ∧ upState.otp.custHash = 0 ∧ State.inSram 0x20000000 48 = true ∧ upState.lc ≠ lcISSUED
    ∧ (upState.wr Reg.LCS.STATE lcISSUED).brace = false := by decide

/-! O30 Grants -/

theorem test_witness_Grants : upState.ready pgDBG 0x48 = true ∧ upState.tapUp = true ∧ upState.lc ≠ lcSCRAP ∧ (upState.wr Reg.LCS.STATE lcSCRAP).lc = lcSCRAP
    ∧ State.inSram 0x20000000 grantLen = true ∧ upState.acceptsGrants = false ∧ (upState.wr Reg.LCS.STATE lcFIELD).acceptsGrants = true
    ∧ upState.flag Reg.DBG.GRANT_STATUS_BUSY = false ∧ upState.lcs.busy = false ∧ upState.rngFailed = false ∧ upState.rngServes = false ∧ (upState.wr Reg.RNG.STATUS_READY 1).rngServes = true ∧ (upState.wr Reg.RNG.STATUS_READY 1).rngFailed = false
    ∧ (upState.wr Reg.RNG.STATUS_STATE 2).rngFailed = true ∧ upState.grantFault [] = some Reason.FIELD_RANGE
    ∧ ({ upState with dbg := ⟨none, some 5, 2, []⟩ } : State).dbg.opening = some 5 ∧ upState.dbg.opening = none
    ∧ ({ upState with dbg := ⟨none, some 5, 2, []⟩ } : State).debugOnFb = false
    ∧ ({ upState with ledger := { upState.ledger with debugIn := true } } : State).debugOnFb = true
    ∧ upState.pkeFree 2 = true ∧ (upState.wr Reg.PWR.STATUS_BRACE 1).pkeFree 2 = false ∧ State.inSram 0 grantLen = false
    ∧ (upState.wr Reg.DBG.GRANT_STATUS_BUSY 1).flag Reg.DBG.GRANT_STATUS_BUSY = true ∧ upState.cmdRuns pgDBG 0x48 = false := by decide
/-- A grant for an issued device in main SRAM, LAY_UP its only right. -/
def grantSram : Mem := [(0x20000000, 0x53), (0x20000001, 0x59), (0x20000002, 0x47), (0x20000003, 0x52), (0x20000004, 1), (0x20000018, 4),
  (0x2000001D, 0x40), (0x20000024, 9), (0x20000030, 9), (0x20000048, 1)]
def grantState : State := { upState.wr Reg.LCS.STATE lcISSUED with
  sram := grantSram, dbg := ⟨some 0, none, 0, []⟩,
  otp := { Otp.blank with icaendiHash := keysHash (Mem.bytes 0 grantSram 0x20000000 grantLen) 0x50 } }
theorem test_witness_Grants_accepted (h : bothSigsOk (grantState.sramBytes 0x20000000 grantLen) 0x50 0x854 = true) :
    grantState.grantFault (grantState.sramBytes 0x20000000 grantLen) = none := by
  have a : grantFormatOk (grantState.sramBytes 0x20000000 grantLen) = true := by decide
  have b : grantState.acceptsGrants = true := by decide
  have c : bit (fieldLe (grantState.sramBytes 0x20000000 grantLen) 0x18 1) 2 = true := by decide
  have d : fieldLe (grantState.sramBytes 0x20000000 grantLen) 0x48 1 = 1 := by decide
  have e : grantState.grantAuthority = 1 := by decide
  have f : keysHash (grantState.sramBytes 0x20000000 grantLen) 0x50 = grantState.otp.icaendiHash := rfl
  have g : digestOf 128 (slice (grantState.sramBytes 0x20000000 grantLen) 8 16) = grantState.otp.serial := by decide
  have i : grantState.dbg.challenge = some (digestOf 128 (slice (grantState.sramBytes 0x20000000 grantLen) 0x38 16)) := by decide
  have j : grantState.nvm.bootCount = 0 ∧ fieldLe (grantState.sramBytes 0x20000000 grantLen) 0x20 4 = 0 := by decide
  have k : grantState.time.mrt = 0 ∧ fieldLe (grantState.sramBytes 0x20000000 grantLen) 0x28 8 = 0 := by decide
  have l : grantRights (grantState.sramBytes 0x20000000 grantLen) = 0x4000 := by decide
  have m : grantState.lc = 2 := by decide
  unfold State.grantFault
  simp [a, b, c, d, e, f, g, h, i, j, k, l, m, lcINVALID]
/-- The same grant with KVT_META, an opening right. -/
def openGrantState : State :=
  let m : Mem := [(0x20000000, 0x53), (0x20000001, 0x59), (0x20000002, 0x47), (0x20000003, 0x52), (0x20000004, 1), (0x20000018, 4),
    (0x2000001D, 0x01), (0x20000024, 9), (0x20000030, 9), (0x20000048, 1)]
  { grantState with sram := m, otp := { Otp.blank with icaendiHash := keysHash (Mem.bytes 0 m 0x20000000 grantLen) 0x50 } }
theorem test_witness_Grants_opening (h : bothSigsOk (openGrantState.sramBytes 0x20000000 grantLen) 0x50 0x854 = true) :
    openGrantState.grantFault (openGrantState.sramBytes 0x20000000 grantLen) = none ∧ opensRoot (grantRights (openGrantState.sramBytes 0x20000000 grantLen)) = true
    ∧ openGrantState.rootWithheld = false ∧ openGrantState.active pgLEDG = false ∧ openGrantState.lc ≠ lcFIELD := by
  have a : grantFormatOk (openGrantState.sramBytes 0x20000000 grantLen) = true := by decide
  have b : openGrantState.acceptsGrants = true := by decide
  have c : bit (fieldLe (openGrantState.sramBytes 0x20000000 grantLen) 0x18 1) 2 = true := by decide
  have d : fieldLe (openGrantState.sramBytes 0x20000000 grantLen) 0x48 1 = 1 := by decide
  have e : openGrantState.grantAuthority = 1 := by decide
  have f : keysHash (openGrantState.sramBytes 0x20000000 grantLen) 0x50 = openGrantState.otp.icaendiHash := rfl
  have g : digestOf 128 (slice (openGrantState.sramBytes 0x20000000 grantLen) 8 16) = openGrantState.otp.serial := by decide
  have i : openGrantState.dbg.challenge = some (digestOf 128 (slice (openGrantState.sramBytes 0x20000000 grantLen) 0x38 16)) := by decide
  have j : openGrantState.nvm.bootCount = 0 ∧ fieldLe (openGrantState.sramBytes 0x20000000 grantLen) 0x20 4 = 0 := by decide
  have k : openGrantState.time.mrt = 0 ∧ fieldLe (openGrantState.sramBytes 0x20000000 grantLen) 0x28 8 = 0 := by decide
  have l : grantRights (openGrantState.sramBytes 0x20000000 grantLen) = 0x100 := by decide
  have m : openGrantState.lc = 2 := by decide
  refine ⟨?_, by decide, by decide, by decide, by decide⟩
  unfold State.grantFault
  simp [a, b, c, d, e, f, g, h, i, j, k, l, m, lcINVALID]
theorem test_witness_Grants_rights : opensRoot (grantRights (grantState.sramBytes 0x20000000 grantLen)) = false
    ∧ rightIn (grantRights (grantState.sramBytes 0x20000000 grantLen)) rightCLEAR_TAMPER = false
    ∧ rightIn (grantRights (grantState.sramBytes 0x20000000 grantLen)) rightLAY_UP = true := by decide

/-! O31 TestPort -/

theorem test_witness_TestPort : upState.tapUp = true ∧ State.reset.tapUp = false ∧ upState.right rightHOST_HOLD = false
    ∧ (upState.wr Reg.DBG.RIGHTS_ACTIVE (2 ^ rightHOST_HOLD)).right rightHOST_HOLD = true ∧ upState.debugRights = false
    ∧ (upState.wr Reg.DBG.RIGHTS_ACTIVE (2 ^ 4)).right (1 + (3 : Fin 4).val) = true
    ∧ (upState.wr Reg.DBG.RIGHTS_ACTIVE (2 ^ 8)).debugRights = true ∧ (upState.wr Reg.DBG.RIGHTS_ACTIVE (2 ^ 8)).right 8 = true
    ∧ (upState.wr Reg.DBG.RIGHTS_ACTIVE (2 ^ 8)).right (1 + (0 : Fin 4).val) = false ∧ (upState.core 3).halted = false
    ∧ ((upState.setCore 3 { CoreSt.reset with halted := true }).core 3).halted = true := by decide

/-! O32 PushMessages -/

theorem test_witness_PushMessages : upState.mgpUp = true ∧ upState.mgpOwns = false ∧ upState.boot.phase = BootPhase.off ∧ upState.romRuns = true
    ∧ upState.laneOn 0 = true ∧ upState.boot.push = none ∧ upState.brace = false ∧ (upState.wr Reg.PWR.STATUS_BRACE 1).brace = true
    ∧ ({ upState with boot := { BootSt.idle with phase := .fatal } } : State).boot.phase = BootPhase.fatal
    ∧ ({ upState with boot := { BootSt.idle with phase := .waitPush, sources := [5] } } : State).romCan 0 = true
    ∧ ({ upState with boot := { BootSt.idle with phase := .waitPush, sources := [5] } } : State).boot.sources = 5 :: []
    ∧ ({ upState with boot := { BootSt.idle with push := some ⟨0, [], [], []⟩ } } : State).boot.push.isSome = true := by decide

/-! O33 PushKeeps -/

/-- A manifest of one block to be loaded at 0x20000000, and one of no block with the digest of nothing as its image digest. -/
def oneBlock : List Byte := List.replicate 16 0 ++ [1, 0, 0, 0, 0, 0, 0, 0x20]
def noBlock : List Byte := List.replicate 0x58 0 ++ digestBytes (Config.sha384 [])
def pushState (p : Push) : State := { upState with boot := { BootSt.idle with push := some p } }
theorem test_witness_PushKeeps : upState.boot.push = none ∧ (pushState ⟨0, oneBlock, [], []⟩).boot.push = some ⟨0, oneBlock, [], []⟩
    ∧ mfBlocks oneBlock = 1 ∧ mfLoad oneBlock = 0x20000000 ∧ 0 + [(1 : Byte), 2].length < 48 * mfBlocks oneBlock
    ∧ (⟨0, oneBlock, List.replicate 48 0, []⟩ : Push).leaves.length = 48 * mfBlocks oneBlock
    ∧ (⟨0, oneBlock, [], []⟩ : Push).medium ≠ 1 := by decide
/-- A manifest with sequence 5, blocks of 4 KiB, SHA-384 leaves, one block to be loaded at 0x20000000 and core 0 to start there. -/
def sentManifest : List Byte := [0x41, 0x45, 0x4C, 0x53, 1, 0, 1, 0, 5, 0, 0, 0, 0, 12, 0, 0, 1, 0, 0, 0, 0, 0, 0, 0x20, 0, 0, 0, 0x20]
  ++ List.replicate 108 0 ++ [1] ++ List.replicate 47 0 ++ [0x11] ++ List.replicate 5528 0
theorem test_witness_PushKeeps_manifest : formatFault sentManifest = none ∧ sentManifest.length = manifestLen := by decide +kernel
theorem test_witness_PushKeeps_signed (h : mfKeysHash sentManifest = mfSigner sentManifest) (k : mfMldsaOk sentManifest = true) (e : mfEcdsaOk sentManifest = true) :
    (State.signerFault { upState.wr Reg.LCS.STATE lcFIELD with otp := { Otp.blank with fwHashA := mfSigner sentManifest } } sentManifest).2 = none := by
  have z : mfSigner sentManifest ≠ 0 := by decide +kernel
  have u : State.signerOk { upState.wr Reg.LCS.STATE lcFIELD with otp := { Otp.blank with fwHashA := mfSigner sentManifest } } sentManifest = true := by
    simp only [State.signerOk, h, Otp.blank, ne_eq, z, not_false_eq_true, decide_true, Bool.not_false, Bool.and_self, Bool.true_or]
  have b : ∀ b, (State.acceptSigs b true true).1 = true := by decide
  unfold State.signerFault
  rw [u, k, e]
  simp [b]
def waitingPush (m : Nat) (p : Push) : State := { upState with boot := { BootSt.idle with phase := .waitPush, sources := [m + 3], push := some p } }
theorem test_witness_PushKeeps_mailbox : (waitingPush 0 ⟨0, oneBlock, [], []⟩).mgpUp = true ∧ (waitingPush 0 ⟨0, oneBlock, [], []⟩).mgpOwns = false
    ∧ (waitingPush 0 ⟨0, oneBlock, [], []⟩).brace = false ∧ (waitingPush 1 ⟨1, oneBlock, [], []⟩).laneOn 0 = true
    ∧ (waitingPush 1 ⟨1, oneBlock, [], []⟩).listens 1 = true := by decide
theorem test_witness_PushKeeps_end : (⟨0, noBlock, [], []⟩ : Push).image.length = 4096 * mfBlocks noBlock
    ∧ Config.sha384 (⟨0, noBlock, [], []⟩ : Push).image = mfImageDigest noBlock := by
  have l : (List.replicate 0x58 (0 : Byte)).length = 0x58 := by simp
  have d : (digestBytes (Config.sha384 [])).length = 48 := by simp [digestBytes]
  constructor
  · have : mfBlocks noBlock = 0 := by
      unfold mfBlocks Sys2Proof.Machine.fieldLe slice noBlock
      rw [List.drop_append_of_le_length (by simp), List.take_append_of_le_length (by simp)]
      decide
    simp [this]
  · have : slice noBlock 0x058 48 = digestBytes (Config.sha384 []) := by
      unfold slice noBlock
      rw [List.drop_left' l, List.take_of_length_le (by rw [d])]
    simp only [mfImageDigest, this]
    exact (digestOf_digestBytes 384 _ (by decide)).symm

/-! O34 CoresAndBootOtp -/

def coreState (c st : Nat) : State := upState.wr (Reg.CORE.CORE_STATUS_STATE c) st
theorem test_witness_CoresAndBootOtp : (coreState 3 1).rd (Reg.CORE.CORE_STATUS_STATE (3 : Fin 4)) = 1 ∧ (coreState 3 5).ready pgCORE (0x50 + 4 * 3) = true
    ∧ (coreState 3 5).rd (Reg.CORE.CORE_STATUS_STATE (3 : Fin 4)) = 5 ∧ (coreState 3 2).rd (Reg.CORE.CORE_STATUS_STATE (3 : Fin 4)) = 2
    ∧ (coreState 3 4).rd (Reg.CORE.CORE_STATUS_STATE (3 : Fin 4)) = 4
    ∧ upState.ready pgBOOT 0xA4 = true ∧ upState.flag Reg.BOOT.ROM_LOCK = false ∧ upState.boot.phase ≠ BootPhase.handover
    ∧ upState.ready pgBOOT 0xAC = true ∧ (upState.wr Reg.LCS.STATE lcISSUED).lc = lcISSUED ∧ upState.otp.orderLock = false
    ∧ State.inSram 0x20000000 64 = true ∧ allZero (slice (upState.sramBytes 0x20000000 64) 4 12) = true ∧ fieldLe (upState.sramBytes 0x20000000 64) 0 2 < 2 ^ 15
    ∧ fieldLe (upState.sramBytes 0x20000000 64) 2 1 ≤ 1 ∧ upState.otp.bootOrder = 0 ∧ upState.otp.pushWindow = 0 ∧ upState.otp.fwHashA = 0 ∧ upState.inService = false
    ∧ (upState.wr Reg.LCS.STATE lcFIELD).inService = true ∧ upState.flag Reg.PWR.STATUS_BRACE = false
    ∧ upState.boot.otpBusy = none ∧ upState.lc ≠ lcISSUED := by decide
theorem test_witness_CoresAndBootOtp_go :
    ({ upState with boot := { BootSt.idle with phase := .handover, image := some (State.bootImage 1 0 []) } } : State).boot.phase = BootPhase.handover
    ∧ ({ upState with boot := { BootSt.idle with otpBusy := some .revokeA } } : State).boot.otpBusy = some .revokeA
    ∧ ({ upState with otp := { Otp.blank with fwHashB := 1 } } : State).otp.fwHashB ≠ 0 := by decide

/-! O35 VaultDefine -/

/-- A vault with a root and slot 1 defined as the chain slot of SVN 3; main SRAM holds a DEFINE of slot 7 and a CHAIN descriptor. -/
def vaultState : State :=
  ({ upState with
      vault := { VaultSt.empty with root := some ⟨1, 0⟩ },
      sram := [(0x20000000, 7), (0x20000002, 1), (0x20000004, 3), (0x20000006, 1), (0x20000010, 8), (0x20000012, 1), (0x20000015, 2)] }).setSlot 1
    { State.rootSlot atDERIVE [] with chain := true, svn := 3 }
theorem test_witness_VaultDefine : vaultState.ready pgKVT 0x44 = true ∧ State.inSram 0x20000000 (8 + vaultState.sramLe 0x20000006 2) = true
    ∧ vaultState.sramLe 0x20000006 2 = 1 ∧ vaultState.sramLe 0x20000000 2 = 7 ∧ vaultState.sramLe 0x20000002 2 = 1 ∧ vaultState.sramLe 0x20000004 1 = 3
    ∧ vaultState.sramLe 0x20000010 2 = 8 ∧ vaultState.sramLe 0x20000012 2 = 1 ∧ vaultState.sramLe 0x20000015 1 = 2
    ∧ (vaultState.sramLe 0x20000006 2 ≤ 256) ∧ vaultState.vault.root = some ⟨1, 0⟩ ∧ upState.vault.root = none := by decide
theorem test_witness_VaultDefine_parent : (vaultState.slot 1).keyAttr = atDERIVE ∧ (vaultState.slot 1).depth < 8 ∧ (vaultState.slot 1).chain = true
    ∧ 2 ≤ (vaultState.slot 1).svn ∧ (vaultState.slot 7).state = slFREE ∧ vaultState.captureFault 1 = (vaultState, none) := by
  have e : vaultState.slot 1 = { State.rootSlot atDERIVE [] with chain := true, svn := 3 } := Tbl.get_put_same _ _ _ _
  have p : vaultState.slot 0 = Slot.blank := Tbl.get_put_ne _ _ _ _ _ (by decide)
  have q : vaultState.slot 7 = Slot.blank := Tbl.get_put_ne _ _ _ _ _ (by decide)
  have k : vaultState.slotTagOk 1 = true := by simp [State.slotTagOk, e, State.rootSlot, Slot.blank]
  have u : vaultState.slotUsable 1 = true := by simp [State.slotUsable, e, p, State.rootSlot, Slot.blank, slDEFINED, slIN_USE]
  refine ⟨by simp [e, State.rootSlot], by simp [e, State.rootSlot], by simp [e], by simp [e], by simp [q, Slot.blank, slFREE], ?_⟩
  simp [State.captureFault, k, u]
  simp [e, State.rootSlot, slFREE, slDEFINED]

/-! O36 VaultWithdraw -/

theorem test_witness_VaultWithdraw : upState.ready pgKVT 0x44 = true ∧ State.inSram 0x20000000 2 = true ∧ upState.sramLe 0x20000000 2 = 0
    ∧ ({ upState with sram := [(0x20000000, 9)] } : State).sramLe 0x20000000 2 = 9
    ∧ ({ upState with sram := [(0x20000001, 2)] } : State).sramLe 0x20000000 2 = 512
    ∧ (upState.slot 9).state < slINVALID
    ∧ ({ upState with vault := { VaultSt.empty with slots := [(9, { Slot.blank with state := 3 })] } } : State).slot 9 = { Slot.blank with state := 3 }
    ∧ (({ upState with vault := { VaultSt.empty with slots := [(511, { Slot.blank with state := 1 })] } } : State).slot 511).state = slDEFINED
    ∧ State.inSram 0x20000000 12 = true
    ∧ ({ upState with sram := [(0x20000002, 1), (0x2000000B, 0x20)] } : State).sramLe 0x20000002 2 = 1
    ∧ State.inSram (({ upState with sram := [(0x20000002, 1), (0x2000000B, 0x20)] } : State).sramLe 0x20000008 4) 16 = true
    ∧ ((upState.setCmdSlot pgKVT 0x44 ⟨some .save, none⟩).cmdSlot pgKVT 0x44).running = some .save
    ∧ ((upState.setCmdSlot pgKVT 0x44 ⟨some .restore, none⟩).cmdSlot pgKVT 0x44).running = some .restore
    ∧ State.inSram 1 2 = false ∧ upState.rngServes = false ∧ (upState.wr Reg.RNG.STATUS_READY 1).rngServes = true ∧ upState.brace = false ∧ (upState.cmdSlot pgKVT 0x44).running = none
    ∧ upState.flag Reg.PWR.STATUS_BRACE = false ∧ (upState.wr Reg.PWR.STATUS_BRACE 1).flag Reg.PWR.STATUS_BRACE = true
    ∧ ({ upState with vault := { VaultSt.empty with root := some ⟨1, 0⟩ } } : State).vault.root ≠ none ∧ upState.nvm.persist = none := by decide
theorem test_witness_VaultWithdraw_alone : 9 ∉ upState.descendants 8 [9] := by decide

/-! O37 DigestOperation -/

/-- A hash descriptor at the start of main SRAM: SHA-384, first and last, 4 bytes from 0x20000100, result to DIGEST. -/
def dgeState : State := { upState with
  sram := [(0x20000000, 1), (0x20000002, 3), (0x20000011, 1), (0x20000013, 0x20), (0x20000014, 4)] }
def dgeRunning (d : DgeDesc) : State := dgeState.setDge 3 { DgeSt.idle with run := some d }
theorem test_witness_DigestOperation : dgeState.ready (pgDGE (3 : Fin 4)) 0x44 = true ∧ (dgeState.dgeOf 3).owner = none
    ∧ dgeState.dgeDescFault 3 0x20000000 = none ∧ (dgeState.dgeDescAt 0x20000000).hmac = false ∧ (dgeState.dgeDescAt 0x20000000).first = true
    ∧ (dgeState.dgeDescAt 0x20000000).dest ≠ 1 ∧ (dgeState.dgeDescAt 0x20000000).last = true ∧ (dgeState.dgeDescAt 0x20000000).dest = 0
    ∧ dgeState.brace = false ∧ ((dgeRunning (dgeState.dgeDescAt 0x20000000)).dgeOf 3).run = some (dgeState.dgeDescAt 0x20000000)
    ∧ ((dgeRunning (dgeState.dgeDescAt 0x20000000)).dgeOf 3).revoked = none ∧ (dgeState.dgeDescAt 0x20000000).compare = false
    ∧ ({ dgeState.dgeDescAt 0x20000000 with last := false }).last = false
    ∧ ({ dgeState.dgeDescAt 0x20000000 with dest := 2, compare := true }).dest = 2
    ∧ ((dgeState.setDge 3 { DgeSt.idle with run := some (dgeState.dgeDescAt 0x20000000), revoked := some kvREVOKED }).dgeOf 3).revoked = some kvREVOKED
    ∧ dgeState.up = true ∧ (dgeState.dgeOf 3).run = none ∧ (dgeState.dgeOf 3).leaves = none ∧ dgeState.flag (Reg.DGE.STATUS_OPEN 3) = false
    ∧ (dgeState.wr (Reg.DGE.STATUS_OPEN 3) 1).flag (Reg.DGE.STATUS_OPEN 3) = true := by decide

/-! O38 LeavesAndLaneH -/

/-- A LEAVES descriptor at the start of main SRAM: unit 5, SHA-256, a table of two leaves at 0x20000100. -/
def leavesState : State := { upState with sram := [(0x20000003, 0x15), (0x20000011, 1), (0x20000013, 0x20), (0x20000014, 64)] }
def boundState : State := (leavesState.setDge 0 { DgeSt.idle with leaves := some ⟨5, 0, 0x20000100, 2, []⟩ }).setSnp 5
  { SnpSt.idle with fifo := [⟨1, []⟩] }
theorem test_witness_LeavesAndLaneH : leavesState.ready (pgDGE (0 : Fin 4)) 0x44 = true ∧ (leavesState.dgeDescAt 0x20000000).source = 0x15
    ∧ (leavesState.dgeDescAt 0x20000000).alg = 0 ∧ (leavesState.dgeDescAt 0x20000000).len = 64 ∧ leavesState.flag (Reg.DGE.STATUS_OPEN 0) = false
    ∧ State.inSram 0x20000000 80 = true ∧ State.inSram (leavesState.dgeDescAt 0x20000000).src 64 = true
    ∧ (leavesState.dgeOf 0).owner = none ∧ (leavesState.dgeOf 0).leaves = none ∧ leavesState.dge = []
    ∧ (boundState.dgeOf 0).leaves = some ⟨5, 0, 0x20000100, 2, []⟩ ∧ (boundState.snpOf 5).fifo = ⟨1, []⟩ :: []
    ∧ upState.ready pgSNP (0x4C + 0x40 * 5) = true ∧ State.inSram 0x20000000 1 = true ∧ upState.armed 5 = false
    ∧ (upState.wr (Reg.SNP.STAGE_STATUS_ARMED 5) 1).armed 5 = true := by decide

/-! O39 CipherOperation -/

/-- A RUN descriptor at the start of main SRAM: CTR, FIRST and not LAST, 16 bytes from 0x20000100 to 0x20000200. -/
def aesState : State := { upState with
  sram := [(0x20000000, 2), (0x20000001, 1), (0x20000005, 1), (0x20000007, 0x20), (0x20000009, 2), (0x2000000B, 0x20), (0x2000000C, 16)],
  aes := [(0, { AesSt.idle with dkr := ⟨true, List.replicate 32 7, atENC, 2, none, 0⟩ })] }
/-- Engine `e` runs `r`, with the random source in service. -/
def aesRuns (e : Nat) (r : AesRun) : State :=
  (({ aesState with aes := [(e, { AesSt.idle with mode := 2, run := some r })] } : State).wr (Reg.AES.STATUS_BUSY e) 1).wr Reg.RNG.STATUS_READY 1
/-- The descriptor of `aesState`, as it is and as a last part. -/
def aesPart (fl : Byte) : List Byte := [2, fl, 0, 0, 0, 1, 0, 0x20, 0, 2, 0, 0x20, 16]
/-- A WRAP descriptor: slot 5, destination DKR 1, a key of 32 bytes of the DRBG, blob at 0x20000100. -/
def wrapMem : Mem := [(0x20000000, 5), (0x20000002, 1), (0x20000003, 1), (0x20000005, 32), (0x20000009, 1), (0x2000000B, 0x20)]
def wrapState : State := servingSlot atWRAP wrapMem
def savedAes : AesCtx := ⟨none, none, 2, false, [], [], [], [], [], none, none⟩
theorem test_witness_CipherOperation : aesState.ready pgAES (State.aesCmdOff 0) = true ∧ aesState.aesRunFault 0 0x20000000 = none
    ∧ (aesState.aesOf 0).saved = none ∧ bit (aesState.sramLe 0x20000001 1) 0 = true ∧ upState.aesRunFault 0 0x20000000 = some Reason.FIELD_RANGE
    ∧ ((aesState.wr (Reg.AES.STATUS_BUSY 0) 1).aesRunFault 0 0x20000000 = some aeSEQUENCE)
    ∧ (({ aesState.wr (Reg.AES.STATUS_BUSY 0) 1 with sram := aesState.sram.map (fun x => if x.1 = 0x20000001 then (x.1, 0) else x) } : State).aesRunFault 0 0x20000000 = none)
    ∧ ((aesState.setAes 0 { AesSt.idle with saved := some savedAes }).aesOf 0).saved = some savedAes
    ∧ (aesRuns 0 (.part (aesPart 1))).stx.sealRun = none ∧ (aesRuns 0 (.part (aesPart 1))).stx.sealWait = none
    ∧ ((aesRuns 0 (.part (aesPart 1))).aesOf 0).run = some (.part (aesPart 1)) ∧ (aesRuns 0 (.part (aesPart 1))).brace = false
    ∧ bit (fieldLe (aesPart 1) 1 1) 1 = false ∧ bit (fieldLe (aesPart 3) 1 1) 1 = true ∧ fieldLe (aesPart 1) 8 4 = 0x20000200
    ∧ ((aesRuns 1 (.wrap [])).aesOf 1).run = some (.wrap []) ∧ ((aesRuns 1 (.wrap [])).aesOf 1).revoked = none
    ∧ (aesRuns 1 (.wrap [])).rngFailed = false ∧ (aesRuns 1 (.wrap [])).rngServes = true
    ∧ ((aesRuns 1 (.unwrap [])).aesOf 1).run = some (.unwrap []) ∧ ((aesRuns 1 (.unwrap [])).aesOf 1).zeroDkr = false
    ∧ (aesRuns 1 (.unwrap [])).aesBusy 0 = false ∧ (aesRuns 1 (.unwrap [])).aesBusy 1 = true ∧ (aesRuns 1 (.unwrap [])).up = true
    ∧ (aesRuns 1 (.unwrap [])).saLoadFault 0 atENC = none ∧ (aesRuns 0 (.part (aesPart 1))).aesYields 0 = true
    ∧ (({ aesRuns 0 (.part []) with stx := { StxSt.idle with sealRun := some (0, 0) } } : State).stx.sealRun = some ((0 : Fin 2).val, 0)) := by decide
theorem test_witness_CipherOperation_wrap : wrapState.kekFault (wrapState.sramLe 0x20000000 2) = (wrapState, none) := by
  have h : wrapState.sramLe 0x20000000 2 = 5 := by decide
  have g : wrapState.slot 5 = State.rootSlot atWRAP [] := servingSlot_slot _ _
  rw [h]
  have c : wrapState.captureFault 5 = (wrapState, none) := servingSlot_captureFault _ _
  simp [State.kekFault, c, g, State.rootSlot]
theorem test_witness_CipherOperation_wrapRest : wrapState.ready pgAES (State.aesCmdOff 0) = true ∧ wrapState.aesBusy 0 = false
    ∧ (wrapState.aesOf 0).saved = none ∧ State.inSram 0x20000000 16 = true ∧ wrapState.sramLe 0x20000002 1 = 1 ∧ wrapState.sramLe 0x20000004 1 = 0
    ∧ wrapState.sramLe 0x20000005 1 = 32 ∧ wrapState.sramLe 0x20000006 1 = 0 ∧ wrapState.sramLe 0x20000007 1 = 0 ∧ wrapState.sramLe 0x2000000C 4 = 0
    ∧ State.inSram (wrapState.sramLe 0x20000008 4) 56 = true ∧ wrapState.rngFailed = false
    ∧ wrapState.captureWaits 5 = false ∧ wrapState.brace = false ∧ (wrapState.wr Reg.PWR.STATUS_BRACE 1).brace = true
    ∧ State.unwrapTargetOk 1 (wrapState.sramLe 0x20000003 1) 32 = true := by decide
/-- Where the integrity value of a blob does not check, or checks and its plaintext is that of a blob (both are opaque), UNWRAP's premises hold. -/
theorem test_witness_CipherOperation_unwrap (h : Config.kwOk [] (List.replicate 24 0) = false) :
    Config.kwOk ((aesRuns 1 (.unwrap [])).aesOf 1).key ((aesRuns 1 (.unwrap [])).sramBytes (fieldLe [] 8 4) (fieldLe [] 5 1 + 24)) = false := h
theorem test_witness_CipherOperation_blob : State.blobOk (blobPlain 2 1 (List.replicate 32 7)) 1 32 = true ∧ State.blobOk (blobPlain 2 2 (List.replicate 32 7)) 2 32 = true
    ∧ State.blobOk (blobPlain 3 3 (List.replicate 48 7)) 3 48 = true := by decide

/-! O40 DataKeyRegisters -/

theorem test_witness_DataKeyRegisters : upState.ready pgAES (State.dkrCmdOff 1) = true ∧ upState.aesBusy 1 = false
    ∧ (upState.wr (Reg.AES.STATUS_BUSY 0) 1).aesBusy 0 = true ∧ (upState.wr (Reg.AES.STATUS_BUSY 0) 1).ready pgAES (State.dkrCmdOff 0) = true
    ∧ (servingSlot atDEC []).ready pgAES (State.dkrCmdOff 0) = true ∧ (servingSlot atDEC []).aesBusy 0 = false ∧ (servingSlot atDEC []).captureWaits 5 = false
    ∧ (slotState atDEC []).maskStalled = true ∧ (slotState atDEC []).ready pgAES (State.dkrCmdOff 0) = true ∧ (slotState atDEC []).aesBusy 0 = false
    ∧ ((slotState atDEC []).wr Reg.PWR.STATUS_BRACE 1).brace = true ∧ ((slotState atDEC []).wr Reg.PWR.STATUS_BRACE 1).vault.cache = [] := by decide
theorem test_witness_DataKeyRegisters_slot : (slotState atDEC []).captureFault 5 = (slotState atDEC [], none) ∧ ((slotState atDEC []).slot 5).keyAttr = atDEC
    ∧ (servingSlot atDEC []).captureFault 5 = (servingSlot atDEC [], none) ∧ ((servingSlot atDEC []).slot 5).keyAttr = atDEC := by
  refine ⟨slotState_captureFault _ _, ?_, servingSlot_captureFault _ _, ?_⟩ <;> simp [servingSlot_slot, slotState_slot, State.rootSlot]

/-! O41 PublicKeyOperation -/

/-- A VERIFY descriptor of P-256 with its inputs at 0x20000100, 0x20000200 and 0x20000300, and a P-256 key in register 0. -/
def pkeState : State := { upState with
  sram := [(0x20000000, 1), (0x20000009, 1), (0x2000000B, 0x20), (0x2000000D, 2), (0x2000000F, 0x20), (0x20000011, 3), (0x20000013, 0x20)],
  pke := { upState.pke with regs := [(0, ⟨1, [1], false, none, 0, none⟩)] } }
/-- The same for GENKEY from the DRBG. -/
def genState : State := { pkeState with sram := [(0x20000000, 1), (0x20000002, 1), (0x20000009, 1), (0x2000000B, 0x20)] }
/-- ECDH with a P-384 key in register 0, to a session. -/
def ecdhState : State := { upState with
  sram := [(0x20000000, 2), (0x20000009, 1), (0x2000000B, 0x20)],
  pke := { upState.pke with regs := [(0, ⟨2, [1], true, none, 0, none⟩)] } }
def pkeRunning (op : Nat) (d : List Byte) : State := { pkeState with pke := { pkeState.pke with run := some (op, d) } }
theorem test_witness_PublicKeyOperation : pkeState.ready pgPKE 0x44 = true ∧ (pkeState.sched 2).running = none
    ∧ pkeState.pkeFault 1 0x20000000 = none ∧ pkeState.pkeFault 2 0x20000000 = none ∧ genState.pkeFault 3 0x20000000 = none
    ∧ fieldLe (genState.sramBytes 0x20000000 32) 2 1 = 1 ∧ ecdhState.pkeFault 4 0x20000000 = none ∧ pkeState.pkeFault 5 0x20000000 = none
    ∧ upState.pkeFault 2 0x20000000 = some Reason.FIELD_RANGE
    ∧ (pkeRunning 1 []).pke.run = some (1, []) ∧ (pkeRunning 1 []).pke.revoked = none
    ∧ fieldLe [1] 0 1 = 1 ∧ (pkeRunning 2 [1]).rngFailed = false ∧ ((pkeRunning 2 [1]).wr Reg.RNG.STATUS_READY 1).rngServes = true
    ∧ fieldLe [4, 7, 0] 2 1 = 0 ∧ (pkeRunning 4 [2, 0, 1]).slotFree 9 = true ∧ fieldLe [2, 0, 1, 0, 9] 4 2 = 9 ∧ (pkeRunning 4 []).pke.keySlot ≠ some 9
    ∧ (pkeRunning 3 [4, 7, 1]).pke.run = some (3, [4, 7, 1]) ∧ fieldLe [4, 7, 1] 2 1 = 1 ∧ fieldLe [4, 7, 1] 1 1 = 7 ∧ fieldLe [4, 7, 1] 0 1 = 4
    ∧ (pkeRunning 4 []).pke.run = some (4, []) ∧ fieldLe [] 2 1 = 0 ∧ (pkeRunning 5 []).pke.run = some (5, []) ∧ (pkeRunning 5 []).brace = false ∧ (upState.wr Reg.PWR.STATUS_BRACE 1).brace = true := by decide
/-- ECDH with a P-384 key from slot 5 in register 0, to the vault slot whose high byte is `h`. -/
def ecdhVault (h : Byte) : State := { upState with
  sram := [(0x20000000, 2), (0x20000002, 1), (0x20000004, 7), (0x20000005, h), (0x20000009, 1), (0x2000000B, 0x20)]
  pke := { upState.pke with regs := [(0, ⟨2, [1], false, some 5, 0, none⟩)] } }
theorem test_witness_PublicKeyOperation_vault : (ecdhVault 2).ready pgPKE 0x44 = true ∧ ((ecdhVault 2).sched 2).running = none
    ∧ (ecdhVault 2).pkeFault 4 0x20000000 = none ∧ (ecdhVault 1).pkeFault 4 0x20000000 = none ∧ fieldLe ((ecdhVault 2).sramBytes 0x20000000 32) 2 1 = 1
    ∧ (ecdhVault 2).ecdhFault (fieldLe ((ecdhVault 2).sramBytes 0x20000000 32) 4 2) 5 = some (false, Reason.FIELD_RANGE)
    ∧ (ecdhVault 1).ecdhFault (fieldLe ((ecdhVault 1).sramBytes 0x20000000 32) 4 2) 5 = none := by decide
theorem test_witness_PublicKeyOperation_revoked : ({ pkeRunning 2 [] with pke := { (pkeRunning 2 []).pke with revoked := some kvREVOKED } } : State).pke.run = some (2, [])
    ∧ ({ pkeRunning 2 [] with pke := { (pkeRunning 2 []).pke with revoked := some kvREVOKED } } : State).pke.revoked = some kvREVOKED := by decide
/-- GENKEY from slot 5. -/
theorem test_witness_PublicKeyOperation_slot : (servingSlot atDERIVE [(0x20000000, 1), (0x20000004, 5), (0x20000009, 1), (0x2000000B, 0x20)]).pkeFault 3 0x20000000 = none
    ∧ fieldLe ((servingSlot atDERIVE [(0x20000000, 1), (0x20000004, 5), (0x20000009, 1), (0x2000000B, 0x20)]).sramBytes 0x20000000 32) 2 1 = 0
    ∧ fieldLe ((servingSlot atDERIVE [(0x20000000, 1), (0x20000004, 5), (0x20000009, 1), (0x2000000B, 0x20)]).sramBytes 0x20000000 32) 4 2 = 5
    ∧ (servingSlot atDERIVE []).captureWaits 5 = false ∧ (servingSlot atDERIVE []).captureFault 5 = (servingSlot atDERIVE [], none) := by
  refine ⟨by decide, by decide, by decide, by decide, servingSlot_captureFault _ _⟩

/-! O42 EntropySource -/

/-- GEN of 4,096 bytes to 0x20000100. -/
def rngState : State := { upState with sram := [(0x20000001, 1), (0x20000003, 0x20), (0x20000005, 0x10)] }
theorem test_witness_EntropySource : rngState.ready pgRNG 0x44 = true ∧ State.inSram 0x20000000 8 = true ∧ rngState.sramLe 0x20000004 4 = 4096
    ∧ State.inSram (rngState.sramLe 0x20000000 4) 4096 = true ∧ rngState.rngFailed = false ∧ rngState.rngServes = false
    ∧ (rngState.wr Reg.RNG.STATUS_READY 1).rngServes = true ∧ (rngState.wr Reg.RNG.STATUS_READY 1).rng.requests = 0
    ∧ ({ rngState with rng := ⟨0, 65536⟩ } : State).rng.requests = 65536
    ∧ (rngState.wr Reg.RNG.STATUS_STATE 2).rngFailed = true ∧ (rngState.wr Reg.RNG.STATUS_STATE 2).ready pgRNG 0x44 = true
    ∧ upState.sramLe 0x20000004 4 = 0 ∧ State.inSram 0 8 = false ∧ upState.power.mainOn = true ∧ upState.rng.fails = 0
    ∧ ({ upState with rng := ⟨2, 0⟩ } : State).rng.fails + 1 = 3 ∧ ({ upState with power := { upState.power with mainOn := false } } : State).power.mainOn = false
    ∧ upState.up = true ∧ upState.rd Reg.RNG.STATUS_STATE = 0 ∧ (upState.wr Reg.RNG.STATUS_STATE 1).rd Reg.RNG.STATUS_STATE = 1 := by decide

/-! O43 HostFlashTransaction -/

/-- Host 0 is RUNNING behind a port with opcode 0x03 a READ, 0x02 a PROGRAM, one region of 64 KiB with every class. -/
def portBase : State := ((((((((upState.wr (Reg.HSV.HOST_STATE_STATE 0) 4).setCfg (Reg.POL.OPCODE_CLASS 0 3) opREAD).setCfg (Reg.POL.OPCODE_ADDR 0 3) 1).setCfg
  (Reg.POL.OPCODE_CLASS 0 2) opPROGRAM).setCfg (Reg.POL.OPCODE_ADDR 0 2) 1).setCfg (Reg.HFP.CS_SIZE 0 0) 16).setCfg (Reg.POL.REGION_SIZE 0 0) 16).setCfg
  (Reg.POL.REGION_ATTR_CLASSES 0 0) 7)
/-- The same port after its first swap: the CRCs of both pages are retained. -/
def portState : State := ((portBase.wr (Reg.HFP.RETAINED_CRC 0) (portBase.activeCrc (pgHFP 0))).wr (Reg.POL.RETAINED_CRC 0) (portBase.activeCrc (pgPOL 0))).setPort 0
  { Port.idle with swapped := [(pgHFP 0, true), (pgPOL 0, true)] }
def readTxn : HostTxn := ⟨0, false, false, 3, 0x100, 16, [], []⟩
def programTxn : HostTxn := ⟨0, false, false, 2, 0x100, 0, [1, 2], []⟩
theorem rd_setPort (s : State) (n : Nat) (p : Port) (f : Fld) : (s.setPort n p).rd f = s.rd f := rfl
theorem activeCrc_setPort (s : State) (n : Nat) (p : Port) (q : Nat) : (s.setPort n p).activeCrc q = s.activeCrc q := rfl
theorem portState_retained : portState.rd (Reg.HFP.RETAINED_CRC 0) = portBase.activeCrc (pgHFP 0)
    ∧ portState.rd (Reg.POL.RETAINED_CRC 0) = portBase.activeCrc (pgPOL 0) := by
  have a := State.activeCrc_lt portBase (pgHFP 0)
  have b := State.activeCrc_lt portBase (pgPOL 0)
  constructor
  · unfold portState
    rw [rd_setPort, State.rd_wr_ne' _ _ _ _ (by decide), State.rd_wr_same]
    exact Nat.mod_eq_of_lt a
  · unfold portState
    rw [rd_setPort, State.rd_wr_same]
    exact Nat.mod_eq_of_lt b
theorem test_witness_HostFlashTransaction_swapped : portState.integrityOk 0 = true ∧ portState.portDenies 0 = false := by
  have r := portState_retained
  have h : portState.activeCrc (pgHFP 0) = portBase.activeCrc (pgHFP 0) ∧ portState.activeCrc (pgPOL 0) = portBase.activeCrc (pgPOL 0) := by
    unfold portState
    constructor <;> simp only [activeCrc_setPort, State.activeCrc_wr]
  have f : portState.flag (Reg.HFP.PORT_STATUS_INTEGRITY_FAIL 0) = false := by
    unfold State.flag portState
    rw [rd_setPort, State.rd_wr_ne' _ _ _ _ (by decide), State.rd_wr_ne' _ _ _ _ (by decide)]
    decide
  have p : portState.parked 0 = false := by
    have q : portState.rd (Reg.HSV.HOST_STATE_STATE 0) = 4 := by
      unfold portState
      rw [rd_setPort, State.rd_wr_ne' _ _ _ _ (by decide), State.rd_wr_ne' _ _ _ _ (by decide)]
      decide
    simp only [State.parked, State.released, State.hostSt, q]
    rfl
  have w : portState.hasSwapped (pgHFP 0) = true ∧ portState.hasSwapped (pgPOL 0) = true := ⟨rfl, rfl⟩
  constructor
  · simp only [State.integrityOk, List.all_cons, List.all_nil, Bool.and_true, Bool.and_eq_true, Bool.or_eq_true, decide_eq_true_eq]
    exact ⟨Or.inr (h.1.trans r.1.symm), Or.inr (h.2.trans r.2.symm)⟩
  · unfold State.portDenies
    rw [p, f, w.1, w.2]
    rfl
theorem test_witness_HostFlashTransaction : State.reset.up = false ∧ upState.up = true ∧ upState.csLow 0 = false ∧ Tbl.get true upState.power.ioHost 0 = true
    ∧ upState.portDenies 0 = true ∧ (upState.port 0).emu = none
    ∧ portBase.decideTxn 0 readTxn = .pass ∧ portBase.opClass 0 readTxn.opcode.toNat = opREAD ∧ portBase.opAddressed 0 readTxn.opcode.toNat = true
    ∧ portBase.firstTouch 0 (portBase.policyAddr 0 readTxn.cs (portBase.hostAddr 0 readTxn)) = false
    ∧ portBase.readStops 0 readTxn.cs (portBase.hostAddr 0 readTxn) readTxn.len = none ∧ portBase.readCuts 0 readTxn.cs (portBase.hostAddr 0 readTxn) readTxn.len = none
    ∧ portBase.portOwns 0 = true ∧ portBase.leaseBroken 0 = false
    ∧ portBase.decideTxn 0 programTxn = .pass ∧ portBase.mixedTxn 0 programTxn = false ∧ portBase.armed 0 = false
    ∧ portBase.decideTxn 0 { programTxn with opcode := 9 } = .absorb ∧ portBase.decideTxn 0 { readTxn with addr := 0x10000 } = .fill
    ∧ (portBase.port 0).wbuf = [] ∧ (portBase.wr (Reg.HFP.PORT_STATUS_OWNS_PINS 0) 0).portOwns 0 = false
    ∧ (portBase.setCfg (Reg.HFP.PROFILE_STALL 0) 1).cfg (Reg.HFP.PROFILE_STALL 0) = 1 := by decide +kernel
theorem test_witness_HostFlashTransaction_state : portState.decideTxn 0 readTxn = .pass ∧ portState.decideTxn 0 programTxn = .pass
    ∧ portState.up = true ∧ portState.csLow 0 = false ∧ Tbl.get true portState.power.ioHost 0 = true ∧ (portState.port 0).emu = none
    ∧ portState.firstTouch 0 (portState.policyAddr 0 readTxn.cs (portState.hostAddr 0 readTxn)) = false
    ∧ portState.readStops 0 readTxn.cs (portState.hostAddr 0 readTxn) readTxn.len = none
    ∧ portState.mixedTxn 0 programTxn = false := by decide +kernel
def openState : State := upState.openTxn 0 ⟨readTxn, .fill, .policy, [], false, 0, false, false, none, none, false⟩
theorem test_witness_HostFlashTransaction_rise : (openState.port 0).live = some ⟨readTxn, .fill, .policy, [], false, 0, false, false, none, none, false⟩
    ∧ openState.waits = [] ∧ openState.flag (Hdr.PENDING (pgHFP 0)) = false ∧ openState.flag (Hdr.PENDING (pgPOL 0)) = false := by decide

/-! O44 PortEvents -/

/-- Port 2 LEASED, with a lease of 10 units running. -/
def leaseState : State := (upState.setCfg (Reg.FCH.SHARING_MODE 2) 1).setChan 2 { Chan.idle with lease := 10 }
/-- The word TXN_COUNT of port 0. -/
def crossAcc : CoreAccess := ⟨0, false, regBase + 0x8000 + (Reg.HFP.TXN_COUNT 0).off, 4⟩
theorem test_witness_PortEvents : (waitState.port 0).live = some waitLive ∧ waitLive.serve = .waitPins ∧ waitLive.out = []
    ∧ waitLive.touch = none ∧ (waitState.port 0).wbuf = [] ∧ 1 ≤ (waitState.setCfg (Reg.HFP.DS_HOLD 0) 1).cfg (Reg.HFP.DS_HOLD 0) ∧ waitState.cfg (Reg.HFP.DS_HOLD 0) < 5000
    ∧ (waitState.sched (State.chanRes 0)).running = none ∧ ((waitState.openTxn 5 waitLive).csLow 5 = true) ∧ waitState.csLow 5 = false ∧ (waitState.port 5).wbuf = ⟨0, false, false, 3, 0, 8, [], []⟩ :: []
    ∧ (waitState.sched (State.chanRes 5)).running = none ∧ (waitState.port 5).emu = some ⟨true, true, 1⟩
    ∧ (upState.setCfg (Reg.POL.OPCODE_CLASS 5 3) opPROGRAM).opClass 5 3 = opPROGRAM ∧ (upState.setCfg (Reg.POL.OPCODE_CLASS 5 3) opREGISTER).opClass 5 3 = opREGISTER
    ∧ leaseState.mgpUp = true ∧ leaseState.mgpOwns = false ∧ leaseState.boot.phase ≠ BootPhase.scrap ∧ leaseState.boot.phase ≠ BootPhase.fatal
    ∧ leaseState.beforeAttach = false ∧ leaseState.sharing 2 = 1 ∧ leaseState.sharing 5 ≠ 1 ∧ (leaseState.chan 2).lease = 10 ∧ (leaseState.chan 1).lease = 0
    ∧ (leaseState.wr (Reg.HSV.HOST_STATE_STATE 2) 4).released 2 = true ∧ (leaseState.port 2).live = none
    ∧ crossAcc.user = false ∧ upState.crossDom (pageOf crossAcc.addr) (offOf crossAcc.addr) = some 0 ∧ upState.csLow 0 = false ∧ waitState.csLow 0 = true := by decide
theorem test_witness_PortEvents_pmp (k : Bool) : (upState.core crossAcc.core.val).pmpOk crossAcc.user crossAcc.addr 4 k = true := by cases k <;> decide

/-! O45 Staging -/

/-- Port 0 of a RUNNING host with steering on and a staging region. -/
def stagePort : State := (((((upState.wr (Reg.HSV.HOST_STATE_STATE 0) 4).setCfg (Reg.POL.STEER_EN 0) 1).setCfg (Reg.POL.REGION_SIZE 0 0) 16).setCfg
  (Reg.POL.REGION_ATTR_STAGING 0 0) 1).setCfg (Reg.SNP.MODE_STAGE_BLOCK 0) 0).setCfg (Reg.SNP.MODE_STAGE_ALG 0) 0
/-- OPEN, with the copy of a manifest of no block at 0x20000100 and a descriptor of it at 0x20000000; its digest field is zero. -/
def stageOpened : State := { stagePort.setStageSt 0 1 with
  sram := [(0x20000001, 1), (0x20000003, 0x20), (0x20000005, 2), (0x20000007, 0x20), (0x20000100, 0x41), (0x20000101, 0x45), (0x20000102, 0x4C),
    (0x20000103, 0x53), (0x20000104, 1), (0x20000106, 2), (0x20000108, 9), (0x2000010D, 10)] }
def stageSwept : State := ((stageOpened.setStageSt 0 4).wr (Reg.SNP.STAGE_MATCH 0) matchOK).wr (Reg.SNP.STAGE_MATCH_N 0) matchNOK
def stageJudged (good : Bool) : State := ((stageOpened.setStageSt 0 3).wr (Reg.SNP.STAGE_STATUS_ARMED 0) 1).setStage 0 { Stage.none with verdict := some good }
theorem test_witness_Staging : stagePort.ready (pgPOL 0) stageOff = true ∧ stagePort.mode.phase ≠ Phase.seal ∧ stagePort.cfgb (Reg.POL.STEER_EN 0) = true
    ∧ stagePort.released 0 = true ∧ stagePort.stageSt 0 = 0 ∧ stagePort.armed 0 = false ∧ stagePort.brace = false
    ∧ (stagePort.wr Reg.PWR.STATUS_BRACE 1).brace = true ∧ (stagePort.setStageSt 0 3).stageSt 0 = 3
    ∧ upState.armFault 0 0x20000000 = some poSTAGE_STATE ∧ (stagePort.setStageSt 0 2).stageSt 0 = 2
    ∧ ((stageJudged true).stage 0).verdict = some true ∧ (stageJudged true).stageSt 0 = 3 ∧ (stageJudged true).rd (Reg.SNP.STAGE_FAIL 0) = 0 ∧ (stageJudged true).armed 0 = true
    ∧ ((stageJudged true).wr (Reg.SNP.STAGE_STATUS_ARMED 0) 0).armed 0 = false ∧ stageOpened.dgeFree = true ∧ stageSwept.dgeFree = true
    ∧ State.pairKnown 1 1 = false ∧ State.pairGood matchNOK matchOK = false ∧ State.pairKnown matchNOK matchOK = true
    ∧ ((stageJudged false).stage 0).verdict = some false ∧ (stagePort.stage 0).verdict = none
    ∧ stageSwept.ready (pgPOL 0) stageOff = true ∧ stageSwept.stageSt 0 = 4 ∧ stageSwept.rd (Reg.SNP.STAGE_MATCH 0) = matchOK
    ∧ stageSwept.rd (Reg.SNP.STAGE_MATCH_N 0) = matchNOK ∧ upState.stageSt 0 ≠ 4 ∧ upState.up = true
    ∧ stageOpened.armEarly 0 0x20000000 = none ∧ stageOpened.ready (pgPOL 0) stageOff = true ∧ (stageOpened.wr Reg.PWR.STATUS_BRACE 1).armEarly 0 0x20000000 = none
    ∧ (stageOpened.wr Reg.PWR.STATUS_BRACE 1).dgeFree = false ∧ (stageOpened.wr Reg.PWR.STATUS_BRACE 1).ready (pgPOL 0) stageOff = true := by decide +kernel
theorem test_witness_Staging_manifest : stageSwept.stageRangeOk 0x20000000 = true ∧ stageSwept.commitSeqOk 0 (mfSequence (stageSwept.sdManifest 0x20000000)) = true
    ∧ stageOpened.stageSt 0 = 1 ∧ mfBlocks (stageOpened.sdManifest 0x20000000) = 0 := by decide +kernel
/-- Where the digest of an empty leaf table is the zero value in the manifest (the hash is opaque), ARM's and COMMIT's checks pass. -/
theorem test_witness_Staging_leaf (h : Config.sha384 [] = mfLeafDigest (stageOpened.sdManifest 0x20000000)) :
    stageOpened.armFault 0 0x20000000 = none ∧ stageOpened.stageLeafOk 0x20000000 = true := by
  have b : mfBlocks (stageOpened.sdManifest 0x20000000) = 0 := by decide +kernel
  have l : stageOpened.stageLeafOk 0x20000000 = true := by
    unfold State.stageLeafOk
    simp only [b, Nat.zero_mul, decide_eq_true_eq]
    exact h
  refine ⟨?_, l⟩
  have c1 : stageOpened.stageSt 0 = 1 := by decide +kernel
  have c2 : stageOpened.stageRangeOk 0x20000000 = true := by decide +kernel
  have c3 : slice (stageOpened.sdManifest 0x20000000) 0 4 = [0x41, 0x45, 0x4C, 0x53] ∧ fieldLe (stageOpened.sdManifest 0x20000000) 4 2 = 1
      ∧ fieldLe (stageOpened.sdManifest 0x20000000) 6 2 = 2 := by decide +kernel
  have c4 : mfBlockLog2 (stageOpened.sdManifest 0x20000000) = 10 ∧ stageOpened.cfgb (Reg.SNP.MODE_STAGE_BLOCK 0) = false
      ∧ stageOpened.cfg (Reg.SNP.MODE_STAGE_ALG 0) = b2n (mfLeafSha384 (stageOpened.sdManifest 0x20000000)) := by decide +kernel
  have c5 : stageOpened.windowStaged 0 = true := by decide +kernel
  unfold State.armFault State.armEarly
  simp [c1, c2, c3, c4, c5, b, l]

/-! O46 HostCommands -/

/-- Host 0 HELD on a steered port with the HSV page in force and its channel initialised; `r` is its slot records. -/
def heldState (st : Nat) (r : List SlotRec) : State :=
  { ((((upState.wr (Hdr.ACTIVE pgHSV) 1).wr (Reg.FCH.STATUS_INIT_DONE 0) 1).setCfg (Reg.POL.STEER_EN 0) 1).wr (Reg.HSV.HOST_STATE_STATE 0) st) with
    nvm := { upState.nvm with slotRecs := r } }
def slotRecB : SlotRec := ⟨0, 1, 1, 7, 0, true, BitVec.allOnes 64⟩
/-- Host 0 ESCORTED with window 0 of 4 KiB, its table at offset 0x800 of the slot. -/
def escortBase : State := (((heldState hsESCORTED [slotRecB]).wr (Hdr.ACTIVE pgESC) 1).setCfg (Reg.ESC.WIN_SIZE 0) 1).setCfg (Reg.POL.STEER_SLOT_LOG2 0) 16
def escortState : State := escortBase.setHost 0
  { HostSt.idle with digests := [(0x800, 128, Config.sha384 (escortBase.slotBytes 0 (escortBase.activeSlot 0) 0x800 128))] }
theorem test_witness_HostCommands : (heldState hsHELD [slotRecB]).ready pgHSV hostCmdOff = true ∧ (heldState hsHELD [slotRecB]).mode.phase ≠ Phase.seal
    ∧ (heldState hsHELD [slotRecB]).hostCmdBlocked 0 = false ∧ (heldState hsHELD [slotRecB]).hostSt 0 = hsHELD
    ∧ (heldState hsHELD [slotRecB]).cfgb (Reg.POL.STEER_EN 0) = true ∧ (heldState hsHELD [slotRecB]).hosts = []
    ∧ (heldState hsHELD [slotRecB]).chooseSlot 0 = some 1 ∧ (heldState hsHELD []).chooseSlot 0 = none
    ∧ upState.cfgb (Reg.HSV.SUPERVISE_RESTORE_EN 0) = false ∧ upState.cfgb (Reg.HSV.SUPERVISE_NET_EN 0) = false
    ∧ (heldState hsESCORTED []).hostSt 0 = hsESCORTED ∧ (heldState hsMENDING []).hostSt 0 = hsMENDING ∧ (heldState hsQUARANTINED []).hostSt 0 = hsQUARANTINED
    ∧ ((heldState hsQUARANTINED [slotRecB]).setCfg (Reg.HSV.SUPERVISE_ALT_EN 0) 1).cfgb (Reg.HSV.SUPERVISE_ALT_EN 0) = true
    ∧ ((heldState hsQUARANTINED [slotRecB]).currentRec 0 (1 - (heldState hsQUARANTINED [slotRecB]).rd (Reg.HSV.SLOT_INFO_SEL 0))).isSome = true
    ∧ ((heldState hsQUARANTINED [slotRecB]).host 0).mend.failed = []
    ∧ (heldState hsESCORTED []).released 0 = true ∧ bit ((heldState hsESCORTED []).cfg (Reg.HSV.SUPERVISE_OK_SOURCE 0)) 1 = false
    ∧ bit (((heldState hsESCORTED []).setCfg (Reg.HSV.SUPERVISE_OK_SOURCE 0) 2).cfg (Reg.HSV.SUPERVISE_OK_SOURCE 0)) 1 = true
    ∧ (heldState hsHELD []).ready pgESC escCmdOff = true := by decide +kernel
theorem test_witness_HostCommands_noSteps : ((heldState hsHELD []).setCfg (Reg.HSV.SUPERVISE_ALT_EN 0) 0).cfgb (Reg.HSV.SUPERVISE_ALT_EN 0) = false
    ∧ (heldState hsHELD []).brace = false ∧ ((heldState hsHELD []).wr Reg.PWR.STATUS_BRACE 1).brace = true
    := by decide +kernel
/-- ENROLL of an empty slot with all but the last burst of its manifest read; and the same with the leaf table read. -/
def enrollRead : State := (heldState hsHELD []).setRead 0 ⟨0, 0, 0, List.replicate 5632 0xFF, [], 0⟩
def enrollHash (m : List Byte) : State := (heldState hsHELD []).setRead 0 ⟨0, 0, 3, m, [], 0⟩
theorem test_witness_HostCommands_enroll : (enrollRead.host 0).read = some ⟨0, 0, 0, List.replicate 5632 0xFF, [], 0⟩
    ∧ enrollRead.pkeFree 5 = true ∧ enrollRead.dgeFree = true := by decide +kernel
theorem test_witness_HostCommands_blank : (List.replicate 5632 (0xFF : Byte)).length < manifestLen ∧ manifestLen ≤ (List.replicate 5632 (0xFF : Byte)).length + 512 := by
  rw [List.length_replicate]; decide
theorem test_witness_HostCommands_hash (m : List Byte) : ((enrollHash m).host 0).read = some ⟨0, 0, 3, m, [], 0⟩ ∧ (enrollHash m).dgeFree = true := ⟨rfl, rfl⟩
theorem test_witness_HostCommands_format : (heldState hsHELD []).hostManifestOk 0 ((heldState hsHELD []).slotBytes 0 0 0 manifestLen) = false := by
  decide +kernel
theorem test_witness_HostCommands_wait : ((enrollHash []).wr Reg.PWR.STATUS_BRACE 1).brace = true := by decide +kernel
theorem test_witness_HostCommands_reload : escortState.ready pgESC escCmdOff = true ∧ escortState.hostSt 0 = hsESCORTED
    ∧ escortState.cfgb (Reg.POL.STEER_EN 0) = true ∧ escortState.windowsOf 0 = [0]
    ∧ escortState.dgeFree = true ∧ (escortState.host 0).digests.length = (escortState.windowsOf 0).length
    ∧ ((escortState.setRead 0 ⟨1, 0, 2, [], [], 0⟩).host 0).read = some ⟨1, 0, 2, [], [], 0⟩ ∧ (512 < 1024) := by decide +kernel
theorem setHost_slotBytes (s : State) (n : Nat) (h : HostSt) : (s.setHost n h).slotBytes = s.slotBytes ∧ (s.setHost n h).activeSlot = s.activeSlot := ⟨rfl, rfl⟩
theorem test_witness_HostCommands_digest : (escortState.host 0).digests = [(0x800, 128, Config.sha384 (escortState.slotBytes 0 (escortState.activeSlot 0) 0x800 128))] := by
  unfold escortState
  rw [(setHost_slotBytes _ _ _).1, (setHost_slotBytes _ _ _).2, show ∀ (s : State) (h : HostSt), (s.setHost 0 h).host 0 = h from
    fun _ _ => Tbl.get_put_same _ _ _ _]

/-! O47 HostEvents -/

/-- Host 0 in a state with a verification whose verdicts are all in, or with other parts of its record. -/
def gateOf (p : GatePhase) : Gate := ⟨p, 1, 0, [], 0, false, [], none, 0, [], [], [], 0, [], [], 0, [], [], []⟩
def eventState (st : Nat) (h : HostSt) : State := (((((upState.wr (Reg.HSV.HOST_STATE_STATE 0) st).setCfg (Reg.HSV.SUPERVISE_ALT_EN 0) 0).setCfg
  (Reg.HSV.SUPERVISE_OK_SOURCE 0) 1).setCfg (Reg.HSV.SUPERVISE_BOOT_RETRIES 0) 1).setHost 0 h)
/-- The same with the ESC page in force and window 0 of 4 KiB. -/
def windowState (st : Nat) : State := ((eventState st HostSt.idle).wr (Hdr.ACTIVE pgESC) 1).setCfg (Reg.ESC.WIN_SIZE 0) 1
def touchLive (r : Nat) : Live := ⟨⟨0, false, false, 3, 0x10, 16, [], []⟩, .touch, .none, [], true, 0, false, false, none, some ⟨0, 0, [], r, false⟩, false⟩
/-- A first touch of block 0; its leaf in LDM is `d`. -/
def touchState (r : Nat) (d : BitVec 256) : State :=
  { (((windowState hsESCORTED).openTxn 0 (touchLive r)).setChan 0 { Chan.idle with k1Run := true }) with ldm := Tbl.put 0 [] 0 d }
theorem test_witness_HostEvents : ((eventState hsVERIFYING { HostSt.idle with gate := some (gateOf .ready) }).host 0).gate = some (gateOf .ready)
    ∧ (gateOf .ready).phase = .ready ∧ (gateOf .ready).slot = 1 ∧ (eventState hsVERIFYING { HostSt.idle with gate := some (gateOf .ready) }).hostSt 0 = hsVERIFYING
    ∧ (eventState hsVERIFYING HostSt.idle).hosts = [] ∧ (eventState hsVERIFYING HostSt.idle).windowsOf 0 = [] ∧ (windowState hsVERIFYING).windowsOf 0 = [0]
    ∧ (gateOf .stream).phase ≠ .wait ∧ (eventState hsVERIFYING HostSt.idle).brace = false
    ∧ (eventState 4 HostSt.idle).cfgb (Reg.HSV.SUPERVISE_ALT_EN 0) = false ∧ (eventState 4 HostSt.idle).cfgb (Reg.HSV.SUPERVISE_RESTORE_EN 0) = false
    ∧ (eventState 4 HostSt.idle).cfgb (Reg.HSV.SUPERVISE_NET_EN 0) = false ∧ voidsRecord hvSIGNATURE = true ∧ voidsRecord hvGATE_LIMIT = false
    ∧ (windowState hsESCORTED).hostSt 0 = hsESCORTED ∧ (windowState hsESCORTED).sweepNext 0 = some (0, 0)
    ∧ ((windowState hsESCORTED).setPort 0 { Port.idle with verified := [(0, true), (1, true), (2, true), (3, true)] }).sweepNext 0 = none := by decide +kernel
theorem test_witness_HostEvents_touch : ((touchState 3 5).port 0).live = some (touchLive 3) ∧ ((touchState 3 5).chan 0).k1Run = true
    ∧ ((touchState 3 5).sched (State.chanRes 0)).running = none ∧ (touchState 3 5).windowAt 0 0 = some 0 ∧ (touchState 3 5).blockVerified 0 0 = false
    ∧ (((eventState 4 HostSt.idle).setSched (State.chanRes 0) { Sched.idle with running := some ⟨.gate, 5, 5, 0, 0, 0, 0, []⟩ }).serving 0 .gate 0) = true
    ∧ (((eventState 4 HostSt.idle).setSched (State.chanRes 0) { Sched.idle with running := some ⟨.hostRead, 5, 5, 0, 0, 0, 0, []⟩ }).serving 0 .hostRead 0) = true
    ∧ (touchState 3 5).serving 0 .sweep 0 = false ∧ (touchState 3 5).serving 0 .gate 0 = false ∧ (touchState 3 5).serving 7 .restore 0 = false
    ∧ (((eventState 4 HostSt.idle).setSched (State.chanRes 7) { Sched.idle with running := some ⟨.restore, 5, 5, 0, 0, 0, 0, []⟩ }).serving 7 .restore 0) = true
    := by decide +kernel
theorem test_witness_HostEvents_supervision : (eventState 4 HostSt.idle).released 0 = true ∧ (eventState 4 HostSt.idle).pinWatched 0 = true
    ∧ ((eventState 4 HostSt.idle).host 0).sup.pulse = false ∧ ((eventState 4 { HostSt.idle with sup := ⟨true, false, false, false, false⟩ }).host 0).sup.waiting = true
    ∧ (eventState 4 HostSt.idle).rd (Reg.HSV.HOST_STATE_RETRY 0) < (eventState 4 HostSt.idle).cfg (Reg.HSV.SUPERVISE_BOOT_RETRIES 0)
    ∧ ((eventState 4 HostSt.idle).wr (Reg.HSV.HOST_STATE_RETRY 0) 1).rd (Reg.HSV.HOST_STATE_RETRY 0) = (eventState 4 HostSt.idle).cfg (Reg.HSV.SUPERVISE_BOOT_RETRIES 0)
    ∧ ((eventState 4 { HostSt.idle with sup := ⟨true, true, false, false, false⟩ }).host 0).sup.pulse = true
    ∧ ((eventState 4 { HostSt.idle with sup := ⟨false, false, false, true, true⟩ }).host 0).sup.okLow = true
    ∧ ((eventState 6 { HostSt.idle with mend := ⟨true, true, [], []⟩ }).host 0).mend.timer = true ∧ (eventState 6 HostSt.idle).hostSt 0 ≠ hsOFF
    ∧ ((eventState 6 { HostSt.idle with restore := some ⟨0, 0, 0, [], [], none, [], [], 0, []⟩ }).host 0).restore.isSome = true
    ∧ ((eventState 6 HostSt.idle).wr Reg.PWR.STATUS_BRACE 1).brace = true ∧ (eventState 4 HostSt.idle).up = true := by decide +kernel
/-- A leaf that equals the digest of the block (the hash is opaque). -/
theorem test_witness_HostEvents_match : shaBytes 0 ((touchState 0 (Config.sha256 (List.replicate 1024 0xFF))).flashBytes 0 0 0 1024)
    = (touchState 0 (Config.sha256 (List.replicate 1024 0xFF))).ldmLeaf 0 := by
  have f : ∀ d, (touchState 0 d).flashBytes 0 0 0 1024 = List.replicate 1024 0xFF := fun d => by
    have e : (touchState 0 d).flashBytes 0 0 0 1024 = (touchState 0 0).flashBytes 0 0 0 1024 := rfl
    rw [e]; decide +kernel
  have g : ∀ d, (touchState 0 d).ldmLeaf 0 = digestBytes d := fun d => congrArg digestBytes (Tbl.get_put_same _ _ _ _)
  rw [f, g]; rfl

/-! O48 Decompression -/

/-- A descriptor: 16 bytes of FG from 0x100 to 0x20001000 (or to channel 7), 4 bytes expected. -/
def cmpDesc (kind : Byte) : List Byte := [0, 1, 0, 0, 16, 0, 0, 0, kind, 7, 0, 0, 0, 0x10, 0, 0x20, 4, 0, 0, 0]
/-- A state whose main SRAM holds the descriptor at 0x20000000, and one in which that stream runs. -/
def cmpState (kind : Byte) : State := { (upState.wr (Reg.FCH.STATUS_INIT_DONE 7) 1) with sram := Mem.store 0 [] 0x20000000 (cmpDesc kind) }
def cmpRunning (kind : Byte) : State := ({ cmpState kind with
  cmp := ⟨some (cmpDesc kind), none⟩
  flash := Mem.store 0xFF [] (State.flashKey 7 0 0x100) [3, 0, 4, 0, 9, 8, 7, 6, 0, 0, 0, 0, 1, 2, 3, 4] }).cmdStart pgCMP 0x44 (.cmpRun 0x20000000)
theorem test_witness_Decompression : (cmpState 0).ready pgCMP 0x44 = true ∧ (cmpState 0).cmp.host = none ∧ (cmpState 0).cmpDescOk 0x20000000 = true
    ∧ (cmpState 2).cmpDescOk 0x20000000 = false ∧ ({ cmpState 0 with cmp := ⟨none, some 2⟩ } : State).ready pgCMP 0x44 = true
    ∧ (cmpRunning 0).brace = false ∧ (cmpRunning 0).cmp.run = some (cmpDesc 0) ∧ State.cdKind (cmpDesc 0) = 0 ∧ State.cdKind (cmpDesc 1) = 1
    ∧ (cmpRunning 0).flag (Reg.FCH.STATUS_INIT_DONE 7) = true ∧ (cmpRunning 1).cmpChanOk 7 = true ∧ (cmpRunning 1).cmpChanOk 6 = false
    ∧ (cmpRunning 0).up = true ∧ (cmpState 0).cmp.run.isSome = false ∧ (upState.wr Reg.PWR.STATUS_BRACE 1).brace = true
    ∧ State.reset.up = false ∧ (cmpRunning 0).hosts = []
    ∧ ((({ upState.setCfg (Reg.POL.STEER_SLOT_LOG2 0) 16 with cmp := ⟨none, some 0⟩ } : State).setHost 0 { HostSt.idle with restore := some ⟨0, 2, 0, [], [], none, [3, 0, 4, 0, 9, 8, 7, 6, 0, 0, 0, 0], [], 0, []⟩ }).host 0).restore
      = some ⟨0, 2, 0, [], [], none, [3, 0, 4, 0, 9, 8, 7, 6, 0, 0, 0, 0], [], 0, []⟩
    ∧ abcDecode none [3, 0, 4, 0, 9, 8, 7, 6, 0, 0, 0, 0] = ⟨[9, 8, 7, 6], none⟩ ∧ 4 ≤ (upState.setCfg (Reg.POL.STEER_SLOT_LOG2 0) 16).slotSize 0
    ∧ abcDecode (some 4) ((cmpRunning 0).flashBytes 7 0 0x100 16) = ⟨[9, 8, 7, 6], none⟩
    ∧ abcDecode (some 3) ((cmpRunning 0).flashBytes 7 0 0x100 16) = ⟨[], some (cmOVERRUN, 0)⟩ := by decide +kernel

/-! O49 ChannelCommands -/

/-- A descriptor of a class: `len` bytes (little-endian) at flash address 0x1000, SRAM 0x20001000. -/
def fchDesc (cls l0 l1 : Byte) : List Byte := [cls, 0, 0, 0, 0, 0x10, 0, 0, 0, 0x10, 0, 0x20, l0, l1, 0, 0]
/-- Channel 7 initialised, its erase unit 4 KiB, the descriptor in main SRAM at 0x20000000. -/
def fchState (cls l0 l1 : Byte) : State := { (upState.wr (Reg.FCH.STATUS_INIT_DONE 7) 1).setCfg (Reg.FCH.TIMING_ERASE_LOG2 7) 12 with sram := Mem.store 0 [] 0x20000000 (fchDesc cls l0 l1) }
/-- The same with a request in service. -/
def fchServing (k : ReqKind) (l0 l1 : Byte) : State := ((fchState 5 l0 l1).setSched (State.chanRes 7)
  { Sched.idle with running := some ⟨k, 5, 5, fwIssuer, 0, 0, 0, fchDesc 5 l0 l1⟩ }).cmdStart (pgFCH 7) fchCmdOff (.fchRead 7 0x20000000)
theorem test_witness_ChannelCommands : (fchState 5 0 1).ready (pgFCH 7) fchCmdOff = true ∧ (fchState 5 0 1).fchFault 7 0 0x20000000 = none
    ∧ (fchState 5 0 1).fchFault 7 1 0x20000000 = none ∧ (fchState 5 0 0x10).fchFault 7 2 0x20000000 = none
    ∧ (fchState 6 0 1).fchFault 7 0 0x20000000 = some Reason.FIELD_RANGE ∧ (fchState 2 0 1).fchFault 7 1 0x20000000 = some fcCLASS_NOT_PERMITTED
    ∧ ((fchState 5 0 1).wr (Reg.FCH.STATUS_INIT_DONE 7) 0).fchFault 7 2 0x20000000 = some fcNOT_INIT
    ∧ ({ fchState 5 0 1 with sram := [(0x20000000, 1)] } : State).initFault 7 0x20000000 = none ∧ (fchState 0 0 1).initFault 7 0x20000000 = some Reason.FIELD_RANGE
    ∧ ((fchServing .init 0 1).sched (State.chanRes 7)).running = some ⟨.init, 5, 5, fwIssuer, 0, 0, 0, fchDesc 5 0 1⟩
    ∧ ((fchState 5 0 1).sched (State.chanRes 7)).running = none ∧ (fchServing .fwRead 0 4).laneFw 7 = false
    ∧ ((fchServing .fwRead 0 4).setCfg (Reg.SNP.MODE_LANE_I 0) 1).laneFw 0 = true ∧ ((fchServing .fwRead 0 4).setCfg (Reg.SNP.MODE_PRE_BLOCK 0) 0).laneBlk 0 = 1024 ∧ 512 % 1024 + 512 = 1024
    ∧ (List.replicate 512 (0 : Byte)).length + 512 = 1024
    ∧ (fchServing .fwRead 0 4).cmdRuns (pgFCH 7) fchCmdOff = true ∧ State.reset.up = false ∧ (fchState 5 0 1).up = true := by decide +kernel

/-! O50 Scheduling -/

/-- Channel 6 with a request of a kind in service and one queued, at a sacrifice level, on an octal profile. -/
def schedState (k : ReqKind) (q : List Req) (level retries : Nat) : State :=
  ((upState.setCfg (Reg.FCH.PROFILE_PROTOCOL 6) 2).setSched (State.chanRes 6) { Sched.idle with running := some ⟨k, 5, 5, fwIssuer, 0, 0, 0, []⟩, queue := q, level := level }).setChan 6
    { Chan.idle with retries := retries, suspending := true, polling := false }
/-- Port 0 serves a first touch whose fetch runs, on an octal profile. -/
def touchMissed (r : Nat) : State := (((upState.setCfg (Reg.FCH.PROFILE_PROTOCOL 0) 2).openTxn 0
  ⟨⟨0, false, false, 3, 0x10, 16, [], []⟩, .touch, .none, [], true, 0, false, false, none, some ⟨0, 0, [], r, false⟩, false⟩).setChan 0 { Chan.idle with k1Run := true })
def reqOf (k : ReqKind) (c l : Nat) : Req := ⟨k, c, l, fwIssuer, 0, 0, 0, []⟩
theorem test_witness_Scheduling : 2 ≤ (schedState .fwRead [] 0 2).cfg (Reg.FCH.PROFILE_PROTOCOL 6) ∧ State.reqReads 6 (reqOf .fwRead 5 5) = true
    ∧ ((schedState .fwRead [] 0 2).sched (State.chanRes 6)).running = some (reqOf .fwRead 5 5) ∧ ((schedState .fwRead [] 0 2).chan 6).retries = 2
    ∧ ((schedState .fwRead [] 0 3).chan 6).retries = 3 ∧ State.reqReads 6 (reqOf .fwErase 5 5) = false ∧ upState.cfg (Reg.FCH.PROFILE_PROTOCOL 6) < 2
    ∧ ((schedState .fwErase [reqOf .readPage 2 2] 0 0).chan 6).suspending = true ∧ (upState.chan 6).suspending = false
    ∧ ((schedState .fwErase [reqOf .readPage 2 2] 0 0).sched (State.chanRes 6)).queue = [reqOf .readPage 2 2] ∧ upState.up = true
    ∧ ((schedState .fwErase [] 0 0).chan 6).k1Run = false ∧ ((upState.setChan 6 { Chan.idle with polling := true }).chan 6).polling = true
    ∧ ((schedState .fwErase [reqOf .fwRead 3 3, reqOf .fwRead 5 4] 0 0).sched 10).queue[1]? = some (reqOf .fwRead 5 4) ∧ State.suspendedAt 0 4 = false ∧ State.suspendedAt 3 3 = true
    ∧ (upState.setSched 2 { Sched.idle with queue := [reqOf .quote 3 3] }).shortClasses 2 8 = [3]
    ∧ (upState.setSched 2 { Sched.idle with queue := [reqOf .quote 3 3] }).shortClasses 2 4 = [] ∧ (upState.sched 2).braced = false
    ∧ ((upState.setSched 2 { Sched.idle with braced := true }).sched 2).braced = true ∧ State.isFw (reqOf .fwRead 3 3) = true
    ∧ (upState.sched 7).queue[0]? = none ∧ 2 ≤ (touchMissed 0).cfg (Reg.FCH.PROFILE_PROTOCOL 0) ∧ ((touchMissed 3).sched (State.chanRes 0)).running = none
    ∧ ((touchMissed 0).port 0).live.map (fun l => l.touch.map (fun t => t.retries)) = some (some 0)
    ∧ ((touchMissed 3).port 0).live.map (fun l => l.touch.map (fun t => t.retries)) = some (some 3) ∧ ((touchMissed 3).chan 0).k1Run = true := by decide +kernel

/-! O51 Lanes -/

/-- ROM has finished and lane `l` is enabled, with its link as given. -/
def laneState (l : Nat) (up : Bool) : State := ((({ upState with boot := { BootSt.idle with phase := .done } }).setCfg (Reg.NET.LANE_CTRL_EN l) 1).wrb
  (Reg.NET.LANE_STATUS_LINK_UP l) up).wr (Reg.NET.LANE_STATUS_BLOCK_LOCK l) 1
/-- A descriptor at 0x20000000 for lane `l`: 16 bytes at 0x20000100. -/
def laneDesc (l : Byte) : Mem := Mem.store 0 [] 0x20000000 [l, 0, 0, 0, 0, 1, 0, 0x20, 16, 0, 0, 0]
def sendState (l : Nat) : State := { laneState l true with sram := laneDesc (BitVec.ofNat 8 l) }
/-- The transmit SC of lane 0 is on, its SA 0 loaded and enabled. -/
def macsecSend : State := ((sendState 0).setCfg (Reg.MSEC.SC_CTRL_EN 0) 1).setSa 0 { Sa.empty with loaded := true, enabled := true, key := List.replicate 32 7 }
def ethOf (etype len : Nat) (sec : Option SecTag) : EthFrame := { dst := 0, src := 5, etype := etype, payload := [1, 2], len := len, fcsOk := true, fecCorr := 0, fecBad := false, sec := sec }
def tagOf (pn : Nat) : SecTag := { an := 0, pn := pn, sci := 0, data := [], icv := 0 }
def macsecRecv : State := (((laneState 0 true).setCfg (Reg.MSEC.SC_CTRL_EN 1) 1).setCfg (Reg.MSEC.SC_CTRL_REPLAY_PROTECT 1) 1).setSa 4 { Sa.empty with loaded := true, enabled := true }
theorem test_witness_Lanes : (laneState 1 true).laneOn 1 = true ∧ (laneState 1 true).laneOn 0 = false ∧ (laneState 1 false).linkUp 1 = false
    ∧ (laneState 1 false).flag (Reg.NET.LANE_STATUS_BLOCK_LOCK 1) = true ∧ (laneState 1 false).flag (Reg.NET.LANE_STATUS_HI_BER 1) = false
    ∧ (laneState 1 true).linkUp 1 = true ∧ ((laneState 1 true).wr (Reg.NET.LANE_STATUS_BLOCK_LOCK 1) 0).flag (Reg.NET.LANE_STATUS_BLOCK_LOCK 1) = false
    ∧ (laneState 1 true).cfgb (Reg.NET.LANE_CTRL_FEC_EN 1) = false ∧ (ethOf 0x0800 64 none).dst = (laneState 1 true).laneMac 1
    ∧ (laneState 1 true).cfgb Reg.NET.MODE_REQUIRE_MACSEC = false ∧ (laneState 1 true).romRuns = false ∧ 0x0800 ≠ (laneState 1 true).cfg Reg.NET.STX_ETYPE
    ∧ (laneState 1 true).brace = false ∧ macsecRecv.scOn 1 = true ∧ macsecRecv.sci 1 = 0 ∧ (macsecRecv.sa 4).enabled = true ∧ macsecRecv.scXpn 1 = false
    ∧ macsecRecv.nextPn 4 = 1 ∧ ((macsecRecv.setPn 4 9).nextPn 4) = 9 ∧ (sendState 1).ready pgNET 0x50 = true ∧ State.inSram 0x20000000 12 = true
    ∧ (sendState 1).sramLe 0x20000000 1 = 1 ∧ (sendState 1).sramLe 0x20000001 3 = 0 ∧ (sendState 1).sramLe 0x20000008 4 = 16
    ∧ State.inSram ((sendState 1).sramLe 0x20000004 4) 16 = true ∧ (sendState 1).protects 1 [] = false ∧ ((sendState 1).lane 1).txq = []
    ∧ ((sendState 1).lane 1).wire = none ∧ macsecSend.protects 0 (macsecSend.sramBytes 0x20000100 16) = true ∧ macsecSend.txUsable 0 = true
    ∧ (sendState 1).wireLen 1 (List.replicate 16 0) = 64 ∧ 2048 < ((sendState 1).setCfg (Reg.NET.LANE_CTRL_TAG_EN 1) 1).wireLen 1 (List.replicate 2044 0)
    ∧ State.inSram 0 12 = false ∧ (((sendState 1).setLane 1 { Lane.idle with rxq := [[1, 2]] }).lane 1).rxq.head? = some [1, 2]
    ∧ (((sendState 1).setLane 1 { Lane.idle with wire := some [1, 2] }).lane 1).wire = some [1, 2]
    ∧ (((sendState 1).setLane 1 { Lane.idle with txq := List.replicate 64 [] }).lane 1).txq.length = 64 := by decide +kernel

/-- A frame whose tag is right (GCM is opaque), received without replay protection. -/
def macsecOk : State := (macsecRecv.setCfg (Reg.MSEC.SC_CTRL_REPLAY_PROTECT 1) 0).setCfg (Reg.MSEC.SC_CTRL_CONF 1) 0
theorem test_witness_Lanes_secured : macsecOk.scOn 1 = true ∧ macsecOk.cfgb (Reg.MSEC.SC_CTRL_REPLAY_PROTECT 1) = false ∧ macsecOk.cfgb (Reg.MSEC.SC_CTRL_CONF 1) = false
    ∧ (macsecOk.sa 4).enabled = true ∧ macsecOk.scXpn 1 = false ∧ macsecOk.laneOn 0 = true ∧ macsecOk.linkUp 0 = true ∧ macsecOk.romRuns = false
    ∧ (∀ k v d, ∃ g : SecTag, g.an = 0 ∧ g.sci = macsecOk.sci 1 ∧ Config.gcmTag k v d [] = g.icv) := by
  refine ⟨by decide, by decide, by decide, by decide, by decide, by decide, by decide, by decide, fun k v d => ?_⟩
  exact ⟨{ tagOf 3 with icv := Config.gcmTag k v d [] }, rfl, (by decide : (0 : Nat) = macsecOk.sci 1), rfl⟩

/-! O52 SakRegisters -/

theorem test_witness_SakRegisters : upState.ready pgMSEC 0x140 = true ∧ (upState.sa 5).enabled = false ∧ (upState.sa 5).loaded = false ∧ saDir 5 = 1 ∧ saDir 2 = 0
    ∧ ((upState.setSa 5 { Sa.empty with loaded := true, enabled := true }).sa 5).enabled = true
    ∧ (upState.setSa 5 { Sa.empty with loaded := true, enabled := true }).ready pgMSEC 0x140 = true
    ∧ ((upState.setSa 5 { Sa.empty with loaded := true }).sa 5).loaded = true ∧ 3 % 4 ≠ atENC ∧ (servingSlot atDEC []).captureWaits 5 = false ∧ (slotState atDEC []).captureWaits 5 = true
    ∧ ((servingSlot atDEC []).sa 5).enabled = false ∧ (servingSlot atDEC []).ready pgMSEC 0x140 = true ∧ atENC % 4 = atENC ∧ atDEC % 4 = atDEC := by decide +kernel
theorem test_witness_SakRegisters_slot : (slotState atDEC []).captureFault 5 = (slotState atDEC [], none) ∧ (servingSlot atDEC []).captureFault 5 = (servingSlot atDEC [], none) ∧ ((servingSlot atDEC []).slot 5).keyAttr = atDEC
    ∧ ((servingSlot atDEC []).slot 5).keyAttr ≠ atENC := by
  refine ⟨slotState_captureFault _ _, servingSlot_captureFault _ _, ?_, ?_⟩ <;> simp [servingSlot_slot, State.rootSlot, atENC, atDEC]

/-! O53 CanPorts -/

/-- CAN1 on the bus with a receive base, its own address 0x22; `id`, `len` is the frame that a descriptor at 0x20000000 sends. -/
def canBus (v : CanPort) : State := (((({ upState with boot := { BootSt.idle with phase := .done } }).setCfg (Reg.CAN.CAN_CTRL_EN 1) 1).wr
  (Reg.CAN.BUS_STATUS_STATE 1) 0).setCfg (Reg.CAN.TP_ADDR_OWN 1) 0x22).setCfg (Reg.CAN.TP_BASE_RX_BASE 1) 0x1AB |>.setCan 1 v
def canSendState (ext lo : Byte) : State := { canBus CanPort.idle with sram := Mem.store 0 [] 0x20000000 [lo, 0, 0xAB, ext, 8, 0, 0, 0, 1, 2, 3] }
/-- The same with filter 0 sending every identifier to DEST `d`. -/
def filterState (d : Nat) : State := ((canBus CanPort.idle).setCfg (Reg.CAN.FILTER_ID_DEST 8) d).setCfg (Reg.CAN.FILTER_MASK 8) 0
def tpFrameIn (b0 b1 : Byte) : CanFrame := ⟨true, 0x1AB2233, [b0, b1, 5, 6, 7, 8, 9, 10]⟩
theorem test_witness_CanPorts : upState.canUp 1 = false ∧ (canBus CanPort.idle).canUp 1 = true ∧ (canBus CanPort.idle).stxSpace 1 true 0x1AB2233 = true
    ∧ (filterState 1).stxSpace 1 false 5 = false ∧ (filterState 1).canDest 1 5 = 1 ∧ (filterState 2).canDest 1 5 = 2 ∧ (filterState 0).canDest 1 5 = 0
    ∧ (tpFrameIn 0x10 9).id / 2 ^ 16 = (canBus CanPort.idle).cfg (Reg.CAN.TP_BASE_RX_BASE 1)
    ∧ (tpFrameIn 0x10 9).id / 256 % 256 = (canBus CanPort.idle).cfg (Reg.CAN.TP_ADDR_OWN 1) ∧ (0x18 : Byte).toNat / 16 = 1
    ∧ 1984 < (0x18 : Byte).toNat % 16 * 256 + (9 : Byte).toNat ∧ (0x21 : Byte).toNat / 16 = 2 ∧ (canBus CanPort.idle).cfg (Reg.CAN.TP_ADDR_BS 1) = 0
    ∧ (canBus CanPort.idle).romCan 1 = false ∧ (canBus CanPort.idle).ready pgCAN 0x140 = true ∧ State.inSram 0x20000000 72 = true ∧ State.inSram 0 72 = false
    ∧ (canSendState 0x81 0).stxSpace 1 true 0x1AB0000 = true ∧ (canSendState 0 5).sramLe 0x20000000 4 = 0xAB0005
    ∧ (canSendState 0x82 5).sramLe 0x20000000 4 % 2 ^ 31 = 0x2AB0005 ∧ (canSendState 0x82 5).stxSpace 1 true 0x2AB0005 = false
    ∧ (canSendState 0x82 5).sramLe 0x20000005 3 = 0 ∧ canLens.contains ((canSendState 0x82 5).sramLe 0x20000004 1) = true
    ∧ ((canBus { CanPort.idle with fwq := [⟨false, 5, [1]⟩] }).can 1).fwq.head? = some ⟨false, 5, [1]⟩
    ∧ ((canBus { CanPort.idle with rx := [⟨0x33, 100, [1, 2], 1, 0⟩] }).can 1).rx.head? = some ⟨0x33, 100, [1, 2], 1, 0⟩
    ∧ ((canBus { CanPort.idle with tx := [⟨0x33, [1, 2], 1, true, 0, false⟩] }).can 1).tx = [⟨0x33, [1, 2], 1, true, 0, false⟩]
    ∧ ((canBus { CanPort.idle with recovering := true }).can 1).recovering = true ∧ (canBus CanPort.idle).up = true
    ∧ ((canBus CanPort.idle).wr (Reg.CAN.BUS_STATUS_STATE 1) 2).rd (Reg.CAN.BUS_STATUS_STATE 1) = 2 := by decide +kernel

/-! O54 ManagementPort -/

/-- ROM has finished; the mailbox holds `m`. -/
def mgpState (m : Mem) : State := { upState with boot := { BootSt.idle with phase := .done }, mgp := { Mgp.idle with mbox := m } }
/-- A firmware message with a right CRC, one with a bad length, one with a bad CRC. -/
def mgpGood : State := mgpState (Mem.store 0 [] 0 (mboxFrame 5 0 0 9 0 [1, 2]))
theorem test_witness_ManagementPort : (mgpState []).mgpUp = true ∧ (mgpState []).mgpOwns = false ∧ ((mgpState []).wr Reg.MGP.STATUS_OWNER 1).mgpOwns = true
    ∧ State.reset.mgpUp = false ∧ 4080 < (mgpState [(3, 0x10)]).mbLen ∧ mgpGood.mbFault = none ∧ mgpGood.mbCode = 5 ∧ mgpGood.boot.phase = BootPhase.done
    ∧ (mgpState [(0, 5)]).mbLen = 0 ∧ (mgpState [(0, 5)]).mbStatus = 0 ∧ Mem.le 0 (mgpState [(0, 5)]).mgp.mbox 12 4 ≠ crc32c ((mgpState [(0, 5)]).mboxBytes 0 12 ++ [])
    ∧ (mgpState []).mgp.req = none ∧ ({ mgpState [] with mgp := { Mgp.idle with req := some (8, 0, 4) } } : State).mgp.req = some (8, 0, 4)
    ∧ (mgpState []).mgpSees 8 = false ∧ ((mgpState []).setCfg Reg.HSV.MGP_VIEW_LO 0x100).mgpSees 8 = true ∧ (mgpState []).csLow 3 = false
    ∧ (mgpState []).boot.phase ≠ BootPhase.scrap ∧ (mgpState []).boot.phase ≠ BootPhase.fatal ∧ (mgpState []).mgp.stxOut = [] ∧ (mgpState []).beforeAttach = false
    ∧ ({ mgpState [] with mode := { ModeSt.reset with afterWarm := true } } : State).beforeAttach = true
    ∧ (mgpState []).ready pgMGP mgpCmdOff = true ∧ ((mgpState []).wr Reg.MGP.STATUS_SUBMITTED 1).flag Reg.MGP.STATUS_SUBMITTED = true
    ∧ State.inSram 0x20000000 (16 + 4080) = true ∧ (mgpState []).sramLe 0x20000002 2 = 0 := by decide +kernel

/-! O55 SessionCommands -/

/-- A descriptor at 0x20000000: session 5, type `ty`, 16 bytes at 0x20000100; OPEN reads medium 5 there, so it has its own. -/
def stxDescOf (ty : Byte) : List Byte := [5, 0, ty, 0, 0, 1, 0, 0x20, 16, 0, 0, 0]
/-- A state whose session 5 is in state `st` on the mailbox. -/
def stxState (st : Nat) (m : List Byte) : State := ({ upState with sram := Mem.store 0 [] 0x20000000 m }).setSess 5 { Sess.idle with state := st, medium := 4, txSeq := 9 }
def openDesc : List Byte := [4, 1, 0, 0, 0, 0, 0, 0, 0, 0, 0, 0]
def readyState (st : Nat) (m : List Byte) : State := ((((stxState st m).wr (Hdr.ACTIVE pgSTX) 1).wr (Hdr.ACTIVE pgATT) 1).wr Reg.ATT.STATUS_IDENTITY_READY 1).wr Reg.ATT.STATUS_RMT_LOCKED 1
theorem test_witness_SessionCommands : (stxState 3 (stxDescOf 0x12)).ready pgSTX 0x50 = true ∧ (stxState 0 openDesc).stxReady = false ∧ (readyState 0 openDesc).stxReady = true
    ∧ (readyState 0 openDesc).idleCtx = some 0 ∧ (readyState 0 openDesc).freeEph = some 4
    ∧ ((readyState 0 openDesc).setKeyReg 4 ⟨2, [], true, none, 0, none⟩ |>.setKeyReg 5 ⟨2, [], true, none, 0, none⟩ |>.setKeyReg 6 ⟨2, [], true, none, 0, none⟩ |>.setKeyReg 7 ⟨2, [], true, none, 0, none⟩).freeEph = none
    ∧ (readyState 0 openDesc).sramLe 0x20000000 1 = 4 ∧ (readyState 0 openDesc).sramLe 0x20000001 1 = 1 ∧ (readyState 0 openDesc).sramLe 0x20000002 2 = 0
    ∧ (readyState 0 openDesc).ready pgSTX 0x50 = true ∧ (readyState 0 openDesc).pkeFree 3 = true ∧ (readyState 0 openDesc).rngServes = false
    ∧ ((readyState 0 openDesc).wr Reg.RNG.STATUS_READY 1).rngServes = true ∧ ((readyState 0 openDesc).wr Reg.PWR.STATUS_BRACE 1).pkeFree 3 = false
    ∧ ((stxState 3 (stxDescOf 0x12)).wr Reg.RNG.STATUS_READY 1).sessAes = true ∧ (stxState 3 (stxDescOf 0x12)).sessAes = false
    ∧ State.inSram 0x20000000 14 = true ∧ State.inSram 0 2 = false ∧ (stxState 3 (stxDescOf 0x12)).sramLe 0x20000000 2 = 5 ∧ (stxState 3 (stxDescOf 0x12)).sramLe 0x20000002 1 = 0x12
    ∧ frameType 0x12 = true ∧ (stxState 3 (stxDescOf 0x12)).sramLe 0x20000003 1 = 0 ∧ (stxState 3 (stxDescOf 0x12)).sramLe 0x20000004 4 = 0x20000100
    ∧ (stxState 3 (stxDescOf 0x12)).sramLe 0x20000008 4 = 16 ∧ State.inSram 0x20000100 16 = true ∧ ((stxState 3 (stxDescOf 0x12)).sess 5).state = ssACTIVE
    ∧ ((stxState 1 (stxDescOf 0x12)).sess 5).state ≠ ssACTIVE ∧ ((stxState 3 (stxDescOf 0x12)).sess 5).medium = 4 ∧ ((stxState 3 (stxDescOf 0x12)).sess 5).txSeq = 9
    ∧ (stxState 3 (stxDescOf 0x12)).stx.fwq = [] ∧ (stxState 3 (stxDescOf 0)).sramLe 0x20000002 2 = 0 := by decide +kernel
theorem get_range (d v : Sess) : ∀ n a i, a ≤ i → i < a + n → Tbl.get d ((List.range' a n).map (fun j => (j, v))) i = v
  | 0, a, i, h, k => by omega
  | n + 1, a, i, h, k => by
    rw [List.range'_succ, List.map_cons, Tbl.get]
    by_cases e : i = a
    · simp [e]
    · rw [if_neg (by omega), if_neg e]
      exact get_range d v n (a + 1) i (by omega) (by omega)
/-- No context is IDLE: each session of the table is in HELLO. -/
def fullState : State := { readyState 0 openDesc with stx := { StxSt.idle with sessions := (List.range' 0 4096).map (fun i => (i, { Sess.idle with state := ssHELLO })) } }
theorem test_witness_SessionCommands_full : fullState.idleCtx = none := by
  unfold State.idleCtx
  rw [List.find?_eq_none]
  intro i hi
  have h : fullState.sess i = { Sess.idle with state := ssHELLO } := get_range _ _ _ _ _ (Nat.zero_le i) (by have := List.mem_range.mp hi; omega)
  simp [h, ssHELLO, ssIDLE]

/-! O56 SessionMessages -/

/-- A ready STX page and session 5 as given. -/
def sessState (c : Sess) : State := ((readyState 0 openDesc).wr Reg.RNG.STATUS_READY 1).setSess 5 c
def sessOf (st : Nat) (ini : Bool) : Sess := { Sess.idle with state := st, medium := 1, peer := 7, txSeq := 3, rxHigh := 100, seen := [99], initiator := ini, ephReg := some 6 }
def msgOf (p : List Byte) : StxMessage := { medium := 1, peer := 7, session := 5, seq := 101, auth := true, payload := p }
/-- A HELLO of suite 1, and a table of one IDENTITY entry for it; its digest is opaque. -/
def helloBytes (role sid : Byte) : List Byte := [0x53, 0x59, 0x48, 0x4C, 1, 0, 1, role, sid, 0] ++ List.replicate 328 0
def identityEntry (d : List Byte) : List Byte := [7, 0, 1, 1, 0, 0] ++ List.replicate 10 0 ++ d
def rmtState (c : Sess) (d : List Byte) : State := { sessState c with stx := { (sessState c).stx with index := [identityEntry d] } }
theorem test_witness_SessionMessages : (upState.stxReady = false ∧ (sessState (sessOf 1 true)).stxReady = true ∧ helloFormatOk [] 0 0 = false
    ∧ helloFormatOk (helloBytes 0 0) 0 0 = true ∧ helloFormatOk (helloBytes 1 5) 1 5 = true ∧ (sessState (sessOf 1 true)).identityOf (helloBytes 0 0) = none
    ∧ (sessState (sessOf 1 true)).up = true ∧ (sessState (sessOf 1 true)).active pgSTX = true ∧ (sessState (sessOf 1 true)).idleCtx = some 0)
    ∧ ((sessState (sessOf 1 true)).mode.phase ≠ Phase.seal ∧ ((sessState (sessOf 1 true)).sess 5) = sessOf 1 true ∧ (sessOf 1 true).medium = (msgOf []).medium
    ∧ (sessOf 1 true).peer = (msgOf []).peer ∧ (msgOf []).seq ∉ (sessOf 1 true).seen ∧ (sessOf 1 true).rxHigh ≤ (msgOf []).seq + 63 ∧ (sessOf 1 true).reply = []
    ∧ (sessOf 1 true).ephReg = some 6 ∧ (sessOf 1 true).txSeq + 1 < 0xFFFFFFFF ∧ (msgOf [1, 2]).payload.length = 2 ∧ (sessOf 2 false).state = ssKEYED)
    ∧ ((sessState (sessOf 1 true)).keysDue 5 = false ∧ ((sessState (sessOf 1 true)).setSched 2 { Sched.idle with running := some ⟨.session, 3, 3, 1005, 0, 0, 0, []⟩ }).keysDue 5 = true
    ∧ (sessState (sessOf 1 true)).brace = false ∧ (sessOf 1 true).unacked = [] ∧ ({ sessOf 3 true with unacked := [⟨1, [], 9⟩] } : Sess).unacked.head? = some ⟨1, [], 9⟩
    ∧ (sessState (sessOf 1 true)).retxLimit 1 = 3 ∧ (sessState (sessOf 1 true)).helloFault [] 0 0 [] true = some sxSUITE ∧ State.reset.up = false
    ∧ ((sessState (sessOf 1 true)).wr Reg.PWR.STATUS_BRACE 1).brace = true ∧ (sessState (sessOf 2 true)).sessAes = true
    ∧ ((sessState (sessOf 2 true)).wr Reg.PWR.STATUS_BRACE 1).sessAes = false ∧ (sessState (sessOf 1 true)).handshakeGoes = true
    ∧ ((sessState (sessOf 1 true)).wr Reg.RNG.STATUS_READY 0).handshakeGoes = false ∧ ((sessState (sessOf 2 true)).sess 5).state = ssKEYED) := by decide +kernel
theorem test_witness_SessionMessages_full : fullState.up = true ∧ fullState.active pgSTX = true ∧ fullState.idleCtx = none := ⟨rfl, rfl, test_witness_SessionCommands_full⟩
theorem test_witness_SessionMessages_confirm : (msgOf (digestBytes (sessOf 2 true).transcript)).payload = digestBytes (sessOf 2 true).transcript
    ∧ (msgOf []).payload ≠ digestBytes (sessOf 2 true).transcript ∧ ({ msgOf [] with auth := false } : StxMessage).auth = false := by decide
def hello0 : List Byte := helloBytes 0 0
def rmt0 : State := rmtState (sessOf 0 false) (digestBytes (Config.sha384 (heKeys hello0)))
theorem hello0_suite : heSuite hello0 = 1 := by decide +kernel
theorem test_witness_SessionMessages_identity : rmt0.identityOf hello0 = some (identityEntry (digestBytes (Config.sha384 (heKeys hello0)))) := by
  have h : slice (identityEntry (digestBytes (Config.sha384 (heKeys hello0)))) 0x10 48 = digestBytes (Config.sha384 (heKeys hello0)) := by
    simp [slice, identityEntry, digestBytes]
  have b : ∀ d, reHybrid (identityEntry d) = false := fun d => by simp [reHybrid, identityEntry, Sys2Proof.Machine.fieldLe, slice, leNat, bit]
  simp [State.identityOf, rmt0, rmtState, reDigest, h, b, hello0_suite]
/-- The HELLO passes the checks before its signatures; it is accepted where its signature and its point are right (both opaque). -/
theorem test_witness_SessionMessages_early : rmt0.helloEarly hello0 0 0 true = none := by
  have a : rmt0.stxReady = true := rfl
  have b : helloFormatOk hello0 0 0 = true := by decide +kernel
  have f : rmt0.freeEph = some 4 := rfl
  simp [State.helloEarly, a, b, test_witness_SessionMessages_identity, f]
theorem test_witness_SessionMessages_hello (h : State.suiteSigsOk 1 (heKeys hello0) (hello0.take (heBodyLen hello0)) (hello0.drop (heBodyLen hello0)) = true)
    (k : Config.ecdhPointOk (heEph hello0) = true) : rmt0.helloFault hello0 0 0 [] true = none ∧ rmt0.handshakeGoes = true ∧ rmt0.freeEph = some 4 := by
  refine ⟨?_, rfl, rfl⟩
  simp [State.helloFault, test_witness_SessionMessages_early, hello0_suite, h, k]

/-! O57 Attestation -/

/-- A state with root source `r`, identity ready `i` and table locked `l`, and memory `m`. -/
def attState (r i l : Nat) (m : Mem) : State := { (((upState.wr Reg.KVT.STATUS_ROOT_SOURCE r).wr Reg.ATT.STATUS_IDENTITY_READY i).wr Reg.ATT.STATUS_RMT_LOCKED l).setCfg Reg.ATT.RMT_BASE 0x2000 with sram := m }
/-- A ROUND descriptor: nonce zero, output at 0x20010000. -/
def roundMem : Mem := Mem.store 0 [] 0x20000020 [0, 0, 1, 0x20]
def roundOf (sil : List Nat) (closed lost : Bool) : Round := ⟨0x20000000, List.replicate 32 0, 0x20010000, false, sil, [], [], closed, [], lost⟩
def roundState (r : Option Round) : State := { (sessState (sessOf 3 true)) with stx := { (sessState (sessOf 3 true)).stx with round := r } }
/-- A SEAL_OP for host 0: label of 4 bytes, a GCM operation at 0x20000100. -/
def sealMem : Mem := Mem.store 0 (Mem.store 0 [] 0x20000000 [0, 1, 3, 0, 0, 2, 0, 0x20, 4, 0, 0, 0, 0, 1, 0, 0x20]) 0x20000100 ([3, 3, 16, 0, 0, 3, 0, 0x20, 0, 4, 0, 0x20, 64, 0, 0, 0] ++ List.replicate 8 0 ++ [0, 5, 0, 0x20])
def sealState : State := { ((attState 1 1 1 sealMem).wr (Reg.HSV.HOST_STATE_STATE 0) 4) with
  vault := { VaultSt.empty with root := some ⟨5, 0⟩ }
  nvm := { upState.nvm with slotRecs := [⟨0, 0, 7, 7, 0, true, BitVec.allOnes 64⟩] } }
theorem test_witness_Attestation : (attState 1 1 1 []).ready pgATT attCmdOff = true ∧ (attState 1 1 1 []).brace = false ∧ ((attState 1 1 1 []).wr Reg.PWR.STATUS_BRACE 1).brace = true ∧ (attState 0 1 1 []).rd Reg.KVT.STATUS_ROOT_SOURCE = 0
    ∧ (attState 1 1 1 []).rd Reg.KVT.STATUS_ROOT_SOURCE = 1 ∧ State.inSram 0x20000000 7586 = true ∧ (attState 1 1 1 []).rngFailed = false
    ∧ State.rmtFault (attState 1 1 1 []).rmtEntries = none ∧ State.rmtFault ((attState 1 1 1 []).setCfg Reg.ATT.RMT_COUNT 1).rmtEntries = some Reason.FIELD_RANGE
    ∧ reAscending [[], []] = false ∧ reAscending [[]] = true ∧ reFieldsOk [] = false ∧ (attState 1 1 1 []).flag Reg.ATT.STATUS_ROUND_BUSY = false
    ∧ ((attState 1 1 1 []).wr Reg.ATT.STATUS_ROUND_BUSY 1).flag Reg.ATT.STATUS_ROUND_BUSY = true ∧ (attState 1 1 1 []).up = true
    ∧ State.inSram 0x20000000 48 = true ∧ (attState 1 1 1 roundMem).sramLe 0x20000020 4 = 0x20010000 ∧ (attState 1 1 1 roundMem).sramLe 0x20000024 4 = 0
    ∧ allZero ((attState 1 1 1 roundMem).sramBytes 0x20000028 8) = true ∧ State.inSram 0x20010000 4029 = true ∧ (attState 1 0 1 []).flag Reg.ATT.STATUS_IDENTITY_READY = false
    ∧ (attState 1 1 0 []).flag Reg.ATT.STATUS_RMT_LOCKED = false ∧ (attState 1 1 1 []).sessIn ssACTIVE = [] ∧ (attState 1 1 1 []).stx.round = none
    ∧ ((attState 1 1 1 roundMem).setSess 5 (sessOf 3 true)).sessIn ssACTIVE = [5]
    ∧ (roundState (some (roundOf [5] false false))).stx.round = some (roundOf [5] false false) ∧ (roundState none).stx.round = none
    ∧ (roundState (some (roundOf [5] false false))).pkeFree 3 = true ∧ (roundState (some (roundOf [5] false false))).sessAes = true
    ∧ ((roundState (some (roundOf [5] false false))).setSched 2 { Sched.idle with running := some (reqOf .quote 3 3) }).pkeFree 3 = false
    ∧ ((roundState (some (roundOf [5] false false))).setSched 2 { Sched.idle with running := some (reqOf .quote 3 3) }).sessAes = true
    ∧ ((roundState none).wr Reg.RNG.STATUS_READY 0).sessAes = false ∧ ((roundState none).wr Reg.RNG.STATUS_READY 0).rngServes = false ∧ (roundState none).rngServes = true ∧ State.quoteFormatOk [] = false ∧ State.inSram 0 (4 * 1) = false ∧ State.inSram 0x20000000 0 = true := by decide +kernel
def roundMemAll : Mem := Mem.store 0 roundMem 0x20000024 [1]
theorem test_witness_Attestation_round : (attState 1 1 1 roundMemAll).sramLe 0x20000024 4 = 1 ∧ State.inSram ((attState 1 1 1 roundMemAll).sramLe 0x20000020 4) 4029 = true
    ∧ (attState 1 1 1 roundMemAll).ready pgATT attCmdOff = true ∧ (attState 1 1 1 roundMemAll).sessIn ssACTIVE = []
    ∧ allZero ((attState 1 1 1 roundMemAll).sramBytes 0x20000028 8) = true
    ∧ (((attState 1 1 1 roundMem).setSess 5 (sessOf 3 true)).wr Reg.RNG.STATUS_READY 1).sessAes = true ∧ ((attState 1 1 1 roundMem).setSess 5 (sessOf 3 true)).sessAes = false
    ∧ (roundOf [] true true).lost = true ∧ State.inSram 0 (624 + 3405) = false ∧ ((roundState none).wr Reg.RNG.STATUS_STATE 2).rngFailed = true
    ∧ ofSession (roundState none) (msgOf []) := by
  unfold ofSession; decide +kernel
theorem test_witness_Attestation_seal : sealState.dgeFree = true ∧ sealState.stx.sealRun = none ∧ (sealState.aesOf 0).saved = none
    ∧ ((sealState.wr (Reg.AES.STATUS_BUSY 0) 1).wr Reg.RNG.STATUS_READY 1).aesYields 0 = true ∧ (sealState.wr (Reg.AES.STATUS_BUSY 0) 1).aesYields 0 = false
    ∧ (sealState.wr Reg.PWR.STATUS_BRACE 1).dgeFree = false ∧ sealState.ready pgATT attCmdOff = true ∧ sealState.sealOpFault 0x20000000 = none ∧ sealState.aesBusy 0 = false ∧ sealState.soEngine 0x20000000 = 0
    ∧ (attState 1 1 1 sealMem).sealOpFault 0x20000000 = some atROOT_UNAVAILABLE ∧ (attState 1 1 1 []).sealOpFault 0x20000000 = some Reason.FIELD_RANGE
    ∧ (sealState.wr (Reg.AES.STATUS_BUSY 0) 1).aesBusy 0 = true ∧ (sealState.wr (Reg.AES.STATUS_BUSY 0) 1).sealOpFault 0x20000000 = none
    ∧ (sessState (sessOf 3 true)).sess 5 = sessOf 3 true ∧ (sessOf 3 true).state = ssACTIVE := by decide +kernel
/-- A state with a root, slots 2 and 3 DEFINED under it, and the CTR_DRBG in service or not. -/
def identState (ready : Nat) : State := (((attState 1 0 0 []).setSlot 2 (State.rootSlot 0 [])).setSlot 3 (State.rootSlot 0 [])).wr Reg.RNG.STATUS_READY ready
theorem wr_slot (s : State) (f : Fld) (v : Nat) : (s.wr f v).slot = s.slot := rfl
theorem wr_tag (s : State) (f : Fld) (v i : Nat) : (s.wr f v).slotTagOk i = s.slotTagOk i := rfl
theorem identState_slots (r : Nat) : (identState r).slot 2 = State.rootSlot 0 [] ∧ (identState r).slot 3 = State.rootSlot 0 [] ∧ (identState r).slot 0 = Slot.blank := by
  have a : (identState r).slot = (((attState 1 0 0 []).setSlot 2 (State.rootSlot 0 [])).setSlot 3 (State.rootSlot 0 [])).slot := wr_slot _ _ _
  rw [a]
  refine ⟨(Tbl.get_put_ne _ _ _ _ _ (by decide)).trans (Tbl.get_put_same _ _ _ _), Tbl.get_put_same _ _ _ _, ?_⟩
  exact (Tbl.get_put_ne _ _ _ _ _ (by decide)).trans (Tbl.get_put_ne _ _ _ _ _ (by decide))
theorem identState_capture (r : Nat) : (identState r).captureFault 2 = (identState r, none) ∧ (identState r).captureFault 3 = (identState r, none) := by
  obtain ⟨h2, h3, h0⟩ := identState_slots r
  have u : ∀ i, i = 2 ∨ i = 3 → (identState r).slotUsable i = true := fun i h => by
    rcases h with rfl | rfl <;> simp [State.slotUsable, h2, h3, h0, State.rootSlot, Slot.blank, slDEFINED, slIN_USE]
  constructor <;> simp [State.captureFault, State.slotTagOk, u, h2, h3, State.rootSlot, Slot.blank, slFREE, slDEFINED]
theorem test_witness_Attestation_identity : (identState 0).ready pgATT attCmdOff = true ∧ (identState 0).captureFault 2 = (identState 0, none) ∧ (identState 0).captureFault 3 = (identState 0, none)
    ∧ (identState 0).captureWaits 2 = true ∧ (identState 0).pkeFree 3 = true ∧ (identState 1).pkeFree 3 = true ∧ (identState 1).captureWaits 2 = false
    ∧ (identState 1).captureWaits 3 = false ∧ (identState 1).captureFault 2 = (identState 1, none) ∧ (identState 1).captureFault 3 = (identState 1, none)
    ∧ ((identState 1).wr Reg.RNG.STATUS_STATE 2).rngFailed = true ∧ (identState 1).rngFailed = false ∧ State.inSram 0 7586 = false
    ∧ (identState 1).rd Reg.KVT.STATUS_ROOT_SOURCE = 1 := by
  refine ⟨by decide, (identState_capture 0).1, (identState_capture 0).2, by decide, by decide, by decide, by decide, by decide, (identState_capture 1).1, (identState_capture 1).2, ?_⟩
  decide
theorem test_witness_Attestation_brace : ((identState 1).wr Reg.PWR.STATUS_BRACE 1).pkeFree 3 = false
    ∧ ((identState 1).wr Reg.PWR.STATUS_BRACE 1).captureFault 2 = ((identState 1).wr Reg.PWR.STATUS_BRACE 1, none) := by
  have k : ((identState 1).wr Reg.PWR.STATUS_BRACE 1).slotTagOk 2 = (identState 1).slotTagOk 2 := wr_tag _ _ _ _
  obtain ⟨h2, h3, h0⟩ := identState_slots 1
  have g : ((identState 1).wr Reg.PWR.STATUS_BRACE 1).slot = (identState 1).slot := wr_slot _ _ _
  have u : ((identState 1).wr Reg.PWR.STATUS_BRACE 1).slotUsable 2 = true := by
    simp [State.slotUsable, g, h2, h0, State.rootSlot, Slot.blank, slDEFINED, slIN_USE]
  refine ⟨by decide, ?_⟩
  simp [State.captureFault, k, State.slotTagOk, u, g, h2, State.rootSlot, Slot.blank, slFREE, slDEFINED]
/-- The quote of a round without partners fits at 0x20010000 (its digests are opaque). -/
def quoteState : State := roundState (some (roundOf [] true false))
theorem test_witness_Attestation_quote : State.inSram (roundOf [] true false).out ((quoteState.quoteBody (roundOf [] true false) (quoteState.verdictList (roundOf [] true false))).length + 3405) = true := by
  have v : quoteState.verdictList (roundOf [] true false) = [] := by decide +kernel
  have n : ∀ (s : State) (r : Round), r.nonce.length = 32 → (s.quoteBody r []).length = 624 := by
    intro s r h
    have a : (asciiBytes "SYVQ").length = 4 := by decide +kernel
    have d : ∀ w (x : BitVec w), (digestBytes x).length = w / 8 := fun w x => by rw [digestBytes]; exact Sys2Proof.Machine.beBytes_length _ _
    have m : s.measurementBytes.length = 48 := by simp only [State.measurementBytes, List.length_flatMap, Sys2Proof.Machine.beBytes_length]; rfl
    have q : ((List.range 6).flatMap (s.quoteHost r)).length = 336 := by
      simp only [State.quoteHost, List.length_flatMap, List.length_append, Sys2Proof.Machine.leBytes_length, d]; rfl
    have k : ((List.range 12).flatMap (fun i => beBytes 4 (s.rd (Reg.ATT.RMT_DIGEST i)))).length = 48 := by
      simp only [List.length_flatMap, Sys2Proof.Machine.beBytes_length]; rfl
    unfold State.quoteBody
    extract_lets l fl
    have v : State.verdictBytes (List.take l []) = [] := by rw [List.take_nil]; rfl
    simp only [List.length_append, Sys2Proof.Machine.leBytes_length, d, m, q, k, a, h, v, List.length_replicate, List.length_cons, List.length_nil]
  rw [v, n _ _ rfl]; rfl

/-! O58 TimeBase -/

/-- A state with UTC `off` ticks ahead of MRT `mrt`, TIME_GAP `g` and RECORDING `r`. -/
def timeState (off : Int) (mrt g r : Nat) : State :=
  let s := (upState.wr Reg.TIME.STATUS_TIME_GAP g).wr Reg.LEDG.STATUS_RECORDING r
  { s with time := { s.time with mrt := mrt, utcOffset := off } }
/-- The bytes of a TIME_SET for serial 0 with challenge 7, UTC 1000 s and a validity of 1000 ms; its keys and signatures are zero. -/
def tset : List Byte := asciiBytes "SYTS" ++ [1, 0, 0, 0] ++ List.replicate 16 0 ++ List.replicate 15 0 ++ [7] ++ leBytes 8 (1000 * 32768) ++ leBytes 4 1000
def tsetMem : Mem := Mem.store 0 [] 0x20000000 tset
/-- A state that holds challenge 7 since MRT 100 and whose authority is the TIME_SET's. -/
def applyState (off : Int) (g r : Nat) : State :=
  let s := timeState off 120 g r
  { s with sram := tsetMem, time := { s.time with challenge := some (7#128, 100) }, otp := { s.otp with backendHash := keysHash (Mem.bytes 0 tsetMem 0x20000000 State.timeSetLen) 0x38 } }
theorem test_witness_TimeBase : (timeState 0 0 1 0).ready pgTIME timeCmdOff = true ∧ (timeState 0 0 1 0).rngFailed = false ∧ (timeState 0 0 1 0).rngServes = false ∧ ((timeState 0 0 1 0).wr Reg.RNG.STATUS_READY 1).rngServes = true
    ∧ (timeState 0 0 1 0).pkeFree 2 = true ∧ ((timeState 0 0 1 0).wr Reg.PWR.STATUS_BRACE 1).pkeFree 2 = false ∧ ((timeState 0 0 1 0).wr (Hdr.ACTIVE pgLEDG) 1).active pgLEDG = true
    ∧ ((timeState 0 0 1 0).wr Reg.RNG.STATUS_STATE 2).rngFailed = true ∧ State.timeFormatOk [] = false ∧ State.timeFormatOk (Mem.bytes 0 tsetMem 0x20000000 State.timeSetLen) = true
    ∧ (timeState 0 0 1 0).otp.backendHash = 0 ∧ (timeState 0 0 1 0).brace = false ∧ (upState.wr Reg.PWR.STATUS_BRACE 1).brace = true
    ∧ State.inSram 0 State.timeSetLen = false ∧ State.inSram 0x20000000 State.timeSetLen = true
    ∧ (upState.wr Reg.LCS.STATE lcISSUED).lc = lcISSUED ∧ upState.lc ≠ lcISSUED ∧ upState.lc ≠ lcPROVISIONED ∧ State.inSram 0x20000000 48 = true ∧ State.inSram 0 48 = false
    ∧ (timeState 0 0 0 0).mrtRuns = true ∧ (timeState 0 0 0 0).gap = false ∧ (timeState 0 0 1 0).gap = true ∧ ({ upState with mode := { upState.mode with phase := .shelf } } : State).mrtRuns = false
    ∧ ((timeState 0 0 0 0).setSlew (-3)).time.slew = -3 ∧ (timeState 0 0 0 1).recording = true ∧ (timeState 0 0 0 0).power.fromVigil = false
    ∧ (timeState 0 0 0 1).ledger.overflow = none ∧ (timeState 0 0 0 1).journalUsed ≤ 40000
    ∧ ((timeState 0 0 0 1).rd Reg.TIME.LAST_DAY / 86400 + 1) * 86400 ≤ (timeState (200000 * 32768) 0 0 1).utcSecAt 0 := by decide +kernel
/-- The signatures and the key hash are opaque: where they hold, a TIME_SET passes, to be slewed, and to be stepped in a gap. -/
theorem test_witness_TimeBase_apply (g r : Nat) (off : Int) (h : bothSigsOk ((applyState off g r).sramBytes 0x20000000 State.timeSetLen) 0x38 0x83C = true) (n : (applyState off g r).otp.backendHash ≠ 0) :
    (applyState off g r).timeFault ((applyState off g r).sramBytes 0x20000000 State.timeSetLen) = none := by
  have a : State.timeFormatOk (Mem.bytes 0 tsetMem 0x20000000 State.timeSetLen) = true := by decide +kernel
  have b : digestOf 128 (slice (Mem.bytes 0 tsetMem 0x20000000 State.timeSetLen) 8 16) = 0#128 := by decide +kernel
  have c : digestOf 128 (slice (Mem.bytes 0 tsetMem 0x20000000 State.timeSetLen) 0x18 16) = 7#128 := by decide +kernel
  have d : fieldLe (Mem.bytes 0 tsetMem 0x20000000 State.timeSetLen) 0x30 4 = 1000 := by decide +kernel
  have e : (applyState off g r).sramBytes 0x20000000 State.timeSetLen = Mem.bytes 0 tsetMem 0x20000000 State.timeSetLen := rfl
  have f : (applyState off g r).otp.backendHash = keysHash (Mem.bytes 0 tsetMem 0x20000000 State.timeSetLen) 0x38 := rfl
  have i : (applyState off g r).otp.serial = 0#128 := rfl
  have j : (applyState off g r).time.challenge = some (7#128, 100) := rfl
  have k : (applyState off g r).roundTrip = 20 := rfl
  have q : ∀ (s : State) (m : List Byte), State.timeFormatOk m = true → s.otp.backendHash ≠ 0 → keysHash m 0x38 = s.otp.backendHash → bothSigsOk m 0x38 0x83C = true
      → digestOf 128 (slice m 8 16) = s.otp.serial → s.time.challenge.map Prod.fst = some (digestOf 128 (slice m 0x18 16))
      → ¬ Machine.fieldLe m 0x30 4 * 32768 < s.roundTrip * 1000 → s.timeFault m = none := by
    intro s m h1 h2 h3 h4 h5 h6 h7
    simp only [State.timeFault, h1, h3, h4, h5, h6, h7]
    simp
    exact h2
  rw [e] at h ⊢
  exact q _ _ a n f.symm h (b.trans i.symm) (by rw [j, c]; rfl) (by rw [d, k]; decide)
theorem test_witness_TimeBase_delta : (timeDelta (applyState (1000 * 32768 - 115) 0 0) (Mem.bytes 0 tsetMem 0x20000000 State.timeSetLen)).natAbs * 1000 ≤ (applyState (1000 * 32768 - 115) 0 0).cfg Reg.TIME.TIME_TOL * 32768
    ∧ (applyState 0 0 0).cfg Reg.TIME.TIME_TOL * 32768 < (timeDelta (applyState 0 0 0) (Mem.bytes 0 tsetMem 0x20000000 State.timeSetLen)).natAbs * 1000 :=
  ⟨by decide +kernel, by decide +kernel⟩

/-! O59 LedgerEvents -/

/-- A state that records, with LEDG in force, a chain key and the journal `j`. -/
def ledgState (r : Nat) (j : List JRec) : State :=
  let s := { timeState 0 100 0 r with ledger := { upState.ledger with key := some [1, 2], journal := j, speed := 5, distPulses := 9, missRun := 10, wsSilent := 5, missMax := 77 } }
  (s.wr (Hdr.ACTIVE pgLEDG) 1).setCfg Reg.LEDG.WS_FORMAT_SCALE 1
/-- A record of the activity ring. -/
def ledgRec : JRec := ⟨0, true, List.replicate 24 7⟩
/-- The same with the open page at offset 0x20 and one block in service. -/
def ledgServing : State := { (ledgState 1 [ledgRec]).setSched (State.chanRes 6) { Sched.idle with running := some ⟨.ledger, 2, 2, ledgIssuer, 0, 0, 0, []⟩ } with
  ledger := { (ledgState 1 [ledgRec]).ledger with committing := true, block := some (0, 0x04000020, List.replicate 48 3, 1) } }
theorem test_witness_LedgerEvents : (ledgState 1 []).recording = true ∧ (ledgState 1 []).cfg Reg.LEDG.WS_FORMAT_SCALE ≠ 0 ∧ (ledgState 1 []).ledger.inMiss = false
    ∧ (ledgState 1 []).cfg Reg.LEDG.MISMATCH_SECS ≤ (ledgState 1 []).ledger.missRun ∧ (ledgState 0 []).recording = false ∧ (ledgState 1 []).ledger.overflow = none
    ∧ (ledgState 1 []).journalUsed ≤ 40000 ∧ 5 ≤ (ledgState 1 []).ledger.wsSilent ∧ (ledgState 1 []).ledger.speed ≠ 0 ∧ (ledgState 1 []).ledger.lostTold = false
    ∧ ((ledgState 1 []).setLedger { (ledgState 1 []).ledger with inMiss := true, matchRun := 10 }).ledger.inMiss = true
    ∧ (ledgState 1 []).cfg Reg.LEDG.MISMATCH_SECS ≤ ((ledgState 1 []).setLedger { (ledgState 1 []).ledger with inMiss := true, matchRun := 10 }).ledger.matchRun
    ∧ (ledgState 1 [ledgRec]).ledger.key = some [1, 2] ∧ (ledgState 1 [ledgRec]).ledger.journal = [ledgRec] ∧ (ledgState 1 [ledgRec]).ledger.committing = false
    ∧ (ledgState 1 [ledgRec]).brace = false ∧ (ledgState 1 [ledgRec]).up = true ∧ (ledgState 1 [ledgRec]).active pgLEDG = true ∧ ledgRec.data.length ≤ 212
    ∧ (ledgServing.sched (State.chanRes 6)).running = some ⟨.ledger, 2, 2, ledgIssuer, 0, 0, 0, []⟩ ∧ ledgServing.ledger.debugIn = false
    ∧ (ledgServing.cmdSlot pgLEDG ledgCmdOff).running = none ∧ ledgServing.mode.phase ≠ Phase.seal ∧ State.dropRecs 0 1 [ledgRec] = []
    ∧ (ledgServing.wr Reg.PWR.STATUS_BRACE 1).brace = true ∧ ((ledgState 1 []).sched (State.chanRes 6)).running = none
    ∧ (((ledgState 1 []).setSched (State.chanRes 6) { Sched.idle with running := some ⟨.ledger, 2, 2, ledgIssuer, 1, 0, 0, []⟩ }).sched (State.chanRes 6)).running
      = some ⟨.ledger, 2, 2, ledgIssuer, 1, 0, 0, []⟩ := by decide +kernel

/-! O60 LedgerCommands -/

/-- `ledgState` in the life cycle `c`, with memory `m`, FROZEN `f`. -/
def lcState (c r : Nat) (f : Bool) (m : Mem) (j : List JRec) : State :=
  { ((ledgState r j).wr Reg.LCS.STATE c).setCfg Reg.LEDG.CONFIG_INPUT_STX 1 with sram := m, nvm := { upState.nvm with frozen := f } }
/-- An ACTIVITY input at 0x20000000 and a READ_PAGE descriptor of page 0 of the activity ring at 0x20000100. -/
def inputMem : Mem := Mem.store 0 (Mem.store 0 [] 0x20000000 [1, 4, 0, 0, 1, 3, 1, 0]) 0x20000100 [0, 0, 0, 0, 0, 0, 0, 0, 0, 0, 1, 0x20]
/-- The same with page 0 closed and page 1 open. -/
def pageState : State := (lcState lcPROVISIONED 0 false inputMem []).setRing 0 ⟨1, 0, 0x40, true, [], [], [], false⟩
/-- A thaw after a stop at MRT 3. -/
def thawState : State := let s := lcState lcFIELD 0 true inputMem []
  { s with ledger := { s.ledger with stoppedAt := some 3, stopCause := gapFROZEN, tailLost := false } }
/-- An acknowledgement whose format is right. -/
def ackMem : Mem := Mem.store 0 [] 0x20000000 [0x53, 0x59, 0x58, 0x41, 1, 0]
theorem test_witness_LedgerCommands : (lcState lcFIELD 0 false [] []).ready pgLEDG ledgCmdOff = true ∧ (lcState lcFIELD 0 true [] []).nvm.frozen = true ∧ (lcState lcFIELD 0 false [] []).nvm.frozen = false
    ∧ upState.active pgLEDG = false ∧ (lcState lcFIELD 0 false [] []).ledger.key = some [1, 2] ∧ (lcState lcFIELD 0 false [] []).active pgLEDG = true
    ∧ (lcState lcFIELD 0 false [] []).ledger.journal = [] ∧ (lcState lcFIELD 0 false [] []).ledger.committing = false ∧ (lcState lcFIELD 0 false [] []).recording = false
    ∧ (lcState lcFIELD 0 false [] [ledgRec]).ledger.journal ≠ [] ∧ (lcState lcFIELD 0 false [] [ledgRec]).brace = false ∧ (lcState lcFIELD 0 false [] []).pkeFree 2 = true ∧ ((lcState lcFIELD 0 false [] []).wr Reg.PWR.STATUS_BRACE 1).pkeFree 2 = false
    ∧ (lcState lcFIELD 0 false [] []).rngServes = false ∧ ((lcState lcFIELD 0 false [] []).wr Reg.RNG.STATUS_READY 1).rngServes = true
    ∧ ((pageState.setSched (State.chanRes 6) { Sched.idle with running := some (reqOf .readPage 3 3) }).sched (State.chanRes 6)).running = some (reqOf .readPage 3 3)
    ∧ (pageState.ring 0).isOpen = true ∧ (pageState.ring 1).isOpen = false
    ∧ thawState.ledger.stoppedAt = some 3 ∧ thawState.ledger.key = some [1, 2] ∧ thawState.ledger.stopCause = gapFROZEN ∧ thawState.ledger.tailLost = false ∧ thawState.recording = false
    ∧ thawState.power.wake = none ∧ thawState.inService = true ∧ thawState.flag Reg.DBG.DBG_STATE_LEDGER_STOPPED = false ∧ thawState.ledger.overflow = none ∧ thawState.journalUsed ≤ 40000
    ∧ (lcState lcFIELD 0 false [] []).brace = false ∧ ((lcState lcFIELD 0 false [] []).wr Reg.PWR.STATUS_BRACE 1).brace = true
    ∧ State.inSram 0 32 = false ∧ State.inSram 0x20000000 32 = true ∧ upState.sramLe 0x20000000 1 ∉ [rtACTIVITY, rtCARD, rtEVENT]
    ∧ (lcState lcFIELD 1 false inputMem []).sramBytes 0x20000004 ((lcState lcFIELD 1 false inputMem []).sramLe 0x20000001 1) = [1, 3, 1, 0]
    ∧ (lcState lcFIELD 1 false inputMem []).sramLe 0x20000002 2 = 0 ∧ (lcState lcFIELD 1 false inputMem []).cfg Reg.LEDG.CONFIG_INPUT_STX = 1 ∧ upState.cfg Reg.LEDG.CONFIG_INPUT_STX = 0
    ∧ State.inSram 0x20000100 12 = true ∧ pageState.sramLe 0x20000100 1 ≤ 1 ∧ pageState.sramLe 0x20000101 3 = 0 ∧ State.inSram (pageState.sramLe 0x20000108 4) 0x1000 = true
    ∧ (pageState.ring 0).tail ≤ pageState.sramLe 0x20000104 4 ∧ pageState.sramLe 0x20000104 4 < (pageState.ring 0).head ∧ (upState.ring 0).head ≤ 0
    ∧ State.inSram 0 State.ackLen = false ∧ State.inSram 0x20000000 State.ackLen = true ∧ upState.ackFault [] = some lgNOT_FROZEN
    ∧ slice (Mem.bytes 0 ackMem 0x20000000 State.ackLen) 0 4 = [0x53, 0x59, 0x58, 0x41] ∧ Machine.fieldLe (Mem.bytes 0 ackMem 0x20000000 State.ackLen) 4 2 = 1
    ∧ allZero (slice (Mem.bytes 0 ackMem 0x20000000 State.ackLen) 6 2) = true ∧ allZero (slice (Mem.bytes 0 ackMem 0x20000000 State.ackLen) 0x871 3) = true
    ∧ pageState.lc = lcPROVISIONED ∧ (lcState lcFIELD 0 false [] []).lc ≠ lcPROVISIONED ∧ State.inSram 0x20000000 4 = true ∧ State.inSram 0 4 = false := by decide +kernel
theorem test_witness_LedgerCommands_input : inputBody rtACTIVITY [1, 3, 1, 0] ∧ inputBody rtCARD ([0, 2, 0, 0] ++ List.replicate 24 9) ∧ inputBody rtEVENT [0, 0x80, 0, 0, 0, 0, 0, 0] := by
  refine ⟨Or.inl ?_, Or.inr (Or.inl ?_), Or.inr (Or.inr ?_)⟩ <;> decide
/-- The signatures and the key hash are opaque: where they hold, an acknowledgement of two blank rings' last pages passes. -/
theorem test_witness_LedgerCommands_ack (s : State) (m : List Byte) (f : s.nvm.frozen = true) (a : slice m 0 4 = [0x53, 0x59, 0x58, 0x41]) (b : Machine.fieldLe m 4 2 = 1)
    (c : allZero (slice m 6 2) = true) (d : allZero (slice m 0x871 3) = true) (n : s.otp.backendHash ≠ 0) (k : keysHash m 0x70 = s.otp.backendHash)
    (h : bothSigsOk m 0x70 0x874 = true) (i : digestOf 128 (slice m 8 16) = s.otp.serial) (j : s.ledger.challenge.map Prod.fst = some (digestOf 128 (slice m 0x18 16)))
    (q : Machine.fieldLe m 0x28 4 = s.headSeq 0 ∧ Machine.fieldLe m 0x2C 4 = s.headSeq 1 ∧ slice m 0x30 32 = s.flashBytes 6 0 (pageAddr 0 (s.headSeq 0) + 0xFE0) 32
      ∧ slice m 0x50 32 = s.flashBytes 6 0 (pageAddr 1 (s.headSeq 1) + 0xFE0) 32) : s.ackFault m = none := by
  simp only [State.ackFault, f, a, b, c, d, k, h, i, j, q.1, q.2.1, q.2.2.1, q.2.2.2]
  simp
  exact n

/-! WellFormed refuses an ill-formed term of each check. -/

/-- Every command of the list is refused. -/
def refusesAll (l : List Instr) : Bool := l.all (fun i => !i.wf)

/-- An address of a command register has bits 3:0 zero (R72). -/
theorem test_wf_refuses_address : refusesAll ([.apply 8, .resume 8, .lcsProgramAuth 8, .present 8, .programFields 8, .define 8,
    .chain 8, .invalidate 8, .readMeta 8, .dgeRun 0 8, .leaves 0 8, .snpArm 0 8,
    .aesRun 0 8, .wrap 0 8, .unwrap 0 8, .verify 8, .sign 8, .genkey 8,
    .ecdh 8, .pkeClear 8, .gen 8, .stageArm 0 8, .commit 0 8, .cmpRun 8,
    .fchRead 0 8, .fchProgram 0 8, .fchErase 0 8, .init 0 8, .netSend 8, .netRecv 8] ++ [.canSend 0 8, .canRecv 0 8, .fetch 8, .reply 8, .stxOpen 8, .stxSend 8,
    .stxRecv 8, .stxClose 8, .readCtx 8, .attIdentity 8, .round 8, .sealOp 8,
    .verdicts 8, .timeApply 8, .timeProgramAuth 8, .ledgInput 8, .readPage 8, .exportAck 8,
    .setOdometer 8]) = true := by decide +kernel
theorem test_wf_refuses_wide_address : refusesAll [.apply (2 ^ 32), .genkey (2 ^ 32 + 16)] = true ∧ (Instr.apply 0x20000010).wf = true := by decide
/-- Pages are below 256, offsets word-aligned and below 0x1000, values 32 bits wide (R62-R66). -/
theorem test_wf_refuses_page : refusesAll [.pageCtrlWrite 256 0, .enableCheckDone 256, .cfdWrite 256 0x840 0, .strobeArm 256, .aonApply 256, .queuedCmdStart 256 0x40,
    .pageReq 256 0 1] = true := by decide
theorem test_wf_refuses_offset : refusesAll [.cfdWrite 0 0x1000 0, .cfdWrite 0 0x842 0, .queuedCmdStart 0 0x41] = true := by decide
theorem test_wf_refuses_value : refusesAll [.pageCtrlWrite 0 (2 ^ 32), .cfdWrite 0 0x840 (2 ^ 32), .crcCommit (2 ^ 32), .registerWrite ⟨0, false, 0x40000040, 4⟩ (2 ^ 32),
    .crossDomainAccess ⟨0, false, 0x40000040, 4⟩ (some (2 ^ 32)), .pushLeaves (2 ^ 32) [], .pushData (2 ^ 32) []] = true := by decide
/-- A bus access is 1, 2, 4 or 8 bytes at a 32-bit address (R63). -/
theorem test_wf_refuses_access : refusesAll [.registerWrite ⟨0, false, 0x40000040, 3⟩ 0, .registerWrite ⟨0, false, 2 ^ 32, 4⟩ 0, .crossDomainAccess ⟨0, false, 0x40000040, 16⟩ none] = true := by decide
theorem test_wf_refuses_debug_access : refusesAll [.debugIr (.readPage 256 0), .debugIr (.readPage 0 2), .debugIr (.writePage 0 0 (2 ^ 32)), .debugIr (.vaultMeta 512),
    .debugIr (.ledgerRaw (2 ^ 32)), .debugIr (.readMailbox 4096), .debugIr (.writeMailbox 4096 0)] = true := by decide
theorem test_wf_refuses_numbers : refusesAll [.stallLimitExpiry 7, .updateStrobe 256, .tapHostCmd 16 0 0, .tapHostCmd 0 8 0, .tapHostCmd 0 0 2, .bypass 256, .ring 0 1, .ring 0 (2 ^ 32),
    .scrub [0, 512], .loadRef 0 4 0, .loadRef 0 0 512, .loadKey 0 4, .lease 256 0, .lease 0 65536, .enroll 0 2, .agePromotion 12 0, .shortWindowEnd 12 0, .shortfallDrop 12 0] = true := by decide
theorem test_wf_refuses_association : refusesAll [.saLoadRef 16 0 0, .saLoadRef 0 4 0, .saLoadRef 0 0 512, .saLoadKey 16 0, .saLoadKey 0 4, .saClear 16, .enable 16, .disable 16, .setTxAn 16] = true := by decide
theorem test_wf_refuses_session : refusesAll [.sealCloseTimeout 4096, .retxTimeout 4096, .handshakeKeysDone 4096, .sessionTimeout 4096] = true := by decide
theorem test_wf_refuses_message : refusesAll [.hello ⟨5, 0, 0, 0, true, []⟩, .helloReply ⟨0, 0, 4096, 0, true, []⟩, .keyConfirm ⟨0, 0, 0, 2 ^ 32, true, []⟩, .close ⟨5, 0, 0, 0, true, []⟩,
    .quote ⟨0, 0, 4096, 0, true, []⟩] = true := by decide
/-- A session message carries at most 16 KiB (R421); a payload of the mailbox, a push piece, a token, a write of the management
port and a chunk have their greatest lengths. -/
theorem test_wf_refuses_long : (∀ l : List Byte, (Instr.quote ⟨0, 0, 0, 0, true, l⟩).wf = decide (l.length ≤ 16384))
    ∧ (∀ l : List Byte, (Instr.milestone l).wf = decide (l.length ≤ 4080) ∧ (Instr.stxFrame l).wf = decide (l.length ≤ 4080) ∧ (Instr.ledgerInput l).wf = decide (l.length ≤ 4080))
    ∧ (∀ l : List Byte, (Instr.pushLeaves 0 l).wf = decide (l.length ≤ 3584) ∧ (Instr.pushData 0 l).wf = decide (l.length ≤ 3584) ∧ (Instr.pushManifest l).wf = decide (l.length ≤ 0x10000))
    ∧ (∀ l : List Byte, (Instr.grantLoad l).wf = decide (l.length ≤ 6144) ∧ (Instr.tapResume l).wf = decide (l.length ≤ 6144) ∧ (Instr.writeMbox 0 l).wf = decide (l.length ≤ 65536))
    ∧ (∀ l : List Byte, (Instr.romImageChunk .net0 ⟨0, 0, 0, 0, l⟩).wf = decide (l.length ≤ 1960)) := by
  refine ⟨fun l => ?_, fun l => ?_, fun l => ?_, fun l => ?_, fun l => ?_⟩ <;>
    simp [Instr.wf, StxMessage.wf, ImageChunk.wf, word]
theorem test_wf_refuses_long_data (l : List Byte) (h : l.length = 65537) : refusesAll [.quote ⟨0, 0, 0, 0, true, l⟩, .milestone l, .stxFrame l, .ledgerInput l, .pushLeaves 0 l,
    .pushData 0 l, .pushManifest l, .grantLoad l, .tapResume l, .writeMbox 0 l, .romImageChunk .net0 ⟨0, 0, 0, 0, l⟩] = true := by
  simp [refusesAll, Instr.wf, StxMessage.wf, ImageChunk.wf, h]
theorem test_wf_long_data_exists : ∃ l : List Byte, l.length = 65537 := ⟨List.replicate 65537 0, List.length_replicate⟩
theorem test_wf_refuses_chunk : refusesAll [.romImageChunk .net0 ⟨0, 256, 0, 0, []⟩, .romImageChunk .can0 ⟨0, 0, 0, 2 ^ 32, []⟩] = true := by decide
theorem test_wf_refuses_frame : refusesAll [.frameReceived 0 ⟨64, 2 ^ 48, 0, true, false, 0, none, 0, []⟩, .frameReceived 0 ⟨64, 0, 2 ^ 48, true, false, 0, none, 0, []⟩,
    .frameReceived 0 ⟨64, 0, 0, true, false, 0, none, 65536, []⟩, .frameReceived 0 ⟨64, 0, 0, true, false, 0, some ⟨0, 2 ^ 64, 0, [], 0⟩, 0, []⟩,
    .frameReceived 0 ⟨64, 0, 0, true, false, 0, some ⟨0, 0, 2 ^ 64, [], 0⟩, 0, []⟩, .canFrameReceived 0 ⟨false, 2 ^ 11, []⟩, .canFrameReceived 0 ⟨true, 2 ^ 29, []⟩,
    .canFrameReceived 0 ⟨true, 0, List.replicate 65 0⟩] = true := by decide
theorem test_wf_refuses_port : refusesAll [.writeMbox 65536 [], .readMbox 65536 0, .readMbox 0 65536, .pageReq 0 65536 1, .pageReq 0 0 256, .unknownOpcode 256,
    .hostTransaction 0 ⟨0, false, false, 0, 2 ^ 32, 0, [], []⟩, .cloveSample ⟨false, false, false, false, false, false, 1024, 0⟩, .cloveSample ⟨false, false, false, false, false, false, 0, 1024⟩] = true := by decide

/-! Figures that the spec works out. -/

/-- F3 of the reference tractor: D_READ 371.0 MB/s and t1K 2,920 ns (R347, R348). -/
theorem test_figures_f3 : (State.dReadOf 20 200 3 true 10).1 * 10 / (State.dReadOf 20 200 3 true 10).2 = 3710 ∧ State.t1kOf 20 200 3 true 10 16 = 2920 := by decide
/-- F1 (1S-4S-4S, 104 MHz, four address bytes, L 8): 50.6 MB/s (worked case of chapter 12). -/
theorem test_figures_f1 : ((State.dReadOf 20 104 1 true 8).1 * 20 / (State.dReadOf 20 104 1 true 8).2 + 1) / 2 = 506 := by decide
/-- SPEED_TOL 0-3 is 0, 8, 16 and 32 in 1/16 km/h (R473). -/
theorem test_speed_tolerance : [0, 1, 2, 3].map tolOf = [0, 8, 16, 32] := by decide
/-- Boundaries from 2000-01-01: the first Monday, the first months, leap day included, and METER_ANCHOR + k × DAYS (R448). -/
theorem test_period_boundaries : PeriodRule.next .week 0 = 172800 ∧ PeriodRule.next .month 0 = 31 * 86400 ∧ PeriodRule.next .month (31 * 86400) = 60 * 86400
    ∧ PeriodRule.floor .month (366 * 86400 + 5) = 366 * 86400 ∧ PeriodRule.next (.every (30 * 86400) 1000) 1000 = 1000 + 30 * 86400 := by decide
/-- Page 2048 of the activity ring lies where page 0 did; the speed ring begins at 0x0480_0000 (R454). -/
theorem test_ring_pages : pageAddr 0 2048 = 0x04000000 ∧ pageAddr 0 1 = 0x04001000 ∧ pageAddr 1 0 = 0x04800000 ∧ pageAddr 1 14335 = 0x07FFF000 := by decide

/-! Single steps. -/

/-- The step of a command. -/
def stepOf (s : State) (i : Instr) : State := nextOr s (step { s with pending := [i] })

/-- An empty queue is one tick of MRT (R439); a command is taken off the queue. -/
theorem test_step_idle : (nextOr upState (step upState)).time.mrt = 1 ∧ (stepOf upState .wdtKick).pending = [] := by decide
/-- After an always-on reset TIME_GAP is 1 and UTC reads all ones (R54, R441). -/
theorem test_step_always_on : (stepOf upState .alwaysOnReset).gap = true := by decide +kernel
/-- The FIELD_RANGE refusal of a misplaced descriptor is recorded with the offset of CMD (R83). -/
theorem test_step_refusal : (stepOf upState (.sign 0)).rd (Hdr.REASON_CODE pgPKE) = 0x2701 ∧ (stepOf upState (.sign 0)).rd (Hdr.REASON_OFFSET pgPKE) = 0x44 := by decide +kernel
/-- A second command waits, a third is lost (R72). -/
theorem test_step_queue : ((stepOf (upState.cmdStart pgPKE 0x44 (.genkey 0)) (.sign 16)).cmdSlot pgPKE 0x44).queued = some (.sign 16) := by decide +kernel
/-- FREEZE without LEDG in force is refused; SET_ODOMETER is refused outside PROVISIONED (R466, R475). -/
theorem test_step_ledger : (stepOf upState .freeze).nvm.frozen = false ∧ (stepOf upState (.setOdometer 0x20000000)).nvm.odometer = 0 := by decide +kernel
/-- A TIME_SET of zeros has no magic: FIELD_RANGE, code 0x01 of page 0x29 (R83, R444). -/
theorem test_step_time : (stepOf upState (.timeApply 0x20000000)).rd (Hdr.REASON_CODE pgTIME) = pgTIME * 256 + Reason.FIELD_RANGE := by decide +kernel
/-- SLEW_TICK moves UTC_OFFSET by one tick towards the target (R446). -/
theorem test_step_slew : (stepOf ((timeState 5 9 0 0).setSlew (-3)) .slewTick).time.utcOffset = 4 ∧ (stepOf ((timeState 5 9 0 0).setSlew 3) .slewTick).time.utcOffset = 6 := by decide +kernel
/-- No row of the table gives bits, so no word spells a command. -/
theorem test_decode_none : decodeTableWord 32 0 = none ∧ State.reset.withFetchWord 32 0 = State.reset := by decide

end Sys2Proof.Tests
end

section
/-! SUPPORT. What ending the work for a host, a draw of the CTR_DRBG and a new vault epoch leave alone (R40, R185, R252). A lemma
`Quiet.f` takes "`s` is reached quietly" to "so is what `f` makes of `s`", so that a proof chains them in the order of the model's text. -/

namespace Sys2Proof.Machine

/-- What work for a host, and a hold, leave alone: the memories, OTP, NVM, CFG, the supplies, the mode, the ledger and the time
base; and no port has a state where none had one. -/
structure Still (s t : State) : Prop where
  stores : sameStores s t
  cfg : sameCfg s t
  power : t.power = s.power
  mode : t.mode = s.mode
  ledger : t.ledger = s.ledger
  time : t.time = s.time
  noPorts : s.ports = [] → t.ports = []

namespace Still

variable {s0 s t : State}

theorem refl (s : State) : Still s s := ⟨sameStores_refl s, sameCfg_refl s, rfl, rfl, rfl, rfl, id⟩

theorem trans (h : Still s0 s) (k : Still s t) : Still s0 t :=
  ⟨sameStores_trans h.stores k.stores, sameCfg_trans h.cfg k.cfg, k.power.trans h.power, k.mode.trans h.mode,
    k.ledger.trans h.ledger, k.time.trans h.time, fun hp => k.noPorts (h.noPorts hp)⟩

theorem wr {f : Fld} {v : Nat} (h : Still s0 s) : Still s0 (s.wr f v) := h.trans ⟨sameStores_wr s f v, sameCfg_wr s f v, rfl, rfl, rfl, rfl, id⟩

theorem foldl {α : Type} {f : State → α → State} {l : List α} (h : Still s0 s)
    (hf : ∀ {u : State} {x : α}, Still s0 u → Still s0 (f u x)) : Still s0 (l.foldl f s) :=
  List.foldlRecOn l f h fun _ k _ _ => hf k

end Still

/-- What work inside the main domain leaves alone besides: the always-on registers, where the states of the hosts lie. -/
structure Quiet (s t : State) : Prop extends Still s t where
  aon : t.regs.aon = s.regs.aon

namespace Quiet

variable {s0 s t : State}

theorem refl (s : State) : Quiet s s := ⟨Still.refl s, rfl⟩

theorem trans (h : Quiet s0 s) (k : Quiet s t) : Quiet s0 t := ⟨h.toStill.trans k.toStill, k.aon.trans h.aon⟩

/-- A write of a register field that lies outside the always-on domain. -/
theorem wr {f : Fld} {v : Nat} (h : Quiet s0 s) (hf : f.dom ≠ .aon := by nofun) : Quiet s0 (s.wr f v) :=
  ⟨h.toStill.wr, ((State.live_setLive s.regs f.dom .aon _).trans (if_neg hf)).trans h.aon⟩

theorem ite {a b : State} {p : Prop} {_ : Decidable p} (ha : Quiet s0 a) (hb : Quiet s0 b) :
    Quiet s0 (if p then a else b) := by
  split <;> assumption

theorem foldl {α : Type} {f : State → α → State} {l : List α} (h : Quiet s0 s)
    (hf : ∀ {u : State} {x : α}, Quiet s0 u → Quiet s0 (f u x)) : Quiet s0 (l.foldl f s) :=
  List.foldlRecOn l f h fun _ k _ _ => hf k

/-- Engines, queues, channels, lanes, host records, command slots, the vault, Clove and the free source are none of what stays. -/
theorem engines {d : Tbl DgeSt} {n : Tbl SnpSt} {q : Tbl Sched} {c : Tbl Chan} {r : Tbl HostSt} {i : Tbl CmdSlot} {m : CmpSt}
    {v : VaultSt} {g : RngSt} {l : Clove} {k : Nat} (h : Quiet s0 s) :
    Quiet s0 { s with dge := d, snp := n, scheds := q, chans := c, hosts := r, cmds := i, cmp := m, vault := v, rng := g, clove := l, free := k } :=
  ⟨h.toStill.trans ⟨⟨rfl, rfl, rfl, rfl, rfl, rfl, rfl⟩, ⟨rfl, rfl, rfl, rfl, rfl⟩, rfl, rfl, rfl, rfl, id⟩, h.aon⟩

theorem setDge {n : Nat} {d : DgeSt} (h : Quiet s0 s) : Quiet s0 (s.setDge n d) := h.engines
theorem setSnp {n : Nat} {d : SnpSt} (h : Quiet s0 s) : Quiet s0 (s.setSnp n d) := h.engines
theorem setSched {x : Nat} {d : Sched} (h : Quiet s0 s) : Quiet s0 (s.setSched x d) := h.engines
theorem setChan {c : Nat} {d : Chan} (h : Quiet s0 s) : Quiet s0 (s.setChan c d) := h.engines
theorem setHost {n : Nat} {d : HostSt} (h : Quiet s0 s) : Quiet s0 (s.setHost n d) := h.engines
theorem cmdEnd {p off : Nat} (h : Quiet s0 s) : Quiet s0 (s.cmdEnd p off) := h.engines

theorem releaseDge {n : Nat} (h : Quiet s0 s) : Quiet s0 (s.releaseDge n) := by
  unfold State.releaseDge
  exact ite h.setDge.wr h.setDge.wr

theorem dropReqs {x : Nat} {p : Req → Bool} (h : Quiet s0 s) : Quiet s0 (s.dropReqs x p) := by
  unfold State.dropReqs
  dsimp only
  refine ite h.setSched ?_
  split
  · exact ite h.setSched.setChan.wr h.setSched
  · exact h.setSched

theorem pumpPke (h : Quiet s0 s) : Quiet s0 s.pumpPke := by
  unfold State.pumpPke
  dsimp only
  refine ite h ?_
  split <;> exact h.setSched

theorem givePins {c : Nat} (h : Quiet s0 s) : Quiet s0 (s.givePins c) := ite h.wr.wr h.wr

theorem takePins {c : Nat} (h : Quiet s0 s) : Quiet s0 (s.takePins c) := ite h.wr.wr h.wr

theorem chanRest {c : Nat} (h : Quiet s0 s) : Quiet s0 (s.chanRest c) := ite h.wr h.wr.givePins

theorem pumpCh {c : Nat} (h : Quiet s0 s) : Quiet s0 (s.pumpCh c) := by
  unfold State.pumpCh
  dsimp only
  refine ite h ?_
  split
  · split
    · exact ite h.setSched.chanRest h.setSched.setChan.wr
    · exact h.setSched.chanRest
  · exact ite h (ite h.setSched.wr h.setSched).takePins.wr

theorem dropIssuer {n : Nat} {ks : List ReqKind} (h : Quiet s0 s) : Quiet s0 (s.dropIssuer n ks) :=
  h.foldl fun k => ite k.dropReqs.pumpCh k

theorem setLaneI {n m : Nat} (h : Quiet s0 s) : Quiet s0 (s.setLaneI n m) := h.setSnp.wr.wr

theorem gateEnd {n : Nat} (h : Quiet s0 s) : Quiet s0 (s.gateEnd n) := by
  unfold State.gateEnd
  split
  · exact h
  · exact (h.foldl releaseDge).setHost.setLaneI.dropReqs.pumpPke.dropIssuer

theorem pkeLeave {n : Nat} (h : Quiet s0 s) : Quiet s0 (s.pkeLeave n) := h.dropReqs.pumpPke

/-- A refusal on a page is two writes of its header, which lies in CLK_SYS (R68). -/
theorem refuse {p c off : Nat} (h : Quiet s0 s) : Quiet s0 (s.refuse p c off) := h.wr.wr

theorem readEnd {n : Nat} (h : Quiet s0 s) : Quiet s0 (s.readEnd n) := by
  unfold State.readEnd
  split
  · exact h
  · have k := (h.setHost (n := n) (d := { s.host n with read := none })).pkeLeave (n := n)
    exact (ite k.refuse.cmdEnd (ite k.refuse.cmdEnd k)).dropIssuer

theorem restoreEnd {n : Nat} (h : Quiet s0 s) : Quiet s0 (s.restoreEnd n) := by
  unfold State.restoreEnd
  split
  · exact h
  · next r _ =>
    have k : Quiet s0 (match r.engine with | some e => s.releaseDge e | none => s) := by
      split
      · exact h.releaseDge
      · exact h
    exact (ite k.setHost.pkeLeave.engines.wr k.setHost.pkeLeave).dropIssuer

/-- With no transaction on any port there is no first touch to cut. -/
theorem touchEnd {n : Nat} (h : Quiet s0 s) : Quiet s0 (s.touchEnd n) := by
  refine h.trans ?_
  unfold State.touchEnd
  split
  · next l hl =>
    have someLive : s.ports ≠ [] := fun hp => by simp [State.port, hp, Port.idle] at hl
    refine ite ⟨⟨⟨rfl, rfl, rfl, rfl, rfl, rfl, rfl⟩, ⟨rfl, rfl, rfl, rfl, rfl⟩, rfl, rfl, rfl, rfl, fun hp => ?_⟩, rfl⟩ (refl s)
    exact absurd hp someLive
  · exact refl s

theorem hostWorkEnd {n : Nat} (h : Quiet s0 s) : Quiet s0 (s.hostWorkEnd n) :=
  h.gateEnd.restoreEnd.readEnd.touchEnd.setHost.setLaneI.dropIssuer

/-- Drawing from the CTR_DRBG reseeds it at most (R252). -/
theorem draw {n : Nat} (h : Quiet s0 s) : Quiet s0 (s.draw n).1 := (ite h.wr.engines h : Quiet s0 (if _ then s.reseed else s)).engines

theorem epochKeys (h : Quiet s0 s) : Quiet s0 s.epochKeys := by
  unfold State.epochKeys
  exact ite h h.draw.engines

theorem vaultEpoch (h : Quiet s0 s) : Quiet s0 s.vaultEpoch := h.engines.wr.wr.wr.epochKeys

theorem seedLoopsAttach (h : Quiet s0 s) : Quiet s0 s.seedLoopsAttach := by
  unfold State.seedLoopsAttach
  exact ite h.draw.engines h

end Quiet
end Sys2Proof.Machine
end

section
/-! SUPPORT. What the zeroisation of step 5 of SEAL (R56) and the loss of the main domain (R17, R41, R463) leave, chained as above. -/

namespace Sys2Proof.Machine

/-- What outlasts a zeroisation and the loss of the main domain: OTP, the retention SRAM and the supplies, and the flash devices where no
ledger block is being programmed (R463). -/
structure Outlasts (s t : State) : Prop where
  otp : t.otp = s.otp
  retention : t.retention = s.retention
  power : t.power = s.power
  flash : s.ledger.block = none → t.ledger.block = none ∧ t.flash = s.flash

namespace Outlasts

variable {s0 s t : State}

theorem refl (s : State) : Outlasts s s := ⟨rfl, rfl, rfl, fun h => ⟨h, rfl⟩⟩

theorem trans (h : Outlasts s0 s) (k : Outlasts s t) : Outlasts s0 t :=
  ⟨k.otp.trans h.otp, k.retention.trans h.retention, k.power.trans h.power, fun hb =>
    have ⟨hs, hf⟩ := h.flash hb
    ⟨(k.flash hs).1, (k.flash hs).2.trans hf⟩⟩

theorem quiet (h : Outlasts s0 s) (k : Quiet s t) : Outlasts s0 t :=
  h.trans ⟨k.stores.otp, k.stores.retention, k.power, fun hb => ⟨k.ledger ▸ hb, k.stores.flash⟩⟩

theorem ite {a b : State} {p : Prop} {_ : Decidable p} (ha : Outlasts s0 a) (hb : Outlasts s0 b) :
    Outlasts s0 (if p then a else b) := by
  split <;> assumption

theorem foldl {α : Type} {f : State → α → State} {l : List α} (h : Outlasts s0 s)
    (hf : ∀ {u : State} {x : α}, Outlasts s0 u → Outlasts s0 (f u x)) : Outlasts s0 (l.foldl f s) :=
  List.foldlRecOn l f h fun _ k _ _ => hf k

/-- Registers, engines, sessions, internal NVM and the free source are none of what stays. -/
theorem volatile {rf : RegFile} {d : Tbl DgeSt} {n : Tbl SnpSt} {q : Tbl Sched} {r : Tbl HostSt} {i : Tbl CmdSlot} {v : VaultSt}
    {g : RngSt} {a : Tbl AesSt} {p : PkeSt} {e : Tbl (BitVec 384)} {x : StxSt} {sa : Tbl Sa} {l : Tbl Lane} {w : List Deferred} {m : Nvm}
    {c : Tbl Chan} {k : Nat} (h : Outlasts s0 s) :
    Outlasts s0 { s with
      regs := rf, dge := d, snp := n, scheds := q, hosts := r, cmds := i, vault := v, rng := g, aes := a, pke := p, ecdhOut := e, stx := x,
      sas := sa, lanes := l, deferred := w, nvm := m, chans := c, free := k } :=
  ⟨h.otp, h.retention, h.power, h.flash⟩

theorem wr {f : Fld} {v : Nat} (h : Outlasts s0 s) : Outlasts s0 (s.wr f v) := h.volatile

theorem bump {f : Fld} (h : Outlasts s0 s) : Outlasts s0 (s.bump f) := h.wr

theorem setHost {n : Nat} {x : HostSt} (h : Outlasts s0 s) : Outlasts s0 (s.setHost n x) := h.volatile

theorem setDge {n : Nat} {x : DgeSt} (h : Outlasts s0 s) : Outlasts s0 (s.setDge n x) := h.volatile

theorem setAes {e : Nat} {x : AesSt} (h : Outlasts s0 s) : Outlasts s0 (s.setAes e x) := h.volatile

theorem setSlot {n : Nat} {x : Slot} (h : Outlasts s0 s) : Outlasts s0 (s.setSlot n x) := h.volatile

theorem setSched {n : Nat} {x : Sched} (h : Outlasts s0 s) : Outlasts s0 (s.setSched n x) := h.volatile

theorem setChan {n : Nat} {x : Chan} (h : Outlasts s0 s) : Outlasts s0 (s.setChan n x) := h.volatile

theorem setLane {n : Nat} {x : Lane} (h : Outlasts s0 s) : Outlasts s0 (s.setLane n x) := h.volatile

theorem cmdEnd {p off : Nat} (h : Outlasts s0 s) : Outlasts s0 (s.cmdEnd p off) := h.volatile

theorem refuse {p c off : Nat} (h : Outlasts s0 s) : Outlasts s0 (s.refuse p c off) := h.wr.wr

theorem raise {p b : Nat} (h : Outlasts s0 s) : Outlasts s0 (s.raise p b) := h.wr

/-! Hosts and channels -/

theorem hostWorkEnd {n : Nat} (h : Outlasts s0 s) : Outlasts s0 (s.hostWorkEnd n) := h.quiet (Quiet.refl s).hostWorkEnd

theorem dropReqs {x : Nat} {p : Req → Bool} (h : Outlasts s0 s) : Outlasts s0 (s.dropReqs x p) := h.quiet (Quiet.refl s).dropReqs

theorem pumpPke (h : Outlasts s0 s) : Outlasts s0 s.pumpPke := h.quiet (Quiet.refl s).pumpPke

theorem pumpCh {c : Nat} (h : Outlasts s0 s) : Outlasts s0 (s.pumpCh c) := h.quiet (Quiet.refl s).pumpCh

theorem releaseDge {n : Nat} (h : Outlasts s0 s) : Outlasts s0 (s.releaseDge n) := h.quiet (Quiet.refl s).releaseDge

theorem enqueue {x : Nat} {r : Req} (h : Outlasts s0 s) : Outlasts s0 (s.enqueue x r) := by
  unfold State.enqueue
  dsimp only
  refine ite h.setSched (pumpCh ?_)
  split
  · exact ite h.setSched.setChan.bump h.setSched
  · exact h.setSched

theorem ladder5 {n : Nat} (h : Outlasts s0 s) : Outlasts s0 (s.ladder5 n) := ite h.wr.wr h

theorem ladder4 {n : Nat} (h : Outlasts s0 s) : Outlasts s0 (s.ladder4 n) := ite h.wr.setHost.enqueue h.ladder5

theorem ladder3 {n : Nat} (h : Outlasts s0 s) : Outlasts s0 (s.ladder3 n) := ite h.wr.wr.wr.wr.wr.wr h.ladder4

theorem ladder {n l : Nat} (h : Outlasts s0 s) : Outlasts s0 (s.ladder n l) := ite h.ladder3 (ite h.ladder4 (ite h.ladder5 h))

theorem voidRec {n sl : Nat} (h : Outlasts s0 s) : Outlasts s0 (s.voidRec n sl) := ite h.volatile (ite h.volatile h)

theorem hostFail {n r : Nat} (h : Outlasts s0 s) : Outlasts s0 (s.hostFail n r) :=
  (ite h.hostWorkEnd.wr.wr.raise.raise.setHost.voidRec h.hostWorkEnd.wr.wr.raise.raise.setHost).ladder

/-- By the fuel: each round starts one verification, or takes one host that finds no record off the list. -/
theorem gateKick {fuel : Nat} (h : Outlasts s0 s) : Outlasts s0 (s.gateKick fuel).1 := by
  induction fuel generalizing s with
  | zero => exact h
  | succ fuel ih =>
    unfold State.gateKick
    split
    · exact h
    · split
      · exact h
      · split
        · exact ih (h.wr.foldl fun k => k.wr.wr).setHost.enqueue
        · exact ih h.setHost

theorem hostFailed {n r : Nat} (h : Outlasts s0 s) : Outlasts s0 (s.hostFailed n r) := h.hostFail.gateKick.foldl hostFail

theorem restoreFail {n : Nat} (h : Outlasts s0 s) : Outlasts s0 (s.restoreFail n) :=
  (h.quiet (Quiet.refl s).readEnd.restoreEnd).wr.raise.ladder5

/-! The engines that a zeroisation ends (R231) -/

theorem slotRelease {o : Option Nat} (h : Outlasts s0 s) : Outlasts s0 (s.slotRelease o) := by
  unfold State.slotRelease
  split
  · exact h
  · exact ite h h.setSlot

theorem dgeIdle {n : Nat} (h : Outlasts s0 s) : Outlasts s0 (s.dgeIdle n) := h.slotRelease.setDge.wr.wr.wr.cmdEnd

theorem dgeClearResults {n : Nat} (h : Outlasts s0 s) : Outlasts s0 (s.dgeClearResults n) := (h.foldl wr).wr.wr

theorem revokedEnd {p c off : Nat} (h : Outlasts s0 s) : Outlasts s0 (s.revokedEnd p c off) := h.wr.wr.raise.bump

theorem seqLost {n : Nat} (h : Outlasts s0 s) : Outlasts s0 (s.seqLost n) := by
  unfold State.seqLost
  have cleared : Outlasts s0 (if s.flag (Reg.DGE.STATUS_SAVED n) then s else (s.dgeClearResults n).refuse (pgDGE n) dgCONTEXT_LOST 0x44) :=
    ite h h.dgeClearResults.refuse
  split
  · exact h
  · dsimp only
    split
    · exact cleared.hostFailed
    · exact ite cleared.restoreFail cleared.releaseDge
    · exact cleared.releaseDge

theorem fwLost {n : Nat} (h : Outlasts s0 s) : Outlasts s0 (s.fwLost n) :=
  ite h (ite h.dgeClearResults.dgeIdle.revokedEnd h.dgeClearResults.dgeIdle.refuse).wr

theorem dgeLost {n : Nat} (h : Outlasts s0 s) : Outlasts s0 (s.dgeLost n) := h.seqLost.fwLost

theorem showDkr {e : Nat} {k : Dkr} (h : Outlasts s0 s) : Outlasts s0 (s.showDkr e k) := h.setAes.wr.wr.wr.wr

theorem revokeOps {gone : Nat → Bool} {r : Nat} (h : Outlasts s0 s) : Outlasts s0 (s.revokeOps gone r) :=
  h.volatile.foldl fun k => ite (ite k.setAes k.showDkr) k

theorem aesSavedGone {gone : Nat → Bool} (h : Outlasts s0 s) : Outlasts s0 (s.aesSavedGone gone) := by
  refine h.foldl fun k => ?_
  split
  · exact ite k.setAes.wr.wr.wr.wr.raise.revokedEnd k
  · exact k

/-! Keys and sessions (R132, R185) -/

theorem setKeyReg {r : Nat} {x : KeyReg} (h : Outlasts s0 s) : Outlasts s0 (s.setKeyReg r x) := h.volatile

theorem keyRegsGone {gone : Nat → Bool} (h : Outlasts s0 s) : Outlasts s0 (s.keyRegsGone gone) := by
  refine h.foldl fun k => ?_
  split
  · exact ite k.setKeyReg k
  · exact k

theorem savedDkrGone {gone : Nat → Bool} (h : Outlasts s0 s) : Outlasts s0 (s.savedDkrGone gone) := by
  unfold State.savedDkrGone
  split
  · split
    · exact ite h.volatile h
    · exact h
  · exact h

theorem setSa {x : Nat} {a : Sa} (h : Outlasts s0 s) : Outlasts s0 (s.setSa x a) := h.volatile

theorem saRevoke {gone : Nat → Bool} (h : Outlasts s0 s) : Outlasts s0 (s.saRevoke gone) :=
  h.foldl fun k => ite k (ite k.setSa.setLane k.setSa.wr.wr.raise)

theorem sakLost {x : Nat} (h : Outlasts s0 s) : Outlasts s0 (s.sakLost x) := ite h.setSa h

theorem roundLeave {i : Nat} (h : Outlasts s0 s) : Outlasts s0 (s.roundLeave i) := by
  have verdict : Outlasts s0 (s.roundVerdict i vdNO_QUOTE) := by
    unfold State.roundVerdict
    split
    · exact h
    · exact h.volatile
  unfold State.roundLeave
  split
  · exact h
  · exact ite h verdict

theorem setSess {i : Nat} {c : Sess} (h : Outlasts s0 s) : Outlasts s0 (s.setSess i c) := h.volatile

theorem toIdle {i c : Nat} (h : Outlasts s0 s) : Outlasts s0 (s.toIdle i c) := by
  have k : Outlasts s0 (match (s.sess i).ephReg with
      | some r => (s.roundLeave i).setKeyReg r KeyReg.empty
      | none => s.roundLeave i) := by
    split
    · exact h.roundLeave.setKeyReg
    · exact h.roundLeave
  exact ite h (ite k.volatile.setSess.raise k.volatile.setSess).dropReqs.pumpPke

theorem identityLost (h : Outlasts s0 s) : Outlasts s0 s.identityLost := by
  have k : Outlasts s0 ((s.wr Reg.ATT.STATUS_IDENTITY_READY 0).allIdle sxKEY_LOST) := h.wr.foldl toIdle
  unfold State.identityLost
  dsimp only
  split
  · exact k.volatile
  · exact k

/-- The ledger's key goes; a block that is being programmed stays. -/
theorem keyLost (h : Outlasts s0 s) : Outlasts s0 s.keyLost :=
  ite (raise (wr ⟨h.otp, h.retention, h.power, h.flash⟩)) h

theorem laneEnd {c : Nat} (h : Outlasts s0 s) : Outlasts s0 (s.laneEnd c) := ite h h.volatile

theorem laneGo {u : Nat} (h : Outlasts s0 s) : Outlasts s0 (s.laneGo u) :=
  ite h (ite h.dropReqs.laneEnd.cmdEnd.raise.pumpCh h.pumpCh)

theorem lanesGo (h : Outlasts s0 s) : Outlasts s0 s.lanesGo := h.foldl laneGo

theorem vaultEpoch (h : Outlasts s0 s) : Outlasts s0 s.vaultEpoch := h.quiet (Quiet.refl s).vaultEpoch

/-- Step 5 of SEAL (R56): what depends on keys goes, to the SAK registers, then the session memory, the identity and the vault. -/
theorem zeroiseEpoch (h : Outlasts s0 s) : Outlasts s0 s.zeroiseEpoch := by
  unfold State.zeroiseEpoch
  dsimp only
  generalize hu : (List.range 16).foldl State.sakLost _ = u
  have k : Outlasts s0 u := by
    rw [← hu]
    exact foldl (aesSavedGone (savedDkrGone (keyRegsGone (saRevoke (foldl (foldl h.revokeOps dgeLost) showDkr))))) sakLost
  refine vaultEpoch (identityLost (keyLost (lanesGo ?_)))
  split
  · exact k.volatile
  · exact k.volatile

/-! The ledger at a loss of the main domain (R463) -/

theorem setLedger {l : LedgerSt} (h : Outlasts s0 s) (hb : l.block = s.ledger.block := by rfl) : Outlasts s0 (s.setLedger l) :=
  h.trans ⟨rfl, rfl, rfl, fun hs => ⟨hb.trans hs, rfl⟩⟩

theorem setJournal {j : List JRec} (h : Outlasts s0 s) : Outlasts s0 (s.setJournal j) := ite h.setLedger.wr.raise h.setLedger.wr

theorem putItem {r m : Nat} {u : Bool} {d : List Byte} (h : Outlasts s0 s) : Outlasts s0 (s.putItem r u m d) := by
  unfold State.putItem
  split
  · exact ite h.setLedger h.setJournal
  · exact ite h h.setJournal.setLedger

theorem knot {t v : Nat} (h : Outlasts s0 s) : Outlasts s0 (s.knot t v) := h.putItem.setLedger

theorem minuteEnd (h : Outlasts s0 s) : Outlasts s0 s.minuteEnd := by
  unfold State.minuteEnd
  split
  · exact (ite h.putItem h).setLedger
  · exact h

theorem coderBreak (h : Outlasts s0 s) : Outlasts s0 s.coderBreak := by
  have flushed : Outlasts s0 s.coderFlush := ite h.knot h
  exact (ite flushed.minuteEnd flushed).setLedger

theorem recordFall (h : Outlasts s0 s) : Outlasts s0 s.recordFall := h.coderBreak.wr.setLedger

/-- Only a block that is being programmed is torn. -/
theorem blockTorn (h : Outlasts s0 s) : Outlasts s0 s.blockTorn := by
  refine h.trans ?_
  unfold State.blockTorn
  split
  · next hb =>
    refine ⟨?_, ?_, ?_, fun hs => by rw [hs] at hb; cases hb⟩ <;> (dsimp only; split <;> rfl)
  · exact (refl s).setLedger

theorem ledgerOff (h : Outlasts s0 s) : Outlasts s0 s.ledgerOff := (ite h.recordFall h).blockTorn.setLedger

end Outlasts

/-- The main domain has lost what it held (R17, R41): its memories are empty and no port keeps a policy; what outlasts it stays. -/
structure Dark (s t : State) : Prop where
  outlasts : Outlasts s t
  sram : t.sram = []
  tcm : t.tcm = []
  ports : t.ports = []

theorem Dark.quiet {s t u : State} (h : Dark s t) (k : Quiet t u) : Dark s u :=
  ⟨h.outlasts.quiet k, k.stores.sram.trans h.sram, k.stores.tcm.trans h.tcm, k.noPorts h.ports⟩

theorem Dark.modeTime {s t : State} {m : ModeSt} {x : TimeSt} (h : Dark s t) : Dark s { t with mode := m, time := x } :=
  ⟨⟨h.outlasts.otp, h.outlasts.retention, h.outlasts.power, h.outlasts.flash⟩, h.sram, h.tcm, h.ports⟩

/-- The epoch that begins after the loss changes nothing but the vault and its registers. -/
theorem Quiet.freshVault (s : State) : Quiet s ((s.vaultEpoch).wr Reg.KVT.EPOCH 0) := (Quiet.refl s).vaultEpoch.wr

theorem State.mainLost_dark (s : State) : Dark s s.mainLost := by
  have off := (Outlasts.refl s).ledgerOff
  unfold State.mainLost
  generalize s.ledgerOff = o at off ⊢
  dsimp only
  generalize hu : (List.range 6).foldl _ _ = u
  have dark : Dark s u := by
    rw [← hu]
    refine Dark.quiet ?_ ((Quiet.refl _).foldl Quiet.setHost)
    exact ⟨⟨off.otp, off.retention, off.power, off.flash⟩, rfl, rfl, rfl⟩
  exact dark.modeTime.quiet (Quiet.freshVault _)

theorem State.mainLost_attached (s : State) : s.mainLost.mode.attached = false :=
  congrArg ModeSt.attached (Quiet.freshVault _).mode

end Sys2Proof.Machine
end

section
/-! SUPPORT. Holding hosts (R40, R41, R47): what a hold does to the host states, and a pass over all hosts. -/

namespace Sys2Proof.Machine

/-- The state of a host and the cause of its last hold. -/
def State.hostView (s : State) (n : Nat) : Nat × Nat := (s.hostSt n, s.rd (Reg.HSV.HOST_STATE_HOLD_CAUSE n))

theorem State.hostView_fst (s : State) (n : Nat) : (s.hostView n).1 = s.hostSt n := rfl

theorem Quiet.hostView {s t : State} (h : Quiet s t) (n : Nat) : t.hostView n = s.hostView n := by
  simp only [State.hostView, State.hostSt, State.rd, RegFile.live, Reg.HSV.HOST_STATE_STATE, Reg.HSV.HOST_STATE_HOLD_CAUSE, h.aon]

/-- A port without a state has verified nothing. -/
theorem Quiet.unverify {s0 s : State} {n : Nat} (h : Quiet s0 s) : Quiet s0 (s.setPort n { s.port n with verified := [] }) := by
  refine h.trans ⟨⟨⟨rfl, rfl, rfl, rfl, rfl, rfl, rfl⟩, ⟨rfl, rfl, rfl, rfl, rfl⟩, rfl, rfl, rfl, rfl, fun hp => ?_⟩, rfl⟩
  simp [State.setPort, State.port, hp, Tbl.put, Port.idle]

/-- The hold of a host that is on: its work ends, then the two fields of its state are written. -/
theorem State.holdHost_of_on (s : State) (n cause : Nat) (hn : s.hostSt n ≠ hsOFF) :
    ∃ u, Quiet s u ∧ s.holdHost n cause = (u.setHostSt n hsHELD).wr (Reg.HSV.HOST_STATE_HOLD_CAUSE n) cause := by
  refine ⟨_, ?_, if_neg hn⟩
  exact ((Quiet.refl s).hostWorkEnd.unverify.foldl Quiet.wr).setHost

theorem Still.holdHost {s0 s : State} {n cause : Nat} (h : Still s0 s) : Still s0 (s.holdHost n cause) := by
  by_cases hn : s.hostSt n = hsOFF
  · rwa [State.holdHost, if_pos hn]
  · obtain ⟨u, hu, he⟩ := s.holdHost_of_on n cause hn
    rw [he]
    exact (h.trans hu.toStill).wr.wr

theorem Still.holdAll {s0 s : State} {cause : Nat} (h : Still s0 s) : Still s0 (s.holdAll cause) := h.foldl Still.holdHost

/-- What a hold makes of the view of its host. -/
def heldAs (cause : Nat) (x : Nat × Nat) : Nat × Nat := if x.1 = hsOFF then x else (hsHELD, cause % 16)

/-- A hold changes the state of its host, if that is on, and of no other. -/
theorem State.hostView_holdHost (s : State) (n cause m : Nat) :
    (s.holdHost n cause).hostView m = if m = n then heldAs cause (s.hostView n) else s.hostView m := by
  by_cases hn : s.hostSt n = hsOFF
  · have same : heldAs cause (s.hostView n) = s.hostView n := if_pos hn
    rw [State.holdHost, if_pos hn, same]
    split <;> simp_all
  · obtain ⟨u, hu, he⟩ := s.holdHost_of_on n cause hn
    have held : heldAs cause (s.hostView n) = (hsHELD, cause % 16) := if_neg hn
    have causeState (i j : Nat) : (Reg.HSV.HOST_STATE_HOLD_CAUSE i).keyOf ≠ (Reg.HSV.HOST_STATE_STATE j).keyOf := by
      simp only [Fld.keyOf, Reg.HSV.HOST_STATE_HOLD_CAUSE, Reg.HSV.HOST_STATE_STATE]; omega
    rw [he, held, ← hu.hostView m]
    simp only [State.hostView, State.hostSt, State.setHostSt, State.rd_wr_ne' _ _ _ _ (causeState n m)]
    split
    · next hm => rw [hm, State.rd_wr_same, State.rd_wr_same]; rfl
    · next hm =>
      have stateOther : (Reg.HSV.HOST_STATE_STATE n).keyOf ≠ (Reg.HSV.HOST_STATE_STATE m).keyOf := by
        simp only [Fld.keyOf, Reg.HSV.HOST_STATE_STATE]; omega
      have causeOther : (Reg.HSV.HOST_STATE_HOLD_CAUSE n).keyOf ≠ (Reg.HSV.HOST_STATE_HOLD_CAUSE m).keyOf := by
        simp only [Fld.keyOf, Reg.HSV.HOST_STATE_HOLD_CAUSE]; omega
      rw [State.rd_wr_ne' _ _ _ _ stateOther, State.rd_wr_ne' _ _ _ _ causeOther, State.rd_wr_ne' _ _ _ _ (causeState m n).symm]

/-- A pass over different hosts, each of which changes its own entry of a view: an entry is changed once, if it is on the list. -/
theorem foldl_view {α : Type} (view : State → Nat → α) (f : State → Nat → State) (g : α → α)
    (hf : ∀ s n m, view (f s n) m = if m = n then g (view s n) else view s m) (l : List Nat) (hl : l.Nodup) (s : State) (m : Nat) :
    view (l.foldl f s) m = if m ∈ l then g (view s m) else view s m := by
  induction l generalizing s with
  | nil => simp
  | cons n l ih =>
    obtain ⟨hn, hl⟩ := List.nodup_cons.mp hl
    rw [List.foldl_cons, ih hl, hf]
    by_cases hm : m = n
    · subst hm; simp [hn]
    · simp [hm]

theorem State.hostView_holdAll (s : State) (cause n : Nat) (hn : n < 6) : (s.holdAll cause).hostView n = heldAs cause (s.hostView n) := by
  rw [State.holdAll, foldl_view State.hostView _ _ (fun s n m => s.hostView_holdHost n cause m) _ List.nodup_range,
    if_pos (List.mem_range.mpr hn)]

/-- A hold of all hosts leaves each HELD or OFF (R41). -/
theorem State.hostSt_holdAll (s : State) (cause n : Nat) (hn : n < 6) :
    (s.holdAll cause).hostSt n = hsHELD ∨ (s.holdAll cause).hostSt n = hsOFF := by
  rw [← State.hostView_fst, State.hostView_holdAll s cause n hn, heldAs]
  split
  · next off => exact .inr off
  · exact .inl rfl

end Sys2Proof.Machine
end

section
/-! SUPPORT. Entering VIGIL and SHELF, the power-on reset and the always-on reset: what each leaves. -/

namespace Sys2Proof

theorem sameFieldsBut.wr {l : List Machine.Fld} {s t : Machine.State} {f : Machine.Fld} {v : Nat} (h : sameFieldsBut l s t)
    (hf : f ∈ l := by decide) : sameFieldsBut l s (t.wr f v) := Machine.sameFieldsBut_trans h (Machine.sameFieldsBut_wr l t f v hf)

end Sys2Proof

namespace Sys2Proof.Machine

/-! Entering VIGIL and SHELF (R34, R485, R559) -/

/-- The main domain is switched off in phase `p`: SEAL_PENDING and PWR_EN are 0, and the memories stay as they are. -/
structure SwitchedOff (p : Phase) (s t : State) : Prop where
  phase : t.mode.phase = p
  sealPending : t.mode.sealPending = false
  attached : t.mode.attached = false
  mainOn : t.power.mainOn = false
  core : t.power.core = s.power.core
  pwrEn : t.rd Reg.AON.POWER_STATUS_PWR_EN = 0
  sram : t.sram = s.sram
  tcm : t.tcm = s.tcm
  retention : t.retention = s.retention
  otp : t.otp = s.otp
  flash : t.flash = s.flash

theorem State.shelfEntry_off (s : State) : SwitchedOff .shelf s s.shelfEntry :=
  ⟨rfl, rfl, rfl, rfl, rfl, State.rd_wr_same _ _ _, rfl, rfl, rfl, rfl, rfl⟩

theorem State.vigilEntry_off (s : State) : SwitchedOff .vigil s s.vigilEntry := by
  refine ⟨rfl, rfl, rfl, rfl, rfl, ?_, rfl, rfl, rfl, rfl, rfl⟩
  exact (State.rd_wr_ne' _ Reg.AON.VIGIL_COUNT Reg.AON.POWER_STATUS_PWR_EN _ (by decide)).trans (State.rd_wr_same _ _ _)

/-! Power-on reset (R17, R41) -/

/-- The main domain is in a power-on reset with cause `c`. -/
structure PoweredOn (c : Nat) (s t : State) : Prop where
  power : t.power = { s.power with mainOn := true, mainReset := true, nextCause := c }
  phase : t.mode.phase = .wake
  attached : t.mode.attached = false
  hosts : ∀ n, n < 6 → t.hostSt n = hsHELD ∨ t.hostSt n = hsOFF
  ports : t.ports = []
  sram : t.sram = []
  retention : t.retention = s.retention
  otp : t.otp = s.otp
  flash : s.ledger.block = none → t.flash = s.flash

theorem State.mainPor_poweredOn (s : State) (c : Nat) : PoweredOn c s (s.mainPor c) := by
  have dark := s.mainLost_dark
  have attached := s.mainLost_attached
  unfold State.mainPor
  generalize s.mainLost = o at dark attached ⊢
  dsimp only
  generalize hu : ({ o with power := _, mode := _ } : State) = u
  have held := (Still.refl u).holdAll (cause := 0)
  have hosts := u.hostSt_holdAll 0
  generalize u.holdAll 0 = t at held hosts ⊢
  subst hu
  exact {
    power := held.power.trans (by rw [dark.outlasts.power])
    phase := congrArg ModeSt.phase held.mode
    attached := (congrArg ModeSt.attached held.mode).trans attached
    hosts
    ports := held.noPorts dark.ports
    sram := held.stores.sram.trans dark.sram
    retention := held.stores.retention.trans dark.outlasts.retention
    otp := held.stores.otp.trans dark.outlasts.otp
    flash := fun hb => held.stores.flash.trans (dark.outlasts.flash hb).2 }

/-! Always-on reset (R54, R504) -/

/-- Everything is at its reset value but OTP and the flash devices. -/
structure ColdStart (s t : State) : Prop where
  aon : t.regs.aon = []
  mode : t.mode = ModeSt.reset
  time : t.time = TimeSt.reset
  sram : t.sram = []
  retention : t.retention = []
  otp : t.otp = s.otp
  flash : s.ledger.block = none → t.flash = s.flash

theorem State.aonLost_cold (s : State) : ColdStart s s.aonLost := by
  have off := (Outlasts.refl s).ledgerOff
  unfold State.aonLost
  generalize s.ledgerOff = o at off ⊢
  dsimp only
  generalize hu : (List.range 6).foldl _ _ = u
  have k := (hu ▸ (Quiet.refl _).foldl Quiet.setHost : Quiet _ u).trans (Quiet.freshVault u)
  exact ⟨k.aon, k.mode, k.time, k.stores.sram, k.stores.retention, k.stores.otp.trans off.otp,
    fun hb => k.stores.flash.trans (off.flash hb).2⟩

/-- A field of the always-on domain reads its reset value. -/
theorem ColdStart.rd {s t : State} (h : ColdStart s t) (f : Fld) (hf : f.dom = .aon := by rfl) : t.rd f = f.reset := by
  rw [State.rd, hf, RegFile.live, h.aon]
  rfl

/-- The first setting of the tamper latch, with the main domain in reset, and what counts and shows it (R499). -/
theorem State.setTamper_first (s : State) (c r : Nat) (hl : s.flag Reg.AON.TAMPER_LATCH = false) (hu : s.up = false) :
    s.setTamper c r = ((((s.wr Reg.AON.TAMPER_LATCH 1).wr Reg.AON.TAMPER_CAUSE c).wr Reg.AON.TAMPER_RULE r).bump
      Reg.AON.TAMPER_SET_COUNT).raise pgAON 8 := by
  simp [State.setTamper, hl, State.bump, State.bumpBy, hu]

/-- The fields that the first setting of the tamper latch writes. -/
def tamperFlds : List Fld :=
  [Reg.AON.TAMPER_LATCH, Reg.AON.TAMPER_CAUSE, Reg.AON.TAMPER_RULE, Reg.AON.TAMPER_SET_COUNT, Hdr.EVENT pgAON 8]

/-- The latch is set with its cause, and no host changes state. -/
theorem State.setTamper_first_reads (s : State) (c r : Nat) (hl : s.flag Reg.AON.TAMPER_LATCH = false) (hu : s.up = false) :
    (s.setTamper c r).flag Reg.AON.TAMPER_LATCH = true ∧ (s.setTamper c r).rd Reg.AON.TAMPER_CAUSE = c % 8
    ∧ ∀ n, n < 6 → (s.setTamper c r).hostSt n = s.hostSt n := by
  have fields : sameFieldsBut tamperFlds s (s.setTamper c r) := by
    rw [s.setTamper_first c r hl hu]
    exact (sameFieldsBut_refl _ s).wr.wr.wr.wr.wr
  rw [s.setTamper_first c r hl hu] at fields ⊢
  refine ⟨decide_eq_true ?_, ?_, fun n hn => ?_⟩
  · simp (disch := decide) only [State.raise, State.bump, State.bumpBy, State.rd_wr_ne', State.rd_wr_same]
    rfl
  · simp (disch := decide) only [State.raise, State.bump, State.bumpBy, State.rd_wr_ne', State.rd_wr_same]
    rfl
  · refine fields (Reg.HSV.HOST_STATE_STATE n) fun f hf => ?_
    have high : 0x31 * 0x10000 * 32 ≤ f.keyOf := by revert f; decide
    simp only [Fld.keyOf, Reg.HSV.HOST_STATE_STATE] at high ⊢
    omega

end Sys2Proof.Machine
end

section
/-! O24: the rails and the resets that they cause. -/

namespace Sys2Proof.Machine

/-- An always-on reset (R504), whatever the tamper latch then says. -/
theorem State.aonReset_spec (s : State) :
    s.aonReset.power.aon = .reset ∧ s.aonReset.power.mainOn = true ∧ s.aonReset.power.mainReset = true ∧ s.aonReset.mode.phase = .wake
    ∧ s.aonReset.time.mrt = 0 ∧ (∀ n, n < 6 → s.aonReset.hostSt n = hsOFF) ∧ s.aonReset.sram = [] ∧ s.aonReset.retention = []
    ∧ s.aonReset.otp = s.otp ∧ (s.ledger.block = none → s.aonReset.flash = s.flash)
    ∧ (s.otp.lossTamper = true → s.aonReset.flag Reg.AON.TAMPER_LATCH = true ∧ s.aonReset.rd Reg.AON.TAMPER_CAUSE = 3)
    ∧ (s.otp.lossTamper = false → s.aonReset.flag Reg.AON.TAMPER_LATCH = false) := by
  have lost := s.aonLost_cold
  unfold State.aonReset
  generalize s.aonLost = o at lost ⊢
  dsimp only
  generalize hu : State.seedLoopsCold _ = u
  have cold : ColdStart s u := by
    subst hu
    exact ⟨lost.aon, lost.mode, lost.time, lost.sram, lost.retention, lost.otp, lost.flash⟩
  obtain ⟨aon, mainOn, mainReset⟩ : u.power.aon = .reset ∧ u.power.mainOn = true ∧ u.power.mainReset = true := by
    subst hu
    exact ⟨rfl, rfl, rfl⟩
  have hosts (n : Nat) : u.hostSt n = hsOFF := cold.rd (Reg.HSV.HOST_STATE_STATE n)
  have unlatched : u.flag Reg.AON.TAMPER_LATCH = false := decide_eq_false (by rw [cold.rd Reg.AON.TAMPER_LATCH]; decide)
  rw [cold.otp]
  split
  · next loss =>
    have down : u.up = false := by simp [State.up, mainReset]
    obtain ⟨latch, cause, same⟩ := u.setTamper_first_reads 3 0xFF unlatched down
    have still : Still u (u.setTamper 3 0xFF) := by
      rw [u.setTamper_first 3 0xFF unlatched down]
      exact (Still.refl u).wr.wr.wr.wr.wr
    generalize u.setTamper 3 0xFF = t at latch cause same still ⊢
    rw [still.power, still.mode, still.time, still.stores.sram, still.stores.retention, still.stores.otp, still.stores.flash, cold.mode, cold.time]
    exact ⟨aon, mainOn, mainReset, rfl, rfl, fun n hn => (same n hn).trans (hosts n), cold.sram, cold.retention, cold.otp, cold.flash,
      fun _ => ⟨latch, cause⟩, fun h => absurd loss (by simp [h])⟩
  · next loss =>
    rw [cold.mode, cold.time]
    exact ⟨aon, mainOn, mainReset, rfl, rfl, fun n _ => hosts n, cold.sram, cold.retention, cold.otp, cold.flash,
      fun h => absurd h loss, fun _ => unlatched⟩

/-- TIME_GAP begins (R54): of the registers outside TIME, PWR_EN reads as before. -/
theorem State.startGap_pwrEn (s : State) : s.startGap.rd Reg.AON.POWER_STATUS_PWR_EN = s.rd Reg.AON.POWER_STATUS_PWR_EN := by
  simp (disch := decide) only [State.startGap, State.setSlew, State.wrb, State.rd_wr_ne']
  rfl

/-- VDD_CORE_RISE out of SHELF or VIGIL (R53): a power-on reset with PWR_EN high. -/
theorem exec_vddCoreRise_of_off (s : State) (hc : s.power.core = .reset) (hp : s.mode.phase = .shelf ∨ s.mode.phase = .vigil) :
    ∃ t, exec .vddCoreRise s = .next t
      ∧ t.power.core = .ok ∧ t.power.mainOn = true ∧ t.power.mainReset = true ∧ t.mode.phase = .wake
      ∧ t.rd Reg.AON.POWER_STATUS_PWR_EN = 1 ∧ t.otp = s.otp ∧ (s.ledger.block = none → t.flash = s.flash) := by
  have risen {c : Nat} {x u : State} (por : PoweredOn c x u) (hx : x.power.core = .ok) :
      u.power.core = .ok ∧ u.power.mainOn = true ∧ u.power.mainReset = true :=
    ⟨(congrArg Power.core por.power).trans hx, congrArg Power.mainOn por.power, congrArg Power.mainReset por.power⟩
  rcases hp with hp | hp
  · refine ⟨_, congrArg Host.Outcome.next ((if_pos hc).trans (if_pos hp)), ?_⟩
    have por := State.mainPor_poweredOn { s with power := { s.power with core := .ok } } 3
    generalize State.mainPor _ 3 = u at por ⊢
    obtain ⟨core, mainOn, mainReset⟩ := risen por rfl
    exact ⟨core, mainOn, mainReset, por.phase, (State.startGap_pwrEn _).trans (State.rd_wr_same _ _ _), por.otp, por.flash⟩
  · have awake : s.mode.phase ≠ .shelf := by simp [hp]
    refine ⟨_, congrArg Host.Outcome.next ((if_pos hc).trans ((if_neg awake).trans (if_pos hp))), ?_⟩
    have por := State.mainPor_poweredOn { s with power := { s.power with core := .ok, wakePending := none } }
      (if s.power.wakePending.isSome then 2 else 1)
    dsimp only
    generalize State.mainPor _ _ = u at por ⊢
    obtain ⟨core, mainOn, mainReset⟩ := risen por rfl
    exact ⟨core, mainOn, mainReset, por.phase, State.rd_wr_same _ _ _, por.otp, por.flash⟩

/-- VDD_CORE_VRESET outside SHELF and VIGIL (R34, R559): the device enters VIGIL and main SRAM is lost with its supply (log entry 92). -/
theorem exec_vddCoreVreset_of_on (s : State) (ha : s.power.aon ≠ .reset) (hs : s.mode.phase ≠ .shelf) (hv : s.mode.phase ≠ .vigil) :
    ∃ t, exec .vddCoreVreset s = .next t
      ∧ t.mode.phase = .vigil ∧ t.mode.sealPending = false ∧ t.power.mainOn = false ∧ t.power.core = .reset
      ∧ t.rd Reg.AON.POWER_STATUS_PWR_EN = 0 ∧ t.sram = [] ∧ t.retention = s.retention ∧ t.otp = s.otp
      ∧ (s.ledger.block = none → t.flash = s.flash) := by
  have dark := State.mainLost_dark { s with power := { s.power with core := .reset, torn := true } }
  have held := (Still.refl (State.mainLost { s with power := { s.power with core := .reset, torn := true } })).holdAll (cause := 0)
  have live : ¬ (decide (s.mode.phase = .shelf) || decide (s.mode.phase = .vigil)) = true := by simp [hs, hv]
  refine ⟨_, congrArg Host.Outcome.next ((if_neg ha).trans (if_neg live)), ?_⟩
  generalize State.mainLost _ = o at dark held ⊢
  generalize o.holdAll 0 = u at held ⊢
  have off := u.vigilEntry_off
  have core : u.power.core = .reset := congrArg Power.core (held.power.trans dark.outlasts.power)
  exact ⟨off.phase, off.sealPending, off.mainOn, off.core.trans core, off.pwrEn,
    off.sram.trans (held.stores.sram.trans dark.sram), off.retention.trans (held.stores.retention.trans dark.outlasts.retention),
    off.otp.trans (held.stores.otp.trans dark.outlasts.otp), fun hb => off.flash.trans (held.stores.flash.trans (dark.outlasts.flash hb).2)⟩

/-- POWER_ON_RESET with the main domain on (R17, R41). -/
theorem exec_powerOnReset_of_on (s : State) (h : s.power.mainOn = true) :
    exec .powerOnReset s = .next (s.mainPor (if s.power.mainReset then s.power.nextCause else 1)) :=
  congrArg Host.Outcome.next (if_pos h)

/-- Settles O24: each rail and each reset by the rule for what it loses. -/
theorem railsAndResets : Obligations.RailsAndResets := by
  refine ⟨fun s => rfl, fun s n b h => ?_, fun s n h => congrArg Host.Outcome.next (if_pos h), fun s b => ⟨rfl, rfl⟩, exec_vddCoreVreset_of_on,
    fun s h => ?_, fun s h => ⟨_, exec_powerOnReset_of_on s h, ?_⟩, fun s h => congrArg Host.Outcome.next (if_neg (by simp [h])),
    fun s => ⟨_, rfl, s.aonReset_spec⟩, exec_vddCoreRise_of_off, fun s hc hs hv => ?_, fun s h => congrArg Host.Outcome.next (if_neg h)⟩
  · cases b with
    | true => rfl
    | false =>
      have high : ¬ s.csLow n = true := by simpa using h
      exact congrArg Host.Outcome.next (if_neg high)
  · by_cases ha : s.power.aon = .reset
    · exact congrArg Host.Outcome.next (if_pos ha)
    · have off : (decide (s.mode.phase = .shelf) || decide (s.mode.phase = .vigil)) = true := by simpa [ha] using h
      exact congrArg Host.Outcome.next ((if_neg ha).trans (if_pos off))
  · have por := s.mainPor_poweredOn (if s.power.mainReset then s.power.nextCause else 1)
    exact ⟨congrArg Power.mainOn por.power, congrArg Power.mainReset por.power, por.phase, por.attached, por.hosts, por.ports, por.sram,
      por.retention, por.otp, por.flash⟩
  · exact congrArg Host.Outcome.next ((if_pos hc).trans ((if_neg hs).trans (if_neg hv)))

end Sys2Proof.Machine
end

section
/-! O27: ATTACH, SEAL and the limits of chapter 02. -/

namespace Sys2Proof.Machine

theorem State.sameCfg_mode (s : State) (m : ModeSt) : sameCfg s { s with mode := m } := ⟨rfl, rfl, rfl, rfl, rfl⟩

theorem State.sameStores_mode (s : State) (m : ModeSt) : sameStores s { s with mode := m } := ⟨rfl, rfl, rfl, rfl, rfl, rfl, rfl⟩

/-! ATTACH (R49, R491) -/

/-- What a draw takes from the free source, the reseed it may begin with apart (R252). -/
theorem State.draw_free (s : State) (n : Nat) : (s.draw n).1.free = s.free + n ∧ (s.draw n).2 = s.freeBytes n ∧ (s.draw n).1.clove = s.clove := by
  unfold State.draw
  dsimp only
  split
  · have bytes (k : Nat) : s.reseed.freeBytes k = s.freeBytes k := by
      induction k with
      | zero => rfl
      | succ k ih => rw [State.freeBytes, ih]; rfl
    exact ⟨rfl, bytes n, rfl⟩
  · exact ⟨rfl, rfl, rfl⟩

theorem State.draw_fields (s : State) (n : Nat) : sameFieldsBut [Reg.RNG.RESEED_COUNT] s (s.draw n).1 := by
  unfold State.draw
  dsimp only
  split
  · exact (sameFieldsBut_refl _ s).wr
  · exact sameFieldsBut_refl _ s

theorem State.seedLoopsAttach_serves (s : State) (h : s.rngServes = true) :
    s.seedLoopsAttach.free = s.free + 4 ∧ s.seedLoopsAttach.clove = (s.loopsDrawn (s.freeBytes 4)).clove := by
  obtain ⟨free, bytes, clove⟩ := s.draw_free 4
  rw [State.seedLoopsAttach, if_pos h]
  refine ⟨free, ?_⟩
  simp only [State.loopsDrawn, State.loopsSeeded, bytes, clove]

theorem State.seedLoopsAttach_fields (s : State) : sameFieldsBut [Reg.RNG.RESEED_COUNT] s s.seedLoopsAttach := by
  unfold State.seedLoopsAttach
  split
  · exact s.draw_fields 4
  · exact sameFieldsBut_refl _ s

/-- An ATTACH that is accepted. -/
theorem State.startAttach_accepted (s : State) (hp : s.mode.phase ≠ .seal) (hw : s.mode.afterWarm = true → s.pagesApplied = true)
    (hs : s.strobesDone = true) (ht : s.tablesLoaded = true) :
    s.startAttach = ({ s with mode := { s.mode with phase := .run, attached := true, reattach := false } } : State).seedLoopsAttach.wr
      Reg.GLB.MODE_ATTACHED 1 := by
  have ok : ¬ ((s.mode.afterWarm && !s.pagesApplied) || !s.strobesDone || !s.tablesLoaded) = true := by
    cases hm : s.mode.afterWarm <;> simp_all
  rw [State.startAttach, if_neg hp, if_neg ok]

theorem exec_attach (s : State) (hr : s.ready pgGLB modeCmdOff = true) : exec .attach s = .next s.startAttach :=
  exec_cmd_ready s .attach pgGLB modeCmdOff State.startAttach rfl hr nofun nofun

theorem exec_seal (s : State) (hr : s.ready pgGLB modeCmdOff = true) : exec .seal s = .next (State.startSeal false s) :=
  exec_cmd_ready s .seal pgGLB modeCmdOff (State.startSeal false) rfl hr nofun nofun

theorem exec_sealToShelf (s : State) (hr : s.ready pgGLB modeCmdOff = true) : exec .sealToShelf s = .next (State.startSeal true s) :=
  exec_cmd_ready s .sealToShelf pgGLB modeCmdOff (State.startSeal true) rfl hr nofun nofun

/-- ATTACH on a free command register whose conditions hold (R49, R491; log entry 26). -/
theorem exec_attach_accepted (s : State) (hr : s.ready pgGLB modeCmdOff = true) (hp : s.mode.phase ≠ .seal)
    (hw : s.mode.afterWarm = true → s.pagesApplied = true) (hs : s.strobesDone = true) (ht : s.tablesLoaded = true) :
    ∃ t, exec .attach s = .next t ∧ t.mode = { s.mode with phase := .run, attached := true, reattach := false }
      ∧ t.rd Reg.GLB.MODE_ATTACHED = 1
      ∧ (s.rngServes = true → t.free = s.free + 4 ∧ t.clove = (s.loopsDrawn (s.freeBytes 4)).clove)
      ∧ (s.rngServes = false → t.clove = s.clove)
      ∧ sameFieldsBut [Reg.GLB.MODE_ATTACHED, Reg.RNG.RESEED_COUNT] s t ∧ sameCfg s t ∧ sameStores s t := by
  refine ⟨_, (exec_attach s hr).trans (congrArg Host.Outcome.next (s.startAttach_accepted hp hw hs ht)), ?_⟩
  generalize hu : ({ s with mode := { s.mode with phase := .run, attached := true, reattach := false } } : State) = u
  have seeded := (Quiet.refl u).seedLoopsAttach.wr (f := Reg.GLB.MODE_ATTACHED) (v := 1)
  have serves := u.seedLoopsAttach_serves
  have fields := u.seedLoopsAttach_fields
  have keeps (h : u.rngServes = false) : u.seedLoopsAttach.clove = u.clove := by rw [State.seedLoopsAttach, if_neg (by simp [h])]
  subst hu
  refine ⟨seeded.mode, State.rd_wr_same _ _ _, serves, keeps, ?_, sameCfg_trans (s.sameCfg_mode _) seeded.cfg,
    sameStores_trans (s.sameStores_mode _) seeded.stores⟩
  refine sameFieldsBut.wr (fun g hg => fields g fun f hf => hg f ?_)
  exact List.mem_cons_of_mem _ hf

/-- An ATTACH whose conditions do not hold (R49). -/
theorem State.startAttach_refused (s : State) (hp : s.mode.phase ≠ .seal)
    (h : (s.mode.afterWarm = true ∧ s.pagesApplied = false) ∨ s.strobesDone = false ∨ s.tablesLoaded = false) :
    s.startAttach = s.refuse pgGLB Reason.CONFLICT_WITH_PAGE modeCmdOff := by
  have conflict : ((s.mode.afterWarm && !s.pagesApplied) || !s.strobesDone || !s.tablesLoaded) = true := by
    rcases h with ⟨hw, hp⟩ | h | h <;> simp [*]
  exact (if_neg hp).trans (if_pos conflict)

/-! SEAL (R51, R56, R554, R559) -/

theorem State.startSeal_detached (s : State) (b : Bool) (h : s.mode.phase = .seal ∨ s.mode.attached = false) :
    State.startSeal b s = s.refuse pgGLB Reason.NOT_IN_MODE modeCmdOff :=
  if_pos (by rcases h with h | h <;> simp [h])

theorem State.startSeal_permitted (s : State) (b : Bool) (hp : s.mode.phase ≠ .seal) (ha : s.mode.attached = true)
    (hl : b = true → s.lc < lcFIELD ∨ (s.lc = lcFIELD ∧ s.mode.layUp = true)) :
    State.startSeal b s = ({ s with mode := { s.mode with sealShelf := b } } : State).sealFrom 1 := by
  have attached : ¬ (decide (s.mode.phase = .seal) || !s.mode.attached) = true := by simp [hp, ha]
  have permitted : ¬ (b && !(decide (s.lc < lcFIELD) || (decide (s.lc = lcFIELD) && s.mode.layUp))) = true := by
    cases b with
    | false => simp
    | true =>
      obtain h | ⟨h, hu⟩ := hl rfl
      · simp [h]
      · simp [h, hu]
  exact (if_neg attached).trans (if_neg permitted)

theorem State.startSeal_noLayUp (s : State) (hp : s.mode.phase ≠ .seal) (ha : s.mode.attached = true)
    (hl : lcFIELD < s.lc ∨ (s.lc = lcFIELD ∧ s.mode.layUp = false)) :
    State.startSeal true s = s.refuse pgGLB Reason.NOT_IN_LIFECYCLE modeCmdOff := by
  have attached : ¬ (decide (s.mode.phase = .seal) || !s.mode.attached) = true := by simp [hp, ha]
  have denied : (true && !(decide (s.lc < lcFIELD) || (decide (s.lc = lcFIELD) && s.mode.layUp))) = true := by
    rcases hl with h | ⟨h, hu⟩
    · simp; omega
    · simp [h, hu]
  exact (if_neg attached).trans (if_pos denied)

/-- Steps 5 and 6 of SEAL: the main domain is off in the mode that was asked for, and what it alone held is lost (R559). -/
theorem State.sealEnd_off (s : State) : ∃ o, Dark s o ∧ SwitchedOff (if s.mode.sealShelf then .shelf else .vigil) o s.sealEnd := by
  have zeroised := (Outlasts.refl s).zeroiseEpoch
  unfold State.sealEnd
  generalize s.zeroiseEpoch = z at zeroised ⊢
  dsimp only
  have dark := State.mainLost_dark { z with mode := { z.mode with sealPending := false } }
  generalize State.mainLost _ = o at dark ⊢
  have outlasts := zeroised.trans ⟨dark.outlasts.otp, dark.outlasts.retention, dark.outlasts.power, dark.outlasts.flash⟩
  refine ⟨o, ⟨outlasts, dark.sram, dark.tcm, dark.ports⟩, ?_⟩
  split
  · exact o.shelfEntry_off
  · exact o.vigilEntry_off

theorem State.sealEnd_spec (s : State) :
    s.sealEnd.power.mainOn = false ∧ s.sealEnd.mode.sealPending = false ∧ s.sealEnd.mode.attached = false
    ∧ s.sealEnd.rd Reg.AON.POWER_STATUS_PWR_EN = 0 ∧ s.sealEnd.sram = [] ∧ s.sealEnd.tcm = []
    ∧ s.sealEnd.retention = s.retention ∧ s.sealEnd.otp = s.otp := by
  obtain ⟨o, dark, off⟩ := s.sealEnd_off
  exact ⟨off.mainOn, off.sealPending, off.attached, off.pwrEn, off.sram.trans dark.sram, off.tcm.trans dark.tcm,
    off.retention.trans dark.outlasts.retention, off.otp.trans dark.outlasts.otp⟩

theorem State.sealEnd_phase (s : State) : s.sealEnd.mode.phase = if s.mode.sealShelf then .shelf else .vigil := by
  obtain ⟨o, _, off⟩ := s.sealEnd_off
  exact off.phase

/-! REATTACH_EXPIRED (R47) -/

/-- What the end of the reattach window makes of the view of a host. -/
def reattachedAs (x : Nat × Nat) : Nat × Nat := if x.1 = hsESCORTED then (hsHELD, hcREATTACH_EXPIRED) else x

/-- The hold of a host that is still ESCORTED. -/
def State.holdEscorted (s : State) (n : Nat) : State := if s.hostSt n = hsESCORTED then s.holdHost n hcREATTACH_EXPIRED else s

theorem State.hostView_holdEscorted (s : State) (n m : Nat) :
    (s.holdEscorted n).hostView m = if m = n then reattachedAs (s.hostView n) else s.hostView m := by
  unfold State.holdEscorted
  by_cases h : s.hostSt n = hsESCORTED
  · have held : reattachedAs (s.hostView n) = heldAs hcREATTACH_EXPIRED (s.hostView n) := by
      simp [reattachedAs, heldAs, State.hostView_fst, h, hsESCORTED, hsOFF, hcREATTACH_EXPIRED]
    rw [if_pos h, State.hostView_holdHost, held]
  · have same : reattachedAs (s.hostView n) = s.hostView n := if_neg h
    rw [if_neg h, same]
    split <;> simp_all

theorem Still.holdEscorted {s0 s : State} {n : Nat} (h : Still s0 s) : Still s0 (s.holdEscorted n) := by
  unfold State.holdEscorted
  split
  · exact h.holdHost
  · exact h

/-- The window runs out before ATTACH: the hosts that are still ESCORTED are held, and no other changes. -/
theorem State.reattachLate_spec (s : State) (hr : s.mode.reattach = true) (ha : s.mode.attached = false) :
    s.reattachLate.mode.reattach = false ∧ (∀ n, n < 6 → s.reattachLate.hostView n = reattachedAs (s.hostView n))
    ∧ sameCfg s s.reattachLate ∧ sameStores s s.reattachLate := by
  have runs : (s.mode.reattach && !s.mode.attached) = true := by simp [hr, ha]
  have late : s.reattachLate = (List.range 6).foldl State.holdEscorted { s with mode := { s.mode with reattach := false } } := if_pos runs
  have still := (Still.refl ({ s with mode := { s.mode with reattach := false } } : State)).foldl (l := List.range 6)
    (f := State.holdEscorted) Still.holdEscorted
  rw [late]
  refine ⟨congrArg ModeSt.reattach still.mode, fun n hn => ?_, sameCfg_trans (s.sameCfg_mode _) still.cfg,
    sameStores_trans (s.sameStores_mode _) still.stores⟩
  rw [foldl_view State.hostView _ _ State.hostView_holdEscorted _ List.nodup_range, if_pos (List.mem_range.mpr hn)]
  rfl

/-- Settles O27: ATTACH, the start and the end of SEAL, and the two limits. -/
theorem modeCommands : Obligations.ModeCommands := by
  refine ⟨fun s hr => ⟨exec_attach_accepted s hr, fun hp h => ?_, fun hp => ?_, fun hp ha => ?_, fun hp ha hl => ?_,
      fun hp ha hl => ?_, fun h => ?_⟩,
    State.sealEnd_spec, fun s h => ?_, fun s h => ?_, fun s k => ⟨fun hp hk => ?_, fun h => ?_⟩, fun s => ⟨fun hr ha => ?_, fun h => ?_⟩⟩
  · rw [exec_attach s hr, s.startAttach_refused hp h]
  · exact (exec_attach s hr).trans (congrArg Host.Outcome.next (if_pos hp))
  · rw [exec_seal s hr, s.startSeal_permitted false hp ha nofun]
  · rw [exec_sealToShelf s hr, s.startSeal_permitted true hp ha fun _ => hl]
  · rw [exec_sealToShelf s hr, s.startSeal_noLayUp hp ha hl]
  · rw [exec_seal s hr, exec_sealToShelf s hr, s.startSeal_detached _ h, s.startSeal_detached _ h]
    exact ⟨rfl, rfl⟩
  · rw [s.sealEnd_phase, h]; rfl
  · rw [s.sealEnd_phase, h]; rfl
  · exact congrArg Host.Outcome.next (if_pos (by simp [hp, hk]))
  · exact congrArg Host.Outcome.next (if_neg (by simpa [imp_iff_not_or] using h))
  · obtain ⟨window, hosts, cfg, stores⟩ := s.reattachLate_spec hr ha
    refine ⟨_, rfl, window, fun n hn he => ?_, fun n hn he => ?_, cfg, stores⟩
    · have held : s.reattachLate.hostView n = (hsHELD, hcREATTACH_EXPIRED) := (hosts n hn).trans (if_pos he)
      exact ⟨congrArg Prod.fst held, congrArg Prod.snd held⟩
    · have same : s.reattachLate.hostView n = s.hostView n := (hosts n hn).trans (if_neg he)
      exact congrArg Prod.fst same
  · exact congrArg Host.Outcome.next (if_neg (by rcases h with h | h <;> simp [h]))

end Sys2Proof.Machine
end

section
/-! O8: what the header of every page reads after reset (R65). -/

namespace Sys2Proof.Machine

/-- Every field of a header lies below 0x40 and resets to 0 (R65). -/
theorem Hdr.table_fields (p : Nat) : ∀ d ∈ Hdr.table p, ∀ i, ∀ f ∈ d.flds i, f.off < 0x40 ∧ f.reset = 0 := by
  simp [Hdr.table, Hdr.ENABLE, Hdr.UPD_GROUP, Hdr.LOCK, Hdr.ACTIVE, Hdr.CHECK_BUSY, Hdr.CHECK_FAIL, Hdr.PENDING, Hdr.STALL_ABORT,
    Hdr.WRITE_LOST, Hdr.LOCKED, Hdr.CMD_LOST, Hdr.REASON_CODE, Hdr.REASON_OFFSET, Hdr.EVENT, Hdr.EVENT_EN, Hdr.WRITE_LOST_AT]

theorem header_field (p off : Nat) (low : off < 0x40) (f : Fld) (hf : f ∈ wordFields p off) : f.off < 0x40 ∧ f.reset = 0 := by
  unfold wordFields at hf
  rw [if_pos low] at hf
  split at hf
  · next d found => exact Hdr.table_fields p d (List.mem_of_find?_eq_some found) _ f hf
  · cases hf

/-- After reset a register field holds its reset value. -/
theorem State.reset_rd (f : Fld) : State.reset.rd f = f.reset := by
  cases h : f.dom <;> simp only [State.rd, h] <;> rfl

theorem State.reset_cfg (f : Fld) : State.reset.cfg f = f.reset := by
  cases h : f.dom <;> simp only [State.cfg, h] <;> rfl

/-- A header field that resets to 0 reads 0, whatever its kind. -/
theorem State.reset_fieldView (f : Fld) (low : f.off < 0x40) (zero : f.reset = 0) : State.reset.fieldView f = 0 := by
  unfold State.fieldView
  split
  · exact (State.reset_cfg f).trans zero
  · rfl
  · rfl
  · rw [if_pos low, State.reset_rd, State.reset_rd, zero]
    exact ite_self 0

theorem wordOf_zero (v : Fld → Nat) (fs : List Fld) (zero : ∀ f ∈ fs, v f = 0) : wordOf v fs = 0 := by
  refine List.foldlRecOn fs _ (motive := fun a => a = 0) rfl fun a ha f hf => ?_
  rw [ha, zero f hf, Nat.zero_mod, Nat.zero_mul]

/-- PAGE_ID and PAGE_CRC apart, every word of every header reads 0 after reset. -/
theorem State.reset_header (p off : Nat) (low : off < 0x40) (notId : off ≠ 0x000) (notCrc : off ≠ 0x01C) : State.reset.pageWord p off = 0 := by
  have place : State.reset.extOff p off = off := if_neg (by simp; omega)
  rw [State.pageWord, if_neg (by omega), if_neg (by omega), if_neg notId, if_neg notCrc, place]
  exact wordOf_zero _ _ fun f hf =>
    have ⟨below, zero⟩ := header_field p off low f hf
    State.reset_fieldView f below zero

/-- Settles O8: the headers by `reset_header`, the rest by the reset values. -/
theorem resetRegisters : Obligations.ResetRegisters := by
  have header (p off : Nat) (low : off < 0x40 := by decide) (notId : off ≠ 0x000 := by decide) (notCrc : off ≠ 0x01C := by decide) :=
    State.reset_header p off low notId notCrc
  exact ⟨fun p _ => ⟨rfl, header p 0x004, header p 0x008, header p 0x00C, header p 0x010, header p 0x014, header p 0x018⟩,
    by decide, rfl, rfl, fun _ _ => rfl⟩

end Sys2Proof.Machine
end

section
/-! SUPPORT. Where register fields lie, so that fields of different places differ on every page; and the frames of a write of fields that
are not CFG. That two given fields are `apart` is true by evaluation: `rfl`, which as a discharger of `simp` is written `id rfl`, so that the
proof has the goal itself as its type. -/

namespace Sys2Proof.Machine

/-- The fields begin at different bits, or lie in different words of their pages. -/
def Fld.apart (f g : Fld) : Bool :=
  decide (f.lo < 32) && decide (g.lo < 32) && (decide (f.lo ≠ g.lo) || decide (f.off % 0x10000 ≠ g.off % 0x10000))

/-- Fields at different places of their pages are different fields, whatever the pages. -/
theorem Fld.keyOf_ne_of_apart {f g : Fld} (h : f.apart g = true) : f.keyOf ≠ g.keyOf := by
  simp only [Fld.apart, Bool.or_eq_true, Bool.and_eq_true, decide_eq_true_eq] at h
  simp only [Fld.keyOf]
  omega

namespace State

/-- A write leaves a field at another place alone. -/
theorem rd_wr_apart (s : State) (f g : Fld) (v : Nat) (h : f.apart g = true) : (s.wr f v).rd g = s.rd g :=
  s.rd_wr_ne' f g v (Fld.keyOf_ne_of_apart h)

theorem flag_wr_apart (s : State) (f g : Fld) (v : Nat) (h : f.apart g = true) : (s.wr f v).flag g = s.flag g :=
  congrArg (fun n => decide (n = 1)) (s.rd_wr_apart f g v h)

/-- A one-bit field reads as the flag that was written. -/
theorem flag_wr_bit (s : State) (f : Fld) (b : Bool) (h : f.width = 1) : (s.wr f (b2n b)).flag f = b := by
  cases b <;> simp [flag, b2n, h]

theorem flag_wr_one (s : State) (f : Fld) (h : f.width = 1) : (s.wr f 1).flag f = true := s.flag_wr_bit f true h

theorem flag_wr_zero (s : State) (f : Fld) (h : f.width = 1) : (s.wr f 0).flag f = false := s.flag_wr_bit f false h

end State

/-- No CFG value, memory, OTP or NVM has changed. -/
structure Framed (s t : State) : Prop where
  cfg : sameCfg s t
  stores : sameStores s t

namespace Framed

variable {s t u : State}

theorem refl (s : State) : Framed s s := ⟨sameCfg_refl s, sameStores_refl s⟩

theorem trans (h : Framed s t) (k : Framed t u) : Framed s u := ⟨sameCfg_trans h.cfg k.cfg, sameStores_trans h.stores k.stores⟩

theorem wr {f : Fld} {v : Nat} (h : Framed s t) : Framed s (t.wr f v) := h.trans ⟨sameCfg_wr t f v, sameStores_wr t f v⟩

/-- Commands, strobe, checks, walker, bus accesses and Clove are none of what is framed. -/
theorem work {c : Tbl CmdSlot} {b : Strobe} {e : Tbl Nat} {w : Walker} {x : List XAccess} {r : BusResult} {v : Clove} (h : Framed s t) :
    Framed s { t with cmds := c, strobe := b, enableChecks := e, walker := w, waits := x, bus := r, clove := v } :=
  h.trans ⟨⟨rfl, rfl, rfl, rfl, rfl⟩, ⟨rfl, rfl, rfl, rfl, rfl, rfl, rfl⟩⟩

theorem setCmdSlot {p off : Nat} {c : CmdSlot} (h : Framed s t) : Framed s (t.setCmdSlot p off c) := h.work

end Framed

/-- Only fields of the list have changed: no other field, no CFG value, no memory, OTP or NVM. -/
structure OnlyFields (l : List Fld) (s t : State) : Prop extends Framed s t where
  fields : sameFieldsBut l s t

namespace OnlyFields

variable {l m : List Fld} {s t u : State}

theorem refl (l : List Fld) (s : State) : OnlyFields l s s := ⟨Framed.refl s, sameFieldsBut_refl l s⟩

theorem trans (h : OnlyFields l s t) (k : OnlyFields l t u) : OnlyFields l s u :=
  ⟨h.toFramed.trans k.toFramed, sameFieldsBut_trans h.fields k.fields⟩

theorem wr {f : Fld} {v : Nat} (h : OnlyFields l s t) (hf : f ∈ l := by simp) : OnlyFields l s (t.wr f v) :=
  ⟨h.toFramed.wr, sameFieldsBut_trans h.fields (sameFieldsBut_wr l t f v hf)⟩

theorem mono (h : OnlyFields l s t) (hl : l ⊆ m := by simp) : OnlyFields m s t :=
  ⟨h.toFramed, fun g hg => h.fields g fun f hf => hg f (hl hf)⟩

theorem work {c : Tbl CmdSlot} {b : Strobe} {e : Tbl Nat} {w : Walker} {x : List XAccess} {r : BusResult} {v : Clove} (h : OnlyFields l s t) :
    OnlyFields l s { t with cmds := c, strobe := b, enableChecks := e, walker := w, waits := x, bus := r, clove := v } :=
  ⟨h.toFramed.work, h.fields⟩

theorem setCmdSlot {p off : Nat} {c : CmdSlot} (h : OnlyFields l s t) : OnlyFields l s (t.setCmdSlot p off c) := h.work

/-- A field apart from those of the list reads as before. -/
theorem rd_apart (h : OnlyFields l s t) (g : Fld) (hg : l.all (fun f => f.apart g) = true) : t.rd g = s.rd g :=
  h.fields g fun f hf => Fld.keyOf_ne_of_apart (List.all_eq_true.mp hg f hf)

theorem flag_apart (h : OnlyFields l s t) (g : Fld) (hg : l.all (fun f => f.apart g) = true) : t.flag g = s.flag g :=
  congrArg (fun n => decide (n = 1)) (h.rd_apart g hg)

end OnlyFields

end Sys2Proof.Machine
end

section
/-! O9 and O10: the one-deep queue of a command register (R72). -/

namespace Sys2Proof.Machine

/-- Settles O9: a command is issued in its register, where `issue` has four cases. -/
theorem commandQueue : Obligations.CommandQueue := by
  intro s i p off f spec outsideRound someGroup
  have issued : exec i s = .next (s.issue p off i f) := exec_cmd s i p off f spec outsideRound someGroup
  refine ⟨fun down => ?_, fun free => exec_cmd_ready s i p off f spec free outsideRound someGroup, fun up empty runs => ?_, fun up full => ?_⟩
  · rw [issued, s.issue_off p off i f down]
  · rw [issued, s.issue_queue p off i f up empty runs]
  · rw [issued, s.issue_lost p off i f up full, State.cmdLost_eq]

/-- The queued command of a register in which none runs leaves the queue and has its effect. -/
theorem State.queuedStart_of_queued (s : State) (i : Instr) (p off : Nat) (f : State → State) (waits : s.cmdSlot p off = ⟨none, some i⟩)
    (spec : cmdSpec i = some (p, off, f)) : s.queuedStart p off = f (s.setCmdSlot p off ⟨none, none⟩) := by
  simp only [State.queuedStart, waits, spec]

/-- Settles O10: the queued command of a free register. -/
theorem queuedCommandStarts : Obligations.QueuedCommandStarts := fun s i p off f up waits spec =>
  (congrArg Host.Outcome.next (if_pos up)).trans (congrArg Host.Outcome.next (s.queuedStart_of_queued i p off f waits spec))

end Sys2Proof.Machine
end

section
/-! O15 and O16: what a write of PAGE_CTRL does, at once or when the check that it starts has passed (R67, R68, R551). -/

namespace Sys2Proof.Machine

/-- A strobe's check or arm phase covers the page (R65). -/
def State.strobeCovers (s : State) (p : Nat) : Bool :=
  (s.strobe.phase = StrobePhase.check || s.strobe.phase = StrobePhase.arm) && s.strobePages.contains p

theorem State.covered_eq (s : State) (p : Nat) : s.covered p = (decide (Tbl.get 0 s.enableChecks p ≠ 0) || s.strobeCovers p) := rfl

/-- With the check of a page over, only a strobe shows it busy. -/
theorem State.enableCheckOver_eq (s : State) (p : Nat) : s.enableCheckOver p =
    ({ s with enableChecks := Tbl.put 0 s.enableChecks p 0 }).wrb (Hdr.CHECK_BUSY p) (s.strobeCovers p) := by
  have strobeAlone : ({ s with enableChecks := Tbl.put 0 s.enableChecks p 0 } : State).covered p = s.strobeCovers p := by
    rw [State.covered_eq, Tbl.get_put_same]
    exact Bool.false_or _
  rw [State.enableCheckOver, State.showBusy, strobeAlone]

/-- What the end of a check of page `p` leaves: CHECK_BUSY by the strobe, and nothing else has changed. -/
structure CheckOver (p : Nat) (s t : State) : Prop where
  busy : t.flag (Hdr.CHECK_BUSY p) = s.strobeCovers p
  enableChecks : t.enableChecks = Tbl.put 0 s.enableChecks p 0
  strobe : t.strobe = s.strobe
  only : OnlyFields [Hdr.CHECK_BUSY p] s t

theorem State.enableCheckOver_over (s : State) (p : Nat) : CheckOver p s (s.enableCheckOver p) := by
  rw [s.enableCheckOver_eq p]
  exact ⟨State.flag_wr_bit _ _ _ rfl, rfl, rfl, ((OnlyFields.refl _ s).work (e := Tbl.put 0 s.enableChecks p 0)).wr⟩

/-- A PAGE_CTRL write of `v` has taken effect on page `p`. -/
structure CtrlTaken (p v : Nat) (s t : State) : Prop where
  enabled : t.enabled p = bit v 0
  group : t.rd (Hdr.UPD_GROUP p) = bits v 6 4
  lock : t.flag (Hdr.LOCK p) = (bit v 8 || s.flag (Hdr.LOCK p))
  locked : t.flag (Hdr.LOCKED p) = (bit v 8 || s.flag (Hdr.LOCKED p))
  grace : t.flag Reg.GLB.CRC_STATUS_GRACE_OPEN = true
  enableChecks : t.enableChecks = s.enableChecks
  strobe : t.strobe = s.strobe
  only : OnlyFields [Hdr.UPD_GROUP p, Hdr.LOCK p, Hdr.LOCKED p, Hdr.ENABLE p, Reg.GLB.CRC_STATUS_GRACE_OPEN] s t

theorem bits_lt (v hi lo : Nat) : bits v hi lo < 2 ^ (hi - lo + 1) := Nat.mod_lt _ (Nat.two_pow_pos _)

theorem State.ctrlEffect_taken (s : State) (p v : Nat) : CtrlTaken p v s (s.ctrlEffect p v) := by
  unfold State.ctrlEffect State.openGrace
  constructor
  case enabled => simp (disch := exact id rfl) only [State.enabled, State.wrb_eq, State.flag_wr_apart, State.flag_wr_bit]
  case group =>
    have fits : bits v 6 4 % 2 ^ 3 = bits v 6 4 := Nat.mod_eq_of_lt (bits_lt v 6 4)
    cases bit v 8 <;> simp (disch := exact id rfl) only [State.wrb_eq, State.rd_wr_apart, if_true, Bool.false_eq_true, if_false] <;>
      exact (State.rd_wr_same _ _ _).trans fits
  case lock | locked =>
    cases bit v 8 <;> simp (disch := exact id rfl) only [State.wrb_eq, State.flag_wr_apart, State.flag_wr_one, if_true, Bool.false_eq_true, if_false,
      Bool.true_or, Bool.false_or]
  case grace => exact State.flag_wr_one _ _ rfl
  case enableChecks => cases bit v 8 <;> rfl
  case strobe => cases bit v 8 <;> rfl
  case only =>
    cases bit v 8
    · exact (OnlyFields.refl _ s).wr.wr.wr
    · exact (OnlyFields.refl _ s).wr.wr.wr.wr.wr

/-! PAGE_CTRL_WRITE -/

theorem State.pageCtrl_locked (s : State) (p v : Nat) (hp : p < pageCount) (locked : s.flag (Hdr.LOCK p) = true) :
    s.pageCtrl p v = s.writeLostWith p 0x004 Reason.PAGE_LOCKED :=
  (if_neg (Nat.not_le.mpr hp)).trans (if_pos locked)

theorem State.pageCtrl_range (s : State) (p v : Nat) (hp : p < pageCount) (unlocked : s.flag (Hdr.LOCK p) = false)
    (bad : Nat.land v (2 ^ 32 - 1 - 0x171) ≠ 0 ∨ (s.enabled p = true ∧ bits v 6 4 ≠ s.rd (Hdr.UPD_GROUP p))) :
    s.pageCtrl p v = s.writeLostWith p 0x004 Reason.FIELD_RANGE :=
  (if_neg (Nat.not_le.mpr hp)).trans ((if_neg (Bool.eq_false_iff.mp unlocked)).trans (if_pos (by simpa using bad)))

/-- A write of values that PAGE_CTRL of an unlocked page can take. -/
theorem State.pageCtrl_valid (s : State) (p v : Nat) (hp : p < pageCount) (unlocked : s.flag (Hdr.LOCK p) = false)
    (known : Nat.land v (2 ^ 32 - 1 - 0x171) = 0) (kept : s.enabled p = true → bits v 6 4 = s.rd (Hdr.UPD_GROUP p)) :
    s.pageCtrl p v =
      if s.graceCloses then s.writeLostWith p 0x004 Reason.CRC_UNCOMMITTED
      else if bit v 0 && !s.enabled p then ({ s with enableChecks := Tbl.put 0 s.enableChecks p v }).showBusy p
      else ((s.enableCheckOver p).ctrlEffect p v).strobeWaited := by
  have good : ¬ (Nat.land v (2 ^ 32 - 1 - 0x171) ≠ 0 || (s.enabled p && bits v 6 4 ≠ s.rd (Hdr.UPD_GROUP p))) = true := by
    simp only [known, ne_eq, not_true_eq_false, decide_false, Bool.false_or, Bool.and_eq_true, decide_eq_true_eq, not_and, not_not]
    exact kept
  exact (if_neg (Nat.not_le.mpr hp)).trans ((if_neg (Bool.eq_false_iff.mp unlocked)).trans (if_neg good))

theorem exec_pageCtrlWrite (s : State) (p v : Nat) (up : s.up = true) : exec (.pageCtrlWrite p v) s = .next (s.pageCtrl p v) :=
  congrArg Host.Outcome.next (if_pos up)

/-- The check of a page whose ENABLE a write sets shows the page busy. -/
theorem State.showBusy_checked (s : State) (p v : Nat) (hv : v ≠ 0) :
    ({ s with enableChecks := Tbl.put 0 s.enableChecks p v } : State).showBusy p
      = ({ s with enableChecks := Tbl.put 0 s.enableChecks p v } : State).wr (Hdr.CHECK_BUSY p) 1 := by
  have covered : ({ s with enableChecks := Tbl.put 0 s.enableChecks p v } : State).covered p = true := by
    rw [State.covered_eq, Tbl.get_put_same, decide_eq_true hv, Bool.true_or]
  rw [State.showBusy, covered]
  rfl

theorem ne_zero_of_bit {v i : Nat} (h : bit v i = true) : v ≠ 0 := by
  rintro rfl
  simp [bit] at h

/-- Settles O15: the discards in their order, the start of a check, and the write that takes effect. -/
theorem pageCtrlWrite : Obligations.PageCtrlWrite := by
  intro s p v up hp
  rw [exec_pageCtrlWrite s p v up]
  refine ⟨fun locked => by rw [s.pageCtrl_locked p v hp locked], fun unlocked bad => by rw [s.pageCtrl_range p v hp unlocked bad],
    fun unlocked known kept => ?_⟩
  rw [s.pageCtrl_valid p v hp unlocked known kept]
  refine ⟨fun grace armed => ?_, fun admits => ?_⟩
  · rw [if_pos (by simp [State.graceCloses, grace, armed])]
  · have notCloses : ¬ s.graceCloses = true := by simpa [State.graceCloses] using admits
    rw [if_neg notCloses]
    refine ⟨fun sets off => ?_, fun takes => ?_⟩
    · rw [if_pos (by simp [sets, off]), s.showBusy_checked p v (ne_zero_of_bit sets)]
    · have ended := s.enableCheckOver_over p
      have taken := (s.enableCheckOver p).ctrlEffect_taken p v
      have only := ended.only.mono.trans (l := [Hdr.UPD_GROUP p, Hdr.LOCK p, Hdr.LOCKED p, Hdr.ENABLE p, Hdr.CHECK_BUSY p,
        Reg.GLB.CRC_STATUS_GRACE_OPEN]) taken.only.mono
      rw [if_neg (by rcases takes with h | h <;> simp [h])]
      refine ⟨_, rfl, taken.enabled, taken.group, fun locks => ?_, fun free => ?_, taken.grace, taken.enableChecks.trans ended.enableChecks,
        taken.strobe.trans ended.strobe, (taken.only.flag_apart _ rfl).trans ended.busy, only.fields, only.cfg, only.stores⟩
      · rw [taken.lock, taken.locked, locks]
        exact ⟨rfl, rfl⟩
      · rw [taken.lock, taken.locked, free, ended.only.flag_apart (Hdr.LOCK p) rfl, ended.only.flag_apart (Hdr.LOCKED p) rfl]
        exact ⟨unlocked, rfl⟩

/-! ENABLE_CHECK_DONE -/

/-- The page records failure `f` (R83). -/
structure FailShown (f : Fail) (s t : State) : Prop where
  fail : t.flag (Hdr.CHECK_FAIL f.page) = true
  event : t.raised f.page 0 = true
  code : t.rd (Hdr.REASON_CODE f.page) = (f.page * 256 + f.code) % 2 ^ 16
  offset : t.rd (Hdr.REASON_OFFSET f.page) = f.off % 2 ^ 16
  only : OnlyFields [Hdr.CHECK_FAIL f.page, Hdr.EVENT f.page 0, Hdr.REASON_CODE f.page, Hdr.REASON_OFFSET f.page] s t

theorem State.failPage_shown (s : State) (f : Fail) : FailShown f s (s.failPage f) := by
  unfold State.failPage
  constructor
  case fail => simp (disch := exact id rfl) only [State.refuse_eq, State.raise_eq, State.flag_wr_apart, State.flag_wr_one]
  case event => simp (disch := exact id rfl) only [State.raised, State.refuse_eq, State.raise_eq, State.flag_wr_apart, State.flag_wr_one]
  case code =>
    simp (disch := exact id rfl) only [State.refuse_eq, State.rd_wr_apart, State.rd_wr_same, Hdr.width_REASON_CODE]
  case offset => exact State.rd_wr_same _ _ _
  case only => exact (OnlyFields.refl _ s).wr.wr.wr.wr

theorem State.enableChecked_pass (s : State) (p : Nat) (runs : Tbl.get 0 s.enableChecks p ≠ 0)
    (pass : firstFail ((s.enableCheckOver p).checkFails ⟨[p], []⟩) p = none) :
    s.enableChecked p = (((s.enableCheckOver p).ctrlEffect p (Tbl.get 0 s.enableChecks p)).wr (Hdr.CHECK_FAIL p) 0).strobeWaited := by
  simp only [State.enableChecked, if_neg runs, pass]

theorem State.enableChecked_fail (s : State) (p : Nat) (f : Fail) (runs : Tbl.get 0 s.enableChecks p ≠ 0)
    (fails : firstFail ((s.enableCheckOver p).checkFails ⟨[p], []⟩) p = some f) :
    s.enableChecked p = ((s.enableCheckOver p).failPage f).strobeWaited := by
  simp only [State.enableChecked, if_neg runs, fails]

/-- Settles O16: the check of a page ends; it passes and the write takes effect, or it fails and the page shows why. -/
theorem enableCheckEnds : Obligations.EnableCheckEnds := by
  intro s p
  refine ⟨fun idle => congrArg Host.Outcome.next (if_pos idle), fun runs => ?_⟩
  have ended := s.enableCheckOver_over p
  refine ⟨fun pass => ?_, fun f fails onPage => ?_⟩
  · rw [← State.strobeCovers, ← s.enableCheckOver_eq p] at pass
    have taken := (s.enableCheckOver p).ctrlEffect_taken p (Tbl.get 0 s.enableChecks p)
    refine ⟨_, congrArg Host.Outcome.next (s.enableChecked_pass p runs pass), ?_⟩
    have only := (ended.only.mono.trans (l := [Hdr.UPD_GROUP p, Hdr.LOCK p, Hdr.LOCKED p, Hdr.ENABLE p, Hdr.CHECK_BUSY p, Hdr.CHECK_FAIL p,
        Reg.GLB.CRC_STATUS_GRACE_OPEN]) taken.only.mono).wr (f := Hdr.CHECK_FAIL p) (v := 0)
    generalize (s.enableCheckOver p).ctrlEffect p (Tbl.get 0 s.enableChecks p) = u at taken only ⊢
    have kept (g : Fld) (hg : (Hdr.CHECK_FAIL p).apart g = true) : (u.wr (Hdr.CHECK_FAIL p) 0).flag g = u.flag g := u.flag_wr_apart _ g 0 hg
    refine ⟨(kept _ rfl).trans taken.enabled, (u.rd_wr_apart _ _ 0 rfl).trans taken.group, ?_, State.flag_wr_zero _ _ rfl,
      (kept _ rfl).trans taken.grace, ?_, taken.enableChecks.trans ended.enableChecks, taken.strobe.trans ended.strobe,
      only.fields, only.cfg, only.stores⟩
    · rw [kept _ rfl, taken.lock, ended.only.flag_apart _ rfl]
    · exact (kept _ rfl).trans ((taken.only.flag_apart _ rfl).trans ended.busy)
  · subst onPage
    rw [← State.strobeCovers, ← s.enableCheckOver_eq f.page] at fails
    have shown := (s.enableCheckOver f.page).failPage_shown f
    have only := ended.only.mono.trans (l := [Hdr.CHECK_BUSY f.page, Hdr.CHECK_FAIL f.page, Hdr.EVENT f.page 0, Hdr.REASON_CODE f.page,
      Hdr.REASON_OFFSET f.page]) shown.only.mono
    exact ⟨_, congrArg Host.Outcome.next (s.enableChecked_fail f.page f runs fails), only.flag_apart _ rfl,
      (shown.only.flag_apart _ rfl).trans ended.busy, shown.fail, shown.event, shown.code, shown.offset, ended.enableChecks, ended.strobe,
      only.fields, only.cfg, only.stores⟩

end Sys2Proof.Machine
end

section
/-! SUPPORT. How a strobe ends and how its set is refused (R65, R75, R80, R83). -/

namespace Sys2Proof.Machine

/-- A property that a change of CHECK_BUSY keeps holds after any pages have shown theirs. -/
theorem State.foldl_showBusy {motive : State → Prop} (s : State) (ps : List Nat) (h : motive s)
    (step : ∀ u p b, motive u → motive (u.wr (Hdr.CHECK_BUSY p) b)) : motive (ps.foldl State.showBusy s) :=
  List.foldlRecOn ps State.showBusy h fun u k p _ => step u p _ k

/-- A strobe has ended: its place in UPDATE_STROBE is free, and no CFG value or memory has changed. -/
structure StrobeOver (s t : State) : Prop extends Framed s t where
  strobe : t.strobe = Strobe.idle
  slot : t.cmdSlot pgGLB strobeOff = ⟨none, (s.cmdSlot pgGLB strobeOff).queued⟩
  rd : ∀ g, (Hdr.CHECK_BUSY 0).apart g = true → Reg.GLB.STROBE_STATUS_BUSY.apart g = true → t.rd g = s.rd g

theorem State.strobeEnd_over (s : State) : StrobeOver s s.strobeEnd := by
  unfold State.strobeEnd
  dsimp only
  generalize hu : State.cmdEnd _ pgGLB strobeOff = u
  have ended : StrobeOver s u := by
    subst hu
    exact ⟨((Framed.refl s).wr.work (b := Strobe.idle)).setCmdSlot, rfl, State.cmdSlot_setCmdSlot_same _ _ _ _,
      fun g _ hg => s.rd_wr_apart _ g _ hg⟩
  refine u.foldl_showBusy s.strobePages ended fun w p b h => ?_
  exact ⟨h.toFramed.wr, h.strobe, h.slot, fun g busy strobe => (w.rd_wr_apart (Hdr.CHECK_BUSY p) g b busy).trans (h.rd g busy strobe)⟩

/-- A strobe without pages changes no field but BUSY as it ends. -/
theorem State.strobeEnd_noPages (s : State) (h : s.strobePages = []) : OnlyFields [Reg.GLB.STROBE_STATUS_BUSY] s s.strobeEnd := by
  rw [State.strobeEnd, h]
  exact ((OnlyFields.refl _ s).wr.work (b := Strobe.idle)).setCmdSlot

/-- The next-state latches of pages are discarded (R80). -/
def State.dropLatches (s : State) (ps : List Nat) : State :=
  { s with regs := { s.regs with latch := ps.foldl (fun m p => copyPage p [] m) s.regs.latch } }

theorem State.foldl_dropLatch (s : State) (ps : List Nat) :
    ps.foldl (fun s p => { s with regs := { s.regs with latch := copyPage p [] s.regs.latch } }) s = s.dropLatches ps := by
  induction ps generalizing s with
  | nil => rfl
  | cons p ps ih => exact ih _

theorem State.rd_dropLatches (s : State) (ps : List Nat) (g : Fld) : (s.dropLatches ps).rd g = s.rd g := by
  cases h : g.dom <;> simp only [State.rd, h] <;> rfl

theorem State.sameStores_dropLatches (s : State) (ps : List Nat) : sameStores s (s.dropLatches ps) := ⟨rfl, rfl, rfl, rfl, rfl, rfl, rfl⟩

/-- The set of a strobe has been refused: the strobe has ended, the latches of its armed pages are discarded, and no CFG value in force, no
shadow and no memory has changed. -/
structure StrobeRefused (s t : State) : Prop where
  strobe : t.strobe = Strobe.idle
  slot : t.cmdSlot pgGLB strobeOff = ⟨none, (s.cmdSlot pgGLB strobeOff).queued⟩
  groups : t.rd Reg.GLB.STROBE_STATUS_REFUSED_GROUPS = s.strobe.groups % 2 ^ 8
  shadow : t.regs.shadow = s.regs.shadow
  applied : t.regs.applied = s.regs.applied
  inSck : t.regs.inSck = s.regs.inSck
  inAon : t.regs.inAon = s.regs.inAon
  latch : t.regs.latch = s.strobe.armed.foldl (fun m p => copyPage p [] m) s.regs.latch
  stores : sameStores s t

/-- What recording the failures of a set leaves alone. -/
structure Records (s t : State) : Prop extends Framed s t where
  strobe : t.strobe = s.strobe
  slot : t.cmdSlot pgGLB strobeOff = s.cmdSlot pgGLB strobeOff

theorem Records.wr {s t : State} {f : Fld} {v : Nat} (h : Records s t) : Records s (t.wr f v) := ⟨h.toFramed.wr, h.strobe, h.slot⟩

theorem State.foldl_failPage_records (s : State) (fs : List Fail) : Records s (fs.foldl State.failPage s) :=
  List.foldlRecOn fs State.failPage ⟨Framed.refl s, rfl, rfl⟩ fun _ h _ _ => h.wr.wr.wr.wr

theorem State.strobeRefuse_refused (s : State) (l : List Fail) : StrobeRefused s (s.strobeRefuse l) := by
  unfold State.strobeRefuse
  dsimp only
  generalize List.filterMap _ _ = fs
  have failed := s.foldl_failPage_records fs
  generalize hu : State.wr _ Reg.GLB.STROBE_STATUS_REFUSED_GROUPS _ = u
  have shown : Records s u ∧ u.rd Reg.GLB.STROBE_STATUS_REFUSED_GROUPS = s.strobe.groups % 2 ^ 8 := by
    subst hu
    rw [State.rd_wr_same]
    cases fs with
    | nil => exact ⟨failed.wr, rfl⟩
    | cons f fs => exact ⟨failed.wr.wr, congrArg (fun b : Strobe => b.groups % 2 ^ 8) failed.strobe⟩
  obtain ⟨records, groups⟩ := shown
  rw [u.foldl_dropLatch, records.strobe]
  have ended := (u.dropLatches s.strobe.armed).strobeEnd_over
  exact {
    strobe := ended.strobe
    slot := ended.slot.trans (congrArg (fun c : CmdSlot => (⟨none, c.queued⟩ : CmdSlot)) records.slot)
    groups := (ended.rd _ rfl rfl).trans ((u.rd_dropLatches _ _).trans groups)
    shadow := ended.cfg.shadow.trans records.cfg.shadow
    applied := ended.cfg.applied.trans records.cfg.applied
    inSck := ended.cfg.inSck.trans records.cfg.inSck
    inAon := ended.cfg.inAon.trans records.cfg.inAon
    latch := ended.cfg.latch.trans (congrArg (fun m => s.strobe.armed.foldl (fun m p => copyPage p [] m) m) records.cfg.latch)
    stores := sameStores_trans records.stores (sameStores_trans (u.sameStores_dropLatches _) ended.stores) }

end Sys2Proof.Machine
end

section
/-! O17 and O19: how a strobe begins, and its arm phase (R74, R76, R80, R82, R94). -/

namespace Sys2Proof.Machine

/-! UPDATE_STROBE -/

/-- The strobe of `groups` has taken the register and waits for ENABLE checks of its groups (R74). -/
def State.strobeTaken (s : State) (groups : Nat) : State :=
  { s.cmdStart pgGLB strobeOff (.updateStrobe groups) with strobe := ⟨.waitEnable, groups % 256, [], [], []⟩ }

theorem exec_updateStrobe_ready (s : State) (g : Nat) (asks : g % 256 ≠ 0) (free : s.ready pgGLB strobeOff = true) :
    exec (.updateStrobe g) s = .next (s.strobeTaken g).strobeBegin := by
  rw [exec_cmd_ready s (.updateStrobe g) pgGLB strobeOff (State.startStrobe g) rfl free nofun fun h e => by cases e; exact asks]
  exact congrArg Host.Outcome.next (if_neg asks)

theorem State.strobeTaken_slot (s : State) (g : Nat) (free : s.ready pgGLB strobeOff = true) :
    (s.strobeTaken g).cmdSlot pgGLB strobeOff = ⟨some (.updateStrobe g), none⟩ := by
  have empty := ((s.ready_iff pgGLB strobeOff).mp free).2
  have slot : (s.strobeTaken g).cmdSlot pgGLB strobeOff = ⟨some (.updateStrobe g), (s.cmdSlot pgGLB strobeOff).queued⟩ :=
    State.cmdSlot_setCmdSlot_same _ _ _ _
  rw [slot, empty]

theorem State.strobeTaken_only (s : State) (g : Nat) (l : List Fld) : OnlyFields l s (s.strobeTaken g) :=
  (OnlyFields.refl l s).setCmdSlot.work

/-- The pages of the strobe's groups that are enabled, and those in force whose ENABLE is cleared. -/
def State.strobeSet (s : State) : List Nat := s.groupPages s.strobe.groups fun p => s.enabled p
def State.strobeClr (s : State) : List Nat := s.groupPages s.strobe.groups fun p => !s.enabled p && s.active p

/-- The check phase runs over the pages of the set (R74). -/
def State.strobeChecking (s : State) : State := { s with strobe := ⟨.check, s.strobe.groups, s.strobeSet, s.strobeClr, []⟩ }

theorem State.strobeBegin_waits (s : State) (runs : s.checksRun s.strobe.groups = true) : s.strobeBegin = s := if_pos runs

theorem State.strobeBegin_empty (s : State) (quiet : s.checksRun s.strobe.groups = false) (noSet : s.strobeSet = []) (noClr : s.strobeClr = []) :
    s.strobeBegin = s.strobeEnd := by
  have empty : (s.strobeSet.isEmpty && s.strobeClr.isEmpty) = true := by rw [noSet, noClr]; rfl
  exact (if_neg (Bool.eq_false_iff.mp quiet)).trans (if_pos empty)

/-- A strobe over some page is refused by the grace window or starts its check phase. -/
theorem State.strobeBegin_some (s : State) (quiet : s.checksRun s.strobe.groups = false) (pages : s.strobeSet ≠ [] ∨ s.strobeClr ≠ []) :
    s.strobeBegin =
      if s.graceCloses then s.strobeChecking.strobeRefuse (s.strobeChecking.strobePages.map fun p => ⟨p, 0, Reason.CRC_UNCOMMITTED⟩)
      else s.strobeChecking.strobePages.foldl State.showBusy (s.strobeChecking.wr Reg.GLB.STROBE_STATUS_BUSY 1) := by
  have notEmpty : ¬ (s.strobeSet.isEmpty && s.strobeClr.isEmpty) = true := by
    rw [Bool.and_eq_true, List.isEmpty_iff, List.isEmpty_iff]
    exact not_and_or.mpr pages
  exact (if_neg (Bool.eq_false_iff.mp quiet)).trans (if_neg notEmpty)

/-- The check phase has started: BUSY is 1, and nothing is in force that was not. -/
structure StrobeChecks (s t : State) : Prop extends Records s t where
  busy : t.rd Reg.GLB.STROBE_STATUS_BUSY = 1

theorem State.strobeShown_checks (s : State) (ps : List Nat) :
    StrobeChecks s (ps.foldl State.showBusy (s.wr Reg.GLB.STROBE_STATUS_BUSY 1)) := by
  have shown : StrobeChecks s (s.wr Reg.GLB.STROBE_STATUS_BUSY 1) := ⟨⟨(Framed.refl s).wr, rfl, rfl⟩, State.rd_wr_same _ _ _⟩
  exact State.foldl_showBusy _ ps shown fun u p b h => ⟨h.toRecords.wr, (u.rd_wr_apart (Hdr.CHECK_BUSY p) _ b rfl).trans h.busy⟩

/-- Settles O17: what `strobeBegin` makes of the strobe that has taken the register. -/
theorem strobeBegins : Obligations.StrobeBegins := by
  intro s g
  refine ⟨fun zero => congrArg Host.Outcome.next (if_pos zero), fun asks free runs => ?_, fun asks free quiet => ?_⟩
  · rw [exec_updateStrobe_ready s g asks free, (s.strobeTaken g).strobeBegin_waits runs]
    rfl
  have slot := s.strobeTaken_slot g free
  have taken := s.strobeTaken_only g
  have began := exec_updateStrobe_ready s g asks free
  refine ⟨fun noSet noClr => ?_, fun pages closes => ?_, fun pages admits => ?_⟩
  · rw [(s.strobeTaken g).strobeBegin_empty quiet noSet noClr] at began
    have ended := (s.strobeTaken g).strobeEnd_over
    have only := (taken _).trans ((s.strobeTaken g).strobeEnd_noPages rfl)
    exact ⟨_, began, ended.strobe, ended.slot.trans (by rw [slot]), only.fields, only.cfg, only.stores⟩
  · have closes : (s.strobeTaken g).graceCloses = true := closes
    rw [(s.strobeTaken g).strobeBegin_some quiet pages, if_pos closes] at began
    have refused := (s.strobeTaken g).strobeChecking.strobeRefuse_refused
      ((s.strobeTaken g).strobeChecking.strobePages.map fun p => ⟨p, 0, Reason.CRC_UNCOMMITTED⟩)
    refine ⟨_, began, refused.strobe, refused.slot.trans ?_, ?_, ⟨refused.shadow, refused.applied, refused.inSck, refused.inAon, refused.latch⟩,
      sameStores_trans (taken []).work.stores refused.stores⟩
    · exact congrArg (fun c : CmdSlot => (⟨none, c.queued⟩ : CmdSlot)) slot
    · exact refused.groups.trans (Nat.mod_mod _ _)
  · have admits : ¬ (s.strobeTaken g).graceCloses = true := Bool.eq_false_iff.mp admits
    rw [(s.strobeTaken g).strobeBegin_some quiet pages, if_neg admits] at began
    have checks := (s.strobeTaken g).strobeChecking.strobeShown_checks (s.strobeTaken g).strobeChecking.strobePages
    have framed := (taken []).toFramed.work.trans checks.toFramed
    exact ⟨_, began, checks.strobe, checks.busy, congrArg CmdSlot.running (checks.slot.trans slot), framed.cfg, framed.stores⟩

/-! STROBE_ARM and STROBE_LIMIT_EXPIRY -/

/-- A port page of the set is armed (R76). -/
def State.withArmed (s : State) (p : Nat) : State :=
  { s with regs := { s.regs with latch := copyPage p s.regs.shadow s.regs.latch }, strobe := { s.strobe with armed := p :: s.strobe.armed } }

/-- A port page of the set can be armed now: it is neither armed nor PENDING, and the CS# of its port is high (R76, R82). -/
structure Armable (s : State) (p : Nat) : Prop where
  phase : s.strobe.phase = StrobePhase.arm
  toArm : s.toArm.contains p = true
  notArmed : s.strobe.armed.contains p = false
  notPending : s.flag (Hdr.PENDING p) = false
  csHigh : State.sckPort p ≠ 6 → s.csLow (State.sckPort p) = false

theorem State.armPage_armable (s : State) (p : Nat) (h : Armable s p) : s.armPage p = (s.withArmed p).armsDone := by
  have may : ¬ (s.strobe.phase ≠ StrobePhase.arm || !s.toArm.contains p || s.strobe.armed.contains p || s.flag (Hdr.PENDING p)
      || (decide (State.sckPort p ≠ 6) && s.csLow (State.sckPort p))) = true := by
    rw [h.phase, h.toArm, h.notArmed, h.notPending]
    simpa using h.csHigh
  exact if_neg may

/-- A page that cannot be armed: nothing happens. -/
theorem State.armPage_barred (s : State) (p : Nat) (h : s.strobe.phase ≠ StrobePhase.arm ∨ s.flag (Hdr.PENDING p) = true
    ∨ (State.sckPort p ≠ 6 ∧ s.csLow (State.sckPort p) = true)) : s.armPage p = s := by
  refine if_pos ?_
  rcases h with h | h | ⟨port, low⟩
  · simp [h]
  · simp [h]
  · simp [port, low]

theorem State.mem_toArm (s : State) (p : Nat) : p ∈ s.toArm ↔ p ∈ s.strobePages ∧ State.sckPage p = true := List.mem_filter

/-- Once a page is armed, the strobe commits if no other is left to arm. -/
theorem State.armsDone_withArmed (s : State) (p : Nat) :
    (s.withArmed p).armsDone = if ∀ q ∈ s.strobePages, State.sckPage q = true → q ≠ p → q ∈ s.strobe.armed then (s.withArmed p).strobeCommit
      else s.withArmed p := by
  have all : (s.withArmed p).toArm.all (fun q => (s.withArmed p).strobe.armed.contains q) = true
      ↔ ∀ q ∈ s.strobePages, State.sckPage q = true → q ≠ p → q ∈ s.strobe.armed := by
    rw [List.all_eq_true]
    refine forall_congr' fun q => ?_
    rw [(s.withArmed p).mem_toArm q, List.contains_iff_mem]
    have armed : q ∈ (s.withArmed p).strobe.armed ↔ q = p ∨ q ∈ s.strobe.armed := List.mem_cons
    rw [armed]
    change (q ∈ s.strobePages ∧ _ → _) ↔ _
    tauto
  exact if_congr all rfl rfl

/-- Settles O19: the arm of a page, the commit after the last one, and the refusal by the limit. -/
theorem strobeArms : Obligations.StrobeArms := by
  intro s p
  refine ⟨fun phase toArm notArmed notPending csHigh left => ?_, fun phase toArm notArmed notPending csHigh last => ?_,
    fun barred => congrArg Host.Outcome.next (s.armPage_barred p barred), fun phase => ?_, fun phase => congrArg Host.Outcome.next (if_pos phase)⟩
  · obtain ⟨q, hq, sck, other, unarmed⟩ := left
    have more : ¬ ∀ q ∈ s.strobePages, State.sckPage q = true → q ≠ p → q ∈ s.strobe.armed := fun h => unarmed (h q hq sck other)
    exact congrArg Host.Outcome.next
      ((s.armPage_armable p ⟨phase, toArm, notArmed, notPending, csHigh⟩).trans ((s.armsDone_withArmed p).trans (if_neg more)))
  · exact congrArg Host.Outcome.next
      ((s.armPage_armable p ⟨phase, toArm, notArmed, notPending, csHigh⟩).trans ((s.armsDone_withArmed p).trans (if_pos last)))
  · have refused := s.strobeRefuse_refused ((s.toArm.filter fun p => !s.strobe.armed.contains p).map fun p => ⟨p, 0, Reason.STALL_LIMIT⟩)
    have late : ¬ s.strobe.phase ≠ StrobePhase.arm := not_not_intro phase
    exact ⟨_, congrArg Host.Outcome.next (if_neg late), refused.shadow, refused.applied, refused.inSck, refused.inAon, refused.latch,
      refused.groups, refused.strobe, congrArg CmdSlot.running refused.slot, refused.stores⟩

end Sys2Proof.Machine
end

section
/-! O20: the always-on fields of a page apply (R79, R99). -/

namespace Sys2Proof.Machine

/-- The applied copy of a page is put in force in the always-on domain. -/
def State.aonCopied (s : State) (p : Nat) : State := { s with regs := { s.regs with inAon := copyPage p s.regs.applied s.regs.inAon } }

theorem State.rd_aonCopied (s : State) (p : Nat) (g : Fld) : (s.aonCopied p).rd g = s.rd g := by
  cases h : g.dom <;> simp only [State.rd, h] <;> rfl

/-- PENDING falls and EV_APPLIED is set. -/
def State.aonShown (s : State) (p : Nat) : State := ((s.aonCopied p).wr (Hdr.PENDING p) 0).raise p 4

/-- The apply of a page that is PENDING; Clove, whose rules these fields are, takes them afresh (R493). -/
theorem State.aonApplied_pending (s : State) (p : Nat) (aon : State.aonPage p = true) (pending : s.flag (Hdr.PENDING p) = true) :
    s.aonApplied p = if p = pgCLOV then { s.aonShown p with clove := { (s.aonShown p).clove with fresh := List.range 32 } } else s.aonShown p := by
  have applies : ¬ (!State.aonPage p || !s.flag (Hdr.PENDING p)) = true := by rw [aon, pending]; decide
  exact if_neg applies

/-- Clove apart, an apply shows in the registers alone. -/
theorem State.aonApplied_regs (s : State) (p : Nat) (aon : State.aonPage p = true) (pending : s.flag (Hdr.PENDING p) = true) :
    (s.aonApplied p).regs = (s.aonShown p).regs ∧ sameStores s (s.aonApplied p) := by
  rw [s.aonApplied_pending p aon pending]
  split <;> exact ⟨rfl, rfl, rfl, rfl, rfl, rfl, rfl, rfl⟩

/-- Settles O20: the apply of a page that is PENDING, and that nothing happens on any other. -/
theorem aonApplies : Obligations.AonApplies := by
  intro s p
  refine ⟨fun aon pending => ⟨_, rfl, ?_⟩, fun still => congrArg Host.Outcome.next (if_pos ?_)⟩
  · obtain ⟨regs, stores⟩ := s.aonApplied_regs p aon pending
    have rd (g : Fld) : (s.aonApplied p).rd g = (s.aonShown p).rd g := by rw [State.rd, regs]; rfl
    have fields : sameFieldsBut [Hdr.PENDING p, Hdr.EVENT p 4] (s.aonCopied p) (s.aonShown p) :=
      ((OnlyFields.refl _ (s.aonCopied p)).wr.wr).fields
    rw [regs]
    refine ⟨rfl, rfl, rfl, rfl, decide_eq_false ?_, decide_eq_true ?_, fun g hg => (rd g).trans ((fields g hg).trans (s.rd_aonCopied p g)), stores⟩
    · rw [rd, State.aonShown, State.raise_eq, State.rd_wr_apart _ _ _ _ rfl, State.rd_wr_same]
      exact Nat.zero_ne_one
    · rw [rd, State.aonShown, State.raise_eq, State.rd_wr_same]
      rfl
  · rcases still with h | h <;> simp [h]

end Sys2Proof.Machine
end

section
/-! O21 and O22: the CRC walker, its grace window, and the access that waits too long (R87, R93-R95). -/

namespace Sys2Proof.Machine

/-! CRC_COMMIT -/

/-- CRC_COMMIT in its free register waits for the end of a scan (R93). -/
theorem exec_crcCommit_ready (s : State) (v : Nat) (free : s.ready pgGLB crcCommitOff = true) :
    exec (.crcCommit v) s = .next (State.startCrcCommit v s) :=
  exec_cmd_ready s (.crcCommit v) pgGLB crcCommitOff (State.startCrcCommit v) rfl free nofun nofun

/-! WALKER_SCAN_END -/

/-- What the end of a scan does once CRC_LIVE and a commit that waited are written: its value against CRC_REF. -/
def State.scanCompared (s : State) (v : Nat) : State :=
  if v = s.rd Reg.GLB.CRC_REF then { s with walker := { s.walker with lastMismatch := none } }
  else if !s.flag Reg.GLB.CRC_STATUS_ARMED || s.flag Reg.GLB.CRC_STATUS_GRACE_OPEN || s.walker.lastMismatch = some v then s
  else ({ s with walker := { s.walker with lastMismatch := some v } }).mismatch

/-- The value of a commit that waits is the scan's: CRC_REF takes it, the grace window closes and ARMED is 1 (R93). -/
def State.commitTaken (s : State) (v : Nat) : State :=
  (((({ s with walker := { s.walker with lastMismatch := none } }).wr Reg.GLB.CRC_REF v).wr Reg.GLB.CRC_STATUS_GRACE_OPEN 0).wr
    Reg.GLB.CRC_STATUS_ARMED 1).raise pgGLB 9

/-- What a scan of value `v` makes of the commit that waits, which is over. -/
def State.commitJudged (s : State) (v : Nat) : Option Nat → State
  | some c =>
    let s := { s with walker := { s.walker with commit := none } }
    let s := if v = c then s.commitTaken v else s.refuse pgGLB Reason.COMMIT_MISMATCH crcCommitOff
    (s.wr Reg.GLB.CRC_STATUS_COMMIT_BUSY 0).cmdEnd pgGLB crcCommitOff
  | none => s

theorem State.scanEnds_eq (s : State) :
    s.scanEnds = ((s.wr Reg.GLB.CRC_LIVE s.scanCrc).commitJudged s.scanCrc s.walker.commit).scanCompared s.scanCrc := by
  unfold State.scanEnds
  generalize s.scanCrc = v
  rfl

/-- A commit of the scan's value is done: its register is free, CRC_REF holds the value, the grace window is closed and ARMED is 1. -/
structure CommitDone (v : Nat) (s t : State) : Prop extends Framed s t where
  live : t.rd Reg.GLB.CRC_LIVE = s.rd Reg.GLB.CRC_LIVE
  ref : t.rd Reg.GLB.CRC_REF = v % 2 ^ 32
  grace : t.flag Reg.GLB.CRC_STATUS_GRACE_OPEN = false
  armed : t.flag Reg.GLB.CRC_STATUS_ARMED = true
  busy : t.flag Reg.GLB.CRC_STATUS_COMMIT_BUSY = false
  walker : t.walker = ⟨none, none⟩

theorem State.commitJudged_same (s : State) (v : Nat) : CommitDone v s (s.commitJudged v (some v)) := by
  simp only [State.commitJudged, State.commitTaken, if_true, State.cmdEnd_eq, State.raise_eq]
  constructor
  case toFramed => exact ((Framed.refl s).work.wr.wr.wr.wr.wr).setCmdSlot
  case walker => rfl
  case live => simp (disch := exact id rfl) only [State.setCmdSlot_rd, State.rd_wr_apart]; rfl
  case ref => simp (disch := exact id rfl) only [State.setCmdSlot_rd, State.rd_wr_apart, State.rd_wr_same]; rfl
  case grace => simp (disch := exact id rfl) only [State.setCmdSlot_flag, State.flag_wr_apart, State.flag_wr_zero]
  case armed => simp (disch := exact id rfl) only [State.setCmdSlot_flag, State.flag_wr_apart, State.flag_wr_one]
  case busy => simp (disch := exact id rfl) only [State.setCmdSlot_flag, State.flag_wr_zero]

/-- A commit of another value is refused with its reason (R94); CRC_REF and ARMED stay. -/
structure CommitRefused (s t : State) : Prop where
  ref : t.rd Reg.GLB.CRC_REF = s.rd Reg.GLB.CRC_REF
  armed : t.flag Reg.GLB.CRC_STATUS_ARMED = s.flag Reg.GLB.CRC_STATUS_ARMED
  code : t.rd (Hdr.REASON_CODE pgGLB) = Reason.COMMIT_MISMATCH
  offset : t.rd (Hdr.REASON_OFFSET pgGLB) = crcCommitOff
  walker : t.walker = { s.walker with commit := none }

theorem State.commitJudged_other (s : State) (v c : Nat) (other : v ≠ c) : CommitRefused s (s.commitJudged v (some c)) := by
  simp only [State.commitJudged, if_neg other, State.cmdEnd_eq, State.refuse_eq]
  constructor
  case walker => rfl
  case ref => simp (disch := exact id rfl) only [State.setCmdSlot_rd, State.rd_wr_apart]; rfl
  case armed => simp (disch := exact id rfl) only [State.setCmdSlot_flag, State.flag_wr_apart]; rfl
  case code => simp (disch := exact id rfl) only [State.setCmdSlot_rd, State.rd_wr_apart, State.rd_wr_same]; rfl
  case offset => simp (disch := exact id rfl) only [State.setCmdSlot_rd, State.rd_wr_apart, State.rd_wr_same]; rfl

/-- With ARMED 0, or the grace window open, another value than CRC_REF is no mismatch (R94). -/
theorem State.scanCompared_idle (s : State) (v : Nat) (other : v ≠ s.rd Reg.GLB.CRC_REF)
    (idle : s.flag Reg.GLB.CRC_STATUS_ARMED = false ∨ s.flag Reg.GLB.CRC_STATUS_GRACE_OPEN = true) : s.scanCompared v = s :=
  (if_neg other).trans (if_pos (by rcases idle with h | h <;> simp [h]))

/-- A value that CRC_REF and the last mismatch do not hold is a mismatch (R95). -/
theorem State.scanCompared_mismatch (s : State) (v : Nat) (other : v ≠ s.rd Reg.GLB.CRC_REF) (armed : s.flag Reg.GLB.CRC_STATUS_ARMED = true)
    (grace : s.flag Reg.GLB.CRC_STATUS_GRACE_OPEN = false) (fresh : s.walker.lastMismatch ≠ some v) :
    s.scanCompared v = ({ s with walker := { s.walker with lastMismatch := some v } }).mismatch :=
  (if_neg other).trans (if_neg (by simp [armed, grace, fresh]))

/-- What leaves the CFG stores leaves every CFG field in force. -/
theorem State.cfg_of_sameCfg {s t : State} (h : sameCfg s t) (g : Fld) : t.cfg g = s.cfg g := by
  cases d : g.dom <;> simp only [State.cfg, RegFile.inForce, d, h.applied, h.inSck, h.inAon]

/-- With CRC_CTRL 0 a mismatch is counted with its event, and that is all (R95). -/
theorem State.mismatch_counted (s : State) (h : s.cfg Reg.GLB.CRC_CTRL = 0) :
    s.mismatch = (s.bump Reg.GLB.CRC_MISMATCH_COUNT).raise pgGLB 8 := by
  have same : ((s.bump Reg.GLB.CRC_MISMATCH_COUNT).raise pgGLB 8).cfg Reg.GLB.CRC_CTRL = 0 :=
    (State.cfg_of_sameCfg (Framed.refl s).wr.wr.cfg _).trans h
  exact (if_neg (by rw [same]; decide)).trans (if_neg (by rw [same]; decide))

section

variable (s : State) (v : Nat) (value : s.scanCrc = v)
include value

/-- The end of a scan with no commit waiting. -/
theorem State.scanEnds_idle (idle : s.walker.commit = none) : s.scanEnds = (s.wr Reg.GLB.CRC_LIVE v).scanCompared v := by
  rw [s.scanEnds_eq, value, idle, State.commitJudged]

/-- The end of a scan whose value a commit waits for. -/
theorem State.scanEnds_commit (waits : s.walker.commit = some v) (small : v < 2 ^ 32) :
    CommitDone v (s.wr Reg.GLB.CRC_LIVE v) s.scanEnds := by
  rw [s.scanEnds_eq, value, waits]
  have done := (s.wr Reg.GLB.CRC_LIVE v).commitJudged_same v
  generalize (s.wr Reg.GLB.CRC_LIVE v).commitJudged v (some v) = u at done ⊢
  have same : u.scanCompared v = { u with walker := { u.walker with lastMismatch := none } } :=
    if_pos (by rw [done.ref, Nat.mod_eq_of_lt small])
  rw [same, done.walker]
  exact ⟨done.toFramed.work, done.live, done.ref, done.grace, done.armed, done.busy, rfl⟩

/-- The end of a scan that a commit of another value waits for, with ARMED 0. -/
theorem State.scanEnds_commit_other (c : Nat) (waits : s.walker.commit = some c) (other : v ≠ c)
    (disarmed : s.flag Reg.GLB.CRC_STATUS_ARMED = false) :
    s.scanEnds.rd Reg.GLB.CRC_REF = s.rd Reg.GLB.CRC_REF ∧ s.scanEnds.rd (Hdr.REASON_CODE pgGLB) = Reason.COMMIT_MISMATCH
    ∧ s.scanEnds.rd (Hdr.REASON_OFFSET pgGLB) = crcCommitOff ∧ s.scanEnds.walker.commit = none := by
  rw [s.scanEnds_eq, value, waits]
  have refused := (s.wr Reg.GLB.CRC_LIVE v).commitJudged_other v c other
  generalize (s.wr Reg.GLB.CRC_LIVE v).commitJudged v (some c) = u at refused ⊢
  have ref := refused.ref.trans (s.rd_wr_apart _ _ _ rfl)
  have commit := congrArg Walker.commit refused.walker
  by_cases same : v = u.rd Reg.GLB.CRC_REF
  · rw [State.scanCompared, if_pos same]
    exact ⟨ref, refused.code, refused.offset, commit⟩
  · rw [u.scanCompared_idle _ same (.inl (refused.armed.trans ((s.flag_wr_apart _ _ _ rfl).trans disarmed)))]
    exact ⟨ref, refused.code, refused.offset, commit⟩

end

/-- Settles O21: the start of a commit, and the end of a scan with a commit that waits or without. -/
theorem crcCommitAndScan : Obligations.CrcCommitAndScan := by
  have scan (s : State) (up : s.up = true) : exec .walkerScanEnd s = .next s.scanEnds := congrArg Host.Outcome.next (if_pos up)
  refine ⟨fun s v free => ⟨_, exec_crcCommit_ready s v free, rfl, State.rd_wr_same _ _ _, ?_⟩, fun s c up waits small same => ?_,
    fun s v up idle value small other => ?_,
    fun s c up waits small other disarmed => ⟨_, scan s up, s.scanEnds_commit_other _ rfl c waits other disarmed⟩⟩
  · have only : OnlyFields [Reg.GLB.CRC_STATUS_COMMIT_BUSY] s (State.startCrcCommit v s) := (OnlyFields.refl _ s).setCmdSlot.work.wr
    exact ⟨only.fields, only.cfg, only.stores⟩
  · rw [same] at small ⊢
    have done := s.scanEnds_commit c same waits small
    have framed := (Framed.refl s).wr.trans done.toFramed
    exact ⟨_, scan s up, done.live.trans ((State.rd_wr_same _ _ _).trans (Nat.mod_eq_of_lt small)), done.ref.trans (Nat.mod_eq_of_lt small),
      done.grace, done.armed, done.busy, done.walker, framed.cfg, framed.stores⟩
  · have other' : v ≠ (s.wr Reg.GLB.CRC_LIVE v).rd Reg.GLB.CRC_REF := by rwa [State.rd_wr_apart _ _ _ _ rfl]
    have kept (g : Fld) (hg : Reg.GLB.CRC_LIVE.apart g = true) : (s.wr Reg.GLB.CRC_LIVE v).flag g = s.flag g := s.flag_wr_apart _ g _ hg
    rw [scan s up, s.scanEnds_idle v value idle]
    refine ⟨fun off => ?_, fun armed grace fresh ctrl => ?_⟩
    · rw [State.scanCompared_idle _ _ other' (by rwa [kept _ rfl, kept _ rfl])]
    · rw [State.scanCompared_mismatch _ _ other' (by rwa [kept _ rfl]) (by rwa [kept _ rfl]) fresh,
        State.mismatch_counted _ ((State.cfg_of_sameCfg (Framed.refl s).wr.work.cfg _).trans ctrl)]
      rfl

/-! GRACE_EXPIRED and STALL_LIMIT_EXPIRY -/

/-- The grace window expires (R94). -/
theorem State.graceEnds_open (s : State) (grace : s.flag Reg.GLB.CRC_STATUS_GRACE_OPEN = true) :
    s.graceEnds = if s.flag Reg.GLB.CRC_STATUS_ARMED then ((s.wr Reg.GLB.CRC_STATUS_GRACE_OPEN 0).refuse pgGLB Reason.GRACE_EXPIRED 0).mismatch
      else s.wr Reg.GLB.CRC_STATUS_GRACE_OPEN 0 := by
  have armed : (s.wr Reg.GLB.CRC_STATUS_GRACE_OPEN 0).flag Reg.GLB.CRC_STATUS_ARMED = s.flag Reg.GLB.CRC_STATUS_ARMED :=
    s.flag_wr_apart _ _ _ rfl
  rw [← armed]
  exact if_neg (by rw [grace]; decide)

/-- An access that has waited too long is over with a bus error, which its target page shows (R87). -/
structure StallAborted (x : XAccess) (s t : State) : Prop extends
    OnlyFields [Hdr.STALL_ABORT (pageOf x.acc.addr), Hdr.EVENT (pageOf x.acc.addr) 1] s t where
  waits : t.waits = s.waits.erase x
  bus : t.bus = ⟨true, 0⟩
  abort : t.flag (Hdr.STALL_ABORT (pageOf x.acc.addr)) = true
  event : t.raised (pageOf x.acc.addr) 1 = true

theorem State.stallAbort_aborted (s : State) (d : Nat) (x : XAccess) (oldest : s.waits.find? (fun x => x.dom = d) = some x) :
    StallAborted x s (s.stallAbort d) := by
  simp only [State.stallAbort, oldest]
  refine ⟨((OnlyFields.refl _ s).work (x := s.waits.erase x)).wr.wr.work, rfl, rfl, ?_, ?_⟩
  · exact (State.flag_wr_apart _ (Hdr.EVENT (pageOf x.acc.addr) 1) (Hdr.STALL_ABORT (pageOf x.acc.addr)) 1 rfl).trans (State.flag_wr_one _ _ rfl)
  · exact State.flag_wr_one _ (Hdr.EVENT (pageOf x.acc.addr) 1) rfl

/-- Settles O22: the window that expires, and the oldest access that waits for a domain. -/
theorem graceAndStallLimit : Obligations.GraceAndStallLimit := by
  refine ⟨fun s => ⟨fun closed => congrArg Host.Outcome.next (if_pos (by rw [closed]; rfl)), fun grace disarmed => ?_, fun grace armed ctrl => ?_⟩,
    fun s d => ⟨fun noWait => ?_, fun x oldest => ?_⟩⟩
  · refine congrArg Host.Outcome.next ((s.graceEnds_open grace).trans ?_)
    rw [disarmed, if_neg Bool.false_ne_true]
  · refine congrArg Host.Outcome.next ((s.graceEnds_open grace).trans ?_)
    rw [armed, if_pos rfl]
    exact State.mismatch_counted _ ((State.cfg_of_sameCfg (Framed.refl s).wr.wr.wr.cfg _).trans ctrl)
  · refine congrArg Host.Outcome.next ?_
    simp only [State.stallAbort, noWait]
  · have aborted := s.stallAbort_aborted d x oldest
    exact ⟨_, rfl, aborted.waits, aborted.bus, aborted.abort, aborted.event, aborted.fields, aborted.cfg, aborted.stores⟩

end Sys2Proof.Machine
end

section
/-! SUPPORT. Writes of several fields in turn, and an access to a word of an implemented page (R61-R64, R167). -/

namespace Sys2Proof.Machine

/-- Fields of different places that are written in turn each read what was written, and every other field reads as before. -/
theorem foldl_write_fields (write : State → Fld → State) (read : State → Fld → Nat) (value : Fld → Nat)
    (same : ∀ s f, read (write s f) f = value f) (other : ∀ s f g, f.keyOf ≠ g.keyOf → read (write s f) g = read s g)
    (fs : List Fld) (places : fs.Pairwise (fun f g => f.keyOf ≠ g.keyOf)) (s : State) :
    (∀ f ∈ fs, read (fs.foldl write s) f = value f)
    ∧ ∀ g, (∀ f ∈ fs, f.keyOf ≠ g.keyOf) → read (fs.foldl write s) g = read s g := by
  induction fs generalizing s with
  | nil => exact ⟨nofun, fun _ _ => rfl⟩
  | cons f fs ih =>
    obtain ⟨apart, places⟩ := List.pairwise_cons.mp places
    obtain ⟨written, kept⟩ := ih places (write s f)
    refine ⟨fun g hg => ?_, fun g hg => ?_⟩
    · rcases List.mem_cons.mp hg with rfl | hg
      · exact (kept g fun f hf => (apart f hf).symm).trans (same s g)
      · exact written g hg
    · exact (kept g fun f' hf => hg f' (List.mem_cons_of_mem f hf)).trans (other s f g (hg f List.mem_cons_self))

/-- A 32-bit aligned access to a word of an implemented page that the core's PMP and the page grant. -/
structure GrantedWord (s : State) (x : CoreAccess) : Prop where
  low : regBase ≤ x.addr
  high : x.addr < regBase + 0x100000
  size : x.size = 4
  aligned : x.addr % 4 = 0
  page : pageOf x.addr < 0x32
  user : x.user = true → machinePages.contains (pageOf x.addr) = false
  pmp : ∀ w, (s.core x.core.val).pmpOk x.user x.addr 4 w = true

namespace State

theorem access_pmp (s : State) (x : CoreAccess) (w : Option Nat) (h : (s.core x.core.val).pmpOk x.user x.addr x.size w.isSome = false) :
    s.access x w = s.busError := if_pos (by rw [h]; rfl)

theorem access_register (s : State) (x : CoreAccess) (w : Option Nat) (low : regBase ≤ x.addr) (high : x.addr < regBase + 0x100000)
    (h : (s.core x.core.val).pmpOk x.user x.addr x.size w.isSome = true) : s.access x w = s.regAccess x w :=
  (if_neg (by rw [h]; decide)).trans (if_pos (by simp [low, high]))

theorem regAccess_bad (s : State) (x : CoreAccess) (w : Option Nat)
    (h : x.size ≠ 4 ∨ x.addr % 4 ≠ 0 ∨ 0x32 ≤ pageOf x.addr ∨ (x.user = true ∧ machinePages.contains (pageOf x.addr) = true)) :
    s.regAccess x w = s.busError := by
  refine if_pos ?_
  rcases h with narrow | misaligned | noPage | ⟨user, machine⟩
  · simp [narrow]
  · simp [misaligned]
  · simp [pageCount, noPage]
  · rw [user, machine, Bool.true_and, Bool.or_true]

/-- An access that is misaligned, narrow, to no page or not granted by the page ends in a bus error, whatever the PMP says (R63, R167). -/
theorem access_bad (s : State) (x : CoreAccess) (w : Option Nat) (low : regBase ≤ x.addr) (high : x.addr < regBase + 0x100000)
    (h : x.size ≠ 4 ∨ x.addr % 4 ≠ 0 ∨ 0x32 ≤ pageOf x.addr ∨ (x.user = true ∧ machinePages.contains (pageOf x.addr) = true)) :
    s.access x w = s.busError := by
  cases pmp : (s.core x.core.val).pmpOk x.user x.addr x.size w.isSome
  · exact s.access_pmp x w pmp
  · exact (s.access_register x w low high pmp).trans (s.regAccess_bad x w h)

end State

theorem exec_registerWrite (s : State) (x : CoreAccess) (v : Nat) (up : s.up = true) : exec (.registerWrite x v) s = .next (s.access x (some v)) :=
  congrArg Host.Outcome.next (if_pos up)

theorem exec_crossDomainAccess (s : State) (x : CoreAccess) (w : Option Nat) (up : s.up = true) :
    exec (.crossDomainAccess x w) s = .next (s.access x w) := congrArg Host.Outcome.next (if_pos up)

namespace GrantedWord

variable {s : State} {x : CoreAccess}

/-- A granted access passes every test of width, page and mode. -/
theorem good (h : GrantedWord s x) :
    ¬ (decide (pageCount ≤ pageOf x.addr) || decide (x.size ≠ 4) || decide (x.addr % 4 ≠ 0) || (x.user && machinePages.contains (pageOf x.addr))) = true := by
  have page : ¬ pageCount ≤ pageOf x.addr := Nat.not_le.mpr h.page
  have user : (x.user && machinePages.contains (pageOf x.addr)) = false := by
    cases mode : x.user
    · rfl
    · rw [h.user mode]; rfl
  rw [user]
  simp [page, h.size, h.aligned]

theorem access (h : GrantedWord s x) (w : Option Nat) : s.access x w = s.regAccess x w :=
  s.access_register x w h.low h.high (by rw [h.size]; exact h.pmp _)

/-- A word that no command is in is written at once, or once its port's CS# is high (R85). -/
theorem write (h : GrantedWord s x) (v : Nat) (plain : (s.wordAt (pageOf x.addr) (offOf x.addr)).any (fun f => f.kind = .cmd) = false)
    (high : ∀ d, s.crossDom (pageOf x.addr) (offOf x.addr) = some d → d < 6 → s.csLow d = false) :
    s.access x (some v) = (s.plainWrite (pageOf x.addr) (offOf x.addr) v).busData 0 := by
  rw [h.access, State.regAccess, if_neg h.good]
  cases cross : s.crossDom (pageOf x.addr) (offOf x.addr) with
  | none =>
    have word : s.wordWrite (pageOf x.addr) (offOf x.addr) v = s.plainWrite (pageOf x.addr) (offOf x.addr) v := if_neg (by simp [plain])
    dsimp only
    rw [word]
  | some d =>
    have now : ¬ (decide (d < 6) && s.csLow d) = true := by simpa using high d cross
    dsimp only
    rw [if_neg now]
    rfl

/-- A word outside a port's domain is read at once. -/
theorem read (h : GrantedWord s x) (near : s.crossDom (pageOf x.addr) (offOf x.addr) = none) :
    s.access x none = (s.readWord (pageOf x.addr) (offOf x.addr)).1.busData (s.readWord (pageOf x.addr) (offOf x.addr)).2 := by
  rw [h.access, State.regAccess, if_neg h.good, near]

end GrantedWord

/-- Shadow offsets lie outside every port's domain (R85). -/
theorem State.crossDom_shadow (s : State) (p off : Nat) (h : 0x800 ≤ off) : s.crossDom p off = none := if_pos (by simp [h])

/-- Only CFG fields have a shadow (R64, R70). -/
theorem State.kind_of_mem_shadow (s : State) (p off : Nat) (h : 0x840 ≤ off) (f : Fld) (hf : f ∈ s.wordAt p off) : f.kind = .cfg := by
  rw [State.wordAt, if_pos h] at hf
  exact of_decide_eq_true (List.mem_filter.mp hf).2

/-- A word of CFG fields holds no command, no CFD field and no LIVE field. -/
theorem any_kind_of_cfg {fs : List Fld} (cfg : ∀ f ∈ fs, f.kind = .cfg) (k : Kind) (hk : k ≠ .cfg) : fs.any (fun f => f.kind = k) = false := by
  rw [List.any_eq_false]
  intro f hf
  rw [cfg f hf]
  simpa using hk.symm

end Sys2Proof.Machine
end

section
/-! O11 to O14: core accesses to register words (R63, R68, R70, R71, R81, R551). -/

namespace Sys2Proof.Machine

/-- Settles O11: every access to the register space is 32 bits wide and aligned, or a bus error. -/
theorem registerAccessWidth : Obligations.RegisterAccessWidth := by
  intro s x w v up low high bad
  rw [exec_crossDomainAccess s x w up, exec_registerWrite s x v up, s.access_bad x w low high bad, s.access_bad x (some v) low high bad]
  exact ⟨rfl, rfl⟩

/-! The active view of a CFG word -/

/-- A write through the active view reaches no CFG field. -/
theorem State.foldl_putField_cfg (s : State) (v : Nat) (fs : List Fld) (cfg : ∀ f ∈ fs, f.kind = .cfg) :
    fs.foldl (fun s f => s.putField v f) s = s := by
  induction fs with
  | nil => rfl
  | cons f fs ih =>
    have untouched : s.putField v f = s := by simp only [State.putField, cfg f List.mem_cons_self]
    rw [List.foldl_cons, untouched]
    exact ih fun g hg => cfg g (List.mem_cons_of_mem f hg)

theorem State.plainWrite_cfg (s : State) (p off v : Nat) (low : 0x40 ≤ off) (high : off < 0x800) (hasFields : s.wordAt p off ≠ [])
    (cfg : ∀ f ∈ s.wordAt p off, f.kind = .cfg) : s.plainWrite p off v = s.writeLost p off := by
  have active : ¬ 0x800 ≤ off := Nat.not_le.mpr high
  have notCtrl : off ≠ 0x004 := by omega
  obtain ⟨f, hf⟩ := List.exists_mem_of_ne_nil _ hasFields
  have hasCfg : (s.wordAt p off).any (fun f => f.kind = .cfg) = true := List.any_eq_true.mpr ⟨f, hf, decide_eq_true (cfg f hf)⟩
  simp only [State.plainWrite, if_neg active, if_neg notCtrl, any_kind_of_cfg cfg .cfd nofun, any_kind_of_cfg cfg .live nofun, hasCfg, if_true,
    Bool.false_eq_true, if_false, Bool.and_false, State.foldl_putField_cfg _ v _ cfg]

/-- The shadow offset of a word without a CFG field ignores a write and reads 0. -/
theorem State.plainWrite_noShadow (s : State) (p off v : Nat) (shadow : 0x800 ≤ off) (noFields : s.wordAt p off = []) : s.plainWrite p off v = s := by
  rw [State.plainWrite, if_pos shadow, State.shadowWrite, noFields]
  rfl

theorem State.readWord_noShadow (s : State) (p off : Nat) (shadow : 0x840 ≤ off) (noFields : s.wordAt p off = []) : s.readWord p off = (s, 0) := by
  have notTime : ¬ (p = pgTIME && off = 0x40) = true := by simp; omega
  rw [State.wordAt, if_pos shadow] at noFields
  rw [State.readWord, if_neg notTime, State.pageWord, if_pos shadow, noFields]
  rfl

/-- Settles O12: a write of a CFG word is lost, and a word without a CFG field has no shadow. -/
theorem activeViewOfCfg : Obligations.ActiveViewOfCfg := by
  intro s x v up low high size aligned page user pmp csHigh
  have granted : GrantedWord s x := ⟨low, high, size, aligned, page, user, pmp⟩
  refine ⟨fun lo hi hasFields cfg => ?_, fun shadow noFields => ?_⟩
  · rw [exec_registerWrite s x v up, granted.write v (any_kind_of_cfg cfg .cmd nofun) csHigh, s.plainWrite_cfg _ _ v lo hi hasFields cfg]
    rfl
  · have shadow' : 0x800 ≤ offOf x.addr := by omega
    rw [exec_registerWrite s x v up, exec_crossDomainAccess s x _ up, granted.write v (by rw [noFields]; rfl) csHigh,
      s.plainWrite_noShadow _ _ v shadow' noFields, granted.read (s.crossDom_shadow _ _ shadow'), s.readWord_noShadow _ _ shadow noFields]
    exact ⟨rfl, rfl⟩

/-! The shadow view -/

/-- The state with other shadows and another record of the reserved bits written to shadow words (R7). -/
def State.withShadows (s : State) (shadow rsvd : Tbl Nat) : State := { s with regs := { s.regs with shadow, rsvd } }

theorem State.withShadows_reads (s : State) (shadow rsvd : Tbl Nat) (g : Fld) :
    (s.withShadows shadow rsvd).cfg g = s.cfg g ∧ (s.withShadows shadow rsvd).rd g = s.rd g := by
  cases h : g.dom <;> simp only [State.cfg, State.rd, h] <;> exact ⟨rfl, rfl⟩

theorem State.foldl_setShadow (s : State) (value : Fld → Nat) (fs : List Fld) :
    fs.foldl (fun s f => s.setShadow f (value f)) s = s.withShadows (fs.foldl (fun s f => s.setShadow f (value f)) s).regs.shadow s.regs.rsvd := by
  induction fs generalizing s with
  | nil => rfl
  | cons f fs ih => exact ih (s.setShadow f (value f))

theorem State.shadowOf_setShadow_same (s : State) (f : Fld) (v : Nat) : (s.setShadow f v).shadowOf f = v % 2 ^ f.width :=
  Tbl.get_put_same _ _ _ _

theorem State.shadowOf_setShadow_ne (s : State) (f g : Fld) (v : Nat) (h : f.keyOf ≠ g.keyOf) : (s.setShadow f v).shadowOf g = s.shadowOf g :=
  Tbl.get_put_ne' _ _ _ _ _ _ h.symm

/-- A write of a shadow word, where its page is not locked and no check of it runs. -/
theorem State.shadowWrite_open (s : State) (p off v : Nat) (hasFields : s.wordAt p off ≠ []) (unlocked : s.flag (Hdr.LOCK p) = false)
    (quiet : s.flag (Hdr.CHECK_BUSY p) = false) :
    ∃ rsvd, s.shadowWrite p off v
      = s.withShadows ((s.wordAt p off).foldl (fun s f => s.setShadow f (fieldPart f v)) s).regs.shadow rsvd := by
  have notEmpty : ¬ (s.wordAt p off).isEmpty = true := by rwa [List.isEmpty_iff]
  have written : s.shadowWrite p off v = _ :=
    (if_neg notEmpty).trans ((if_neg (Bool.eq_false_iff.mp unlocked)).trans (if_neg (Bool.eq_false_iff.mp quiet)))
  rw [s.foldl_setShadow fun f => fieldPart f v] at written
  exact ⟨_, written⟩

theorem State.shadowWrite_locked (s : State) (p off v : Nat) (hasFields : s.wordAt p off ≠ []) (locked : s.flag (Hdr.LOCK p) = true) :
    s.shadowWrite p off v = s.writeLostWith p off Reason.PAGE_LOCKED :=
  (if_neg (by rwa [List.isEmpty_iff])).trans (if_pos locked)

theorem State.shadowWrite_busy (s : State) (p off v : Nat) (hasFields : s.wordAt p off ≠ []) (unlocked : s.flag (Hdr.LOCK p) = false)
    (busy : s.flag (Hdr.CHECK_BUSY p) = true) : s.shadowWrite p off v = s.writeLost p off :=
  (if_neg (by rwa [List.isEmpty_iff])).trans ((if_neg (Bool.eq_false_iff.mp unlocked)).trans (if_pos busy))

/-- With every PMP entry cleared, machine mode has every access and user mode none (R167). -/
theorem CoreSt.pmpOk_cleared (c : CoreSt) (user w : Bool) (a n : Nat) (cleared : c.pmpCfg = []) : c.pmpOk user a n w = !user := by
  have off (i : Nat) : c.pmpRange i = none := by simp [CoreSt.pmpRange, cleared, bits]
  unfold CoreSt.pmpOk
  split
  · rfl
  · next i found =>
    have met := List.find?_some found
    simp [off] at met

/-- Settles O13: the three cases of a shadow write, and what the PMP refuses. -/
theorem shadowWrite : Obligations.ShadowWrite := by
  refine ⟨fun s x v up low high size aligned page user pmp shadow hasFields places => ?_, fun s x v up pmp => ?_, fun s x up pmp => ?_,
    fun c user w a n => c.pmpOk_cleared user w a n⟩
  · have granted : GrantedWord s x := ⟨low, high, size, aligned, page, user, pmp⟩
    have shadow' : 0x800 ≤ offOf x.addr := by omega
    have cfg := s.kind_of_mem_shadow (pageOf x.addr) (offOf x.addr) shadow
    have written : exec (.registerWrite x v) s = .next ((s.shadowWrite (pageOf x.addr) (offOf x.addr) v).busData 0) := by
      rw [exec_registerWrite s x v up,
        granted.write v (any_kind_of_cfg cfg .cmd nofun) (by rw [s.crossDom_shadow _ _ shadow']; nofun), State.plainWrite, if_pos shadow']
    refine ⟨fun locked => ?_, fun unlocked busy => ?_, fun unlocked quiet => ?_⟩
    · rw [written, s.shadowWrite_locked _ _ v hasFields locked]
      rfl
    · rw [written, s.shadowWrite_busy _ _ v hasFields unlocked busy]
      rfl
    · obtain ⟨rsvd, result⟩ := s.shadowWrite_open _ _ v hasFields unlocked quiet
      rw [result] at written
      obtain ⟨each, others⟩ := foldl_write_fields (fun s f => s.setShadow f (fieldPart f v)) State.shadowOf (fun f => fieldPart f v % 2 ^ f.width)
        (fun s f => s.shadowOf_setShadow_same f _) (fun s f g => s.shadowOf_setShadow_ne f g _) _ places s
      exact ⟨_, written, each, others, s.withShadows_reads _ _, ⟨rfl, rfl, rfl, rfl, rfl, rfl, rfl⟩, rfl⟩
  · rw [exec_registerWrite s x v up, exec_crossDomainAccess s x _ up, s.access_pmp x (some v) pmp]
    exact ⟨rfl, rfl⟩
  · rw [exec_crossDomainAccess s x _ up, s.access_pmp x none pmp]
    rfl

/-! A CFD word -/

theorem exec_cfdWrite (s : State) (p off v : Nat) (up : s.up = true) (page : p < 0x32) (active : off < 0x800) (notCtrl : off ≠ 4)
    (hasCfd : (s.wordAt p off).any (fun f => f.kind = .cfd) = true) : exec (.cfdWrite p off v) s = .next (s.cfdWord p off v) := by
  have takes : (s.up && decide (p < pageCount) && decide (off < 0x800) && (s.wordAt p off).any (fun f => f.kind = .cfd)) = true := by
    rw [up, hasCfd, decide_eq_true active, decide_eq_true (show p < pageCount from page)]
    rfl
  have plain : s.plainWrite p off v = s.cfdWord p off v :=
    (if_neg (Nat.not_le.mpr active)).trans ((if_neg notCtrl).trans (if_pos hasCfd))
  exact congrArg Host.Outcome.next ((if_pos takes).trans plain)

theorem State.cfdWord_locked (s : State) (p off v : Nat) (locked : s.flag (Hdr.LOCK p) = true) :
    s.cfdWord p off v = s.writeLostWith p off Reason.PAGE_LOCKED := if_pos locked

theorem State.cfdWord_fault (s : State) (p off v c : Nat) (unlocked : s.flag (Hdr.LOCK p) = false)
    (fault : s.cfdFault p (s.wordAt p off) v = some c) : s.cfdWord p off v = s.writeLostWith p off c := by
  simp only [State.cfdWord, unlocked, fault, Bool.false_eq_true, if_false]

/-- A write of values that the fields of an unlocked page can take. -/
theorem State.cfdWord_valid (s : State) (p off v : Nat) (unlocked : s.flag (Hdr.LOCK p) = false)
    (valid : s.cfdFault p (s.wordAt p off) v = none) (cfd : ∀ f ∈ s.wordAt p off, f.kind = .cfd) :
    s.cfdWord p off v = if s.graceCloses then s.writeLostWith p off Reason.CRC_UNCOMMITTED
      else ((s.wordAt p off).foldl (fun s f => s.wr f (fieldPart f v)) s).openGrace := by
  have all : (s.wordAt p off).filter (fun f => f.kind = .cfd) = s.wordAt p off :=
    List.filter_eq_self.mpr fun f hf => decide_eq_true (cfd f hf)
  simp only [State.cfdWord, unlocked, valid, all, Bool.false_eq_true, if_false]

/-- Writes of fields of a list change only these. -/
theorem OnlyFields.foldl_wr {l : List Fld} (s : State) (value : Fld → Nat) (fs : List Fld) (h : fs ⊆ l) :
    OnlyFields l s (fs.foldl (fun s f => s.wr f (value f)) s) :=
  List.foldlRecOn fs _ (OnlyFields.refl l s) fun _ k _ hf => k.wr (h hf)

/-- Settles O14: the discards of a CFD write in their order, and the write that takes effect. -/
theorem cfdWrite : Obligations.CfdWrite := by
  intro s p off v up page active notCtrl hasFields cfd places notGrace
  obtain ⟨f, hf⟩ := List.exists_mem_of_ne_nil _ hasFields
  have hasCfd : (s.wordAt p off).any (fun f => f.kind = .cfd) = true := List.any_eq_true.mpr ⟨f, hf, decide_eq_true (cfd f hf)⟩
  rw [exec_cfdWrite s p off v up page active notCtrl hasCfd]
  refine ⟨fun locked => by rw [s.cfdWord_locked p off v locked], fun c unlocked fault => by rw [s.cfdWord_fault p off v c unlocked fault],
    fun unlocked valid grace armed => ?_, fun unlocked valid admits => ?_⟩
  · rw [s.cfdWord_valid p off v unlocked valid cfd, State.graceCloses, grace, armed]
    rfl
  · rw [s.cfdWord_valid p off v unlocked valid cfd, State.graceCloses, admits, if_neg Bool.false_ne_true]
    obtain ⟨each, _⟩ := foldl_write_fields (fun s f => s.wr f (fieldPart f v)) State.rd (fun f => fieldPart f v % 2 ^ f.width)
      (fun s f => s.rd_wr_same f _) (fun s f g => s.rd_wr_ne' f g _) _ places s
    have only : OnlyFields (Reg.GLB.CRC_STATUS_GRACE_OPEN :: s.wordAt p off) s
        ((s.wordAt p off).foldl (fun s f => s.wr f (fieldPart f v)) s).openGrace :=
      (OnlyFields.foldl_wr s (fun f => fieldPart f v) _ (List.subset_cons_self _ _)).wr
    exact ⟨_, rfl, fun f hf => (State.rd_wr_ne' _ _ _ _ (notGrace f hf).symm).trans (each f hf), State.rd_wr_same _ _ _,
      only.fields, only.cfg, only.stores⟩

end Sys2Proof.Machine
end

section
/-! SUPPORT. The sequencer of the life cycle: how its commands start, its refusal, and its wait for the PKE or for the exit of Brace
(R72, R108, R121, R255). -/

namespace Sys2Proof.Machine

theorem sameCfg_of_regs {s t : State} (regs : t.regs = s.regs) : sameCfg s t :=
  ⟨congrArg RegFile.shadow regs, congrArg RegFile.applied regs, congrArg RegFile.inSck regs, congrArg RegFile.inAon regs,
    congrArg RegFile.latch regs⟩

theorem sameFieldsBut_mono {l m : List Fld} {s t : State} (h : sameFieldsBut l s t) (hl : l ⊆ m := by simp) : sameFieldsBut m s t :=
  fun g hg => h g fun f hf => hg f (hl hf)

theorem State.rd_of_regs {s t : State} (regs : t.regs = s.regs) (g : Fld) : t.rd g = s.rd g := by rw [State.rd, State.rd, regs]

/-- A change outside the registers, the memories, OTP and NVM changes no field. -/
theorem OnlyFields.outside {l : List Fld} {s t u : State} (h : OnlyFields l s t) (regs : u.regs = t.regs := by rfl)
    (stores : sameStores t u := by exact ⟨rfl, rfl, rfl, rfl, rfl, rfl, rfl⟩) : OnlyFields l s u :=
  h.trans ⟨⟨sameCfg_of_regs regs, stores⟩, fun g _ => State.rd_of_regs regs g⟩

theorem exec_apply_ready (s : State) (a : Nat) (free : s.ready pgLCS 0x5C = true) : exec (.apply a) s = .next (State.startApply a s) :=
  exec_cmd_ready s (.apply a) pgLCS 0x5C (State.startApply a) rfl free nofun nofun

theorem exec_resume_ready (s : State) (a : Nat) (free : s.ready pgLCS 0x5C = true) : exec (.resume a) s = .next (State.startResume a s) :=
  exec_cmd_ready s (.resume a) pgLCS 0x5C (State.startResume a) rfl free nofun nofun

theorem exec_lcsProgramAuth_ready (s : State) (a : Nat) (free : s.ready pgLCS 0x5C = true) :
    exec (.lcsProgramAuth a) s = .next (State.startProgramAuth a s) :=
  exec_cmd_ready s (.lcsProgramAuth a) pgLCS 0x5C (State.startProgramAuth a) rfl free nofun nofun

/-- A command of the sequencer is refused (R108): its reason and its event, and nothing else but BUSY. -/
structure LcsRefused (reason : Nat) (s t : State) : Prop
    extends OnlyFields [Hdr.REASON_CODE pgLCS, Hdr.REASON_OFFSET pgLCS, Hdr.EVENT pgLCS 9, Reg.LCS.TRANSITION_STATUS_BUSY] s t where
  code : t.rd (Hdr.REASON_CODE pgLCS) = (pgLCS * 256 + reason) % 2 ^ 16
  event : t.raised pgLCS 9 = true

theorem State.lcsRefuse_refused (s : State) (reason : Nat) : LcsRefused reason s (s.lcsRefuse reason) := by
  simp only [State.lcsRefuse, State.lcsFails, State.raise_eq, State.cmdEnd_eq]
  constructor
  case toOnlyFields => exact (OnlyFields.refl _ s).wr.wr.wr.wr.setCmdSlot
  case code => simp (disch := exact id rfl) only [State.setCmdSlot_rd, State.rd_wr_apart, State.rd_wr_same]; rfl
  case event => simp (disch := exact id rfl) only [State.raised, State.setCmdSlot_flag, State.flag_wr_apart, State.flag_wr_one]

/-- The sequencer is BUSY with a command that goes on later, DEFERRED where Brace holds it back (R121). -/
structure LcsHeld (i : Instr) (s t : State) : Prop
    extends OnlyFields [Reg.LCS.TRANSITION_STATUS_BUSY, Reg.LCS.TRANSITION_STATUS_DEFERRED] s t where
  busy : t.flag Reg.LCS.TRANSITION_STATUS_BUSY = true
  deferred : t.flag Reg.LCS.TRANSITION_STATUS_DEFERRED = s.brace
  runs : (t.cmdSlot pgLCS 0x5C).running = some i

theorem State.lcsHold_held (s : State) (i : Instr) : LcsHeld i s (s.lcsHold i) := by
  simp only [State.lcsHold, State.wrb_eq, State.cmdStart_eq]
  constructor
  case toOnlyFields => exact (OnlyFields.refl _ s).setCmdSlot.wr.wr
  case busy => simp (disch := exact id rfl) only [State.flag_wr_apart, State.flag_wr_one]
  case deferred => exact State.flag_wr_bit _ _ _ rfl
  case runs => simp only [State.wr_cmdSlot, State.cmdSlot_setCmdSlot_same]

/-! The device's own work at the PKE (R255, R356) -/

/-- The choice of the next request leaves the queue to its caller. -/
theorem drrPick_queue (q : List Req) (cost : Req → Nat) (quantum : Nat → Nat) (fuel : Nat) (d : Sched) :
    (drrPick q cost quantum fuel d).1.queue = d.queue := by
  induction fuel generalizing d with
  | zero => rfl
  | succ fuel ih =>
    unfold drrPick
    dsimp only
    split
    · exact ih _
    · simp only [apply_ite Prod.fst, apply_ite Sched.queue, ih, ite_self]

theorem drrChoose_queue (q : List Req) (cost : Req → Nat) (quantum : Nat → Nat) (d : Sched) : (drrChoose q cost quantum d).1.queue = d.queue := by
  unfold drrChoose
  split
  · rfl
  · split
    · rfl
    · exact drrPick_queue q cost quantum 4096 d

theorem State.sched_setSched_same (s : State) (x : Nat) (d : Sched) : (s.setSched x d).sched x = d := Tbl.get_put_same _ _ _ _

/-- A service opportunity of the PKE changes the queues alone. -/
theorem State.pumpPke_scheds (s : State) : ∃ q, s.pumpPke = { s with scheds := q } := by
  unfold State.pumpPke
  dsimp only
  split
  · exact ⟨s.scheds, rfl⟩
  · split <;> exact ⟨_, rfl⟩

/-- A service opportunity of the PKE loses no request. -/
theorem State.hasReq_pumpPke (s : State) (r : Req) (h : hasReq s 2 r) : hasReq s.pumpPke 2 r := by
  unfold State.pumpPke
  dsimp only
  split
  · exact h
  · next idle =>
    have queued : r ∈ (s.sched 2).queue := by
      rcases h with h | h
      · exact h
      · simp [h] at idle
    split
    · simp only [hasReq, State.sched_setSched_same, drrChoose_queue]
      exact .inl queued
    · next q _ =>
      simp only [hasReq, State.sched_setSched_same]
      by_cases same : r = q
      · exact .inr (congrArg some same.symm)
      · exact .inl ((List.mem_erase_of_ne same).mpr queued)

/-- A request enters the queue of a resource at the level of its class. -/
theorem State.enqueue_hasReq (s : State) (r : Req) : hasReq (s.enqueue 2 r) 2 { r with lvl := r.cls, issued := s.time.mrt } := by
  have queued : s.enqueue 2 r = s.setSched 2 { s.sched 2 with queue := (s.sched 2).queue ++ [{ r with lvl := r.cls, issued := s.time.mrt }] } := by
    unfold State.enqueue
    exact if_pos (show 2 < 4 by decide)
  rw [queued, hasReq, State.sched_setSched_same]
  exact .inl (List.mem_append_right _ List.mem_cons_self)

theorem State.enqueuePke_scheds (s : State) (r : Req) : ∃ q, s.enqueuePke r = { s with scheds := q } :=
  (s.enqueue 2 r).pumpPke_scheds

/-- The device's own work asks for the PKE, unless it has asked before. -/
theorem State.awaitPke_cases (s : State) (j : Job) (k n : Nat) :
    (waitsPke s j n ∧ s.awaitPke j k n = s) ∨ s.awaitPke j k n = s.enqueuePke ⟨.job j, k, k, n, 0, 0, 0, []⟩ := by
  unfold State.awaitPke
  dsimp only
  by_cases queued : (s.sched 2).queue.any (fun r => decide (r.kind = .job j) && decide (r.issuer = n)) = true
  · obtain ⟨r, hr, mine⟩ := List.any_eq_true.mp queued
    exact .inl ⟨⟨r, .inl hr, by simpa using mine⟩, if_pos (by rw [queued]; rfl)⟩
  · rw [Bool.not_eq_true] at queued
    rw [queued, Bool.false_or]
    split
    · next r runs =>
      by_cases mine : (decide (r.kind = .job j) && decide (r.issuer = n)) = true
      · exact .inl ⟨⟨r, .inr runs, by simpa using mine⟩, if_pos mine⟩
      · exact .inr (if_neg mine)
    · exact .inr (if_neg Bool.false_ne_true)

theorem State.awaitPke_scheds (s : State) (j : Job) (k n : Nat) : ∃ q, s.awaitPke j k n = { s with scheds := q } := by
  obtain ⟨_, same⟩ | asks := s.awaitPke_cases j k n
  · exact ⟨s.scheds, same⟩
  · exact asks ▸ s.enqueuePke_scheds _

/-- Once it waits, the device's own work has a request at the PKE. -/
theorem State.awaitPke_waits (s : State) (j : Job) (k n : Nat) : waitsPke (s.awaitPke j k n) j n := by
  obtain ⟨waits, same⟩ | asks := s.awaitPke_cases j k n
  · rwa [same]
  · rw [asks]
    exact ⟨_, State.hasReq_pumpPke _ _ (s.enqueue_hasReq _), rfl, rfl⟩

theorem State.lcsWait_held (s : State) (i : Instr) :
    LcsHeld i s (s.lcsWait i) ∧ (s.lcsWait i).lcs.deferred = true ∧ waitsPke (s.lcsWait i) .lcs fwIssuer := by
  have held := s.lcsHold_held i
  have waits := State.awaitPke_waits { s.lcsHold i with lcs := ⟨true, 0, true, 0⟩ } .lcs 2 fwIssuer
  obtain ⟨q, hq⟩ := State.awaitPke_scheds { s.lcsHold i with lcs := ⟨true, 0, true, 0⟩ } .lcs 2 fwIssuer
  rw [State.lcsWait]
  rw [hq] at waits ⊢
  exact ⟨⟨held.toOnlyFields.outside, held.busy, held.deferred, held.runs⟩, rfl, waits⟩

end Sys2Proof.Machine
end

section
/-! O29: PROGRAM_AUTH (R120). -/

namespace Sys2Proof.Machine

/-- PROGRAM_AUTH outside ISSUED, or with CUST_AUTH_HASH programmed. -/
theorem State.startProgramAuth_refused (s : State) (a : Nat) (h : s.lc ≠ lcISSUED ∨ s.otp.custHash ≠ 0) :
    State.startProgramAuth a s = s.lcsRefuse Reason.NOT_IN_LIFECYCLE :=
  if_pos (by simpa using h)

/-- PROGRAM_AUTH that R120 accepts: the blow, which in Brace does not start (R121). -/
theorem State.startProgramAuth_accepted (s : State) (a : Nat) (issued : s.lc = lcISSUED) (blank : s.otp.custHash = 0)
    (inside : State.inSram a 48 = true) :
    State.startProgramAuth a s = if s.brace then s.lcsHold (.lcsProgramAuth a)
      else { s with otp := { s.otp with custHash := digestOf 384 (s.sramBytes a 48) } } :=
  (if_neg (by simp [issued, blank])).trans (if_neg (by simp [inside]))

/-- Settles O29: the hash that is programmed, and the refusal in any other state. -/
theorem programAuth : Obligations.ProgramAuth := by
  intro s a free
  rw [exec_lcsProgramAuth_ready s a free]
  refine ⟨fun issued blank inside calm => ?_, fun h => ?_⟩
  · rw [s.startProgramAuth_accepted a issued blank inside, calm]
    rfl
  · have refused := s.lcsRefuse_refused Reason.NOT_IN_LIFECYCLE
    rw [s.startProgramAuth_refused a h]
    exact ⟨_, rfl, refused.code, refused.stores.otp, refused.stores.nvm⟩

end Sys2Proof.Machine
end

section
/-! SUPPORT. What the choice of the next request of a channel leaves (R270, R356), and what Brace entry makes of the channels (R370). -/

namespace Sys2Proof.Machine

/-- The fields that a service opportunity of channel `c` writes. -/
def channelFlds (c : Nat) : List Fld :=
  [Reg.FCH.STATUS_OWNER c, Reg.HFP.PORT_STATUS_OWNS_PINS c, Reg.FCH.STATUS_BUSY c, Reg.FCH.STATUS_SUSPENDED c, Reg.XBR.K2_MAX_SEEN]

/-- Work on channel `c` alone: it shows in the fields of the channel, and the sequencers of LCS and DBG stay as they are. -/
structure ChannelWork (c : Nat) (s t : State) : Prop extends OnlyFields (channelFlds c) s t where
  lcs : t.lcs = s.lcs
  dbg : t.dbg = s.dbg

namespace ChannelWork

variable {c : Nat} {s t u : State}

theorem refl (c : Nat) (s : State) : ChannelWork c s s := ⟨OnlyFields.refl _ s, rfl, rfl⟩

theorem wr {f : Fld} {v : Nat} (h : ChannelWork c s t) (hf : f ∈ channelFlds c := by simp [channelFlds]) : ChannelWork c s (t.wr f v) :=
  ⟨h.toOnlyFields.wr hf, h.lcs, h.dbg⟩

/-- The queues and the channels are none of what stays. -/
theorem queues {q : Tbl Sched} {k : Tbl Chan} (h : ChannelWork c s t) : ChannelWork c s { t with scheds := q, chans := k } :=
  ⟨h.toOnlyFields.outside, h.lcs, h.dbg⟩

theorem ite {a b : State} {p : Prop} {_ : Decidable p} (ha : ChannelWork c s a) (hb : ChannelWork c s b) :
    ChannelWork c s (if p then a else b) := by
  split <;> assumption

theorem takePins (h : ChannelWork c s t) : ChannelWork c s (t.takePins c) := ite h.wr.wr h.wr

theorem chanRest (h : ChannelWork c s t) : ChannelWork c s (t.chanRest c) := ite h.wr (ite h.wr.wr.wr h.wr.wr)

theorem pumpCh (h : ChannelWork c s t) : ChannelWork c s (t.pumpCh c) := by
  unfold State.pumpCh
  dsimp only
  refine ite h ?_
  split
  · split
    · exact ite h.queues.chanRest h.queues.queues.wr
    · exact h.queues.chanRest
  · exact ite h (ite h.queues.wr h.queues).takePins.wr

theorem braceChannel (h : ChannelWork c s t) : ChannelWork c s (t.braceChannel c) := by
  unfold State.braceChannel
  dsimp only
  split
  · exact ite h.queues.queues.queues.wr.pumpCh h.queues
  · exact h.queues

end ChannelWork

/-- Brace entry on the channels shows in their fields, and the sequencers of LCS and DBG stay as they are. -/
theorem State.braceChannels_work (s : State) :
    OnlyFields ((List.range 8).flatMap channelFlds) s s.braceChannels ∧ s.braceChannels.lcs = s.lcs ∧ s.braceChannels.dbg = s.dbg := by
  unfold State.braceChannels
  dsimp only
  have braced : OnlyFields ((List.range 8).flatMap channelFlds) s ((List.range 4).foldl (fun s x => s.setSched x { s.sched x with braced := true }) s)
      ∧ _ = s.lcs ∧ _ = s.dbg :=
    List.foldlRecOn (motive := fun t => OnlyFields ((List.range 8).flatMap channelFlds) s t ∧ t.lcs = s.lcs ∧ t.dbg = s.dbg) _ _
      ⟨OnlyFields.refl _ s, rfl, rfl⟩ fun _ k _ _ => ⟨k.1.outside, k.2⟩
  refine List.foldlRecOn (motive := fun t => OnlyFields ((List.range 8).flatMap channelFlds) s t ∧ t.lcs = s.lcs ∧ t.dbg = s.dbg) _ _ braced
    fun t k c hc => ?_
  have work := (ChannelWork.refl c t).braceChannel
  exact ⟨k.1.trans (work.toOnlyFields.mono fun f hf => List.mem_flatMap.mpr ⟨c, hc, hf⟩), work.lcs.trans k.2.1, work.dbg.trans k.2.2⟩

end Sys2Proof.Machine
end

section
/-! O23: Brace, glitches and the enclosure (R121, R501, R505, R507, R508, R510). -/

namespace Sys2Proof.Machine

/-- A count goes up by one and stays at the largest value that its field holds (R563). -/
theorem State.rd_bump_same (s : State) (f : Fld) : (s.bump f).rd f = min (s.rd f + 1) (2 ^ f.width - 1) := by
  have fits : min (s.rd f + 1) (2 ^ f.width - 1) < 2 ^ f.width := by have := Nat.two_pow_pos f.width; omega
  exact (State.rd_wr_same _ _ _).trans (Nat.mod_eq_of_lt fits)

/-! BRACE_ENTER (R505) -/

/-- The flag of a warning's source. -/
def warnFld : WarnSource → Fld
  | .core => Reg.PWR.STATUS_CORE_WARN
  | .aon => Reg.PWR.STATUS_AON_WARN
  | .pwrWarn => Reg.PWR.STATUS_PWR_WARN

/-- A warning sets the level and the flag of its source. -/
def State.warned (s : State) : WarnSource → State
  | .core => ({ s with power := { s.power with core := if s.power.core = Level.reset then Level.reset else Level.warn } }).wr Reg.PWR.STATUS_CORE_WARN 1
  | .aon => ({ s with power := { s.power with aon := if s.power.aon = Level.reset then Level.reset else Level.warn } }).wr Reg.PWR.STATUS_AON_WARN 1
  | .pwrWarn => ({ s with power := { s.power with pwrWarn := true } }).wr Reg.PWR.STATUS_PWR_WARN 1

/-- What Brace entry shows on the PWR page. -/
def State.braceShown (s : State) : State :=
  ((({ s with power := { s.power with torn := false } } : State).wr Reg.PWR.STATUS_BRACE 1).bump Reg.PWR.BRACE_COUNT).raise pgPWR 8

theorem exec_braceEnter_awake (s : State) (src : WarnSource) (awake : s.mode.phase ≠ Phase.shelf) :
    exec (.braceEnter src) s = .next (if (s.warned src).flag Reg.PWR.STATUS_BRACE then s.warned src
      else (s.warned src).braceShown.braceChannels.braceDefers) := by
  cases src <;> exact congrArg Host.Outcome.next (if_neg awake)

theorem State.warned_only (s : State) (src : WarnSource) : OnlyFields [warnFld src] s (s.warned src) := by
  cases src <;> exact (OnlyFields.refl _ s).outside.wr List.mem_cons_self

theorem State.warned_flag (s : State) (src : WarnSource) : (s.warned src).flag (warnFld src) = true := by
  cases src <;> exact State.flag_wr_one _ _ rfl

/-- A warning leaves every field alone that lies apart from the three flags. -/
theorem State.rd_warned (s : State) (src : WarnSource) (g : Fld) (h : ∀ x : WarnSource, (warnFld x).apart g = true) : (s.warned src).rd g = s.rd g :=
  (s.warned_only src).rd_apart g (by simp [h src])

/-- The fields that Brace entry writes besides those of the PWR page. -/
def braceFlds : List Fld := Reg.LCS.TRANSITION_STATUS_DEFERRED :: Reg.KVT.PERSIST_STATUS_DEFERRED :: (List.range 8).flatMap channelFlds

theorem State.braceDefers_only (s : State) : OnlyFields [Reg.LCS.TRANSITION_STATUS_DEFERRED, Reg.KVT.PERSIST_STATUS_DEFERRED] s s.braceDefers := by
  unfold State.braceDefers
  dsimp only
  split <;> split
  · exact (OnlyFields.refl _ s).wr.wr
  · exact (OnlyFields.refl _ s).wr
  · exact (OnlyFields.refl _ s).wr
  · exact OnlyFields.refl _ s

/-- A transition or an opening order in progress shows DEFERRED (R121). -/
theorem State.braceDefers_deferred (s : State) (h : s.lcs.busy = true ∨ s.dbg.opening.isSome = true) :
    s.braceDefers.flag Reg.LCS.TRANSITION_STATUS_DEFERRED = true := by
  have works : (s.lcs.busy || s.dbg.opening.isSome) = true := by simpa using h
  unfold State.braceDefers
  rw [if_pos works]
  dsimp only
  split
  · exact (State.flag_wr_apart _ _ _ _ rfl).trans (State.flag_wr_one _ _ rfl)
  · exact State.flag_wr_one _ _ rfl

/-- Brace is entered: the PWR page shows it, and of its fields no later step of the entry changes one. -/
structure BraceEntered (s t : State) : Prop where
  brace : t.flag Reg.PWR.STATUS_BRACE = true
  count : t.rd Reg.PWR.BRACE_COUNT = min (s.rd Reg.PWR.BRACE_COUNT + 1) (2 ^ Reg.PWR.BRACE_COUNT.width - 1)
  event : t.raised pgPWR 8 = true
  warns : ∀ src : WarnSource, t.flag (warnFld src) = s.flag (warnFld src)
  deferred : s.lcs.busy = true ∨ s.dbg.opening.isSome = true → t.flag Reg.LCS.TRANSITION_STATUS_DEFERRED = true

theorem State.brace_entered (s : State) : BraceEntered s s.braceShown.braceChannels.braceDefers := by
  obtain ⟨channels, lcs, dbg⟩ := s.braceShown.braceChannels_work
  have only : OnlyFields braceFlds s.braceShown s.braceShown.braceChannels.braceDefers :=
    (channels.mono (List.subset_append_right [_, _] _)).trans (s.braceShown.braceChannels.braceDefers_only.mono (by simp))
  constructor
  case brace =>
    rw [only.flag_apart _ rfl]
    simp (disch := exact id rfl) only [State.braceShown, State.raise_eq, State.bump, State.bumpBy, State.flag_wr_apart, State.flag_wr_one]
  case count =>
    rw [only.rd_apart _ rfl, State.braceShown, State.raise_eq, State.rd_wr_apart _ _ _ _ rfl, State.rd_bump_same, State.rd_wr_apart _ _ _ _ rfl]
    rfl
  case event =>
    rw [State.raised, only.flag_apart _ rfl]
    exact State.flag_wr_one _ _ rfl
  case warns =>
    intro src
    have shown : OnlyFields [Reg.PWR.STATUS_BRACE, Reg.PWR.BRACE_COUNT, Hdr.EVENT pgPWR 8] s s.braceShown := (OnlyFields.refl _ s).outside.wr.wr.wr
    cases src <;> exact (only.flag_apart _ rfl).trans (shown.flag_apart _ rfl)
  case deferred => exact fun works => State.braceDefers_deferred _ (by rw [lcs, dbg]; exact works)

/-- BRACE_ENTER outside SHELF: the warning, and the entry where no Brace lasts. -/
theorem exec_braceEnter_of_awake (s : State) (src : WarnSource) (awake : s.mode.phase ≠ Phase.shelf) :
    ∃ t, exec (.braceEnter src) s = .next t ∧ t.flag Reg.PWR.STATUS_BRACE = true ∧ t.flag (warnFld src) = true
      ∧ (s.flag Reg.PWR.STATUS_BRACE = true → t.rd Reg.PWR.BRACE_COUNT = s.rd Reg.PWR.BRACE_COUNT ∧ sameCfg s t ∧ sameStores s t)
      ∧ (s.flag Reg.PWR.STATUS_BRACE = false → t.rd Reg.PWR.BRACE_COUNT = min (s.rd Reg.PWR.BRACE_COUNT + 1) (2 ^ Reg.PWR.BRACE_COUNT.width - 1)
          ∧ t.raised pgPWR 8 = true
          ∧ (s.lcs.busy = true ∨ s.dbg.opening.isSome = true → t.flag Reg.LCS.TRANSITION_STATUS_DEFERRED = true)) := by
  have warned := s.warned_only src
  have flag := s.warned_flag src
  have count : (s.warned src).rd Reg.PWR.BRACE_COUNT = s.rd Reg.PWR.BRACE_COUNT := s.rd_warned src _ fun x => by cases x <;> rfl
  have brace : (s.warned src).flag Reg.PWR.STATUS_BRACE = s.flag Reg.PWR.STATUS_BRACE :=
    congrArg (fun n => decide (n = 1)) (s.rd_warned src _ fun x => by cases x <;> rfl)
  have work : (s.warned src).lcs = s.lcs ∧ (s.warned src).dbg = s.dbg := by cases src <;> exact ⟨rfl, rfl⟩
  rw [exec_braceEnter_awake s src awake]
  cases lasts : s.flag Reg.PWR.STATUS_BRACE with
  | true =>
    rw [if_pos (brace.trans lasts)]
    exact ⟨_, rfl, brace.trans lasts, flag, fun _ => ⟨count, warned.cfg, warned.stores⟩, nofun⟩
  | false =>
    rw [if_neg (by rw [brace, lasts]; exact Bool.false_ne_true)]
    have entered := (s.warned src).brace_entered
    exact ⟨_, rfl, entered.brace, (entered.warns src).trans flag, nofun, fun _ => ⟨entered.count.trans (by rw [count]), entered.event,
      fun works => entered.deferred (by rw [work.1, work.2]; exact works)⟩⟩

/-! BRACE_EXIT (R507) -/

/-- The supplies are good again, the five flags of Brace fall, and the exit raises its event. -/
def State.braceCleared (s : State) : State :=
  let s := { s with power := { s.power with core := .ok, aon := .ok, pwrWarn := false } }
  let s := (((s.wr Reg.PWR.STATUS_BRACE 0).wr Reg.PWR.STATUS_BRACE_LONG 0).wr Reg.PWR.STATUS_CORE_WARN 0).wr Reg.PWR.STATUS_AON_WARN 0
  (s.wr Reg.PWR.STATUS_PWR_WARN 0).raise pgPWR 9

/-- Brace ends, and a ride without a reset is counted with its length. -/
def State.braceEnded (s : State) (us : Nat) : State :=
  if s.power.torn then s.braceCleared else (s.braceCleared.bump Reg.PWR.BROWNOUT_RIDE).peak Reg.PWR.BRACE_MAX_SEEN us

/-- What the end of Brace shows and leaves. -/
structure BraceOver (s t : State) : Prop extends Framed s t where
  power : t.power = { s.power with core := .ok, aon := .ok, pwrWarn := false }
  brace : t.flag Reg.PWR.STATUS_BRACE = false
  long : t.flag Reg.PWR.STATUS_BRACE_LONG = false
  warns : ∀ src : WarnSource, t.flag (warnFld src) = false
  event : t.raised pgPWR 9 = true
  ride : t.rd Reg.PWR.BROWNOUT_RIDE = if s.power.torn then s.rd Reg.PWR.BROWNOUT_RIDE
    else min (s.rd Reg.PWR.BROWNOUT_RIDE + 1) (2 ^ Reg.PWR.BROWNOUT_RIDE.width - 1)

theorem State.braceCleared_only (s : State) :
    OnlyFields [Reg.PWR.STATUS_BRACE, Reg.PWR.STATUS_BRACE_LONG, Reg.PWR.STATUS_CORE_WARN, Reg.PWR.STATUS_AON_WARN, Reg.PWR.STATUS_PWR_WARN,
      Hdr.EVENT pgPWR 9] s s.braceCleared :=
  (OnlyFields.refl _ s).outside.wr.wr.wr.wr.wr.wr

theorem State.braceEnded_only (s : State) (us : Nat) :
    OnlyFields [Reg.PWR.BROWNOUT_RIDE, Reg.PWR.BRACE_MAX_SEEN] s.braceCleared (s.braceEnded us) := by
  unfold State.braceEnded
  split
  · exact OnlyFields.refl _ _
  · exact (OnlyFields.refl _ _).wr.wr

theorem State.braceEnded_ride (s : State) (us : Nat) : (s.braceEnded us).rd Reg.PWR.BROWNOUT_RIDE =
    if s.power.torn then s.rd Reg.PWR.BROWNOUT_RIDE else min (s.rd Reg.PWR.BROWNOUT_RIDE + 1) (2 ^ Reg.PWR.BROWNOUT_RIDE.width - 1) := by
  have before : s.braceCleared.rd Reg.PWR.BROWNOUT_RIDE = s.rd Reg.PWR.BROWNOUT_RIDE := s.braceCleared_only.rd_apart _ rfl
  unfold State.braceEnded
  split
  · exact before
  · rw [State.peak, State.rd_wr_apart _ _ _ _ rfl, State.rd_bump_same, before]

theorem State.braceEnded_over (s : State) (us : Nat) : BraceOver s (s.braceEnded us) := by
  have ended := s.braceEnded_only us
  constructor
  case toFramed => exact s.braceCleared_only.toFramed.trans ended.toFramed
  case power => unfold State.braceEnded; split <;> rfl
  case ride => exact s.braceEnded_ride us
  case brace =>
    rw [ended.flag_apart _ rfl, State.braceCleared]
    simp (disch := exact id rfl) only [State.raise_eq, State.flag_wr_apart, State.flag_wr_zero]
  case long =>
    rw [ended.flag_apart _ rfl, State.braceCleared]
    simp (disch := exact id rfl) only [State.raise_eq, State.flag_wr_apart, State.flag_wr_zero]
  case warns =>
    intro src
    have fallen : s.braceCleared.flag (warnFld src) = false := by
      cases src <;> simp (disch := exact id rfl) only [warnFld, State.braceCleared, State.raise_eq, State.flag_wr_apart, State.flag_wr_zero]
    exact (ended.flag_apart _ (by cases src <;> rfl)).trans fallen
  case event => exact (ended.flag_apart _ rfl).trans (State.flag_wr_one _ _ rfl)

theorem exec_braceExit_ends (s : State) (us : Nat) (brace : s.flag Reg.PWR.STATUS_BRACE = true) (core : s.power.core ≠ Level.reset)
    (aon : s.power.aon ≠ Level.reset) : exec (.braceExit us) s = .next (s.braceEnded us).resumeAfterBrace.openingResume.pushResume := by
  have ends : (s.flag Reg.PWR.STATUS_BRACE && decide (s.power.core ≠ Level.reset) && decide (s.power.aon ≠ Level.reset)) = true := by
    simp [brace, core, aon]
  have state : exec (.braceExit us) s = .next (if s.braceCleared.power.torn then s.braceCleared
    else (s.braceCleared.bump Reg.PWR.BROWNOUT_RIDE).peak Reg.PWR.BRACE_MAX_SEEN us).resumeAfterBrace.openingResume.pushResume :=
    congrArg Host.Outcome.next (if_pos ends)
  exact state

/-! GLITCH (R510) -/

/-- An entry of the security event log changes nothing but that log. -/
theorem State.secLog_nvm (s : State) (k : SecKind) (reason : Nat) (d : BitVec 384) :
    ∃ l, s.secLog k reason d = { s with nvm := { s.nvm with secLog := l } } := ⟨_, rfl⟩

theorem State.secLog_regs (s : State) (k : SecKind) (reason : Nat) (d : BitVec 384) : (s.secLog k reason d).regs = s.regs := by
  obtain ⟨l, hl⟩ := s.secLog_nvm k reason d
  rw [hl]

/-- A new entry of the security event log is among the newest 4,096 (R22). -/
theorem State.secLog_logged (s : State) (k : SecKind) (reason : Nat) (d : BitVec 384) :
    ∃ e ∈ (s.secLog k reason d).nvm.secLog, e.kind = k ∧ e.mrt = s.time.mrt := by
  refine ⟨⟨k, reason, BitVec.ofNat 128 (d.toNat / 2 ^ 256), s.time.mrt⟩, ?_, rfl, rfl⟩
  unfold State.secLog
  dsimp only
  rw [List.drop_append_of_le_length (by rw [List.length_append, List.length_singleton]; omega)]
  exact List.mem_append_right _ List.mem_cons_self

/-- A glitch with the main domain on is counted and recorded with its event. -/
def State.glitchShown (s : State) (core aon : Bool) : State :=
  ((s.bump Reg.PWR.GLITCH_COUNT).wr Reg.PWR.GLITCH_LAST (b2n core + 2 * b2n aon)).raise pgPWR 10

theorem State.glitchShown_only (s : State) (core aon : Bool) :
    OnlyFields [Reg.PWR.GLITCH_COUNT, Reg.PWR.GLITCH_LAST, Hdr.EVENT pgPWR 10] s (s.glitchShown core aon) :=
  (OnlyFields.refl _ s).wr.wr.wr

theorem State.glitchShown_count (s : State) (core aon : Bool) :
    (s.glitchShown core aon).rd Reg.PWR.GLITCH_COUNT = min (s.rd Reg.PWR.GLITCH_COUNT + 1) (2 ^ Reg.PWR.GLITCH_COUNT.width - 1) := by
  rw [State.glitchShown, State.raise_eq, State.rd_wr_apart _ _ _ _ rfl, State.rd_wr_apart _ _ _ _ rfl, State.rd_bump_same]

theorem State.glitchShown_event (s : State) (core aon : Bool) : (s.glitchShown core aon).raised pgPWR 10 = true := State.flag_wr_one _ _ rfl

theorem State.glitchShown_last (s : State) (core aon : Bool) : (s.glitchShown core aon).rd Reg.PWR.GLITCH_LAST = b2n core + 2 * b2n aon := by
  rw [State.glitchShown, State.raise_eq, State.rd_wr_apart _ _ _ _ rfl, State.rd_wr_same]
  cases core <;> cases aon <;> rfl

/-- Outside SHELF a glitch is counted; with the main domain on it is recorded and logged besides, and where GLITCH_CTRL asks for it the main
domain resets. -/
theorem exec_glitch_awake (s : State) (core aon : Bool) (awake : s.mode.phase ≠ Phase.shelf) :
    exec (.glitch core aon) s = .next (if s.power.mainOn then
        (if s.cfgb Reg.PWR.GLITCH_CTRL then ((s.glitchShown core aon).secLog .glitch 0 0).mainPor 1 else (s.glitchShown core aon).secLog .glitch 0 0)
      else s.bump Reg.PWR.GLITCH_COUNT) := by
  have cfg : ((s.glitchShown core aon).secLog .glitch 0 0).cfgb Reg.PWR.GLITCH_CTRL = s.cfgb Reg.PWR.GLITCH_CTRL := congrArg (fun n => decide (n = 1))
    (State.cfg_of_sameCfg (sameCfg_trans (s.glitchShown_only core aon).cfg (sameCfg_of_regs (State.secLog_regs _ _ _ _))) _)
  have arm : exec (.glitch core aon) s = execGlitch core aon s := rfl
  have power : (s.bump Reg.PWR.GLITCH_COUNT).power = s.power := rfl
  rw [← cfg, arm, execGlitch, if_neg awake, State.glitchShown]
  dsimp only [power]
  rfl

/-! ENCL_OPEN (R499, R501) -/

/-- The tamper latch as a setting leaves it: CAUSE and RULE are those of the first setting. -/
def State.tamperLatched (s : State) (c r : Nat) : State :=
  if s.flag Reg.AON.TAMPER_LATCH then s else ((s.wr Reg.AON.TAMPER_LATCH 1).wr Reg.AON.TAMPER_CAUSE c).wr Reg.AON.TAMPER_RULE r

/-- A setting of the latch is counted and raises its event. -/
def State.tamperCounted (s : State) (c r : Nat) : State := ((s.tamperLatched c r).bump Reg.AON.TAMPER_SET_COUNT).raise pgAON 8

theorem State.setTamper_eq (s : State) (c r : Nat) :
    s.setTamper c r = if (s.tamperCounted c r).up then (s.tamperCounted c r).wr Reg.KVT.STATUS_TAMPER_SEEN 1 else s.tamperCounted c r := rfl

theorem State.tamperCounted_only (s : State) (c r : Nat) : OnlyFields tamperFlds s (s.tamperCounted c r) := by
  unfold State.tamperCounted State.tamperLatched tamperFlds
  split
  · exact (OnlyFields.refl _ s).wr.wr
  · exact (OnlyFields.refl _ s).wr.wr.wr.wr.wr

theorem State.setTamper_only (s : State) (c r : Nat) : OnlyFields (Reg.KVT.STATUS_TAMPER_SEEN :: tamperFlds) s (s.setTamper c r) := by
  have counted : OnlyFields (Reg.KVT.STATUS_TAMPER_SEEN :: tamperFlds) s (s.tamperCounted c r) := (s.tamperCounted_only c r).mono
  rw [State.setTamper_eq]
  split
  · exact counted.wr
  · exact counted

/-- Once set the tamper latch is 1, whatever it was. -/
theorem State.setTamper_latch (s : State) (c r : Nat) : (s.setTamper c r).flag Reg.AON.TAMPER_LATCH = true := by
  have latched : (s.tamperLatched c r).flag Reg.AON.TAMPER_LATCH = true := by
    unfold State.tamperLatched
    split
    · assumption
    · simp (disch := exact id rfl) only [State.flag_wr_apart, State.flag_wr_one]
  have counted : (s.tamperCounted c r).flag Reg.AON.TAMPER_LATCH = true := by
    simp (disch := exact id rfl) only [State.tamperCounted, State.raise_eq, State.bump, State.bumpBy, State.flag_wr_apart, latched]
  rw [State.setTamper_eq]
  split
  · exact (State.flag_wr_apart _ _ _ _ rfl).trans counted
  · exact counted

theorem exec_enclOpen_of_watched (s : State) (aon : s.power.aon ≠ Level.reset) (watched : s.cfgb Reg.AON.TAMPER_CFG = true) :
    ∃ t, exec .enclOpen s = .next t ∧ t.flag Reg.AON.TAMPER_ENCL_LATCH = true
      ∧ (s.mode.phase = Phase.shelf → t.rd Reg.AON.TAMPER_LATCH = s.rd Reg.AON.TAMPER_LATCH ∧ t.power.enclInShelf = true)
      ∧ (s.mode.phase ≠ Phase.shelf → t.flag Reg.AON.TAMPER_LATCH = true) ∧ sameCfg s t ∧ sameStores s t := by
  have takes : (decide (s.power.aon ≠ Level.reset) && s.cfgb Reg.AON.TAMPER_CFG) = true := by simp [aon, watched]
  have opened : OnlyFields [Reg.AON.TAMPER_ENCL_LATCH] s (s.wr Reg.AON.TAMPER_ENCL_LATCH 1) := (OnlyFields.refl _ s).wr
  have latch : (s.wr Reg.AON.TAMPER_ENCL_LATCH 1).flag Reg.AON.TAMPER_ENCL_LATCH = true := State.flag_wr_one _ _ rfl
  by_cases asleep : s.mode.phase = Phase.shelf
  · exact ⟨_, congrArg Host.Outcome.next ((if_pos takes).trans (if_pos asleep)), latch, fun _ => ⟨opened.rd_apart _ rfl, rfl⟩,
      fun awake => absurd asleep awake, (opened.outside (l := _)).cfg, opened.outside.stores⟩
  · have tamper := (s.wr Reg.AON.TAMPER_ENCL_LATCH 1).setTamper_only 2 0xFF
    exact ⟨_, congrArg Host.Outcome.next ((if_pos takes).trans (if_neg asleep)), (tamper.flag_apart _ rfl).trans latch,
      fun h => absurd h asleep, fun _ => State.setTamper_latch _ _ _, sameCfg_trans opened.cfg tamper.cfg,
      sameStores_trans opened.stores tamper.stores⟩

/-- Settles O23: the warnings and Brace, its exit, the commands that wait, a glitch, and the enclosure. -/
theorem supplyEvents : Obligations.SupplyEvents := by
  refine ⟨fun s src awake => ?_, fun s src asleep => ?_, fun s us brace core aon => ?_, fun s us h => ?_, fun s a free brace issued blank inside => ?_,
    fun s brace short => ?_, fun s h => ?_, fun s c a asleep => congrArg Host.Outcome.next (if_pos asleep), fun s c a awake off => ?_,
    fun s c a awake on => ?_, exec_enclOpen_of_watched, fun s h => ?_⟩
  · obtain ⟨t, done, shown, flag, warned, entered⟩ := exec_braceEnter_of_awake s src awake
    exact ⟨t, done, shown, by cases src <;> exact flag, warned, entered⟩
  · rw [show exec (.braceEnter src) s = _ from congrArg Host.Outcome.next (if_pos asleep)]
    simp only [Bool.and_eq_true, decide_eq_true_eq]
  · have ended := s.braceEnded_over us
    exact ⟨_, exec_braceExit_ends s us brace core aon, ended.power, ended.brace, ended.long, ended.warns .core, ended.warns .aon, ended.warns .pwrWarn,
      ended.event, fun torn => by rw [ended.ride, torn]; rfl, fun torn => by rw [ended.ride, torn]; rfl, ended.cfg, ended.stores⟩
  · exact congrArg Host.Outcome.next (if_neg (by rcases h with h | h | h <;> simp [h]))
  · have held := s.lcsHold_held (.lcsProgramAuth a)
    rw [exec_lcsProgramAuth_ready s a free, s.startProgramAuth_accepted a issued blank inside, if_pos brace]
    exact ⟨_, rfl, held.runs, held.busy, held.deferred.trans brace, held.fields, held.cfg, held.stores⟩
  · have only : OnlyFields [Reg.PWR.STATUS_BRACE_LONG, Hdr.EVENT pgPWR 11] s ((s.wr Reg.PWR.STATUS_BRACE_LONG 1).raise pgPWR 11) :=
      (OnlyFields.refl _ s).wr.wr
    exact ⟨_, congrArg Host.Outcome.next (if_pos (by simp [brace, short])), (State.flag_wr_apart _ _ _ _ rfl).trans (State.flag_wr_one _ _ rfl),
      State.flag_wr_one _ _ rfl, only.fields, only.cfg, only.stores⟩
  · exact congrArg Host.Outcome.next (if_neg (by rcases h with h | h <;> simp [h]))
  · have only : OnlyFields [Reg.PWR.GLITCH_COUNT] s (s.bump Reg.PWR.GLITCH_COUNT) := (OnlyFields.refl _ s).wr
    rw [exec_glitch_awake s c a awake, off, if_neg Bool.false_ne_true]
    exact ⟨_, rfl, s.rd_bump_same _, only.fields, only.cfg, only.stores⟩
  · have only := s.glitchShown_only c a
    rw [exec_glitch_awake s c a awake, if_pos on]
    have regs := (s.glitchShown c a).secLog_regs .glitch 0 0
    have rd (g : Fld) : ((s.glitchShown c a).secLog .glitch 0 0).rd g = (s.glitchShown c a).rd g := State.rd_of_regs regs g
    exact ⟨_, rfl, (rd _).trans (s.glitchShown_count c a), (rd _).trans (s.glitchShown_last c a),
      (congrArg (fun n => decide (n = 1)) (rd _)).trans (s.glitchShown_event c a), State.secLog_logged _ _ _ _,
      fun g hg => (rd g).trans (only.fields g hg), sameCfg_trans only.cfg (sameCfg_of_regs regs), only.stores.sram, only.stores.flash, only.stores.otp⟩
  · exact congrArg Host.Outcome.next (if_neg (by rcases h with h | h <;> simp [h]))

end Sys2Proof.Machine
end

section
/-! SUPPORT. Steps 1 to 3 of a transition (R107, R110, R114, R115). -/

namespace Sys2Proof.Machine

/-- What the actions of a target leave alone (R114): the blown thermometer, the intent slots, and all that is neither OTP nor internal NVM;
a root is drawn from the CTR_DRBG, which may reseed (R252). -/
structure ActionsKeep (s t : State) : Prop where
  therm : t.otp.therm = s.otp.therm
  intents : t.nvm.intents = s.nvm.intents
  cmds : t.cmds = s.cmds
  tap : t.tap = s.tap
  sram : t.sram = s.sram
  flash : t.flash = s.flash
  retention : t.retention = s.retention
  cfg : sameCfg s t
  fields : sameFieldsBut [Reg.RNG.RESEED_COUNT] s t

namespace ActionsKeep

variable {s t : State}

theorem refl (s : State) : ActionsKeep s s := ⟨rfl, rfl, rfl, rfl, rfl, rfl, rfl, sameCfg_refl s, sameFieldsBut_refl _ s⟩

/-- Blows of OTP outside the thermometer, and programs of internal NVM outside the intent slots. -/
theorem blow {o : Otp} {n : Nvm} (h : ActionsKeep s t) (therm : o.therm = t.otp.therm := by rfl) (intents : n.intents = t.nvm.intents := by rfl) :
    ActionsKeep s { t with otp := o, nvm := n } :=
  ⟨therm.trans h.therm, intents.trans h.intents, h.cmds, h.tap, h.sram, h.flash, h.retention, sameCfg_trans h.cfg (sameCfg_of_regs rfl), h.fields⟩

theorem draw (s : State) (n : Nat) : ActionsKeep s (s.draw n).1 := by
  have quiet := (Quiet.refl s).draw (n := n)
  have rest : (s.draw n).1.cmds = s.cmds ∧ (s.draw n).1.tap = s.tap := by
    unfold State.draw
    dsimp only
    split <;> exact ⟨rfl, rfl⟩
  exact ⟨by rw [quiet.stores.otp], by rw [quiet.stores.nvm], rest.1, rest.2, quiet.stores.sram, quiet.stores.flash, quiet.stores.retention,
    quiet.cfg, s.draw_fields n⟩

end ActionsKeep

theorem State.lcsActions_keep (s : State) (target : Nat) : ActionsKeep s (s.lcsActions target).1 := by
  have same := ActionsKeep.refl s
  unfold State.lcsActions
  split
  · exact same.blow
  split
  · split
    · exact same
    · exact (ActionsKeep.draw s 48).blow (ActionsKeep.draw s 48).therm.symm
  split
  · exact same.blow
  split
  · exact same.blow
  split
  · exact same.blow
  · exact same.blow

/-- Whether a bank can take a root does not depend on the root. -/
theorem genRoot_done (a b : RootBank) (v w : BitVec 384) : (genRoot a b v).2.2 = (genRoot a b w).2.2 := by
  simp only [genRoot, apply_ite Prod.snd]

/-- Whether the actions of a target can be done depends on the fuse root's banks and on the CTR_DRBG alone (R117, R253). -/
theorem State.lcsActions_fault (s u : State) (target : Nat) (banks : u.otp.fuseA = s.otp.fuseA ∧ u.otp.fuseB = s.otp.fuseB)
    (rng : u.rngServes = s.rngServes) : (u.lcsActions target).2 = (s.lcsActions target).2 := by
  have fuse : u.fuseDone = s.fuseDone := by rw [State.fuseDone, State.fuseDone, banks.1, banks.2]
  unfold State.lcsActions
  split
  · rfl
  split
  · rw [fuse, rng]
    split
    · rfl
    · dsimp only
      rw [banks.1, banks.2, genRoot_done _ _ _ (digestOf 384 (s.draw 48).2)]
  repeat' split
  all_goals rfl

/-- Steps 1 and 2: the sequencer is BUSY, the slot of a fresh transition is written, and the thermometer bit is blown. -/
def State.lcsOpened (s : State) (i : Instr) (c target : Nat) (d : BitVec 384) (fresh : Bool) : State :=
  let s := (s.cmdStart pgLCS 0x5C i).wr Reg.LCS.TRANSITION_STATUS_BUSY 1
  (if fresh then s.writeIntent c target d else s).blowTherm c

/-- What steps 1 and 2 make of the state. -/
structure LcsOpened (i : Instr) (c : Nat) (slot : Intent) (s t : State) : Prop where
  otp : t.otp = { s.otp with therm := s.otp.therm ||| BitVec.ofNat 16 (2 ^ c) }
  slot : t.intent c = slot
  busy : t.flag Reg.LCS.TRANSITION_STATUS_BUSY = true
  runs : (t.cmdSlot pgLCS 0x5C).running = some i
  tap : t.tap = s.tap
  sram : t.sram = s.sram
  flash : t.flash = s.flash
  retention : t.retention = s.retention
  cfg : sameCfg s t
  fields : sameFieldsBut [Reg.LCS.TRANSITION_STATUS_BUSY] s t

/-- The slot of a transition once it is open: written afresh for an APPLY, and for a RESUME as it was. -/
def State.slotOpened (s : State) (c target : Nat) (d : BitVec 384) (fresh : Bool) : Intent :=
  if fresh then ⟨target, c, d, true, 0, BitVec.allOnes 64⟩ else s.intent c

theorem State.lcsOpened_spec (s : State) (i : Instr) (c target : Nat) (d : BitVec 384) (fresh : Bool) :
    LcsOpened i c (s.slotOpened c target d fresh) s (s.lcsOpened i c target d fresh) := by
  have only : OnlyFields [Reg.LCS.TRANSITION_STATUS_BUSY] s ((s.cmdStart pgLCS 0x5C i).wr Reg.LCS.TRANSITION_STATUS_BUSY 1) :=
    (OnlyFields.refl _ s).setCmdSlot.wr
  have busy : ((s.cmdStart pgLCS 0x5C i).wr Reg.LCS.TRANSITION_STATUS_BUSY 1).flag Reg.LCS.TRANSITION_STATUS_BUSY = true :=
    State.flag_wr_one _ _ rfl
  have runs : (((s.cmdStart pgLCS 0x5C i).wr Reg.LCS.TRANSITION_STATUS_BUSY 1).cmdSlot pgLCS 0x5C).running = some i := by
    simp only [State.wr_cmdSlot, State.cmdStart_eq, State.cmdSlot_setCmdSlot_same]
  cases fresh with
  | false => exact ⟨rfl, rfl, busy, runs, rfl, rfl, rfl, rfl, sameCfg_trans only.cfg (sameCfg_of_regs rfl), only.fields⟩
  | true => exact ⟨rfl, Tbl.get_put_same _ _ _ _, busy, runs, rfl, rfl, rfl, rfl, sameCfg_trans only.cfg (sameCfg_of_regs rfl), only.fields⟩

/-- Steps 1 to 3 where the actions of the target can be done (R107). -/
theorem State.lcsRun_begun (s : State) (i : Instr) (c target : Nat) (d : BitVec 384) (fresh : Bool) (done : actionsDone s target) :
    transitionBegun s (s.lcsRun i c target d fresh) i c target ∧ (s.lcsRun i c target d fresh).intent c = s.slotOpened c target d fresh
    ∧ (s.lcsRun i c target d fresh).tap = s.tap := by
  have opened := s.lcsOpened_spec i c target d fresh
  have begun : s.lcsRun i c target d fresh = match ((s.lcsOpened i c target d fresh).lcsActions target).2 with
    | none => { ((((s.lcsOpened i c target d fresh).lcsActions target).1.programCodeword target c).wr Reg.LCS.TRANSITION_STATUS_STEP 4) with
        lcs := ⟨true, c, false, d⟩ }
    | some code => ((s.lcsOpened i c target d fresh).lcsActions target).1.lcsFails code := rfl
  generalize s.lcsOpened i c target d fresh = u at opened begun
  have keep := u.lcsActions_keep target
  have same : (u.lcsActions target).2 = none := by
    rw [s.lcsActions_fault u target (by rw [opened.otp]; exact ⟨rfl, rfl⟩) ?_]
    · exact done
    · exact congrArg (fun n => decide (n = 1)) (opened.fields Reg.RNG.STATUS_READY (by decide))
  rw [same] at begun
  generalize (u.lcsActions target).1 = v at keep begun
  rw [begun]
  refine ⟨{
      therm := keep.therm.trans (congrArg Otp.therm opened.otp)
      codeword := rfl
      busy := ?_
      step := State.rd_wr_same _ _ _
      lcs := ⟨rfl, rfl, rfl⟩
      runs := (congrArg (fun t => (Tbl.get ⟨none, none⟩ t (State.cmdKey pgLCS 0x5C) : CmdSlot).running) keep.cmds).trans opened.runs
      cfg := sameCfg_trans opened.cfg (sameCfg_trans keep.cfg (sameCfg_trans (sameCfg_wr v Reg.LCS.TRANSITION_STATUS_STEP 4) (sameCfg_of_regs rfl)))
      mems := ⟨keep.sram.trans opened.sram, keep.flash.trans opened.flash, keep.retention.trans opened.retention⟩
      fields := ?_ },
    (congrArg (fun t => Tbl.get Intent.blank t c) keep.intents).trans opened.slot, keep.tap.trans opened.tap⟩
  · have kept : v.flag Reg.LCS.TRANSITION_STATUS_BUSY = u.flag Reg.LCS.TRANSITION_STATUS_BUSY :=
      congrArg (fun n => decide (n = 1)) (keep.fields Reg.LCS.TRANSITION_STATUS_BUSY (by decide))
    exact (State.flag_wr_apart v Reg.LCS.TRANSITION_STATUS_STEP _ _ rfl).trans (kept.trans opened.busy)
  · exact (sameFieldsBut_trans (sameFieldsBut_mono opened.fields) (sameFieldsBut_mono keep.fields)).wr (f := Reg.LCS.TRANSITION_STATUS_STEP) (v := 4)

end Sys2Proof.Machine
end

section
/-! SUPPORT. A power-on reset and the sequencers (R17, R41): internal NVM stays as it is, and the transition is over. -/

namespace Sys2Proof.Machine

/-! The ledger at a loss of the main domain (R463) -/

/-- Internal NVM is as it was. -/
def NvmKept (s t : State) : Prop := t.nvm = s.nvm

namespace NvmKept

variable {s0 s : State}

theorem ite {a b : State} {p : Prop} {_ : Decidable p} (ha : NvmKept s0 a) (hb : NvmKept s0 b) : NvmKept s0 (if p then a else b) := by
  split <;> assumption

theorem wr {f : Fld} {v : Nat} (h : NvmKept s0 s) : NvmKept s0 (s.wr f v) := h

theorem setLedger {l : LedgerSt} (h : NvmKept s0 s) : NvmKept s0 (s.setLedger l) := h

theorem setJournal {j : List JRec} (h : NvmKept s0 s) : NvmKept s0 (s.setJournal j) := ite h.setLedger.wr.wr h.setLedger.wr

theorem putItem {r m : Nat} {u : Bool} {d : List Byte} (h : NvmKept s0 s) : NvmKept s0 (s.putItem r u m d) := by
  unfold State.putItem
  split
  · exact ite h.setLedger h.setJournal
  · exact ite h h.setJournal.setLedger

theorem knot {t v : Nat} (h : NvmKept s0 s) : NvmKept s0 (s.knot t v) := h.putItem.setLedger

theorem minuteEnd (h : NvmKept s0 s) : NvmKept s0 s.minuteEnd := by
  unfold State.minuteEnd
  split
  · exact (ite h.putItem h).setLedger
  · exact h

theorem coderBreak (h : NvmKept s0 s) : NvmKept s0 s.coderBreak := by
  have flushed : NvmKept s0 s.coderFlush := ite h.knot h
  exact (ite flushed.minuteEnd flushed).setLedger

theorem recordFall (h : NvmKept s0 s) : NvmKept s0 s.recordFall := h.coderBreak.wr.setLedger

theorem blockTorn (h : NvmKept s0 s) : NvmKept s0 s.blockTorn := by
  unfold State.blockTorn
  split
  · dsimp only
    split <;> exact h
  · exact h.setLedger

theorem ledgerOff (h : NvmKept s0 s) : NvmKept s0 s.ledgerOff := (ite h.recordFall h).blockTorn.setLedger

end NvmKept

/-! The work for hosts that a hold ends (R40, R41) -/

/-- The sequencer of the life cycle is as it was. -/
def LcsKept (s t : State) : Prop := t.lcs = s.lcs

namespace LcsKept

variable {s0 s : State}

theorem ite {a b : State} {p : Prop} {_ : Decidable p} (ha : LcsKept s0 a) (hb : LcsKept s0 b) : LcsKept s0 (if p then a else b) := by
  split <;> assumption

theorem foldl {α : Type} {f : State → α → State} {l : List α} (h : LcsKept s0 s)
    (hf : ∀ {u : State} {x : α}, LcsKept s0 u → LcsKept s0 (f u x)) : LcsKept s0 (l.foldl f s) :=
  List.foldlRecOn l f h fun _ k _ _ => hf k

theorem wr {f : Fld} {v : Nat} (h : LcsKept s0 s) : LcsKept s0 (s.wr f v) := h

/-- Engines, hosts, channels, ports, command slots and the vault are none of the sequencer. -/
theorem engines {d : Tbl DgeSt} {n : Tbl SnpSt} {q : Tbl Sched} {c : Tbl Chan} {r : Tbl HostSt} {i : Tbl CmdSlot} {m : CmpSt} {p : Tbl Port}
    {v : VaultSt} {g : RngSt} {k : Nat} (h : LcsKept s0 s) :
    LcsKept s0 { s with dge := d, snp := n, scheds := q, chans := c, hosts := r, cmds := i, cmp := m, ports := p, vault := v, rng := g, free := k } := h

theorem setHost {n : Nat} {x : HostSt} (h : LcsKept s0 s) : LcsKept s0 (s.setHost n x) := h.engines

theorem setLaneI {n m : Nat} (h : LcsKept s0 s) : LcsKept s0 (s.setLaneI n m) := h.engines.wr.wr

theorem refuse {p c off : Nat} (h : LcsKept s0 s) : LcsKept s0 (s.refuse p c off) := h.wr.wr

theorem cmdEnd {p off : Nat} (h : LcsKept s0 s) : LcsKept s0 (s.cmdEnd p off) := h.engines

theorem releaseDge {n : Nat} (h : LcsKept s0 s) : LcsKept s0 (s.releaseDge n) := ite h.engines.wr h.engines.wr

theorem dropReqs {x : Nat} {p : Req → Bool} (h : LcsKept s0 s) : LcsKept s0 (s.dropReqs x p) := by
  unfold State.dropReqs
  dsimp only
  refine ite h.engines ?_
  split
  · exact ite h.engines.engines.wr h.engines
  · exact h.engines

theorem pumpPke (h : LcsKept s0 s) : LcsKept s0 s.pumpPke := by
  obtain ⟨q, hq⟩ := s.pumpPke_scheds
  rw [hq]
  exact h.engines

theorem pumpCh {c : Nat} (h : LcsKept s0 s) : LcsKept s0 (s.pumpCh c) := (ChannelWork.refl c s).pumpCh.lcs.trans h

theorem dropIssuer {n : Nat} {ks : List ReqKind} (h : LcsKept s0 s) : LcsKept s0 (s.dropIssuer n ks) :=
  h.foldl fun k => ite k.dropReqs.pumpCh k

theorem gateEnd {n : Nat} (h : LcsKept s0 s) : LcsKept s0 (s.gateEnd n) := by
  unfold State.gateEnd
  split
  · exact h
  · exact (h.foldl releaseDge).setHost.setLaneI.dropReqs.pumpPke.dropIssuer

theorem pkeLeave {n : Nat} (h : LcsKept s0 s) : LcsKept s0 (s.pkeLeave n) := h.dropReqs.pumpPke

theorem readEnd {n : Nat} (h : LcsKept s0 s) : LcsKept s0 (s.readEnd n) := by
  unfold State.readEnd
  split
  · exact h
  · have left := (h.setHost (n := n) (x := { s.host n with read := none })).pkeLeave (n := n)
    exact (ite left.refuse.cmdEnd (ite left.refuse.cmdEnd left)).dropIssuer

theorem restoreEnd {n : Nat} (h : LcsKept s0 s) : LcsKept s0 (s.restoreEnd n) := by
  unfold State.restoreEnd
  split
  · exact h
  · next r _ =>
    have released : LcsKept s0 (match r.engine with | some e => s.releaseDge e | none => s) := by
      split
      · exact h.releaseDge
      · exact h
    exact (ite released.setHost.pkeLeave.engines.wr released.setHost.pkeLeave).dropIssuer

theorem touchEnd {n : Nat} (h : LcsKept s0 s) : LcsKept s0 (s.touchEnd n) := by
  unfold State.touchEnd
  split
  · exact ite h.engines h
  · exact h

theorem hostWorkEnd {n : Nat} (h : LcsKept s0 s) : LcsKept s0 (s.hostWorkEnd n) :=
  h.gateEnd.restoreEnd.readEnd.touchEnd.setHost.setLaneI.dropIssuer

theorem holdHost {n cause : Nat} (h : LcsKept s0 s) : LcsKept s0 (s.holdHost n cause) := by
  unfold State.holdHost
  exact ite h (foldl (engines h.hostWorkEnd) wr).setHost.wr.wr

theorem holdAll {cause : Nat} (h : LcsKept s0 s) : LcsKept s0 (s.holdAll cause) := h.foldl holdHost

theorem draw {n : Nat} (h : LcsKept s0 s) : LcsKept s0 (s.draw n).1 := (ite h.wr.engines h : LcsKept s0 (if _ then s.reseed else s)).engines

theorem vaultEpoch (h : LcsKept s0 s) : LcsKept s0 s.vaultEpoch := by
  have fresh : LcsKept s0 ((((({ s with vault := VaultSt.empty } : State).wr Reg.KVT.EPOCH (s.rd Reg.KVT.EPOCH + 1)).wr Reg.KVT.STATUS_ROOT_SOURCE 0).wr
    Reg.KVT.STATUS_TAMPER_SEEN 0)) := h.engines.wr.wr.wr
  exact ite fresh fresh.draw.engines

end LcsKept

/-- The loss of the main domain leaves internal NVM, and ends what the sequencer of the life cycle did. -/
theorem State.mainLost_lcs (s : State) : s.mainLost.nvm = s.nvm ∧ s.mainLost.lcs = ⟨false, 0, false, 0⟩ := by
  have off : NvmKept s s.ledgerOff := NvmKept.ledgerOff rfl
  unfold State.mainLost
  generalize s.ledgerOff = o at off ⊢
  dsimp only
  generalize hu : (List.range 6).foldl _ _ = u
  have hosts : u.nvm = o.nvm ∧ u.lcs = ⟨false, 0, false, 0⟩ := by
    rw [← hu]
    exact ⟨((Quiet.refl _).foldl Quiet.setHost).stores.nvm, LcsKept.foldl (s0 := { o with lcs := ⟨false, 0, false, 0⟩ }) rfl LcsKept.setHost⟩
  refine ⟨(Quiet.freshVault _).stores.nvm.trans (hosts.1.trans off), Eq.trans ?_ hosts.2⟩
  exact LcsKept.wr (LcsKept.vaultEpoch (s0 := u) rfl)

theorem State.mainPor_lcs (s : State) (c : Nat) : (s.mainPor c).nvm = s.nvm ∧ (s.mainPor c).lcs = ⟨false, 0, false, 0⟩ := by
  obtain ⟨nvm, lcs⟩ := s.mainLost_lcs
  unfold State.mainPor
  generalize s.mainLost = o at nvm lcs ⊢
  refine ⟨((Still.refl _).holdAll).stores.nvm.trans nvm, Eq.trans ?_ lcs⟩
  exact LcsKept.holdAll (s0 := o) rfl

end Sys2Proof.Machine
end

section
/-! O28: APPLY, RESUME and the end of a transition (R107-R112, R121, R123). -/

namespace Sys2Proof.Machine

/-! APPLY -/

section

variable (s : State) (a : Nat) (inside : State.inSram a tokenLen = true)
include inside

theorem State.startApply_waits (busy : s.pkeFree 2 = false) : State.startApply a s = s.lcsWait (.apply a) := by
  simp only [State.startApply, inside, busy, Bool.not_true, Bool.not_false, Bool.false_eq_true, if_false, if_true]

variable (free : s.pkeFree 2 = true)
include free

theorem State.startApply_refused (r : Nat) (fault : s.tokenFault (s.sramBytes a tokenLen) = some r ∨
    (s.tokenFault (s.sramBytes a tokenLen) = none ∧ s.preconditionFault (s.sramBytes a tokenLen) = some r)) :
    State.startApply a s = s.lcsRefuse r := by
  rcases fault with token | ⟨token, precondition⟩
  · simp only [State.startApply, inside, free, token, Bool.not_true, Bool.false_eq_true, if_false]
  · simp only [State.startApply, inside, free, token, precondition, Bool.not_true, Bool.false_eq_true, if_false]

theorem State.startApply_verified (token : s.tokenFault (s.sramBytes a tokenLen) = none)
    (precondition : s.preconditionFault (s.sramBytes a tokenLen) = none) :
    State.startApply a s = s.lcsRun (.apply a) s.otp.thermCount (tokenTarget (s.sramBytes a tokenLen)) (Config.sha384 (s.sramBytes a tokenLen)) true := by
  simp only [State.startApply, inside, free, token, precondition, Bool.not_true, Bool.false_eq_true, if_false]

end

/-- A token outside main SRAM, for either command (log entry 29). -/
theorem State.start_outside (s : State) (a : Nat) (outside : State.inSram a tokenLen = false) :
    State.startApply a s = s.lcsRefuse Reason.FIELD_RANGE ∧ State.startResume a s = s.lcsRefuse Reason.FIELD_RANGE :=
  ⟨if_pos (by rw [outside]; rfl), if_pos (by rw [outside]; rfl)⟩

/-! RESUME -/

section

variable (s : State) (tok : List Byte) (i : Instr)

theorem State.startResume_inside (a : Nat) (inside : State.inSram a tokenLen = true) :
    State.startResume a s = s.resumeWith (s.sramBytes a tokenLen) (.resume a) := if_neg (by simp [inside])

theorem State.resumeWith_valid (valid : s.lc ≠ lcINVALID) : s.resumeWith tok i = s.lcsRefuse Reason.NOT_IN_LIFECYCLE := if_pos valid

theorem State.resumeWith_noIntent (invalid : s.lc = lcINVALID) (closed : s.openIntents = []) :
    s.resumeWith tok i = s.lcsRefuse Reason.NO_INTENT := by
  simp only [State.resumeWith, invalid, closed, ne_eq, not_true, if_false]

theorem State.resumeWith_waits (c : Nat) (invalid : s.lc = lcINVALID) (opened : s.openIntents = [c]) (busy : s.pkeFree 2 = false) :
    s.resumeWith tok i = s.lcsWait i := by
  simp only [State.resumeWith, invalid, opened, busy, ne_eq, not_true, if_false, Bool.not_false, if_true]

/-- A token that passes every condition resumes the open slot (R112). -/
theorem State.resumeWith_resumes (c : Nat) (free : s.pkeFree 2 = true) (h : resumes s tok c) :
    s.resumeWith tok i = s.lcsRun i c (s.intent c).target (s.intent c).digest false := by
  have serial : (decide (¬ tokenSerial tok = s.otp.serial) && !(decide (tokenSerial tok = 0) && decide (authorityFor (tokenTarget tok) = 1))) = false := by
    rcases h.serial with same | ⟨blank, first⟩
    · simp [same]
    · simp [blank, first]
  have keys := h.keys
  rw [h.authority] at keys
  simp only [State.resumeWith, h.state, h.slot, free, h.digest, h.format, h.authority, keys, h.sigs, serial, h.count, h.offers, ne_eq, not_true,
    if_false, Bool.not_true, Bool.false_eq_true]
  exact if_neg (not_not_intro h.target)

end

/-! TAP RESUME (R112, R518) -/

/-- A token that resumes a slot does so whatever TAP instruction is selected. -/
theorem resumes_tapSelect {s : State} {tok : List Byte} {c : Nat} (h : resumes s tok c) (code : Nat) (ok : Bool) :
    resumes (s.tapSelect code ok) tok c :=
  ⟨h.state, h.slot, h.digest, h.format, h.authority, h.keys, h.sigs, h.serial, h.count, h.offers, h.target⟩

theorem transitionBegun_tapSelect {s t : State} {i : Instr} {c target code : Nat} {ok : Bool} (h : transitionBegun (s.tapSelect code ok) t i c target) :
    transitionBegun s t i c target :=
  ⟨h.therm, h.codeword, h.busy, h.step, h.lcs, h.runs, sameCfg_trans (sameCfg_of_regs (t := s.tapSelect code ok) rfl) h.cfg, h.mems, h.fields⟩

theorem exec_tapResume_bypass (s : State) (tok : List Byte) (up : s.tapUp = true) (right : s.right rightRESUME = false) :
    exec (.tapResume tok) s = .next (s.tapSelect 0x14 false) := by
  have right' : (s.tapSelect 0x14 false).right rightRESUME = false := right
  have taken : exec (.tapResume tok) s = execTapResume tok s := rfl
  simp only [taken, execTapResume, up, right, right', if_true, Bool.false_eq_true, if_false]

theorem exec_tapResume_right (s : State) (tok : List Byte) (up : s.tapUp = true) (right : s.right rightRESUME = true)
    (idle : s.cmdRuns pgLCS 0x5C = false) : exec (.tapResume tok) s = .next ((s.tapSelect 0x14 true).resumeWith tok (.tapResume tok)) := by
  have idle' : (s.tapSelect 0x14 true).cmdRuns pgLCS 0x5C = false := idle
  have right' : (s.tapSelect 0x14 true).right rightRESUME = true := right
  have taken : exec (.tapResume tok) s = execTapResume tok s := rfl
  simp only [taken, execTapResume, up, right, right', idle', if_true, Bool.false_eq_true, if_false]

/-! TRANSITION_DONE (R109) -/

/-- The end of a transition is logged, and CLOSED of its slot is programmed. -/
def State.transitionClosed (s : State) : State :=
  let u := s.secLog .transition 0 s.lcs.digest
  ({ u with nvm := { u.nvm with intents := Tbl.put Intent.blank u.nvm.intents s.lcs.slot { u.intent s.lcs.slot with closed := 0 } } } : State).raise pgLCS 8

/-- CLOSED of the slot reads 0, the log holds the transition, and the codeword, OTP, the ledger and the flash devices stay. -/
theorem State.transitionClosed_spec (s : State) :
    (s.transitionClosed.intent s.lcs.slot).closed = 0 ∧ (∃ e ∈ s.transitionClosed.nvm.secLog, e.kind = .transition ∧ e.mrt = s.time.mrt)
    ∧ s.transitionClosed.nvm.codeword = s.nvm.codeword ∧ s.transitionClosed.otp = s.otp ∧ s.transitionClosed.ledger = s.ledger
    ∧ s.transitionClosed.flash = s.flash := by
  have logged := s.secLog_logged .transition 0 s.lcs.digest
  obtain ⟨l, hl⟩ := s.secLog_nvm .transition 0 s.lcs.digest
  unfold State.transitionClosed
  rw [hl] at logged ⊢
  exact ⟨congrArg Intent.closed (Tbl.get_put_same _ _ _ _), logged, rfl, rfl, rfl, rfl⟩

theorem State.transitionFinish_runs (s : State) (busy : s.lcs.busy = true) (goes : s.lcs.deferred = false)
    (calm : s.flag Reg.PWR.STATUS_BRACE = false) : s.transitionFinish = s.transitionClosed.mainPor 1 := by
  unfold State.transitionFinish
  exact if_pos (by simp [busy, goes, calm])

theorem State.transitionFinish_idle (s : State) (h : s.lcs.busy = false ∨ s.lcs.deferred = true ∨ s.flag Reg.PWR.STATUS_BRACE = true) :
    s.transitionFinish = s := by
  unfold State.transitionFinish
  exact if_neg (by rcases h with h | h | h <;> simp [h])

/-- Settles O28: APPLY, RESUME on either way, and the end of the transition. -/
theorem transitions : Obligations.Transitions := by
  refine ⟨fun s a ready inside free token precondition done => ?_, fun s a r ready inside free fault => ?_, fun s a ready outside => ?_,
    fun s a ready inside busy => ?_, fun s tok i c invalid opened busy => s.resumeWith_waits tok i c invalid opened busy,
    fun s a ready inside => ?_, fun s tok up => ⟨fun right => ?_, fun right idle => exec_tapResume_right s tok up right idle,
      fun c right idle free h done => ?_⟩, fun s busy goes calm => ?_, fun s h => congrArg Host.Outcome.next (s.transitionFinish_idle h)⟩
  · obtain ⟨begun, slot, _⟩ := s.lcsRun_begun (.apply a) s.otp.thermCount _ (Config.sha384 (s.sramBytes a tokenLen)) true done
    rw [exec_apply_ready s a ready, s.startApply_verified a inside free token precondition]
    exact ⟨_, rfl, begun, slot⟩
  · have refused := s.lcsRefuse_refused r
    rw [exec_apply_ready s a ready, s.startApply_refused a inside free r fault]
    exact ⟨_, rfl, refused.code, refused.event, refused.cfg, refused.stores⟩
  · obtain ⟨apply, resume⟩ := s.start_outside a outside
    rw [exec_apply_ready s a ready, exec_resume_ready s a ready, apply, resume]
    exact ⟨rfl, rfl⟩
  · obtain ⟨held, deferred, waits⟩ := s.lcsWait_held (.apply a)
    rw [exec_apply_ready s a ready, s.startApply_waits a inside busy]
    exact ⟨_, rfl, held.busy, held.deferred, deferred, held.runs, waits, held.fields, held.cfg, held.stores⟩
  · rw [exec_resume_ready s a ready, s.startResume_inside a inside]
    refine ⟨fun valid => by rw [s.resumeWith_valid _ _ valid], fun invalid closed => by rw [s.resumeWith_noIntent _ _ invalid closed], fun _ => rfl,
      fun c free h done => ?_⟩
    obtain ⟨begun, slot, _⟩ := s.lcsRun_begun (.resume a) c _ (s.intent c).digest false done
    rw [s.resumeWith_resumes _ _ c free h]
    exact ⟨_, rfl, begun, slot⟩
  · exact exec_tapResume_bypass s tok up right
  · have done' : actionsDone (s.tapSelect 0x14 true) (s.intent c).target := ((s.tapSelect 0x14 true).lcsActions_fault s _ ⟨rfl, rfl⟩ rfl).symm.trans done
    obtain ⟨begun, slot, tap⟩ := (s.tapSelect 0x14 true).lcsRun_begun (.tapResume tok) c _ (s.intent c).digest false done'
    rw [exec_tapResume_right s tok up right idle, (s.tapSelect 0x14 true).resumeWith_resumes tok _ c free (resumes_tapSelect h 0x14 true)]
    exact ⟨_, rfl, transitionBegun_tapSelect begun, slot, congrArg Tap.ir tap⟩
  · have por := s.transitionClosed.mainPor_poweredOn 1
    obtain ⟨nvm, lcs⟩ := s.transitionClosed.mainPor_lcs 1
    refine ⟨_, congrArg Host.Outcome.next (s.transitionFinish_runs busy goes calm), ?_⟩
    obtain ⟨slot, logged, codeword, otp, ledger, flash⟩ := s.transitionClosed_spec
    generalize s.transitionClosed.mainPor 1 = t at por nvm lcs ⊢
    generalize s.transitionClosed = u at por nvm slot logged codeword otp ledger flash
    have intents : t.intent s.lcs.slot = u.intent s.lcs.slot := by rw [State.intent, State.intent, nvm]
    exact ⟨(congrArg Intent.closed intents).trans slot, congrArg LcsSt.busy lcs, nvm ▸ logged, congrArg Power.mainReset por.power,
      congrArg Power.nextCause por.power, (congrArg Nvm.codeword nvm).trans codeword, por.otp.trans otp,
      fun still => (por.flash (by rwa [ledger])).trans flash⟩

end Sys2Proof.Machine
end

section
/-! SUPPORT. A framed message in the mailbox (R400): what the device reads back of the bytes that the host wrote. -/

namespace Sys2Proof.Machine

/-- Bytes of a range that was stored read back as the slice that was stored there. -/
theorem Mem.bytes_store_slice (d : Byte) (m : Mem) (a k n : Nat) (bs : List Byte) (h : k + n ≤ bs.length) :
    Mem.bytes d (Mem.store d m a bs) (a + k) n = slice bs k n := by
  induction n generalizing k with
  | zero => simp [Mem.bytes, slice]
  | succ n ih =>
    have inside : k < bs.length := by omega
    rw [Mem.bytes, Mem.get_store_inside d bs m a k inside, Nat.add_assoc, ih (k + 1) (by omega), slice, slice,
      List.drop_eq_getElem_cons inside, List.take_succ_cons]

theorem Mem.bytes_length (d : Byte) (m : Mem) (a n : Nat) : (Mem.bytes d m a n).length = n := by
  induction n generalizing a with
  | zero => rfl
  | succ n ih => rw [Mem.bytes, List.length_cons, ih]

theorem Mem.le_eq_leNat (d : Byte) (m : Mem) (a n : Nat) : Mem.le d m a n = leNat (Mem.bytes d m a n) := by
  induction n generalizing a with
  | zero => rfl
  | succ n ih => rw [Mem.le, ih, Mem.bytes, leNat]

/-- The first twelve bytes of a message's header. -/
def mailHead (code flags off : Nat) (payload : List Byte) : List Byte :=
  leBytes 1 code ++ leBytes 1 flags ++ leBytes 2 payload.length ++ leBytes 2 0 ++ leBytes 2 0 ++ leBytes 4 off

/-- The mailbox holds a well-formed message (R400). -/
structure HoldsMessage (s : State) (code flags off : Nat) (payload : List Byte) : Prop where
  code : s.mbCode = code
  flags : s.mbFlags = flags
  tag : s.mbTag = 0
  off : s.mbOff = off
  payload : s.mbPayload = payload
  fault : s.mbFault = none

theorem HoldsMessage.of_bytes {s : State} {m : Mem} {code flags off : Nat} {payload : List Byte} (hcode : code < 256) (hflags : flags < 2)
    (hoff : off < 2 ^ 32) (fits : payload.length ≤ 4080) (stored : s.mgp.mbox = Mem.store 0 m 0 (mboxFrame code flags 0 0 off payload)) :
    HoldsMessage s code flags off payload := by
  have long : (mboxFrame code flags 0 0 off payload).length = 16 + payload.length := by simp [mboxFrame]; omega
  have read (k n : Nat) (h : k + n ≤ 16 + payload.length) :
      s.mboxBytes k n = slice (mboxFrame code flags 0 0 off payload) k n := by
    have back := Mem.bytes_store_slice 0 m 0 k n (mboxFrame code flags 0 0 off payload) (long ▸ h)
    rwa [Nat.zero_add, ← stored] at back
  have field (k n v : Nat) (h : k + n ≤ 16) (written : slice (mboxFrame code flags 0 0 off payload) k n = leBytes n v) (small : v < 256 ^ n) :
      Mem.le 0 s.mgp.mbox k n = v := by
    rw [Mem.le_eq_leNat, ← State.mboxBytes, read k n (by omega), written, leNat_leBytes, Nat.mod_eq_of_lt small]
  have len : s.mbLen = payload.length := field 2 2 _ (by omega) rfl (by omega)
  have code' : s.mbCode = code := field 0 1 _ (by omega) rfl (by omega)
  have flags' : s.mbFlags = flags := field 1 1 _ (by omega) rfl (by omega)
  have status : s.mbStatus = 0 := field 4 2 _ (by omega) rfl (by omega)
  have body : s.mbPayload = payload := by
    rw [State.mbPayload, len, read 16 _ (Nat.le_refl _)]
    exact List.take_length
  have head : s.mboxBytes 0 12 = mailHead code flags off payload := read 0 12 (by omega)
  have crc : Mem.le 0 s.mgp.mbox 12 4 = crc32c (s.mboxBytes 0 12 ++ s.mbPayload) := by
    rw [head, body]
    exact field 12 4 _ (by omega) rfl (BitVec.isLt _)
  refine ⟨code', flags', field 6 2 _ (by omega) rfl (by omega), field 8 4 _ (by omega) rfl (by omega), body, ?_⟩
  rw [State.mbFault, len, flags', status, if_neg (by simp; omega), if_neg (not_not.mpr crc)]

end Sys2Proof.Machine
end

section
/-! SUPPORT. How the device takes a message, answers it, and what both leave alone (R398-R400). -/

namespace Sys2Proof.Machine

/-- The fields that the taking of a message and an answer write. -/
def mailFields : List Fld :=
  [Reg.MGP.STATUS_OWNER, Reg.MGP.STATUS_RESET_SEEN, Reg.MGP.MSG_COUNT, Reg.MGP.MSG_INFO_CODE, Reg.MGP.MSG_INFO_FLAGS, Reg.MGP.MSG_INFO_LENGTH]

/-- Nothing but the management port and its registers has changed. -/
structure Mailed (s t : State) : Prop where
  rest : t = { s with regs := t.regs, mgp := t.mgp }
  cfg : sameCfg s t
  fields : sameFieldsBut mailFields s t

namespace Mailed

variable {s t u : State}

theorem refl (s : State) : Mailed s s := ⟨rfl, sameCfg_refl s, sameFieldsBut_refl _ s⟩

theorem trans (h : Mailed s t) (k : Mailed t u) : Mailed s u :=
  ⟨k.rest.trans (by rw [h.rest]), sameCfg_trans h.cfg k.cfg, sameFieldsBut_trans h.fields k.fields⟩

theorem wr {f : Fld} {v : Nat} (h : Mailed s t) (hf : f ∈ mailFields := by decide) : Mailed s (t.wr f v) :=
  h.trans ⟨rfl, sameCfg_wr t f v, sameFieldsBut_wr _ t f v hf⟩

theorem port {m : Mgp} (h : Mailed s t) : Mailed s { t with mgp := m } :=
  h.trans ⟨rfl, ⟨rfl, rfl, rfl, rfl, rfl⟩, fun _ _ => rfl⟩

theorem boot (h : Mailed s t) : t.boot = s.boot := by rw [h.rest]
theorem sram (h : Mailed s t) : t.sram = s.sram := by rw [h.rest]
theorem flash (h : Mailed s t) : t.flash = s.flash := by rw [h.rest]
theorem otp (h : Mailed s t) : t.otp = s.otp := by rw [h.rest]
theorem nvm (h : Mailed s t) : t.nvm = s.nvm := by rw [h.rest]
theorem mgpUp (h : Mailed s t) : t.mgpUp = s.mgpUp := by rw [h.rest]; rfl

/-- A field of another page reads as before. -/
theorem rd (h : Mailed s t) (g : Fld) (hg : ∀ f ∈ mailFields, f.keyOf ≠ g.keyOf := by decide) : t.rd g = s.rd g := h.fields g hg

theorem brace (h : Mailed s t) : t.brace = s.brace := congrArg (fun n => decide (n = 1)) (h.rd Reg.PWR.STATUS_BRACE)

theorem lc (h : Mailed s t) : t.lc = s.lc := h.rd Reg.LCS.STATE

end Mailed

theorem Mailed.of_submitted {s u : State} {code flags off : Nat} {payload : List Byte} (h : submitted s u code flags off payload) :
    Mailed s u := ⟨h.rest, h.cfg, h.fields⟩

namespace State

/-- An answer is written and the host owns the mailbox again. -/
theorem mgpRespond_mailed (s : State) (status : Nat) (payload : List Byte) :
    Mailed s (s.mgpRespond status payload) ∧ (s.mgpRespond status payload).mgpOwns = false :=
  ⟨(Mailed.refl s).port.port.wr, flag_wr_zero _ _ rfl⟩

theorem mgpPush_mailed (r : State × PushAnswer) : Mailed r.1 (mgpPush r) ∧ (mgpPush r).mgpOwns = false := r.1.mgpRespond_mailed _ _

/-- The mailbox is none of the registers. -/
theorem rd_with_mgp (s : State) (m : Mgp) (f : Fld) : ({ s with mgp := m } : State).rd f = s.rd f := rfl
theorem flag_with_mgp (s : State) (m : Mgp) (f : Fld) : ({ s with mgp := m } : State).flag f = s.flag f := rfl

/-- The device has taken the message in the mailbox: it owns the mailbox, counts the message and shows its header. -/
def mailTaken (s : State) : State :=
  let s := ((s.wr Reg.MGP.STATUS_OWNER 1).wr Reg.MGP.STATUS_RESET_SEEN 0).bump Reg.MGP.MSG_COUNT
  let s := { s with mgp := { s.mgp with response := false, code := s.mbCode, tag := s.mbTag } }
  ((s.wr Reg.MGP.MSG_INFO_CODE s.mbCode).wr Reg.MGP.MSG_INFO_FLAGS s.mbFlags).wr Reg.MGP.MSG_INFO_LENGTH s.mbLen

/-- A well-formed message that the host submits is taken and served. -/
theorem mgpSubmit_wellFormed (s : State) (own : s.mgpOwns = false) (fault : s.mbFault = none) : s.mgpSubmit = s.mailTaken.routeMessage := by
  have fault' : s.mailTaken.mbFault = none := fault
  unfold mgpSubmit
  rw [own, if_neg Bool.false_ne_true]
  change (match s.mailTaken.mbFault with | some r => _ | none => s.mailTaken.routeMessage) = _
  rw [fault']

theorem mailTaken_mailed (s : State) : Mailed s s.mailTaken := (Mailed.refl s).wr.wr.wr.port.wr.wr.wr

/-- The host has written bytes from the start of the mailbox. -/
def mailWritten (s : State) (bs : List Byte) : State :=
  { s with mgp := { s.mgp with mbox := Mem.store 0 s.mgp.mbox 0 bs, response := false } }

theorem mailWritten_mbox (s : State) (bs : List Byte) : (s.mailWritten bs).mgp.mbox = Mem.store 0 s.mgp.mbox 0 bs := rfl

/-- The host owns the mailbox and writes no more than it holds. -/
theorem mgpWrite_start (s : State) (bs : List Byte) (own : s.mgpOwns = false) (fits : bs.length ≤ 4096) : s.mgpWrite 0 bs = s.mailWritten bs := by
  have whole : bs.take (4096 - 0) = bs := List.take_of_length_le fits
  have inside : ¬ 4096 < 0 + bs.length := by omega
  unfold mgpWrite
  rw [own, if_neg Bool.false_ne_true, if_neg inside, if_pos (by omega), whole]
  rfl

/-- A message that the host has written is taken as it stands. -/
theorem mailTaken_submitted (s : State) (bs : List Byte) {code flags off : Nat} {payload : List Byte}
    (holds : HoldsMessage (s.mailWritten bs) code flags off payload) : submitted s (s.mailWritten bs).mailTaken code flags off payload := by
  have mailed : Mailed s (s.mailWritten bs).mailTaken := (Mailed.refl s).port.trans (mailTaken_mailed _)
  refine ⟨mailed.rest, mailed.cfg, mailed.fields, ?_, ?_, holds.code, holds.flags, holds.off, holds.payload, ⟨holds.code, holds.tag, rfl⟩, rfl⟩
  · simp (disch := exact id rfl) only [mgpOwns, mailTaken, bump, bumpBy, flag_wr_apart, flag_with_mgp, flag_wr_one]
  · simp (disch := exact id rfl) only [mailTaken, rd_wr_apart, rd_with_mgp, rd_bump_same]
    rfl

/-- A message whose parts fit the framing is taken whole and goes to whom its code names. -/
theorem hostMessage_submitted (s : State) (code flags off : Nat) (payload : List Byte) (up : s.mgpUp = true) (own : s.mgpOwns = false)
    (hcode : code < 256) (hflags : flags < 2) (hoff : off < 2 ^ 32) (fits : payload.length ≤ 4080) :
    ∃ u, submitted s u code flags off payload ∧ s.hostMessage code flags off payload = u.routeMessage := by
  have long : (mboxFrame code flags 0 0 off payload).length ≤ 4096 := by simp [mboxFrame]; omega
  have holds : HoldsMessage (s.mailWritten (mboxFrame code flags 0 0 off payload)) code flags off payload :=
    .of_bytes hcode hflags hoff fits (s.mailWritten_mbox _)
  refine ⟨_, s.mailTaken_submitted _ holds, ?_⟩
  rw [hostMessage, if_pos up, s.mgpWrite_start _ own long]
  exact mgpSubmit_wellFormed _ own holds.fault

end State

end Sys2Proof.Machine
end

section
/-! O32: messages for ROM and its image chunks (R158-R163, R391, R399, R400). -/

namespace Sys2Proof.Machine

/-! What ROM reports (R163) -/

/-- The words that IDENTITY reports read fields of the LCS and BOOT pages. -/
def identityFields : List Fld :=
  wordFields pgLCS 0x40 ++ wordFields pgBOOT 0x40 ++ (List.range 8).flatMap (fun i => wordFields pgBOOT (0x50 + 4 * i))

theorem identityFields_reported : ∀ g ∈ identityFields,
    (g.page = pgLCS ∨ g.page = pgBOOT) ∧ 0x40 ≤ g.off ∧ g.kind = .sta ∧ ∀ f ∈ mailFields, f.keyOf ≠ g.keyOf := by decide +kernel

namespace Mailed

variable {s u : State}

theorem flag (h : Mailed s u) (g : Fld) (hg : ∀ f ∈ mailFields, f.keyOf ≠ g.keyOf := by decide) : u.flag g = s.flag g :=
  congrArg (fun n => decide (n = 1)) (h.rd g hg)

theorem inService (h : Mailed s u) : u.inService = s.inService := by rw [State.inService, State.inService, h.lc]

/-- The intents lie in internal NVM. -/
theorem intents (h : Mailed s u) : u.openIntents = s.openIntents ∧ u.shownIntent = s.shownIntent := by
  rw [h.rest]
  exact ⟨rfl, rfl⟩

/-- The banks of the Born root lie in OTP. -/
theorem bornDone (h : Mailed s u) : u.bornDone = s.bornDone := by rw [State.bornDone, State.bornDone, h.otp]

theorem bornFail (h : Mailed s u) : u.bornFail = s.bornFail := by rw [State.bornFail, State.bornFail, h.inService, h.bornDone, h.otp]

theorem rootWithheld (h : Mailed s u) : u.rootWithheld = s.rootWithheld := by
  rw [State.rootWithheld, State.rootWithheld, State.rootSource, State.rootSource, h.inService, h.lc, h.bornDone,
    h.flag Reg.AON.TAMPER_LATCH, h.flag Reg.DBG.DBG_STATE_ROOT_TEST]

theorem derivedLow (h : Mailed s u) (p off lo : Nat) (hp : p = pgLCS ∨ p = pgBOOT) : u.derivedLow p off lo = s.derivedLow p off lo := by
  obtain ⟨intents, shown⟩ := h.intents
  rcases hp with rfl | rfl
  · simp only [State.derivedLow, if_neg (show pgLCS ≠ pgGLB by decide), if_true, intents, shown, h.bornFail, h.otp, h.nvm, h.rootWithheld,
      h.rd Reg.DBG.DBG_STATE_ROOT_TEST]
  · simp only [State.derivedLow, if_neg (show pgBOOT ≠ pgGLB by decide), if_neg (show pgBOOT ≠ pgLCS by decide), if_true, h.otp]

theorem fieldView (h : Mailed s u) (g : Fld) (page : g.page = pgLCS ∨ g.page = pgBOOT) (block : 0x40 ≤ g.off) (kind : g.kind = .sta)
    (apart : ∀ f ∈ mailFields, f.keyOf ≠ g.keyOf) : u.fieldView g = s.fieldView g := by
  have high (w : State) : w.derivedHigh g.page g.off g.lo = none := by
    rcases page with p | p <;> rw [p] <;> rfl
  simp only [State.fieldView, kind, if_neg (Nat.not_lt.mpr block), h.derivedLow _ _ _ page, high, h.rd g apart]

/-- A word that IDENTITY reports. -/
theorem pageWord (h : Mailed s u) (p off : Nat) (hp : p = pgLCS ∨ p = pgBOOT) (low : 0x20 ≤ off) (high : off < 0x800)
    (reported : wordFields p off ⊆ identityFields) : u.pageWord p off = s.pageWord p off := by
  have plain (w : State) : w.pageWord p off = wordOf w.fieldView (wordFields p off) := by
    have noWindow : w.extOff p off = off := if_neg (by rcases hp with rfl | rfl <;> simp [pgLCS, pgBOOT])
    rw [State.pageWord, if_neg (by omega), if_neg (by omega), if_neg (by omega), if_neg (by omega), noWindow]
  have field : ∀ g ∈ wordFields p off, u.fieldView g = s.fieldView g := fun g hg =>
    have ⟨page, block, kind, apart⟩ := identityFields_reported g (reported hg)
    h.fieldView g page block kind apart
  rw [plain u, plain s]
  exact List.foldl_ext _ _ _ fun a g hg => by rw [field g hg]

/-- IDENTITY reports nothing that the mailbox changes. -/
theorem identityBytes (h : Mailed s u) : u.identityBytes = s.identityBytes := by
  have lcs : u.lcsStateWord = s.lcsStateWord := h.pageWord _ _ (.inl rfl) (by decide) (by decide) (by simp [identityFields])
  have boot : u.bootStatusWord = s.bootStatusWord := h.pageWord _ _ (.inr rfl) (by decide) (by decide) (by simp [identityFields])
  have attempt (i : Nat) (hi : i < 8) : u.attemptWord i = s.attemptWord i :=
    h.pageWord _ _ (.inr rfl) (by omega) (by omega) fun g hg =>
      List.mem_append_right _ (List.mem_flatMap.mpr ⟨i, List.mem_range.mpr hi, hg⟩)
  simp only [State.identityBytes, h.otp, h.boot, lcs, boot]
  split
  · rfl
  · rw [attempt _ (by omega)]

end Mailed

/-! Who serves a message (R163, R401) -/

namespace State

/-- ROM serves a message whose code is below those of the hardware, before the hand-over. -/
theorem routeMessage_rom (s : State) (code : s.mbCode < 0x80) (scrap : s.boot.phase ≠ .scrap) (fatal : s.boot.phase ≠ .fatal)
    (done : s.boot.phase ≠ .done) : s.routeMessage = s.romMessage s.mbCode (bit s.mbFlags 0) := by
  have runs : s.romRuns = true := decide_eq_true done
  simp only [routeMessage, scrap, fatal, decide_false, Bool.or_false, Bool.false_eq_true, if_false, if_neg (show ¬ 0x84 ≤ s.mbCode by omega),
    if_neg (show ¬ 0x80 ≤ s.mbCode by omega), runs, if_true]

/-- After FATAL and in SCRAP only IDENTITY is served (R140, R158). -/
theorem routeMessage_stopped (s : State) (h : s.boot.phase = .scrap ∨ s.boot.phase = .fatal) :
    s.routeMessage = if s.mbCode = 1 then s.mgpIdentity else s.mgpReject Reason.NOT_IN_LIFECYCLE :=
  if_pos (by simpa using h)

/-- IDENTITY is served in every phase before the hand-over. -/
theorem routeMessage_identity (s : State) (code : s.mbCode = 1) (done : s.boot.phase ≠ .done) : s.routeMessage = s.mgpIdentity := by
  by_cases stopped : s.boot.phase = .scrap ∨ s.boot.phase = .fatal
  · rw [s.routeMessage_stopped stopped, if_pos code]
  · obtain ⟨scrap, fatal⟩ := not_or.mp stopped
    rw [s.routeMessage_rom (by omega) scrap fatal done, romMessage, if_pos code]

theorem romMessage_manifest (s : State) (more : Bool) : s.romMessage 2 more
    = if s.brace && !more then s.holdRom .mailbox else mgpPush (s.pushManifest 0 s.mbOff (!more) s.mbPayload) := by
  cases more <;> simp [romMessage]

/-- The payload of PUSH_LEAVES and PUSH_DATA: an offset and up to 3,584 bytes. -/
theorem pushPayload (off : Nat) (d : List Byte) (hoff : off < 2 ^ 32) (fits : d.length ≤ 3584) :
    fieldLe (leBytes 4 off ++ d) 0 4 = off ∧ (leBytes 4 off ++ d).drop 4 = d
    ∧ ¬ 3588 < 4 + d.length :=
  ⟨(leNat_leBytes 4 off).trans (Nat.mod_eq_of_lt (by omega)), rfl, by omega⟩

theorem romMessage_leaves (s : State) (off : Nat) (d : List Byte) (hoff : off < 2 ^ 32) (fits : d.length ≤ 3584)
    (h : s.mbPayload = leBytes 4 off ++ d) :
    s.romMessage 3 false = if s.brace then s.holdRom .mailbox else mgpPush (s.pushLeaves 0 off d) := by
  obtain ⟨field, rest, inside⟩ := pushPayload off d hoff fits
  simp [romMessage, h, field, rest, inside]

theorem romMessage_data (s : State) (off : Nat) (d : List Byte) (hoff : off < 2 ^ 32) (fits : d.length ≤ 3584)
    (h : s.mbPayload = leBytes 4 off ++ d) :
    s.romMessage 4 false = if s.brace then s.holdRom .mailbox else mgpPush (s.pushData 0 off d) := by
  obtain ⟨field, rest, inside⟩ := pushPayload off d hoff fits
  simp [romMessage, h, field, rest, inside]

theorem romMessage_end (s : State) (h : s.mbPayload = []) :
    s.romMessage 5 false = if s.brace then s.holdRom .mailbox else mgpPush (s.pushEnd 0) := by
  simp [romMessage, h]

theorem mbPayload_length (s : State) : s.mbPayload.length = s.mbLen := Mem.bytes_length 0 s.mgp.mbox 16 s.mbLen

/-- A message for ROM is taken and served as its code says. -/
theorem hostMessage_rom (s : State) (code flags off : Nat) (payload : List Byte) (up : s.mgpUp = true) (own : s.mgpOwns = false)
    (done : s.boot.phase ≠ .done) (scrap : s.boot.phase ≠ .scrap) (fatal : s.boot.phase ≠ .fatal) (hcode : code < 0x80) (hflags : flags < 2)
    (hoff : off < 2 ^ 32) (fits : payload.length ≤ 4080) :
    ∃ u, submitted s u code flags off payload ∧ s.hostMessage code flags off payload = u.romMessage code (bit flags 0) := by
  obtain ⟨u, taken, sent⟩ := s.hostMessage_submitted code flags off payload up own (by omega) hflags hoff fits
  have boot := (Mailed.of_submitted taken).boot
  rw [← boot] at done scrap fatal
  rw [u.routeMessage_rom (taken.codeIs ▸ hcode) scrap fatal done, taken.codeIs, taken.flagsAre] at sent
  exact ⟨u, taken, sent⟩

end State

/-! The messages of a push (R163) -/

/-- What fits one piece is not cut. -/
theorem chunks_short (n k : Nat) (bs : List Byte) (content : bs ≠ []) (fits : bs.length ≤ n) : chunks n (k + 1) bs = [bs] := by
  have nothing (k : Nat) : chunks n k [] = [] := by cases k <;> rfl
  rw [chunks, if_neg (by simpa using content), List.take_of_length_le fits, List.drop_eq_nil_of_le fits, nothing]

/-- What fits two pieces is cut once. -/
theorem chunks_two (n k : Nat) (bs : List Byte) (long : n < bs.length) (fits : bs.length ≤ 2 * n) :
    chunks n (k + 2) bs = [bs.take n, bs.drop n] := by
  have content : bs ≠ [] := List.ne_nil_of_length_pos (by omega)
  have more : bs.drop n ≠ [] := List.ne_nil_of_length_pos (by simp; omega)
  rw [chunks, if_neg (by simpa using content), chunks_short n k _ more (by simp; omega)]

theorem exec_pushManifest_one (s : State) (m : List Byte) (fits : m.length ≤ 4080) :
    exec (.pushManifest m) s = .next (s.hostMessage 2 0 0 m) := by
  have whole : (if m.isEmpty then [[]] else chunks 4080 m.length m) = [m] := by
    cases m with
    | nil => rfl
    | cons b bs => exact chunks_short 4080 bs.length (b :: bs) (List.cons_ne_nil b bs) fits
  exact congrArg (fun l => Host.Outcome.next (State.hostFragments 2 0 l s)) whole

theorem exec_pushManifest_two (s : State) (m : List Byte) (long : 4080 < m.length) (fits : m.length ≤ 8160) :
    exec (.pushManifest m) s = .next ((s.hostMessage 2 1 0 (m.take 4080)).hostMessage 2 0 4080 (m.drop 4080)) := by
  have cut : (if m.isEmpty then [[]] else chunks 4080 m.length m) = [m.take 4080, m.drop 4080] := by
    obtain ⟨k, hk⟩ : ∃ k, m.length = k + 2 := ⟨m.length - 2, by omega⟩
    have content : ¬ m.isEmpty = true := by simpa using List.ne_nil_of_length_pos (show 0 < m.length by omega)
    rw [if_neg content, hk, chunks_two 4080 k m long (by omega)]
  have first : 0 + (m.take 4080).length = 4080 := by simp; omega
  have sent : exec (.pushManifest m) s = .next (State.hostFragments 2 0 [m.take 4080, m.drop 4080] s) :=
    congrArg (fun l => Host.Outcome.next (State.hostFragments 2 0 l s)) cut
  rw [sent, State.hostFragments, first, State.hostFragments]
  nofun

section
variable (s : State) (up : s.mgpUp = true) (own : s.mgpOwns = false) (done : s.boot.phase ≠ .done)
include up own done

theorem exec_identity : ∃ u, submitted s u 1 0 0 [] ∧ exec .identity s = .next (u.mgpRespond 0 s.identityBytes) := by
  obtain ⟨u, taken, sent⟩ := s.hostMessage_submitted 1 0 0 [] up own (by decide) (by decide) (by decide) (by decide)
  have mailed := Mailed.of_submitted taken
  have empty : u.mbLen = 0 := by
    rw [← u.mbPayload_length, taken.payloadIs]
    rfl
  refine ⟨u, taken, congrArg Host.Outcome.next ?_⟩
  rw [sent, u.routeMessage_identity taken.codeIs (mailed.boot ▸ done), State.mgpIdentity, if_neg (not_not.mpr empty), mailed.identityBytes]

variable (scrap : s.boot.phase ≠ .scrap) (fatal : s.boot.phase ≠ .fatal)
include scrap fatal

theorem exec_pushManifest_short (m : List Byte) (fits : m.length ≤ 4080) : ∃ u, submitted s u 2 0 0 m ∧ exec (.pushManifest m) s
    = .next (if s.brace then u.holdRom .mailbox else State.mgpPush (u.pushManifest 0 0 true m)) := by
  obtain ⟨u, taken, sent⟩ := s.hostMessage_rom 2 0 0 m up own done scrap fatal (by decide) (by decide) (by decide) fits
  refine ⟨u, taken, (exec_pushManifest_one s m fits).trans (congrArg Host.Outcome.next ?_)⟩
  rw [← (Mailed.of_submitted taken).brace, sent, u.romMessage_manifest, taken.offIs, taken.payloadIs]
  simp [bit]

theorem exec_pushLeaves (off : Nat) (d : List Byte) (hoff : off < 2 ^ 32) (fits : d.length ≤ 3584) :
    ∃ u, submitted s u 3 0 0 (leBytes 4 off ++ d) ∧ exec (.pushLeaves off d) s
      = .next (if s.brace then u.holdRom .mailbox else State.mgpPush (u.pushLeaves 0 off d)) := by
  obtain ⟨u, taken, sent⟩ := s.hostMessage_rom 3 0 0 (leBytes 4 off ++ d) up own done scrap fatal (by decide) (by decide) (by decide) (by simp; omega)
  refine ⟨u, taken, congrArg Host.Outcome.next ?_⟩
  rw [← (Mailed.of_submitted taken).brace]
  exact sent.trans (u.romMessage_leaves off d hoff fits taken.payloadIs)

theorem exec_pushData (off : Nat) (d : List Byte) (hoff : off < 2 ^ 32) (fits : d.length ≤ 3584) :
    ∃ u, submitted s u 4 0 0 (leBytes 4 off ++ d) ∧ exec (.pushData off d) s
      = .next (if s.brace then u.holdRom .mailbox else State.mgpPush (u.pushData 0 off d)) := by
  obtain ⟨u, taken, sent⟩ := s.hostMessage_rom 4 0 0 (leBytes 4 off ++ d) up own done scrap fatal (by decide) (by decide) (by decide) (by simp; omega)
  refine ⟨u, taken, congrArg Host.Outcome.next ?_⟩
  rw [← (Mailed.of_submitted taken).brace]
  exact sent.trans (u.romMessage_data off d hoff fits taken.payloadIs)

theorem exec_pushEnd : ∃ u, submitted s u 5 0 0 [] ∧ exec .pushEnd s
    = .next (if s.brace then u.holdRom .mailbox else State.mgpPush (u.pushEnd 0)) := by
  obtain ⟨u, taken, sent⟩ := s.hostMessage_rom 5 0 0 [] up own done scrap fatal (by decide) (by decide) (by decide) (by decide)
  refine ⟨u, taken, congrArg Host.Outcome.next ?_⟩
  rw [← (Mailed.of_submitted taken).brace]
  exact sent.trans (u.romMessage_end taken.payloadIs)

end

/-- After FATAL and in SCRAP ROM refuses a push (R140, R158). -/
theorem exec_pushData_stopped (s : State) (off : Nat) (d : List Byte) (up : s.mgpUp = true) (own : s.mgpOwns = false)
    (stopped : s.boot.phase = .scrap ∨ s.boot.phase = .fatal) (fits : d.length ≤ 3584) :
    ∃ u, submitted s u 4 0 0 (leBytes 4 off ++ d) ∧ exec (.pushData off d) s = .next (u.mgpReject Reason.NOT_IN_LIFECYCLE) := by
  obtain ⟨u, taken, sent⟩ := s.hostMessage_submitted 4 0 0 (leBytes 4 off ++ d) up own (by decide) (by decide) (by decide) (by simp; omega)
  refine ⟨u, taken, congrArg Host.Outcome.next (sent.trans ?_)⟩
  rw [← (Mailed.of_submitted taken).boot] at stopped
  rw [u.routeMessage_stopped stopped, taken.codeIs]
  rfl

/-! Image chunks (R391) and the times of a push (R159, R162) -/

theorem exec_romImageChunk_net0 (s : State) (c : ImageChunk) (runs : s.romRuns = true) (on : s.laneOn 0 = true) :
    exec (.romImageChunk .net0 c) s = .next (s.romChunk 1 c.peer 0 c) := congrArg Host.Outcome.next (if_pos (by rw [runs, on]; rfl))

theorem exec_romImageChunk_can0 (s : State) (c : ImageChunk) (up : s.up = true) (rom : s.romCan 0 = true) :
    exec (.romImageChunk .can0 c) s = .next (s.romChunk 2 c.peer 0 c) := congrArg Host.Outcome.next (if_pos (by rw [up, rom]; rfl))

theorem State.romChunk_malformed (s : State) (m peer q : Nat) (c : ImageChunk) (h : c.reserved ≠ 0 ∨ 1960 < c.data.length) :
    s.romChunk m peer q c = s := if_pos (by simpa using h)

theorem State.romChunk_held (s : State) (m peer q : Nat) (c : ImageChunk) (reserved : c.reserved = 0) (fits : c.data.length ≤ 1960)
    (brace : s.brace = true) : s.romChunk m peer q c = s.holdRom (.chunk m peer q c) :=
  (if_neg (by simp [reserved, fits])).trans (if_pos brace)

theorem exec_pushTimeout_push (s : State) (p : Push) (push : s.boot.push = some p) :
    exec .pushTimeout s = .next (s.pushFail p.medium Reason.PUSH_ABORTED) := by
  change execPushTimeout s = _
  simp only [execPushTimeout, push]

theorem exec_pushTimeout_idle (s : State) (idle : s.boot.push = none) : exec .pushTimeout s = .next s := by
  change execPushTimeout s = _
  simp only [execPushTimeout, idle]

theorem exec_pushWindowExpiry_waits (s : State) (src : Nat) (rest : List Nat) (phase : s.boot.phase = .waitPush) (idle : s.boot.push = none)
    (sources : s.boot.sources = src :: rest) : exec .pushWindowExpiry s
      = .next ((({ s with boot := { s.boot with gathered := [] } }).attempt (src - 1) 0 Reason.SOURCE_ABSENT).trySources rest) := by
  change execPushWindowExpiry s = _
  simp only [execPushWindowExpiry, phase, idle, sources]

theorem exec_pushWindowExpiry_else (s : State) (h : s.boot.phase ≠ .waitPush ∨ s.boot.push ≠ none) : exec .pushWindowExpiry s = .next s := by
  change execPushWindowExpiry s = _
  unfold execPushWindowExpiry
  split
  · next phase idle _ => exact absurd h (by simp [phase, idle])
  · rfl

/-- Settles O32: a message that fits the framing is taken as it stands, and ROM serves it as its code says. -/
theorem pushMessages : Obligations.PushMessages := by
  refine ⟨fun s code flags off payload up own hcode hflags hoff fits => s.hostMessage_submitted code flags off payload up own hcode hflags hoff fits,
    fun s up own done => exec_identity s up own done, fun s m up own done scrap fatal => ⟨fun fits => ?_, fun long fits => ?_⟩,
    fun s off d up own done scrap fatal hoff fits => ⟨?_, ?_, ?_⟩, fun s off d up own stopped _ fits => ?_, fun s c runs => ⟨?_, ?_⟩,
    fun s m peer q c h => s.romChunk_malformed m peer q c h, fun s m peer q c reserved fits brace => s.romChunk_held m peer q c reserved fits brace,
    fun s => ⟨fun p push => ?_, fun idle => ?_, fun src rest phase idle sources => ?_, fun h => ?_⟩⟩
  · exact exec_pushManifest_short s up own done scrap fatal m fits
  · exact exec_pushManifest_two s m long fits
  · exact exec_pushLeaves s up own done scrap fatal off d hoff fits
  · exact exec_pushData s up own done scrap fatal off d hoff fits
  · exact exec_pushEnd s up own done scrap fatal
  · exact exec_pushData_stopped s off d up own stopped fits
  · exact exec_romImageChunk_net0 s c runs
  · exact exec_romImageChunk_can0 s c
  · exact exec_pushTimeout_push s p push
  · exact exec_pushTimeout_idle s idle
  · exact exec_pushWindowExpiry_waits s src rest phase idle sources
  · exact exec_pushWindowExpiry_else s h

end Sys2Proof.Machine
end

section
/-! SUPPORT. The push sequencer: how each of its messages is judged (R156, R159, R162, R163), the log of attempts (R567), and what the
hand-over and an answer on a lane leave alone (R164, R391). -/

namespace Sys2Proof.Machine

/-- What ROM keeps is none of what is framed. -/
theorem Framed.boot {s t : State} {b : BootSt} (h : Framed s t) : Framed s { t with boot := b } :=
  h.trans ⟨⟨rfl, rfl, rfl, rfl, rfl⟩, ⟨rfl, rfl, rfl, rfl, rfl, rfl, rfl⟩⟩

namespace State

/-! The log of attempts (R567) -/

/-- An attempt appends an entry to BOOT.ATTEMPT; no CFG value and no memory changes. -/
theorem attemptEntry_appends (s : State) (source slot code : Nat) :
    Framed s (s.attemptEntry source slot code) ∧ (s.attemptEntry source slot code).boot = { s.boot with attempts := s.boot.attempts + 1 }
    ∧ (s.boot.attempts < 8 → (s.attemptEntry source slot code).rd (Reg.BOOT.ATTEMPT_CODE s.boot.attempts) = code % 2 ^ 16) := by
  have counted : Framed s { s with boot := { s.boot with attempts := s.boot.attempts + 1 } } := (Framed.refl s).boot
  unfold attemptEntry
  dsimp only
  split
  · next room =>
    refine ⟨counted.wr.wr.wr, rfl, fun _ => ?_⟩
    simp (disch := exact id rfl) only [rd_wr_apart, rd_wr_same]
    rfl
  · next full =>
    generalize hu : List.foldl _ _ _ = u
    have shifted : Framed s u ∧ u.boot = { s.boot with attempts := s.boot.attempts + 1 } := by
      subst hu
      exact List.foldlRecOn (motive := fun t => Framed s t ∧ t.boot = { s.boot with attempts := s.boot.attempts + 1 }) _ _ ⟨counted, rfl⟩ fun _ h _ _ => ⟨h.1.wr.wr.wr, h.2⟩
    exact ⟨shifted.1.wr.wr.wr, shifted.2, fun room => absurd room full⟩

/-- The image of a push has been loaded and verified: the attempt is logged, and the push is over. -/
def pushLoaded (s : State) (medium : Nat) (manifest : List Byte) : State :=
  let s := s.attemptOk (mediumSource medium - 1) 0
  { s with boot := { s.boot with phase := .loaded, push := none, image := some (bootImage (mediumSource medium - 1) 0 manifest) } }

/-! The messages of a push -/

/-- Without a push there is nothing to continue. -/
theorem push_idle (s : State) (medium off : Nat) (d : List Byte) (idle : s.boot.push = none) :
    s.pushLeaves medium off d = (s, .reason Reason.PUSH_ABORTED) ∧ s.pushData medium off d = (s, .reason Reason.PUSH_ABORTED)
    ∧ s.pushEnd medium = (s, .reason Reason.PUSH_ABORTED) := by
  simp only [pushLeaves, pushData, pushEnd, idle, and_self]

section
variable (s : State) (medium off : Nat) (d : List Byte) (p : Push) (push : s.boot.push = some p)
include push

/-- A push by another medium is under way (R162). -/
theorem push_otherMedium (other : p.medium ≠ medium) :
    s.pushLeaves medium off d = (s, .busy) ∧ s.pushData medium off d = (s, .busy) ∧ s.pushEnd medium = (s, .busy) := by
  simp only [pushLeaves, pushData, pushEnd, push, ne_eq, other, not_false_eq_true, if_true, and_self]

variable (mine : p.medium = medium)
include mine

theorem pushLeaves_outOfOrder (gap : off ≠ p.leaves.length) :
    s.pushLeaves medium off d = (s.pushFail medium Reason.PUSH_ABORTED, .reason Reason.PUSH_ABORTED) := by
  simp [pushLeaves, push, mine, gap]

/-- Bytes that continue the leaf table and do not complete it. -/
theorem pushLeaves_continues (continues : off = p.leaves.length) (short : off + d.length < 48 * mfBlocks p.manifest) :
    s.pushLeaves medium off d = ({ s with boot := { s.boot with push := some { p with leaves := p.leaves ++ d } } }, .accepted) := by
  have incomplete : (p.leaves ++ d).length ≠ 48 * mfBlocks p.manifest := by rw [List.length_append]; omega
  simp only [pushLeaves, push]
  rw [if_neg (not_not.mpr mine), if_neg (by simp [continues]; omega), if_neg (by rw [decide_eq_false incomplete, Bool.false_and]; exact Bool.false_ne_true)]

theorem pushData_outOfOrder (gap : off ≠ p.image.length) :
    s.pushData medium off d = (s.pushFail medium Reason.PUSH_ABORTED, .reason Reason.PUSH_ABORTED) := by
  simp [pushData, push, mine, gap]

/-- Bytes that continue the image, the leaf table whole, and do not complete its first block. -/
theorem pushData_continues (whole : p.leaves.length = 48 * mfBlocks p.manifest) (continues : off = p.image.length) (short : off + d.length < 4096)
    (fits : off + d.length ≤ 4096 * mfBlocks p.manifest) :
    s.pushData medium off d = ({ s with sram := Mem.store 0 s.sram (mfLoad p.manifest + off) d,
                                        boot := { s.boot with push := some { p with image := p.image ++ d } } }, .accepted) := by
  have noBlock : (p.image ++ d).length / 4096 = 0 := Nat.div_eq_of_lt (by rw [List.length_append]; omega)
  simp only [pushData, push]
  rw [if_neg (not_not.mpr mine), if_neg (by simp [whole, continues]; omega), noBlock, if_neg (by simp [blocksMatch])]
  rfl

/-- The image is whole and has its digest: ROM hands over. -/
theorem pushEnd_whole (whole : p.image.length = 4096 * mfBlocks p.manifest) (digest : Config.sha384 p.image = mfImageDigest p.manifest) :
    s.pushEnd medium = ((s.pushLoaded medium p.manifest).handOver, .handover) := by
  simp only [pushEnd, push]
  rw [if_neg (not_not.mpr mine), if_neg (not_not.mpr whole), if_neg (not_not.mpr digest)]
  rfl

end

/-- What is known of a push that has been loaded. -/
theorem pushLoaded_spec (s : State) (medium : Nat) (manifest : List Byte) :
    Framed s (s.pushLoaded medium manifest) ∧ (s.pushLoaded medium manifest).boot.attempts = s.boot.attempts + 1
    ∧ (s.boot.attempts < 8 → (s.pushLoaded medium manifest).rd (Reg.BOOT.ATTEMPT_CODE s.boot.attempts) = 0) := by
  obtain ⟨framed, boot, code⟩ := s.attemptEntry_appends (mediumSource medium - 1) 0 0
  exact ⟨framed.boot, congrArg BootSt.attempts boot, code⟩

/-! A piece of a manifest (R159, R162, R163) -/

/-- The pieces of a manifest that have come from a medium. -/
def gather (s : State) (medium : Nat) (m : List Byte) : State :=
  { s with boot := { s.boot with gathered := Tbl.put [] s.boot.gathered medium m } }

/-- The first piece of a manifest is kept. -/
theorem pushManifest_first (s : State) (medium : Nat) (d : List Byte) (listens : s.listens medium = true) (idle : s.boot.push = none)
    (short : d.length < manifestLen) : s.pushManifest medium 0 false d = (s.gather medium d, .accepted) := by
  unfold pushManifest
  rw [if_neg (by simp [listens])]
  split
  · next q other => rw [idle] at other; cases other
  · exact (if_neg (not_not.mpr rfl)).trans (if_pos (by simp [short]))

/-- The last piece completes a manifest that is in order: the push is under way. -/
theorem pushManifest_completes (s : State) (medium : Nat) (pre d : List Byte) (last : Bool) (listens : s.listens medium = true)
    (idle : s.boot.push = none) (gathered : Tbl.get [] s.boot.gathered medium = pre) (later : pre ≠ [])
    (whole : (pre ++ d).length = manifestLen) (format : formatFault (pre ++ d) = none)
    (signed : ((s.gather medium []).signerFault (pre ++ d)).2 = none) :
    s.pushManifest medium pre.length last d
      = (let t := ((s.gather medium []).signerFault (pre ++ d)).1
         { t with boot := { t.boot with push := some ⟨medium, pre ++ d, [], []⟩ } }, .accepted) := by
  have notFirst : pre.length ≠ 0 := by simpa using later
  have complete : ¬ (decide ((pre ++ d).length < manifestLen) && !last) = true := by simp [whole]
  unfold pushManifest
  rw [if_neg (by simp [listens])]
  split
  · next q other => rw [idle] at other; cases other
  · dsimp only
    rw [if_neg notFirst, gathered, if_neg (not_not.mpr rfl), if_neg complete, if_pos whole]
    split
    · next c bad => cases format.symm.trans bad
    · split
      · next c bad => cases signed.symm.trans bad
      · rfl

/-- Whether a manifest is signed depends on OTP and the life-cycle state alone; only the two results are written (R152-R155). -/
theorem signerFault_congr {s t : State} (otp : t.otp = s.otp) (lc : t.lc = s.lc) (m : List Byte) : (t.signerFault m).2 = (s.signerFault m).2 := by
  have signer : t.signerOk m = s.signerOk m := by rw [signerOk, signerOk, otp, lc]
  have rule : t.ruleBoth = s.ruleBoth := by rw [ruleBoth, ruleBoth, otp, lc]
  unfold signerFault
  rw [signer, rule]
  split <;> rfl

end State

/-! What serving a push and the hand-over leave alone -/

/-- What a frame on a lane, the two results of a signature check and a root load leave alone. -/
structure BootStill (s t : State) : Prop where
  boot : t.boot = s.boot
  sram : t.sram = s.sram
  flash : t.flash = s.flash
  otp : t.otp = s.otp
  nvm : t.nvm = s.nvm
  cfg : sameCfg s t

namespace BootStill

variable {s0 s t : State}

theorem refl (s : State) : BootStill s s := ⟨rfl, rfl, rfl, rfl, rfl, sameCfg_refl s⟩

theorem trans (h : BootStill s0 s) (k : BootStill s t) : BootStill s0 t :=
  ⟨k.boot.trans h.boot, k.sram.trans h.sram, k.flash.trans h.flash, k.otp.trans h.otp, k.nvm.trans h.nvm, sameCfg_trans h.cfg k.cfg⟩

theorem wr {f : Fld} {v : Nat} (h : BootStill s0 s) : BootStill s0 (s.wr f v) := h.trans ⟨rfl, rfl, rfl, rfl, rfl, sameCfg_wr s f v⟩

theorem ite {a b : State} {p : Prop} {_ : Decidable p} (ha : BootStill s0 a) (hb : BootStill s0 b) : BootStill s0 (if p then a else b) := by
  split <;> assumption

theorem foldl {α : Type} {f : State → α → State} {l : List α} (h : BootStill s0 s)
    (hf : ∀ {u : State} {x : α}, BootStill s0 u → BootStill s0 (f u x)) : BootStill s0 (l.foldl f s) :=
  List.foldlRecOn l f h fun _ k _ _ => hf k

/-- The vault, the CTR_DRBG and the lanes are none of what stays. -/
theorem engines {v : VaultSt} {g : RngSt} {k : Nat} {l : Tbl Lane} (h : BootStill s0 s) :
    BootStill s0 { s with vault := v, rng := g, free := k, lanes := l } :=
  h.trans ⟨rfl, rfl, rfl, rfl, rfl, ⟨rfl, rfl, rfl, rfl, rfl⟩⟩

theorem signerFault {m : List Byte} (h : BootStill s0 s) : BootStill s0 (s.signerFault m).1 := by
  unfold State.signerFault
  split
  · exact h
  · exact h.wr.wr

/-! The root load (R175) -/

theorem draw {n : Nat} (h : BootStill s0 s) : BootStill s0 (s.draw n).1 := (ite h.wr.engines h : BootStill s0 (if _ then s.reseed else s)).engines

theorem epochKeys (h : BootStill s0 s) : BootStill s0 s.epochKeys := by
  unfold State.epochKeys
  exact ite h h.draw.engines

theorem setSlot {i : Nat} {x : Slot} (h : BootStill s0 s) : BootStill s0 (s.setSlot i x) := h.engines

theorem rootLoadNow (h : BootStill s0 s) : BootStill s0 s.rootLoadNow := by
  unfold State.rootLoadNow
  exact ite h.wr.wr.engines h.wr.wr.engines.draw.engines.setSlot.setSlot.setSlot.setSlot.setSlot.setSlot.wr

theorem rootLoad (h : BootStill s0 s) : BootStill s0 s.rootLoad := by
  unfold State.rootLoad
  exact ite h.epochKeys.engines h.epochKeys.rootLoadNow

/-! A frame on a lane (R373, R384, R385) -/

theorem setLane {l : Nat} {x : Lane} (h : BootStill s0 s) : BootStill s0 (s.setLane l x) := h.engines

theorem setPn {x n : Nat} (h : BootStill s0 s) : BootStill s0 (s.setPn x n) := ite h.wr.wr h.wr

theorem usePn {l : Nat} (h : BootStill s0 s) : BootStill s0 (s.usePn l) := by
  unfold State.usePn
  exact ite (ite h.setPn.wr h.setPn).wr.wr.wr (ite h.setPn.wr h.setPn)

theorem pumpLane {l : Nat} (h : BootStill s0 s) : BootStill s0 (s.pumpLane l) := by
  unfold State.pumpLane
  dsimp only
  split
  · exact h
  · split
    · exact h
    · exact ite h.usePn.setLane h.setLane

theorem sendFrame {l : Nat} {f : List Byte} (h : BootStill s0 s) : BootStill s0 (s.sendFrame l f) := ite h.wr h.setLane.pumpLane

theorem sendEth {l peer : Nat} {f : List Byte} (h : BootStill s0 s) : BootStill s0 (s.sendEth l peer f) := h.sendFrame

end BootStill

/-! The hand-over (R164) -/

/-- The image and the push that ROM keeps, OTP and the flash devices are as they were. -/
structure ImageKept (s t : State) : Prop where
  push : t.boot.push = s.boot.push
  image : t.boot.image = s.boot.image
  otp : t.otp = s.otp
  flash : t.flash = s.flash

namespace State

/-- Without a loaded image there is nothing to hand over. -/
theorem handOver_notLoaded (s : State) (h : s.boot.phase ≠ .loaded) : s.handOver = s := by
  unfold handOver
  split
  · next phase _ => exact absurd phase h
  · rfl

theorem handOver_imageKept (s : State) : ImageKept s s.handOver := by
  unfold handOver
  split
  · split
    · exact ⟨rfl, rfl, rfl, rfl⟩
    · dsimp only
      generalize hu : rootLoad _ = u
      have still : BootStill s u := by
        subst hu
        exact ((((BootStill.refl s).wr.wr.wr.wr.wr.wr).foldl BootStill.wr).wr.wr).rootLoad
      have push : u.boot.push = s.boot.push := congrArg BootSt.push still.boot
      have image : u.boot.image = s.boot.image := congrArg BootSt.image still.boot
      exact ⟨push, image, still.otp, still.flash⟩
  · exact ⟨rfl, rfl, rfl, rfl⟩

end State

end Sys2Proof.Machine
end

section
/-! O33: what the push sequencer makes of a message of the mailbox and of a chunk on NET0 (R156, R159, R162, R163). -/

namespace Sys2Proof.Machine

/-- ROM has answered a message: the host owns the mailbox again, ROM keeps `b`, main SRAM holds `m`, and nothing else has changed but
the management port. -/
structure Answered (b : BootSt) (m : Mem) (s t : State) : Prop where
  own : t.mgpOwns = false
  boot : t.boot = b
  sram : t.sram = m
  flash : t.flash = s.flash
  otp : t.otp = s.otp
  nvm : t.nvm = s.nvm
  cfg : sameCfg s t
  mgpUp : t.mgpUp = s.mgpUp
  brace : t.brace = s.brace
  lc : t.lc = s.lc

theorem State.mgpPush_answered {s u : State} (h : Mailed s u) (r : State × PushAnswer) (b : BootSt) (m : Mem)
    (result : r.1 = { u with boot := b, sram := m }) : Answered b m s (State.mgpPush r) := by
  obtain ⟨answered, own⟩ := State.mgpPush_mailed r
  rw [result] at answered
  exact {
    own
    boot := answered.boot
    sram := answered.sram
    flash := answered.flash.trans h.flash
    otp := answered.otp.trans h.otp
    nvm := answered.nvm.trans h.nvm
    cfg := sameCfg_trans h.cfg ⟨answered.cfg.shadow, answered.cfg.applied, answered.cfg.inSck, answered.cfg.inAon, answered.cfg.latch⟩
    mgpUp := answered.mgpUp.trans h.mgpUp
    brace := answered.brace.trans h.brace
    lc := answered.lc.trans h.lc }

/-- While ROM waits for a push it serves messages. -/
theorem serves_of_waits {s : State} (waits : s.boot.phase = .waitPush ∨ s.boot.phase = .await) :
    s.boot.phase ≠ .done ∧ s.boot.phase ≠ .scrap ∧ s.boot.phase ≠ .fatal := by
  rcases waits with h | h <;> rw [h] <;> exact ⟨nofun, nofun, nofun⟩

theorem State.waits_of_listens {s : State} {medium : Nat} (h : s.listens medium = true) : s.boot.phase = .waitPush ∨ s.boot.phase = .await := by
  unfold State.listens at h
  split at h
  · next phase => exact .inl phase
  · next phase => exact .inr phase
  · cases h

section
variable (s : State) (up : s.mgpUp = true) (own : s.mgpOwns = false) (calm : s.brace = false)
  (waits : s.boot.phase = .waitPush ∨ s.boot.phase = .await)
include up own calm waits

/-! Leaves, image bytes and the end by the mailbox -/

variable (off : Nat) (d : List Byte) (p : Push) (push : s.boot.push = some p) (mine : p.medium = 0)
include push mine

theorem exec_pushLeaves_continues (hoff : off < 2 ^ 32) (fits : d.length ≤ 3584) (continues : off = p.leaves.length)
    (short : off + d.length < 48 * mfBlocks p.manifest) :
    ∃ t, exec (.pushLeaves off d) s = .next t
      ∧ Answered { s.boot with push := some { p with leaves := p.leaves ++ d } } s.sram s t := by
  obtain ⟨done, scrap, fatal⟩ := serves_of_waits waits
  obtain ⟨u, taken, run⟩ := exec_pushLeaves s up own done scrap fatal off d hoff fits
  have mailed := Mailed.of_submitted taken
  rw [if_neg (by simp [calm]), u.pushLeaves_continues 0 off d p (mailed.boot ▸ push) mine continues short] at run
  exact ⟨_, run, State.mgpPush_answered mailed _ _ _ (by rw [mailed.boot, ← mailed.sram])⟩

theorem exec_pushData_continues (hoff : off < 2 ^ 32) (fits : d.length ≤ 3584) (whole : p.leaves.length = 48 * mfBlocks p.manifest)
    (continues : off = p.image.length) (short : off + d.length < 4096) (inside : off + d.length ≤ 4096 * mfBlocks p.manifest) :
    ∃ t, exec (.pushData off d) s = .next t
      ∧ Answered { s.boot with push := some { p with image := p.image ++ d } } (Mem.store 0 s.sram (mfLoad p.manifest + off) d) s t := by
  obtain ⟨done, scrap, fatal⟩ := serves_of_waits waits
  obtain ⟨u, taken, run⟩ := exec_pushData s up own done scrap fatal off d hoff fits
  have mailed := Mailed.of_submitted taken
  rw [if_neg (by simp [calm]), u.pushData_continues 0 off d p (mailed.boot ▸ push) mine whole continues short inside] at run
  exact ⟨_, run, State.mgpPush_answered mailed _ _ _ (by rw [mailed.boot, mailed.sram])⟩

omit off d in
theorem exec_pushEnd_whole (whole : p.image.length = 4096 * mfBlocks p.manifest) (digest : Config.sha384 p.image = mfImageDigest p.manifest) :
    ∃ t, exec .pushEnd s = .next t ∧ t.mgpOwns = false ∧ t.boot.push = none
      ∧ t.boot.image = some (State.bootImage 2 0 p.manifest) ∧ t.otp = s.otp ∧ t.flash = s.flash := by
  obtain ⟨done, scrap, fatal⟩ := serves_of_waits waits
  obtain ⟨u, taken, run⟩ := exec_pushEnd s up own done scrap fatal
  have mailed := Mailed.of_submitted taken
  obtain ⟨loaded, _⟩ := u.pushLoaded_spec 0 p.manifest
  have kept := (u.pushLoaded 0 p.manifest).handOver_imageKept
  rw [if_neg (by simp [calm]), u.pushEnd_whole 0 p (mailed.boot ▸ push) mine whole digest] at run
  obtain ⟨answered, own'⟩ := State.mgpPush_mailed ((u.pushLoaded 0 p.manifest).handOver, .handover)
  exact ⟨_, run, own', (congrArg BootSt.push answered.boot).trans kept.push, (congrArg BootSt.image answered.boot).trans kept.image,
    answered.otp.trans (kept.otp.trans (loaded.stores.otp.trans mailed.otp)),
    answered.flash.trans (kept.flash.trans (loaded.stores.flash.trans mailed.flash))⟩

end

/-! A manifest in two pieces by the mailbox -/

section
variable (s : State) (d : List Byte) (up : s.mgpUp = true) (own : s.mgpOwns = false) (calm : s.brace = false)
  (listens : s.listens 0 = true) (idle : s.boot.push = none)
include up own calm listens idle

theorem hostMessage_manifest_first (short : d.length < manifestLen) (fits : d.length ≤ 4080) :
    Answered { s.boot with gathered := Tbl.put [] s.boot.gathered 0 d } s.sram s (s.hostMessage 2 1 0 d) := by
  obtain ⟨done, scrap, fatal⟩ := serves_of_waits (s.waits_of_listens listens)
  obtain ⟨u, taken, sent⟩ := s.hostMessage_rom 2 1 0 d up own done scrap fatal (by decide) (by decide) (by decide) fits
  have mailed := Mailed.of_submitted taken
  have listens' : u.listens 0 = true := by rwa [State.listens, mailed.boot]
  have first := u.pushManifest_first 0 d listens' (mailed.boot ▸ idle) short
  have served : u.romMessage 2 (bit 1 0) = State.mgpPush (u.gather 0 d, .accepted) := by
    rw [u.romMessage_manifest, mailed.brace, calm, taken.offIs, taken.payloadIs]
    exact congrArg State.mgpPush first
  rw [sent, served]
  exact State.mgpPush_answered mailed _ _ _ (by rw [State.gather, mailed.boot, ← mailed.sram])

theorem hostMessage_manifest_last (pre : List Byte) (gathered : Tbl.get [] s.boot.gathered 0 = pre) (later : pre ≠ [])
    (fits : d.length ≤ 4080) (whole : (pre ++ d).length = manifestLen) (format : formatFault (pre ++ d) = none)
    (signed : (s.signerFault (pre ++ d)).2 = none) : ∃ t, s.hostMessage 2 0 pre.length d = t ∧ t.mgpOwns = false
      ∧ t.boot.push = some ⟨0, pre ++ d, [], []⟩ ∧ t.boot.phase = s.boot.phase ∧ t.sram = s.sram ∧ t.flash = s.flash ∧ t.otp = s.otp
      ∧ sameCfg s t := by
  obtain ⟨done, scrap, fatal⟩ := serves_of_waits (s.waits_of_listens listens)
  have hoff : pre.length < 2 ^ 32 := by
    have : pre.length ≤ manifestLen := by rw [← whole, List.length_append]; omega
    exact this.trans_lt (by decide)
  obtain ⟨u, taken, sent⟩ := s.hostMessage_rom 2 0 pre.length d up own done scrap fatal (by decide) (by decide) hoff fits
  have mailed := Mailed.of_submitted taken
  have listens' : u.listens 0 = true := by rwa [State.listens, mailed.boot]
  have signed' : ((u.gather 0 []).signerFault (pre ++ d)).2 = none :=
    (State.signerFault_congr (t := u.gather 0 []) (s := s) mailed.otp mailed.lc _).trans signed
  have completes := u.pushManifest_completes 0 pre d true listens' (mailed.boot ▸ idle) (mailed.boot ▸ gathered) later whole format signed'
  have still : BootStill (u.gather 0 []) ((u.gather 0 []).signerFault (pre ++ d)).1 := (BootStill.refl _).signerFault
  generalize ((u.gather 0 []).signerFault (pre ++ d)).1 = v at completes still
  have served : u.romMessage 2 (bit 0 0) = State.mgpPush (u.pushManifest 0 pre.length true d) := by
    rw [u.romMessage_manifest, mailed.brace, calm, taken.offIs, taken.payloadIs]
    rfl
  rw [sent, served, completes]
  obtain ⟨answered, own'⟩ := State.mgpPush_mailed ({ v with boot := { v.boot with push := some ⟨0, pre ++ d, [], []⟩ } }, .accepted)
  have heard : (u.gather 0 []).boot.phase = s.boot.phase := by rw [← mailed.boot]; rfl
  have phase : v.boot.phase = s.boot.phase := (congrArg BootSt.phase still.boot).trans heard
  have cfg : sameCfg s (u.gather 0 []) := ⟨mailed.cfg.shadow, mailed.cfg.applied, mailed.cfg.inSck, mailed.cfg.inAon, mailed.cfg.latch⟩
  exact ⟨_, rfl, own', congrArg BootSt.push answered.boot, (congrArg BootSt.phase answered.boot).trans phase,
    answered.sram.trans (still.sram.trans mailed.sram), answered.flash.trans (still.flash.trans mailed.flash),
    answered.otp.trans (still.otp.trans mailed.otp),
    sameCfg_trans cfg (sameCfg_trans still.cfg
      ⟨answered.cfg.shadow, answered.cfg.applied, answered.cfg.inSck, answered.cfg.inAon, answered.cfg.latch⟩)⟩

/-- A manifest of R151 takes two messages. -/
theorem exec_pushManifest_whole (whole : d.length = manifestLen) (format : formatFault d = none) (signed : (s.signerFault d).2 = none) :
    ∃ t, exec (.pushManifest d) s = .next t ∧ t.mgpOwns = false ∧ t.boot.push = some ⟨0, d, [], []⟩ ∧ t.boot.phase = s.boot.phase
      ∧ t.sram = s.sram ∧ t.flash = s.flash ∧ t.otp = s.otp ∧ sameCfg s t := by
  have size : d.length = 5713 := whole
  have half : (d.take 4080).length = 4080 := by simp [size]
  have joined : d.take 4080 ++ d.drop 4080 = d := List.take_append_drop 4080 d
  have first := hostMessage_manifest_first s (d.take 4080) up own calm listens idle (by rw [half]; decide) half.le
  rw [exec_pushManifest_two s d (by omega) (by omega)]
  generalize s.hostMessage 2 1 0 (d.take 4080) = v at first
  have listens' : v.listens 0 = true := by rwa [State.listens, first.boot]
  obtain ⟨t, sent, own', push, phase, sram, flash, otp, cfg⟩ := hostMessage_manifest_last v (d.drop 4080) (first.mgpUp.trans up) first.own
    (first.brace.trans calm) listens' (by rw [first.boot]; exact idle) (d.take 4080) (by rw [first.boot]; exact Tbl.get_put_same _ _ _ _)
    (List.ne_nil_of_length_pos (by omega)) (by simp [size]) (by rwa [joined]) (by rwa [joined])
    (by rw [joined, State.signerFault_congr first.otp first.lc]; exact signed)
  rw [half] at sent
  rw [joined] at push
  have phase' : v.boot.phase = s.boot.phase := by rw [first.boot]
  exact ⟨t, congrArg Host.Outcome.next sent, own', push, phase.trans phase', sram.trans first.sram,
    flash.trans first.flash, otp.trans first.otp, sameCfg_trans first.cfg cfg⟩

end

/-! A chunk of leaves on NET0 -/

/-- The answer to leaves that ROM accepts is a LINK_ACK on the lane. -/
theorem State.romChunk_leaves_accepted (s : State) (peer q : Nat) (c : ImageChunk) (t : State) (calm : s.brace = false)
    (reserved : c.reserved = 0) (fits : c.data.length ≤ 1960) (part : c.part = 2) (listens : s.listens 1 = true)
    (accepted : s.pushLeaves 1 c.offset c.data = (t, .accepted)) :
    s.romChunk 1 peer q c = t.sendEth 0 peer (stxHeader ftLINK_ACK 0 false q 2 ++ leBytes 2 0) := by
  unfold State.romChunk
  rw [if_neg (by simp [reserved, fits]), if_neg (by simp [calm])]
  simp [part, listens, accepted, State.answerStatus, State.sendOn]

theorem exec_romImageChunk_leaves (s : State) (c : ImageChunk) (p : Push) (on : s.laneOn 0 = true) (listens : s.listens 1 = true)
    (calm : s.brace = false) (reserved : c.reserved = 0) (fits : c.data.length ≤ 1960) (part : c.part = 2) (push : s.boot.push = some p)
    (mine : p.medium = 1) (continues : c.offset = p.leaves.length) (short : c.offset + c.data.length < 48 * mfBlocks p.manifest) :
    ∃ t, exec (.romImageChunk .net0 c) s = .next t
      ∧ BootStill { s with boot := { s.boot with push := some { p with leaves := p.leaves ++ c.data } } } t := by
  have runs : s.romRuns = true := decide_eq_true (serves_of_waits (s.waits_of_listens listens)).1
  have leaves := s.pushLeaves_continues 1 c.offset c.data p push mine continues short
  refine ⟨_, exec_romImageChunk_net0 s c runs on, ?_⟩
  rw [s.romChunk_leaves_accepted c.peer 0 c _ calm reserved fits part listens leaves]
  exact (BootStill.refl _).sendEth

/-- Settles O33: the judgements of the push sequencer, and the whole commands that lead to them. -/
theorem pushKeeps : Obligations.PushKeeps := by
  intro s medium off d
  refine ⟨fun idle => s.push_idle medium off d idle, fun p push other => s.push_otherMedium medium off d p push other,
    fun p push mine continues short => s.pushLeaves_continues medium off d p push mine continues short,
    fun p push mine gap => s.pushLeaves_outOfOrder medium off d p push mine gap,
    fun p push mine whole continues short inside => s.pushData_continues medium off d p push mine whole continues short inside,
    fun p push mine gap => s.pushData_outOfOrder medium off d p push mine gap, fun p push mine whole digest => ?_,
    fun _ up own waits calm hoff fits p push mine => ⟨fun continues short => ?_, fun whole continues short inside => ?_, fun whole digest => ?_⟩,
    fun up own calm listens idle whole format signed => ?_,
    fun c p on listens calm reserved fits part push mine continues short => ?_⟩
  · obtain ⟨framed, attempts, code⟩ := s.pushLoaded_spec medium p.manifest
    exact ⟨_, s.pushEnd_whole medium p push mine whole digest, rfl, rfl, rfl, attempts, code, framed.cfg, framed.stores⟩
  · obtain ⟨t, run, answered⟩ := exec_pushLeaves_continues s up own calm waits off d p push mine hoff fits continues short
    exact ⟨t, run, answered.own, answered.boot, answered.sram, answered.flash, answered.otp, answered.nvm, answered.cfg⟩
  · obtain ⟨t, run, answered⟩ := exec_pushData_continues s up own calm waits off d p push mine hoff fits whole continues short inside
    exact ⟨t, run, answered.own, answered.sram, answered.boot, answered.flash, answered.otp, answered.nvm, answered.cfg⟩
  · exact exec_pushEnd_whole s up own calm waits p push mine whole digest
  · exact exec_pushManifest_whole s d up own calm listens idle whole format signed
  · obtain ⟨t, run, still⟩ :=
      exec_romImageChunk_leaves s c p on listens calm reserved fits part push mine continues short
    exact ⟨t, run, still.boot, still.sram, still.flash, still.otp,
      ⟨still.cfg.shadow, still.cfg.applied, still.cfg.inSck, still.cfg.inAon, still.cfg.latch⟩⟩

end Sys2Proof.Machine
end

section
/-! O34: cores, GO and the boot OTP (R139, R140, R145, R146, R158, R165, R170). -/

namespace Sys2Proof.Machine

/-! CORE_SELFTEST_DONE (R139) -/

/-- A core pair has reported its two results. -/
def State.selftestReported (s : State) (c : Nat) (l m : Bool) : State :=
  ((s.wrb (Reg.CORE.CORE_STATUS_LOCKSTEP_OK c) l).wrb (Reg.CORE.CORE_STATUS_MBIST_OK c) m).wr (Reg.CORE.CORE_STATUS_STATE c)
    (if l && m then 2 else 4)

theorem exec_coreSelftestDone_runs (s : State) (c : Fin 4) (l m : Bool) (up : s.up = true) (other : c.val ≠ 0)
    (runs : s.rd (Reg.CORE.CORE_STATUS_STATE c) = 1) : exec (.coreSelftestDone c l m) s = .next (s.selftestReported c l m).handOver :=
  congrArg Host.Outcome.next (if_pos (by simp [up, other, runs]))

theorem exec_coreSelftestDone_else (s : State) (c : Fin 4) (l m : Bool)
    (h : s.up = false ∨ c.val = 0 ∨ s.rd (Reg.CORE.CORE_STATUS_STATE c) ≠ 1) : exec (.coreSelftestDone c l m) s = .next s := by
  refine congrArg Host.Outcome.next (if_neg ?_)
  rcases h with h | h | h <;> simp [h]

/-- The two results and the state are what the self-test writes. -/
structure SelftestReported (c : Nat) (l m : Bool) (s t : State) : Prop
    extends OnlyFields [Reg.CORE.CORE_STATUS_STATE c, Reg.CORE.CORE_STATUS_LOCKSTEP_OK c, Reg.CORE.CORE_STATUS_MBIST_OK c] s t where
  state : t.rd (Reg.CORE.CORE_STATUS_STATE c) = if l && m then 2 else 4
  lockstep : t.flag (Reg.CORE.CORE_STATUS_LOCKSTEP_OK c) = l
  mbist : t.flag (Reg.CORE.CORE_STATUS_MBIST_OK c) = m

theorem State.selftestReported_spec (s : State) (c : Nat) (l m : Bool) : SelftestReported c l m s (s.selftestReported c l m) := by
  unfold State.selftestReported
  constructor
  case toOnlyFields => exact (OnlyFields.refl _ s).wr.wr.wr
  case state => rw [State.rd_wr_same]; split <;> rfl
  case lockstep => simp (disch := exact id rfl) only [State.wrb_eq, State.flag_wr_apart, State.flag_wr_bit]
  case mbist => simp (disch := exact id rfl) only [State.wrb_eq, State.flag_wr_apart, State.flag_wr_bit]

/-! RING (R170) -/

theorem exec_ring_ready (s : State) (c : Fin 4) (e : Nat) (free : s.ready pgCORE (0x50 + 4 * c.val) = true) :
    exec (.ring c e) s = .next (State.startRing c e s) :=
  exec_cmd_ready s (.ring c e) pgCORE (0x50 + 4 * c.val) (State.startRing c e) rfl free nofun nofun

/-- Core `c` runs from its entry, and nothing else has changed but its state (R165). -/
structure CoreStarted (c entry : Nat) (s t : State) : Prop extends OnlyFields [Reg.CORE.CORE_STATUS_STATE c] s t where
  state : t.rd (Reg.CORE.CORE_STATUS_STATE c) = 3
  core : t.core c = startedCore c entry
  others : ∀ d, d ≠ c → t.core d = s.core d

theorem State.startCore_started (s : State) (c entry : Nat) : CoreStarted c entry s (s.startCore c entry) where
  toOnlyFields := ((OnlyFields.refl _ s).wr (f := Reg.CORE.CORE_STATUS_STATE c) (v := 3)).outside
  state := State.rd_wr_same s _ 3
  core := Tbl.get_put_same _ _ _ _
  others d hd := Tbl.get_put_ne _ _ _ _ _ hd

/-! GO (R165) -/

/-- How GO treats core pair `c`, 1 to 3: it starts in WAIT where the mask names it, and is parked where it does not, unless it has failed. -/
def State.goCore (im : BootImage) (s : State) (c : Nat) : State :=
  let st := s.rd (Reg.CORE.CORE_STATUS_STATE c)
  if bit im.coreMask c then (if st = 2 then s.startCore c (im.entry.getD c 0) else s)
  else if st = 4 then s else s.wr (Reg.CORE.CORE_STATUS_STATE c) 5

/-- A core pair with its number and its state. -/
def State.coreView (s : State) (c : Nat) : Nat × Nat × CoreSt := (c, s.rd (Reg.CORE.CORE_STATUS_STATE c), s.core c)

/-- What GO makes of the view of a core pair. -/
def goneAs (im : BootImage) (x : Nat × Nat × CoreSt) : Nat × Nat × CoreSt :=
  if bit im.coreMask x.1 then (if x.2.1 = 2 then (x.1, 3, startedCore x.1 (im.entry.getD x.1 0)) else x)
  else if x.2.1 = 4 then x else (x.1, 5, x.2.2)

/-- A field outside the CORE page does not show the state of a core pair. -/
theorem coreState_keyOf_ne (f : Fld) (c : Nat) (h : f.keyOf < 0x800000 := by decide) : (Reg.CORE.CORE_STATUS_STATE c).keyOf ≠ f.keyOf := by
  simp only [Fld.keyOf, Reg.CORE.CORE_STATUS_STATE] at h ⊢
  omega

namespace State

theorem coreView_wr_other (s : State) (f : Fld) (v d : Nat) (h : f.keyOf < 0x800000 := by decide) : (s.wr f v).coreView d = s.coreView d := by
  rw [coreView, s.rd_wr_ne' f _ v (coreState_keyOf_ne f d h).symm]
  rfl

theorem coreView_wr_state (s : State) (c v d : Nat) (hv : v < 8) :
    (s.wr (Reg.CORE.CORE_STATUS_STATE c) v).coreView d = if d = c then (c, v, s.core c) else s.coreView d := by
  split
  · next same =>
    rw [same, coreView, rd_wr_same]
    exact congrArg (fun n => (c, n, s.core c)) (Nat.mod_eq_of_lt hv)
  · next other =>
    have apart : (Reg.CORE.CORE_STATUS_STATE c).keyOf ≠ (Reg.CORE.CORE_STATUS_STATE d).keyOf := by
      simp only [Fld.keyOf, Reg.CORE.CORE_STATUS_STATE]
      omega
    rw [coreView, s.rd_wr_ne' _ _ v apart]
    rfl

theorem coreView_startCore (s : State) (c e d : Nat) :
    (s.startCore c e).coreView d = if d = c then (c, 3, startedCore c e) else s.coreView d := by
  have state := congrArg (fun x => x.2.1) (s.coreView_wr_state c 3 d (by decide))
  have started := s.startCore_started c e
  split at state
  · next same =>
    rw [if_pos same, same]
    exact congrArg₂ (fun n k => (c, n, k)) started.state started.core
  · next other =>
    rw [if_neg other]
    exact congrArg₂ (fun n k => (d, n, k)) state (started.others d other)

/-- All that GO can do to core pair `c`. -/
theorem goCore_cases (im : BootImage) (s : State) (c : Nat) :
    (bit im.coreMask c = true ∧ s.rd (Reg.CORE.CORE_STATUS_STATE c) = 2 ∧ s.goCore im c = s.startCore c (im.entry.getD c 0))
    ∨ (bit im.coreMask c = false ∧ s.rd (Reg.CORE.CORE_STATUS_STATE c) ≠ 4 ∧ s.goCore im c = s.wr (Reg.CORE.CORE_STATUS_STATE c) 5)
    ∨ (goneAs im (s.coreView c) = s.coreView c ∧ s.goCore im c = s) := by
  unfold goCore
  cases masked : bit im.coreMask c
  · by_cases failed : s.rd (Reg.CORE.CORE_STATUS_STATE c) = 4
    · exact .inr (.inr ⟨by simp [goneAs, coreView, masked, failed], if_pos failed⟩)
    · exact .inr (.inl ⟨rfl, failed, if_neg failed⟩)
  · by_cases waits : s.rd (Reg.CORE.CORE_STATUS_STATE c) = 2
    · exact .inl ⟨rfl, waits, if_pos waits⟩
    · exact .inr (.inr ⟨by simp [goneAs, coreView, masked, waits], if_neg waits⟩)

theorem coreView_goCore (im : BootImage) (s : State) (c d : Nat) :
    (s.goCore im c).coreView d = if d = c then goneAs im (s.coreView c) else s.coreView d := by
  rcases s.goCore_cases im c with ⟨masked, waits, result⟩ | ⟨unmasked, well, result⟩ | ⟨same, result⟩
  · rw [result, coreView_startCore]
    simp [goneAs, coreView, masked, waits]
  · rw [result, coreView_wr_state _ _ _ _ (by decide)]
    simp [goneAs, coreView, unmasked, well]
  · rw [result, same]
    split <;> simp_all

/-- A flag outside the CORE page stays when the state of a core pair changes. -/
theorem flag_wr_coreState (s : State) (c v : Nat) (f : Fld) (h : f.keyOf < 0x800000 := by decide) :
    (s.wr (Reg.CORE.CORE_STATUS_STATE c) v).flag f = s.flag f :=
  congrArg (fun n => decide (n = 1)) (s.rd_wr_ne' _ f v (coreState_keyOf_ne f c h))

/-- GO changes nothing of a core pair but its registers and its state. -/
theorem goCore_keeps (im : BootImage) {s t : State} (c : Nat) (h : Framed s t ∧ t.flag Reg.BOOT.ROM_LOCK = true) :
    Framed s (t.goCore im c) ∧ (t.goCore im c).flag Reg.BOOT.ROM_LOCK = true := by
  obtain ⟨framed, locked⟩ := h
  rcases t.goCore_cases im c with ⟨_, _, result⟩ | ⟨_, _, result⟩ | ⟨_, result⟩ <;> rw [result]
  · exact ⟨framed.trans (t.startCore_started c _).toFramed, (t.flag_wr_coreState c 3 Reg.BOOT.ROM_LOCK).trans locked⟩
  · exact ⟨framed.wr, (t.flag_wr_coreState c 5 Reg.BOOT.ROM_LOCK).trans locked⟩
  · exact ⟨framed, locked⟩

end State

/-- The state in which GO leaves ROM, before the lanes follow. -/
def State.gone (s : State) (im : BootImage) : State :=
  let s := (s.wr Reg.BOOT.ROM_LOCK 1).startCore 0 (im.entry.getD 0 0)
  let s := [1, 2, 3].foldl (State.goCore im) s
  let s := s.wr Reg.BOOT.BOOT_TIME (leNat (s.freeBytes 3))
  { s.spend 3 with boot := { s.boot with phase := .done } }

theorem exec_go_ready (s : State) (free : s.ready pgBOOT 0xA4 = true) : exec .go s = .next s.startGo :=
  exec_cmd_ready s .go pgBOOT 0xA4 State.startGo rfl free nofun nofun

theorem State.startGo_handover (s : State) (im : BootImage) (phase : s.boot.phase = .handover) (image : s.boot.image = some im)
    (unlocked : s.flag Reg.BOOT.ROM_LOCK = false) : s.startGo = (s.gone im).lanesFollow := by
  unfold State.startGo
  split
  · next im' _ image' =>
    cases image.symm.trans image'
    exact if_neg (by simp [unlocked])
  · next other => exact absurd image (other im phase)

theorem State.startGo_else (s : State) (h : s.boot.phase ≠ .handover ∨ s.flag Reg.BOOT.ROM_LOCK = true) : s.startGo = s := by
  unfold State.startGo
  split
  · next phase _ => exact if_pos (h.resolve_left (not_not.mpr phase))
  · rfl

theorem State.gone_spec (s : State) (im : BootImage) : (s.gone im).boot.phase = .done ∧ (s.gone im).flag Reg.BOOT.ROM_LOCK = true
    ∧ (s.gone im).coreView 0 = (0, 3, startedCore 0 (im.entry.getD 0 0))
    ∧ (∀ c, 1 ≤ c → c < 4 → (s.gone im).coreView c = goneAs im (s.coreView c)) ∧ Framed s (s.gone im) := by
  have locked : Framed s ((s.wr Reg.BOOT.ROM_LOCK 1).startCore 0 (im.entry.getD 0 0))
      ∧ ((s.wr Reg.BOOT.ROM_LOCK 1).startCore 0 (im.entry.getD 0 0)).flag Reg.BOOT.ROM_LOCK = true :=
    ⟨((Framed.refl s).wr).trans (State.startCore_started _ _ _).toFramed,
      ((s.wr Reg.BOOT.ROM_LOCK 1).flag_wr_coreState 0 3 Reg.BOOT.ROM_LOCK).trans (s.flag_wr_one Reg.BOOT.ROM_LOCK rfl)⟩
  have restarted (d : Nat) : ((s.wr Reg.BOOT.ROM_LOCK 1).startCore 0 (im.entry.getD 0 0)).coreView d
      = if d = 0 then (0, 3, startedCore 0 (im.entry.getD 0 0)) else s.coreView d := by
    rw [State.coreView_startCore, State.coreView_wr_other s Reg.BOOT.ROM_LOCK]
  unfold State.gone
  dsimp only
  generalize (s.wr Reg.BOOT.ROM_LOCK 1).startCore 0 (im.entry.getD 0 0) = u at locked restarted ⊢
  have treated := foldl_view State.coreView (State.goCore im) (goneAs im) (fun s c d => s.coreView_goCore im c d) [1, 2, 3] (by decide) u
  have kept : Framed s ([1, 2, 3].foldl (State.goCore im) u) ∧ ([1, 2, 3].foldl (State.goCore im) u).flag Reg.BOOT.ROM_LOCK = true :=
    List.foldlRecOn (motive := fun t => Framed s t ∧ t.flag Reg.BOOT.ROM_LOCK = true) _ _ locked fun _ h c _ => State.goCore_keeps im c h
  generalize [1, 2, 3].foldl (State.goCore im) u = v at treated kept ⊢
  have timed (d : Nat) := v.coreView_wr_other Reg.BOOT.BOOT_TIME (leNat (v.freeBytes 3)) d
  refine ⟨rfl, (v.flag_wr_apart Reg.BOOT.BOOT_TIME Reg.BOOT.ROM_LOCK _ rfl).trans kept.2, (timed 0).trans ?_, fun c low high => (timed c).trans ?_, ?_⟩
  · rw [treated, if_neg (by decide), restarted, if_pos rfl]
  · rw [treated, if_pos (by simp; omega), restarted, if_neg (by omega)]
  · exact kept.1.wr.trans ⟨⟨rfl, rfl, rfl, rfl, rfl⟩, ⟨rfl, rfl, rfl, rfl, rfl, rfl, rfl⟩⟩

/-- What GO leaves of a core pair, read from its view. -/
theorem goneAs_state (im : BootImage) {s t : State} {c : Nat} (view : t.coreView c = goneAs im (s.coreView c)) :
    (bit im.coreMask c = true → s.rd (Reg.CORE.CORE_STATUS_STATE c) = 2 → t.rd (Reg.CORE.CORE_STATUS_STATE c) = 3
      ∧ t.core c = startedCore c (im.entry.getD c 0))
    ∧ (bit im.coreMask c = false → s.rd (Reg.CORE.CORE_STATUS_STATE c) ≠ 4 → t.rd (Reg.CORE.CORE_STATUS_STATE c) = 5)
    ∧ (s.rd (Reg.CORE.CORE_STATUS_STATE c) = 4 → t.rd (Reg.CORE.CORE_STATUS_STATE c) = 4) := by
  refine ⟨fun masked waits => ?_, fun unmasked well => ?_, fun failed => ?_⟩
  · simpa [goneAs, State.coreView, masked, waits] using view
  · have shown := congrArg (fun x => x.2.1) view
    simpa [goneAs, State.coreView, unmasked, well] using shown
  · have shown := congrArg (fun x => x.2.1) view
    simpa [goneAs, State.coreView, failed] using shown

/-! PROGRAM_FIELDS, REVOKE_A and REVOKE_B (R145, R146) -/

theorem exec_programFields_ready (s : State) (a : Nat) (free : s.ready pgBOOT 0xAC = true) :
    exec (.programFields a) s = .next (State.startProgramFields a s) :=
  exec_cmd_ready s (.programFields a) pgBOOT 0xAC (State.startProgramFields a) rfl free nofun nofun

theorem exec_revokeA_ready (s : State) (free : s.ready pgBOOT 0xAC = true) : exec .revokeA s = .next (State.startRevokeEntry false s) :=
  exec_cmd_ready s .revokeA pgBOOT 0xAC (State.startRevokeEntry false) rfl free nofun nofun

theorem exec_revokeB_ready (s : State) (free : s.ready pgBOOT 0xAC = true) : exec .revokeB s = .next (State.startRevokeEntry true s) :=
  exec_cmd_ready s .revokeB pgBOOT 0xAC (State.startRevokeEntry true) rfl free nofun nofun

/-- A boot OTP command is refused: its reason is on BOOT, and nothing is blown. -/
structure OtpRefused (code : Nat) (s t : State) : Prop where
  reason : t.rd (Hdr.REASON_CODE pgBOOT) = (pgBOOT * 256 + code) % 2 ^ 16
  otp : t.otp = s.otp
  otpBusy : t.boot.otpBusy = s.boot.otpBusy

theorem State.otpRefuse_refused (s : State) (code : Nat) : OtpRefused code s (s.otpRefuse code) := by
  refine ⟨?_, rfl, rfl⟩
  simp (disch := exact id rfl) only [State.otpRefuse, State.refuse_eq, State.cmdEnd_eq, State.setCmdSlot_rd, State.rd_wr_apart, State.rd_wr_same]
  rfl

/-- The blows of a boot OTP command have begun. -/
structure OtpStarted (i : Instr) (record : List Byte) (s t : State) : Prop where
  otpBusy : t.boot.otpBusy = some i
  otpRecord : t.boot.otpRecord = record
  runs : (t.cmdSlot pgBOOT 0xAC).running = some i
  regs : t.regs = s.regs
  stores : sameStores s t

theorem State.otpStart_started (s : State) (i : Instr) (record : List Byte) : OtpStarted i record s (s.otpStart i record) :=
  ⟨rfl, rfl, congrArg CmdSlot.running (s.cmdSlot_setCmdSlot_same pgBOOT 0xAC _), rfl, ⟨rfl, rfl, rfl, rfl, rfl, rfl, rfl⟩⟩

/-- The record of PROGRAM_FIELDS lies in main SRAM and has the form of R145. -/
def fieldsFormed (a : Nat) (r : List Byte) : Prop :=
  State.inSram a 64 = true ∧ allZero (slice r 4 12) = true ∧ fieldLe r 2 1 ≤ 1 ∧ fieldLe r 0 2 < 2 ^ 15

/-- No field of the record conflicts with what is blown already (R145). -/
def fieldsAgree (o : Otp) (r : List Byte) : Prop :=
  (o.bootOrder = 0 ∨ o.bootOrder = fieldLe r 0 2) ∧ (o.sigEither = false ∨ fieldLe r 2 1 = 1)
    ∧ (o.pushWindow = 0 ∨ o.pushWindow = fieldLe r 3 1) ∧ (digestOf 384 (slice r 16 48) = 0 ∨ o.fwHashA = 0 ∨ o.fwHashB = 0)

namespace State

theorem startProgramFields_locked (s : State) (a : Nat) (h : (s.lc ≠ lcISSUED ∧ s.lc ≠ lcPROVISIONED) ∨ s.otp.orderLock = true) :
    startProgramFields a s = s.otpRefuse Reason.NOT_IN_LIFECYCLE := if_pos (by simpa using h)

section
variable (s : State) (a : Nat) (lc : s.lc = lcISSUED ∨ s.lc = lcPROVISIONED) (unlocked : s.otp.orderLock = false)
include lc unlocked

theorem startProgramFields_unformed (h : ¬ fieldsFormed a (s.sramBytes a 64)) : startProgramFields a s = s.otpRefuse Reason.FIELD_RANGE := by
  unfold startProgramFields
  rw [if_neg (by rcases lc with h | h <;> simp [h, unlocked]), if_pos]
  simp only [fieldsFormed, not_and_or, Bool.not_eq_true, Nat.not_le, Nat.not_lt] at h
  simpa [or_assoc] using h

theorem startProgramFields_formed (h : fieldsFormed a (s.sramBytes a 64)) :
    (¬ fieldsAgree s.otp (s.sramBytes a 64) → startProgramFields a s = s.otpRefuse Reason.FIELD_RANGE)
    ∧ (fieldsAgree s.otp (s.sramBytes a 64) → startProgramFields a s = s.otpStart (.programFields a) (s.sramBytes a 64)) := by
  obtain ⟨inside, zero, flag, order⟩ := h
  have oneBit : fieldLe (s.sramBytes a 64) 2 1 = 0 ↔ ¬ fieldLe (s.sramBytes a 64) 2 1 = 1 := by omega
  unfold startProgramFields
  rw [if_neg (by rcases lc with h | h <;> simp [h, unlocked]), if_neg (by simpa [inside, zero, flag] using order)]
  refine ⟨fun conflict => if_pos ?_, fun agree => if_neg ?_⟩
  · simp only [fieldsAgree, not_and_or, not_or, Bool.not_eq_false, ← oneBit] at conflict
    simpa [or_assoc, and_assoc] using conflict
  · obtain ⟨bootOrder, either, window, hash⟩ := agree
    simp only [Bool.or_eq_true, Bool.and_eq_true, decide_eq_true_eq, not_or, not_and, not_not, oneBit]
    refine ⟨⟨⟨fun h => bootOrder.resolve_left h, fun h => either.resolve_left (by simp [h])⟩, fun h => window.resolve_left h⟩, fun h => ?_⟩
    exact hash.resolve_left h.1 |>.resolve_left h.2

theorem startProgramFields_unfit (h : ¬ (fieldsFormed a (s.sramBytes a 64) ∧ fieldsAgree s.otp (s.sramBytes a 64))) :
    startProgramFields a s = s.otpRefuse Reason.FIELD_RANGE := by
  by_cases formed : fieldsFormed a (s.sramBytes a 64)
  · exact (s.startProgramFields_formed a lc unlocked formed).1 fun agrees => h ⟨formed, agrees⟩
  · exact s.startProgramFields_unformed a lc unlocked formed

end

theorem startRevokeEntry_outside (s : State) (b : Bool) (h : s.inService = false) :
    startRevokeEntry b s = s.otpRefuse Reason.NOT_IN_LIFECYCLE := if_pos (by rw [h]; rfl)

/-- The first entry is revoked only while the second remains, and the other way round (R146). -/
theorem startRevokeEntry_remains (s : State) (b : Bool) (service : s.inService = true)
    (programmed : (if b then s.otp.fwHashA else s.otp.fwHashB) ≠ 0) (live : (if b then s.otp.revokedA else s.otp.revokedB) = false) :
    startRevokeEntry b s = s.otpStart (if b then .revokeB else .revokeA) [] := by
  unfold startRevokeEntry
  rw [if_neg (by simp [service]), if_neg]
  cases b <;> simpa using ⟨programmed, live⟩

theorem startRevokeEntry_last (s : State) (b : Bool) (service : s.inService = true)
    (gone : (if b then s.otp.fwHashA else s.otp.fwHashB) = 0 ∨ (if b then s.otp.revokedA else s.otp.revokedB) = true) :
    startRevokeEntry b s = s.otpRefuse Reason.FIELD_RANGE := by
  unfold startRevokeEntry
  rw [if_neg (by simp [service]), if_pos]
  cases b <;> rcases gone with h | h <;> simp_all

/-- The boot OTP command has ended with fuses `o`. -/
def blown (s : State) (o : Otp) : State :=
  (({ s with otp := o, boot := { s.boot with otpBusy := none, otpRecord := [] } } : State).raise pgBOOT 8).cmdEnd pgBOOT 0xAC

end State

/-- The fuses once a record of PROGRAM_FIELDS is blown (R145): its hash goes to the first entry that is free. -/
def Otp.withFields (o : Otp) (r : List Byte) : Otp :=
  let h := digestOf 384 (slice r 16 48)
  { o with
    bootOrder := fieldLe r 0 2
    sigEither := fieldLe r 2 1 = 1
    pushWindow := fieldLe r 3 1
    fwHashA := if o.fwHashA = 0 then h else o.fwHashA
    fwHashB := if o.fwHashA ≠ 0 && o.fwHashB = 0 then h else o.fwHashB }

/-- The fuses are `o`, the command has ended and its event is raised. -/
structure OtpBlown (o : Otp) (s t : State) : Prop where
  otp : t.otp = o
  otpBusy : t.boot.otpBusy = none
  event : t.raised pgBOOT 8 = true
  ended : (t.cmdSlot pgBOOT 0xAC).running = none
  nvm : t.nvm = s.nvm
  cfg : sameCfg s t

theorem State.blown_spec (s : State) (o : Otp) : OtpBlown o s (s.blown o) where
  otp := rfl
  otpBusy := rfl
  event := State.flag_wr_one _ _ rfl
  ended := congrArg CmdSlot.running (State.cmdSlot_setCmdSlot_same _ pgBOOT 0xAC _)
  nvm := rfl
  cfg := ⟨rfl, rfl, rfl, rfl, rfl⟩

namespace State

section
variable (s : State) (awake : s.flag Reg.PWR.STATUS_BRACE = false)
include awake

theorem otpFinish_revokeA (busy : s.boot.otpBusy = some .revokeA) : s.otpFinish = s.blown { s.otp with revokedA := true } := by
  unfold otpFinish
  rw [busy]
  exact if_neg (by simp [awake])

theorem otpFinish_revokeB (busy : s.boot.otpBusy = some .revokeB) : s.otpFinish = s.blown { s.otp with revokedB := true } := by
  unfold otpFinish
  rw [busy]
  exact if_neg (by simp [awake])

theorem otpFinish_programFields (a : Nat) (busy : s.boot.otpBusy = some (.programFields a)) :
    s.otpFinish = s.blown (s.otp.withFields s.boot.otpRecord) := by
  unfold otpFinish
  rw [busy]
  exact if_neg (by simp [awake])

end

theorem otpFinish_else (s : State) (h : s.flag Reg.PWR.STATUS_BRACE = true ∨ s.boot.otpBusy = none) : s.otpFinish = s := by
  unfold otpFinish
  split
  · rfl
  · next busy => exact if_pos (h.resolve_right (by simp [busy]))

end State

/-- Settles O34, from one lemma for each way a core starts or a boot OTP command goes. -/
theorem coresAndBootOtp : Obligations.CoresAndBootOtp := by
  refine ⟨fun s c l m up other runs => ?_, fun s c l m h => exec_coreSelftestDone_else s c l m h, fun s c e free => ⟨fun waits => ?_, fun waits parked => ?_⟩,
    fun s im free phase image unlocked => ?_, fun s free h => (exec_go_ready s free).trans (congrArg Host.Outcome.next (s.startGo_else h)),
    fun s a free => ⟨fun h => ?_, fun lc unlocked => ⟨fun h => ?_, fun ⟨formed, agrees⟩ => ?_⟩⟩, fun s free => ⟨fun service programmed live => ?_,
    fun service programmed live => ?_, fun service gone => ?_, fun service gone => ?_, fun outside => ?_⟩,
    fun s awake => ⟨fun busy => ?_, fun busy => ?_, fun a busy => ?_⟩, fun s h => congrArg Host.Outcome.next (s.otpFinish_else h)⟩
  · have reported := s.selftestReported_spec c l m
    exact ⟨_, exec_coreSelftestDone_runs s c l m up other runs, fun early => State.handOver_notLoaded _ early, reported.state, reported.lockstep,
      reported.mbist, reported.fields, reported.cfg, reported.stores⟩
  · have started := s.startCore_started c (e / 2 * 2)
    refine ⟨_, (exec_ring_ready s c e free).trans (congrArg Host.Outcome.next (if_pos (by simpa using waits))), started.state, started.core,
      started.fields, started.cfg, started.stores⟩
  · exact (exec_ring_ready s c e free).trans (congrArg Host.Outcome.next (if_neg (by simp [waits, parked])))
  · obtain ⟨done, locked, first, others, framed⟩ := s.gone_spec im
    refine ⟨_, (exec_go_ready s free).trans (congrArg Host.Outcome.next (s.startGo_handover im phase image unlocked)), done, locked,
      (Prod.mk.inj (Prod.mk.inj first).2).1, (Prod.mk.inj (Prod.mk.inj first).2).2, fun c low high => ?_, framed.cfg, framed.stores⟩
    exact goneAs_state im (others c low high)
  · have refused := s.otpRefuse_refused Reason.NOT_IN_LIFECYCLE
    exact ⟨_, (exec_programFields_ready s a free).trans (congrArg Host.Outcome.next (s.startProgramFields_locked a h)), refused.reason,
      refused.otpBusy, refused.otp⟩
  · have refused := s.otpRefuse_refused Reason.FIELD_RANGE
    exact ⟨_, (exec_programFields_ready s a free).trans (congrArg Host.Outcome.next (s.startProgramFields_unfit a lc unlocked h)), refused.reason,
      refused.otpBusy, refused.otp⟩
  · have started := s.otpStart_started (.programFields a) (s.sramBytes a 64)
    exact ⟨_, (exec_programFields_ready s a free).trans (congrArg Host.Outcome.next ((s.startProgramFields_formed a lc unlocked formed).2 agrees)),
      started.otpBusy, started.otpRecord, started.runs, started.regs, started.stores⟩
  · have started := s.otpStart_started .revokeA []
    exact ⟨_, (exec_revokeA_ready s free).trans (congrArg Host.Outcome.next (s.startRevokeEntry_remains false service programmed live)),
      started.otpBusy, started.stores⟩
  · have started := s.otpStart_started .revokeB []
    exact ⟨_, (exec_revokeB_ready s free).trans (congrArg Host.Outcome.next (s.startRevokeEntry_remains true service programmed live)),
      started.otpBusy, started.stores⟩
  · have refused := s.otpRefuse_refused Reason.FIELD_RANGE
    exact ⟨_, (exec_revokeA_ready s free).trans (congrArg Host.Outcome.next (s.startRevokeEntry_last false service gone)), refused.reason,
      refused.otp, refused.otpBusy⟩
  · have refused := s.otpRefuse_refused Reason.FIELD_RANGE
    exact ⟨_, (exec_revokeB_ready s free).trans (congrArg Host.Outcome.next (s.startRevokeEntry_last true service gone)), refused.reason,
      refused.otp, refused.otpBusy⟩
  · have refused := s.otpRefuse_refused Reason.NOT_IN_LIFECYCLE
    exact ⟨_, (exec_revokeA_ready s free).trans (congrArg Host.Outcome.next (s.startRevokeEntry_outside false outside)),
      (exec_revokeB_ready s free).trans (congrArg Host.Outcome.next (s.startRevokeEntry_outside true outside)), refused.reason,
      refused.otp, refused.otpBusy⟩
  · have ended := s.blown_spec { s.otp with revokedA := true }
    exact ⟨_, congrArg Host.Outcome.next (s.otpFinish_revokeA awake busy), ended.otp, ended.otpBusy, ended.event, ended.ended, ended.nvm, ended.cfg⟩
  · have ended := s.blown_spec { s.otp with revokedB := true }
    exact ⟨_, congrArg Host.Outcome.next (s.otpFinish_revokeB awake busy), ended.otp, ended.otpBusy, ended.event, ended.ended, ended.nvm, ended.cfg⟩
  · have ended := s.blown_spec (s.otp.withFields s.boot.otpRecord)
    exact ⟨_, congrArg Host.Outcome.next (s.otpFinish_programFields awake a busy), congrArg Otp.bootOrder ended.otp, congrArg Otp.pushWindow ended.otp,
      fun free => (congrArg Otp.fwHashA ended.otp).trans (if_pos free), fun taken => (congrArg Otp.fwHashA ended.otp).trans (if_neg taken),
      ended.otpBusy, ended.nvm, ended.cfg⟩

end Sys2Proof.Machine
end

section
/-! SUPPORT. The slot table (R195) and how a vault command ends. -/

namespace Sys2Proof

/-- What keeps every CFG value from a state with the same registers keeps it. -/
theorem sameCfg.of_regs {s t u : Machine.State} (h : sameCfg t u) (regs : t.regs = s.regs := by rfl) : sameCfg s u :=
  Machine.sameCfg_trans (Machine.sameCfg_of_regs regs) h

end Sys2Proof

namespace Sys2Proof.Machine

namespace State

/-- A record is stored with a tag that checks. -/
theorem slot_setSlot_same (s : State) (i : Nat) (r : Slot) : (s.setSlot i r).slot i = { r with tag := none } := Tbl.get_put_same _ _ _ _

theorem slot_setSlot_ne (s : State) (i j : Nat) (r : Slot) (h : j ≠ i) : (s.setSlot i r).slot j = s.slot j := Tbl.get_put_ne _ _ _ _ _ h

theorem slot_of_vault {s t : State} (h : t.vault = s.vault) (j : Nat) : t.slot j = s.slot j := by rw [slot, slot, h]

theorem slotTagOk_of_tag_none (s : State) (i : Nat) (h : (s.slot i).tag = none) : s.slotTagOk i = true := by
  unfold slotTagOk
  rw [h]

/-- Whether the tag of a record checks is a matter of the record and of the epoch's tag key. -/
theorem slotTagOk_congr {s t : State} {i : Nat} (slot : t.slot i = s.slot i) (key : t.vault.tagKey = s.vault.tagKey) :
    t.slotTagOk i = s.slotTagOk i := by
  unfold slotTagOk
  rw [slot, key]

theorem slotTagOk_of_vault {s t : State} (h : t.vault = s.vault) (i : Nat) : t.slotTagOk i = s.slotTagOk i :=
  slotTagOk_congr (slot_of_vault h i) (congrArg VaultSt.tagKey h)

end State

/-- The registers in which a vault command that succeeds shows its end. -/
abbrev kvtDoneFields : List Fld := [Reg.KVT.RESULT_SLOT, Reg.KVT.RESULT_CODE, Reg.KVT.STATUS_BUSY, Hdr.EVENT pgKVT 8]

/-- A vault command has ended with its reason, 0 on success: RESULT, CMD_DONE and, on a refusal, the reason of the page. -/
structure KvtEnded (code : Nat) (s t : State) : Prop
    extends OnlyFields (Hdr.REASON_CODE pgKVT :: Hdr.REASON_OFFSET pgKVT :: kvtDoneFields) s t where
  vault : t.vault = s.vault
  result : t.rd Reg.KVT.RESULT_CODE = code % 2 ^ 16
  event : t.raised pgKVT 8 = true
  idle : (t.cmdSlot pgKVT 0x44).running = none

theorem State.kvtResult_ended (s : State) (sl code : Nat) : KvtEnded code s (s.kvtResult sl code) := by
  unfold State.kvtResult
  dsimp only
  generalize hu : (if code = 0 then s else s.refuse pgKVT code 0x44) = u
  have reason : OnlyFields (Hdr.REASON_CODE pgKVT :: Hdr.REASON_OFFSET pgKVT :: kvtDoneFields) s u ∧ u.vault = s.vault := by
    subst hu
    split
    · exact ⟨OnlyFields.refl _ s, rfl⟩
    · exact ⟨(OnlyFields.refl _ s).wr.wr, rfl⟩
  obtain ⟨only, vault⟩ := reason
  simp only [State.raise_eq, State.cmdEnd_eq]
  constructor
  case toOnlyFields =>
    exact only.wr.wr.wr.wr.setCmdSlot
  case vault => exact vault
  case result => simp (disch := exact id rfl) only [State.setCmdSlot_rd, State.rd_wr_apart, State.rd_wr_same]; rfl
  case event => exact State.flag_wr_one _ _ rfl
  case idle => exact congrArg CmdSlot.running (State.cmdSlot_setCmdSlot_same _ pgKVT 0x44 _)

/-- On success the page records no reason. -/
theorem State.kvtResult_success (s : State) (sl : Nat) : OnlyFields kvtDoneFields s (s.kvtResult sl 0) :=
  (OnlyFields.refl kvtDoneFields s).wr.wr.wr.wr.setCmdSlot

end Sys2Proof.Machine
end

section
/-! O35: DEFINE and CHAIN (R181, R186-R188). -/

namespace Sys2Proof.Machine

namespace State

/-! What is judged before the parent -/

theorem defineFault_noRoot (s : State) (t p : Nat) (h : s.vault.root = none) : s.defineFault t p = some kvROOT_UNAVAILABLE :=
  if_pos (by rw [h]; rfl)

section
variable (s : State) (t p : Nat) (root : s.vault.root ≠ none)
include root

theorem defineFault_reserved (h : t ≤ 5 ∨ p = 0) : s.defineFault t p = some kvRESERVED := by
  unfold defineFault
  rw [if_neg (by simpa using root), if_pos (by simpa using h)]

variable (target : 6 ≤ t) (parent : p ≠ 0)
include target parent

theorem defineFault_range (h : 512 ≤ t ∨ 512 ≤ p) : s.defineFault t p = some Reason.FIELD_RANGE := by
  unfold defineFault
  rw [if_neg (by simpa using root), if_neg (by simp [parent]; omega), if_pos (by simpa using h)]

/-- Of two slots that a command may name, the target must be FREE (R187). -/
theorem defineFault_inRange (ht : t < 512) (hp : p < 512) :
    s.defineFault t p = if (s.slot t).state = slFREE then none else some kvWRITE_ONCE := by
  unfold defineFault
  rw [if_neg (by simpa using root), if_neg (by simp [parent]; omega), if_neg (by simp; omega), slotFree]
  by_cases free : (s.slot t).state = slFREE <;> simp [free]

end

/-! What DEFINE and CHAIN make of a parent -/

/-- The record that DEFINE gives a child of slot `p` (R186). -/
def childSlot (s : State) (p a : Nat) (ld : BitVec 384) : Slot :=
  { Slot.blank with state := slDEFINED, parent := p, ld := ld, keyAttr := a, pgen := (s.slot p).gen, depth := (s.slot p).depth + 1 }

/-- The record that CHAIN gives a slot `n` steps below the chain slot `p` (R181). -/
def chainSlot (s : State) (p n : Nat) : Slot := { s.childSlot p atDERIVE 0 with chain := true, svn := (s.slot p).svn - n }

theorem parentFault_usable (s : State) (p : Nat) (h : s.captureFault p = (s, none)) : s.parentFault p = (s, none) := by
  rw [parentFault, h]; rfl

/-- Whatever an unusable parent lacks, the reason is SLOT_NOT_USABLE (R188). -/
theorem parentFault_unusable (s u : State) (p c : Nat) (h : s.captureFault p = (u, some c)) : s.parentFault p = (u, some kvNOT_USABLE) := by
  rw [parentFault, h]; rfl

theorem defineLd_fault (s : State) (t p a c : Nat) (ld : BitVec 384) (h : s.defineFault t p = some c) : s.defineLd t p a ld = (s, c) := by
  simp only [defineLd, h]

theorem chainTo_fault (s : State) (t p n c : Nat) (h : s.defineFault t p = some c) : s.chainTo t p n = (s, c) := by
  simp only [chainTo, h]

section
variable (s : State) (t p a : Nat) (ld : BitVec 384) (fit : s.defineFault t p = none) (range : a ≤ 3)
include fit range

theorem defineLd_unusable (u : State) (c : Nat) (h : s.captureFault p = (u, some c)) : s.defineLd t p a ld = (u, kvNOT_USABLE) := by
  simp only [defineLd, fit, if_neg (Nat.not_lt.mpr range), s.parentFault_unusable u p c h]

theorem defineLd_defines (usable : s.captureFault p = (s, none)) (derives : (s.slot p).keyAttr = atDERIVE) (depth : (s.slot p).depth < 8) :
    s.defineLd t p a ld = (s.defineSlot t (s.childSlot p a ld), 0) := by
  simp only [defineLd, fit, if_neg (Nat.not_lt.mpr range), s.parentFault_usable p usable, derives, ne_eq, not_true_eq_false, if_false,
    if_neg (show ¬ 8 < (s.slot p).depth + 1 by omega), childSlot]

end

/-- Under a chain parent that is not too deep, CHAIN turns on the parent's SVN alone (R181). -/
theorem chainTo_parent (s : State) (t p n : Nat) (fit : s.defineFault t p = none) (steps : n ≠ 0) (byte : n ≤ 255)
    (usable : s.captureFault p = (s, none)) (derives : (s.slot p).keyAttr = atDERIVE) (chain : (s.slot p).chain = true)
    (depth : (s.slot p).depth < 8) :
    s.chainTo t p n = if (s.slot p).svn < n then (s, kvCHAIN_RANGE) else (s.defineSlot t (s.chainSlot p n), 0) := by
  have inRange : ¬ (decide (n = 0) || decide (255 < n)) = true := by simp [steps, byte]
  have parent : ¬ (decide ((s.slot p).keyAttr ≠ atDERIVE) || !(s.slot p).chain) = true := by simp [derives, chain]
  simp only [chainTo, fit, if_neg inRange, s.parentFault_usable p usable, if_neg parent,
    if_neg (show ¬ 8 < (s.slot p).depth + 1 by omega), chainSlot, childSlot]

/-! The commands, when they start -/

theorem startDefine_noRoot (s : State) (a : Nat) (h : s.vault.root = none) : startDefine a s = s.kvtResult (s.sramLe a 2) kvROOT_UNAVAILABLE :=
  if_pos (by rw [h]; rfl)

theorem startChain_noRoot (s : State) (a : Nat) (h : s.vault.root = none) : startChain a s = s.kvtResult (s.sramLe a 2) kvROOT_UNAVAILABLE :=
  if_pos (by rw [h]; rfl)

/-- A DEFINE whose descriptor and label lie in main SRAM ends with what `defineLd` answers: without a root, that is ROOT_UNAVAILABLE too. -/
theorem startDefine_formed (s u : State) (a c : Nat) (inside : inSram a (8 + s.sramLe (a + 6) 2) = true) (label : s.sramLe (a + 6) 2 ≠ 0)
    (short : s.sramLe (a + 6) 2 ≤ 256)
    (h : s.defineLd (s.sramLe a 2) (s.sramLe (a + 2) 2) (s.sramLe (a + 4) 1) (Config.sha384 (s.sramBytes (a + 8) (s.sramLe (a + 6) 2))) = (u, c)) :
    startDefine a s = u.kvtResult (s.sramLe a 2) c := by
  cases root : s.vault.root with
  | none =>
    rw [s.defineLd_fault _ _ _ kvROOT_UNAVAILABLE _ (s.defineFault_noRoot _ _ root)] at h
    obtain ⟨rfl, rfl⟩ := Prod.mk.inj h
    exact s.startDefine_noRoot a root
  | some m =>
    simp only [startDefine, root, Option.isNone_some, Bool.false_eq_true, if_false, h]
    exact if_neg (by simp [inside, label, short])

theorem startChain_formed (s u : State) (a c : Nat) (inside : inSram a 8 = true)
    (h : s.chainTo (s.sramLe a 2) (s.sramLe (a + 2) 2) (s.sramLe (a + 5) 1) = (u, c)) : startChain a s = u.kvtResult (s.sramLe a 2) c := by
  cases root : s.vault.root with
  | none =>
    rw [s.chainTo_fault _ _ _ kvROOT_UNAVAILABLE (s.defineFault_noRoot _ _ root)] at h
    obtain ⟨rfl, rfl⟩ := Prod.mk.inj h
    exact s.startChain_noRoot a root
  | some m =>
    simp only [startChain, root, Option.isNone_some, Bool.false_eq_true, if_false, h]
    exact if_neg (by simp [inside])

/-- One byte of main SRAM. -/
theorem sramLe_one_le (s : State) (a : Nat) : s.sramLe a 1 ≤ 255 := by
  have := (Tbl.get 0 s.sram a).isLt
  simp only [sramLe, Mem.le]
  omega

end State

/-- Slot `t` has been defined with record `r`, and the command has ended: no other slot, no memory, no CFG value and neither the root nor
the cache has changed. -/
structure SlotDefined (t : Nat) (r : Slot) (s u : State) : Prop extends OnlyFields kvtDoneFields s u where
  slot : u.slot t = { r with tag := none, order := s.vault.nextOrder }
  others : ∀ j, j ≠ t → u.slot j = s.slot j
  root : u.vault.root = s.vault.root
  cache : u.vault.cache = s.vault.cache
  result : u.rd Reg.KVT.RESULT_CODE = 0
  event : u.raised pgKVT 8 = true

theorem State.defineSlot_defined (s : State) (t : Nat) (r : Slot) : SlotDefined t r s ((s.defineSlot t r).kvtResult t 0) := by
  have ended := (s.defineSlot t r).kvtResult_ended t 0
  have stored : OnlyFields kvtDoneFields s (s.defineSlot t r) := (OnlyFields.refl kvtDoneFields s).outside
  exact ⟨stored.trans ((s.defineSlot t r).kvtResult_success t), (State.slot_of_vault ended.vault t).trans (s.slot_setSlot_same t _),
    fun j other => (State.slot_of_vault ended.vault j).trans (s.slot_setSlot_ne t j _ other), (congrArg VaultSt.root ended.vault).trans rfl,
    (congrArg VaultSt.cache ended.vault).trans rfl, ended.result, ended.event⟩

theorem exec_define_ready (s : State) (a : Nat) (free : s.ready pgKVT 0x44 = true) : exec (.define a) s = .next (State.startDefine a s) :=
  exec_cmd_ready s (.define a) pgKVT 0x44 (State.startDefine a) rfl free nofun nofun

theorem exec_chain_ready (s : State) (a : Nat) (free : s.ready pgKVT 0x44 = true) : exec (.chain a) s = .next (State.startChain a s) :=
  exec_cmd_ready s (.chain a) pgKVT 0x44 (State.startChain a) rfl free nofun nofun

/-- Settles O35: a command ends with what `defineLd` or `chainTo` answers, whose cases are the faults of the slots and of the parent. -/
theorem vaultDefine : Obligations.VaultDefine := by
  refine ⟨fun s a free inside label short fit attr usable derives depth => ?_, fun s a free inside fit steps usable derives chain depth => ?_,
    fun s a free => ⟨fun root => ⟨?_, ?_⟩, fun c inside label short fault => ?_, fun u c inside label short fit attr unusable => ?_⟩,
    fun s t p => ⟨fun root => s.defineFault_noRoot t p root, fun root h => s.defineFault_reserved t p root h,
      fun root target parent h => s.defineFault_range t p root target parent h, fun target ht parent hp root taken => ?_,
      fun target ht parent hp root empty => ?_⟩⟩
  · have defined := s.defineSlot_defined (s.sramLe a 2)
      (s.childSlot (s.sramLe (a + 2) 2) (s.sramLe (a + 4) 1) (Config.sha384 (s.sramBytes (a + 8) (s.sramLe (a + 6) 2))))
    refine ⟨_, (exec_define_ready s a free).trans (congrArg Host.Outcome.next (s.startDefine_formed _ a 0 inside label short
        (s.defineLd_defines _ _ _ _ fit attr usable derives depth))), congrArg Slot.state defined.slot, congrArg Slot.parent defined.slot,
      congrArg Slot.ld defined.slot, congrArg Slot.keyAttr defined.slot, congrArg Slot.pgen defined.slot, congrArg Slot.gen defined.slot,
      congrArg Slot.depth defined.slot, State.slotTagOk_of_tag_none _ _ (congrArg Slot.tag defined.slot), defined.others, defined.root,
      defined.cache, defined.result, defined.event, defined.fields, defined.cfg, defined.stores⟩
  · have judged := s.chainTo_parent (s.sramLe a 2) (s.sramLe (a + 2) 2) (s.sramLe (a + 5) 1) fit steps (s.sramLe_one_le _) usable derives
      chain depth
    refine ⟨fun covered => ?_, fun beyond => ?_⟩
    · rw [if_neg (Nat.not_lt.mpr covered)] at judged
      have defined := s.defineSlot_defined (s.sramLe a 2) (s.chainSlot (s.sramLe (a + 2) 2) (s.sramLe (a + 5) 1))
      exact ⟨_, (exec_chain_ready s a free).trans (congrArg Host.Outcome.next (s.startChain_formed _ a 0 inside judged)),
        congrArg Slot.state defined.slot, congrArg Slot.parent defined.slot, congrArg Slot.keyAttr defined.slot, congrArg Slot.chain defined.slot,
        congrArg Slot.svn defined.slot, congrArg Slot.depth defined.slot, defined.others, defined.result, defined.fields, defined.cfg,
        defined.stores⟩
    · rw [if_pos beyond] at judged
      exact (exec_chain_ready s a free).trans (congrArg Host.Outcome.next (s.startChain_formed s a _ inside judged))
  · exact (exec_define_ready s a free).trans (congrArg Host.Outcome.next (s.startDefine_noRoot a root))
  · exact (exec_chain_ready s a free).trans (congrArg Host.Outcome.next (s.startChain_noRoot a root))
  · exact (exec_define_ready s a free).trans (congrArg Host.Outcome.next (s.startDefine_formed s a c inside label short
      (s.defineLd_fault _ _ _ c _ fault)))
  · exact (exec_define_ready s a free).trans (congrArg Host.Outcome.next (s.startDefine_formed u a _ inside label short
      (s.defineLd_unusable _ _ _ _ fit attr u c unusable)))
  · exact (s.defineFault_inRange t p root target parent ht hp).trans (if_neg taken)
  · exact (s.defineFault_inRange t p root target parent ht hp).trans (if_pos empty)

end Sys2Proof.Machine
end

section
/-! SUPPORT. What a withdrawal makes of the slots, of the cache and of the data keys of the engines (R190, R191, R196). -/

namespace Sys2Proof.Machine

/-- The fields that show the data key registers of the two AES engines. -/
def dkrFields : List Fld :=
  [0, 1].flatMap fun e => [Reg.AES.DKR_STATUS_LOADED e, Reg.AES.DKR_STATUS_ATTR e, Reg.AES.DKR_STATUS_SOURCE e, Reg.AES.DKR_STATUS_SLOT e]

/-- The engines have marked the operations whose key is gone, and no more than the data keys has been taken from them. -/
structure KeysMarked (s t : State) : Prop extends OnlyFields dkrFields s t where
  vault : t.vault = s.vault
  time : t.time = s.time

namespace KeysMarked

variable {s t : State} {e : Nat}

theorem setAes {a : AesSt} (h : KeysMarked s t) : KeysMarked s (t.setAes e a) := ⟨h.toOnlyFields.outside, h.vault, h.time⟩

theorem showDkr {k : Dkr} (h : KeysMarked s t) (he : e ∈ [0, 1]) : KeysMarked s (t.showDkr e k) := by
  have listed (f : Fld) (hf : f ∈ [Reg.AES.DKR_STATUS_LOADED e, Reg.AES.DKR_STATUS_ATTR e, Reg.AES.DKR_STATUS_SOURCE e,
      Reg.AES.DKR_STATUS_SLOT e]) : f ∈ dkrFields := List.mem_flatMap.mpr ⟨e, he, hf⟩
  have shown := h.setAes (e := e) (a := { t.aesOf e with dkr := k })
  exact ⟨(((shown.toOnlyFields.wr (listed _ (by simp))).wr (listed _ (by simp))).wr (listed _ (by simp))).wr (listed _ (by simp)),
    shown.vault, shown.time⟩

theorem dkrGone (h : KeysMarked s t) (he : e ∈ [0, 1]) : KeysMarked s (t.dkrGone e) := by
  unfold State.dkrGone
  split
  · exact h.setAes
  · exact h.showDkr he

end KeysMarked

namespace State

theorem revokeOps_keysMarked (s : State) (gone : Nat → Bool) (reason : Nat) : KeysMarked s (s.revokeOps gone reason) := by
  unfold revokeOps
  dsimp only
  refine List.foldlRecOn _ _ ⟨(OnlyFields.refl _ s).outside, rfl, rfl⟩ fun u marked e he => ?_
  split
  · exact marked.dkrGone he
  · exact marked

/-- The slots of a list become ORPHAN (R190). -/
def orphan (s : State) (l : List Nat) : State := l.foldl (fun s j => s.slotGone j slORPHAN) s

/-- Nothing but slot records changes. -/
theorem orphan_slots (s : State) (l : List Nat) : ∃ r, s.orphan l = { s with vault := { s.vault with slots := r } } := by
  induction l generalizing s with
  | nil => exact ⟨s.vault.slots, rfl⟩
  | cons i l ih => exact ih (s.slotGone i slORPHAN)

theorem slot_orphan_of_notMem (s : State) (l : List Nat) (j : Nat) (h : j ∉ l) : (s.orphan l).slot j = s.slot j := by
  induction l generalizing s with
  | nil => rfl
  | cons i l ih =>
    obtain ⟨other, rest⟩ := not_or.mp (List.mem_cons.not.mp h)
    exact (ih (s.slotGone i slORPHAN) rest).trans (s.slot_setSlot_ne i j _ other)

theorem slot_orphan_of_mem (s : State) (l : List Nat) (j : Nat) (h : j ∈ l) :
    ((s.orphan l).slot j).state = slORPHAN ∧ ((s.orphan l).slot j).tag = none := by
  induction l generalizing s with
  | nil => exact absurd h List.not_mem_nil
  | cons i l ih =>
    by_cases later : j ∈ l
    · exact ih (s.slotGone i slORPHAN) later
    · obtain rfl := (List.mem_cons.mp h).resolve_right later
      have last : (s.orphan (j :: l)).slot j = (s.slotGone j slORPHAN).slot j := (s.slotGone j slORPHAN).slot_orphan_of_notMem l j later
      rw [last, slotGone, slot_setSlot_same]
      exact ⟨rfl, rfl⟩

/-- Slot `i` takes state `st`, the slots of the list become ORPHAN, and all of them leave the cache and the engines. -/
def withdrawWith (s : State) (i : Nat) (ds : List Nat) (st reason : Nat) : State :=
  (((s.slotGone i st).orphan ds).cachePurge (i :: ds)).revokeOps (fun j => j = i || ds.contains j) reason

theorem withdraw_eq (s : State) (i st reason : Nat) : s.withdraw i st reason = s.withdrawWith i (s.descendants 8 [i]) st reason := rfl

end State

/-- Slot `i` has been withdrawn with state `st`, and the slots of the list, its descendants, with it (R190, R196). -/
structure Withdrawn (i : Nat) (ds : List Nat) (st : Nat) (s t : State) : Prop extends OnlyFields dkrFields s t where
  time : t.time = s.time
  tagKey : t.vault.tagKey = s.vault.tagKey
  own : i ∉ ds → t.slot i = { s.slot i with state := st, gen := ((s.slot i).gen + 1) % 256, tag := none }
  orphans : ∀ j ∈ ds, (t.slot j).state = slORPHAN ∧ (t.slot j).tag = none
  others : ∀ j, j ≠ i → j ∉ ds → t.slot j = s.slot j
  cache : ∀ e ∈ t.vault.cache, e.slot ≠ i ∧ e.slot ∉ ds

theorem State.withdrawWith_withdrawn (s : State) (i : Nat) (ds : List Nat) (st reason : Nat) :
    Withdrawn i ds st s (s.withdrawWith i ds st reason) := by
  unfold State.withdrawWith
  generalize hu : ((s.slotGone i st).orphan ds).cachePurge (i :: ds) = u
  have marked := u.revokeOps_keysMarked (fun j => j = i || ds.contains j) reason
  have slot (j : Nat) : u.slot j = ((s.slotGone i st).orphan ds).slot j := hu ▸ rfl
  have outside : OnlyFields dkrFields s u ∧ u.time = s.time ∧ u.vault.tagKey = s.vault.tagKey := by
    obtain ⟨r, same⟩ := (s.slotGone i st).orphan_slots ds
    rw [← hu, same]
    exact ⟨(OnlyFields.refl _ s).outside, rfl, rfl⟩
  obtain ⟨only, time, tagKey⟩ := outside
  refine ⟨only.trans marked.toOnlyFields, marked.time.trans time, (congrArg VaultSt.tagKey marked.vault).trans tagKey, fun alone => ?_,
    fun j hj => ?_, fun j other apart => ?_, fun e he => ?_⟩
  · rw [State.slot_of_vault marked.vault, slot, State.slot_orphan_of_notMem _ ds i alone, State.slotGone, State.slot_setSlot_same]
  · rw [State.slot_of_vault marked.vault, slot]
    exact State.slot_orphan_of_mem _ ds j hj
  · rw [State.slot_of_vault marked.vault, slot, State.slot_orphan_of_notMem _ ds j apart, State.slotGone, State.slot_setSlot_ne _ _ _ _ other]
  · rw [marked.vault, ← hu] at he
    have kept := (List.mem_filter.mp he).2
    simpa using kept

theorem State.withdraw_withdrawn (s : State) (i st reason : Nat) : Withdrawn i (s.descendants 8 [i]) st s (s.withdraw i st reason) :=
  s.withdrawWith_withdrawn i _ st reason

/-- Once it has been written anew, the tag of a withdrawn slot checks. -/
theorem Withdrawn.slotTagOk {i st j : Nat} {ds : List Nat} {s t : State} (h : Withdrawn i ds st s t) (ok : j ≠ i → s.slotTagOk j = true) :
    t.slotTagOk j = true := by
  by_cases descends : j ∈ ds
  · exact t.slotTagOk_of_tag_none j (h.orphans j descends).2
  · by_cases own : j = i
    · subst own
      exact t.slotTagOk_of_tag_none j (congrArg Slot.tag (h.own descends))
    · exact (State.slotTagOk_congr (h.others j own descends) h.tagKey).trans (ok own)

end Sys2Proof.Machine
end

section
/-! SUPPORT. The scrubber: a disturbed record, and the one slot whose tag does not check (R195, R196). -/

namespace Sys2Proof.Machine

namespace State

/-- The descendants of a slot are a matter of the states and the parents of the slots (R190). -/
theorem descendants_congr {s t : State} (h : ∀ j, (t.slot j).state = (s.slot j).state ∧ (t.slot j).parent = (s.slot j).parent) (n : Nat)
    (l : List Nat) : t.descendants n l = s.descendants n l := by
  induction n generalizing l with
  | zero => rfl
  | succ n ih => simp only [descendants, (h _).1, (h _).2, ih]

theorem slot_slotDisturb_ne (s : State) (i j : Nat) (h : j ≠ i) : (s.slotDisturb i).slot j = s.slot j := Tbl.get_put_ne _ _ _ _ _ h

theorem slot_slotDisturb_same (s : State) (i : Nat) :
    (s.slotDisturb i).slot i = { s.slot i with tag := some (~~~ slotTag s.vault.tagKey i (s.slot i)) } := Tbl.get_put_same _ _ _ _

theorem descendants_slotDisturb (s : State) (i n : Nat) (l : List Nat) : (s.slotDisturb i).descendants n l = s.descendants n l := by
  refine descendants_congr (fun j => ?_) n l
  by_cases own : j = i
  · rw [own, slot_slotDisturb_same]
    exact ⟨rfl, rfl⟩
  · rw [s.slot_slotDisturb_ne i j own]
    exact ⟨rfl, rfl⟩

/-- The tag of a disturbed record does not check: it is the complement of the one that would. -/
theorem slotTagOk_slotDisturb_same (s : State) (i : Nat) : (s.slotDisturb i).slotTagOk i = false := by
  have stands : slotTag (s.slotDisturb i).vault.tagKey i ((s.slotDisturb i).slot i) = slotTag s.vault.tagKey i (s.slot i) := by
    rw [slot_slotDisturb_same]; rfl
  unfold slotTagOk
  rw [stands, slot_slotDisturb_same]
  simp

theorem slotTagOk_slotDisturb_ne (s : State) (i j : Nat) (h : j ≠ i) : (s.slotDisturb i).slotTagOk j = s.slotTagOk j :=
  slotTagOk_congr (s.slot_slotDisturb_ne i j h) rfl

/-- A tag failure does no more to the vault than the withdrawal. -/
theorem slotFails_vault (s : State) (i : Nat) : (s.slotFails i).vault = (s.withdraw i slBAD kvSLOT_BAD).vault := by
  unfold slotFails
  generalize s.withdraw i slBAD kvSLOT_BAD = u
  rfl

/-- A round over slots whose tags check changes nothing. -/
theorem foldl_scrubOne_of_ok (s : State) (l : List Nat) (ok : ∀ j ∈ l, s.slotTagOk j = true) : l.foldl scrubOne s = s := by
  induction l with
  | nil => rfl
  | cons j l ih =>
    rw [List.foldl_cons, scrubOne, if_pos (ok j List.mem_cons_self)]
    exact ih fun k hk => ok k (List.mem_cons_of_mem j hk)

/-- A round over slots of which one fails its check withdraws that one. -/
theorem foldl_scrubOne_of_bad (s : State) (i : Nat) (l : List Nat) (bad : s.slotTagOk i = false) (hi : i ∈ l)
    (before : ∀ j ∈ l, j ≠ i → s.slotTagOk j = true) (after : ∀ j ∈ l, (s.slotFails i).slotTagOk j = true) :
    l.foldl scrubOne s = s.slotFails i := by
  induction l with
  | nil => exact absurd hi List.not_mem_nil
  | cons j l ih =>
    rw [List.foldl_cons, scrubOne]
    by_cases own : j = i
    · rw [own, if_neg (by simp [bad])]
      exact (s.slotFails i).foldl_scrubOne_of_ok l fun k hk => after k (List.mem_cons_of_mem j hk)
    · rw [if_pos (before j List.mem_cons_self own)]
      exact ih ((List.mem_cons.mp hi).resolve_left (Ne.symm own)) (fun k hk => before k (List.mem_cons_of_mem j hk))
        fun k hk => after k (List.mem_cons_of_mem j hk)

/-- A round after a disturbance of slot `i` finds that slot, and no other. -/
theorem scrub_one (s : State) (i : Nat) (hi : i < 512) (ok : ∀ j, j < 512 → s.slotTagOk j = true) :
    scrub [i] s = ((s.slotDisturb i).slotFails i).settle := by
  have others (j : Nat) (hj : j < 512) (other : j ≠ i) : (s.slotDisturb i).slotTagOk j = true :=
    (s.slotTagOk_slotDisturb_ne i j other).trans (ok j hj)
  have round := (s.slotDisturb i).foldl_scrubOne_of_bad i (List.range 512) (s.slotTagOk_slotDisturb_same i) (List.mem_range.mpr hi)
    (fun j hj => others j (List.mem_range.mp hj))
    fun j hj => (slotTagOk_of_vault ((s.slotDisturb i).slotFails_vault i) j).trans
      (((s.slotDisturb i).withdraw_withdrawn i slBAD kvSLOT_BAD).slotTagOk (others j (List.mem_range.mp hj)))
  simp only [scrub, List.foldl_cons, List.foldl_nil, if_pos hi, round]

theorem scrub_nil (s : State) (ok : ∀ j, j < 512 → s.slotTagOk j = true) : scrub [] s = s.settle :=
  congrArg settle (s.foldl_scrubOne_of_ok (List.range 512) fun j hj => ok j (List.mem_range.mp hj))

end State

/-- The tag of slot `i` has failed its check (R196): the slot is BAD, its descendants are ORPHAN, and event, count and log show it. -/
structure SlotFailed (i : Nat) (s u : State) : Prop where
  own : i ∉ s.descendants 8 [i] → (u.slot i).state = slBAD
  orphans : ∀ j ∈ s.descendants 8 [i], (u.slot j).state = slORPHAN
  others : ∀ j, j ≠ i → j ∉ s.descendants 8 [i] → u.slot j = s.slot j
  event : u.raised pgKVT 9 = true
  count : u.rd Reg.KVT.BAD_COUNT = min (s.rd Reg.KVT.BAD_COUNT + 1) (2 ^ Reg.KVT.BAD_COUNT.width - 1)
  logged : ∃ e ∈ u.nvm.secLog, e.kind = .slotBad ∧ e.mrt = s.time.mrt
  cfg : sameCfg s u
  otp : u.otp = s.otp

theorem State.slotFails_failed (s : State) (i : Nat) : SlotFailed i s (s.slotFails i) := by
  have gone := s.withdraw_withdrawn i slBAD kvSLOT_BAD
  have slot := State.slot_of_vault (s.slotFails_vault i)
  unfold State.slotFails at slot ⊢
  generalize s.withdraw i slBAD kvSLOT_BAD = u at gone slot ⊢
  generalize hv : (u.raise pgKVT 9).bump Reg.KVT.BAD_COUNT = v at slot ⊢
  have framed : Framed s v := hv ▸ gone.toFramed.wr.wr
  have time : v.time = s.time := hv ▸ gone.time
  have regs := v.secLog_regs .slotBad kvSLOT_BAD 0
  have otp : (v.secLog .slotBad kvSLOT_BAD 0).otp = v.otp := by
    obtain ⟨l, entered⟩ := v.secLog_nvm .slotBad kvSLOT_BAD 0
    rw [entered]
  obtain ⟨e, he, kind, mrt⟩ := v.secLog_logged .slotBad kvSLOT_BAD 0
  refine ⟨fun alone => ?_, fun j hj => ?_, fun j other apart => (slot j).trans (gone.others j other apart), ?_, ?_,
    ⟨e, he, kind, mrt.trans (congrArg TimeSt.mrt time)⟩, sameCfg_trans framed.cfg (sameCfg_of_regs regs), otp.trans framed.stores.otp⟩
  · rw [slot, gone.own alone]
  · rw [slot, (gone.orphans j hj).1]
  · rw [State.raised, State.flag, State.rd_of_regs regs, ← hv]
    exact (State.flag_wr_apart _ Reg.KVT.BAD_COUNT (Hdr.EVENT pgKVT 9) _ rfl).trans (State.flag_wr_one _ _ rfl)
  · rw [State.rd_of_regs regs, ← hv, State.rd_bump_same, State.raise_eq, State.rd_wr_apart _ _ _ _ rfl, gone.toOnlyFields.rd_apart _ rfl]

/-- The disturbance of a record shows in nothing but its tag. -/
theorem SlotFailed.of_disturbed {s u : State} {i : Nat} (h : SlotFailed i (s.slotDisturb i) u) : SlotFailed i s u := by
  obtain ⟨own, orphans, others, event, count, logged, cfg, otp⟩ := h
  rw [s.descendants_slotDisturb i] at own orphans others
  exact ⟨own, orphans, fun j other apart => (others j other apart).trans (s.slot_slotDisturb_ne i j other), event, count, logged,
    cfg.of_regs, otp⟩

end Sys2Proof.Machine
end

section
/-! SUPPORT. Fresh masks for the cache and the root register (R176, R193). -/

namespace Sys2Proof.Machine

@[simp] theorem Masked.value_under (v mask : BitVec 384) : (Masked.under v mask).value = v := by
  rw [Masked.value, Masked.under, BitVec.xor_assoc, BitVec.xor_self, BitVec.xor_zero]

/-- `n` bytes have been drawn from the free source; the vault is as it was. -/
structure Redrawn (n : Nat) (s t : State) : Prop extends OnlyFields [Reg.RNG.RESEED_COUNT] s t where
  free : t.free = s.free + n
  vault : t.vault = s.vault

theorem Redrawn.refl (s : State) : Redrawn 0 s s := ⟨OnlyFields.refl _ s, rfl, rfl⟩

theorem Redrawn.trans {s t u : State} {m n : Nat} (h : Redrawn m s t) (k : Redrawn n t u) : Redrawn (m + n) s u :=
  ⟨h.toOnlyFields.trans k.toOnlyFields, by rw [k.free, h.free, Nat.add_assoc], k.vault.trans h.vault⟩

theorem State.draw_redrawn (s : State) (n : Nat) : Redrawn n s (s.draw n).1 := by
  have quiet := (Quiet.refl s).draw (n := n)
  refine ⟨⟨⟨quiet.cfg, quiet.stores⟩, s.draw_fields n⟩, (s.draw_free n).1, ?_⟩
  unfold State.draw
  dsimp only
  split <;> rfl

/-- What of a cache entry a fresh mask leaves: all but the mask. -/
def CacheEntry.content (e : CacheEntry) : Nat × Nat × Bool × BitVec 384 := (e.slot, e.entry, e.pinned, e.val.value)

namespace State

/-- One entry receives a fresh mask. -/
def remaskEntry (st : State × List CacheEntry) (e : CacheEntry) : State × List CacheEntry :=
  ((st.1.remask e.val).1, st.2 ++ [{ e with val := (st.1.remask e.val).2 }])

theorem foldl_remaskEntry (l : List CacheEntry) (st : State × List CacheEntry) :
    Redrawn (48 * l.length) st.1 (l.foldl remaskEntry st).1
    ∧ (l.foldl remaskEntry st).2.map CacheEntry.content = st.2.map CacheEntry.content ++ l.map CacheEntry.content := by
  induction l generalizing st with
  | nil => exact ⟨Redrawn.refl _, by simp⟩
  | cons e l ih =>
    obtain ⟨drawn, contents⟩ := ih (remaskEntry st e)
    refine ⟨?_, ?_⟩
    · rw [List.length_cons, Nat.mul_succ, Nat.add_comm]
      exact (st.1.draw_redrawn 48).trans drawn
    · rw [List.foldl_cons, contents]
      simp [remaskEntry, remask, CacheEntry.content]

/-- Each cache entry has received a fresh mask. -/
def cacheRemasked (s : State) : State :=
  let r := s.vault.cache.foldl remaskEntry (s, [])
  { r.1 with vault := { r.1.vault with cache := r.2 } }

end State

/-- Fresh masks have been drawn, 48 bytes for each value that the vault holds; values and slots are as they were. -/
structure Refreshed (n : Nat) (s t : State) : Prop extends OnlyFields [Reg.RNG.RESEED_COUNT] s t where
  free : t.free = s.free + 48 * n
  cache : t.vault.cache.map CacheEntry.content = s.vault.cache.map CacheEntry.content
  slots : t.vault.slots = s.vault.slots
  root : t.vault.root.map Masked.value = s.vault.root.map Masked.value

namespace State

theorem cacheRemasked_refreshed (s : State) :
    Refreshed s.vault.cache.length s s.cacheRemasked ∧ s.cacheRemasked.vault.root = s.vault.root := by
  obtain ⟨drawn, contents⟩ := foldl_remaskEntry s.vault.cache (s, [])
  have root := congrArg VaultSt.root drawn.vault
  have slots := congrArg VaultSt.slots drawn.vault
  exact ⟨⟨drawn.toOnlyFields.outside, drawn.free, contents, slots, congrArg (Option.map Masked.value) root⟩, root⟩

/-- The root register receives a fresh mask. -/
def rootRemasked (s : State) (m : Masked) : State :=
  { (s.remask m).1 with vault := { (s.remask m).1.vault with root := some (s.remask m).2 } }

end State

theorem Refreshed.rootRemasked {n : Nat} {s t : State} {m : Masked} (h : Refreshed n s t) (holds : t.vault.root = some m) :
    Refreshed (n + 1) s (t.rootRemasked m) := by
  have drawn : Redrawn 48 t (t.remask m).1 := t.draw_redrawn 48
  refine ⟨h.toOnlyFields.trans drawn.toOnlyFields.outside, by rw [Nat.mul_succ, ← Nat.add_assoc, ← h.free]; exact drawn.free,
    (congrArg (fun v : VaultSt => v.cache.map CacheEntry.content) drawn.vault).trans h.cache, (congrArg VaultSt.slots drawn.vault).trans h.slots, ?_⟩
  rw [← h.root, holds]
  exact congrArg some (Masked.value_under _ _)

/-- Once the CTR_DRBG serves, a refresh turns on whether there is a root. -/
theorem State.refreshMasks_cases (s : State) (serves : s.rngServes = true) :
    (s.cacheRemasked.vault.root = none ∧ s.refreshMasks = s.cacheRemasked)
    ∨ ∃ m, s.cacheRemasked.vault.root = some m ∧ s.refreshMasks = s.cacheRemasked.rootRemasked m := by
  have state : s.refreshMasks = match s.cacheRemasked.vault.root with
    | some m => s.cacheRemasked.rootRemasked m
    | none => s.cacheRemasked := if_neg (by simp [serves])
  rw [state]
  cases s.cacheRemasked.vault.root with
  | none => exact .inl ⟨rfl, rfl⟩
  | some m => exact .inr ⟨m, rfl, rfl⟩

theorem State.refreshMasks_refreshed (s : State) (serves : s.rngServes = true) :
    Refreshed (s.vault.cache.length + (if s.vault.root.isSome then 1 else 0)) s s.refreshMasks := by
  obtain ⟨cached, sameRoot⟩ := s.cacheRemasked_refreshed
  rw [← sameRoot]
  obtain ⟨empty, state⟩ | ⟨m, held, state⟩ := s.refreshMasks_cases serves
  · rw [empty, state]
    exact cached
  · rw [held, state]
    exact cached.rootRemasked held

end Sys2Proof.Machine
end

section
/-! O36: INVALIDATE, the scrubber, MASK_REFRESH, SAVE, RESTORE and READ_META (R183, R187-R205). -/

namespace Sys2Proof.Machine

/-! INVALIDATE (R187, R190) -/

theorem exec_invalidate_ready (s : State) (a : Nat) (free : s.ready pgKVT 0x44 = true) :
    exec (.invalidate a) s = .next (State.startInvalidate a s) :=
  exec_cmd_ready s (.invalidate a) pgKVT 0x44 (State.startInvalidate a) rfl free nofun nofun

namespace State

theorem startInvalidate_range (s : State) (a : Nat) (h : inSram a 2 = false ∨ 512 ≤ s.sramLe a 2) :
    startInvalidate a s = s.kvtResult (s.sramLe a 2) Reason.FIELD_RANGE := if_pos (by simpa using h)

section
variable (s : State) (a : Nat) (inside : inSram a 2 = true)
include inside

theorem startInvalidate_reserved (h : s.sramLe a 2 = 0) : startInvalidate a s = s.kvtResult 0 kvRESERVED := by
  unfold startInvalidate
  rw [h, if_neg (by simp [inside])]
  rfl

variable (command : 0 < s.sramLe a 2) (range : s.sramLe a 2 < 512)
include command range

/-- A slot that is withdrawn already stays as it is. -/
theorem startInvalidate_withdrawn (h : slINVALID ≤ (s.slot (s.sramLe a 2)).state) : startInvalidate a s = s.kvtResult (s.sramLe a 2) 0 := by
  unfold startInvalidate
  rw [if_neg (by simp [inside, range]), if_neg (by omega)]
  exact if_pos h

theorem startInvalidate_live (h : (s.slot (s.sramLe a 2)).state < slINVALID) :
    startInvalidate a s = (s.withdraw (s.sramLe a 2) slINVALID kvREVOKED).settle.kvtResult (s.sramLe a 2) 0 := by
  unfold startInvalidate
  rw [if_neg (by simp [inside, range]), if_neg (by omega)]
  exact if_neg (Nat.not_le.mpr h)

end

end State

/-! SCRUB and MASK_REFRESH (R193, R195) -/

theorem exec_scrub_up (s : State) (l : List Nat) (up : s.up = true) : exec (.scrub l) s = .next (State.scrub l s) :=
  congrArg Host.Outcome.next (if_pos up)

theorem exec_scrub_down (s : State) (l : List Nat) (down : s.up = false) : exec (.scrub l) s = .next s :=
  congrArg Host.Outcome.next (if_neg (by simp [down]))

theorem exec_maskRefresh_up (s : State) (up : s.up = true) : exec .maskRefresh s = .next s.refreshMasks :=
  congrArg Host.Outcome.next (if_pos up)

theorem exec_maskRefresh_else (s : State) (h : s.up = false ∨ s.rngServes = false) : exec .maskRefresh s = .next s := by
  cases up : s.up with
  | false => exact congrArg Host.Outcome.next (if_neg (by simp [up]))
  | true =>
    have still : s.refreshMasks = s := if_pos (by simpa [up] using h)
    rw [exec_maskRefresh_up s up, still]

/-! SAVE and RESTORE begin (R200, R201, R205) -/

theorem exec_save_ready (s : State) (free : s.ready pgKVT 0x44 = true) : exec .save s = .next (State.startSaveRestore .save s) :=
  exec_cmd_ready s .save pgKVT 0x44 (State.startSaveRestore .save) rfl free nofun nofun

theorem exec_restore_ready (s : State) (free : s.ready pgKVT 0x44 = true) : exec .restore s = .next (State.startSaveRestore .restore s) :=
  exec_cmd_ready s .restore pgKVT 0x44 (State.startSaveRestore .restore) rfl free nofun nofun

/-- SAVE or RESTORE has taken the register and shows BUSY; the persistence area is as it was. -/
def State.kvtBegun (s : State) (i : Instr) : State := (s.cmdStart pgKVT 0x44 i).wr Reg.KVT.STATUS_BUSY 1

/-- The vault is BUSY with a command that runs. -/
structure KvtBegun (i : Instr) (s t : State) : Prop extends OnlyFields [Reg.KVT.STATUS_BUSY] s t where
  runs : (t.cmdSlot pgKVT 0x44).running = some i
  busy : t.flag Reg.KVT.STATUS_BUSY = true

theorem State.kvtBegun_begun (s : State) (i : Instr) : KvtBegun i s (s.kvtBegun i) :=
  ⟨(OnlyFields.refl _ s).setCmdSlot.wr, congrArg CmdSlot.running (s.cmdSlot_setCmdSlot_same pgKVT 0x44 _), State.flag_wr_one _ _ rfl⟩

theorem KvtBegun.brace {i : Instr} {s t : State} (h : KvtBegun i s t) : t.brace = s.brace :=
  congrArg (fun n => decide (n = 1)) (h.fields Reg.PWR.STATUS_BRACE (by decide))

theorem State.startSave_awake (s : State) (awake : s.brace = false) :
    State.startSaveRestore .save s = { s.kvtBegun .save with nvm := { s.nvm with persist := none } } := by
  have brace : (s.kvtBegun .save).brace = false := ((s.kvtBegun_begun .save).brace).trans awake
  exact if_neg (by rw [← Bool.not_eq_true] at brace; exact brace)

theorem State.startSave_brace (s : State) (h : s.brace = true) :
    State.startSaveRestore .save s = (s.kvtBegun .save).wr Reg.KVT.PERSIST_STATUS_DEFERRED 1 :=
  if_pos (((s.kvtBegun_begun .save).brace).trans h)

/-! SAVE and RESTORE end (R200, R201, R205) -/

namespace State

theorem kvtFinish_idle (s : State) (h : (s.cmdSlot pgKVT 0x44).running = none) : s.kvtFinish = s := by
  unfold kvtFinish
  rw [h]

theorem kvtFinish_save_brace (s : State) (runs : (s.cmdSlot pgKVT 0x44).running = some .save) (brace : s.flag Reg.PWR.STATUS_BRACE = true) :
    s.kvtFinish = s.wr Reg.KVT.PERSIST_STATUS_DEFERRED 1 := by
  unfold kvtFinish
  rw [runs]
  exact if_pos brace

/-- The persistence area as SAVE writes it (R200). -/
def savedNvm (s : State) : Nvm := { s.nvm with persist := some ⟨s.persistRecords, s.persistMac s.persistRecords⟩ }

/-- PERSIST_STATUS once SAVE has written the area. -/
def saveShown (s : State) : State :=
  ((({ s with nvm := s.savedNvm } : State).wr Reg.KVT.PERSIST_STATUS_DEFERRED 0).wr Reg.KVT.PERSIST_STATUS_VALID 1).wr
    Reg.KVT.PERSIST_STATUS_RECORDS s.persistRecords.length

theorem kvtFinish_save (s : State) (runs : (s.cmdSlot pgKVT 0x44).running = some .save) (awake : s.flag Reg.PWR.STATUS_BRACE = false)
    (root : s.vault.root ≠ none) : s.kvtFinish = s.saveShown.kvtResult 0 0 := by
  unfold kvtFinish
  rw [runs]
  exact (if_neg (by rw [brace, awake]; decide)).trans (if_neg (by simpa using root))

theorem kvtFinish_restore_brace (s : State) (runs : (s.cmdSlot pgKVT 0x44).running = some .restore)
    (brace : s.flag Reg.PWR.STATUS_BRACE = true) : s.kvtFinish = s := by
  unfold kvtFinish
  rw [runs]
  exact if_pos brace

section
variable (s : State) (runs : (s.cmdSlot pgKVT 0x44).running = some .restore) (awake : s.flag Reg.PWR.STATUS_BRACE = false)
  (root : s.vault.root ≠ none)
include runs awake root

theorem kvtFinish_restore_absent (absent : s.nvm.persist = none) :
    s.kvtFinish = (s.wr Reg.KVT.PERSIST_STATUS_VALID 0).kvtResult 0 kvPERSIST_MAC := by
  unfold kvtFinish
  simp only [runs, absent]
  exact (if_neg (by rw [brace, awake]; decide)).trans (if_neg (by simpa using root))

/-- A RESTORE of an area whose MAC checks ends as the replay of its records ends (R201). -/
theorem kvtFinish_restore (p : Persist) (area : s.nvm.persist = some p) (mac : p.mac = s.persistMac p.records) (u : State)
    (shown : u = (s.wr Reg.KVT.PERSIST_STATUS_VALID 1).wr Reg.KVT.PERSIST_STATUS_RECORDS p.records.length) :
    s.kvtFinish = (u.replay p.records).1.kvtResult (u.replay p.records).2.1 (u.replay p.records).2.2 := by
  unfold kvtFinish
  simp only [runs, area]
  subst shown
  exact ((if_neg (by rw [brace, awake]; decide)).trans (if_neg (by simpa using root))).trans (if_neg (not_not.mpr mac))

end

/-! READ_META (R183) -/

theorem startReadMeta_fits (s : State) (a : Nat) (inside : inSram a 12 = true) (count : s.sramLe (a + 2) 2 ≠ 0)
    (range : s.sramLe a 2 + s.sramLe (a + 2) 2 ≤ 512) (room : inSram (s.sramLe (a + 8) 4) (16 * s.sramLe (a + 2) 2) = true) :
    startReadMeta a s = (s.sramStore (s.sramLe (a + 8) 4)
      ((List.range (s.sramLe (a + 2) 2)).flatMap (fun k => s.metaBytes (s.sramLe a 2 + k)))).kvtResult (s.sramLe a 2) 0 :=
  if_neg (by simp [inside, count, room]; omega)

end State

theorem exec_readMeta_ready (s : State) (a : Nat) (free : s.ready pgKVT 0x44 = true) : exec (.readMeta a) s = .next (State.startReadMeta a s) :=
  exec_cmd_ready s (.readMeta a) pgKVT 0x44 (State.startReadMeta a) rfl free nofun nofun

/-- Settles O36: withdrawal by `withdraw_withdrawn`, the scrubber by the one slot that it finds, fresh masks by `refreshMasks_refreshed`,
and the start and the end of the commands of persistence. -/
theorem vaultWithdraw : Obligations.VaultWithdraw := by
  refine ⟨fun s a free inside => ⟨fun zero => ?_, fun beyond => ?_, fun command range gone => ?_, fun command range live => ?_⟩,
    fun s a free outside => ?_, fun s i st reason => ?_, fun s i up hi ok => ?_, fun s up ok => ?_, fun s l down => exec_scrub_down s l down,
    fun s up serves => ?_, fun s h => exec_maskRefresh_else s h, fun s free => ⟨fun awake => ?_, fun brace => ?_, ?_⟩,
    fun s runs awake root => ?_, fun s runs brace => congrArg Host.Outcome.next (s.kvtFinish_save_brace runs brace),
    fun s idle => congrArg Host.Outcome.next (s.kvtFinish_idle idle), fun s p runs awake root area mac => ?_,
    fun s runs brace => congrArg Host.Outcome.next (s.kvtFinish_restore_brace runs brace), fun s runs awake root absent => ?_,
    fun s a free inside count range room => ?_⟩
  · exact (exec_invalidate_ready s a free).trans (congrArg Host.Outcome.next (s.startInvalidate_reserved a inside zero))
  · exact (exec_invalidate_ready s a free).trans (congrArg Host.Outcome.next (s.startInvalidate_range a (.inr beyond)))
  · exact (exec_invalidate_ready s a free).trans (congrArg Host.Outcome.next (s.startInvalidate_withdrawn a inside command range gone))
  · exact (exec_invalidate_ready s a free).trans (congrArg Host.Outcome.next (s.startInvalidate_live a inside command range live))
  · exact (exec_invalidate_ready s a free).trans (congrArg Host.Outcome.next (s.startInvalidate_range a (.inl outside)))
  · have gone := s.withdraw_withdrawn i st reason
    exact ⟨fun alone => ⟨congrArg Slot.state (gone.own alone), congrArg Slot.gen (gone.own alone)⟩, fun j hj => (gone.orphans j hj).1,
      gone.others, gone.cache, gone.stores⟩
  · have failed := ((s.slotDisturb i).slotFails_failed i).of_disturbed
    exact ⟨_, (exec_scrub_up s [i] up).trans (congrArg Host.Outcome.next (s.scrub_one i hi ok)), failed.own, failed.orphans, failed.others,
      failed.event, failed.count, failed.logged, failed.cfg, failed.otp⟩
  · exact (exec_scrub_up s [] up).trans (congrArg Host.Outcome.next (s.scrub_nil ok))
  · have refreshed := s.refreshMasks_refreshed serves
    exact ⟨_, exec_maskRefresh_up s up, refreshed.cache, refreshed.free, refreshed.slots, refreshed.root, refreshed.fields, refreshed.cfg,
      refreshed.stores⟩
  · have begun := s.kvtBegun_begun .save
    exact ⟨_, (exec_save_ready s free).trans (congrArg Host.Outcome.next (s.startSave_awake awake)), begun.runs, begun.busy, rfl, rfl,
      begun.fields, sameCfg_trans begun.cfg (sameCfg_of_regs rfl)⟩
  · have begun := s.kvtBegun_begun .save
    have deferred : OnlyFields [Reg.KVT.STATUS_BUSY, Reg.KVT.PERSIST_STATUS_DEFERRED] s
      ((s.kvtBegun .save).wr Reg.KVT.PERSIST_STATUS_DEFERRED 1) := begun.toOnlyFields.mono.wr
    exact ⟨_, (exec_save_ready s free).trans (congrArg Host.Outcome.next (s.startSave_brace brace)), begun.runs,
      (State.flag_wr_apart _ _ _ _ rfl).trans begun.busy, State.flag_wr_one _ _ rfl, rfl, rfl, deferred.fields, deferred.cfg⟩
  · have begun := s.kvtBegun_begun .restore
    exact ⟨_, exec_restore_ready s free, begun.runs, begun.busy, rfl, rfl, begun.fields, begun.cfg⟩
  · have ended := s.saveShown.kvtResult_ended 0 0
    have valid : s.saveShown.flag Reg.KVT.PERSIST_STATUS_VALID = true :=
      (State.flag_wr_apart _ _ _ _ rfl).trans (State.flag_wr_one _ _ rfl)
    have shown : Framed { s with nvm := s.savedNvm } s.saveShown := (Framed.refl _).wr.wr.wr
    exact ⟨_, congrArg Host.Outcome.next (s.kvtFinish_save runs awake root), ended.stores.nvm, ended.vault, ended.result,
      (ended.flag_apart _ rfl).trans valid, ended.idle, sameCfg_trans shown.cfg.of_regs ended.cfg⟩
  · exact ⟨_, _, congrArg Host.Outcome.next (s.kvtFinish_restore runs awake root p area mac _ rfl), rfl, rfl⟩
  · have ended := (s.wr Reg.KVT.PERSIST_STATUS_VALID 0).kvtResult_ended 0 kvPERSIST_MAC
    exact ⟨_, congrArg Host.Outcome.next (s.kvtFinish_restore_absent runs awake root absent), ended.result,
      (ended.flag_apart _ rfl).trans (State.flag_wr_zero _ _ rfl), ended.vault, ended.stores.nvm⟩
  · have ended := (s.sramStore (s.sramLe (a + 8) 4)
      ((List.range (s.sramLe (a + 2) 2)).flatMap (fun k => s.metaBytes (s.sramLe a 2 + k)))).kvtResult_ended (s.sramLe a 2) 0
    exact ⟨_, (exec_readMeta_ready s a free).trans (congrArg Host.Outcome.next (s.startReadMeta_fits a inside count range room)),
      ended.stores.sram, ended.vault, ended.result, ended.cfg.of_regs, ended.stores.flash, ended.stores.otp,
      ended.stores.nvm⟩

end Sys2Proof.Machine
end

section
/-! SUPPORT. Registers of a digest engine (R214, R218): fields of different pages, a change of registers alone, and the words of DIGEST. -/

namespace Sys2Proof.Machine

/-- The offset lies in the field's page and the low bit in its word. -/
def Fld.placed (f : Fld) : Bool := decide (f.off < 0x10000) && decide (f.lo < 32)

/-- Fields of different pages are different fields. -/
theorem Fld.keyOf_ne_of_page {f g : Fld} (hf : f.placed = true) (hg : g.placed = true) (h : f.page ≠ g.page) : f.keyOf ≠ g.keyOf := by
  simp only [Fld.placed, Bool.and_eq_true, decide_eq_true_eq] at hf hg
  simp only [Fld.keyOf]
  omega

/-- Only register fields of the list have changed, and nothing outside the registers. -/
structure Shown (l : List Fld) (s t : State) : Prop extends OnlyFields l s t where
  rest : t = { s with regs := t.regs }

namespace Shown

variable {l m : List Fld} {s t u : State}

theorem refl (l : List Fld) (s : State) : Shown l s s := ⟨OnlyFields.refl l s, rfl⟩

theorem wr {f : Fld} {v : Nat} (h : Shown l s t) (hf : f ∈ l := by simp) : Shown l s (t.wr f v) :=
  ⟨h.toOnlyFields.wr hf, congrArg (fun x : State => x.wr f v) h.rest⟩

theorem mono (h : Shown l s t) (hl : l ⊆ m := by simp) : Shown m s t := ⟨h.toOnlyFields.mono hl, h.rest⟩

theorem dgeOf (h : Shown l s t) (m : Nat) : t.dgeOf m = s.dgeOf m := by rw [h.rest]; rfl
theorem vault (h : Shown l s t) : t.vault = s.vault := by rw [h.rest]
theorem slot (h : Shown l s t) (j : Nat) : t.slot j = s.slot j := State.slot_of_vault h.vault j
theorem cmdSlot (h : Shown l s t) (p off : Nat) : t.cmdSlot p off = s.cmdSlot p off := by rw [h.rest]; rfl
theorem snpOf (h : Shown l s t) (u : Nat) : t.snpOf u = s.snpOf u := by rw [h.rest]; rfl

end Shown

/-! The words of DIGEST -/

/-- DIGEST[0-15] of engine `n`. -/
def digestWords (n : Nat) : List Fld := (List.range 16).map (Reg.DGE.DIGEST n)

theorem placed_digest {n i : Nat} (hi : i < 16) : (Reg.DGE.DIGEST n i).placed = true := by
  have inside : 0x50 + 4 * i < 0x10000 := by omega
  exact Bool.and_eq_true_iff.mpr ⟨decide_eq_true inside, rfl⟩

theorem State.foldl_digestWords_shown (s : State) (n : Nat) (v : Nat → Nat) :
    Shown (digestWords n) s ((List.range 16).foldl (fun s i => s.wr (Reg.DGE.DIGEST n i) (v i)) s) :=
  List.foldlRecOn _ _ (Shown.refl _ s) fun _ k _ hi => k.wr (List.mem_map_of_mem hi)

/-- Words that are written in turn each read what was written. -/
theorem State.rd_foldl_digestWords (s : State) (n : Nat) (v : Nat → Nat) {i : Nat} (k : Nat) (hi : i < k) :
    ((List.range k).foldl (fun s i => s.wr (Reg.DGE.DIGEST n i) (v i)) s).rd (Reg.DGE.DIGEST n i) = v i % 2 ^ 32 := by
  induction k with
  | zero => exact absurd hi (Nat.not_lt_zero i)
  | succ k ih =>
    rw [List.range_succ, List.foldl_append, List.foldl_cons, List.foldl_nil]
    rcases Nat.lt_succ_iff_lt_or_eq.mp hi with low | rfl
    · have places : (Reg.DGE.DIGEST n k).keyOf ≠ (Reg.DGE.DIGEST n i).keyOf := by
        simp only [Fld.keyOf, Reg.DGE.DIGEST]
        omega
      exact (State.rd_wr_ne' _ _ _ _ places).trans (ih low)
    · exact State.rd_wr_same _ _ _

/-- DIGEST reads as before where only fields at other places have changed. -/
theorem OnlyFields.digest {l : List Fld} {s t : State} {n : Nat} (h : OnlyFields l s t)
    (hl : (List.range 16).all (fun i => l.all fun f => f.apart (Reg.DGE.DIGEST n i)) = true) {i : Nat} (hi : i < 16) :
    t.rd (Reg.DGE.DIGEST n i) = s.rd (Reg.DGE.DIGEST n i) :=
  h.rd_apart _ (List.all_eq_true.mp hl i (List.mem_range.mpr hi))

/-- DIGEST, MATCH and MATCH_N of engine `n`. -/
def resultFlds (n : Nat) : List Fld := Reg.DGE.MATCH n :: Reg.DGE.MATCH_N n :: digestWords n

/-- DIGEST, MATCH and MATCH_N of engine `n` read 0. -/
structure ResultsZero (n : Nat) (t : State) : Prop where
  digest : ∀ i, i < 16 → t.rd (Reg.DGE.DIGEST n i) = 0
  verdict : t.rd (Reg.DGE.MATCH n) = 0
  verdictN : t.rd (Reg.DGE.MATCH_N n) = 0

theorem ResultsZero.of_only {l : List Fld} {s t : State} {n : Nat} (h : ResultsZero n s) (only : OnlyFields l s t)
    (hd : (List.range 16).all (fun i => l.all fun f => f.apart (Reg.DGE.DIGEST n i)) = true)
    (hv : (l.all (fun f => f.apart (Reg.DGE.MATCH n)) && l.all fun f => f.apart (Reg.DGE.MATCH_N n)) = true) : ResultsZero n t :=
  have ⟨hm, hmn⟩ := Bool.and_eq_true_iff.mp hv
  ⟨fun i hi => (only.digest hd hi).trans (h.digest i hi), (only.rd_apart _ hm).trans h.verdict, (only.rd_apart _ hmn).trans h.verdictN⟩

theorem State.dgeClearResults_shown (s : State) (n : Nat) : Shown (resultFlds n) s (s.dgeClearResults n) :=
  ((s.foldl_digestWords_shown n fun _ => 0).mono (List.subset_cons_of_subset _ (List.subset_cons_self _ _))).wr.wr

theorem State.dgeClearResults_zero (s : State) (n : Nat) : ResultsZero n (s.dgeClearResults n) := by
  have words {i : Nat} (hi : i < 16) := s.rd_foldl_digestWords n (fun _ => 0) 16 hi
  unfold State.dgeClearResults
  dsimp only
  generalize (List.range 16).foldl _ s = u at words
  have verdicts : OnlyFields [Reg.DGE.MATCH n, Reg.DGE.MATCH_N n] u ((u.wr (Reg.DGE.MATCH n) 0).wr (Reg.DGE.MATCH_N n) 0) :=
    (OnlyFields.refl _ u).wr.wr
  exact ⟨fun i hi => (verdicts.digest rfl hi).trans (words hi), (State.rd_wr_apart _ _ _ _ rfl).trans (State.rd_wr_same _ _ _),
    State.rd_wr_same _ _ _⟩

/-- The verdict pair of a compare is written (R218), and MISMATCH raised on a failure (R220). -/
structure Judged (n : Nat) (good : Bool) (s t : State) : Prop
    extends Shown [Reg.DGE.MATCH n, Reg.DGE.MATCH_N n, Hdr.EVENT (pgDGE n) 9] s t where
  verdict : t.rd (Reg.DGE.MATCH n) = if good then matchOK else matchNOK
  verdictN : t.rd (Reg.DGE.MATCH_N n) = if good then matchNOK else matchOK
  mismatch : good = false → t.raised (pgDGE n) 9 = true

theorem State.dgeVerdict_judged (s : State) (n : Nat) (good : Bool) : Judged n good s (s.dgeVerdict n good) := by
  unfold State.dgeVerdict
  cases good with
  | true => exact ⟨(Shown.refl _ s).wr.wr, (State.rd_wr_apart _ _ _ _ rfl).trans (State.rd_wr_same _ _ _), State.rd_wr_same _ _ _, nofun⟩
  | false =>
    exact ⟨(Shown.refl _ s).wr.wr.wr, (State.rd_wr_apart _ _ _ _ rfl).trans ((State.rd_wr_apart _ _ _ _ rfl).trans (State.rd_wr_same _ _ _)),
      (State.rd_wr_apart _ _ _ _ rfl).trans (State.rd_wr_same _ _ _), fun _ => State.flag_wr_one _ _ rfl⟩

end Sys2Proof.Machine
end

section
/-! SUPPORT. Work outside the digest engines, and the channels that go on with a READ that a LEAVES operation held (R222, R225, R352). -/

namespace Sys2Proof.Machine

/-- Work outside the digest engines: no field of a DGE page, no engine and no DGE command register has changed, and every lane-I FIFO is
as it was. -/
structure Aside (s t : State) : Prop extends Framed s t where
  page : ∀ n, n < 4 → ∀ g : Fld, g.page = pgDGE n → g.placed = true → t.rd g = s.rd g
  dge : t.dge = s.dge
  command : ∀ n, n < 4 → t.cmdSlot (pgDGE n) 0x44 = s.cmdSlot (pgDGE n) 0x44
  fifo : ∀ u, (t.snpOf u).fifo = (s.snpOf u).fifo

namespace Aside

variable {s t u : State} {n c : Nat}

theorem refl (s : State) : Aside s s := ⟨Framed.refl s, fun _ _ _ _ _ => rfl, rfl, fun _ _ => rfl, fun _ => rfl⟩

theorem trans (h : Aside s t) (k : Aside t u) : Aside s u :=
  ⟨h.toFramed.trans k.toFramed, fun n hn g hg place => (k.page n hn g hg place).trans (h.page n hn g hg place), k.dge.trans h.dge,
    fun n hn => (k.command n hn).trans (h.command n hn), fun u => (k.fifo u).trans (h.fifo u)⟩

theorem rd (h : Aside s t) (hn : n < 4) (g : Fld) (hg : g.page = pgDGE n := by rfl) (place : g.placed = true := by rfl) : t.rd g = s.rd g :=
  h.page n hn g hg place

theorem flag (h : Aside s t) (hn : n < 4) (g : Fld) (hg : g.page = pgDGE n := by rfl) (place : g.placed = true := by rfl) :
    t.flag g = s.flag g := congrArg (fun v => decide (v = 1)) (h.rd hn g hg place)

theorem dgeOf (h : Aside s t) (m : Nat) : t.dgeOf m = s.dgeOf m := by rw [State.dgeOf, State.dgeOf, h.dge]

/-- A field of a page below or above those of the digest engines is written. -/
theorem wr {f : Fld} {v : Nat} (h : Aside s t) (hf : f.page < 0x20 ∨ 0x24 ≤ f.page := by decide) (place : f.placed = true := by rfl) :
    Aside s (t.wr f v) := by
  refine h.trans ⟨(Framed.refl t).wr, fun n hn g hg hp => t.rd_wr_ne' f g v (Fld.keyOf_ne_of_page place hp ?_), rfl, fun _ _ => rfl, fun _ => rfl⟩
  rw [hg, pgDGE]
  omega

theorem wrChannel {f : Fld} {v : Nat} (h : Aside s t) (hc : c < 6) (hf : f.page = pgFCH c := by rfl) (place : f.placed = true := by rfl) :
    Aside s (t.wr f v) := h.wr (.inl (by rw [hf, pgFCH]; omega)) place

theorem wrPort {f : Fld} {v : Nat} (h : Aside s t) (hc : c < 6) (hf : f.page = pgHFP c := by rfl) (place : f.placed = true := by rfl) :
    Aside s (t.wr f v) := h.wr (.inl (by rw [hf, pgHFP]; omega)) place

theorem ite {a b : State} {p : Prop} {_ : Decidable p} (ha : Aside s a) (hb : Aside s b) : Aside s (if p then a else b) := by
  split <;> assumption

/-- Queues, channels, the vault and the free source are none of what stays. -/
theorem queues {q : Tbl Sched} {k : Tbl Chan} {v : VaultSt} {r : RngSt} {x : Nat} (h : Aside s t) :
    Aside s { t with scheds := q, chans := k, vault := v, rng := r, free := x } :=
  h.trans ⟨⟨⟨rfl, rfl, rfl, rfl, rfl⟩, ⟨rfl, rfl, rfl, rfl, rfl, rfl, rfl⟩⟩, fun _ _ _ _ _ => rfl, rfl, fun _ _ => rfl, fun _ => rfl⟩

/-- A snoop unit changes apart from its FIFO. -/
theorem setSnp {x : SnpSt} (h : Aside s t) (hx : x.fifo = (t.snpOf c).fifo := by rfl) : Aside s (t.setSnp c x) := by
  refine h.trans ⟨⟨⟨rfl, rfl, rfl, rfl, rfl⟩, ⟨rfl, rfl, rfl, rfl, rfl, rfl, rfl⟩⟩, fun _ _ _ _ _ => rfl, rfl, fun _ _ => rfl, fun u => ?_⟩
  simp only [State.snpOf, State.setSnp, Tbl.get_put] at hx ⊢
  split
  · next same => rw [same, hx]
  · rfl

theorem cmdEndChannel (h : Aside s t) : Aside s (t.cmdEnd (pgFCH c) fchCmdOff) := by
  refine h.trans ⟨(Framed.refl t).setCmdSlot, fun _ _ _ _ _ => rfl, rfl, fun n hn => ?_, fun _ => rfl⟩
  refine t.cmdSlot_setCmdSlot_ne _ _ _ _ _ ?_
  simp only [State.cmdKey, pgFCH, pgDGE, fchCmdOff]
  omega

/-! Channels 0 to 5 -/

theorem takePins (h : Aside s t) (hc : c < 6) : Aside s (t.takePins c) := ite ((h.wrChannel hc).wrPort hc) (h.wrChannel hc)

theorem chanRest (h : Aside s t) (hc : c < 6) : Aside s (t.chanRest c) :=
  ite (h.wrChannel hc) (ite (((h.wrChannel hc).wrChannel hc).wrPort hc) ((h.wrChannel hc).wrChannel hc))

theorem pumpCh (h : Aside s t) (hc : c < 6) : Aside s (t.pumpCh c) := by
  unfold State.pumpCh
  dsimp only
  refine ite h ?_
  split
  · split
    · exact ite (h.queues.chanRest hc) (h.queues.queues.wrChannel hc)
    · exact h.queues.chanRest hc
  · exact ite h ((takePins (ite h.queues.wr h.queues) hc).wrChannel hc)

theorem dropReqs {p : Req → Bool} (h : Aside s t) (hc : c < 6) : Aside s (t.dropReqs (State.chanRes c) p) := by
  have channel : (Reg.FCH.STATUS_SUSPENDED (State.chanRes c - 4)).page = pgFCH c := by
    simp only [Reg.FCH.STATUS_SUSPENDED, pgFCH, State.chanRes]
    omega
  unfold State.dropReqs
  dsimp only
  refine ite h.queues ?_
  split
  · exact ite (h.queues.queues.wrChannel hc channel) h.queues
  · exact h.queues

theorem laneEnd (h : Aside s t) (hc : c < 6) : Aside s (t.laneEnd c) := by
  have place : (Reg.SNP.LANE_STATUS_I_BUSY c).placed = true := by
    have inside : 0x6C + 64 * c < 0x10000 := by omega
    exact Bool.and_eq_true_iff.mpr ⟨decide_eq_true inside, rfl⟩
  exact ite h (h.setSnp.wr (.inr (Nat.le_refl 0x24)) place)

theorem fchDone (h : Aside s t) (hc : c < 6) : Aside s (t.fchDone c) := (h.laneEnd hc).cmdEndChannel.wrChannel hc

theorem laneGo (h : Aside s t) : Aside s (t.laneGo c) := by
  unfold State.laneGo
  dsimp only
  split
  · exact h
  · next low =>
    have hc : c < 6 := Nat.not_le.mp low
    exact ite (((h.dropReqs hc).fchDone hc).pumpCh hc) (h.pumpCh hc)

theorem lanesGo (h : Aside s t) : Aside s t.lanesGo := List.foldlRecOn _ _ h fun _ k _ _ => k.laneGo

/-! The vault -/

theorem draw (h : Aside s t) : Aside s (t.draw n).1 :=
  (ite h.wr.queues h : Aside s (if 65536 ≤ t.rng.requests then t.reseed else t)).queues

end Aside
end Sys2Proof.Machine
end

section
/-! SUPPORT. How an operation of a digest engine ends (R191). -/

namespace Sys2Proof.Machine

/-- The fields that show the end of an operation. -/
def endFlds (n : Nat) : List Fld :=
  [Reg.DGE.STATUS_BUSY n, Reg.DGE.STATUS_OPEN n, Reg.DGE.STATUS_SAVED n, Reg.DGE.STATUS_DONE n, Hdr.EVENT (pgDGE n) 8]

/-- The operation of firmware is gone from engine `n`, which a sequencer that holds it keeps; no slot but the key slot has changed. -/
structure EngineFreed (n : Nat) (s t : State) : Prop extends OnlyFields (endFlds n) s t where
  engine : t.dgeOf n = { DgeSt.idle with owner := (s.dgeOf n).owner }
  closed : t.flag (Reg.DGE.STATUS_OPEN n) = false
  busy : t.flag (Reg.DGE.STATUS_BUSY n) = (s.dgeOf n).owner.isSome
  idle : (t.cmdSlot (pgDGE n) 0x44).running = none
  slot : ∀ j, (s.dgeOf n).keySlot ≠ some j → t.slot j = s.slot j

namespace State

variable (s : State) (n : Nat)

theorem dgeOf_setDge_same (x : DgeSt) : (s.setDge n x).dgeOf n = x := Tbl.get_put_same _ _ _ _

theorem dgeOf_setDge_ne (x : DgeSt) (m : Nat) (h : m ≠ n) : (s.setDge n x).dgeOf m = s.dgeOf m := Tbl.get_put_ne _ _ _ _ _ h

/-- A release changes the slot that is released, and nothing outside the vault. -/
theorem slotRelease_vault (o : Option Nat) :
    ∃ v, s.slotRelease o = { s with vault := v } ∧ ∀ j, o ≠ some j → (s.slotRelease o).slot j = s.slot j := by
  unfold slotRelease
  split
  · exact ⟨s.vault, rfl, fun _ _ => rfl⟩
  · next i =>
    dsimp only
    split
    · exact ⟨s.vault, rfl, fun _ _ => rfl⟩
    · exact ⟨_, rfl, fun j other => s.slot_setSlot_ne i j _ fun same => other (congrArg some same.symm)⟩

theorem dgeIdle_freed : EngineFreed n s (s.dgeIdle n) := by
  obtain ⟨v, released, slots⟩ := s.slotRelease_vault (s.dgeOf n).keySlot
  unfold dgeIdle
  dsimp only
  rw [released] at slots ⊢
  simp only [wrb_eq, cmdEnd_eq]
  constructor
  case toOnlyFields =>
    have freed : OnlyFields (endFlds n) s (({ s with vault := v } : State).setDge n { DgeSt.idle with owner := (s.dgeOf n).owner }) :=
      (OnlyFields.refl _ s).outside
    exact (freed.wr (hf := by simp [endFlds]) |>.wr (hf := by simp [endFlds]) |>.wr (hf := by simp [endFlds])).setCmdSlot
  case engine => exact dgeOf_setDge_same { s with vault := v } n _
  case closed => exact (flag_wr_apart _ _ _ _ rfl).trans (flag_wr_zero _ _ rfl)
  case busy => exact (flag_wr_apart _ _ _ _ rfl).trans ((flag_wr_apart _ _ _ _ rfl).trans (flag_wr_bit _ _ _ rfl))
  case idle => exact congrArg CmdSlot.running (cmdSlot_setCmdSlot_same _ _ _ _)
  case slot => exact slots

/-- An operation ends: the engine is free, and DONE and its event say so. -/
def dgeEnded : State := ((s.dgeIdle n).wr (Reg.DGE.STATUS_DONE n) 1).raise (pgDGE n) 8

end State

/-- An operation has ended with DONE. -/
structure OpEnded (n : Nat) (s t : State) : Prop extends EngineFreed n s t where
  done : t.flag (Reg.DGE.STATUS_DONE n) = true
  event : t.raised (pgDGE n) 8 = true

theorem State.dgeEnded_ended (s : State) (n : Nat) : OpEnded n s (s.dgeEnded n) := by
  have freed := s.dgeIdle_freed n
  unfold State.dgeEnded
  generalize s.dgeIdle n = u at freed ⊢
  have shown : OnlyFields [Reg.DGE.STATUS_DONE n, Hdr.EVENT (pgDGE n) 8] u ((u.wr (Reg.DGE.STATUS_DONE n) 1).raise (pgDGE n) 8) :=
    (OnlyFields.refl _ u).wr.wr
  exact {
    toOnlyFields := freed.toOnlyFields.trans (shown.mono (by simp [endFlds]))
    engine := freed.engine
    closed := (shown.flag_apart _ rfl).trans freed.closed
    busy := (shown.flag_apart _ rfl).trans freed.busy
    idle := freed.idle
    slot := freed.slot
    done := (State.flag_wr_apart _ _ _ _ rfl).trans (State.flag_wr_one _ _ rfl)
    event := State.flag_wr_one _ _ rfl }

end Sys2Proof.Machine
end

section
/-! O37: RUN, DGE_DONE and ABORT (R72, R191, R209-R218). -/

namespace Sys2Proof.Machine

/-! RUN (R209-R211) -/

theorem exec_dgeRun_ready (s : State) (n : Fin 4) (a : Nat) (free : s.ready (pgDGE n) 0x44 = true) :
    exec (.dgeRun n a) s = .next (State.startDgeRun n a s) :=
  exec_cmd_ready s (.dgeRun n a) (pgDGE n) 0x44 (State.startDgeRun n a) rfl free nofun nofun

namespace State

variable (s : State) (n : Fin 4) (a : Nat)

theorem startDgeRun_held (h : Nat) (held : (s.dgeOf n).owner = some h) :
    startDgeRun n a s = s.setCmdSlot (pgDGE n) 0x44 { s.cmdSlot (pgDGE n) 0x44 with queued := some (.dgeRun n a) } :=
  if_pos (by rw [held]; rfl)

section

variable (free : (s.dgeOf n).owner = none)
include free

theorem startDgeRun_refused (c : Nat) (fault : s.dgeDescFault n a = some c) : startDgeRun n a s = s.dgeRefuse n c := by
  simp only [startDgeRun, free, fault, Option.isSome_none, Bool.false_eq_true, if_false]

variable (fit : s.dgeDescFault n a = none) (shown : (s.dgeDescAt a).dest ≠ 1)
include fit shown

theorem startDgeRun_later (later : (s.dgeDescAt a).first = false) (use : dgeUseOk (s.dgeOf n).keyAttr (s.dgeDescAt a) = true) :
    startDgeRun n a s = s.dgeBegin n (.dgeRun n a) (s.dgeDescAt a) [] none none := by
  have dest (x k p : Nat) : s.destFault (s.dgeDescAt a) x k p = none := if_pos shown
  simp only [startDgeRun, free, fit, later, use, dest, Option.isSome_none, Bool.not_true, Bool.not_false, Bool.false_eq_true, if_false, if_true]

/-- A first part whose key is no slot's. -/
theorem startDgeRun_first (first : (s.dgeDescAt a).first = true) (outside : (s.dgeDescAt a).keySource ≠ 1) (k : List Byte) (at' sl : Option Nat)
    (key : s.dgeKey (s.dgeDescAt a) = (s, .ok (k, at', sl))) (use : dgeUseOk at' (s.dgeDescAt a) = true) :
    startDgeRun n a s = s.dgeBegin n (.dgeRun n a) (s.dgeDescAt a) k at' sl := by
  have dest (x k p : Nat) : s.destFault (s.dgeDescAt a) x k p = none := if_pos shown
  simp only [startDgeRun, free, fit, first, key, use, dest, Option.isSome_none, Bool.not_true, Bool.false_eq_true, if_false]
  exact if_pos outside

end

/-- A descriptor without HMAC names no key source. -/
theorem keySource_of_fit (m : Nat) (fit : s.dgeDescFault m a = none) (hash : (s.dgeDescAt a).hmac = false) : (s.dgeDescAt a).keySource = 0 := by
  by_contra named
  unfold dgeDescFault at fit
  dsimp only at fit
  split at fit
  · cases fit
  · rw [if_pos (by simp [hash, named])] at fit
    cases fit

theorem dgeKey_hash (d : DgeDesc) (hash : d.hmac = false) : s.dgeKey d = (s, .ok ([], none, none)) := if_pos (by rw [hash]; rfl)

theorem dgeKey_dkr (d : DgeDesc) (hmac : d.hmac = true) (outside : d.keySource ≠ 1) (loaded : (s.aesOf (d.keySource - 2)).dkr.loaded = true) :
    s.dgeKey d = (s, .ok ((s.aesOf (d.keySource - 2)).dkr.key, some (s.aesOf (d.keySource - 2)).dkr.keyAttr,
      (s.aesOf (d.keySource - 2)).dkr.source)) := by
  have loaded' : (Tbl.get AesSt.idle s.aes (d.keySource - 2)).dkr.loaded = true := loaded
  simp only [dgeKey, hmac, outside, loaded', Bool.not_true, Bool.false_eq_true, if_false]
  rfl

end State

/-- The fields that the begin of a part writes, OPEN and the count apart. -/
def beginFlds (n : Nat) : List Fld := Reg.DGE.STATUS_BUSY n :: Reg.DGE.STATUS_DONE n :: resultFlds n

/-- A part has begun on engine `n`, which holds `x`: its results are zero, BUSY is 1 and DONE 0; no other engine has changed. -/
structure PartBegun (n : Nat) (x : DgeSt) (s t : State) : Prop extends OnlyFields (beginFlds n) s t, ResultsZero n t where
  engine : t.dgeOf n = x
  others : ∀ m, m ≠ n → t.dgeOf m = s.dgeOf m
  busy : t.flag (Reg.DGE.STATUS_BUSY n) = true
  notDone : t.flag (Reg.DGE.STATUS_DONE n) = false
  vault : t.vault = s.vault

namespace State

/-- A part has begun on engine `n`, OPEN and the command apart. -/
def partBegun (s : State) (n : Nat) (x : DgeSt) : State :=
  (((s.setDge n x).dgeClearResults n).wr (Reg.DGE.STATUS_BUSY n) 1).wr (Reg.DGE.STATUS_DONE n) 0

/-- The results have been cleared in `u`. -/
theorem partBegun_of_cleared {s u : State} {n : Nat} {x : DgeSt} (cleared : Shown (resultFlds n) (s.setDge n x) u) (zero : ResultsZero n u) :
    PartBegun n x s ((u.wr (Reg.DGE.STATUS_BUSY n) 1).wr (Reg.DGE.STATUS_DONE n) 0) := by
  have held : OnlyFields (resultFlds n) s (s.setDge n x) := (OnlyFields.refl _ s).outside
  have shown : OnlyFields [Reg.DGE.STATUS_BUSY n, Reg.DGE.STATUS_DONE n] u ((u.wr (Reg.DGE.STATUS_BUSY n) 1).wr (Reg.DGE.STATUS_DONE n) 0) :=
    (OnlyFields.refl _ u).wr.wr
  exact {
    toOnlyFields := ((held.trans cleared.toOnlyFields).mono (by simp [beginFlds])).trans (shown.mono (by simp [beginFlds]))
    toResultsZero := zero.of_only shown rfl rfl
    engine := (cleared.dgeOf n).trans (s.dgeOf_setDge_same n x)
    others := fun m other => (cleared.dgeOf m).trans (s.dgeOf_setDge_ne n x m other)
    busy := (flag_wr_apart _ _ _ _ rfl).trans (flag_wr_one _ _ rfl)
    notDone := flag_wr_zero _ _ rfl
    vault := cleared.vault }

theorem partBegun_begun (s : State) (n : Nat) (x : DgeSt) : PartBegun n x s (s.partBegun n x) :=
  partBegun_of_cleared ((s.setDge n x).dgeClearResults_shown n) ((s.setDge n x).dgeClearResults_zero n)

/-- What engine `n` holds once it has begun the first part of descriptor `d` under a key, with its key kind and its slot. -/
def firstPart (s : State) (d : DgeDesc) (k : List Byte) (a sl : Option Nat) : DgeSt :=
  { DgeSt.idle with
    alg := d.alg, hmac := d.hmac, key := k, keyFrom := d.keySource, keyAttr := a, keySlot := sl, msg := s.ramBytes d.src d.len, run := some d }

/-- The count reads 0. -/
def uncounted (s : State) (n : Nat) : State := (s.wr (Reg.DGE.BYTE_COUNT_LO n) 0).wr (Reg.DGE.BYTE_COUNT_HI n) 0

theorem dgeBegin_first (s : State) (n : Nat) (i : Instr) (d : DgeDesc) (k : List Byte) (a : Option Nat) (first : d.first = true) :
    s.dgeBegin n i d k a none = (((s.uncounted n).partBegun n (s.firstPart d k a none)).wrb (Reg.DGE.STATUS_OPEN n) (!d.last)).cmdStart
      (pgDGE n) 0x44 i := by
  simp only [dgeBegin, first, if_true]
  rfl

theorem dgeBegin_later (s : State) (n : Nat) (i : Instr) (d : DgeDesc) (later : d.first = false) :
    s.dgeBegin n i d [] none none = (s.partBegun n { s.dgeOf n with
      msg := (s.dgeOf n).msg ++ s.ramBytes d.src d.len, run := some d }).cmdStart (pgDGE n) 0x44 i := by
  simp only [dgeBegin, later, Bool.false_eq_true, if_false]
  rfl

end State

/-- A first part has begun on engine `n` under command `i`. -/
structure FirstBegun (n : Nat) (i : Instr) (d : DgeDesc) (x : DgeSt) (s t : State) : Prop extends Framed s t, ResultsZero n t where
  engine : t.dgeOf n = x
  others : ∀ m, m ≠ n → t.dgeOf m = s.dgeOf m
  busy : t.flag (Reg.DGE.STATUS_BUSY n) = true
  opened : t.flag (Reg.DGE.STATUS_OPEN n) = !d.last
  notDone : t.flag (Reg.DGE.STATUS_DONE n) = false
  countLo : t.rd (Reg.DGE.BYTE_COUNT_LO n) = 0
  countHi : t.rd (Reg.DGE.BYTE_COUNT_HI n) = 0
  runs : (t.cmdSlot (pgDGE n) 0x44).running = some i
  vault : t.vault = s.vault

/-- A part has begun in `u` with the count at 0; OPEN is written and the command runs. -/
theorem PartBegun.opened {s u : State} {n : Nat} {i : Instr} {d : DgeDesc} {x : DgeSt} (begun : PartBegun n x (s.uncounted n) u) :
    FirstBegun n i d x s ((u.wrb (Reg.DGE.STATUS_OPEN n) (!d.last)).cmdStart (pgDGE n) 0x44 i) := by
  have opens : OnlyFields [Reg.DGE.STATUS_OPEN n] u ((u.wrb (Reg.DGE.STATUS_OPEN n) (!d.last)).cmdStart (pgDGE n) 0x44 i) :=
    (OnlyFields.refl _ u).wr.setCmdSlot
  exact {
    toFramed := ((Framed.refl s).wr.wr.trans begun.toFramed).trans opens.toFramed
    toResultsZero := begun.toResultsZero.of_only opens rfl rfl
    engine := begun.engine
    others := begun.others
    busy := (opens.flag_apart _ rfl).trans begun.busy
    opened := State.flag_wr_bit _ _ _ rfl
    notDone := (opens.flag_apart _ rfl).trans begun.notDone
    countLo := (opens.rd_apart _ rfl).trans ((begun.rd_apart _ rfl).trans ((State.rd_wr_apart _ _ _ _ rfl).trans (State.rd_wr_same _ _ _)))
    countHi := (opens.rd_apart _ rfl).trans ((begun.rd_apart _ rfl).trans (State.rd_wr_same _ _ _))
    runs := congrArg CmdSlot.running (State.cmdSlot_setCmdSlot_same _ _ _ _)
    vault := begun.vault }

/-- A later part has begun on engine `n` under command `i`. -/
structure LaterBegun (n : Nat) (i : Instr) (x : DgeSt) (s t : State) : Prop extends Framed s t where
  engine : t.dgeOf n = x
  busy : t.flag (Reg.DGE.STATUS_BUSY n) = true
  opened : t.flag (Reg.DGE.STATUS_OPEN n) = s.flag (Reg.DGE.STATUS_OPEN n)
  runs : (t.cmdSlot (pgDGE n) 0x44).running = some i
  vault : t.vault = s.vault

theorem PartBegun.continued {s u : State} {n : Nat} {i : Instr} {x : DgeSt} (begun : PartBegun n x s u) :
    LaterBegun n i x s (u.cmdStart (pgDGE n) 0x44 i) where
  toFramed := begun.toFramed.setCmdSlot
  engine := begun.engine
  busy := begun.busy
  opened := begun.flag_apart (Reg.DGE.STATUS_OPEN n) rfl
  runs := congrArg CmdSlot.running (State.cmdSlot_setCmdSlot_same _ _ _ _)
  vault := begun.vault

/-- What engine `n` holds once it has begun a later part of descriptor `d`. -/
def State.laterPart (s : State) (n : Nat) (d : DgeDesc) : DgeSt :=
  { s.dgeOf n with msg := (s.dgeOf n).msg ++ s.ramBytes d.src d.len, run := some d }

theorem State.dgeBegin_later_begun (s : State) (n : Nat) (i : Instr) (d : DgeDesc) (later : d.first = false) :
    LaterBegun n i (s.laterPart n d) s (s.dgeBegin n i d [] none none) := by
  rw [s.dgeBegin_later n i d later]
  exact (s.partBegun_begun n (s.laterPart n d)).continued

theorem State.dgeBegin_first_begun (s : State) (n : Nat) (i : Instr) (d : DgeDesc) (k : List Byte) (a : Option Nat) (first : d.first = true) :
    FirstBegun n i d (s.firstPart d k a none) s (s.dgeBegin n i d k a none) := by
  rw [s.dgeBegin_first n i d k a first]
  exact ((s.uncounted n).partBegun_begun n (s.firstPart d k a none)).opened

/-! DGE_DONE (R191, R209, R214, R215, R218) -/

/-- The digest or the HMAC of the message that an engine has taken in (R207). -/
def DgeSt.result (e : DgeSt) : List Byte := if e.hmac then hmacBytes e.alg e.key e.msg else shaBytes e.alg e.msg

theorem exec_dgeDone_firmware (s : State) (n : Fin 4) (awake : s.brace = false) (free : (s.dgeOf n).owner = none) :
    exec (.dgeDone n) s = .next (s.dgeFinish n) := by
  show execDgeDone n s = _
  rw [execDgeDone, awake, free]
  rfl

namespace State

/-- The bytes that engine `n` has hashed are shown (R209). -/
def counted (s : State) (n : Nat) : State :=
  (s.wr (Reg.DGE.BYTE_COUNT_LO n) (s.dgeOf n).msg.length).wr (Reg.DGE.BYTE_COUNT_HI n) ((s.dgeOf n).msg.length / 2 ^ 32)

theorem counted_shown (s : State) (n : Nat) : Shown [Reg.DGE.BYTE_COUNT_LO n, Reg.DGE.BYTE_COUNT_HI n] s (s.counted n) := (Shown.refl _ s).wr.wr

theorem dgeFinish_none (s : State) (n : Nat) (h : (s.dgeOf n).run = none) : s.dgeFinish n = s := by
  simp only [dgeFinish, h]

section

variable (s : State) (n : Nat) (d : DgeDesc) (run : (s.dgeOf n).run = some d)
include run

theorem dgeFinish_part (more : d.last = false) :
    s.dgeFinish n = (((s.counted n).setDge n { s.dgeOf n with run := none }).wr (Reg.DGE.STATUS_BUSY n) 0).cmdEnd (pgDGE n) 0x44 := by
  simp only [dgeFinish, run, more, Bool.not_false, if_true]
  rfl

variable (last : d.last = true)
include last

theorem dgeFinish_revoked (r : Nat) (gone : (s.dgeOf n).revoked = some r) :
    s.dgeFinish n = ((((s.counted n).dgeClearResults n).dgeIdle n).revokedEnd (pgDGE n) r 0x44).wr (Reg.DGE.STATUS_DONE n) 1 := by
  simp only [dgeFinish, run, last, gone, Bool.not_true, Bool.false_eq_true, if_false]
  rfl

variable (kept : (s.dgeOf n).revoked = none)
include kept

theorem dgeFinish_digest (dest : d.dest = 0) (plain : d.compare = false) :
    s.dgeFinish n = ((s.counted n).dgeShow n (s.dgeOf n).result).dgeEnded n := by
  simp only [dgeFinish, run, last, kept, dest, plain, Bool.not_true, Bool.false_eq_true, if_false, if_true]
  rfl

theorem dgeFinish_vault (dest : d.dest = 1) (plain : d.compare = false) (p : Nat) (slot : (s.dgeOf n).keySlot = some p)
    (free : s.slotFree d.target = true) : s.dgeFinish n
      = ((s.counted n).vaultResult d.target p d.targetAttr d.label (digestOf 384 (s.dgeOf n).result)).dgeEnded n := by
  have free' : ((s.wr (Reg.DGE.BYTE_COUNT_LO n) (s.dgeOf n).msg.length).wr (Reg.DGE.BYTE_COUNT_HI n)
      ((s.dgeOf n).msg.length / 2 ^ 32)).slotFree d.target = true := free
  simp only [dgeFinish, run, last, kept, dest, plain, slot, free', Nat.one_ne_zero, Option.getD_some, Bool.not_true, Bool.false_eq_true, if_false,
    if_true]
  rfl

theorem dgeFinish_compare (dest : d.dest = 2) (compares : d.compare = true) :
    s.dgeFinish n = ((s.counted n).dgeVerdict n ((s.dgeOf n).result = s.ramBytes d.ref (shaLen (s.dgeOf n).alg))).dgeEnded n := by
  have dest0 : d.dest ≠ 0 := by omega
  have dest1 : d.dest ≠ 1 := by omega
  simp only [dgeFinish, run, last, kept, dest0, dest1, compares, Bool.not_true, Bool.false_eq_true, if_false, if_true]
  rfl

end

/-! The vault takes a result (R193, R215) -/

theorem cachePut_aside (s : State) (i : Nat) (v : BitVec 384) (pin : Bool) : Aside s (s.cachePut i v pin) :=
  ((Aside.refl s).draw (n := 48)).queues

theorem slot_cachePut (s : State) (i : Nat) (v : BitVec 384) (pin : Bool) (j : Nat) : (s.cachePut i v pin).slot j = s.slot j :=
  slot_of_vault (s.draw_redrawn 48).vault j

theorem vaultResult_aside (s : State) (t p a : Nat) (label v : BitVec 384) : Aside s (s.vaultResult t p a label v) :=
  (Aside.refl s).queues.trans (cachePut_aside _ _ _ _)

theorem slot_vaultResult (s : State) (t p a : Nat) (label v : BitVec 384) :
    (s.vaultResult t p a label v).slot t = { s.childSlot p a label with tag := none, order := s.vault.nextOrder } :=
  (slot_cachePut _ _ _ _ _).trans (s.slot_setSlot_same t _)

end State

/-! An operation ends without a result: its key is withdrawn (R191), or it is aborted (R72) -/

theorem ResultsZero.aside {n : Nat} {s t : State} (h : ResultsZero n s) (k : Aside s t) (hn : n < 4) : ResultsZero n t :=
  ⟨fun i hi => (k.rd hn _ rfl (placed_digest hi)).trans (h.digest i hi), (k.rd hn _).trans h.verdict, (k.rd hn _).trans h.verdictN⟩

/-- The operation of firmware is gone from engine `n`, and its results read 0. -/
structure Emptied (n : Nat) (s t : State) : Prop extends Framed s t, ResultsZero n t where
  engine : t.dgeOf n = { DgeSt.idle with owner := (s.dgeOf n).owner }
  busy : t.flag (Reg.DGE.STATUS_BUSY n) = (s.dgeOf n).owner.isSome

theorem EngineFreed.emptied {n : Nat} {s u t : State} (freed : EngineFreed n u t) (cleared : Shown (resultFlds n) s u) (zero : ResultsZero n u) :
    Emptied n s t where
  toFramed := cleared.toFramed.trans freed.toFramed
  toResultsZero := zero.of_only freed.toOnlyFields rfl rfl
  engine := by rw [freed.engine, cleared.dgeOf]
  busy := by rw [freed.busy, cleared.dgeOf]

theorem State.dgeClearResults_dgeIdle_emptied (s : State) (n : Nat) : Emptied n s ((s.dgeClearResults n).dgeIdle n) :=
  ((s.dgeClearResults n).dgeIdle_freed n).emptied (s.dgeClearResults_shown n) (s.dgeClearResults_zero n)

namespace Emptied

variable {n : Nat} {s t u : State}

theorem after (h : Emptied n s t) (k : Shown [Reg.DGE.BYTE_COUNT_LO n, Reg.DGE.BYTE_COUNT_HI n] u s) : Emptied n u t :=
  ⟨k.toFramed.trans h.toFramed, h.toResultsZero, by rw [h.engine, k.dgeOf], by rw [h.busy, k.dgeOf]⟩

theorem aside (h : Emptied n s t) (k : Aside t u) (hn : n < 4) : Emptied n s u :=
  ⟨h.toFramed.trans k.toFramed, h.toResultsZero.aside k hn, (k.dgeOf n).trans h.engine, (k.flag hn _).trans h.busy⟩

/-- The reason is recorded on the page of the engine. -/
theorem reason {c off : Nat} (h : Emptied n s t) :
    Emptied n s ((t.wr (Hdr.REASON_CODE (pgDGE n)) c).wr (Hdr.REASON_OFFSET (pgDGE n)) off) :=
  have only : OnlyFields [Hdr.REASON_CODE (pgDGE n), Hdr.REASON_OFFSET (pgDGE n)] t _ := (OnlyFields.refl _ t).wr.wr
  ⟨h.toFramed.trans only.toFramed, h.toResultsZero.of_only only rfl rfl, h.engine, (only.flag_apart _ rfl).trans h.busy⟩

theorem done (h : Emptied n s t) : Emptied n s (t.wr (Reg.DGE.STATUS_DONE n) 1) :=
  have only : OnlyFields [Reg.DGE.STATUS_DONE n] t _ := (OnlyFields.refl _ t).wr
  ⟨h.toFramed.trans only.toFramed, h.toResultsZero.of_only only rfl rfl, h.engine, (only.flag_apart _ rfl).trans h.busy⟩

theorem cmdDrop (h : Emptied n s t) : Emptied n s (t.cmdDrop (pgDGE n) 0x44) :=
  ⟨h.toFramed.setCmdSlot, ⟨h.digest, h.verdict, h.verdictN⟩, h.engine, h.busy⟩

end Emptied

/-- An operation with a withdrawn key has ended with reason `r` of the vault. -/
structure Revoked (n r : Nat) (s t : State) : Prop extends Emptied n s t where
  reason : t.rd (Hdr.REASON_CODE (pgDGE n)) = (pgKVT * 256 + r) % 2 ^ 16
  event : t.raised pgKVT 10 = true

theorem Emptied.revoked {n r : Nat} {s t : State} (h : Emptied n s t) (hn : n < 4) :
    Revoked n r s ((t.revokedEnd (pgDGE n) r 0x44).wr (Reg.DGE.STATUS_DONE n) 1) := by
  have vault (u : State) : Aside u ((u.raise pgKVT 10).bump Reg.KVT.REVOKED_IN_USE_COUNT) := (Aside.refl u).wr.wr
  constructor
  case toEmptied => exact ((h.reason (c := pgKVT * 256 + r) (off := 0x44)).aside (vault _) hn).done
  case reason =>
    calc _ = (t.revokedEnd (pgDGE n) r 0x44).rd (Hdr.REASON_CODE (pgDGE n)) := State.rd_wr_apart _ _ _ _ rfl
      _ = (t.refuseVault (pgDGE n) r 0x44).rd (Hdr.REASON_CODE (pgDGE n)) := (vault _).rd hn _
      _ = _ := (State.rd_wr_apart _ _ _ _ rfl).trans (State.rd_wr_same _ _ _)
  case event =>
    exact (State.flag_wr_apart _ _ _ _ rfl).trans ((State.flag_wr_apart _ _ _ _ rfl).trans (State.flag_wr_one _ _ rfl))

/-- The operation of firmware has been aborted: no command runs or waits at the engine. -/
structure Aborted (n : Nat) (s t : State) : Prop extends Emptied n s t where
  reason : t.rd (Hdr.REASON_CODE (pgDGE n)) = pgDGE n * 256 + dgABORTED
  command : t.cmdSlot (pgDGE n) 0x44 = ⟨none, none⟩

theorem Emptied.aborted {n : Nat} {s t : State} (h : Emptied n s t) (hn : n < 4) :
    Aborted n s (((t.refuse (pgDGE n) dgABORTED 0x44).wr (Reg.DGE.STATUS_DONE n) 1).cmdDrop (pgDGE n) 0x44).lanesGo := by
  have lanes (u : State) : Aside u u.lanesGo := (Aside.refl u).lanesGo
  have fits : (pgDGE n * 256 + dgABORTED) % 2 ^ 16 = pgDGE n * 256 + dgABORTED :=
    Nat.mod_eq_of_lt (by simp only [pgDGE, dgABORTED]; omega)
  constructor
  case toEmptied => exact (h.reason (c := pgDGE n * 256 + dgABORTED) (off := 0x44)).done.cmdDrop.aside (lanes _) hn
  case reason =>
    exact ((lanes _).rd hn _).trans ((State.rd_wr_apart _ _ _ _ rfl).trans ((State.rd_wr_apart _ _ _ _ rfl).trans
      ((State.rd_wr_same _ _ _).trans fits)))
  case command => exact ((lanes _).command n hn).trans (State.cmdSlot_setCmdSlot_same _ _ _ _)

namespace State

variable (s : State) (n : Nat)

theorem abortDge_works (works : (s.dgeOf n).run ≠ none ∨ (s.dgeOf n).leaves ≠ none ∨ s.flag (Reg.DGE.STATUS_OPEN n) = true) :
    abortDge n s = (((((s.dgeClearResults n).dgeIdle n).refuse (pgDGE n) dgABORTED 0x44).wr (Reg.DGE.STATUS_DONE n) 1).cmdDrop
      (pgDGE n) 0x44) :=
  if_pos (by simpa only [Bool.or_eq_true, Option.isSome_iff_ne_none, or_assoc] using works)

theorem abortDge_idle (run : (s.dgeOf n).run = none) (leaves : (s.dgeOf n).leaves = none) (closed : s.flag (Reg.DGE.STATUS_OPEN n) = false) :
    abortDge n s = s.setCmdSlot (pgDGE n) 0x44 ⟨none, none⟩ :=
  if_neg (by simp only [run, leaves, closed, Option.isSome_none, Bool.or_self, Bool.false_eq_true, not_false_eq_true])

end State

theorem exec_dgeAbort_up (s : State) (n : Fin 4) (up : s.up = true) : exec (.dgeAbort n) s = .next (State.abortDge n s).lanesGo :=
  congrArg Host.Outcome.next (if_pos up)

/-- A first part whose key comes from no slot begins: without HMAC, or with the key of a DKR that was written there. -/
theorem State.startDgeRun_keyless (s : State) (n : Fin 4) (a : Nat) (firmware : (s.dgeOf n).owner = none) (fit : s.dgeDescFault n a = none)
    (first : (s.dgeDescAt a).first = true) (key : (s.dgeDescAt a).hmac = false ∧ (s.dgeDescAt a).dest ≠ 1 ∨
      (s.dgeDescAt a).hmac = true ∧ (s.dgeDescAt a).keySource ≠ 1 ∧ (s.aesOf ((s.dgeDescAt a).keySource - 2)).dkr.source = none
      ∧ (s.aesOf ((s.dgeDescAt a).keySource - 2)).dkr.loaded = true
      ∧ State.dgeUseOk (some (s.aesOf ((s.dgeDescAt a).keySource - 2)).dkr.keyAttr) (s.dgeDescAt a) = true ∧ (s.dgeDescAt a).dest ≠ 1) :
    ∃ k at', startDgeRun n a s = s.dgeBegin n (.dgeRun n a) (s.dgeDescAt a) k at' none
      ∧ ((s.dgeDescAt a).hmac = true → k = (s.aesOf ((s.dgeDescAt a).keySource - 2)).dkr.key) := by
  rcases key with ⟨hash, shown⟩ | ⟨hmac, outside, noSlot, loaded, use, shown⟩
  · have source : (s.dgeDescAt a).keySource ≠ 1 := by
      rw [s.keySource_of_fit a n fit hash]
      exact Nat.zero_ne_one
    exact ⟨[], none, s.startDgeRun_first n a firmware fit shown first source [] none none (s.dgeKey_hash _ hash) (decide_eq_true shown),
      fun hmac => absurd (hmac.symm.trans hash) Bool.true_eq_false_eq_False⟩
  · have captured := s.dgeKey_dkr _ hmac outside loaded
    rw [noSlot] at captured
    exact ⟨_, _, s.startDgeRun_first n a firmware fit shown first outside _ _ none captured use, fun _ => rfl⟩

/-! DGE_DONE, by what the part delivers -/

/-- A part has ended and left the operation open. -/
structure PartEnded (n : Nat) (s t : State) : Prop
    extends OnlyFields [Reg.DGE.BYTE_COUNT_LO n, Reg.DGE.BYTE_COUNT_HI n, Reg.DGE.STATUS_BUSY n] s t where
  engine : t.dgeOf n = { s.dgeOf n with run := none }
  idle : t.flag (Reg.DGE.STATUS_BUSY n) = false
  count : t.rd (Reg.DGE.BYTE_COUNT_LO n) = (s.dgeOf n).msg.length % 2 ^ 32
  free : (t.cmdSlot (pgDGE n) 0x44).running = none
  vault : t.vault = s.vault

theorem State.dgeFinish_part_ended (s : State) (n : Nat) (d : DgeDesc) (run : (s.dgeOf n).run = some d) (more : d.last = false) :
    PartEnded n s (s.dgeFinish n) := by
  rw [s.dgeFinish_part n d run more]
  constructor
  case toOnlyFields =>
    have counted := (s.counted_shown n).toOnlyFields.mono (m := [Reg.DGE.BYTE_COUNT_LO n, Reg.DGE.BYTE_COUNT_HI n, Reg.DGE.STATUS_BUSY n])
    exact (counted.outside (u := (s.counted n).setDge n { s.dgeOf n with run := none })).wr.setCmdSlot
  case engine => exact (s.counted n).dgeOf_setDge_same n _
  case idle => exact State.flag_wr_zero _ _ rfl
  case count => exact (State.rd_wr_apart _ _ _ _ rfl).trans ((State.rd_wr_apart _ _ _ _ rfl).trans (State.rd_wr_same _ _ _))
  case free => exact congrArg CmdSlot.running (State.cmdSlot_setCmdSlot_same _ _ _ _)
  case vault => rfl

/-- A last part has ended the operation, after the result was delivered in `r`. -/
structure Delivered (n : Nat) (s r t : State) : Prop extends OpEnded n r t where
  delivered : Framed s r
  kept : r.dgeOf n = s.dgeOf n

namespace Delivered

variable {n : Nat} {s r t : State}

theorem of_kept (delivered : Framed s r) (kept : r.dgeOf n = s.dgeOf n) : Delivered n s r (r.dgeEnded n) := ⟨r.dgeEnded_ended n, delivered, kept⟩

theorem whole (h : Delivered n s r t) : Framed s t := h.delivered.trans h.toFramed

theorem wordsKept (h : Delivered n s r t) {i : Nat} (hi : i < 16) : t.rd (Reg.DGE.DIGEST n i) = r.rd (Reg.DGE.DIGEST n i) :=
  h.digest rfl hi

theorem emptied (h : Delivered n s r t) (firmware : (s.dgeOf n).owner = none) : t.dgeOf n = DgeSt.idle := by
  rw [h.engine, h.kept, firmware]
  rfl

theorem notBusy (h : Delivered n s r t) (firmware : (s.dgeOf n).owner = none) : t.flag (Reg.DGE.STATUS_BUSY n) = false := by
  rw [h.busy, h.kept, firmware]
  rfl

end Delivered

/-- The value of an HMAC is in the vault: the target slot is defined under the key slot, and DIGEST stays as it was. -/
theorem State.vaultResult_delivered (s : State) (n t p a : Nat) (label v : BitVec 384) (hn : n < 4) (slot : (s.dgeOf n).keySlot = some p)
    (other : p ≠ t) :
    let u := ((s.counted n).vaultResult t p a label v).dgeEnded n
    Delivered n s ((s.counted n).vaultResult t p a label v) u
    ∧ u.slot t = { s.childSlot p a label with tag := none, order := s.vault.nextOrder }
    ∧ ∀ i, i < 16 → u.rd (Reg.DGE.DIGEST n i) = s.rd (Reg.DGE.DIGEST n i) := by
  have aside := (s.counted n).vaultResult_aside t p a label v
  have ended : Delivered n s ((s.counted n).vaultResult t p a label v) _ :=
    .of_kept ((s.counted_shown n).toFramed.trans aside.toFramed) (aside.dgeOf n)
  refine ⟨ended, (ended.slot t fun same => other ?_).trans ((s.counted n).slot_vaultResult t p a label v), fun i hi => ?_⟩
  · exact Option.some.inj (slot.symm.trans ((congrArg DgeSt.keySlot ended.kept).symm.trans same))
  · exact (ended.wordsKept hi).trans ((aside.rd hn _ rfl (placed_digest hi)).trans ((s.counted_shown n).digest rfl hi))

/-- Settles O37: the begin of a part by `partBegun_begun`, its end by what it delivers, the withdrawn key and ABORT by `Emptied`. -/
theorem digestOperation : Obligations.DigestOperation := by
  refine ⟨fun s n a free firmware fit first key => ?_, fun s n a free firmware fit later use shown => ?_,
    fun s n a c free firmware fault => (exec_dgeRun_ready s n a free).trans (congrArg Host.Outcome.next (s.startDgeRun_refused n a firmware c fault)),
    fun s n a h free held => (exec_dgeRun_ready s n a free).trans (congrArg Host.Outcome.next (s.startDgeRun_held n a h held)),
    fun s n d awake firmware run kept => ⟨fun more => ?_, fun p last dest plain slot other empty => ?_, fun last dest plain => ?_,
      fun last dest compares => ?_⟩,
    fun s n d r awake firmware run last gone => ?_, fun s n idle => ?_, fun s n up => ⟨fun works => ?_, fun run leaves closed => ?_⟩⟩
  · obtain ⟨k, at', started, dkr⟩ := s.startDgeRun_keyless n a firmware fit first key
    have begun := s.dgeBegin_first_begun n (.dgeRun n a) (s.dgeDescAt a) k at' first
    exact ⟨_, (exec_dgeRun_ready s n a free).trans (congrArg Host.Outcome.next started), congrArg DgeSt.run begun.engine,
      congrArg DgeSt.msg begun.engine, congrArg DgeSt.alg begun.engine, congrArg DgeSt.hmac begun.engine,
      fun hmac => (congrArg DgeSt.key begun.engine).trans (dkr hmac), fun m _ other => begun.others m other, begun.busy, begun.opened,
      begun.notDone, begun.countLo, begun.countHi, begun.digest, begun.verdict, begun.verdictN, begun.runs, begun.vault, begun.cfg, begun.stores⟩
  · have begun := s.dgeBegin_later_begun n (.dgeRun n a) (s.dgeDescAt a) later
    exact ⟨_, (exec_dgeRun_ready s n a free).trans (congrArg Host.Outcome.next (s.startDgeRun_later n a firmware fit shown later use)),
      begun.engine, begun.opened, begun.busy, begun.runs, begun.vault, begun.cfg, begun.stores⟩
  · have ended := s.dgeFinish_part_ended n d run more
    exact ⟨_, exec_dgeDone_firmware s n awake firmware, congrArg DgeSt.run ended.engine, (congrArg DgeSt.msg ended.engine).trans rfl,
      ended.flag_apart _ rfl, ended.idle, ended.flag_apart _ rfl, ended.count, ended.free, ended.vault, ended.cfg, ended.stores⟩
  · obtain ⟨ended, defined, words⟩ := s.vaultResult_delivered n d.target p d.targetAttr d.label (digestOf 384 (s.dgeOf n).result) n.isLt slot other
    exact ⟨_, (exec_dgeDone_firmware s n awake firmware).trans (congrArg Host.Outcome.next
        (s.dgeFinish_vault n d run last kept dest plain p slot empty)), congrArg Slot.state defined, congrArg Slot.parent defined,
      congrArg Slot.pgen defined, congrArg Slot.depth defined, congrArg Slot.ld defined, congrArg Slot.keyAttr defined, words, ended.done,
      ended.whole.cfg, ended.whole.stores⟩
  · have shown := (s.counted n).foldl_digestWords_shown n fun i => beNat (((s.dgeOf n).result.drop (4 * i)).take 4)
    have ended : Delivered n s ((s.counted n).dgeShow n (s.dgeOf n).result) _ :=
      .of_kept ((s.counted_shown n).toFramed.trans shown.toFramed) (shown.dgeOf n)
    exact ⟨_, (exec_dgeDone_firmware s n awake firmware).trans (congrArg Host.Outcome.next (s.dgeFinish_digest n d run last kept dest plain)),
      ended.emptied firmware, fun i hi => (ended.wordsKept hi).trans (State.rd_foldl_digestWords _ _ _ 16 hi), ended.closed,
      ended.notBusy firmware, ended.done, ended.event, ended.idle, ended.whole.cfg, ended.whole.stores⟩
  · have judged := (s.counted n).dgeVerdict_judged n ((s.dgeOf n).result = s.ramBytes d.ref (shaLen (s.dgeOf n).alg))
    have ended : Delivered n s _ _ := .of_kept ((s.counted_shown n).toFramed.trans judged.toFramed) (judged.dgeOf n)
    exact ⟨_, (exec_dgeDone_firmware s n awake firmware).trans (congrArg Host.Outcome.next (s.dgeFinish_compare n d run last kept dest compares)),
      ⟨(ended.rd_apart _ rfl).trans judged.verdict, (ended.rd_apart _ rfl).trans judged.verdictN,
        fun bad => (ended.flag_apart _ rfl).trans (judged.mismatch bad)⟩,
      fun i hi => (ended.wordsKept hi).trans ((judged.digest rfl hi).trans ((s.counted_shown n).digest rfl hi)), ended.done, ended.whole.cfg,
      ended.whole.stores⟩
  · have ended := (((s.counted n).dgeClearResults_dgeIdle_emptied n).after (s.counted_shown n)).revoked n.isLt (r := r)
    refine ⟨_, (exec_dgeDone_firmware s n awake firmware).trans (congrArg Host.Outcome.next (s.dgeFinish_revoked n d run last r gone)),
      ?_, ended.digest, ended.verdict, ended.verdictN, ended.reason, ended.event, ended.cfg, ended.stores⟩
    rw [ended.engine, firmware]
    rfl
  · show execDgeDone n s = _
    rw [execDgeDone]
    rcases idle with brace | ⟨firmware, run⟩
    · rw [brace]
      rfl
    · rw [firmware, s.dgeFinish_none n run]
      split <;> rfl
  · have ended := (s.dgeClearResults_dgeIdle_emptied n).aborted n.isLt
    exact ⟨_, (exec_dgeAbort_up s n up).trans (congrArg (fun t => Host.Outcome.next (State.lanesGo t)) (s.abortDge_works n works)),
      ended.engine, ended.digest, ended.verdict, ended.reason, ended.busy, ended.command, ended.cfg, ended.stores⟩
  · exact (exec_dgeAbort_up s n up).trans (congrArg (fun t => Host.Outcome.next (State.lanesGo t)) (s.abortDge_idle n run leaves closed))

end Sys2Proof.Machine
end

section
/-! O38: LEAVES (R221-R223), LEAF_VERDICT (R222, R352), and lane H (R227, R229). -/

namespace Sys2Proof.Machine

/-! LEAVES -/

theorem exec_leaves_ready (s : State) (n : Fin 4) (a : Nat) (free : s.ready (pgDGE n) 0x44 = true) :
    exec (.leaves n a) s = .next (State.startLeaves n a s) :=
  exec_cmd_ready s (.leaves n a) (pgDGE n) 0x44 (State.startLeaves n a) rfl free nofun nofun

namespace State

theorem leavesOn_iff (s : State) (u : Nat) : s.leavesOn u = true ↔ ∃ m l, m < 4 ∧ (s.dgeOf m).leaves = some l ∧ l.unit = u := by
  have bound (m : Nat) : (match (s.dgeOf m).leaves with | some l => decide (l.unit = u) | none => false) = true
      ↔ ∃ l, (s.dgeOf m).leaves = some l ∧ l.unit = u := by
    cases (s.dgeOf m).leaves <;> simp
  unfold leavesOn
  rw [List.any_eq_true]
  constructor
  · rintro ⟨m, hm, hb⟩
    obtain ⟨l, hl, unit⟩ := (bound m).mp hb
    refine ⟨m, l, ?_, hl, unit⟩
    simp only [List.mem_cons, List.not_mem_nil, or_false] at hm
    omega
  · rintro ⟨m, l, hm, hl, unit⟩
    refine ⟨m, ?_, (bound m).mpr ⟨l, hl, unit⟩⟩
    simp only [List.mem_cons, List.not_mem_nil, or_false]
    omega

/-- A descriptor of LEAVES whose fields, table and engine are in order. -/
structure LeavesFit (s : State) (n a : Nat) : Prop where
  firmware : (s.dgeOf n).owner = none
  inside : inSram a 80 = true
  low : 0x10 ≤ (s.dgeDescAt a).source
  high : (s.dgeDescAt a).source ≤ 0x15
  alg : (s.dgeDescAt a).alg ≤ 1
  nonempty : (s.dgeDescAt a).len ≠ 0
  whole : (s.dgeDescAt a).len % shaLen (s.dgeDescAt a).alg = 0
  closed : s.flag (Reg.DGE.STATUS_OPEN n) = false
  table : inSram (s.dgeDescAt a).src (s.dgeDescAt a).len = true

/-- The engine is bound to unit `l.unit`, and its results and counters are at their start. -/
def leavesBound (s : State) (n : Nat) (l : LeavesOp) : State :=
  (((((s.setSnp l.unit { s.snpOf l.unit with tries := [], reread := [] }).setDge n { DgeSt.idle with leaves := some l }).dgeClearResults n).wr
    (Reg.DGE.LEAF_BLOCKS n) 0).wr (Reg.DGE.LEAF_FIRST_FAIL n) 0xFFFFFFFF |>.wr (Reg.DGE.STATUS_BUSY n) 1).wr (Reg.DGE.STATUS_DONE n) 0

/-- The operation that a descriptor of LEAVES asks for. -/
def leavesOp (s : State) (a : Nat) : LeavesOp :=
  ⟨(s.dgeDescAt a).source - 0x10, (s.dgeDescAt a).alg, (s.dgeDescAt a).src, (s.dgeDescAt a).len / shaLen (s.dgeDescAt a).alg, []⟩

theorem startLeaves_fit (s : State) (n : Fin 4) (a : Nat) (fit : s.LeavesFit n a) :
    startLeaves n a s = if (s.snpOf (s.leavesOp a).unit).laneI = 1 ∨ s.leavesOn (s.leavesOp a).unit = true then s.dgeRefuse n dgSNP_BOUND
      else (s.leavesBound n (s.leavesOp a)).cmdStart (pgDGE n) 0x44 (.leaves n a) := by
  obtain ⟨firmware, inside, low, high, alg, nonempty, whole, closed, table⟩ := fit
  have formed : (!inSram a 80 || decide ((s.dgeDescAt a).source < 0x10) || decide (0x15 < (s.dgeDescAt a).source)
      || decide (1 < (s.dgeDescAt a).alg) || decide ((s.dgeDescAt a).len = 0)
      || decide ((s.dgeDescAt a).len % shaLen (s.dgeDescAt a).alg ≠ 0)) = false := by
    simp only [inside, nonempty, whole, Nat.not_lt.mpr low, Nat.not_lt.mpr high, Nat.not_lt.mpr alg]
    rfl
  simp only [startLeaves, firmware, formed, closed, table, Option.isSome_none, Bool.not_true, Bool.false_eq_true, if_false, Bool.or_eq_true,
    decide_eq_true_eq]
  rfl

end State

/-- LEAVES has begun on engine `n` under command `i`, with no block judged. -/
structure LeavesBegun (n : Nat) (i : Instr) (l : LeavesOp) (s t : State) : Prop extends Framed s t, ResultsZero n t where
  leaves : (t.dgeOf n).leaves = some l
  tries : (t.snpOf l.unit).tries = []
  reread : (t.snpOf l.unit).reread = []
  blocks : t.rd (Reg.DGE.LEAF_BLOCKS n) = 0
  firstFail : t.rd (Reg.DGE.LEAF_FIRST_FAIL n) = 0xFFFFFFFF
  busy : t.flag (Reg.DGE.STATUS_BUSY n) = true
  notDone : t.flag (Reg.DGE.STATUS_DONE n) = false
  runs : (t.cmdSlot (pgDGE n) 0x44).running = some i

/-- The engine has been bound and its results cleared in `u`; the counters, BUSY and DONE are written, and the command runs. -/
theorem LeavesBegun.of_cleared {s b u : State} {n : Nat} {i : Instr} {l : LeavesOp} (bound : Framed s b) (cleared : Shown (resultFlds n) b u)
    (zero : ResultsZero n u) (engine : (b.dgeOf n).leaves = some l) (tries : (b.snpOf l.unit).tries = []) (reread : (b.snpOf l.unit).reread = []) :
    LeavesBegun n i l s (((((u.wr (Reg.DGE.LEAF_BLOCKS n) 0).wr (Reg.DGE.LEAF_FIRST_FAIL n) 0xFFFFFFFF).wr (Reg.DGE.STATUS_BUSY n) 1).wr
      (Reg.DGE.STATUS_DONE n) 0).cmdStart (pgDGE n) 0x44 i) := by
  have shown : OnlyFields [Reg.DGE.LEAF_BLOCKS n, Reg.DGE.LEAF_FIRST_FAIL n, Reg.DGE.STATUS_BUSY n, Reg.DGE.STATUS_DONE n] u
      (((((u.wr (Reg.DGE.LEAF_BLOCKS n) 0).wr (Reg.DGE.LEAF_FIRST_FAIL n) 0xFFFFFFFF).wr (Reg.DGE.STATUS_BUSY n) 1).wr
        (Reg.DGE.STATUS_DONE n) 0).cmdStart (pgDGE n) 0x44 i) := (OnlyFields.refl _ u).wr.wr.wr.wr.setCmdSlot
  constructor
  case toFramed => exact (bound.trans cleared.toFramed).trans shown.toFramed
  case toResultsZero => exact zero.of_only shown rfl rfl
  case leaves => exact (congrArg DgeSt.leaves (cleared.dgeOf n)).trans engine
  case tries => exact (congrArg SnpSt.tries (cleared.snpOf l.unit)).trans tries
  case reread => exact (congrArg SnpSt.reread (cleared.snpOf l.unit)).trans reread
  case blocks => simp (disch := exact id rfl) only [State.cmdStart_eq, State.setCmdSlot_rd, State.rd_wr_apart, State.rd_wr_same]; rfl
  case firstFail => simp (disch := exact id rfl) only [State.cmdStart_eq, State.setCmdSlot_rd, State.rd_wr_apart, State.rd_wr_same]; rfl
  case busy => exact (State.flag_wr_apart _ _ _ _ rfl).trans (State.flag_wr_one _ _ rfl)
  case notDone => exact State.flag_wr_zero _ _ rfl
  case runs => exact congrArg CmdSlot.running (State.cmdSlot_setCmdSlot_same _ _ _ _)

theorem State.snpOf_setSnp_same (s : State) (u : Nat) (x : SnpSt) : (s.setSnp u x).snpOf u = x := Tbl.get_put_same _ _ _ _

theorem State.leavesBound_begun (s : State) (n : Nat) (i : Instr) (l : LeavesOp) :
    LeavesBegun n i l s ((s.leavesBound n l).cmdStart (pgDGE n) 0x44 i) :=
  .of_cleared (b := (s.setSnp l.unit { s.snpOf l.unit with tries := [], reread := [] }).setDge n { DgeSt.idle with leaves := some l })
    ⟨⟨rfl, rfl, rfl, rfl, rfl⟩, ⟨rfl, rfl, rfl, rfl, rfl, rfl, rfl⟩⟩ (State.dgeClearResults_shown _ n) (State.dgeClearResults_zero _ n)
    (congrArg DgeSt.leaves (State.dgeOf_setDge_same _ n _)) (congrArg SnpSt.tries (s.snpOf_setSnp_same l.unit _))
    (congrArg SnpSt.reread (s.snpOf_setSnp_same l.unit _))

/-! LEAF_VERDICT -/

theorem exec_leafVerdict_firmware (s : State) (n : Fin 4) (l : LeavesOp) (awake : s.brace = false) (firmware : (s.dgeOf n).owner = none)
    (bound : (s.dgeOf n).leaves = some l) : exec (.leafVerdict n) s = .next (s.leafVerdict n l) := by
  show execLeafVerdict n s = _
  rw [execLeafVerdict, awake, firmware]
  simp only [bound]
  rfl

theorem exec_leafVerdict_idle (s : State) (n : Fin 4) (h : s.brace = true ∨ ((s.dgeOf n).owner = none ∧ (s.dgeOf n).leaves = none)) :
    exec (.leafVerdict n) s = .next s := by
  show execLeafVerdict n s = _
  rw [execLeafVerdict]
  rcases h with brace | ⟨firmware, unbound⟩
  · rw [brace]
    rfl
  · rw [firmware]
    simp only [unbound]
    split <;> rfl

/-- A block that had no verdict before has a final one: it is counted, and one that failed lowers LEAF_FIRST_FAIL (R222). -/
def State.leafCounted (s : State) (n : Nat) (l : LeavesOp) (i : Nat) (good : Bool) : State :=
  let s := s.wr (Reg.DGE.LEAF_BLOCKS n) (l.final.length + 1)
  let s := if good then s else s.wr (Reg.DGE.LEAF_FIRST_FAIL n) (min i (s.rd (Reg.DGE.LEAF_FIRST_FAIL n)))
  s.setDge n { s.dgeOf n with leaves := some { l with final := i :: l.final } }

structure LeafCounted (n : Nat) (l : LeavesOp) (i : Nat) (good : Bool) (s t : State) : Prop
    extends OnlyFields [Reg.DGE.LEAF_BLOCKS n, Reg.DGE.LEAF_FIRST_FAIL n] s t where
  engine : t.dgeOf n = { s.dgeOf n with leaves := some { l with final := i :: l.final } }
  snp : t.snp = s.snp
  blocks : t.rd (Reg.DGE.LEAF_BLOCKS n) = (l.final.length + 1) % 2 ^ (Reg.DGE.LEAF_BLOCKS n).width
  firstFail : t.rd (Reg.DGE.LEAF_FIRST_FAIL n) = if good then s.rd (Reg.DGE.LEAF_FIRST_FAIL n)
    else min i (s.rd (Reg.DGE.LEAF_FIRST_FAIL n)) % 2 ^ (Reg.DGE.LEAF_FIRST_FAIL n).width

namespace State

theorem leafCounted_counted (s : State) (n : Nat) (l : LeavesOp) (i : Nat) (good : Bool) : LeafCounted n l i good s (s.leafCounted n l i good) := by
  have kept (v : Nat) : (s.wr (Reg.DGE.LEAF_BLOCKS n) v).rd (Reg.DGE.LEAF_FIRST_FAIL n) = s.rd (Reg.DGE.LEAF_FIRST_FAIL n) :=
    rd_wr_apart _ _ _ _ rfl
  have counted : OnlyFields [Reg.DGE.LEAF_BLOCKS n, Reg.DGE.LEAF_FIRST_FAIL n] s (s.wr (Reg.DGE.LEAF_BLOCKS n) (l.final.length + 1)) :=
    (OnlyFields.refl _ s).wr
  cases good with
  | true => exact ⟨counted.outside, dgeOf_setDge_same _ n _, rfl, rd_wr_same _ _ _, kept _⟩
  | false =>
    exact ⟨(counted.wr (f := Reg.DGE.LEAF_FIRST_FAIL n) (v := min i _)).outside, dgeOf_setDge_same _ n _, rfl, (rd_wr_apart _ _ _ _ rfl).trans (rd_wr_same _ _ _),
      (rd_wr_same _ _ _).trans (by rw [kept]; rfl)⟩

section

variable (s : State) (n : Nat) (l : LeavesOp) (i : Nat) (good : Bool) (fresh : i ∉ l.final)
include fresh

theorem leafFinal_more (more : l.final.length + 1 < l.count) : s.leafFinal n l i good = s.leafCounted n l i good := by
  simp only [leafFinal, List.contains_eq_mem, fresh, decide_false, Bool.false_eq_true, if_false, List.length_cons, more, if_true]
  rfl

theorem leafFinal_last (last : l.final.length + 1 = l.count) : s.leafFinal n l i good
    = ((s.leafCounted n l i good).dgeVerdict n ((s.leafCounted n l i good).rd (Reg.DGE.LEAF_FIRST_FAIL n) = 0xFFFFFFFF)).dgeEnded n := by
  have full : ¬ l.final.length + 1 < l.count := by omega
  simp only [leafFinal, List.contains_eq_mem, fresh, decide_false, Bool.false_eq_true, if_false, List.length_cons, full]
  rfl

end

/-- Unit `u` has given its oldest digest to the engine, and `q` waits. -/
def popped (s : State) (u : Nat) (q : List LaneDigest) : State :=
  (s.setSnp u { s.snpOf u with fifo := q }).wr (Reg.SNP.LANE_STATUS_FIFO_LEVEL u) q.length

theorem placed_fifoLevel {u : Nat} (hu : u < 6) : (Reg.SNP.LANE_STATUS_FIFO_LEVEL u).placed = true := by
  have inside : 0x6C + 64 * u < 0x10000 := by omega
  exact Bool.and_eq_true_iff.mpr ⟨decide_eq_true inside, rfl⟩

theorem popped_aside (s : State) {u : Nat} (q : List LaneDigest) (hu : u < 6) :
    Aside (s.setSnp u { s.snpOf u with fifo := q }) (s.popped u q) :=
  (Aside.refl _).wr (.inr (Nat.le_refl 0x24)) (placed_fifoLevel hu)

/-- Whether a READ of firmware can read a block again is a matter of the schedulers, the configuration and the state of the host. -/
theorem fwReads_congr {s t : State} {c : Nat} (scheds : t.scheds = s.scheds) (cfg : sameCfg s t) (host : t.hostSt c = s.hostSt c) :
    t.fwReads c = s.fwReads c := by
  simp only [fwReads, laneFw, sched, scheds, cfg_of_sameCfg cfg, host]

theorem popped_fwReads (s : State) {u : Nat} (q : List LaneDigest) (hu : u < 6) : (s.popped u q).fwReads u = s.fwReads u := by
  have host : (Reg.HSV.HOST_STATE_STATE u).placed = true := by
    have inside : (Reg.HSV.HOST_STATE_STATE u).off < 0x10000 := by
      simp only [Reg.HSV.HOST_STATE_STATE]
      omega
    exact Bool.and_eq_true_iff.mpr ⟨decide_eq_true inside, rfl⟩
  have other : (0x24 : Nat) ≠ 0x1E := by decide
  exact fwReads_congr rfl (s.popped_aside q hu).cfg.of_regs (rd_wr_ne' _ _ _ _ (Fld.keyOf_ne_of_page (placed_fifoLevel hu) host other))

section

variable (s : State) (n : Nat) (l : LeavesOp) (e : LaneDigest) (q : List LaneDigest) (hu : l.unit < 6) (oldest : (s.snpOf l.unit).fifo = e :: q)
  (inTable : e.index < l.count)
include oldest inTable

theorem leafVerdict_match (good : e.digest = s.leafOf l e.index) :
    s.leafVerdict n l = ((s.popped l.unit q).leafFinal n l e.index true).laneGo l.unit := by
  have good' : e.digest = (s.popped l.unit q).leafOf l e.index := good
  simp only [popped] at good' ⊢
  simp only [leafVerdict, oldest, Nat.not_le.mpr inTable, if_false]
  rw [if_pos good']

include hu

/-- A mismatch that no READ of firmware can read again is final. -/
theorem leafVerdict_miss (bad : e.digest ≠ s.leafOf l e.index) (unread : s.fwReads l.unit = false) :
    s.leafVerdict n l = ((if Tbl.get 0 (s.snpOf l.unit).tries e.index < 3 then s.popped l.unit q
      else (s.popped l.unit q).readFailed l.unit).leafFinal n l e.index false).laneGo l.unit := by
  have bad' : e.digest ≠ (s.popped l.unit q).leafOf l e.index := bad
  have unread' := (s.popped_fwReads q hu).trans unread
  simp only [popped] at bad' unread' ⊢
  simp only [leafVerdict, oldest, Nat.not_le.mpr inTable, if_false]
  rw [if_neg bad', unread', Bool.and_false]
  rfl

/-- A block whose digest does not match is read again: nothing of it is final. -/
def readAgain (s : State) (u i : Nat) (q : List LaneDigest) : State :=
  (((s.popped u q).setSnp u { (s.popped u q).snpOf u with
    reread := (s.snpOf u).reread ++ [i], tries := Tbl.put 0 (s.snpOf u).tries i (Tbl.get 0 (s.snpOf u).tries i + 1) }).bump
      (Reg.FCH.RETRY_COUNT u)).retag (chanRes u) (fun r => r.kind = .fwRead)

theorem leafVerdict_again (bad : e.digest ≠ s.leafOf l e.index) (reads : s.fwReads l.unit = true)
    (tries : Tbl.get 0 (s.snpOf l.unit).tries e.index < 3) : s.leafVerdict n l = (s.readAgain l.unit e.index q).laneGo l.unit := by
  have bad' : e.digest ≠ (s.popped l.unit q).leafOf l e.index := bad
  have reads' := (s.popped_fwReads q hu).trans reads
  simp only [readAgain]
  simp only [popped] at bad' reads' ⊢
  simp only [leafVerdict, oldest, Nat.not_le.mpr inTable, if_false]
  rw [if_neg bad', reads', Bool.and_true, if_pos (decide_eq_true tries)]

end

theorem ite_snp {a b : State} {x : Tbl SnpSt} {p : Prop} {_ : Decidable p} (ha : a.snp = x) (hb : b.snp = x) :
    (if p then a else b).snp = x := by
  split <;> assumption

/-- A service opportunity of a channel changes no snoop unit. -/
theorem pumpCh_snp (s : State) (c : Nat) : (s.pumpCh c).snp = s.snp := by
  have pins (t : State) : (t.takePins c).snp = t.snp := ite_snp rfl rfl
  have rest (t : State) : (t.chanRest c).snp = t.snp := ite_snp rfl (ite_snp rfl rfl)
  unfold pumpCh
  dsimp only
  refine ite_snp rfl ?_
  split
  · split
    · exact ite_snp (rest _) rfl
    · exact rest _
  · exact ite_snp rfl ((pins _).trans (ite_snp rfl rfl))

/-- While a block is to be read again, a READ has not ended. -/
theorem laneGo_of_reread (s : State) {u : Nat} (hu : u < 6) (again : (s.snpOf u).reread ≠ []) : s.laneGo u = s.pumpCh u := by
  simp only [laneGo, Nat.not_le.mpr hu, if_false, List.isEmpty_eq_false_iff.mpr again, Bool.and_false, Bool.false_and, Bool.false_eq_true]

end State

/-! Writes of fields at different places, in turn -/

/-- Fields are written in turn, each with its value. -/
def State.writeAll (s : State) (l : List (Fld × Nat)) : State := l.foldl (fun s x => s.wr x.1 x.2) s

namespace State

theorem writeAll_shown (s : State) (l : List (Fld × Nat)) : Shown (l.map Prod.fst) s (s.writeAll l) :=
  List.foldlRecOn l _ (Shown.refl _ s) fun _ k _ hx => k.wr (List.mem_map_of_mem hx)

/-- Each field reads what was written there. -/
theorem rd_writeAll (s : State) (l : List (Fld × Nat)) (places : l.Pairwise fun x y => x.1.keyOf ≠ y.1.keyOf) (x : Fld × Nat) (hx : x ∈ l) :
    (s.writeAll l).rd x.1 = x.2 % 2 ^ x.1.width := by
  induction l generalizing s with
  | nil => cases hx
  | cons y l ih =>
    obtain ⟨apart, places⟩ := List.pairwise_cons.mp places
    rcases List.mem_cons.mp hx with rfl | hx
    · refine (((s.wr x.1 x.2).writeAll_shown l).fields x.1 fun f hf => ?_).trans (rd_wr_same _ _ _)
      obtain ⟨z, hz, rfl⟩ := List.mem_map.mp hf
      exact (apart z hz).symm
    · exact ih (s.wr y.1 y.2) places hx

/-! STAGE_CMD.ARM (R227) -/

theorem snpOf_setSnp_ne (s : State) (u : Nat) (x : SnpSt) (v : Nat) (h : v ≠ u) : (s.setSnp u x).snpOf v = s.snpOf v := Tbl.get_put_ne _ _ _ _ _ h

/-- Lane H of unit `u` with the window of the page in force latched and no block taken. -/
def latched (s : State) (u table : Nat) : SnpSt :=
  { s.snpOf u with
    base := s.cfg (Reg.SNP.STAGE_BASE u) * 4096, size := s.cfg (Reg.SNP.STAGE_SIZE u) * 4096, alg := s.cfg (Reg.SNP.MODE_STAGE_ALG u),
    block := if s.cfgb (Reg.SNP.MODE_STAGE_BLOCK u) then 4096 else 1024, leafTable := table, cur := none, counted := [], waiting := [],
    unseen := [] }

end State

/-- What ARM writes: counters at 0, the failure pair, ARMED. -/
def armWrites (u : Nat) : List (Fld × Nat) :=
  [(Reg.SNP.STAGE_OK u, 0), (Reg.SNP.STAGE_FAIL u, 0), (Reg.SNP.STAGE_UNSEEN u, 0), (Reg.SNP.STAGE_FIRST_FAIL u, 0xFFFFFFFF),
    (Reg.SNP.STAGE_MATCH u, matchNOK), (Reg.SNP.STAGE_MATCH_N u, matchOK), (Reg.SNP.STAGE_STATUS_DISARM_CAUSE u, 0),
    (Reg.SNP.STAGE_STATUS_ARMED u, 1)]

theorem armWrites_places : ∀ u, u < 6 → (armWrites u).Pairwise fun x y => x.1.keyOf ≠ y.1.keyOf := by decide

/-- What DISARM with cause `c` writes: the failure pair, and its event. -/
def disarmWrites (u c : Nat) : List (Fld × Nat) :=
  [(Reg.SNP.STAGE_STATUS_ARMED u, 0), (Reg.SNP.STAGE_STATUS_DISARM_CAUSE u, c), (Reg.SNP.STAGE_MATCH u, matchNOK),
    (Reg.SNP.STAGE_MATCH_N u, matchOK), (Reg.SNP.LANE_STATUS_H_BUSY u, 0), (Hdr.EVENT pgSNP 9, 1)]

theorem disarmWrites_places : ∀ u, u < 6 → (disarmWrites u 1).Pairwise fun x y => x.1.keyOf ≠ y.1.keyOf := by decide

/-- DISARM leaves the counters alone: they are frozen (R229). -/
theorem disarmWrites_counters : ∀ u, u < 6 → ∀ f ∈ (disarmWrites u 1).map Prod.fst, f.keyOf ≠ (Reg.SNP.STAGE_OK u).keyOf
    ∧ f.keyOf ≠ (Reg.SNP.STAGE_FAIL u).keyOf ∧ f.keyOf ≠ (Reg.SNP.STAGE_UNSEEN u).keyOf := by decide

namespace State

theorem armLaneH_eq (s : State) (u table : Nat) : s.armLaneH u table = (s.setSnp u (s.latched u table)).writeAll (armWrites u) := rfl

theorem disarmLaneH_armed (s : State) (u c : Nat) (armed : s.armed u = true) :
    s.disarmLaneH u c = (s.setSnp u { s.snpOf u with cur := none, waiting := [] }).writeAll (disarmWrites u c) := if_pos armed

end State

theorem exec_snpArm_inside (s : State) (u : Fin 6) (a : Nat) (free : s.ready pgSNP (0x4C + 0x40 * u.val) = true) (inside : State.inSram a 1 = true) :
    exec (.snpArm u a) s = .next (s.armLaneH u a) :=
  (exec_cmd_ready s (.snpArm u a) pgSNP (0x4C + 0x40 * u.val) (State.startSnpArm u a) rfl free nofun nofun).trans
    (congrArg Host.Outcome.next (if_pos inside))

theorem exec_snpDisarm_ready (s : State) (u : Fin 6) (free : s.ready pgSNP (0x4C + 0x40 * u.val) = true) :
    exec (.snpDisarm u) s = .next (if s.armed u then s.disarmLaneH u 1 else s.refuse pgSNP 0x40 (0x4C + 0x40 * u)) :=
  exec_cmd_ready s (.snpDisarm u) pgSNP (0x4C + 0x40 * u.val) (State.startSnpDisarm u) rfl free nofun nofun

/-- The state of a snoop unit is neither a memory nor a CFG value. -/
theorem Framed.setSnp (s : State) (u : Nat) (x : SnpSt) : Framed s (s.setSnp u x) := ⟨⟨rfl, rfl, rfl, rfl, rfl⟩, ⟨rfl, rfl, rfl, rfl, rfl, rfl, rfl⟩⟩

/-! The verdicts of LEAF_VERDICT -/

/-- A block has a final verdict and others of the table have none: it is counted, and the channel goes on. -/
theorem State.leafFinal_more_counted (s v : State) (n : Nat) (l : LeavesOp) (i : Nat) (good : Bool) (q : List LaneDigest) (hn : n < 4)
    (aside : Aside (s.setSnp l.unit { s.snpOf l.unit with fifo := q }) v) (fresh : i ∉ l.final) (more : l.final.length + 1 < l.count) :
    let t := (v.leafFinal n l i good).laneGo l.unit
    Framed s t ∧ (t.snpOf l.unit).fifo = q ∧ (t.dgeOf n).leaves = some { l with final := i :: l.final }
    ∧ t.rd (Reg.DGE.LEAF_BLOCKS n) = (l.final.length + 1) % 2 ^ (Reg.DGE.LEAF_BLOCKS n).width
    ∧ t.rd (Reg.DGE.LEAF_FIRST_FAIL n) = (if good then s.rd (Reg.DGE.LEAF_FIRST_FAIL n)
        else min i (s.rd (Reg.DGE.LEAF_FIRST_FAIL n)) % 2 ^ (Reg.DGE.LEAF_FIRST_FAIL n).width)
    ∧ t.rd (Reg.DGE.MATCH n) = s.rd (Reg.DGE.MATCH n) := by
  dsimp only
  rw [v.leafFinal_more n l i good fresh more]
  have counted := v.leafCounted_counted n l i good
  have go := (Aside.refl (v.leafCounted n l i good)).laneGo (c := l.unit)
  have before : v.rd (Reg.DGE.LEAF_FIRST_FAIL n) = s.rd (Reg.DGE.LEAF_FIRST_FAIL n) := aside.rd hn _
  refine ⟨((Framed.setSnp s l.unit _).trans aside.toFramed).trans (counted.toFramed.trans go.toFramed), ?_, ?_, (go.rd hn _).trans counted.blocks,
    (go.rd hn _).trans (counted.firstFail.trans (by rw [before])), (go.rd hn _).trans ((counted.rd_apart _ rfl).trans (aside.rd hn _))⟩
  · calc _ = ((v.leafCounted n l i good).snpOf l.unit).fifo := go.fifo l.unit
      _ = (v.snpOf l.unit).fifo := by rw [State.snpOf, counted.snp, ← State.snpOf]
      _ = _ := (aside.fifo l.unit).trans (congrArg SnpSt.fifo (s.snpOf_setSnp_same l.unit _))
  · rw [go.dgeOf, counted.engine]

/-- The last block of the table matches and none has failed: the operation ends with the success pair. -/
theorem State.leafFinal_last_matches (s v : State) (n : Nat) (l : LeavesOp) (i : Nat) (q : List LaneDigest) (hn : n < 4)
    (firmware : (s.dgeOf n).owner = none) (aside : Aside (s.setSnp l.unit { s.snpOf l.unit with fifo := q }) v) (fresh : i ∉ l.final)
    (last : l.final.length + 1 = l.count) (unfailed : s.rd (Reg.DGE.LEAF_FIRST_FAIL n) = 0xFFFFFFFF) :
    let t := (v.leafFinal n l i true).laneGo l.unit
    Framed s t ∧ t.dgeOf n = DgeSt.idle ∧ t.rd (Reg.DGE.MATCH n) = matchOK ∧ t.rd (Reg.DGE.MATCH_N n) = matchNOK
    ∧ t.flag (Reg.DGE.STATUS_DONE n) = true ∧ t.flag (Reg.DGE.STATUS_BUSY n) = false := by
  have counted := v.leafCounted_counted n l i true
  have success : decide ((v.leafCounted n l i true).rd (Reg.DGE.LEAF_FIRST_FAIL n) = 0xFFFFFFFF) = true :=
    decide_eq_true (counted.firstFail.trans ((aside.rd hn _).trans unfailed))
  dsimp only
  rw [v.leafFinal_last n l i true fresh last, success]
  have judged := (v.leafCounted n l i true).dgeVerdict_judged n true
  have ended := ((v.leafCounted n l i true).dgeVerdict n true).dgeEnded_ended n
  have go := (Aside.refl (((v.leafCounted n l i true).dgeVerdict n true).dgeEnded n)).laneGo (c := l.unit)
  have owner : (((v.leafCounted n l i true).dgeVerdict n true).dgeOf n).owner = none := by
    rw [judged.dgeOf, counted.engine, aside.dgeOf]
    exact firmware
  refine ⟨((Framed.setSnp s l.unit _).trans (aside.toFramed.trans counted.toFramed)).trans
      (judged.toFramed.trans (ended.toFramed.trans go.toFramed)), ?_, (go.rd hn _).trans ((ended.rd_apart _ rfl).trans judged.verdict),
    (go.rd hn _).trans ((ended.rd_apart _ rfl).trans judged.verdictN), (go.flag hn _).trans ended.done, (go.flag hn _).trans ?_⟩
  · rw [go.dgeOf, ended.engine, owner]
    rfl
  · rw [ended.busy, owner]
    rfl

/-- A block to read again: nothing of the engine has changed, and its tries count one more. -/
theorem State.readAgain_tries (s : State) (u i : Nat) (q : List LaneDigest) (hu : u < 6) :
    Aside (s.setSnp u { s.snpOf u with fifo := q }) ((s.readAgain u i q).laneGo u)
    ∧ Tbl.get 0 (((s.readAgain u i q).laneGo u).snpOf u).tries i = Tbl.get 0 (s.snpOf u).tries i + 1 := by
  have unit : (s.readAgain u i q).snpOf u = { (s.popped u q).snpOf u with
      reread := (s.snpOf u).reread ++ [i], tries := Tbl.put 0 (s.snpOf u).tries i (Tbl.get 0 (s.snpOf u).tries i + 1) } :=
    (s.popped u q).snpOf_setSnp_same u _
  have again : ((s.readAgain u i q).snpOf u).reread ≠ [] := by
    rw [unit]
    exact List.append_ne_nil_of_right_ne_nil _ (List.cons_ne_nil i [])
  refine ⟨(((s.popped_aside q hu).setSnp.wrChannel hu).queues).laneGo, ?_⟩
  rw [State.laneGo_of_reread _ hu again, State.snpOf, State.pumpCh_snp, ← State.snpOf, unit]
  exact Tbl.get_put_same _ _ _ _

/-- A final fault of a read is the channel's. -/
theorem Aside.readFailed {s t : State} {c : Nat} (h : Aside s t) (hc : c < 6) : Aside s (t.readFailed c) := (h.wrChannel hc).wrChannel hc

/-! ARM and DISARM of lane H -/

/-- ARM writes the window, the counters at 0 and the failure pair, and arms the lane. -/
theorem State.rd_armLaneH (s : State) (u : Fin 6) (table : Nat) (x : Fld × Nat) (hx : x ∈ armWrites u) :
    (s.armLaneH u table).rd x.1 = x.2 % 2 ^ x.1.width :=
  State.rd_writeAll _ _ (armWrites_places u u.isLt) x hx

theorem State.armLaneH_framed (s : State) (u table : Nat) : Framed s (s.armLaneH u table) :=
  (Framed.setSnp s u _).trans (State.writeAll_shown _ (armWrites u)).toFramed

theorem State.snpOf_armLaneH (s : State) (u table : Nat) : (s.armLaneH u table).snpOf u = s.latched u table :=
  ((State.writeAll_shown _ (armWrites u)).snpOf u).trans (s.snpOf_setSnp_same u _)

theorem State.snpOf_armLaneH_ne (s : State) (u table v : Nat) (h : v ≠ u) : (s.armLaneH u table).snpOf v = s.snpOf v :=
  ((State.writeAll_shown _ (armWrites u)).snpOf v).trans (s.snpOf_setSnp_ne u _ v h)

section

variable (s : State) (u : Fin 6) (armed : s.armed u = true)
include armed

theorem State.rd_disarmLaneH (x : Fld × Nat) (hx : x ∈ disarmWrites u 1) : (s.disarmLaneH u 1).rd x.1 = x.2 % 2 ^ x.1.width := by
  rw [s.disarmLaneH_armed u 1 armed]
  exact State.rd_writeAll _ _ (disarmWrites_places u u.isLt) x hx

theorem State.disarmLaneH_framed : Framed s (s.disarmLaneH u 1) := by
  rw [s.disarmLaneH_armed u 1 armed]
  exact (Framed.setSnp s u _).trans (State.writeAll_shown _ (disarmWrites u 1)).toFramed

theorem State.snpOf_disarmLaneH : (s.disarmLaneH u 1).snpOf u = { s.snpOf u with cur := none, waiting := [] } := by
  rw [s.disarmLaneH_armed u 1 armed]
  exact ((State.writeAll_shown _ (disarmWrites u 1)).snpOf u).trans (s.snpOf_setSnp_same u _)

/-- A field that DISARM does not write reads as before. -/
theorem State.rd_disarmLaneH_apart (g : Fld) (apart : ∀ f ∈ (disarmWrites u 1).map Prod.fst, f.keyOf ≠ g.keyOf) :
    (s.disarmLaneH u 1).rd g = s.rd g := by
  rw [s.disarmLaneH_armed u 1 armed]
  exact (State.writeAll_shown _ (disarmWrites u 1)).fields g apart

end

/-- A mismatch that is not read again leaves the engines alone, also where its third try makes it the channel's fault. -/
theorem State.missed_aside (s : State) {u : Nat} (i : Nat) (q : List LaneDigest) (hu : u < 6) :
    Aside (s.setSnp u { s.snpOf u with fifo := q })
      (if Tbl.get 0 (s.snpOf u).tries i < 3 then s.popped u q else (s.popped u q).readFailed u) :=
  .ite (s.popped_aside q hu) ((s.popped_aside q hu).readFailed hu)

/-- Settles O38: LEAVES by `startLeaves_fit`, a verdict by the block's case (match, miss, read again), lane H by what ARM and DISARM write. -/
theorem leavesAndLaneH : Obligations.LeavesAndLaneH := by
  refine ⟨fun s n a free firmware inside low high alg nonempty whole closed table => ?_,
    fun s n l e q awake firmware bound hu oldest inTable fresh unread => ⟨fun more => ?_, fun last good unfailed => ?_⟩,
    fun s n l e q awake firmware bound hu oldest inTable bad reads tries => ?_,
    fun s n h => exec_leafVerdict_idle s n h, fun s u a free inside => ?_, fun s u free => ⟨fun armed => ?_, fun unarmed => ?_⟩⟩
  · have started := (exec_leaves_ready s n a free).trans
      (congrArg Host.Outcome.next (s.startLeaves_fit n a ⟨firmware, inside, low, high, alg, nonempty, whole, closed, table⟩))
    refine ⟨fun off unbound => ?_, fun m l hm bound unit => ?_, fun pre => ?_⟩
    · have unheld : ¬ ((s.snpOf (s.leavesOp a).unit).laneI = 1 ∨ s.leavesOn (s.leavesOp a).unit = true) := by
        rw [not_or, State.leavesOn_iff]
        exact ⟨off, fun ⟨m, l, hm, bound, unit⟩ => unbound m hm l bound unit⟩
      have begun := s.leavesBound_begun n (.leaves n a) (s.leavesOp a)
      exact ⟨_, started.trans (congrArg Host.Outcome.next (if_neg unheld)), begun.leaves, begun.tries, begun.reread, begun.blocks,
        begun.firstFail, begun.verdict, begun.busy, begun.notDone, begun.runs, begun.cfg, begun.stores⟩
    · exact started.trans (congrArg Host.Outcome.next (if_pos (.inr ((s.leavesOn_iff _).mpr ⟨m, l, hm, bound, unit⟩))))
    · exact started.trans (congrArg Host.Outcome.next (if_pos (.inl pre)))
  · by_cases good : e.digest = s.leafOf l e.index
    · obtain ⟨whole, fifo, leaves, blocks, firstFail, verdict⟩ :=
        s.leafFinal_more_counted _ n l e.index true q n.isLt (s.popped_aside q hu) fresh more
      exact ⟨_, (exec_leafVerdict_firmware s n l awake firmware bound).trans
          (congrArg Host.Outcome.next (s.leafVerdict_match n l e q oldest inTable good)), fifo, leaves, blocks, fun _ => firstFail,
        fun bad => absurd good bad, verdict, whole.cfg, whole.stores⟩
    · obtain ⟨whole, fifo, leaves, blocks, firstFail, verdict⟩ :=
        s.leafFinal_more_counted _ n l e.index false q n.isLt (s.missed_aside e.index q hu) fresh more
      exact ⟨_, (exec_leafVerdict_firmware s n l awake firmware bound).trans
          (congrArg Host.Outcome.next (s.leafVerdict_miss n l e q hu oldest inTable good unread)), fifo, leaves, blocks,
        fun same => absurd same good, fun _ => firstFail, verdict, whole.cfg, whole.stores⟩
  · obtain ⟨whole, engine, verdict, verdictN, done, busy⟩ :=
      s.leafFinal_last_matches _ n l e.index q n.isLt firmware (s.popped_aside q hu) fresh last unfailed
    exact ⟨_, (exec_leafVerdict_firmware s n l awake firmware bound).trans
        (congrArg Host.Outcome.next (s.leafVerdict_match n l e q oldest inTable good)), engine, verdict, verdictN, done, busy, whole.cfg,
      whole.stores⟩
  · obtain ⟨aside, counted⟩ := s.readAgain_tries l.unit e.index q hu
    exact ⟨_, (exec_leafVerdict_firmware s n l awake firmware bound).trans
        (congrArg Host.Outcome.next (s.leafVerdict_again n l e q hu oldest inTable bad reads tries)), aside.dgeOf n, aside.rd n.isLt _,
      aside.rd n.isLt _, aside.rd n.isLt _, counted, ((Framed.setSnp s l.unit _).trans aside.toFramed).cfg⟩
  · have whole := s.armLaneH_framed u a
    have unit := s.snpOf_armLaneH u a
    have reads := s.rd_armLaneH u a
    exact ⟨_, exec_snpArm_inside s u a free inside, decide_eq_true (reads (Reg.SNP.STAGE_STATUS_ARMED u, 1) (by simp [armWrites])),
      reads (Reg.SNP.STAGE_OK u, 0) (by simp [armWrites]), reads (Reg.SNP.STAGE_FAIL u, 0) (by simp [armWrites]),
      reads (Reg.SNP.STAGE_UNSEEN u, 0) (by simp [armWrites]), reads (Reg.SNP.STAGE_FIRST_FAIL u, 0xFFFFFFFF) (by simp [armWrites]),
      reads (Reg.SNP.STAGE_MATCH u, matchNOK) (by simp [armWrites]), reads (Reg.SNP.STAGE_MATCH_N u, matchOK) (by simp [armWrites]),
      congrArg SnpSt.base unit, congrArg SnpSt.size unit, congrArg SnpSt.alg unit, congrArg SnpSt.leafTable unit, congrArg SnpSt.counted unit,
      congrArg SnpSt.waiting unit, congrArg SnpSt.unseen unit, congrArg SnpSt.cur unit, fun v _ other => s.snpOf_armLaneH_ne u a v other,
      whole.cfg, whole.stores⟩
  · have whole := s.disarmLaneH_framed u armed
    have unit := s.snpOf_disarmLaneH u armed
    have reads := s.rd_disarmLaneH u armed
    have kept := s.rd_disarmLaneH_apart u armed
    have counters := disarmWrites_counters u u.isLt
    exact ⟨_, (exec_snpDisarm_ready s u free).trans (congrArg Host.Outcome.next (if_pos armed)),
      decide_eq_false (ne_of_eq_of_ne (reads (Reg.SNP.STAGE_STATUS_ARMED u, 0) (by simp [disarmWrites])) Nat.zero_ne_one),
      reads (Reg.SNP.STAGE_STATUS_DISARM_CAUSE u, 1) (by simp [disarmWrites]), reads (Reg.SNP.STAGE_MATCH u, matchNOK) (by simp [disarmWrites]),
      reads (Reg.SNP.STAGE_MATCH_N u, matchOK) (by simp [disarmWrites]),
      decide_eq_true (reads (Hdr.EVENT pgSNP 9, 1) (by simp [disarmWrites])), congrArg SnpSt.cur unit, congrArg SnpSt.waiting unit,
      (kept _ fun f hf => (counters f hf).2.2).symm, kept _ fun f hf => (counters f hf).1, kept _ fun f hf => (counters f hf).2.1,
      whole.cfg, whole.stores⟩
  · exact (exec_snpDisarm_ready s u free).trans (congrArg Host.Outcome.next (if_neg (by rw [unarmed]; nofun)))

end Sys2Proof.Machine
end

section
/-! SUPPORT. A reason on a page (R65, R83), and what a draw of the CTR_DRBG leaves (R252). -/

namespace Sys2Proof.Machine

/-- A reason and the offset of its register are recorded on page `p`, and nothing else changes. -/
structure Reasoned (p c off : Nat) (s t : State) : Prop extends Shown [Hdr.REASON_CODE p, Hdr.REASON_OFFSET p] s t where
  code : t.rd (Hdr.REASON_CODE p) = c % 2 ^ 16
  offset : t.rd (Hdr.REASON_OFFSET p) = off % 2 ^ 16

theorem State.reasoned (s : State) (p c off : Nat) : Reasoned p c off s ((s.wr (Hdr.REASON_CODE p) c).wr (Hdr.REASON_OFFSET p) off) :=
  ⟨(Shown.refl _ s).wr.wr, (State.rd_wr_apart _ _ _ _ rfl).trans (State.rd_wr_same _ _ _), State.rd_wr_same _ _ _⟩

/-- Fields at different places have been written, each with its value, and nothing else has changed. -/
structure Written (l : List (Fld × Nat)) (s t : State) : Prop extends Shown (l.map Prod.fst) s t where
  reads : ∀ x ∈ l, t.rd x.1 = x.2 % 2 ^ x.1.width

theorem State.writeAll_written (s : State) (l : List (Fld × Nat)) (places : l.Pairwise (fun x y => x.1.keyOf ≠ y.1.keyOf) := by decide) :
    Written l s (s.writeAll l) := ⟨s.writeAll_shown l, s.rd_writeAll l places⟩

namespace Written

variable {l : List (Fld × Nat)} {s t : State} (h : Written l s t)
include h

theorem on {f : Fld} (hf : (f, 1) ∈ l := by decide) (bit : f.width = 1 := by rfl) : t.flag f = true := by
  simp [State.flag, h.reads _ hf, bit]

theorem off {f : Fld} (hf : (f, 0) ∈ l := by decide) : t.flag f = false := by
  simp [State.flag, h.reads _ hf]

theorem kept {g : Fld} (apart : ∀ f ∈ l.map Prod.fst, f.keyOf ≠ g.keyOf := by decide) : t.rd g = s.rd g := h.fields g apart

theorem flagKept {g : Fld} (apart : ∀ f ∈ l.map Prod.fst, f.keyOf ≠ g.keyOf := by decide) : t.flag g = s.flag g :=
  congrArg (fun n => decide (n = 1)) (h.kept apart)

end Written

/-- A draw changes the free source, the requests served, and on a reseed its count. -/
theorem State.draw_rest (s : State) (n : Nat) :
    (s.draw n).1 = { s with regs := (s.draw n).1.regs, free := (s.draw n).1.free, rng := (s.draw n).1.rng } := by
  unfold State.draw
  dsimp only
  split <;> rfl

theorem State.draw_bytes (s : State) (n : Nat) : (s.draw n).2 = s.freeBytes n := (s.draw_free n).2.1

/-- Before 65,536 requests have been served, a draw counts one more. -/
theorem State.draw_early (s : State) (n : Nat) (early : s.rng.requests < 65536) :
    (s.draw n).1.regs = s.regs ∧ (s.draw n).1.rng.requests = s.rng.requests + 1 := by
  unfold State.draw
  dsimp only
  rw [if_neg (Nat.not_le.mpr early)]
  exact ⟨rfl, rfl⟩

/-- After them it begins with a reseed. -/
theorem State.draw_due (s : State) (n : Nat) (due : 65536 ≤ s.rng.requests) :
    (s.draw n).1.regs = s.reseed.regs ∧ (s.draw n).1.rng.requests = 1 := by
  unfold State.draw
  dsimp only
  rw [if_pos due]
  exact ⟨rfl, rfl⟩

end Sys2Proof.Machine
end

section
/-! O42: the entropy source (R194, R250-R253). -/

namespace Sys2Proof.Machine

theorem exec_gen_ready (s : State) (a : Nat) (free : s.ready pgRNG 0x44 = true) : exec (.gen a) s = .next (State.startGen a s) :=
  exec_cmd_ready s (.gen a) pgRNG 0x44 (State.startGen a) rfl free nofun nofun

theorem exec_restart_ready (s : State) (free : s.ready pgRNG 0x44 = true) : exec .restart s = .next s.startRestart :=
  exec_cmd_ready s .restart pgRNG 0x44 State.startRestart rfl free nofun nofun

/-- The descriptor of GEN and its output lie in main SRAM, and the length is within its bounds (R252). -/
structure GenFit (s : State) (a : Nat) : Prop where
  inside : State.inSram a 8 = true
  low : 1 ≤ s.sramLe (a + 4) 4
  high : s.sramLe (a + 4) 4 ≤ 4096
  output : State.inSram (s.sramLe a 4) (s.sramLe (a + 4) 4) = true

namespace State

variable (s : State) (a : Nat)

theorem startGen_unfit (h : inSram a 8 = false ∨ s.sramLe (a + 4) 4 = 0 ∨ 4096 < s.sramLe (a + 4) 4) :
    startGen a s = s.refuse pgRNG Reason.FIELD_RANGE 0x44 := by
  refine if_pos ?_
  rcases h with outside | empty | long
  · simp [outside]
  · simp [empty]
  · simp [long]

/-- A fit GEN is refused, waits or draws (R251-R253). -/
theorem startGen_fit (h : GenFit s a) : startGen a s =
    if s.rngFailed then (s.wr (Hdr.REASON_CODE pgRNG) rngUNAVAILABLE).wr (Hdr.REASON_OFFSET pgRNG) 0x44
    else if s.rngServes = false then s.setCmdSlot pgRNG 0x44 { s.cmdSlot pgRNG 0x44 with queued := some (.gen a) }
    else (s.draw (s.sramLe (a + 4) 4)).1.sramStore (s.sramLe a 4) (s.freeBytes (s.sramLe (a + 4) 4)) := by
  have nonempty : s.sramLe (a + 4) 4 ≠ 0 := Nat.one_le_iff_ne_zero.mp h.low
  unfold startGen
  dsimp only
  rw [if_neg (by simp [h.inside, nonempty, h.high, h.output]), draw_bytes]
  simp only [Bool.not_eq_true']

/-- A health failure is counted (R250, R253). -/
def healthCounted : State :=
  { (s.bump Reg.RNG.HEALTH_FAIL_COUNT).raise pgRNG 8 with rng := { s.rng with fails := s.rng.fails + 1 } }

/-- What the third failure of a collection writes: the source is FAILED, the masks of the vault stall (R194, R253). -/
def failWrites : List (Fld × Nat) :=
  [(Reg.RNG.STATUS_STATE, 2), (Reg.RNG.STATUS_READY, 0), (Hdr.EVENT pgRNG 9, 1), (Reg.KVT.STATUS_MASK_STALL, 1), (Hdr.EVENT pgKVT 13, 1)]

theorem exec_healthFail_counts (main : s.power.mainOn = true) (works : s.rngFailed = false) : exec .healthFail s = .next
    (if s.rng.fails + 1 < 3 then s.healthCounted else (s.healthCounted.writeAll failWrites).cmdEnd pgRNG 0x44) :=
  congrArg Host.Outcome.next (if_neg (by simp [main, works]))

theorem exec_healthFail_ignored (h : s.power.mainOn = false ∨ s.rngFailed = true) : exec .healthFail s = .next s :=
  congrArg Host.Outcome.next (if_pos (by rcases h with off | failed <;> simp [*]))

theorem exec_reseed_runs (up : s.up = true) (runs : s.rd Reg.RNG.STATUS_STATE = 1) : exec .reseed s = .next s.reseed :=
  congrArg Host.Outcome.next (if_pos (by simp [up, runs]))

/-- What RNG_READY writes (R194, R251, R253). -/
def readyWrites : List (Fld × Nat) := [(Reg.RNG.STATUS_STATE, 1), (Reg.RNG.STATUS_READY, 1), (Reg.KVT.STATUS_MASK_STALL, 0)]

/-- The CTR_DRBG is instantiated and a RESTART has ended; what waited has not gone on yet. -/
def instantiated : State := { (s.writeAll readyWrites).cmdEnd pgRNG 0x44 with rng := ⟨0, 0⟩ }

theorem exec_rngReady_startup (up : s.up = true) (starts : s.rd Reg.RNG.STATUS_STATE = 0) :
    exec .rngReady s = .next s.instantiated.goOn :=
  congrArg Host.Outcome.next (if_pos (by simp [up, starts]))

end State

/-- A GEN in service writes the bytes that it drew. -/
theorem gen_serves (s : State) (out n : Nat) :
    let t := (s.draw n).1.sramStore out (s.freeBytes n)
    t.sram = Mem.store 0 s.sram out (s.freeBytes n) ∧ (s.rng.requests < 65536 → t.rng.requests = s.rng.requests + 1 ∧ t.regs = s.regs)
    ∧ (65536 ≤ s.rng.requests → t.rng.requests = 1
      ∧ t.rd Reg.RNG.RESEED_COUNT = min (s.rd Reg.RNG.RESEED_COUNT + 1) (2 ^ Reg.RNG.RESEED_COUNT.width - 1)
      ∧ sameFieldsBut [Reg.RNG.RESEED_COUNT] s t ∧ sameCfg s t)
    ∧ t.retention = s.retention ∧ t.flash = s.flash ∧ t.otp = s.otp ∧ t.nvm = s.nvm := by
  have drawn := s.draw_redrawn n
  have early := s.draw_early n
  have due := s.draw_due n
  obtain ⟨sram, retention, flash, mbox, tcm, otp, nvm⟩ := drawn.stores
  have stored : sameCfg (s.draw n).1 ((s.draw n).1.sramStore out (s.freeBytes n)) := sameCfg_of_regs rfl
  refine ⟨congrArg (Mem.store 0 · out _) sram, fun few => ⟨(early few).2, (early few).1⟩,
    fun many => ⟨(due many).2, ?_, drawn.fields, sameCfg_trans drawn.cfg stored⟩, retention, flash, otp, nvm⟩
  exact (State.rd_of_regs (s := s.reseed) (due many).1 _).trans (s.rd_bump_same _)

/-- A health failure has been counted, and no more. -/
structure FailureCounted (s t : State) : Prop extends OnlyFields [Reg.RNG.HEALTH_FAIL_COUNT, Hdr.EVENT pgRNG 8] s t where
  fails : t.rng.fails = s.rng.fails + 1
  count : t.rd Reg.RNG.HEALTH_FAIL_COUNT = min (s.rd Reg.RNG.HEALTH_FAIL_COUNT + 1) (2 ^ Reg.RNG.HEALTH_FAIL_COUNT.width - 1)
  event : t.raised pgRNG 8 = true

theorem State.healthCounted_counted (s : State) : FailureCounted s s.healthCounted where
  toOnlyFields := ((OnlyFields.refl _ s).wr (f := Reg.RNG.HEALTH_FAIL_COUNT) |>.wr (f := Hdr.EVENT pgRNG 8) (v := 1)).outside
  fails := rfl
  count := (State.rd_wr_apart _ _ _ _ rfl).trans (s.rd_bump_same _)
  event := State.flag_wr_one _ _ rfl

/-- Settles O42: GEN by its three cases, the health failures by their number, the rest by the fields that each writes. -/
theorem entropySource : Obligations.EntropySource := by
  refine ⟨fun s a free inside low high output => ?_, fun s a free unfit => ?_, fun s free => ?_, fun s main works => ?_,
    fun s h => s.exec_healthFail_ignored h, fun s up runs => ?_, fun s up starts => ?_⟩
  · have started := (exec_gen_ready s a free).trans (congrArg Host.Outcome.next (s.startGen_fit a ⟨inside, low, high, output⟩))
    refine ⟨fun works serves => ⟨_, ?_, gen_serves s _ _⟩, fun works waits => ?_, fun failed => ?_⟩
    · rw [started, works, serves]
      rfl
    · rw [started, works, waits]
      rfl
    · have reason := s.reasoned pgRNG rngUNAVAILABLE 0x44
      rw [failed] at started
      exact ⟨_, started, reason.code, reason.cfg, reason.stores, rfl, reason.fields⟩
  · have reason := s.reasoned pgRNG (pgRNG * 256 + Reason.FIELD_RANGE) 0x44
    exact ⟨_, (exec_gen_ready s a free).trans (congrArg Host.Outcome.next (s.startGen_unfit a unfit)), reason.code, reason.cfg, reason.stores⟩
  · have begun := s.writeAll_written [(Reg.RNG.STATUS_STATE, 0), (Reg.RNG.STATUS_READY, 0)]
    have only : OnlyFields [Reg.RNG.STATUS_STATE, Reg.RNG.STATUS_READY] s s.startRestart := begun.toOnlyFields.outside
    exact ⟨_, exec_restart_ready s free, begun.reads (Reg.RNG.STATUS_STATE, 0) (by decide), begun.off,
      congrArg CmdSlot.running (State.cmdSlot_setCmdSlot_same _ _ _ _), rfl, only.cfg, only.stores, only.fields⟩
  · have started := s.exec_healthFail_counts main works
    have counted := s.healthCounted_counted
    by_cases third : s.rng.fails + 1 < 3
    · exact ⟨_, started.trans (congrArg Host.Outcome.next (if_pos third)), counted.fails, counted.count, counted.event,
        fun _ => ⟨(congrArg (fun n => decide (n = 2)) (counted.rd_apart _ rfl)).trans works, counted.rd_apart _ rfl⟩,
        fun many => absurd third (Nat.not_lt.mpr many), counted.cfg, counted.stores⟩
    · have failed := s.healthCounted.writeAll_written State.failWrites
      have whole : Framed s ((s.healthCounted.writeAll State.failWrites).cmdEnd pgRNG 0x44) := counted.toFramed.trans failed.toFramed.setCmdSlot
      exact ⟨_, started.trans (congrArg Host.Outcome.next (if_neg third)),
        (congrArg (fun x : State => x.rng.fails) failed.rest).trans counted.fails,
        failed.kept.trans counted.count, failed.flagKept.trans counted.event, fun few => absurd few third,
        fun _ => ⟨decide_eq_true (failed.reads (Reg.RNG.STATUS_STATE, 2) (by decide)), failed.off, failed.on,
          congrArg not failed.off, failed.on⟩, whole.cfg, whole.stores⟩
  · have only : OnlyFields [Reg.RNG.RESEED_COUNT] s s.reseed := ((OnlyFields.refl _ s).wr (f := Reg.RNG.RESEED_COUNT)).outside
    exact ⟨_, s.exec_reseed_runs up runs, rfl, s.rd_bump_same _, only.fields, only.cfg, only.stores⟩
  · have ready := s.writeAll_written State.readyWrites
    have only : OnlyFields (State.readyWrites.map Prod.fst) s s.instantiated := ready.toOnlyFields.outside
    exact ⟨_, s.exec_rngReady_startup up starts, ready.reads (Reg.RNG.STATUS_STATE, 1) (by decide), ready.on, congrArg not ready.on,
      congrArg CmdSlot.running (State.cmdSlot_setCmdSlot_same _ _ _ _), rfl, only.fields, only.cfg, only.stores⟩

end Sys2Proof.Machine
end

section
/-! SUPPORT. How the vault fills its cache for an engine (R193, R194), how a capture waits, and how a data key register is shown (R236). -/

namespace Sys2Proof.Machine

namespace Written

/-- A one-bit field reads as the flag that was written. -/
theorem flagIs {l : List (Fld × Nat)} {s t : State} (h : Written l s t) {f : Fld} {b : Bool} (hf : (f, b2n b) ∈ l) (bit : f.width = 1 := by rfl) :
    t.flag f = b := by
  cases b
  · exact h.off hf
  · exact h.on hf bit

end Written

/-- Fields of different places have been cleared in turn. -/
theorem State.foldl_clear_written (s : State) (fld : Nat → Fld)
    (places : ((List.range 8).map fun i => (fld i, 0)).Pairwise fun x y => x.1.keyOf ≠ y.1.keyOf) :
    Written ((List.range 8).map fun i => (fld i, 0)) s ((List.range 8).foldl (fun s i => s.wr (fld i) 0) s) := by
  have same : (List.range 8).foldl (fun s i => s.wr (fld i) 0) s = s.writeAll ((List.range 8).map fun i => (fld i, 0)) := by
    rw [State.writeAll, List.foldl_map]
  exact same ▸ s.writeAll_written _ places

/-- The cache has taken up a value: slots, engines and command registers are as they were. -/
structure Filled (s t : State) : Prop extends OnlyFields [Reg.KVT.CACHE_MISSES, Reg.RNG.RESEED_COUNT] s t where
  rest : t = { s with regs := t.regs, free := t.free, rng := t.rng, vault := t.vault }
  slots : t.vault.slots = s.vault.slots

theorem State.cachePut_filled (s : State) (i : Nat) (v : BitVec 384) (pin : Bool) : Filled s (s.cachePut i v pin) := by
  have slots := congrArg VaultSt.slots (s.draw_redrawn 48).vault
  have only : OnlyFields [Reg.KVT.CACHE_MISSES, Reg.RNG.RESEED_COUNT] s (s.draw 48).1 := (s.draw_redrawn 48).toOnlyFields.mono
  exact ⟨only.outside, congrArg (fun u : State => { u with vault := (s.cachePut i v pin).vault }) (s.draw_rest 48), slots⟩

theorem State.cacheFill_filled (s : State) (i : Nat) : Filled s (s.cacheFill i) := by
  unfold State.cacheFill
  split
  · exact ⟨(OnlyFields.refl _ s).outside, rfl, rfl⟩
  · have put := (s.bump Reg.KVT.CACHE_MISSES).cachePut_filled i (s.keyOf i) false
    generalize (s.bump Reg.KVT.CACHE_MISSES).cachePut i (s.keyOf i) false = t at put
    have counted : OnlyFields [Reg.KVT.CACHE_MISSES, Reg.RNG.RESEED_COUNT] s (s.bump Reg.KVT.CACHE_MISSES) := (OnlyFields.refl _ s).wr
    exact ⟨counted.trans put.toOnlyFields, put.rest, put.slots⟩

theorem Filled.slot {s t : State} (h : Filled s t) (j : Nat) : t.slot j = s.slot j := by rw [State.slot, State.slot, h.slots]

/-- A capture that waits for a mask shows it (R194). -/
structure Stalled (s t : State) : Prop extends Shown [Reg.KVT.STATUS_MASK_STALL, Hdr.EVENT pgKVT 13] s t where
  shows : s.maskStalled = true → t.flag Reg.KVT.STATUS_MASK_STALL = true ∧ t.raised pgKVT 13 = true

theorem State.maskStall_stalled (s : State) : Stalled s s.maskStall := by
  unfold State.maskStall
  split
  · have shown := s.writeAll_written [(Reg.KVT.STATUS_MASK_STALL, 1), (Hdr.EVENT pgKVT 13, 1)]
    exact ⟨shown.toShown, fun _ => ⟨shown.on, shown.on⟩⟩
  · next serves => exact ⟨Shown.refl _ s, fun stalled => absurd stalled serves⟩

/-- What DKR_STATUS of engine `e` shows of a data key. -/
def dkrWrites (e : Nat) (k : Dkr) : List (Fld × Nat) :=
  [(Reg.AES.DKR_STATUS_LOADED e, b2n k.loaded), (Reg.AES.DKR_STATUS_ATTR e, k.keyAttr), (Reg.AES.DKR_STATUS_SOURCE e, k.kind),
    (Reg.AES.DKR_STATUS_SLOT e, k.source.getD 0)]

theorem dkrWrites_places (e : Fin 2) (k : Dkr) : (dkrWrites e k).Pairwise fun x y => x.1.keyOf ≠ y.1.keyOf := by
  have places : ∀ e : Fin 2, ((dkrWrites e Dkr.empty).map Prod.fst).Pairwise fun f g => f.keyOf ≠ g.keyOf := by decide
  exact (List.pairwise_map (R := fun f g : Fld => f.keyOf ≠ g.keyOf) (f := Prod.fst) (l := dkrWrites e k)).mp (places e)

/-- The data key register of engine `e` holds `k` and shows it; nothing else of the engine, and no other engine, has changed. -/
structure DkrHeld (e : Fin 2) (k : Dkr) (s t : State) : Prop extends OnlyFields ((dkrWrites e k).map Prod.fst) s t where
  engine : t.aesOf e = { s.aesOf e with dkr := k }
  others : ∀ m, m ≠ e.val → t.aesOf m = s.aesOf m
  loaded : t.flag (Reg.AES.DKR_STATUS_LOADED e) = k.loaded
  attr : t.rd (Reg.AES.DKR_STATUS_ATTR e) = k.keyAttr % 4
  source : t.rd (Reg.AES.DKR_STATUS_SOURCE e) = k.kind % 4
  slotShown : t.rd (Reg.AES.DKR_STATUS_SLOT e) = k.source.getD 0 % 512
  rest : t = { s with regs := t.regs, aes := t.aes }

theorem State.aesOf_setAes_same (s : State) (e : Nat) (x : AesSt) : (s.setAes e x).aesOf e = x := Tbl.get_put_same _ _ _ _

theorem State.aesOf_setAes_ne (s : State) (e : Nat) (x : AesSt) (m : Nat) (h : m ≠ e) : (s.setAes e x).aesOf m = s.aesOf m :=
  Tbl.get_put_ne _ _ _ _ _ h

theorem State.showDkr_held (s : State) (e : Fin 2) (k : Dkr) : DkrHeld e k s (s.showDkr e k) := by
  have shown := (s.setAes e { s.aesOf e with dkr := k }).writeAll_written (dkrWrites e k) (dkrWrites_places e k)
  have held : OnlyFields ((dkrWrites e k).map Prod.fst) s (s.setAes e { s.aesOf e with dkr := k }) := (OnlyFields.refl _ s).outside
  constructor
  case toOnlyFields => exact held.trans shown.toOnlyFields
  case engine => exact s.aesOf_setAes_same e _
  case others => exact fun m other => s.aesOf_setAes_ne e _ m other
  case loaded => exact shown.flagIs List.mem_cons_self
  case attr => exact shown.reads (Reg.AES.DKR_STATUS_ATTR e, k.keyAttr) (by simp [dkrWrites])
  case source => exact shown.reads (Reg.AES.DKR_STATUS_SOURCE e, k.kind) (by simp [dkrWrites])
  case slotShown => exact shown.reads (Reg.AES.DKR_STATUS_SLOT e, k.source.getD 0) (by simp [dkrWrites])
  case rest => rfl

end Sys2Proof.Machine
end

section
/-! O40: the data key registers (R194, R202-R205, R236). -/

namespace Sys2Proof.Machine

theorem exec_loadRef_ready (s : State) (e : Fin 2) (a sl : Nat) (free : s.ready pgAES (State.dkrCmdOff e) = true) :
    exec (.loadRef e a sl) s = .next (State.startLoadRef e a sl s) :=
  exec_cmd_ready s (.loadRef e a sl) pgAES (State.dkrCmdOff e) (State.startLoadRef e a sl) rfl free nofun nofun

theorem exec_loadKey_ready (s : State) (e : Fin 2) (a : Nat) (free : s.ready pgAES (State.dkrCmdOff e) = true) :
    exec (.loadKey e a) s = .next (State.startLoadKey e a s) :=
  exec_cmd_ready s (.loadKey e a) pgAES (State.dkrCmdOff e) (State.startLoadKey e a) rfl free nofun nofun

theorem exec_dkrClear_ready (s : State) (e : Fin 2) (free : s.ready pgAES (State.dkrCmdOff e) = true) :
    exec (.dkrClear e) s = .next (State.startDkrClear e s) :=
  exec_cmd_ready s (.dkrClear e) pgAES (State.dkrCmdOff e) (State.startDkrClear e) rfl free nofun nofun

namespace State

/-- What LOAD_REF puts into a data key register: 32 bytes of the value of slot `sl` and what its key may be used for (R236). -/
def refDkr (s : State) (sl : Nat) : Dkr :=
  ⟨true, (digestBytes ((s.cacheFill sl).keyOf sl)).take 32, (s.slot sl).keyAttr, 1, some sl, (s.slot sl).gen⟩

/-- LOAD_REF of a usable cipher key waits or loads it. -/
theorem startLoadRef_usable (s : State) (e : Fin 2) (a sl : Nat) (idle : s.aesBusy e = false) (usable : s.captureFault sl = (s, none))
    (cipher : (s.slot sl).keyAttr = atENC ∨ (s.slot sl).keyAttr = atDEC) : startLoadRef e a sl s =
      if s.captureWaits sl then
        s.maskStall.setCmdSlot pgAES (dkrCmdOff e) { s.cmdSlot pgAES (dkrCmdOff e) with queued := some (.loadRef e a sl) }
      else (s.cacheFill sl).showDkr e (s.refDkr sl) := by
  have fits : (decide ((s.slot sl).keyAttr ≠ atENC) && decide ((s.slot sl).keyAttr ≠ atDEC)) = false := by
    rcases cipher with enc | dec
    · rw [enc]; rfl
    · rw [dec]; rfl
  simp only [startLoadRef, idle, usable, fits, Bool.false_eq_true, if_false]
  rfl

theorem captureWaits_of_stalled (s : State) (sl : Nat)
    (h : s.maskStalled = true ∨ (s.brace = true ∧ ∀ c ∈ s.vault.cache, c.slot ≠ sl)) : s.captureWaits sl = true := by
  rcases h with stalled | ⟨brace, absent⟩
  · simp [captureWaits, stalled]
  · have uncached : s.cached sl = none := List.find?_eq_none.mpr fun c hc => by simpa using absent c hc
    simp [captureWaits, brace, uncached]

end State

/-- LOAD_REF has waited for the vault: it is queued, and a stall shows. -/
theorem loadRef_waits (s : State) (e : Fin 2) (i : Instr) :
    let t := s.maskStall.setCmdSlot pgAES (State.dkrCmdOff e) { s.cmdSlot pgAES (State.dkrCmdOff e) with queued := some i }
    t.cmdSlot pgAES (State.dkrCmdOff e) = { s.cmdSlot pgAES (State.dkrCmdOff e) with queued := some i }
    ∧ (s.maskStalled = true → t.flag Reg.KVT.STATUS_MASK_STALL = true ∧ t.raised pgKVT 13 = true) ∧ t.aes = s.aes ∧ t.vault = s.vault
    ∧ sameCfg s t ∧ sameStores s t := by
  have stalled := s.maskStall_stalled
  have framed := stalled.toFramed.setCmdSlot (p := pgAES) (off := State.dkrCmdOff e) (c := { s.cmdSlot pgAES (State.dkrCmdOff e) with queued := some i })
  have aes : s.maskStall.aes = s.aes := (congrArg State.aes stalled.rest :)
  exact ⟨State.cmdSlot_setCmdSlot_same _ _ _ _, stalled.shows, aes, stalled.vault, framed.cfg, framed.stores⟩

theorem keyWords_places : ∀ e : Fin 2, ((List.range 8).map fun i => (Reg.AES.KEY (8 * e + i), 0)).Pairwise fun x y => x.1.keyOf ≠ y.1.keyOf := by
  decide

theorem State.clearKeyWords_written (s : State) (e : Fin 2) :
    Written ((List.range 8).map fun i => (Reg.AES.KEY (8 * e + i), 0)) s (s.clearKeyWords e) :=
  s.foldl_clear_written (fun i => Reg.AES.KEY (8 * e + i)) (keyWords_places e)

/-- The key words lie apart from what shows the data key. -/
theorem keyWords_apart_dkr : ∀ e : Fin 2, ∀ g ∈ [Reg.AES.DKR_STATUS_LOADED e, Reg.AES.DKR_STATUS_SOURCE e],
    ∀ f ∈ ((List.range 8).map fun i => (Reg.AES.KEY (8 * e + i), 0)).map Prod.fst, f.keyOf ≠ g.keyOf := by decide

theorem cleared_mem (fld : Nat → Fld) {i : Nat} (hi : i < 8) : (fld i, 0) ∈ (List.range 8).map fun i => (fld i, 0) :=
  List.mem_map_of_mem (f := fun i => (fld i, 0)) (List.mem_range.mpr hi)

/-- The key that LOAD_KEY takes from the key words (R236). -/
def State.wordDkr (s : State) (e a : Nat) : Dkr := ⟨true, s.keyWords e, a % 4, 2, none, 0⟩

theorem State.startLoadKey_idle (s : State) (e : Fin 2) (a : Nat) (idle : s.aesBusy e = false) :
    State.startLoadKey e a s = (s.showDkr e (s.wordDkr e a)).clearKeyWords e := if_neg (by rw [idle]; nofun)

theorem State.startDkrClear_idle (s : State) (e : Fin 2) (idle : s.aesBusy e = false) : State.startDkrClear e s = s.showDkr e Dkr.empty :=
  if_neg (by rw [idle]; nofun)

/-- What LOAD_KEY leaves: the data key is held, the key words are cleared. -/
theorem wordDkr_held (s : State) (e : Fin 2) (k : Dkr) :
    let t := (s.showDkr e k).clearKeyWords e
    (t.aesOf e).dkr = k ∧ (∀ i, i < 8 → t.rd (Reg.AES.KEY (8 * e + i)) = 0) ∧ t.flag (Reg.AES.DKR_STATUS_LOADED e) = k.loaded
    ∧ t.rd (Reg.AES.DKR_STATUS_SOURCE e) = k.kind % 4 ∧ sameCfg s t ∧ sameStores s t := by
  have held := s.showDkr_held e k
  generalize s.showDkr e k = u at held
  have cleared := u.clearKeyWords_written e
  have whole := held.toFramed.trans cleared.toFramed
  have apart := keyWords_apart_dkr e
  have engine : (u.clearKeyWords e).aesOf e = u.aesOf e := (congrArg (fun u : State => u.aesOf e) cleared.rest :)
  exact ⟨congrArg AesSt.dkr (engine.trans held.engine), fun i hi => (cleared.reads _ (cleared_mem _ hi)).trans (Nat.zero_mod _),
    (cleared.flagKept (apart _ (by simp))).trans held.loaded, (cleared.kept (apart _ (by simp))).trans held.source, whole.cfg, whole.stores⟩

/-- A DKR command on a busy engine is refused, and the data key stays (R203). -/
theorem exec_dkr_busy (s : State) (e : Fin 2) (a sl : Nat) (c : Instr) (hc : c = .loadRef e a sl ∨ c = .loadKey e a ∨ c = .dkrClear e)
    (free : s.ready pgAES (State.dkrCmdOff e) = true) (busy : s.aesBusy e = true) : exec c s = .next (s.dkrRefuse e aeKEY_IN_USE) := by
  rcases hc with rfl | rfl | rfl
  · exact (exec_loadRef_ready s e a sl free).trans (congrArg Host.Outcome.next (if_pos busy))
  · exact (exec_loadKey_ready s e a free).trans (congrArg Host.Outcome.next (if_pos busy))
  · exact (exec_dkrClear_ready s e free).trans (congrArg Host.Outcome.next (if_pos busy))

/-- The fields that KEY_CLEAR_TIMEOUT clears for interface `e`: the key words of an AES engine or of MSEC (R236). -/
def interfaceKey (e i : Nat) : Fld := if e < 2 then Reg.AES.KEY (8 * e + i) else Reg.MSEC.KEY i

theorem interfaceKey_places : ∀ e : Fin 3, ((List.range 8).map fun i => (interfaceKey e i, 0)).Pairwise fun x y => x.1.keyOf ≠ y.1.keyOf := by decide

theorem exec_keyClearTimeout (s : State) (e : Fin 3) :
    exec (.keyClearTimeout e) s = .next ((List.range 8).foldl (fun s i => s.wr (interfaceKey e i) 0) s) := by
  have cases : exec (.keyClearTimeout e) s = .next (if e.val < 2 then s.clearKeyWords e.val
    else (List.range 8).foldl (fun s i => s.wr (Reg.MSEC.KEY i) 0) s) := rfl
  rw [cases]
  by_cases aes : e.val < 2
  · simp only [interfaceKey, aes, if_true]
    rfl
  · simp only [interfaceKey, aes, if_false]

/-- Settles O40: LOAD_REF by whether its capture waits, the key words as fields cleared in turn. -/
theorem dataKeyRegisters : Obligations.DataKeyRegisters := by
  refine ⟨fun s e a sl free idle usable cipher serves => ?_, fun s e a sl free idle usable cipher waits => ?_, fun s e a free idle => ?_,
    fun s e free idle => ?_, fun s e a sl c hc free busy => ?_, fun s e => ?_⟩
  · have filled := s.cacheFill_filled sl
    have held := (s.cacheFill sl).showDkr_held e (s.refDkr sl)
    have whole := filled.toFramed.trans held.toFramed
    have attr : (s.slot sl).keyAttr % 4 = (s.slot sl).keyAttr := by
      rcases cipher with enc | dec
      · rw [enc]; rfl
      · rw [dec]; rfl
    refine ⟨_, (exec_loadRef_ready s e a sl free).trans (congrArg Host.Outcome.next ((s.startLoadRef_usable e a sl idle usable cipher).trans
      (if_neg (by rw [serves]; nofun)))), congrArg AesSt.dkr held.engine, held.loaded, held.attr.trans attr, held.source, held.slotShown, ?_,
      whole.cfg, whole.stores⟩
    have other : 1 - e.val ≠ e.val := by omega
    have kept : (s.cacheFill sl).aesOf (1 - e.val) = s.aesOf (1 - e.val) := (congrArg (fun u : State => u.aesOf (1 - e.val)) filled.rest :)
    exact (held.others _ other).trans kept
  · exact ⟨_, (exec_loadRef_ready s e a sl free).trans (congrArg Host.Outcome.next ((s.startLoadRef_usable e a sl idle usable cipher).trans
      (if_pos (s.captureWaits_of_stalled sl waits)))), loadRef_waits s e (.loadRef e a sl)⟩
  · exact ⟨_, (exec_loadKey_ready s e a free).trans (congrArg Host.Outcome.next (s.startLoadKey_idle e a idle)),
      wordDkr_held s e (s.wordDkr e a)⟩
  · have held := s.showDkr_held e Dkr.empty
    exact ⟨_, (exec_dkrClear_ready s e free).trans (congrArg Host.Outcome.next (s.startDkrClear_idle e idle)), congrArg AesSt.dkr held.engine,
      held.loaded, held.cfg, held.stores⟩
  · have reason := s.reasoned pgAES (pgAES * 256 + aeKEY_IN_USE) (State.dkrCmdOff e)
    have fits : State.dkrCmdOff e % 2 ^ 16 = State.dkrCmdOff e := Nat.mod_eq_of_lt (by simp only [State.dkrCmdOff]; omega)
    exact ⟨_, exec_dkr_busy s e a sl c hc free busy, rfl, reason.code, reason.offset.trans fits, reason.cfg, reason.stores, reason.fields⟩
  · have cleared := s.foldl_clear_written (interfaceKey e) (interfaceKey_places e)
    have fields := cleared.fields
    rw [List.map_map] at fields
    exact ⟨_, exec_keyClearTimeout s e, fun i hi => (cleared.reads _ (cleared_mem _ hi)).trans (Nat.zero_mod _), (congrArg State.aes cleared.rest :),
      (congrArg State.sas cleared.rest :), fields, cleared.cfg, cleared.stores⟩

end Sys2Proof.Machine
end

section
/-! SUPPORT. How an operation of the PKE begins and ends (R191, R244), a key register (R245), and a value that the vault takes (R193). -/

namespace Sys2Proof.Machine

namespace State

/-- A capture changes the vault at most. -/
theorem slotUse_vault (s : State) (o : Option Nat) : ∃ v, s.slotUse o = { s with vault := v } ∧ (o = none → v = s.vault) := by
  unfold slotUse
  split
  · exact ⟨s.vault, rfl, fun _ => rfl⟩
  · dsimp only
    split
    · exact ⟨_, rfl, nofun⟩
    · exact ⟨s.vault, rfl, fun _ => rfl⟩

/-- What the PKE shows when an operation begins: BUSY, and for VERIFY a cleared pair (R244, R249). -/
def pkeBeginWrites (op : Nat) : List (Fld × Nat) :=
  (if op = 1 then [(Reg.PKE.VERIFY_MATCH, 0), (Reg.PKE.VERIFY_MATCH_N, 0)] else []) ++ [(Reg.PKE.STATUS_BUSY, 1), (Reg.PKE.STATUS_DONE, 0)]

/-- Command `i` starts operation `op` with descriptor `d` and a key of slot `sl`. -/
def pkeBegin (s : State) (op : Nat) (d : List Byte) (i : Instr) (sl : Option Nat) : State :=
  (({ s.slotUse sl with pke := { s.pke with run := some (op, d), keySlot := sl, revoked := none } } : State).writeAll (pkeBeginWrites op)).cmdStart
    pgPKE 0x44 i

end State

/-- Operation `op` with descriptor `d` runs on the PKE. -/
structure PkeBegun (op : Nat) (d : List Byte) (i : Instr) (sl : Option Nat) (s t : State) : Prop extends Framed s t where
  pke : t.pke = { s.pke with run := some (op, d), keySlot := sl, revoked := none }
  busy : t.flag Reg.PKE.STATUS_BUSY = true
  notDone : t.flag Reg.PKE.STATUS_DONE = false
  cleared : op = 1 → t.rd Reg.PKE.VERIFY_MATCH = 0 ∧ t.rd Reg.PKE.VERIFY_MATCH_N = 0
  runs : (t.cmdSlot pgPKE 0x44).running = some i
  vault : sl = none → t.vault = s.vault

theorem State.pkeBegin_begun (s : State) (op : Nat) (d : List Byte) (i : Instr) (sl : Option Nat) :
    PkeBegun op d i sl s (s.pkeBegin op d i sl) := by
  obtain ⟨v, used, same⟩ := s.slotUse_vault sl
  unfold State.pkeBegin
  rw [used]
  have taken : Framed s { s with vault := v, pke := { s.pke with run := some (op, d), keySlot := sl, revoked := none } } :=
    ⟨sameCfg_of_regs rfl, ⟨rfl, rfl, rfl, rfl, rfl, rfl, rfl⟩⟩
  generalize held : ({ s with vault := v, pke := { s.pke with run := some (op, d), keySlot := sl, revoked := none } } : State) = u at taken
  have places : (State.pkeBeginWrites op).Pairwise fun x y => x.1.keyOf ≠ y.1.keyOf := by
    by_cases verify : op = 1
    · rw [verify]; decide
    · rw [State.pkeBeginWrites, if_neg verify]; decide
  have shown := u.writeAll_written (State.pkeBeginWrites op) places
  have pke := (congrArg State.pke shown.rest :)
  constructor
  case toFramed => exact taken.trans shown.toFramed.setCmdSlot
  case pke => exact Eq.trans pke (congrArg State.pke held.symm)
  case busy => exact shown.on (by simp [State.pkeBeginWrites])
  case notDone => exact shown.off (by simp [State.pkeBeginWrites])
  case cleared =>
    exact fun verify => ⟨shown.reads (Reg.PKE.VERIFY_MATCH, 0) (by simp [State.pkeBeginWrites, verify]),
      shown.reads (Reg.PKE.VERIFY_MATCH_N, 0) (by simp [State.pkeBeginWrites, verify])⟩
  case runs => exact congrArg CmdSlot.running (State.cmdSlot_setCmdSlot_same _ _ _ _)
  case vault => exact fun keyless => shown.vault.trans ((congrArg State.vault held.symm).trans (same keyless))

/-- What shows that an operation of the PKE has ended. -/
def pkeEndWrites : List (Fld × Nat) := [(Reg.PKE.STATUS_BUSY, 0), (Reg.PKE.STATUS_DONE, 1), (Hdr.EVENT pgPKE 8, 1)]

/-- The PKE is idle: only the key slot of its operation, its command and what shows the end have changed. -/
structure PkeFreed (s t : State) : Prop extends OnlyFields (pkeEndWrites.map Prod.fst) s t where
  pke : t.pke = { s.pke with run := none, keySlot := none, revoked := none }
  busy : t.flag Reg.PKE.STATUS_BUSY = false
  done : t.flag Reg.PKE.STATUS_DONE = true
  event : t.raised pgPKE 8 = true
  idle : (t.cmdSlot pgPKE 0x44).running = none
  slot : ∀ j, s.pke.keySlot ≠ some j → t.slot j = s.slot j
  ecdhOut : t.ecdhOut = s.ecdhOut
  sram : t.sram = s.sram

theorem State.pkeIdle_freed (s : State) : PkeFreed s s.pkeIdle := by
  obtain ⟨v, released, slots⟩ := s.slotRelease_vault s.pke.keySlot
  unfold State.pkeIdle
  dsimp only
  rw [released] at slots ⊢
  have freed : OnlyFields (pkeEndWrites.map Prod.fst) s { s with vault := v, pke := { s.pke with run := none, keySlot := none, revoked := none } } :=
    (OnlyFields.refl _ s).outside
  have shown := State.writeAll_written { s with vault := v, pke := { s.pke with run := none, keySlot := none, revoked := none } } pkeEndWrites
  constructor
  case toOnlyFields => exact (freed.trans shown.toOnlyFields).setCmdSlot
  case pke => exact (congrArg State.pke shown.rest :)
  case busy => exact shown.off
  case done => exact shown.on
  case event => exact shown.on
  case idle => exact congrArg CmdSlot.running (State.cmdSlot_setCmdSlot_same _ _ _ _)
  case slot => exact slots
  case ecdhOut => exact (congrArg State.ecdhOut shown.rest :)
  case sram => exact (congrArg State.sram shown.rest :)

/-- Key register `r` holds `k` and shows it. -/
structure KeyHeld (r : Nat) (k : KeyReg) (s t : State) : Prop extends Framed s t where
  pke : t.pke = { s.pke with regs := Tbl.put KeyReg.empty s.pke.regs r k }
  alg : t.rd (Reg.PKE.KEYREG_ALG r) = k.alg % 8
  ephemeral : t.flag (Reg.PKE.KEYREG_EPHEMERAL r) = k.ephemeral
  rest : t = { s with regs := t.regs, pke := t.pke }

theorem State.setKeyReg_held (s : State) (r : Nat) (k : KeyReg) : KeyHeld r k s (s.setKeyReg r k) where
  toFramed := by
    have put : Framed s { s with pke := { s.pke with regs := Tbl.put KeyReg.empty s.pke.regs r k } } :=
      ⟨sameCfg_of_regs rfl, ⟨rfl, rfl, rfl, rfl, rfl, rfl, rfl⟩⟩
    exact put.wr.wr.wr
  pke := rfl
  alg := (State.rd_wr_apart _ _ _ _ rfl).trans ((State.rd_wr_apart _ _ _ _ rfl).trans (State.rd_wr_same _ _ _))
  ephemeral := (State.flag_wr_apart _ _ _ _ rfl).trans (State.flag_wr_bit _ _ _ rfl)
  rest := rfl

theorem KeyHeld.same {r : Nat} {k : KeyReg} {s t : State} (h : KeyHeld r k s t) : t.keyReg r = k := by
  rw [State.keyReg, h.pke]
  exact Tbl.get_put_same _ _ _ _

theorem KeyHeld.others {r : Nat} {k : KeyReg} {s t : State} (h : KeyHeld r k s t) {x : Nat} (other : x ≠ r) : t.keyReg x = s.keyReg x := by
  rw [State.keyReg, h.pke]
  exact Tbl.get_put_ne _ _ _ _ _ other

/-- A value that the vault takes changes nothing outside it but the CTR_DRBG. -/
theorem State.vaultResult_rest (s : State) (t p a : Nat) (label v : BitVec 384) : let u := s.vaultResult t p a label v
    u = { s with regs := u.regs, free := u.free, rng := u.rng, vault := u.vault } := (State.cachePut_filled _ t v true).rest

/-- The end of an operation of firmware whose result stands in a state that has changed no CFG value, no flash, no OTP and no NVM. -/
theorem PkeFreed.ended {s t u : State} (h : PkeFreed t u) (cfg : sameCfg s t) (flash : t.flash = s.flash) (otp : t.otp = s.otp)
    (nvm : t.nvm = s.nvm) : Sys2Proof.pkeEnded s u := by
  obtain ⟨-, -, flash', -, -, otp', nvm'⟩ := h.stores
  exact ⟨congrArg PkeSt.run h.pke, congrArg PkeSt.keySlot h.pke, h.busy, h.done, h.event, h.idle, flash'.trans flash, otp'.trans otp,
    nvm'.trans nvm, sameCfg_trans cfg h.cfg⟩

theorem PkeFreed.endedFramed {s t u : State} (h : PkeFreed t u) (k : Framed s t) : Sys2Proof.pkeEnded s u :=
  have ⟨_, _, flash, _, _, otp, nvm⟩ := k.stores
  h.ended k.cfg flash otp nvm

/-- What is shown after the end leaves it. -/
theorem pkeEnded_shown {l : List Fld} {s t u : State} (h : Sys2Proof.pkeEnded s t) (k : Shown l t u)
    (apart : ∀ g ∈ pkeEndWrites.map Prod.fst, ∀ f ∈ l, f.keyOf ≠ g.keyOf := by decide) : Sys2Proof.pkeEnded s u := by
  obtain ⟨run, slot, busy, done, event, idle, flash, otp, nvm, cfg⟩ := h
  have kept : ∀ g ∈ pkeEndWrites.map Prod.fst, u.flag g = t.flag g := fun g hg =>
    congrArg (fun n => decide (n = 1)) (k.fields g (apart g hg))
  have pke : u.pke = t.pke := (congrArg State.pke k.rest :)
  obtain ⟨-, -, flash', -, -, otp', nvm'⟩ := k.stores
  exact ⟨(congrArg PkeSt.run pke).trans run, (congrArg PkeSt.keySlot pke).trans slot, (kept _ (by decide)).trans busy,
    (kept _ (by decide)).trans done, (kept _ (by decide)).trans event, (congrArg CmdSlot.running (k.cmdSlot _ _)).trans idle, flash'.trans flash,
    otp'.trans otp, nvm'.trans nvm, sameCfg_trans cfg k.cfg⟩

/-- A withdrawn key is recorded on page `p`, raises its event and is counted (R191). -/
structure RevokedShown (p c off : Nat) (s t : State) : Prop
    extends Shown [Hdr.REASON_CODE p, Hdr.REASON_OFFSET p, Hdr.EVENT pgKVT 10, Reg.KVT.REVOKED_IN_USE_COUNT] s t where
  code : t.rd (Hdr.REASON_CODE p) = (pgKVT * 256 + c) % 2 ^ 16
  event : t.raised pgKVT 10 = true

theorem State.revokedEnd_shown (s : State) (p c off : Nat) : RevokedShown p c off s (s.revokedEnd p c off) where
  toShown := (Shown.refl _ s).wr.wr.wr.wr
  code := by
    have reason := (s.reasoned p (pgKVT * 256 + c) off).code
    exact (State.rd_wr_apart _ _ _ _ rfl).trans ((State.rd_wr_apart _ _ _ _ rfl).trans reason)
  event := (State.flag_wr_apart _ _ _ _ rfl).trans (State.flag_wr_one _ _ rfl)

end Sys2Proof.Machine
end

section
/-! O41: the public-key engine (R191, R244-R249). -/

namespace Sys2Proof.Machine

/-! An operation begins -/

/-- The commands of the PKE by their operation (R244). -/
def pkeCmds (a : Nat) : List (Nat × Instr) := [(1, .verify a), (2, .sign a), (3, .genkey a), (4, .ecdh a), (5, .pkeClear a)]

theorem exec_pke_ready (s : State) (op a : Nat) (i : Instr) (h : (op, i) ∈ pkeCmds a) (free : s.ready pgPKE 0x44 = true) :
    exec i s = .next (State.startPke op a i s) := by
  simp only [pkeCmds, List.mem_cons, Prod.mk.injEq, List.not_mem_nil, or_false] at h
  rcases h with ⟨rfl, rfl⟩ | ⟨rfl, rfl⟩ | ⟨rfl, rfl⟩ | ⟨rfl, rfl⟩ | ⟨rfl, rfl⟩
  · exact exec_cmd_ready s _ pgPKE 0x44 _ rfl free nofun nofun
  · exact exec_cmd_ready s _ pgPKE 0x44 _ rfl free nofun nofun
  · exact exec_cmd_ready s _ pgPKE 0x44 _ rfl free nofun nofun
  · exact exec_cmd_ready s _ pgPKE 0x44 _ rfl free nofun nofun
  · exact exec_cmd_ready s _ pgPKE 0x44 _ rfl free nofun nofun

namespace State

/-- A begin as `startPke` writes it out. -/
theorem pkeBegin_eq (s : State) (op : Nat) (d : List Byte) (i : Instr) (sl : Option Nat) : s.pkeBegin op d i sl =
    (((if op = 1 then
        (({ s.slotUse sl with pke := { s.pke with run := some (op, d), keySlot := sl, revoked := none } } : State).wr Reg.PKE.VERIFY_MATCH 0).wr
          Reg.PKE.VERIFY_MATCH_N 0
      else { s.slotUse sl with pke := { s.pke with run := some (op, d), keySlot := sl, revoked := none } }).wr Reg.PKE.STATUS_BUSY 1).wr
      Reg.PKE.STATUS_DONE 0).cmdStart pgPKE 0x44 i := by
  by_cases verify : op = 1
  · rw [pkeBegin, pkeBeginWrites, if_pos verify, if_pos verify]
    rfl
  · rw [pkeBegin, pkeBeginWrites, if_neg verify, if_neg verify]
    rfl

variable (s : State) (op a : Nat) (i : Instr) (idle : (s.sched 2).running = none)
include idle

/-- A command with a fault is refused (R244-R248). -/
theorem startPke_faulty (c : Nat) (fault : s.pkeFault op a = some c) : startPke op a i s = s.pkeRefuse c := by
  simp only [startPke, idle, fault, Option.isSome_none, Bool.false_eq_true, if_false]

variable (fit : s.pkeFault op a = none)
include fit

/-- GENKEY from a seed slot takes its value into the cache and begins (R246). -/
theorem startPke_seed (sl : Nat) (seed : fieldLe (s.sramBytes a 32) 2 1 = 0) (at' : fieldLe (s.sramBytes a 32) 4 2 = sl) (op3 : op = 3)
    (usable : s.captureFault sl = (s, none)) (derives : (s.slot sl).keyAttr = atDERIVE) (serves : s.captureWaits sl = false) :
    startPke op a i s = (s.cacheFill sl).pkeBegin op (s.sramBytes a 32) i (some sl) := by
  subst op3
  simp only [startPke, idle, fit, seed, at', usable, derives, serves, Option.isSome_none, Bool.false_eq_true, if_false]
  rfl

/-- Every other command begins with the key that its operation takes. -/
theorem startPke_fit (key : ¬ (op = 3 ∧ fieldLe (s.sramBytes a 32) 2 1 = 0)) (target : op = 4 → fieldLe (s.sramBytes a 32) 2 1 = 1 →
      s.ecdhFault (fieldLe (s.sramBytes a 32) 4 2) ((s.keyReg (fieldLe (s.sramBytes a 32) 1 1)).source.getD 0) = none) :
    startPke op a i s =
      s.pkeBegin op (s.sramBytes a 32) i (if op = 2 ∨ op = 4 then (s.keyReg (fieldLe (s.sramBytes a 32) 1 1)).source else none) := by
  have seedless : ¬ (decide (op = 3) && decide (fieldLe (s.sramBytes a 32) 2 1 = 0)) = true := by simpa using key
  unfold startPke
  dsimp only
  rw [idle, fit, if_neg nofun, pkeBegin_eq]
  dsimp only
  rw [if_neg seedless]
  by_cases vault : op = 4 ∧ fieldLe (s.sramBytes a 32) 2 1 = 1
  · obtain ⟨ecdh, toVault⟩ := vault
    rw [if_pos (by simp [ecdh, toVault]), target ecdh toVault, if_pos (Or.inr ecdh)]
  · rw [if_neg (by simpa using vault)]
    simp only [Bool.or_eq_true, decide_eq_true_eq]

/-- ECDH to a vault slot that is unfit as a child is refused (R187, R248). -/
theorem startPke_unfit (v : Bool) (c : Nat) (ecdh : op = 4) (toVault : fieldLe (s.sramBytes a 32) 2 1 = 1)
    (unfit : s.ecdhFault (fieldLe (s.sramBytes a 32) 4 2) ((s.keyReg (fieldLe (s.sramBytes a 32) 1 1)).source.getD 0) = some (v, c)) :
    startPke op a i s = (((s.wr (Hdr.REASON_CODE pgPKE) ((if v then pgKVT else pgPKE) * 256 + c)).wr (Hdr.REASON_OFFSET pgPKE) 0x44).cmdEnd
      pgPKE 0x44) := by
  subst ecdh
  cases v
  · simp only [startPke, idle, fit, toVault, unfit, Option.isSome_none, Bool.false_eq_true, if_false]
    rfl
  · simp only [startPke, idle, fit, toVault, unfit, Option.isSome_none, Bool.false_eq_true, if_false]
    rfl

end State

/-- A begun operation is one that its command has started from `s`. -/
theorem PkeBegun.started {op a : Nat} {i : Instr} {src : Option Nat} {s u t : State} (h : PkeBegun op (s.sramBytes a 32) i src u t)
    (framed : Framed s u) (pke : u.pke = s.pke) (vault : src = none → u.vault = s.vault) : Sys2Proof.pkeStarted s t op a i src := by
  have whole := framed.trans h.toFramed
  exact ⟨pke ▸ h.pke, h.busy, h.notDone, h.cleared, h.runs, fun keyless => (h.vault keyless).trans (vault keyless), whole.cfg, whole.stores⟩

/-- A command whose operation takes no seed slot starts it. -/
theorem exec_pke_starts (s : State) (op a : Nat) (i : Instr) (h : (op, i) ∈ pkeCmds a) (free : s.ready pgPKE 0x44 = true)
    (idle : (s.sched 2).running = none) (fit : s.pkeFault op a = none) (key : ¬ (op = 3 ∧ fieldLe (s.sramBytes a 32) 2 1 = 0))
    (target : op = 4 → fieldLe (s.sramBytes a 32) 2 1 = 1 →
      s.ecdhFault (fieldLe (s.sramBytes a 32) 4 2) ((s.keyReg (fieldLe (s.sramBytes a 32) 1 1)).source.getD 0) = none) :
    ∃ t, exec i s = .next t
      ∧ Sys2Proof.pkeStarted s t op a i (if op = 2 ∨ op = 4 then (s.keyReg (fieldLe (s.sramBytes a 32) 1 1)).source else none) :=
  ⟨_, (exec_pke_ready s op a i h free).trans (congrArg Host.Outcome.next (s.startPke_fit op a i idle fit key target)),
    (s.pkeBegin_begun op _ i _).started (Framed.refl s) rfl fun _ => rfl⟩

/-! An operation ends -/

namespace State

variable (s : State) (op : Nat) (d : List Byte)

theorem exec_pkeDone_run (run : s.pke.run = some (op, d)) (awake : s.brace = false) : exec .pkeDone s = .next s.pkeFinish.pumpPke.goOn := by
  have ends : s.pkeEnds = s.pkeFinish.pumpPke.goOn := by
    unfold pkeEnds
    rw [if_neg (by rw [awake]; nofun), if_pos (by rw [run]; rfl)]
  exact congrArg Host.Outcome.next ends

theorem exec_pkeDone_brace (brace : s.brace = true) : exec .pkeDone s = .next s := congrArg Host.Outcome.next (if_pos brace)

section

variable (run : s.pke.run = some (op, d))
include run

theorem pkeFinish_revoked (c : Nat) (gone : s.pke.revoked = some c) :
    s.pkeFinish = ((if op = 2 ∨ op = 4 then s.setKeyReg (fieldLe d 1 1) KeyReg.empty else s).pkeIdle).revokedEnd pgPKE c 0x44 := by
  simp only [pkeFinish, run, gone, Bool.or_eq_true, decide_eq_true_eq]

theorem pkeFinish_kept (kept : s.pke.revoked = none) : s.pkeFinish =
    if op = 1 then s.verifyDone d else if op = 2 then s.signDone d else if op = 3 then s.genkeyDone d else if op = 4 then s.ecdhDone d
    else (s.setKeyReg (fieldLe d 1 1) KeyReg.empty).pkeIdle := by
  simp only [pkeFinish, run, kept]

end

section

variable (works : s.rngFailed = false) (serves : s.rngServes = true)
include works serves

theorem signDone_error (c : Nat)
    (fails : signChecked (fieldLe d 0 1) (s.keyReg (fieldLe d 1 1)).seed (s.sramBytes (fieldLe d 0x0C 4) (pkeMsgLen d)) (s.pkeCtx d)
      (s.freeBytes (signRandom (fieldLe d 0 1))) = .error c) :
    s.signDone d = (s.draw (signRandom (fieldLe d 0 1))).1.pkeIdle.refuse pgPKE c 0x44 := by
  simp only [signDone, works, serves, draw_bytes, fails, Bool.not_true, Bool.false_eq_true, if_false]

theorem signDone_signs (sig : List Byte)
    (signs : signChecked (fieldLe d 0 1) (s.keyReg (fieldLe d 1 1)).seed (s.sramBytes (fieldLe d 0x0C 4) (pkeMsgLen d)) (s.pkeCtx d)
      (s.freeBytes (signRandom (fieldLe d 0 1))) = .ok sig) :
    s.signDone d = ((s.draw (signRandom (fieldLe d 0 1))).1.sramStore (fieldLe d 0x10 4) sig).pkeIdle := by
  simp only [signDone, works, serves, draw_bytes, signs, Bool.not_true, Bool.false_eq_true, if_false]

theorem genkeyDone_ephemeral (drawn : fieldLe d 2 1 ≠ 0) : s.genkeyDone d = (s.draw 48).1.genkeyTo d (s.freeBytes 48) none := by
  simp only [genkeyDone, drawn, works, serves, draw_bytes, Bool.not_true, Bool.false_eq_true, if_false]

end

theorem ecdhDone_invalid (h : Config.ecdhPointOk (s.sramBytes (fieldLe d 8 4) 97) = false
      ∨ Config.ecdhSecret (s.keyReg (fieldLe d 1 1)).seed (s.sramBytes (fieldLe d 8 4) 97) = 0) :
    s.ecdhDone d = s.pkeIdle.refuse pgPKE pkPOINT_INVALID 0x44 :=
  if_pos (by rcases h with bad | zero <;> simp [*])

section

variable (point : Config.ecdhPointOk (s.sramBytes (fieldLe d 8 4) 97) = true)
  (secret : Config.ecdhSecret (s.keyReg (fieldLe d 1 1)).seed (s.sramBytes (fieldLe d 8 4) 97) ≠ 0)
include point secret

theorem ecdhDone_session (session : fieldLe d 2 1 = 0) : s.ecdhDone d = State.pkeIdle { s with
    ecdhOut := Tbl.put 0 s.ecdhOut (fieldLe d 0x18 4) (Config.ecdhSecret (s.keyReg (fieldLe d 1 1)).seed (s.sramBytes (fieldLe d 8 4) 97)) } := by
  unfold ecdhDone
  dsimp only
  rw [if_neg (by simpa [point] using secret), if_pos session]

theorem ecdhDone_vault (toVault : fieldLe d 2 1 ≠ 0) (serves : s.rngServes = true) (free : s.slotFree (fieldLe d 4 2) = true) :
    s.ecdhDone d = (s.vaultResult (fieldLe d 4 2) ((s.keyReg (fieldLe d 1 1)).source.getD 0) atDERIVE 0
      (Config.ecdhSecret (s.keyReg (fieldLe d 1 1)).seed (s.sramBytes (fieldLe d 8 4) 97))).pkeIdle := by
  unfold ecdhDone
  dsimp only
  rw [if_neg (by simpa [point] using secret), if_neg toVault, if_neg (by simp [serves]), if_pos free]

end

end State

/-- GENKEY ends with the key in its register and its public key in main SRAM. -/
structure KeyMade (d : List Byte) (k : KeyReg) (s t : State) : Prop where
  key : t.keyReg (fieldLe d 1 1) = k
  alg : t.rd (Reg.PKE.KEYREG_ALG (fieldLe d 1 1)) = k.alg % 8
  ephemeral : t.flag (Reg.PKE.KEYREG_EPHEMERAL (fieldLe d 1 1)) = k.ephemeral
  sram : t.sram = Mem.store 0 s.sram (fieldLe d 8 4) (pubKey k.alg k.seed)
  others : ∀ r, r ≠ fieldLe d 1 1 → t.keyReg r = s.keyReg r
  ended : Sys2Proof.pkeEnded s t

theorem keyReg_apart_end : ∀ r : Fin 8, ∀ g ∈ [Reg.PKE.KEYREG_ALG r, Reg.PKE.KEYREG_EPHEMERAL r], ∀ f ∈ pkeEndWrites.map Prod.fst,
    f.keyOf ≠ g.keyOf := by decide

/-- The key goes to its register, its public key to main SRAM, and the operation ends. -/
def State.makeKey (s : State) (d : List Byte) (k : KeyReg) : State :=
  ((s.setKeyReg (fieldLe d 1 1) k).sramStore (fieldLe d 8 4) (pubKey k.alg k.seed)).pkeIdle

theorem State.makeKey_made {s t : State} (framed : Framed s t) (pke : t.pke = s.pke) (d : List Byte) (k : KeyReg) (low : fieldLe d 1 1 < 8) :
    KeyMade d k s (t.makeKey d k) := by
  have held := t.setKeyReg_held (fieldLe d 1 1) k
  have freed := ((t.setKeyReg (fieldLe d 1 1) k).sramStore (fieldLe d 8 4) (pubKey k.alg k.seed)).pkeIdle_freed
  have whole := framed.trans held.toFramed
  obtain ⟨sram, -, flash, -, -, otp, nvm⟩ := whole.stores
  have apart := keyReg_apart_end ⟨_, low⟩
  have regs (r : Nat) : (t.makeKey d k).keyReg r = (t.setKeyReg (fieldLe d 1 1) k).keyReg r :=
    (congrArg (fun x : PkeSt => Tbl.get KeyReg.empty x.regs r) freed.pke :)
  have stored : sameCfg (t.setKeyReg (fieldLe d 1 1) k) ((t.setKeyReg (fieldLe d 1 1) k).sramStore (fieldLe d 8 4) (pubKey k.alg k.seed)) :=
    sameCfg_of_regs rfl
  constructor
  case key => exact (regs _).trans held.same
  case alg => exact (freed.fields _ (apart _ (by simp))).trans held.alg
  case ephemeral =>
    exact (congrArg (fun n => decide (n = 1)) (freed.fields (Reg.PKE.KEYREG_EPHEMERAL (fieldLe d 1 1)) (apart _ (by simp)))).trans held.ephemeral
  case sram => exact freed.sram.trans (congrArg (fun m => Mem.store 0 m (fieldLe d 8 4) (pubKey k.alg k.seed)) sram)
  case others => exact fun r other => (regs r).trans ((held.others other).trans (congrArg (fun x : PkeSt => Tbl.get KeyReg.empty x.regs r) pke))
  case ended => exact freed.ended (sameCfg_trans whole.cfg stored) flash otp nvm

theorem State.genkeyTo_slot (s : State) (d v : List Byte) (i : Nat) : s.genkeyTo d v (some i) =
    s.makeKey d ⟨fieldLe d 0 1, seedFrom (fieldLe d 0 1) v, false, some i, (s.slot i).gen, none⟩ := rfl

theorem State.genkeyTo_ephemeral (s : State) (d v : List Byte) : s.genkeyTo d v none =
    s.makeKey d ⟨fieldLe d 0 1, seedFrom (fieldLe d 0 1) v, true, none, 0, none⟩ := rfl

theorem PkeFreed.regs {s t : State} (h : PkeFreed s t) : t.pke.regs = s.pke.regs := (congrArg PkeSt.regs h.pke :)

theorem exec_pkeDone_kept (s : State) (op : Nat) (d : List Byte) (run : s.pke.run = some (op, d)) (kept : s.pke.revoked = none)
    (awake : s.brace = false) (u : State) (finish : (if op = 1 then s.verifyDone d else if op = 2 then s.signDone d
      else if op = 3 then s.genkeyDone d else if op = 4 then s.ecdhDone d else (s.setKeyReg (fieldLe d 1 1) KeyReg.empty).pkeIdle) = u) :
    exec .pkeDone s = .next u.pumpPke.goOn :=
  (s.exec_pkeDone_run op d run awake).trans
    (congrArg (fun u : State => Host.Outcome.next u.pumpPke.goOn) ((s.pkeFinish_kept op d run kept).trans finish))

/-- An operation without a result ends with a reason (R83). -/
theorem pkeIdle_reasoned {s t : State} (framed : Framed s t) (c : Nat) : let u := t.pkeIdle.refuse pgPKE c 0x44
    u.rd (Hdr.REASON_CODE pgPKE) = (pgPKE * 256 + c) % 2 ^ 16 ∧ u.ecdhOut = t.ecdhOut ∧ u.pke.regs = t.pke.regs ∧ Sys2Proof.pkeEnded s u
      ∧ sameStores s u := by
  have freed := t.pkeIdle_freed
  have reason := t.pkeIdle.reasoned pgPKE (pgPKE * 256 + c) 0x44
  exact ⟨reason.code, freed.ecdhOut, freed.regs, pkeEnded_shown (freed.endedFramed framed) reason.toShown,
    (framed.trans (freed.toFramed.trans reason.toFramed)).stores⟩

/-- VERIFY ends with its verdict in the pair (R249). -/
theorem verifyDone_ended (s : State) (good : Bool) :
    let u := (s.writeAll [(Reg.PKE.VERIFY_MATCH, if good then matchOK else matchNOK),
      (Reg.PKE.VERIFY_MATCH_N, if good then matchNOK else matchOK)]).pkeIdle
    u.rd Reg.PKE.VERIFY_MATCH = (if good then matchOK else matchNOK) ∧ u.rd Reg.PKE.VERIFY_MATCH_N = (if good then matchNOK else matchOK)
      ∧ u.pke.regs = s.pke.regs ∧ Sys2Proof.pkeEnded s u ∧ sameStores s u := by
  have pair := s.writeAll_written [(Reg.PKE.VERIFY_MATCH, if good then matchOK else matchNOK),
    (Reg.PKE.VERIFY_MATCH_N, if good then matchNOK else matchOK)]
    (List.pairwise_pair.mpr (by decide : Reg.PKE.VERIFY_MATCH.keyOf ≠ Reg.PKE.VERIFY_MATCH_N.keyOf))
  have freed := (s.writeAll [(Reg.PKE.VERIFY_MATCH, if good then matchOK else matchNOK),
    (Reg.PKE.VERIFY_MATCH_N, if good then matchNOK else matchOK)]).pkeIdle_freed
  have shown := pair.reads (Reg.PKE.VERIFY_MATCH, if good then matchOK else matchNOK) (by simp)
  have shownN := pair.reads (Reg.PKE.VERIFY_MATCH_N, if good then matchNOK else matchOK) (by simp)
  refine ⟨(freed.rd_apart _ rfl).trans (shown.trans ?_), (freed.rd_apart _ rfl).trans (shownN.trans ?_),
    freed.regs.trans (congrArg (fun u : State => u.pke.regs) pair.rest :), freed.endedFramed pair.toFramed, (pair.toFramed.trans freed.toFramed).stores⟩
  · cases good <;> rfl
  · cases good <;> rfl

/-- The key register of a SIGN or an ECDH whose key is withdrawn is cleared (R191). -/
def State.keyDropped (s : State) (op r : Nat) : State := if op = 2 ∨ op = 4 then s.setKeyReg r KeyReg.empty else s

/-- An operation whose key is withdrawn ends with its reason (R191). -/
theorem revokedKey_ended (s : State) (op r c : Nat) : let u := (s.keyDropped op r).pkeIdle.revokedEnd pgPKE c 0x44
    u.rd (Hdr.REASON_CODE pgPKE) = (pgKVT * 256 + c) % 2 ^ 16 ∧ u.raised pgKVT 10 = true ∧ u.ecdhOut = s.ecdhOut
      ∧ (op = 2 ∨ op = 4 → u.keyReg r = KeyReg.empty) ∧ Sys2Proof.pkeEnded s u ∧ sameStores s u := by
  have held := s.setKeyReg_held r KeyReg.empty
  have dropped : Framed s (s.keyDropped op r) ∧ (s.keyDropped op r).ecdhOut = s.ecdhOut
      ∧ (op = 2 ∨ op = 4 → (s.keyDropped op r).keyReg r = KeyReg.empty) := by
    by_cases signs : op = 2 ∨ op = 4
    · rw [State.keyDropped, if_pos signs]
      exact ⟨held.toFramed, (congrArg State.ecdhOut held.rest :), fun _ => held.same⟩
    · rw [State.keyDropped, if_neg signs]
      exact ⟨Framed.refl s, rfl, fun h => absurd h signs⟩
  generalize s.keyDropped op r = t at dropped
  obtain ⟨framed, out, emptied⟩ := dropped
  have freed := t.pkeIdle_freed
  have shown := t.pkeIdle.revokedEnd_shown pgPKE c 0x44
  have outShown : (t.pkeIdle.revokedEnd pgPKE c 0x44).ecdhOut = t.pkeIdle.ecdhOut := (congrArg State.ecdhOut shown.rest :)
  have regs : (t.pkeIdle.revokedEnd pgPKE c 0x44).pke.regs = t.pkeIdle.pke.regs := (congrArg (fun u : State => u.pke.regs) shown.rest :)
  exact ⟨shown.code, shown.event, outShown.trans (freed.ecdhOut.trans out),
    fun signs => (congrArg (fun x => Tbl.get KeyReg.empty x r) (regs.trans freed.regs)).trans (emptied signs),
    pkeEnded_shown (freed.endedFramed framed) shown.toShown, (framed.trans (freed.toFramed.trans shown.toFramed)).stores⟩

/-- Settles O41: an operation begins by `pkeBegin_begun`, and ends by `pkeIdle_freed` with what it has delivered. -/
theorem publicKeyOperation : Obligations.PublicKeyOperation := by
  refine ⟨fun s a free idle => ⟨fun fit => ?_, fun fit => ?_, fun fit drawn => ?_, fun fit seed usable derives serves => ?_,
      fun fit target => ?_, fun fit => ?_⟩, fun s op a c i cmd free idle fault => ?_, fun s a c v free idle fit toVault unfit => ?_,
    fun s d run kept awake => ?_, fun s d run kept awake works serves => ?_, fun s d run kept awake low algLow algHigh => ?_,
    fun s d run kept awake => ?_, fun s d run kept awake => ?_, fun s op c d run gone awake => ?_, fun s brace => s.exec_pkeDone_brace brace⟩
  · exact exec_pke_starts s 1 a _ (by simp [pkeCmds]) free idle fit (by simp) nofun
  · exact exec_pke_starts s 2 a _ (by simp [pkeCmds]) free idle fit (by simp) nofun
  · exact exec_pke_starts s 3 a _ (by simp [pkeCmds]) free idle fit (by simp [drawn]) nofun
  · have filled := s.cacheFill_filled (fieldLe (s.sramBytes a 32) 4 2)
    exact ⟨_, (exec_pke_ready s 3 a _ (by simp [pkeCmds]) free).trans
        (congrArg Host.Outcome.next (s.startPke_seed 3 a _ idle fit _ seed rfl rfl usable derives serves)),
      (State.pkeBegin_begun _ 3 _ _ _).started filled.toFramed (congrArg State.pke filled.rest :) nofun⟩
  · exact exec_pke_starts s 4 a _ (by simp [pkeCmds]) free idle fit (by simp) fun _ => target
  · exact exec_pke_starts s 5 a _ (by simp [pkeCmds]) free idle fit (by simp) nofun
  · have reason := s.reasoned pgPKE (pgPKE * 256 + c) 0x44
    exact ⟨_, (exec_pke_ready s op a i cmd free).trans (congrArg Host.Outcome.next (s.startPke_faulty op a i idle c fault)), reason.code, rfl,
      reason.toFramed.setCmdSlot.cfg, reason.toFramed.setCmdSlot.stores, reason.toOnlyFields.setCmdSlot.fields⟩
  · have reason := s.reasoned pgPKE ((if v then pgKVT else pgPKE) * 256 + c) 0x44
    exact ⟨_, (exec_pke_ready s 4 a _ (by simp [pkeCmds]) free).trans
        (congrArg Host.Outcome.next (s.startPke_unfit 4 a _ idle fit v c rfl toVault unfit)), reason.code, rfl, rfl,
      reason.toFramed.setCmdSlot.cfg, reason.toFramed.setCmdSlot.stores⟩
  · exact ⟨_, exec_pkeDone_kept s 1 d run kept awake _ (if_pos rfl), verifyDone_ended s _⟩
  · intro r
    have drawn := s.draw_redrawn (signRandom (fieldLe d 0 1))
    have pke : (s.draw (signRandom (fieldLe d 0 1))).1.pke = s.pke := (congrArg State.pke (s.draw_rest _) :)
    rcases checked : r with c | sig
    · obtain ⟨code, -, regs, ended, stores⟩ := pkeIdle_reasoned drawn.toFramed c
      refine ⟨_, exec_pkeDone_kept s 2 d run kept awake _ (s.signDone_error d works serves c checked), regs.trans (congrArg PkeSt.regs pke),
        ended, nofun, fun c' same => ?_⟩
      cases same
      exact ⟨code, stores⟩
    · have freed := ((s.draw (signRandom (fieldLe d 0 1))).1.sramStore (fieldLe d 0x10 4) sig).pkeIdle_freed
      obtain ⟨sram, -, flash, -, -, otp, nvm⟩ := drawn.stores
      have stored : sameCfg (s.draw (signRandom (fieldLe d 0 1))).1 ((s.draw (signRandom (fieldLe d 0 1))).1.sramStore (fieldLe d 0x10 4) sig) :=
        sameCfg_of_regs rfl
      refine ⟨_, exec_pkeDone_kept s 2 d run kept awake _ (s.signDone_signs d works serves sig checked),
        freed.regs.trans (congrArg PkeSt.regs pke), freed.ended (sameCfg_trans drawn.cfg stored) flash otp nvm, fun sig' same => ?_, nofun⟩
      cases same
      exact freed.sram.trans (congrArg (fun m => Mem.store 0 m (fieldLe d 0x10 4) sig) sram)
  · have algFits : fieldLe d 0 1 % 8 = fieldLe d 0 1 := Nat.mod_eq_of_lt (by omega)
    refine ⟨fun seed => ?_, fun ephemeral works serves => ?_⟩
    · have made := State.makeKey_made (Framed.refl s) rfl d ⟨fieldLe d 0 1, seedFrom (fieldLe d 0 1) (digestBytes (s.keyOf (fieldLe d 4 2))), false,
        some (fieldLe d 4 2), (s.slot (fieldLe d 4 2)).gen, none⟩ low
      exact ⟨_, exec_pkeDone_kept s 3 d run kept awake _ (if_pos seed), made.key, made.alg.trans algFits, made.ephemeral, made.sram, made.others,
        made.ended⟩
    · have drawn := s.draw_redrawn 48
      have made := State.makeKey_made drawn.toFramed (congrArg State.pke (s.draw_rest 48) :) d
        ⟨fieldLe d 0 1, seedFrom (fieldLe d 0 1) (s.freeBytes 48), true, none, 0, none⟩ low
      exact ⟨_, exec_pkeDone_kept s 3 d run kept awake _ (s.genkeyDone_ephemeral d works serves ephemeral), made.key, made.alg.trans algFits,
        made.ephemeral, made.sram, made.others, made.ended⟩
  · intro peer z p t
    refine ⟨fun invalid => ?_, fun point secret session => ?_, fun point secret toVault serves free other => ?_⟩
    · exact ⟨_, exec_pkeDone_kept s 4 d run kept awake _ (s.ecdhDone_invalid d invalid), pkeIdle_reasoned (Framed.refl s) pkPOINT_INVALID⟩
    · have freed := State.pkeIdle_freed { s with ecdhOut := Tbl.put 0 s.ecdhOut (fieldLe d 0x18 4) z }
      have put : Framed s { s with ecdhOut := Tbl.put 0 s.ecdhOut (fieldLe d 0x18 4) z } :=
        ⟨sameCfg_of_regs rfl, ⟨rfl, rfl, rfl, rfl, rfl, rfl, rfl⟩⟩
      exact ⟨_, exec_pkeDone_kept s 4 d run kept awake _ (s.ecdhDone_session d point secret session), freed.ecdhOut, freed.regs,
        freed.endedFramed put, (put.trans freed.toFramed).stores⟩
    · have freed := (s.vaultResult t p atDERIVE 0 z).pkeIdle_freed
      have aside := s.vaultResult_aside t p atDERIVE 0 z
      have rest := s.vaultResult_rest t p atDERIVE 0 z
      have pke : (s.vaultResult t p atDERIVE 0 z).pke = s.pke := (congrArg State.pke rest :)
      have out : (s.vaultResult t p atDERIVE 0 z).ecdhOut = s.ecdhOut := (congrArg State.ecdhOut rest :)
      have defined := (freed.slot t (by rw [pke]; exact other)).trans (s.slot_vaultResult t p atDERIVE 0 z)
      exact ⟨_, exec_pkeDone_kept s 4 d run kept awake _ (s.ecdhDone_vault d point secret toVault serves free), congrArg Slot.state defined,
        congrArg Slot.parent defined, congrArg Slot.pgen defined, congrArg Slot.depth defined, congrArg Slot.keyAttr defined,
        freed.ecdhOut.trans out, freed.regs.trans (congrArg PkeSt.regs pke), freed.endedFramed aside.toFramed,
        (aside.toFramed.trans freed.toFramed).stores⟩
  · have held := s.setKeyReg_held (fieldLe d 1 1) KeyReg.empty
    have freed := (s.setKeyReg (fieldLe d 1 1) KeyReg.empty).pkeIdle_freed
    have regs (r : Nat) : (s.setKeyReg (fieldLe d 1 1) KeyReg.empty).pkeIdle.keyReg r = (s.setKeyReg (fieldLe d 1 1) KeyReg.empty).keyReg r :=
      congrArg (fun x => Tbl.get KeyReg.empty x r) freed.regs
    exact ⟨_, exec_pkeDone_kept s 5 d run kept awake _ rfl, (regs _).trans held.same, fun r other => (regs r).trans (held.others other),
      freed.endedFramed held.toFramed, (held.toFramed.trans freed.toFramed).stores⟩
  · exact ⟨_, (s.exec_pkeDone_run op d run awake).trans
      (congrArg (fun u : State => Host.Outcome.next u.pumpPke.goOn) (s.pkeFinish_revoked op d run c gone)),
      revokedKey_ended s op (fieldLe d 1 1) c⟩

end Sys2Proof.Machine
end

section
/-! SUPPORT. How an operation of an AES engine begins and ends (R191, R204, R239), and what a store into RAM leaves. -/

namespace Sys2Proof.Machine

/-! Stores into main or retention SRAM (R238) -/

theorem State.ramStore_rest (s : State) (a : Nat) (bs : List Byte) :
    s.ramStore a bs = { s with sram := (s.ramStore a bs).sram, retention := (s.ramStore a bs).retention } := by
  unfold State.ramStore
  split <;> rfl

/-- A store depends on the memory that it changes. -/
theorem State.ramStore_congr {s t : State} (sram : t.sram = s.sram) (retention : t.retention = s.retention) (a : Nat) (bs : List Byte) :
    (t.ramStore a bs).sram = (s.ramStore a bs).sram ∧ (t.ramStore a bs).retention = (s.ramStore a bs).retention := by
  unfold State.ramStore
  split
  · exact ⟨congrArg (Mem.store 0 · a bs) sram, retention⟩
  · exact ⟨sram, congrArg (Mem.store 0 · a bs) retention⟩

/-- Only main and retention SRAM, and registers outside CFG, have changed of what is stored. -/
structure RamFramed (s t : State) : Prop where
  cfg : sameCfg s t
  flash : t.flash = s.flash
  otp : t.otp = s.otp
  nvm : t.nvm = s.nvm

theorem RamFramed.trans {s t u : State} (h : RamFramed s t) (k : RamFramed t u) : RamFramed s u :=
  ⟨sameCfg_trans h.cfg k.cfg, k.flash.trans h.flash, k.otp.trans h.otp, k.nvm.trans h.nvm⟩

theorem Framed.ram {s t : State} (h : Framed s t) : RamFramed s t :=
  have ⟨_, _, flash, _, _, otp, nvm⟩ := h.stores
  ⟨h.cfg, flash, otp, nvm⟩

theorem RamFramed.ofRest {s t : State} (regs : t.regs = s.regs) (flash : t.flash = s.flash) (otp : t.otp = s.otp) (nvm : t.nvm = s.nvm) :
    RamFramed s t := ⟨sameCfg_of_regs regs, flash, otp, nvm⟩

/-! The begin -/

/-- What an engine shows when an operation begins: BUSY, and at a part of RUN a cleared pair (R239, R240). -/
def aesBeginWrites (e : Nat) (pair : Bool) : List (Fld × Nat) :=
  [(Reg.AES.STATUS_BUSY e, 1), (Reg.AES.STATUS_DONE e, 0)] ++ if pair then [(Reg.AES.TAG_MATCH e, 0), (Reg.AES.TAG_MATCH_N e, 0)] else []

theorem aesBeginWrites_places : ∀ (e : Fin 2) (pair : Bool), (aesBeginWrites e pair).Pairwise fun x y => x.1.keyOf ≠ y.1.keyOf := by decide

/-- Engine `e` begins with state `x`, as command `i`. -/
def State.aesBegin (s : State) (e : Nat) (x : AesSt) (pair : Bool) (i : Instr) : State :=
  ((s.setAes e x).writeAll (aesBeginWrites e pair)).cmdStart pgAES (State.aesCmdOff e) i

/-- Engine `e` has begun with state `x`. -/
structure AesBegun (e : Nat) (x : AesSt) (i : Instr) (s t : State) : Prop extends Framed s t where
  engine : t.aesOf e = x
  busy : t.aesBusy e = true
  runs : (t.cmdSlot pgAES (State.aesCmdOff e)).running = some i
  vault : t.vault = s.vault

theorem State.aesBegin_begun (s : State) (e : Fin 2) (x : AesSt) (pair : Bool) (i : Instr) : AesBegun e x i s (s.aesBegin e x pair i) := by
  have shown := (s.setAes e x).writeAll_written (aesBeginWrites e pair) (aesBeginWrites_places e pair)
  have put : Framed s (s.setAes e x) := ⟨sameCfg_of_regs rfl, ⟨rfl, rfl, rfl, rfl, rfl, rfl, rfl⟩⟩
  have engine : ((s.setAes e x).writeAll (aesBeginWrites e pair)).aesOf e = (s.setAes e x).aesOf e :=
    (congrArg (fun u : State => u.aesOf e) shown.rest :)
  constructor
  case toFramed => exact put.trans shown.toFramed.setCmdSlot
  case engine => exact engine.trans (s.aesOf_setAes_same e x)
  case busy => exact shown.on (by simp [aesBeginWrites])
  case runs => exact congrArg CmdSlot.running (State.cmdSlot_setCmdSlot_same _ _ _ _)
  case vault => exact shown.vault

theorem State.aesBegin_pair (s : State) (e : Fin 2) (x : AesSt) (i : Instr) :
    (s.aesBegin e x true i).rd (Reg.AES.TAG_MATCH e) = 0 ∧ (s.aesBegin e x true i).rd (Reg.AES.TAG_MATCH_N e) = 0 := by
  have shown := (s.setAes e x).writeAll_written (aesBeginWrites e true) (aesBeginWrites_places e true)
  exact ⟨shown.reads (Reg.AES.TAG_MATCH e, 0) (by simp [aesBeginWrites]), shown.reads (Reg.AES.TAG_MATCH_N e, 0) (by simp [aesBeginWrites])⟩

/-! The end -/

/-- What an engine shows at the end of an operation. -/
def aesEndWrites (e : Nat) : List (Fld × Nat) := [(Reg.AES.STATUS_BUSY e, 0), (Reg.AES.STATUS_DONE e, 1), (Hdr.EVENT pgAES 8, 1)]

theorem aesEndWrites_places : ∀ e : Fin 2, (aesEndWrites e).Pairwise fun x y => x.1.keyOf ≠ y.1.keyOf := by decide

/-- The fields of DKR_STATUS of engine `e`. -/
def dkrShown (e : Nat) : List Fld := (dkrWrites e Dkr.empty).map Prod.fst

/-- `s` with the registers, commands, vault and engines of `t`. -/
def State.withEngine (s t : State) : State := { s with regs := t.regs, cmds := t.cmds, vault := t.vault, aes := t.aes }

/-- The operation of engine `e` has ended; its data key stays unless its source was withdrawn (R204). -/
structure AesEnded (e : Nat) (s t : State) : Prop extends OnlyFields (dkrShown e ++ (aesEndWrites e).map Prod.fst) s t where
  engine : t.aesOf e = { AesSt.idle with dkr := if (s.aesOf e).zeroDkr then Dkr.empty else (s.aesOf e).dkr, saved := (s.aesOf e).saved }
  others : ∀ m, m ≠ e → t.aesOf m = s.aesOf m
  busy : t.aesBusy e = false
  done : t.flag (Reg.AES.STATUS_DONE e) = true
  event : t.raised pgAES 8 = true
  idle : (t.cmdSlot pgAES (State.aesCmdOff e)).running = none
  kept : (s.aesOf e).zeroDkr = false → OnlyFields ((aesEndWrites e).map Prod.fst) s t
  rest : t = s.withEngine t

/-- The key of a withdrawn source leaves a data key register (R204). -/
theorem State.zeroed_held (s : State) (e : Fin 2) (z : Bool) (t : State) (h : t = if z then s.showDkr e Dkr.empty else s) :
    OnlyFields (dkrShown e) s t ∧ t.aesOf e = { s.aesOf e with dkr := if z then Dkr.empty else (s.aesOf e).dkr }
    ∧ (∀ m, m ≠ e.val → t.aesOf m = s.aesOf m) ∧ (z = false → t = s) ∧ t = { s with regs := t.regs, aes := t.aes } := by
  cases z
  · exact h ▸ ⟨OnlyFields.refl _ s, rfl, fun _ _ => rfl, fun _ => rfl, rfl⟩
  · have held := s.showDkr_held e Dkr.empty
    exact h ▸ ⟨held.toOnlyFields, held.engine, held.others, nofun, held.rest⟩

theorem State.aesIdle_ended (s : State) (e : Fin 2) : AesEnded e s (s.aesIdle e) := by
  obtain ⟨v, released, -⟩ := s.slotRelease_vault (s.aesOf e).keySlot
  unfold State.aesIdle
  dsimp only
  rw [released]
  generalize freed : ({ s with vault := v } : State).setAes e { AesSt.idle with dkr := (s.aesOf e).dkr, saved := (s.aesOf e).saved } = t
  have only (l : List Fld) : OnlyFields l s t := freed ▸ (OnlyFields.refl l s).outside
  have engine : t.aesOf e = { AesSt.idle with dkr := (s.aesOf e).dkr, saved := (s.aesOf e).saved } := freed ▸ State.aesOf_setAes_same _ _ _
  have others (m : Nat) (other : m ≠ e.val) : t.aesOf m = s.aesOf m := freed ▸ State.aesOf_setAes_ne { s with vault := v } e _ m other
  have rest : t = { s with vault := t.vault, aes := t.aes } := freed ▸ rfl
  generalize zeroed : (if (s.aesOf e).zeroDkr then t.showDkr e Dkr.empty else t) = u
  obtain ⟨onlyDkr, engineU, othersU, same, restU⟩ := t.zeroed_held e _ u zeroed.symm
  have shown := u.writeAll_written (aesEndWrites e) (aesEndWrites_places e)
  have engineW (m : Nat) : (u.writeAll (aesEndWrites e)).aesOf m = u.aesOf m := (congrArg (fun u : State => u.aesOf m) shown.rest :)
  constructor
  case toOnlyFields =>
    exact ((only _).trans ((onlyDkr.mono (List.subset_append_left _ _)).trans (shown.toOnlyFields.mono (List.subset_append_right _ _)))).setCmdSlot
  case engine => exact (engineW e).trans (engineU.trans (by rw [engine]))
  case others => exact fun m other => (engineW m).trans ((othersU m other).trans (others m other))
  case busy => exact shown.off (by simp [aesEndWrites])
  case done => exact shown.on (by simp [aesEndWrites])
  case event => exact shown.on (by simp [aesEndWrites])
  case idle => exact congrArg CmdSlot.running (State.cmdSlot_setCmdSlot_same _ _ _ _)
  case kept =>
    exact fun z => ((only _).trans (same z ▸ shown.toOnlyFields)).setCmdSlot
  case rest =>
    have outside {x y : State} (h : x = y) := congrArg (State.withEngine · ((u.writeAll (aesEndWrites e)).cmdEnd pgAES (State.aesCmdOff e))) h
    have first := outside rest
    have second := outside restU
    have third := outside shown.rest
    exact third.trans (second.trans first)

end Sys2Proof.Machine
end

section
/-! O39: the AES engines (R72, R191, R198, R238-R243). -/

namespace Sys2Proof.Machine

/-! RUN begins (R238, R239) -/

theorem exec_aesRun_ready (s : State) (e : Fin 2) (a : Nat) (free : s.ready pgAES (State.aesCmdOff e) = true) :
    exec (.aesRun e a) s = .next (State.fwAesRun e a s) :=
  exec_cmd_ready s (.aesRun e a) pgAES (State.aesCmdOff e) (State.fwAesRun e a) rfl free nofun nofun

theorem exec_wrap_ready (s : State) (e : Fin 2) (a : Nat) (free : s.ready pgAES (State.aesCmdOff e) = true) :
    exec (.wrap e a) s = .next (State.startWrapUnwrap e a true s) :=
  exec_cmd_ready s (.wrap e a) pgAES (State.aesCmdOff e) (State.startWrapUnwrap e a true) rfl free nofun nofun

theorem exec_unwrap_ready (s : State) (e : Fin 2) (a : Nat) (free : s.ready pgAES (State.aesCmdOff e) = true) :
    exec (.unwrap e a) s = .next (State.startWrapUnwrap e a false s) :=
  exec_cmd_ready s (.unwrap e a) pgAES (State.aesCmdOff e) (State.startWrapUnwrap e a false) rfl free nofun nofun

namespace State

variable (s : State) (e : Fin 2) (a : Nat)

theorem fwAesRun_saved (c : AesCtx) (saved : (s.aesOf e).saved = some c) : fwAesRun e a s =
    s.setCmdSlot pgAES (aesCmdOff e) { s.cmdSlot pgAES (aesCmdOff e) with queued := some (.aesRun e a) } := if_pos (by rw [saved]; rfl)

theorem fwAesRun_unsaved (unsaved : (s.aesOf e).saved = none) : fwAesRun e a s = startAesRun e a s := if_neg (by rw [unsaved]; nofun)

theorem startAesRun_faulty (c : Nat) (fault : s.aesRunFault e a = some c) : startAesRun e a s = s.aesRefuse e c := by
  simp only [startAesRun, fault]

/-- What a first part puts into the engine (R239): the key of the DKR, and the mode and the vectors of its descriptor. -/
def firstRun (s : State) (e a : Nat) : AesSt :=
  { s.aesOf e with
    mode := s.sramLe a 1, decrypt := bit (s.sramLe (a + 1) 1) 2, iv := s.sramBytes (a + 0x20) 16, msg := [], key := (s.aesOf e).dkr.key,
    keySlot := (s.aesOf e).dkr.source, revoked := none, run := some (.part (s.sramBytes a 48)),
    aad := if s.sramLe a 1 = 3 then s.ramBytes (s.sramLe (a + 0x10) 4) (s.sramLe (a + 0x14) 4) else [] }

theorem startAesRun_first (fit : s.aesRunFault e a = none) (first : bit (s.sramLe (a + 1) 1) 0 = true) :
    startAesRun e a s = (s.slotUse (s.aesOf e).dkr.source).aesBegin e (s.firstRun e a) true (.aesRun e a) := by
  simp only [startAesRun, fit, first, if_true]
  rfl

theorem startAesRun_later (fit : s.aesRunFault e a = none) (later : bit (s.sramLe (a + 1) 1) 0 = false) :
    startAesRun e a s = s.aesBegin e { s.aesOf e with run := some (.part (s.sramBytes a 48)) } true (.aesRun e a) := by
  simp only [startAesRun, fit, later, Bool.false_eq_true, if_false]
  rfl

end State

/-! A part ends (R239, R240) -/

/-- AES_DONE where ATT holds no engine and waits for none. -/
theorem exec_aesDone_firmware (s : State) (e : Fin 2) (u : State) (finish : s.aesFinish e = u) (run : u.stx.sealRun = none)
    (wait : u.stx.sealWait = none) : exec (.aesDone e) s = .next u.goOn := by
  have ended : s.aesEnd e = u := by simp only [State.aesEnd, State.sealDone, State.sealKick, finish, run, wait]
  exact congrArg (fun u : State => Host.Outcome.next u.goOn) ended

namespace State

variable (s : State) (e : Nat) (d : List Byte)

theorem aesFinish_part (run : (s.aesOf e).run = some (.part d)) (awake : s.brace = false) : s.aesFinish e = s.aesPartDone e d := by
  simp [aesFinish, run, aesPaused, awake]

theorem aesFinish_paused (run : (s.aesOf e).run = some (.part d)) (brace : s.brace = true) : s.aesFinish e = s := by
  simp [aesFinish, run, aesPaused, brace]

theorem aesFinish_wrap (run : (s.aesOf e).run = some (.wrap d)) (kept : (s.aesOf e).revoked = none) : s.aesFinish e = s.wrapDone e d := by
  simp [aesFinish, run, aesPaused, kept]

theorem aesFinish_unwrap (run : (s.aesOf e).run = some (.unwrap d)) (kept : (s.aesOf e).revoked = none) :
    s.aesFinish e = s.unwrapDone e d := by
  simp [aesFinish, run, aesPaused, kept]

/-- The output of a part is stored, and its input counts as taken. -/
def partTaken (s : State) (e : Nat) (d : List Byte) : State :=
  (s.ramStore (fieldLe d 8 4) (Sys2Proof.aesPartOut (s.aesOf e) (s.ramBytes (fieldLe d 4 4) (fieldLe d 0x0C 4)))).setAes e
    { s.aesOf e with msg := (s.aesOf e).msg ++ s.ramBytes (fieldLe d 4 4) (fieldLe d 0x0C 4), run := none }

/-- The tag of a GCM operation over the ciphertext `m` (R240). -/
def gcmTagOf (x : AesSt) (d m : List Byte) : List Byte := (digestBytes (Config.gcmTag x.key (x.iv.take 12) x.aad m)).take (fieldLe d 2 1)

theorem aesPartDone_open (more : bit (fieldLe d 1 1) 1 = false) :
    s.aesPartDone e d = (s.partTaken e d).cmdEnd pgAES (aesCmdOff e) := by
  simp only [aesPartDone, more, Bool.not_false, if_true]
  rfl

section

variable (last : bit (fieldLe d 1 1) 1 = true) (kept : (s.aesOf e).revoked = none)
include last kept

theorem aesPartDone_plain (mode : (s.aesOf e).mode ≠ 3) : s.aesPartDone e d = (s.partTaken e d).aesIdle e := by
  simp only [aesPartDone, last, kept, mode, partTaken, Sys2Proof.aesPartOut, Bool.not_true, Bool.false_eq_true, if_false]

theorem aesPartDone_tagged (gcm : (s.aesOf e).mode = 3) (enc : (s.aesOf e).decrypt = false) :
    s.aesPartDone e d = ((s.partTaken e d).ramStore (fieldLe d 0x18 4) (gcmTagOf (s.aesOf e) d (aesOut 3 false (s.aesOf e).key
      ((s.aesOf e).iv.take 12) ((s.aesOf e).msg ++ s.ramBytes (fieldLe d 4 4) (fieldLe d 0x0C 4))))).aesIdle e := by
  simp only [aesPartDone, last, kept, gcm, enc, partTaken, Sys2Proof.aesPartOut, Bool.not_true, Bool.false_eq_true, if_false, if_true]
  rfl

theorem aesPartDone_judged (gcm : (s.aesOf e).mode = 3) (dec : (s.aesOf e).decrypt = true) :
    s.aesPartDone e d = ((s.partTaken e d).tagVerdict e (gcmTagOf (s.aesOf e) d ((s.aesOf e).msg ++ s.ramBytes (fieldLe d 4 4) (fieldLe d 0x0C 4))
      = (s.partTaken e d).ramBytes (fieldLe d 0x18 4) (fieldLe d 2 1))).aesIdle e := by
  simp only [aesPartDone, last, kept, gcm, dec, partTaken, Sys2Proof.aesPartOut, Bool.not_true, Bool.false_eq_true, if_false, if_true]
  rfl

end

theorem partTaken_rest : s.partTaken e d =
    { s with
      sram := (s.ramStore (fieldLe d 8 4) (Sys2Proof.aesPartOut (s.aesOf e) (s.ramBytes (fieldLe d 4 4) (fieldLe d 0x0C 4)))).sram
      retention := (s.ramStore (fieldLe d 8 4) (Sys2Proof.aesPartOut (s.aesOf e) (s.ramBytes (fieldLe d 4 4) (fieldLe d 0x0C 4)))).retention
      aes := (s.partTaken e d).aes } :=
  congrArg (fun u : State => { u with aes := (s.partTaken e d).aes }) (s.ramStore_rest _ _)

theorem partTaken_engine : (s.partTaken e d).aesOf e =
    { s.aesOf e with msg := (s.aesOf e).msg ++ s.ramBytes (fieldLe d 4 4) (fieldLe d 0x0C 4), run := none } := Tbl.get_put_same _ _ _ _

theorem partTaken_framed : RamFramed s (s.partTaken e d) :=
  have rest := s.partTaken_rest e d
  .ofRest (congrArg State.regs rest :) (congrArg State.flash rest :) (congrArg State.otp rest :) (congrArg State.nvm rest :)

end State

/-- The verdict of a tag is in the pair of engine `e` (R240). -/
structure TagJudged (e : Nat) (good : Bool) (s t : State) : Prop
    extends Shown [Reg.AES.TAG_MATCH e, Reg.AES.TAG_MATCH_N e, Hdr.EVENT pgAES 9] s t where
  verdict : t.rd (Reg.AES.TAG_MATCH e) = if good then matchOK else matchNOK
  verdictN : t.rd (Reg.AES.TAG_MATCH_N e) = if good then matchNOK else matchOK
  event : good = false → t.raised pgAES 9 = true

/-- What a tag verdict writes. -/
def tagWrites (e : Nat) (good : Bool) : List (Fld × Nat) :=
  [(Reg.AES.TAG_MATCH e, if good then matchOK else matchNOK), (Reg.AES.TAG_MATCH_N e, if good then matchNOK else matchOK)]
    ++ if good then [] else [(Hdr.EVENT pgAES 9, 1)]

theorem tagWrites_places : ∀ (e : Fin 2) (good : Bool), (tagWrites e good).Pairwise fun x y => x.1.keyOf ≠ y.1.keyOf := by decide

theorem State.tagVerdict_judged (s : State) (e : Fin 2) (good : Bool) : TagJudged e good s (s.tagVerdict e good) := by
  have written : s.tagVerdict e good = s.writeAll (tagWrites e good) := by cases good <;> rfl
  have shown := s.writeAll_written (tagWrites e good) (tagWrites_places e good)
  rw [written]
  constructor
  case toShown => exact shown.toShown.mono (by cases good <;> simp [tagWrites])
  case verdict =>
    have reads := shown.reads (Reg.AES.TAG_MATCH e, if good then matchOK else matchNOK) (by simp [tagWrites])
    exact reads.trans (by cases good <;> rfl)
  case verdictN =>
    have reads := shown.reads (Reg.AES.TAG_MATCH_N e, if good then matchNOK else matchOK) (by simp [tagWrites])
    exact reads.trans (by cases good <;> rfl)
  case event => exact fun bad => shown.on (by simp [tagWrites, bad])

/-- What is stored when a last part ends: its output, and of a GCM encryption the tag (R240). -/
def State.lastStored (s : State) (e : Nat) (d : List Byte) : State :=
  let input := s.ramBytes (fieldLe d 4 4) (fieldLe d 0x0C 4)
  let v := s.ramStore (fieldLe d 8 4) (Sys2Proof.aesPartOut (s.aesOf e) input)
  if (s.aesOf e).mode = 3 ∧ (s.aesOf e).decrypt = false
  then v.ramStore (fieldLe d 0x18 4)
    (gcmTagOf (s.aesOf e) d (aesOut 3 false (s.aesOf e).key ((s.aesOf e).iv.take 12) ((s.aesOf e).msg ++ input))) else v

/-- The result of a last part stands in `t`, and the operation has still to end. -/
structure PartResult (e : Nat) (d : List Byte) (s t : State) : Prop extends RamFramed s t where
  engine : t.aesOf e = (s.partTaken e d).aesOf e
  stx : t.stx = s.stx
  sram : t.sram = (s.lastStored e d).sram
  retention : t.retention = (s.lastStored e d).retention
  verdict : (s.aesOf e).mode = 3 → (s.aesOf e).decrypt = true → t.rd (Reg.AES.TAG_MATCH e) =
    if State.gcmTagOf (s.aesOf e) d ((s.aesOf e).msg ++ s.ramBytes (fieldLe d 4 4) (fieldLe d 0x0C 4))
      = (s.ramStore (fieldLe d 8 4) (Sys2Proof.aesPartOut (s.aesOf e) (s.ramBytes (fieldLe d 4 4) (fieldLe d 0x0C 4)))).ramBytes
        (fieldLe d 0x18 4) (fieldLe d 2 1) then matchOK else matchNOK

theorem State.aesPartDone_last (s : State) (e : Fin 2) (d : List Byte) (last : bit (fieldLe d 1 1) 1 = true)
    (kept : (s.aesOf e).revoked = none) : ∃ t, s.aesPartDone e d = t.aesIdle e ∧ PartResult e d s t := by
  have framed := s.partTaken_framed e d
  have rest := s.partTaken_rest e d
  have stx : (s.partTaken e d).stx = s.stx := (congrArg State.stx rest :)
  by_cases gcm : (s.aesOf e).mode = 3
  · cases dir : (s.aesOf e).decrypt with
    | false =>
      refine ⟨_, s.aesPartDone_tagged e d last kept gcm dir, ?_⟩
      generalize tag : State.gcmTagOf (s.aesOf e) d (aesOut 3 false (s.aesOf e).key ((s.aesOf e).iv.take 12)
        ((s.aesOf e).msg ++ s.ramBytes (fieldLe d 4 4) (fieldLe d 0x0C 4))) = m
      have stored : s.lastStored e d = (s.ramStore (fieldLe d 8 4) (Sys2Proof.aesPartOut (s.aesOf e)
          (s.ramBytes (fieldLe d 4 4) (fieldLe d 0x0C 4)))).ramStore (fieldLe d 0x18 4) m := tag ▸ if_pos ⟨gcm, dir⟩
      have tagged := (s.partTaken e d).ramStore_rest (fieldLe d 0x18 4) m
      obtain ⟨sram, retention⟩ := State.ramStore_congr (t := s.partTaken e d)
        (s := s.ramStore (fieldLe d 8 4) (Sys2Proof.aesPartOut (s.aesOf e) (s.ramBytes (fieldLe d 4 4) (fieldLe d 0x0C 4)))) rfl rfl
        (fieldLe d 0x18 4) m
      constructor
      case toRamFramed =>
        exact framed.trans (.ofRest (congrArg State.regs tagged :) (congrArg State.flash tagged :) (congrArg State.otp tagged :)
          (congrArg State.nvm tagged :))
      case engine => exact (congrArg (fun u : State => u.aesOf e) tagged :)
      case stx => exact Eq.trans (congrArg State.stx tagged :) stx
      case sram => rw [stored]; exact sram
      case retention => rw [stored]; exact retention
      case verdict => exact fun _ dec => absurd (dir.symm.trans dec) nofun
    | true =>
      refine ⟨_, s.aesPartDone_judged e d last kept gcm dir, ?_⟩
      have stored : s.lastStored e d = s.ramStore (fieldLe d 8 4) (Sys2Proof.aesPartOut (s.aesOf e)
          (s.ramBytes (fieldLe d 4 4) (fieldLe d 0x0C 4))) := if_neg fun h => absurd (h.2.symm.trans dir) nofun
      have judged := (s.partTaken e d).tagVerdict_judged e (State.gcmTagOf (s.aesOf e) d
        ((s.aesOf e).msg ++ s.ramBytes (fieldLe d 4 4) (fieldLe d 0x0C 4)) = (s.partTaken e d).ramBytes (fieldLe d 0x18 4) (fieldLe d 2 1))
      constructor
      case toRamFramed => exact framed.trans judged.toFramed.ram
      case engine => exact (congrArg (fun u : State => u.aesOf e) judged.rest :)
      case stx => exact Eq.trans (congrArg State.stx judged.rest :) stx
      case sram => rw [stored, judged.rest]; rfl
      case retention => rw [stored, judged.rest]; rfl
      case verdict =>
        have verdict := judged.verdict
        simp only [decide_eq_true_eq] at verdict
        exact fun _ _ => verdict
  · have stored : s.lastStored e d = s.ramStore (fieldLe d 8 4) (Sys2Proof.aesPartOut (s.aesOf e) (s.ramBytes (fieldLe d 4 4) (fieldLe d 0x0C 4))) :=
      if_neg fun h => gcm h.1
    refine ⟨_, s.aesPartDone_plain e d last kept gcm, ?_⟩
    constructor
    case toRamFramed => exact framed
    case engine => rfl
    case stx => exact stx
    case sram => rw [stored, rest]
    case retention => rw [stored, rest]
    case verdict => exact fun h => absurd h gcm

/-! WRAP and UNWRAP begin (R189, R242) -/

/-- A capture fills the cache and counts the slot's user; it changes nothing outside the vault but the CTR_DRBG. -/
structure Captured (s t : State) : Prop extends Framed s t where
  rest : t = { s with regs := t.regs, free := t.free, rng := t.rng, vault := t.vault }

theorem State.capture_captured (s : State) (i : Nat) : Captured s (s.capture i).1 := by
  have filled := s.cacheFill_filled i
  obtain ⟨v, used, -⟩ := (s.cacheFill i).slotUse_vault (some i)
  have taken : (s.capture i).1 = { s.cacheFill i with vault := v } := used
  rw [taken]
  exact ⟨filled.toFramed.trans ⟨sameCfg_of_regs rfl, ⟨rfl, rfl, rfl, rfl, rfl, rfl, rfl⟩⟩,
    congrArg (fun u : State => { u with vault := v }) filled.rest⟩

/-- A WRAP descriptor at `a` that an idle engine `e` can start (R242). -/
structure WrapFit (s : State) (e a : Nat) : Prop where
  idle : s.aesBusy e = false
  unsaved : (s.aesOf e).saved = none
  awake : s.brace = false
  inside : State.inSram a 16 = true
  dstLow : 1 ≤ s.sramLe (a + 2) 1
  dstHigh : s.sramLe (a + 2) 1 ≤ 3
  keySource : s.sramLe (a + 4) 1 ≤ 1
  dkrKey : s.sramLe (a + 4) 1 = 1 → s.sramLe (a + 5) 1 = 32 ∧ (s.aesOf e).dkr.loaded = true
  keyLen : s.sramLe (a + 5) 1 = 32 ∨ s.sramLe (a + 5) 1 = 48
  attr : s.sramLe (a + 6) 1 ≤ 3
  zero7 : s.sramLe (a + 7) 1 = 0
  zeroC : s.sramLe (a + 0x0C) 4 = 0
  blob : State.inSram (s.sramLe (a + 8) 4) (s.sramLe (a + 5) 1 + 24) = true
  works : s.rngFailed = false
  usable : s.kekFault (s.sramLe a 2) = (s, none)
  serves : s.captureWaits (s.sramLe a 2) = false

/-- What WRAP (`true`) or UNWRAP puts into the engine: the KEK of its slot. -/
def State.wrapBegun (s : State) (e a : Nat) (isWrap : Bool) : AesSt :=
  let c := s.capture (s.sramLe a 2)
  { c.1.aesOf e with
    run := some (if isWrap then .wrap (c.1.sramBytes a 16) else .unwrap (c.1.sramBytes a 16)), key := (digestBytes c.2).take 32,
    keySlot := some (s.sramLe a 2), revoked := none }

theorem State.startWrapUnwrap_begins (s : State) (e : Fin 2) (a : Nat) (isWrap : Bool) (fit : WrapFit s e a)
    (target : isWrap = false → State.unwrapTargetOk (s.sramLe (a + 2) 1) (s.sramLe (a + 3) 1) (s.sramLe (a + 5) 1) = true) :
    State.startWrapUnwrap e a isWrap s =
      (s.capture (s.sramLe a 2)).1.aesBegin e (s.wrapBegun e a isWrap) false (if isWrap then .wrap e a else .unwrap e a) := by
  obtain ⟨idle, unsaved, awake, inside, dstLow, dstHigh, keySource, dkrKey, keyLen, attr, zero7, zeroC, blob, works, usable, serves⟩ := fit
  have dst : ¬ s.sramLe (a + 2) 1 = 0 := by omega
  have fields : ¬ (!inSram a 16 || decide (s.sramLe (a + 2) 1 = 0) || decide (3 < s.sramLe (a + 2) 1) || decide (1 < s.sramLe (a + 4) 1)
      || (decide (s.sramLe (a + 5) 1 ≠ 32) && decide (s.sramLe (a + 5) 1 ≠ 48)) || decide (3 < s.sramLe (a + 6) 1)
      || decide (s.sramLe (a + 7) 1 ≠ 0) || decide (s.sramLe (a + 0x0C) 4 ≠ 0)
      || (isWrap && decide (s.sramLe (a + 4) 1 = 1) && decide (s.sramLe (a + 5) 1 ≠ 32))
      || (!isWrap && !unwrapTargetOk (s.sramLe (a + 2) 1) (s.sramLe (a + 3) 1) (s.sramLe (a + 5) 1))) = true := by
    have dkrLen := fun h => (dkrKey h).1
    cases isWrap
    · simp only [inside, target rfl, Bool.or_eq_true, Bool.and_eq_true, decide_eq_true_eq, Bool.not_true, Bool.not_false, Bool.false_and,
        Bool.and_false, Bool.false_eq_true, ne_eq, false_or, or_false]
      omega
    · simp only [inside, Bool.or_eq_true, Bool.and_eq_true, decide_eq_true_eq, Bool.not_true, Bool.true_and, Bool.false_and, Bool.false_eq_true,
        ne_eq, false_or, or_false]
      omega
  have drawn : ¬ (isWrap && decide (s.sramLe (a + 4) 1 = 0) && s.rngFailed) = true := by simp [works]
  have loaded : ¬ (isWrap && decide (s.sramLe (a + 4) 1 = 1) && !(s.aesOf e).dkr.loaded) = true := by
    by_cases source : s.sramLe (a + 4) 1 = 1
    · simp [(dkrKey source).2]
    · simp [source]
  have free : ¬ (s.brace || (s.aesOf e).saved.isSome || s.captureWaits (s.sramLe a 2)) = true := by simp [awake, unsaved, serves]
  unfold startWrapUnwrap
  dsimp only
  rw [if_neg (by rw [idle]; nofun), if_neg fields, if_neg (by rw [blob]; nofun), if_neg drawn, if_neg loaded, usable]
  dsimp only
  rw [if_neg free]
  rfl

/-- WRAP or UNWRAP has begun with the KEK of its slot. -/
theorem wrap_begun (s : State) (e : Fin 2) (a : Nat) (isWrap : Bool) (i : Instr) :
    let t := (s.capture (s.sramLe a 2)).1.aesBegin e (s.wrapBegun e a isWrap) false i
    (t.aesOf e).run = some (if isWrap then .wrap (s.sramBytes a 16) else .unwrap (s.sramBytes a 16))
    ∧ (t.aesOf e).key = (digestBytes (s.capture (s.sramLe a 2)).2).take 32 ∧ (t.aesOf e).keySlot = some (s.sramLe a 2) ∧ t.aesBusy e = true
    ∧ (t.cmdSlot pgAES (State.aesCmdOff e)).running = some i ∧ sameCfg s t ∧ sameStores s t := by
  have captured := s.capture_captured (s.sramLe a 2)
  have begun := (s.capture (s.sramLe a 2)).1.aesBegin_begun e (s.wrapBegun e a isWrap) false i
  have whole := captured.toFramed.trans begun.toFramed
  have bytes : (s.capture (s.sramLe a 2)).1.sramBytes a 16 = s.sramBytes a 16 := (congrArg (fun u : State => u.sramBytes a 16) captured.rest :)
  exact ⟨(congrArg AesSt.run begun.engine).trans (by rw [← bytes]; rfl), congrArg AesSt.key begun.engine,
    congrArg AesSt.keySlot begun.engine, begun.busy,
    begun.runs, whole.cfg, whole.stores⟩

/-! WRAP and UNWRAP end (R197, R198, R242) -/

/-- The plaintext of the blob that a WRAP writes. -/
def State.wrapPlain (s : State) (e : Nat) (d : List Byte) : List Byte :=
  if fieldLe d 4 1 = 0 then blobPlain (fieldLe d 6 1) (fieldLe d 2 1) (s.freeBytes (fieldLe d 5 1))
  else blobPlain (s.aesOf e).dkr.keyAttr (fieldLe d 2 1) (s.aesOf e).dkr.key

/-- A WRAP ends with its blob stored, with the CTR_DRBG drawn on where its key is. -/
theorem State.wrapDone_stores (s : State) (e : Nat) (d : List Byte) (serves : fieldLe d 4 1 = 0 → s.rngFailed = false ∧ s.rngServes = true) :
    ∃ t, s.wrapDone e d = (t.sramStore (fieldLe d 8 4) (kwWrap (s.aesOf e).key (s.wrapPlain e d))).aesIdle e ∧ Framed s t ∧ t.stx = s.stx := by
  by_cases drawn : fieldLe d 4 1 = 0
  · obtain ⟨works, serves⟩ := serves drawn
    refine ⟨(s.draw (fieldLe d 5 1)).1, ?_, (s.draw_redrawn _).toFramed, (congrArg State.stx (s.draw_rest _) :)⟩
    simp only [wrapDone, wrapPlain, drawn, works, serves, draw_bytes, Bool.not_true, Bool.false_eq_true, if_false, if_true, ne_eq, not_true_eq_false]
  · refine ⟨s, ?_, Framed.refl s, rfl⟩
    simp only [wrapDone, wrapPlain, drawn, if_false, ne_eq, not_false_eq_true, if_true]

namespace State

variable (s : State) (e : Nat) (d : List Byte)

theorem unwrapDone_fails (bad : Config.kwOk (s.aesOf e).key (s.sramBytes (fieldLe d 8 4) (fieldLe d 5 1 + 24)) = false) :
    s.unwrapDone e d = (s.aesIdle e).refuse pgAES aeUNWRAP_FAIL (aesCmdOff e) := if_pos (by rw [bad]; rfl)

/-- The key that a sound blob holds for its register. -/
def unwrapped (s : State) (e : Nat) (d : List Byte) : List Byte := kwPlain (s.aesOf e).key (s.sramBytes (fieldLe d 8 4) (fieldLe d 5 1 + 24))

theorem unwrapDone_delivers (sound : Config.kwOk (s.aesOf e).key (s.sramBytes (fieldLe d 8 4) (fieldLe d 5 1 + 24)) = true)
    (named : blobOk (s.unwrapped e d) (fieldLe d 2 1) (fieldLe d 5 1) = true) (t : State)
    (delivers : s.deliverKey e (fieldLe d 2 1) (fieldLe d 3 1) (slice (s.unwrapped e d) 16 (fieldLe d 5 1)) (fieldLe (s.unwrapped e d) 4 1) = .ok t) :
    s.unwrapDone e d = t.aesIdle e := by
  have ok : ¬ (!Config.kwOk (s.aesOf e).key (s.sramBytes (fieldLe d 8 4) (fieldLe d 5 1 + 24))
      || !blobOk (s.unwrapped e d) (fieldLe d 2 1) (fieldLe d 5 1)) = true := by rw [sound, named]; nofun
  unfold unwrapDone
  dsimp only
  rw [unwrapped] at delivers ok
  rw [if_neg ok, delivers]

theorem deliverKey_dkr (x : Fin 2) (key : List Byte) (a : Nat) (free : x.val = e ∨ s.aesBusy x = false) (len : key.length = 32) :
    s.deliverKey e 1 x key a = .ok (s.showDkr x ⟨true, key, a, 3, none, 0⟩) := by
  have low : x.val < 2 := x.isLt
  have fits : (decide (x.val < 2) && (decide (x.val = e) || !s.aesBusy x) && decide (key.length = 32)) = true := by
    rcases free with same | idle
    · simp only [same, len, decide_true, Bool.true_or, Bool.and_true]
      simpa only [decide_eq_true_eq, same] using low
    · simp only [idle, low, len, decide_true, Bool.not_false, Bool.or_true, Bool.and_true]
  simp only [deliverKey, fits, if_true]

theorem deliverKey_sak (x : Nat) (key : List Byte) (a : Nat) (fit : s.saLoadFault x a = none) :
    s.deliverKey e 2 x key a = .ok (s.setSakKey x key a none) := by
  simp [deliverKey, fit]

theorem deliverKey_register (x : Nat) (key : List Byte) (a : Nat) :
    s.deliverKey e 3 x key a = .ok ((s.spend 1).setKeyReg x ⟨s.blobAlg key.length, key, false, none, 0, some a⟩) := rfl

/-- 32 bytes of key stand behind the 16 bytes of a blob's head. -/
theorem unwrapped_key (len : fieldLe d 5 1 = 32) : (slice (s.unwrapped e d) 16 32).length = 32 := by
  have bytes : (s.sramBytes (fieldLe d 8 4) 56).length = 56 := Mem.bytes_length 0 s.sram _ 56
  simp [unwrapped, slice, kwPlain, len, bytes]

end State

/-- The end of an operation leaves the data key registers, the SAK registers and the key registers as they are. -/
theorem AesEnded.dkr {e : Nat} {s t : State} (h : AesEnded e s t) (zero : (s.aesOf e).zeroDkr = false) (x : Nat) :
    (t.aesOf x).dkr = (s.aesOf x).dkr := by
  by_cases same : x = e
  · rw [same, h.engine, zero]
    rfl
  · rw [h.others x same]

theorem AesEnded.stx {e : Nat} {s t : State} (h : AesEnded e s t) : t.stx = s.stx := (congrArg State.stx h.rest :)

/-- What DKR_STATUS shows lies apart from what the end of an operation shows. -/
theorem dkrLoaded_apart_end : ∀ e x : Fin 2, ∀ f ∈ (aesEndWrites e).map Prod.fst, f.keyOf ≠ (Reg.AES.DKR_STATUS_LOADED x).keyOf := by decide

theorem tagMatch_apart_end : ∀ e : Fin 2, ∀ f ∈ dkrShown e ++ (aesEndWrites e).map Prod.fst, f.keyOf ≠ (Reg.AES.TAG_MATCH e).keyOf := by decide

/-- A loaded data key leaves whether the engine is to zero it (R204). -/
theorem DkrHeld.zeroDkr {x : Fin 2} {k : Dkr} {s t : State} (h : DkrHeld x k s t) (e : Nat) : (t.aesOf e).zeroDkr = (s.aesOf e).zeroDkr := by
  by_cases same : e = x.val
  · rw [same, h.engine]
  · rw [h.others e same]

/-- A key has been loaded into SAK register `x`. -/
theorem State.setSakKey_loaded (s : State) (x : Nat) (key : List Byte) (a : Nat) : Framed s (s.setSakKey x key a none)
    ∧ (s.setSakKey x key a none).sa x = { Sa.empty with loaded := true, key := key, keyAttr := a, source := none, gen := 0 } := by
  have put (v : Sa) : Framed s { s with sas := Tbl.put Sa.empty s.sas x v } := ⟨sameCfg_of_regs rfl, ⟨rfl, rfl, rfl, rfl, rfl, rfl, rfl⟩⟩
  exact ⟨(put _).wr.wr, Tbl.get_put_same _ _ _ _⟩

/-! ABORT (R72) -/

/-- BUSY and SAVED lie apart from the reason. -/
theorem aesStatus_apart_reason : ∀ e : Fin 2, ∀ g ∈ [Reg.AES.STATUS_BUSY e, Reg.AES.STATUS_SAVED e],
    ∀ f ∈ [Hdr.REASON_CODE pgAES, Hdr.REASON_OFFSET pgAES], f.keyOf ≠ g.keyOf := by decide

/-- A recorded reason leaves BUSY and SAVED. -/
theorem Reasoned.aesStatus {c off : Nat} {s t : State} (h : Reasoned pgAES c off s t) (e : Fin 2) (g : Fld)
    (hg : g ∈ [Reg.AES.STATUS_BUSY e, Reg.AES.STATUS_SAVED e] := by simp) : t.flag g = s.flag g :=
  congrArg (fun n => decide (n = 1)) (h.fields g (aesStatus_apart_reason e g hg))

theorem exec_aesAbort_firmware (s : State) (e : Fin 2) (up : s.up = true) (run : s.stx.sealRun = none) (u : State)
    (aborts : State.abortAes e s = u) (wait : u.stx.sealWait = none) : exec (.aesAbort e) s = .next u.goOn := by
  have notLent : s.aesLent e = false := by simp only [State.aesLent, run]
  have aborted : State.aesAbort e s = u := by
    simp only [State.aesAbort, notLent, Bool.false_eq_true, if_false, aborts, State.sealKick, wait]
  exact (congrArg Host.Outcome.next (if_pos up)).trans (congrArg (fun u : State => Host.Outcome.next u.goOn) aborted)

/-- ABORT of an engine that ATT holds discards the saved RUN of firmware, and its queued command (R72, R243). -/
theorem State.aesAbort_lent (s : State) (e : Fin 2) (a : Nat) (lent : s.stx.sealRun = some (e.val, a)) : State.aesAbort e s =
    (State.abortSaved e s).setCmdSlot pgAES (State.aesCmdOff e)
      { (State.abortSaved e s).cmdSlot pgAES (State.aesCmdOff e) with queued := none } :=
  if_pos (by simp [State.aesLent, lent])

/-- An engine that yields has no saved context. -/
theorem State.unsaved_of_yields (s : State) (e : Nat) (yields : s.aesYields e = true) : (s.aesOf e).saved = none := by
  simp only [State.aesYields, Bool.and_eq_true] at yields
  obtain ⟨⟨⟨-, unsaved⟩, -⟩, -⟩ := yields
  exact Option.isNone_iff_eq_none.mp unsaved

/-- ABORT of a busy engine ends its operation with ABORTED. -/
theorem abortAes_busy (s : State) (e : Fin 2) :
    let u := ((s.aesIdle e).refuse pgAES aeABORTED (State.aesCmdOff e)).cmdDrop pgAES (State.aesCmdOff e)
    u.aesBusy e = false ∧ u.rd (Hdr.REASON_CODE pgAES) = pgAES * 256 + aeABORTED ∧ u.cmdSlot pgAES (State.aesCmdOff e) = ⟨none, none⟩
      ∧ ((s.aesOf e).zeroDkr = false → (u.aesOf e).dkr = (s.aesOf e).dkr) ∧ sameCfg s u ∧ sameStores s u := by
  have ended := s.aesIdle_ended e
  have reason := (s.aesIdle e).reasoned pgAES (pgAES * 256 + aeABORTED) (State.aesCmdOff e)
  have whole := ended.toFramed.trans reason.toFramed
  exact ⟨(reason.aesStatus e (Reg.AES.STATUS_BUSY e)).trans ended.busy, reason.code, State.cmdSlot_setCmdSlot_same _ _ _ _,
    fun zero => ended.dkr zero e, whole.setCmdSlot.cfg, whole.setCmdSlot.stores⟩

/-- ABORT of a RUN whose engine ATT holds: its saved context is discarded (R243). -/
theorem abortSaved_discards (s : State) (e : Fin 2) (c : AesCtx) (saved : (s.aesOf e).saved = some c) : let t := State.abortSaved e s
    let u := t.setCmdSlot pgAES (State.aesCmdOff e) { t.cmdSlot pgAES (State.aesCmdOff e) with queued := none }
    (u.aesOf e).saved = none ∧ (u.aesOf e).run = (s.aesOf e).run ∧ u.flag (Reg.AES.STATUS_SAVED e) = false
      ∧ u.rd (Hdr.REASON_CODE pgAES) = pgAES * 256 + aeABORTED ∧ (u.cmdSlot pgAES (State.aesCmdOff e)).queued = none ∧ sameCfg s u
      ∧ sameStores s u := by
  obtain ⟨v, released, -⟩ := s.slotRelease_vault c.keySlot
  unfold State.abortSaved
  simp only [saved]
  rw [released]
  generalize freed : (({ s with vault := v } : State).setAes e { s.aesOf e with saved := none }).wr (Reg.AES.STATUS_SAVED e) 0 = t
  have framed : Framed s t := freed ▸
    Framed.wr (t := ({ s with vault := v } : State).setAes e { s.aesOf e with saved := none })
      ⟨sameCfg_of_regs rfl, ⟨rfl, rfl, rfl, rfl, rfl, rfl, rfl⟩⟩
  have engine : t.aesOf e = { s.aesOf e with saved := none } := freed ▸ State.aesOf_setAes_same _ _ _
  have cleared : t.flag (Reg.AES.STATUS_SAVED e) = false := freed ▸ State.flag_wr_zero _ _ rfl
  have reason := t.reasoned pgAES (pgAES * 256 + aeABORTED) (State.aesCmdOff e)
  have kept : (t.refuse pgAES aeABORTED (State.aesCmdOff e)).aesOf e = t.aesOf e := (congrArg (fun u : State => u.aesOf e) reason.rest :)
  have whole := framed.trans reason.toFramed
  exact ⟨congrArg AesSt.saved (kept.trans engine), (congrArg AesSt.run (kept.trans engine) :),
    (reason.aesStatus e (Reg.AES.STATUS_SAVED e)).trans cleared, reason.code, congrArg CmdSlot.queued (State.cmdSlot_setCmdSlot_same _ _ _ _),
    whole.setCmdSlot.cfg, whole.setCmdSlot.stores⟩

/-! A pre-empted RUN (R243, R362) -/

/-- A key masked twice with the same mask is the key. -/
theorem xor_mask_twice : ∀ k m : List Byte, m.length = k.length →
    (((k.zip m).map fun p => p.1 ^^^ p.2).zip m).map (fun p => p.1 ^^^ p.2) = k
  | [], _, _ => rfl
  | a :: k, b :: m, len => by
    have rest := xor_mask_twice k m (Nat.succ.inj len)
    simp only [List.zip_cons_cons, List.map_cons, rest, BitVec.xor_assoc, BitVec.xor_self, BitVec.xor_zero]

theorem State.freeBytes_length (s : State) (n : Nat) : (s.freeBytes n).length = n := by
  induction n with
  | zero => rfl
  | succ n ih => simp [State.freeBytes, ih]

namespace State

/-- The context of the RUN on engine `e`, its working key masked. -/
def savedCtx (s : State) (e : Nat) : AesCtx :=
  let x := s.aesOf e
  ⟨x.run, (s.cmdSlot pgAES (aesCmdOff e)).running, x.mode, x.decrypt, x.iv, x.aad, x.msg,
    (x.key.zip (s.freeBytes x.key.length)).map (fun p => p.1 ^^^ p.2), s.freeBytes x.key.length, x.keySlot, x.revoked⟩

theorem aesSave_kept (s : State) (e : Nat) (kept : (s.aesOf e).zeroDkr = false) : s.aesSave e =
    (((s.draw (s.aesOf e).key.length).1.setAes e { AesSt.idle with dkr := (s.aesOf e).dkr, saved := some (s.savedCtx e) }).writeAll
      [(Reg.AES.STATUS_SAVED e, 1), (Reg.AES.STATUS_BUSY e, 0)]).cmdEnd pgAES (aesCmdOff e) := by
  simp only [aesSave, kept, draw_bytes, Bool.false_eq_true, if_false]
  rfl

/-- The engine of a saved RUN as it goes on. -/
def restored (x : AesSt) (c : AesCtx) : AesSt :=
  { x with
    run := c.run, mode := c.mode, decrypt := c.decrypt, iv := c.iv, aad := c.aad, msg := c.msg,
    key := (c.key.zip c.mask).map (fun p => p.1 ^^^ p.2), keySlot := c.keySlot, revoked := c.revoked, saved := none }

theorem aesRestore_saved (s : State) (e : Nat) (c : AesCtx) (saved : (s.aesOf e).saved = some c) : s.aesRestore e =
    ((s.setAes e (restored (s.aesOf e) c)).writeAll
      [(Reg.AES.STATUS_SAVED e, 0), (Reg.AES.STATUS_BUSY e, 1), (Reg.AES.STATUS_DONE e, 0)]).setCmdSlot pgAES (aesCmdOff e)
      { s.cmdSlot pgAES (aesCmdOff e) with running := c.cmd } := by
  simp only [aesRestore, saved]
  rfl

end State

/-- SAVED, BUSY and DONE, which a save and a restore write, are different fields. -/
theorem saveWrites_places : ∀ e : Fin 2, [(Reg.AES.STATUS_SAVED e, 1), (Reg.AES.STATUS_BUSY e, 0)].Pairwise fun x y => x.1.keyOf ≠ y.1.keyOf := by
  decide

theorem restoreWrites_places : ∀ e : Fin 2,
    [(Reg.AES.STATUS_SAVED e, 0), (Reg.AES.STATUS_BUSY e, 1), (Reg.AES.STATUS_DONE e, 0)].Pairwise fun x y => x.1.keyOf ≠ y.1.keyOf := by decide

/-- The RUN of engine `e` is saved: the engine is free, with its data key. -/
structure RunSaved (e : Nat) (s t : State) : Prop where
  engine : t.aesOf e = { AesSt.idle with dkr := (s.aesOf e).dkr, saved := some (s.savedCtx e) }
  busy : t.aesBusy e = false
  saved : t.flag (Reg.AES.STATUS_SAVED e) = true
  command : t.cmdSlot pgAES (State.aesCmdOff e) = { s.cmdSlot pgAES (State.aesCmdOff e) with running := none }

theorem State.aesSave_saved (s : State) (e : Fin 2) (kept : (s.aesOf e).zeroDkr = false) : RunSaved e s (s.aesSave e) := by
  rw [s.aesSave_kept e kept]
  generalize put : (s.draw (s.aesOf e).key.length).1.setAes e { AesSt.idle with dkr := (s.aesOf e).dkr, saved := some (s.savedCtx e) } = t
  have engine : t.aesOf e = { AesSt.idle with dkr := (s.aesOf e).dkr, saved := some (s.savedCtx e) } := put ▸ State.aesOf_setAes_same _ _ _
  have cmds : t.cmds = s.cmds := put ▸ (congrArg State.cmds (s.draw_rest (s.aesOf e).key.length) :)
  have shown := t.writeAll_written [(Reg.AES.STATUS_SAVED e, 1), (Reg.AES.STATUS_BUSY e, 0)] (saveWrites_places e)
  constructor
  case engine => exact Eq.trans (congrArg (fun u : State => u.aesOf e) shown.rest :) engine
  case busy => exact shown.off (by simp)
  case saved => exact shown.on (by simp)
  case command =>
    have slot := shown.cmdSlot pgAES (State.aesCmdOff e)
    refine (State.cmdSlot_setCmdSlot_same _ _ _ _).trans (congrArg (fun c : CmdSlot => { c with running := none }) (slot.trans ?_))
    rw [State.cmdSlot, cmds]
    rfl

/-- A saved RUN goes on as it was (R243). -/
theorem RunSaved.restored {s t : State} {e : Fin 2} (h : RunSaved e s t) (unsaved : (s.aesOf e).saved = none)
    (kept : (s.aesOf e).zeroDkr = false) : (t.aesRestore e).aesOf e = s.aesOf e ∧ (t.aesRestore e).aesBusy e = true
      ∧ (t.aesRestore e).flag (Reg.AES.STATUS_SAVED e) = false
      ∧ (t.aesRestore e).cmdSlot pgAES (State.aesCmdOff e) = s.cmdSlot pgAES (State.aesCmdOff e) := by
  rw [t.aesRestore_saved e (s.savedCtx e) (congrArg AesSt.saved h.engine)]
  have same : State.restored (t.aesOf e) (s.savedCtx e) = s.aesOf e := by
    rw [h.engine]
    have key := xor_mask_twice (s.aesOf e).key (s.freeBytes (s.aesOf e).key.length) (s.freeBytes_length _)
    simp only [State.restored, State.savedCtx, key, AesSt.idle]
    rw [← unsaved, ← kept]
  have shown := (t.setAes e (State.restored (t.aesOf e) (s.savedCtx e))).writeAll_written
    [(Reg.AES.STATUS_SAVED e, 0), (Reg.AES.STATUS_BUSY e, 1), (Reg.AES.STATUS_DONE e, 0)] (restoreWrites_places e)
  refine ⟨Eq.trans (congrArg (fun u : State => u.aesOf e) shown.rest :) ((State.aesOf_setAes_same _ _ _).trans same), shown.on (by simp),
    shown.off (by simp), (State.cmdSlot_setCmdSlot_same _ _ _ _).trans ?_⟩
  rw [h.command]
  rfl

/-- A first part has begun with the key of the DKR (R239). -/
theorem firstRun_begun (s : State) (e : Fin 2) (a : Nat) :
    AesBegun e (s.firstRun e a) (.aesRun e a) (s.slotUse (s.aesOf e).dkr.source)
      ((s.slotUse (s.aesOf e).dkr.source).aesBegin e (s.firstRun e a) true (.aesRun e a)) ∧ Framed s (s.slotUse (s.aesOf e).dkr.source) := by
  obtain ⟨v, used, -⟩ := s.slotUse_vault (s.aesOf e).dkr.source
  exact ⟨State.aesBegin_begun _ e _ true _, used ▸ ⟨sameCfg_of_regs rfl, ⟨rfl, rfl, rfl, rfl, rfl, rfl, rfl⟩⟩⟩

/-- A last part ends: its result is stored, the engine is idle (R239, R240). -/
theorem PartResult.ended {s t u : State} {e : Fin 2} {d : List Byte} (h : PartResult e d s t) (k : AesEnded e t u) :
    u.aesBusy e = false ∧ u.flag (Reg.AES.STATUS_DONE e) = true ∧ u.raised pgAES 8 = true ∧ (u.aesOf e).run = none ∧ (u.aesOf e).key = []
    ∧ ((s.aesOf e).zeroDkr = false → (u.aesOf e).dkr = (s.aesOf e).dkr)
    ∧ (u.sram = (s.lastStored e d).sram ∧ u.retention = (s.lastStored e d).retention
      ∧ ((s.aesOf e).mode = 3 → (s.aesOf e).decrypt = true → u.rd (Reg.AES.TAG_MATCH e) = t.rd (Reg.AES.TAG_MATCH e)))
    ∧ u.flash = s.flash ∧ u.otp = s.otp ∧ sameCfg s u := by
  have engine := h.engine.trans (s.partTaken_engine e d)
  have taken : (t.aesOf e).dkr = (s.aesOf e).dkr ∧ (t.aesOf e).zeroDkr = (s.aesOf e).zeroDkr :=
    ⟨(congrArg AesSt.dkr engine :), (congrArg AesSt.zeroDkr engine :)⟩
  obtain ⟨sram, retention, flash, -, -, otp, -⟩ := k.stores
  exact ⟨k.busy, k.done, k.event, congrArg AesSt.run k.engine, congrArg AesSt.key k.engine,
    fun zero => (k.dkr (taken.2.trans zero) e).trans taken.1,
    ⟨sram.trans h.sram, retention.trans h.retention, fun _ _ => k.fields _ (tagMatch_apart_end e)⟩, flash.trans h.flash, otp.trans h.otp,
    sameCfg_trans h.cfg k.cfg⟩

/-- Settles O39: RUN, WRAP and UNWRAP begin by `aesBegin_begun` and end by `aesIdle_ended`; a pre-empted RUN by `RunSaved.restored`. -/
theorem cipherOperation : Obligations.CipherOperation := by
  refine ⟨fun s e a free unsaved fit => ⟨fun first => ?_, fun later => ?_⟩, fun s e a c free unsaved fault => ?_,
    fun s e a c free saved => (exec_aesRun_ready s e a free).trans (congrArg Host.Outcome.next (s.fwAesRun_saved e a c saved)),
    fun s e d unlent wait run awake => ⟨fun more => ?_, fun last kept => ?_⟩, fun s e d unlent wait run brace => ?_,
    fun s e good => ?_, fun s e a free idle unsaved awake inside dstLow dstHigh keySource dkrKey keyLen attr zero7 zeroC blob works usable serves => ?_,
    fun s e d unlent wait run kept serves => ?_, fun s e d unlent wait run kept => ⟨fun bad => ?_, fun p plain sound named zero =>
      ⟨fun x dst len idx busy => ?_, fun dst fit => ?_, fun dst => ?_⟩⟩,
    fun s e up unlent wait => ⟨fun busy => ?_, fun idle => ?_⟩, fun s e a c up lent saved => ?_, fun s e yields kept => ?_⟩
  · obtain ⟨begun, framed⟩ := firstRun_begun s e a
    obtain ⟨verdict, verdictN⟩ := (s.slotUse (s.aesOf e).dkr.source).aesBegin_pair e (s.firstRun e a) (.aesRun e a)
    have whole := framed.trans begun.toFramed
    exact ⟨_, (exec_aesRun_ready s e a free).trans (congrArg Host.Outcome.next ((s.fwAesRun_unsaved e a unsaved).trans
        (s.startAesRun_first e a fit first))), congrArg AesSt.run begun.engine, congrArg AesSt.key begun.engine, congrArg AesSt.keySlot begun.engine,
      congrArg AesSt.revoked begun.engine, congrArg AesSt.mode begun.engine, congrArg AesSt.decrypt begun.engine, congrArg AesSt.msg begun.engine,
      congrArg AesSt.iv begun.engine, (congrArg AesSt.dkr begun.engine :), begun.busy, verdict, verdictN, begun.runs, whole.cfg, whole.stores⟩
  · have begun := s.aesBegin_begun e { s.aesOf e with run := some (.part (s.sramBytes a 48)) } true (.aesRun e a)
    exact ⟨_, (exec_aesRun_ready s e a free).trans (congrArg Host.Outcome.next ((s.fwAesRun_unsaved e a unsaved).trans
      (s.startAesRun_later e a fit later))), begun.engine, begun.busy, begun.vault, begun.runs, begun.cfg, begun.stores⟩
  · have reason := s.reasoned pgAES (pgAES * 256 + c) (State.aesCmdOff e)
    exact ⟨_, (exec_aesRun_ready s e a free).trans (congrArg Host.Outcome.next ((s.fwAesRun_unsaved e a unsaved).trans
      (s.startAesRun_faulty e a c fault))), reason.code, rfl, reason.toFramed.setCmdSlot.cfg, reason.toFramed.setCmdSlot.stores⟩
  · have taken := s.partTaken_framed e d
    have engine := s.partTaken_engine e d
    have rest := s.partTaken_rest e d
    have stx : (s.partTaken e d).stx = s.stx := (congrArg State.stx rest :)
    have busy : (s.partTaken e d).aesBusy e = s.aesBusy e := (congrArg (fun u : State => u.aesBusy e) rest :)
    refine ⟨_, exec_aesDone_firmware s e _ ((s.aesFinish_part e d run awake).trans (s.aesPartDone_open e d more)) ((congrArg _ stx).trans unlent)
      ((congrArg _ stx).trans wait), congrArg AesSt.msg engine, congrArg AesSt.run engine, (congrArg AesSt.key engine :),
      (congrArg AesSt.keySlot engine :), busy,
      fun main => ?_, congrArg CmdSlot.running (State.cmdSlot_setCmdSlot_same _ _ _ _), taken.flash, taken.otp,
      sameCfg_trans taken.cfg (sameCfg_of_regs rfl)⟩
    exact Eq.trans (congrArg State.sram rest :) (congrArg State.sram (if_pos main))
  · obtain ⟨t, ends, result⟩ := s.aesPartDone_last e d last kept
    have ended := t.aesIdle_ended e
    have stx := ended.stx.trans result.stx
    obtain ⟨busy, done, event, idle, key, dkr, ⟨sram, retention, verdict⟩, flash, otp, cfg⟩ := result.ended ended
    exact ⟨_, exec_aesDone_firmware s e _ ((s.aesFinish_part e d run awake).trans ends) ((congrArg _ stx).trans unlent) ((congrArg _ stx).trans wait),
      busy, done, event, idle, key, dkr, ⟨sram, retention, fun gcm dec => (verdict gcm dec).trans (result.verdict gcm dec)⟩, flash, otp, cfg⟩
  · exact exec_aesDone_firmware s e s (s.aesFinish_paused e d run brace) unlent wait
  · have judged := s.tagVerdict_judged e good
    exact ⟨judged.verdict, judged.verdictN, judged.event⟩
  · have fit : WrapFit s e a :=
      ⟨idle, unsaved, awake, inside, dstLow, dstHigh, keySource, dkrKey, keyLen, attr, zero7, zeroC, blob, works, usable, serves⟩
    exact ⟨⟨_, (exec_wrap_ready s e a free).trans (congrArg Host.Outcome.next (s.startWrapUnwrap_begins e a true fit nofun)),
        wrap_begun s e a true (.wrap e a)⟩,
      fun target => ⟨_, (exec_unwrap_ready s e a free).trans (congrArg Host.Outcome.next
        (s.startWrapUnwrap_begins e a false fit fun _ => target)), wrap_begun s e a false (.unwrap e a)⟩⟩
  · obtain ⟨t, ends, framed, stx⟩ := s.wrapDone_stores e d serves
    have ended := (t.sramStore (fieldLe d 8 4) (kwWrap (s.aesOf e).key (s.wrapPlain e d))).aesIdle_ended e
    have stored : sameCfg t (t.sramStore (fieldLe d 8 4) (kwWrap (s.aesOf e).key (s.wrapPlain e d))) := sameCfg_of_regs rfl
    have idleStx := ended.stx.trans stx
    obtain ⟨sram, retention, flash, -, -, otp, -⟩ := ended.stores
    obtain ⟨sramT, retentionT, flashT, -, -, otpT, -⟩ := framed.stores
    exact ⟨_, exec_aesDone_firmware s e _ ((s.aesFinish_wrap e d run kept).trans ends) ((congrArg _ idleStx).trans unlent)
        ((congrArg _ idleStx).trans wait), sram.trans (congrArg (Mem.store 0 · (fieldLe d 8 4) (kwWrap (s.aesOf e).key (s.wrapPlain e d))) sramT),
      ended.busy, ended.done, retention.trans retentionT, flash.trans flashT, otp.trans otpT,
      sameCfg_trans framed.cfg (sameCfg_trans stored ended.cfg)⟩
  · have ended := s.aesIdle_ended e
    have reason := (s.aesIdle e).reasoned pgAES (pgAES * 256 + aeUNWRAP_FAIL) (State.aesCmdOff e)
    have rest := reason.rest
    have other : 1 - e.val ≠ e.val := by omega
    have stx : ((s.aesIdle e).refuse pgAES aeUNWRAP_FAIL (State.aesCmdOff e)).stx = s.stx := Eq.trans (congrArg State.stx rest :) ended.stx
    exact ⟨_, exec_aesDone_firmware s e _ ((s.aesFinish_unwrap e d run kept).trans (s.unwrapDone_fails e d bad)) ((congrArg _ stx).trans unlent)
        ((congrArg _ stx).trans wait), reason.code, congrArg AesSt.dkr (ended.others _ other), (congrArg State.sas ended.rest :),
      (congrArg (fun u : State => u.pke.regs) ended.rest :), (reason.aesStatus e (Reg.AES.STATUS_BUSY e)).trans ended.busy,
      (ended.toFramed.trans reason.toFramed).cfg⟩
  · subst plain
    have key := s.unwrapped_key e d len
    have held := s.showDkr_held x ⟨true, slice (s.unwrapped e d) 16 32, fieldLe (s.unwrapped e d) 4 1, 3, none, 0⟩
    have delivers := s.unwrapDone_delivers e d sound named _ (by
      rw [dst, idx, len]
      exact s.deliverKey_dkr e x _ _ (busy.imp (congrArg Fin.val) id) key)
    have ended := State.aesIdle_ended (s.showDkr x ⟨true, slice (s.unwrapped e d) 16 32, fieldLe (s.unwrapped e d) 4 1, 3, none, 0⟩) e
    have stx := ended.stx.trans (congrArg State.stx held.rest :)
    have unzeroed := (held.zeroDkr e).trans zero
    have whole := held.toFramed.trans ended.toFramed
    exact ⟨_, exec_aesDone_firmware s e _ ((s.aesFinish_unwrap e d run kept).trans delivers) ((congrArg _ stx).trans unlent)
        ((congrArg _ stx).trans wait), (ended.dkr unzeroed x).trans (congrArg AesSt.dkr held.engine),
      (congrArg (fun n => decide (n = 1)) ((ended.kept unzeroed).fields _ (dkrLoaded_apart_end e x))).trans held.loaded, ended.busy, whole.cfg,
      whole.stores⟩
  · subst plain
    have delivers := s.unwrapDone_delivers e d sound named _ (by rw [dst]; exact s.deliverKey_sak e _ _ _ fit)
    have loaded := s.setSakKey_loaded (fieldLe d 3 1) (slice (s.unwrapped e d) 16 (fieldLe d 5 1)) (fieldLe (s.unwrapped e d) 4 1)
    have ended := State.aesIdle_ended (s.setSakKey (fieldLe d 3 1) (slice (s.unwrapped e d) 16 (fieldLe d 5 1)) (fieldLe (s.unwrapped e d) 4 1) none) e
    have whole := loaded.1.trans ended.toFramed
    have sa := Eq.trans (congrArg (fun u : State => u.sa (fieldLe d 3 1)) ended.rest :) loaded.2
    exact ⟨_, exec_aesDone_firmware s e _ ((s.aesFinish_unwrap e d run kept).trans delivers) ((congrArg _ ended.stx).trans unlent)
        ((congrArg _ ended.stx).trans wait), congrArg Sa.key sa, congrArg Sa.loaded sa, ended.busy, whole.cfg, whole.stores⟩
  · subst plain
    have delivers := s.unwrapDone_delivers e d sound named _ (by rw [dst]; exact s.deliverKey_register e _ _ _)
    generalize key : slice (s.unwrapped e d) 16 (fieldLe d 5 1) = k at delivers
    have held := (s.spend 1).setKeyReg_held (fieldLe d 3 1) ⟨s.blobAlg k.length, k, false, none, 0, some (fieldLe (s.unwrapped e d) 4 1)⟩
    have ended := State.aesIdle_ended ((s.spend 1).setKeyReg (fieldLe d 3 1)
      ⟨s.blobAlg k.length, k, false, none, 0, some (fieldLe (s.unwrapped e d) 4 1)⟩) e
    have spent : Framed s (s.spend 1) := ⟨sameCfg_of_regs rfl, ⟨rfl, rfl, rfl, rfl, rfl, rfl, rfl⟩⟩
    have whole := spent.trans (held.toFramed.trans ended.toFramed)
    have reg := Eq.trans (congrArg (fun u : State => u.keyReg (fieldLe d 3 1)) ended.rest :) held.same
    have stx := ended.stx.trans (congrArg State.stx held.rest :)
    exact ⟨_, exec_aesDone_firmware s e _ ((s.aesFinish_unwrap e d run kept).trans delivers) ((congrArg _ stx).trans unlent)
        ((congrArg _ stx).trans wait), (congrArg KeyReg.seed reg).trans key.symm, congrArg KeyReg.ephemeral reg, congrArg KeyReg.keyAttr reg, ended.busy, whole.cfg,
      whole.stores⟩
  · have stx := (s.aesIdle_ended e).stx
    exact ⟨_, exec_aesAbort_firmware s e up unlent _ (if_pos busy) ((congrArg StxSt.sealWait stx).trans wait), abortAes_busy s e⟩
  · exact exec_aesAbort_firmware s e up unlent _ (if_neg (by rw [idle]; nofun)) wait
  · exact ⟨_, (congrArg Host.Outcome.next (if_pos up)).trans (congrArg (fun u : State => Host.Outcome.next u.goOn) (s.aesAbort_lent e a lent)),
      abortSaved_discards s e c saved⟩
  · have saved := s.aesSave_saved e kept
    exact ⟨saved.busy, saved.saved, congrArg AesSt.run saved.engine, (congrArg AesSt.dkr saved.engine :),
      saved.restored (s.unsaved_of_yields e yields) kept⟩

end Sys2Proof.Machine
end

section
/-! SUPPORT. What a zeroisation, a root load and the journal of the ledger leave of the debug page (R132): they write fields of later pages
only. -/

namespace Sys2Proof.Machine

/-- A field of a later page is none of the debug page. -/
theorem Fld.keyOf_ne_of_later {f g : Fld} (hf : 3 ≤ f.page) (hg : g.page = pgDBG) (placed : g.placed = true) : f.keyOf ≠ g.keyOf := by
  simp only [Fld.placed, Bool.and_eq_true, decide_eq_true_eq] at placed
  simp only [Fld.keyOf, hg, pgDBG]
  omega

/-- By its domain, its lowest bit or its offset, the field is not ACTIVE of the ledger page. -/
def Fld.spare (f : Fld) : Bool := decide (f.dom ≠ .clk) || (decide (f.lo < 32) && (decide (f.lo ≠ 0) || decide (f.off % 32 ≠ 8)))

theorem Fld.spare_dgeBusy (n : Nat) : (Reg.DGE.STATUS_BUSY n).spare = true := by simp [Fld.spare, Reg.DGE.STATUS_BUSY]
theorem Fld.spare_dgeMatch (n : Nat) : (Reg.DGE.MATCH n).spare = true := by simp [Fld.spare, Reg.DGE.MATCH]
theorem Fld.spare_dgeMatchN (n : Nat) : (Reg.DGE.MATCH_N n).spare = true := by simp [Fld.spare, Reg.DGE.MATCH_N]
theorem Fld.spare_chanBusy (c : Nat) : (Reg.FCH.STATUS_BUSY c).spare = true := by simp [Fld.spare, Reg.FCH.STATUS_BUSY]
theorem Fld.spare_eraseSuspends (c : Nat) : (Reg.FCH.ERASE_SUSPEND_COUNT c).spare = true := by
  simp [Fld.spare, Reg.FCH.ERASE_SUSPEND_COUNT]

theorem State.rd_wr_spare (s : State) (f : Fld) (v : Nat) (h : f.spare = true) :
    (s.wr f v).rd (Hdr.ACTIVE pgLEDG) = s.rd (Hdr.ACTIVE pgLEDG) := by
  simp only [Fld.spare, Bool.or_eq_true, Bool.and_eq_true, decide_eq_true_eq] at h
  rcases h with dom | ⟨low, place⟩
  · exact congrArg (fun t => Tbl.get 0 t (Hdr.ACTIVE pgLEDG).keyOf) ((live_setLive s.regs f.dom .clk _).trans (if_neg dom))
  · refine State.rd_wr_ne' _ _ _ _ ?_
    simp only [Fld.keyOf, Hdr.ACTIVE, pgLEDG]
    omega

theorem State.active_clear (s : State) (f : Fld) (reset : f.reset = 0) (off : s.active pgLEDG = false) : (s.wr f 0).active pgLEDG = false := by
  by_cases dom : f.dom = .clk
  · by_cases key : f.keyOf = (Hdr.ACTIVE pgLEDG).keyOf
    · have zero : (s.wr f 0).rd (Hdr.ACTIVE pgLEDG) = 0 := by
        have live : (s.wr f 0).regs.live .clk = Tbl.put 0 (s.regs.live .clk) f.keyOf (0 % 2 ^ f.width) := by
          simp only [State.wr, live_setLive, dom, reset, if_true]
        calc (s.wr f 0).rd (Hdr.ACTIVE pgLEDG) = Tbl.get 0 ((s.wr f 0).regs.live .clk) (Hdr.ACTIVE pgLEDG).keyOf := rfl
          _ = Tbl.get 0 (Tbl.put 0 (s.regs.live .clk) f.keyOf (0 % 2 ^ f.width)) f.keyOf := by rw [live, key]
          _ = 0 := (Tbl.get_put_same _ _ _ _).trans (Nat.zero_mod _)
      exact congrArg (fun n => decide (n = 1)) zero
    · exact (congrArg (fun n => decide (n = 1)) (s.rd_wr_ne' f _ 0 key)).trans off
  · exact (congrArg (fun n => decide (n = 1)) (s.rd_wr_spare f 0 (by simp [Fld.spare, dom]))).trans off

/-- The fields of the debug page, its state and OTP are as before, and the ledger page has not come into force. -/
structure DebugKept (s t : State) : Prop where
  fields : ∀ g : Fld, g.page = pgDBG → g.placed = true → t.rd g = s.rd g
  idle : s.active pgLEDG = false → t.active pgLEDG = false
  dbg : t.dbg = s.dbg
  otp : t.otp = s.otp

namespace DebugKept

variable {s0 s t : State}

theorem refl (s : State) : DebugKept s s := ⟨fun _ _ _ => rfl, id, rfl, rfl⟩

theorem trans (h : DebugKept s0 s) (k : DebugKept s t) : DebugKept s0 t :=
  ⟨fun g hg placed => (k.fields g hg placed).trans (h.fields g hg placed), k.idle ∘ h.idle, k.dbg.trans h.dbg, k.otp.trans h.otp⟩

/-- A change outside the registers, the debug state and OTP. -/
theorem same (h : DebugKept s0 s) (rest : (t.regs, t.dbg, t.otp) = (s.regs, s.dbg, s.otp)) : DebugKept s0 t :=
  have ⟨regs, rest⟩ := Prod.mk.inj rest
  have ⟨dbg, otp⟩ := Prod.mk.inj rest
  h.trans ⟨fun g _ _ => State.rd_of_regs regs g,
    fun off => (congrArg (fun n => decide (n = 1)) (State.rd_of_regs regs (Hdr.ACTIVE pgLEDG))).trans off,
    dbg, otp⟩

/-- A write of a field of a page after the debug page. -/
theorem write {f : Fld} {v : Nat} (page : 3 ≤ f.page) (spare : f.spare = true) (h : DebugKept s0 s) : DebugKept s0 (s.wr f v) :=
  h.trans ⟨fun g hg placed => s.rd_wr_ne' f g v (Fld.keyOf_ne_of_later page hg placed),
    fun off => (congrArg (fun n => decide (n = 1)) (s.rd_wr_spare f v spare)).trans off, rfl, rfl⟩

/-- A write of a field that is given outright: its place computes. -/
theorem wr {f : Fld} {v : Nat} (later : (decide (3 ≤ f.page) && f.spare) = true) (h : DebugKept s0 s) : DebugKept s0 (s.wr f v) :=
  have ⟨page, spare⟩ := Bool.and_eq_true_iff.1 later
  h.write (of_decide_eq_true page) spare

/-- A write of a field of an indexed page. -/
theorem wrOf {f : Fld} {v b n : Nat} (page : f.page = b + 3 + n) (spare : f.spare = true) (h : DebugKept s0 s) : DebugKept s0 (s.wr f v) :=
  h.write (by omega) spare

/-- A field that is cleared puts no page into force. -/
theorem clearAt {f : Fld} (page : 3 ≤ f.page) (reset : f.reset = 0) (h : DebugKept s0 s) : DebugKept s0 (s.wr f 0) :=
  h.trans ⟨fun g hg placed => s.rd_wr_ne' f g 0 (Fld.keyOf_ne_of_later page hg placed), s.active_clear f reset, rfl, rfl⟩

theorem clear {f : Fld} (later : (decide (3 ≤ f.page) && decide (f.reset = 0)) = true) (h : DebugKept s0 s) : DebugKept s0 (s.wr f 0) :=
  have ⟨page, reset⟩ := Bool.and_eq_true_iff.1 later
  h.clearAt (of_decide_eq_true page) (of_decide_eq_true reset)

theorem ite {a b : State} {p : Prop} {_ : Decidable p} (ha : DebugKept s0 a) (hb : DebugKept s0 b) : DebugKept s0 (if p then a else b) := by
  split <;> assumption

theorem foldl {α : Type} {f : State → α → State} {l : List α} (h : DebugKept s0 s)
    (hf : ∀ {u : State} {x : α}, DebugKept s0 u → DebugKept s0 (f u x)) : DebugKept s0 (l.foldl f s) :=
  List.foldlRecOn l f h fun _ k _ _ => hf k

theorem raiseAt {p b : Nat} (page : 3 ≤ p) (bit : b < 32) (h : DebugKept s0 s) : DebugKept s0 (s.raise p b) :=
  h.write page (by simp [Fld.spare, Hdr.EVENT, bit])

theorem raise {p b : Nat} (later : (decide (3 ≤ p) && decide (b < 32)) = true) (h : DebugKept s0 s) : DebugKept s0 (s.raise p b) :=
  have ⟨page, bit⟩ := Bool.and_eq_true_iff.1 later
  h.raiseAt (of_decide_eq_true page) (of_decide_eq_true bit)

/-- A reason and its offset on a later page. -/
theorem reason {p c off : Nat} (page : 3 ≤ p) (h : DebugKept s0 s) :
    DebugKept s0 ((s.wr (Hdr.REASON_CODE p) c).wr (Hdr.REASON_OFFSET p) off) :=
  (h.write page (by simp [Fld.spare, Hdr.REASON_CODE])).write page (by simp [Fld.spare, Hdr.REASON_OFFSET])

theorem refuse {p c off : Nat} (page : 3 ≤ p) (h : DebugKept s0 s) : DebugKept s0 (s.refuse p c off) := h.reason page

/-- The vault, the SAK registers, the sessions, their secrets and CMP lie outside the registers. -/
theorem outside {v : VaultSt} {e : Tbl (BitVec 384)} {a : Tbl Sa} {x : StxSt} {c : CmpSt} (h : DebugKept s0 s) :
    DebugKept s0 { s with vault := v, ecdhOut := e, sas := a, stx := x, cmp := c } := h.same rfl

/-! Hosts and channels -/

theorem setSched {x : Nat} {d : Sched} (h : DebugKept s0 s) : DebugKept s0 (s.setSched x d) := h.same rfl

theorem setHost {n : Nat} {d : HostSt} (h : DebugKept s0 s) : DebugKept s0 (s.setHost n d) := h.same rfl

theorem setDge {n : Nat} {d : DgeSt} (h : DebugKept s0 s) : DebugKept s0 (s.setDge n d) := h.same rfl

theorem cmdEnd {p off : Nat} (h : DebugKept s0 s) : DebugKept s0 (s.cmdEnd p off) := h.same rfl

theorem releaseDge {n : Nat} (h : DebugKept s0 s) : DebugKept s0 (s.releaseDge n) := by
  unfold State.releaseDge
  exact ite (wrOf rfl rfl <| h.same rfl) (wrOf rfl (Fld.spare_dgeBusy n) <| h.same rfl)

theorem dropReqs {x : Nat} {p : Req → Bool} (h : DebugKept s0 s) : DebugKept s0 (s.dropReqs x p) := by
  unfold State.dropReqs
  dsimp only
  refine ite (h.same rfl) ?_
  split
  · exact ite (wrOf rfl rfl <| h.same rfl) (h.same rfl)
  · exact h.same rfl

theorem pumpPke (h : DebugKept s0 s) : DebugKept s0 s.pumpPke := by
  unfold State.pumpPke
  dsimp only
  refine ite h ?_
  split <;> exact h.same rfl

theorem givePins {c : Nat} (h : DebugKept s0 s) : DebugKept s0 (s.givePins c) := ite (wrOf rfl rfl <| wrOf rfl rfl h) (wrOf rfl rfl h)

theorem takePins {c : Nat} (h : DebugKept s0 s) : DebugKept s0 (s.takePins c) := ite (wrOf rfl rfl <| wrOf rfl rfl h) (wrOf rfl rfl h)

theorem chanRest {c : Nat} (h : DebugKept s0 s) : DebugKept s0 (s.chanRest c) := by
  have k : DebugKept s0 (s.wrb (Reg.FCH.STATUS_BUSY c) (s.chan c).suspended.isSome) := wrOf rfl (Fld.spare_chanBusy c) h
  exact ite k k.givePins

theorem pumpCh {c : Nat} (h : DebugKept s0 s) : DebugKept s0 (s.pumpCh c) := by
  unfold State.pumpCh
  dsimp only
  refine ite h ?_
  split
  · split
    · exact ite h.setSched.chanRest (wrOf rfl rfl <| h.same rfl)
    · exact h.setSched.chanRest
  · exact ite h (wrOf rfl (Fld.spare_chanBusy c) (ite (wr rfl h.setSched) h.setSched).takePins)

theorem dropIssuer {n : Nat} {ks : List ReqKind} (h : DebugKept s0 s) : DebugKept s0 (s.dropIssuer n ks) :=
  h.foldl fun k => ite k.dropReqs.pumpCh k

theorem setLaneI {n : Nat} (h : DebugKept s0 s) : DebugKept s0 (s.setLaneI n 0) := wr rfl <| clear rfl <| h.same rfl

theorem gateEnd {n : Nat} (h : DebugKept s0 s) : DebugKept s0 (s.gateEnd n) := by
  unfold State.gateEnd
  split
  · exact h
  · exact (h.foldl releaseDge).setHost.setLaneI.dropReqs.pumpPke.dropIssuer

theorem pkeLeave {n : Nat} (h : DebugKept s0 s) : DebugKept s0 (s.pkeLeave n) := h.dropReqs.pumpPke

theorem readEnd {n : Nat} (h : DebugKept s0 s) : DebugKept s0 (s.readEnd n) := by
  unfold State.readEnd
  split
  · exact h
  · have k := (h.setHost (n := n) (d := { s.host n with read := none })).pkeLeave (n := n)
    exact dropIssuer (ite (cmdEnd <| refuse (by decide) k) (ite (cmdEnd <| refuse (by decide) k) k))

theorem restoreEnd {n : Nat} (h : DebugKept s0 s) : DebugKept s0 (s.restoreEnd n) := by
  unfold State.restoreEnd
  split
  · exact h
  · next r _ =>
    have k : DebugKept s0 (match r.engine with | some e => s.releaseDge e | none => s) := by
      split
      · exact h.releaseDge
      · exact h
    exact dropIssuer (ite (wr rfl k.setHost.pkeLeave.outside) k.setHost.pkeLeave)

theorem touchEnd {n : Nat} (h : DebugKept s0 s) : DebugKept s0 (s.touchEnd n) := by
  unfold State.touchEnd
  split
  · exact ite (h.same rfl) h
  · exact h

theorem hostWorkEnd {n : Nat} (h : DebugKept s0 s) : DebugKept s0 (s.hostWorkEnd n) :=
  h.gateEnd.restoreEnd.readEnd.touchEnd.setHost.setLaneI.dropIssuer

theorem enqueue {x : Nat} {r : Req} (h : DebugKept s0 s) : DebugKept s0 (s.enqueue x r) := by
  unfold State.enqueue
  dsimp only
  refine ite h.setSched (pumpCh ?_)
  split
  · exact ite (wrOf rfl (Fld.spare_eraseSuspends _) <| h.same rfl) h.setSched
  · exact h.setSched

theorem ladder5 {n : Nat} (h : DebugKept s0 s) : DebugKept s0 (s.ladder5 n) := ite (raise rfl <| wr rfl h) h

theorem ladder4 {n : Nat} (h : DebugKept s0 s) : DebugKept s0 (s.ladder4 n) := ite (enqueue <| setHost <| wr rfl h) h.ladder5

theorem ladder3 {n : Nat} (h : DebugKept s0 s) : DebugKept s0 (s.ladder3 n) :=
  ite (raise rfl <| wr rfl <| wr rfl <| wr rfl <| wr rfl <| wr rfl h) h.ladder4

theorem ladder {n l : Nat} (h : DebugKept s0 s) : DebugKept s0 (s.ladder n l) := ite h.ladder3 (ite h.ladder4 (ite h.ladder5 h))

theorem voidRec {n sl : Nat} (h : DebugKept s0 s) : DebugKept s0 (s.voidRec n sl) := ite (h.same rfl) (ite (h.same rfl) h)

theorem hostFail {n r : Nat} (h : DebugKept s0 s) : DebugKept s0 (s.hostFail n r) :=
  have failed : DebugKept s0 _ := setHost <| raise rfl <| raise rfl <| wr rfl <| wr rfl h.hostWorkEnd
  ladder (ite failed.voidRec failed)

/-- By the fuel: each round starts one verification, or takes one host that finds no record off the list. -/
theorem gateKick {fuel : Nat} (h : DebugKept s0 s) : DebugKept s0 (s.gateKick fuel).1 := by
  induction fuel generalizing s with
  | zero => exact h
  | succ fuel ih =>
    unfold State.gateKick
    split
    · exact h
    · split
      · exact h
      · split
        · exact ih (enqueue <| setHost <| foldl (wr rfl h) fun k => wr rfl <| clear rfl k)
        · exact ih h.setHost

theorem hostFailed {n r : Nat} (h : DebugKept s0 s) : DebugKept s0 (s.hostFailed n r) := h.hostFail.gateKick.foldl hostFail

theorem restoreFail {n : Nat} (h : DebugKept s0 s) : DebugKept s0 (s.restoreFail n) := ladder5 <| raise rfl <| wr rfl h.readEnd.restoreEnd

/-! The engines that a zeroisation ends (R231) -/

theorem slotRelease {o : Option Nat} (h : DebugKept s0 s) : DebugKept s0 (s.slotRelease o) := by
  unfold State.slotRelease
  split
  · exact h
  · exact ite h (h.same rfl)

theorem dgeIdle {n : Nat} (h : DebugKept s0 s) : DebugKept s0 (s.dgeIdle n) :=
  cmdEnd <| wrOf rfl rfl <| wrOf rfl rfl <| wrOf rfl (Fld.spare_dgeBusy n) h.slotRelease.setDge

theorem dgeClearResults {n : Nat} (h : DebugKept s0 s) : DebugKept s0 (s.dgeClearResults n) :=
  wrOf rfl (Fld.spare_dgeMatchN n) <| wrOf rfl (Fld.spare_dgeMatch n) <| h.foldl fun k => clearAt (Nat.le_add_right_of_le (by decide)) rfl k

theorem revokedEnd {p c off : Nat} (h : DebugKept s0 s) (page : 3 ≤ p) : DebugKept s0 (s.revokedEnd p c off) :=
  wr rfl <| raise rfl <| h.reason page

theorem seqLost {n : Nat} (h : DebugKept s0 s) : DebugKept s0 (s.seqLost n) := by
  unfold State.seqLost
  have cleared : DebugKept s0 (if s.flag (Reg.DGE.STATUS_SAVED n) then s else (s.dgeClearResults n).refuse (pgDGE n) dgCONTEXT_LOST 0x44) :=
    ite h (refuse (Nat.le_add_right_of_le (by decide)) h.dgeClearResults)
  split
  · exact h
  · dsimp only
    split
    · exact cleared.hostFailed
    · exact ite cleared.restoreFail cleared.releaseDge
    · exact cleared.releaseDge

theorem fwLost {n : Nat} (h : DebugKept s0 s) : DebugKept s0 (s.fwLost n) :=
  have page : 3 ≤ pgDGE n := Nat.le_add_right_of_le (by decide)
  ite h (wrOf rfl rfl <| ite (h.dgeClearResults.dgeIdle.revokedEnd page) (refuse page h.dgeClearResults.dgeIdle))

theorem dgeLost {n : Nat} (h : DebugKept s0 s) : DebugKept s0 (s.dgeLost n) := h.seqLost.fwLost

theorem showDkr_empty {e : Nat} (h : DebugKept s0 s) : DebugKept s0 (s.showDkr e Dkr.empty) := wr rfl <| wr rfl <| wr rfl <| clear rfl <| h.same rfl

theorem revokeOps {gone : Nat → Bool} {r : Nat} (h : DebugKept s0 s) : DebugKept s0 (s.revokeOps gone r) :=
  foldl (h.same rfl) fun k => ite (ite (k.same rfl) k.showDkr_empty) k

theorem aesSavedGone {gone : Nat → Bool} (h : DebugKept s0 s) : DebugKept s0 (s.aesSavedGone gone) := by
  refine h.foldl fun k => ?_
  split
  · exact ite (revokedEnd (raise rfl <| wr rfl <| clear rfl <| clear rfl <| wr rfl <| k.same rfl) (by decide)) k
  · exact k

/-! Keys and sessions (R132, R185) -/

theorem setKeyReg_empty {r : Nat} (h : DebugKept s0 s) : DebugKept s0 (s.setKeyReg r KeyReg.empty) := wr rfl <| wr rfl <| clear rfl <| h.same rfl

theorem keyRegsGone {gone : Nat → Bool} (h : DebugKept s0 s) : DebugKept s0 (s.keyRegsGone gone) := by
  refine h.foldl fun k => ?_
  split
  · exact ite k.setKeyReg_empty k
  · exact k

theorem savedDkrGone {gone : Nat → Bool} (h : DebugKept s0 s) : DebugKept s0 (s.savedDkrGone gone) := by
  unfold State.savedDkrGone
  split
  · split
    · exact ite (h.same rfl) h
    · exact h
  · exact h

/-- LOADED and ENABLED of a SAK register lie at no header's place. -/
theorem spare_saFlds (x : Nat) : (State.saLoadedFld x).spare = true ∧ (State.saEnabledFld x).spare = true
    ∧ 3 ≤ (State.saLoadedFld x).page ∧ 3 ≤ (State.saEnabledFld x).page := by
  unfold State.saLoadedFld State.saEnabledFld
  have place : (0x54 + 64 * saSc x) % 32 ≠ 8 := by omega
  split
  · simp [Fld.spare, Reg.MSEC.SA_STATUS_LOADED0, Reg.MSEC.SA_STATUS_ENABLED0, place]
  · split
    · exact ⟨rfl, rfl, Nat.le_of_ble_eq_true rfl, Nat.le_of_ble_eq_true rfl⟩
    · split
      · exact ⟨rfl, rfl, Nat.le_of_ble_eq_true rfl, Nat.le_of_ble_eq_true rfl⟩
      · exact ⟨rfl, rfl, Nat.le_of_ble_eq_true rfl, Nat.le_of_ble_eq_true rfl⟩

theorem setSa {x : Nat} {a : Sa} (h : DebugKept s0 s) : DebugKept s0 (s.setSa x a) :=
  have ⟨loaded, enabled, loadedPage, enabledPage⟩ := spare_saFlds x
  write enabledPage enabled <| write loadedPage loaded h.outside

theorem saRevoke {gone : Nat → Bool} (h : DebugKept s0 s) : DebugKept s0 (s.saRevoke gone) :=
  h.foldl fun k => ite k (ite (k.setSa.same rfl) (raise rfl <| wr rfl <| wr rfl k.setSa))

theorem sakLost {x : Nat} (h : DebugKept s0 s) : DebugKept s0 (s.sakLost x) := ite h.setSa h

theorem roundLeave {i : Nat} (h : DebugKept s0 s) : DebugKept s0 (s.roundLeave i) := by
  have verdict : DebugKept s0 (s.roundVerdict i vdNO_QUOTE) := by
    unfold State.roundVerdict
    split
    · exact h
    · exact h.same rfl
  unfold State.roundLeave
  split
  · exact h
  · exact ite h verdict

theorem setSess {i : Nat} {c : Sess} (h : DebugKept s0 s) : DebugKept s0 (s.setSess i c) :=
  wr rfl <| wr rfl h.outside

theorem toIdle {i c : Nat} (h : DebugKept s0 s) : DebugKept s0 (s.toIdle i c) := by
  have k : DebugKept s0 (match (s.sess i).ephReg with
      | some r => (s.roundLeave i).setKeyReg r KeyReg.empty
      | none => s.roundLeave i) := by
    split
    · exact h.roundLeave.setKeyReg_empty
    · exact h.roundLeave
  unfold State.toIdle
  exact ite h (pumpPke <| dropReqs <| ite (raise rfl <| setSess <| k.outside) (setSess <| k.outside))

theorem identityLost (h : DebugKept s0 s) : DebugKept s0 s.identityLost := by
  have k : DebugKept s0 ((s.wr Reg.ATT.STATUS_IDENTITY_READY 0).allIdle sxKEY_LOST) := foldl (wr rfl h) toIdle
  unfold State.identityLost
  dsimp only
  split
  · exact k.same rfl
  · exact k

theorem setLedger {l : LedgerSt} (h : DebugKept s0 s) : DebugKept s0 (s.setLedger l) := h.same rfl

theorem keyLost (h : DebugKept s0 s) : DebugKept s0 s.keyLost := ite (raise rfl <| wr rfl h.setLedger) h

theorem laneEnd {c : Nat} (h : DebugKept s0 s) : DebugKept s0 (s.laneEnd c) := by
  unfold State.laneEnd
  exact ite h (clear rfl <| h.same rfl)

theorem laneGo {u : Nat} (h : DebugKept s0 s) : DebugKept s0 (s.laneGo u) :=
  ite h (ite (pumpCh <| raiseAt (Nat.le_add_right_of_le (by decide)) (by decide) h.dropReqs.laneEnd.cmdEnd) h.pumpCh)

theorem lanesGo (h : DebugKept s0 s) : DebugKept s0 s.lanesGo := h.foldl laneGo

/-! The vault (R175, R185) -/

theorem draw {n : Nat} (h : DebugKept s0 s) : DebugKept s0 (s.draw n).1 :=
  have reseeded : DebugKept s0 (s.bump Reg.RNG.RESEED_COUNT) := wr rfl h
  (ite (reseeded.same rfl) h : DebugKept s0 (if 65536 ≤ s.rng.requests then s.reseed else s)).same rfl

theorem epochKeys (h : DebugKept s0 s) : DebugKept s0 s.epochKeys := by
  unfold State.epochKeys
  exact ite h (h.draw (n := 96)).outside

theorem vaultEpoch (h : DebugKept s0 s) : DebugKept s0 s.vaultEpoch :=
  epochKeys <| wr rfl <| wr rfl <| wr rfl h.outside

theorem setSlot {i : Nat} {x : Slot} (h : DebugKept s0 s) : DebugKept s0 (s.setSlot i x) := h.outside

theorem rootLoadNow (h : DebugKept s0 s) : DebugKept s0 s.rootLoadNow := by
  have begun : DebugKept s0 ((s.wr Reg.KVT.STATUS_ROOT_SOURCE s.rootSource).raise pgKVT 11) := raise rfl <| wr rfl h
  have served : DebugKept s0 { (s.wr Reg.KVT.STATUS_ROOT_SOURCE s.rootSource).raise pgKVT 11 with
      vault := { s.vault with due := false } } := begun.same rfl
  exact ite served (wr rfl <| setSlot <| setSlot <| setSlot <| setSlot <| setSlot <| setSlot <| outside served.draw)

theorem rootLoad (h : DebugKept s0 s) : DebugKept s0 s.rootLoad := ite (h.epochKeys.same rfl) h.epochKeys.rootLoadNow

/-- The zeroisation of the opening order (R132). -/
theorem zeroiseEpoch (h : DebugKept s0 s) : DebugKept s0 s.zeroiseEpoch := by
  unfold State.zeroiseEpoch
  dsimp only
  generalize hu : (List.range 16).foldl State.sakLost _ = u
  have k : DebugKept s0 u := by
    rw [← hu]
    exact foldl (aesSavedGone (savedDkrGone (keyRegsGone (saRevoke (foldl (foldl h.revokeOps dgeLost) showDkr_empty))))) sakLost
  refine vaultEpoch (identityLost (keyLost (lanesGo ?_)))
  split
  · exact k.same rfl
  · exact k.same rfl

/-! The journal of the ledger (R456-R464) -/

theorem setJournal {j : List JRec} (h : DebugKept s0 s) : DebugKept s0 (s.setJournal j) := ite (raise rfl <| wr rfl h.setLedger) (wr rfl h.setLedger)

theorem putItem {r m : Nat} {u : Bool} {d : List Byte} (h : DebugKept s0 s) : DebugKept s0 (s.putItem r u m d) := by
  unfold State.putItem
  split
  · exact ite h.setLedger h.setJournal
  · exact ite h h.setJournal.setLedger

theorem knot {t v : Nat} (h : DebugKept s0 s) : DebugKept s0 (s.knot t v) := h.putItem.setLedger

theorem minuteEnd (h : DebugKept s0 s) : DebugKept s0 s.minuteEnd := by
  unfold State.minuteEnd
  split
  · exact (ite h.putItem h).setLedger
  · exact h

theorem coderBreak (h : DebugKept s0 s) : DebugKept s0 s.coderBreak := by
  have flushed : DebugKept s0 s.coderFlush := ite h.knot h
  exact (ite flushed.minuteEnd flushed).setLedger

theorem recordFall (h : DebugKept s0 s) : DebugKept s0 s.recordFall := setLedger <| wr rfl h.coderBreak

theorem setRing {r : Nat} {g : Ring} (h : DebugKept s0 s) : DebugKept s0 (s.setRing r g) := h.same rfl

theorem flashProgram {ch cs a : Nat} {bs : List Byte} (h : DebugKept s0 s) : DebugKept s0 (s.flashProgram ch cs a bs) := h.same rfl

theorem flashErase {ch cs a n : Nat} (h : DebugKept s0 s) : DebugKept s0 (s.flashErase ch cs a n) := h.same rfl

theorem closePage {r : Nat} (h : DebugKept s0 s) : DebugKept s0 (s.closePage r) := by
  unfold State.closePage
  split
  · exact ite h.flashProgram.setRing h
  · exact h

theorem openPage {r : Nat} (h : DebugKept s0 s) : DebugKept s0 (s.openPage r) := by
  unfold State.openPage
  dsimp only
  have erased : DebugKept s0 (s.ringErased r) := h.flashErase.setRing
  exact ite (ite erased h).flashProgram.setRing.enqueue (ite erased h).flashProgram.setRing

theorem blockPlace {r n : Nat} (h : DebugKept s0 s) : DebugKept s0 (s.blockPlace r n) := ite h (ite h.setRing h.closePage.openPage)

theorem nextBlock (h : DebugKept s0 s) : DebugKept s0 s.nextBlock := by
  unfold State.nextBlock
  split
  · exact h.blockPlace.setLedger.enqueue
  · exact h.setLedger

theorem commitStart (h : DebugKept s0 s) : DebugKept s0 s.commitStart := ite h h.nextBlock

theorem ledgerDebugOpen {d : BitVec 384} {rights : Nat} (h : DebugKept s0 s) : DebugKept s0 (s.ledgerDebugOpen d rights) :=
  h.putItem.setLedger.commitStart

end DebugKept
end Sys2Proof.Machine
end

section
/-! SUPPORT. What a challenge, a refusal and an accepted grant write on the debug page (R126, R128, R129, R135), and what the ledger's check
does where its page is not in force (R464). -/

namespace Sys2Proof.Machine

theorem places_of_fields {l : List (Fld × Nat)} (places : (l.map Prod.fst).Pairwise fun f g => f.keyOf ≠ g.keyOf) :
    l.Pairwise fun x y => x.1.keyOf ≠ y.1.keyOf :=
  (List.pairwise_map (R := fun f g : Fld => f.keyOf ≠ g.keyOf) (f := Prod.fst) (l := l)).mp places

theorem sameFieldsBut_rd_apart {l : List Fld} {s t : State} (h : sameFieldsBut l s t) (g : Fld) (hg : l.all (fun f => f.apart g) = true) :
    t.rd g = s.rd g := h g fun f hf => Fld.keyOf_ne_of_apart (List.all_eq_true.mp hg f hf)

/-- A new entry of the security event log is among the newest 4,096, with its reason (R22). -/
theorem State.secLog_reason (s : State) (k : SecKind) (reason : Nat) (d : BitVec 384) :
    ∃ e ∈ (s.secLog k reason d).nvm.secLog, e.kind = k ∧ e.reason = reason ∧ e.mrt = s.time.mrt := by
  refine ⟨⟨k, reason, BitVec.ofNat 128 (d.toNat / 2 ^ 256), s.time.mrt⟩, ?_, rfl, rfl, rfl⟩
  unfold State.secLog
  dsimp only
  rw [List.drop_append_of_le_length (by rw [List.length_append, List.length_singleton]; omega)]
  exact List.mem_append_right _ List.mem_cons_self

/-- What shows a challenge. -/
def challengeWrites (c : Option (BitVec 128)) : List (Fld × Nat) :=
  (Reg.DBG.GRANT_STATUS_CHALLENGE_VALID, b2n c.isSome) :: (List.range 4).map fun i => (Reg.DBG.CHALLENGE i, digestWord (c.getD 0) i)

/-- The fields that show a challenge. -/
def challengeFlds : List Fld := Reg.DBG.GRANT_STATUS_CHALLENGE_VALID :: (List.range 4).map Reg.DBG.CHALLENGE

theorem challengeWrites_fields (c : Option (BitVec 128)) : (challengeWrites c).map Prod.fst = challengeFlds := by
  rw [challengeWrites, List.map_cons, List.map_map]
  rfl

/-- `c` is the one challenge that is held, and it is shown; nothing else has changed. -/
structure ChallengeHeld (c : Option (BitVec 128)) (s t : State) : Prop extends OnlyFields challengeFlds s t where
  dbg : t.dbg = { s.dbg with challenge := c }
  valid : t.flag Reg.DBG.GRANT_STATUS_CHALLENGE_VALID = c.isSome
  rest : t = { s with regs := t.regs, dbg := t.dbg }

theorem State.setChallenge_eq (s : State) (c : Option (BitVec 128)) :
    s.setChallenge c = ({ s with dbg := { s.dbg with challenge := c } } : State).writeAll (challengeWrites c) := by
  rw [State.writeAll, challengeWrites, List.foldl_cons, List.foldl_map]
  rfl

theorem State.setChallenge_held (s : State) (c : Option (BitVec 128)) : ChallengeHeld c s (s.setChallenge c) := by
  have places : ((challengeWrites c).map Prod.fst).Pairwise fun f g => f.keyOf ≠ g.keyOf := by
    rw [challengeWrites_fields]
    decide
  have shown := ({ s with dbg := { s.dbg with challenge := c } } : State).writeAll_written (challengeWrites c) (places_of_fields places)
  have held : OnlyFields challengeFlds s { s with dbg := { s.dbg with challenge := c } } := (OnlyFields.refl _ s).outside
  rw [s.setChallenge_eq]
  generalize ({ s with dbg := { s.dbg with challenge := c } } : State).writeAll (challengeWrites c) = t at shown
  have dbg := (congrArg State.dbg shown.rest :)
  have only := shown.toOnlyFields
  rw [challengeWrites_fields] at only
  refine ⟨held.trans only, dbg, shown.flagIs List.mem_cons_self, ?_⟩
  rw [dbg]
  exact shown.rest

namespace ChallengeHeld

variable {c : Option (BitVec 128)} {s t : State} (h : ChallengeHeld c s t)
include h

theorem active (p : Nat) : t.active p = s.active p := h.flag_apart (Hdr.ACTIVE p) rfl

theorem lc : t.lc = s.lc := h.rd_apart Reg.LCS.STATE rfl

theorem otp : t.otp = s.otp := h.stores.otp

/-- A challenge has no part in where the root comes from. -/
theorem rootWithheld : t.rootWithheld = s.rootWithheld := by
  have born : t.bornDone = s.bornDone := (congrArg State.bornDone h.rest :)
  unfold State.rootWithheld State.rootSource State.inService
  rw [h.lc, born, h.flag_apart Reg.AON.TAMPER_LATCH rfl, h.flag_apart Reg.DBG.DBG_STATE_ROOT_TEST rfl]

end ChallengeHeld

/-- What the refusal of a grant for reason `c` writes. -/
def refuseWrites (c : Nat) : List (Fld × Nat) :=
  [(Hdr.REASON_CODE pgDBG, pgDBG * 256 + c), (Hdr.REASON_OFFSET pgDBG, 0x48), (Hdr.EVENT pgDBG 9, 1), (Reg.DBG.GRANT_STATUS_BUSY, 0)]

/-- A grant has been refused for reason `c` (R128, R135). -/
structure GrantRefused (c : Nat) (s t : State) : Prop where
  code : t.rd (Hdr.REASON_CODE pgDBG) = (pgDBG * 256 + c) % 2 ^ 16
  event : t.raised pgDBG 9 = true
  log : ∃ e ∈ t.nvm.secLog, e.kind = .grantRefused ∧ e.reason = c ∧ e.mrt = s.time.mrt
  fields : sameFieldsBut ((refuseWrites c).map Prod.fst) s t
  cfg : sameCfg s t
  dbg : t.dbg = s.dbg
  otp : t.otp = s.otp
  vault : t.vault = s.vault

theorem State.grantRefuse_refused (s : State) (c : Nat) (d : BitVec 384) : GrantRefused c s (s.grantRefuse c d) := by
  have places : ((refuseWrites 0).map Prod.fst).Pairwise fun f g => f.keyOf ≠ g.keyOf := by decide
  have shown := s.writeAll_written (refuseWrites c) (places_of_fields places)
  have regs : (s.grantRefuse c d).regs = (s.writeAll (refuseWrites c)).regs := rfl
  constructor
  case code => exact (State.rd_of_regs regs _).trans (shown.reads _ List.mem_cons_self)
  case event => exact shown.on (List.mem_cons_of_mem _ (List.mem_cons_of_mem _ List.mem_cons_self))
  case log => exact ((s.refuse pgDBG c 0x48).raise pgDBG 9).secLog_reason .grantRefused c d
  case fields => exact fun g apart => (State.rd_of_regs regs g).trans (shown.fields g apart)
  case cfg => exact sameCfg_trans shown.cfg (sameCfg_of_regs regs)
  case dbg => rfl
  case otp => rfl
  case vault => rfl

theorem GrantRefused.rd_apart {c : Nat} {s t : State} (h : GrantRefused c s t) (g : Fld)
    (hg : ((refuseWrites c).map Prod.fst).all (fun f => f.apart g) = true) : t.rd g = s.rd g := sameFieldsBut_rd_apart h.fields g hg

/-- The first fields that an accepted grant writes. -/
def grantWrites (s : State) (r : Nat) : List (Fld × Nat) :=
  [(Reg.DBG.RIGHTS_ACTIVE, s.rd Reg.DBG.RIGHTS_ACTIVE ||| r), (Reg.DBG.DBG_STATE_GRANT_ACTIVE, 1)]

/-- GRANT_DIGEST shows the digest of the grant. -/
def digestWrites (d : BitVec 384) : List (Fld × Nat) := (List.range 12).map fun i => (Reg.DBG.GRANT_DIGEST i, digestWord d i)

theorem digestWrites_fields (d : BitVec 384) : (digestWrites d).map Prod.fst = (List.range 12).map Reg.DBG.GRANT_DIGEST := by
  rw [digestWrites, List.map_map]
  rfl

/-- The last fields that an accepted grant writes. -/
def grantEndWrites : List (Fld × Nat) := [(Hdr.EVENT pgDBG 8, 1), (Reg.DBG.GRANT_STATUS_BUSY, 0)]

/-- The fields that an accepted grant writes. -/
def grantFlds : List Fld :=
  [Reg.DBG.RIGHTS_ACTIVE, Reg.DBG.DBG_STATE_GRANT_ACTIVE] ++ ((List.range 12).map Reg.DBG.GRANT_DIGEST ++ grantEndWrites.map Prod.fst)

/-- A grant with these rights has been accepted (R129, R130, R135). -/
structure GrantGiven (r : Nat) (s t : State) : Prop where
  rights : t.rd Reg.DBG.RIGHTS_ACTIVE = (s.rd Reg.DBG.RIGHTS_ACTIVE ||| r) % 2 ^ Reg.DBG.RIGHTS_ACTIVE.width
  event : t.raised pgDBG 8 = true
  layUp : t.mode.layUp = (s.mode.layUp || rightIn r rightLAY_UP)
  log : ∃ e ∈ t.nvm.secLog, e.kind = .grantAccepted ∧ e.mrt = s.time.mrt
  ended : (t.cmdSlot pgDBG 0x48).running = none ∧ t.flag Reg.DBG.GRANT_STATUS_BUSY = false
  dbg : t.dbg = s.dbg
  otp : t.otp = s.otp
  cfg : sameCfg s t
  fields : sameFieldsBut grantFlds s t

/-- The rights have been added, LAY_UP among them. -/
def State.granted (s : State) (r : Nat) : State :=
  { s.writeAll (grantWrites s r) with mode := { s.mode with layUp := s.mode.layUp || rightIn r rightLAY_UP } }

/-- The end of an accepted grant: its event, its entry in the security log, and its command. -/
def State.grantEnd (s : State) (d : BitVec 384) : State :=
  (((s.raise pgDBG 8).secLog .grantAccepted 0 d).wr Reg.DBG.GRANT_STATUS_BUSY 0).cmdEnd pgDBG 0x48

theorem State.grantAdd_eq (s : State) (r : Nat) (d : BitVec 384) : s.grantAdd r d = ((s.granted r).writeAll (digestWrites d)).grantEnd d := by
  have laidUp : (if rightIn r rightLAY_UP then { s.writeAll (grantWrites s r) with mode := { s.mode with layUp := true } }
      else s.writeAll (grantWrites s r)) = s.granted r := by
    unfold State.granted
    cases rightIn r rightLAY_UP
    · rw [Bool.or_false]
      rfl
    · rw [Bool.or_true]
      rfl
  rw [← laidUp, State.writeAll, digestWrites, List.foldl_map]
  rfl

/-- The rights and LAY_UP stand, the rest of the grant is still to be shown. -/
structure Granted (r : Nat) (s t : State) : Prop extends OnlyFields grantFlds s t where
  rights : t.rd Reg.DBG.RIGHTS_ACTIVE = (s.rd Reg.DBG.RIGHTS_ACTIVE ||| r) % 2 ^ Reg.DBG.RIGHTS_ACTIVE.width
  layUp : t.mode.layUp = (s.mode.layUp || rightIn r rightLAY_UP)
  dbg : t.dbg = s.dbg
  time : t.time = s.time

theorem State.granted_granted (s : State) (r : Nat) : Granted r s (s.granted r) := by
  have places : ((grantWrites s r).map Prod.fst).Pairwise fun f g => f.keyOf ≠ g.keyOf :=
    show [Reg.DBG.RIGHTS_ACTIVE, Reg.DBG.DBG_STATE_GRANT_ACTIVE].Pairwise _ by decide
  have begun := s.writeAll_written (grantWrites s r) (places_of_fields places)
  have dbg := (congrArg State.dbg begun.rest :)
  have time := (congrArg State.time begun.rest :)
  unfold State.granted
  generalize s.writeAll (grantWrites s r) = t at begun dbg time
  exact ⟨(begun.toOnlyFields.mono (List.subset_append_left _ _)).outside, begun.reads _ List.mem_cons_self, rfl, dbg, time⟩

theorem State.grantEnd_regs (s : State) (d : BitVec 384) : (s.grantEnd d).regs = (s.writeAll grantEndWrites).regs := rfl

theorem State.grantEnd_dbg (s : State) (d : BitVec 384) : (s.grantEnd d).dbg = s.dbg := rfl

theorem State.grantEnd_otp (s : State) (d : BitVec 384) : (s.grantEnd d).otp = s.otp := rfl

theorem State.grantEnd_idle (s : State) (d : BitVec 384) : ((s.grantEnd d).cmdSlot pgDBG 0x48).running = none :=
  congrArg CmdSlot.running (State.cmdSlot_setCmdSlot_same _ _ _ _)

theorem State.grantEnd_log (s : State) (d : BitVec 384) : ∃ e ∈ (s.grantEnd d).nvm.secLog, e.kind = .grantAccepted ∧ e.mrt = s.time.mrt :=
  (s.raise pgDBG 8).secLog_logged .grantAccepted 0 d

theorem State.grantEnd_mode (s : State) (d : BitVec 384) : (s.grantEnd d).mode = s.mode := rfl

theorem State.grantAdd_given (s : State) (r : Nat) (d : BitVec 384) : GrantGiven r s (s.grantAdd r d) := by
  have granted := s.granted_granted r
  have shown := (s.granted r).writeAll_shown (digestWrites d)
  rw [digestWrites_fields] at shown
  rw [s.grantAdd_eq]
  generalize s.granted r = v at granted shown
  generalize v.writeAll (digestWrites d) = u at shown
  have ending := u.writeAll_written grantEndWrites
  have digests : OnlyFields grantFlds v u := shown.toOnlyFields.mono (List.subset_append_of_subset_right _ (List.subset_append_left _ _))
  have ends : OnlyFields grantFlds u (u.writeAll grantEndWrites) :=
    ending.toOnlyFields.mono (List.subset_append_of_subset_right _ (List.subset_append_right _ _))
  have whole := (granted.toOnlyFields.trans digests).trans ends
  have regs := u.grantEnd_regs d
  have rd (f : Fld) := State.rd_of_regs regs f
  have flag (f : Fld) := congrArg (fun n => decide (n = 1)) (rd f)
  constructor
  case rights => exact (rd _).trans ((ending.rd_apart _ rfl).trans ((shown.rd_apart _ rfl).trans granted.rights))
  case event => exact (flag _).trans ending.on
  case layUp =>
    exact (congrArg (fun m => m.layUp) (u.grantEnd_mode d)).trans (Eq.trans (congrArg (fun u : State => u.mode.layUp) shown.rest :) granted.layUp)
  case log =>
    obtain ⟨e, logged, kind, mrt⟩ := u.grantEnd_log d
    exact ⟨e, logged, kind, mrt.trans (Eq.trans (congrArg (fun u : State => u.time.mrt) shown.rest :) (congrArg TimeSt.mrt granted.time))⟩
  case ended => exact ⟨u.grantEnd_idle d, (flag _).trans ending.off⟩
  case dbg => exact (u.grantEnd_dbg d).trans (Eq.trans (congrArg State.dbg shown.rest :) granted.dbg)
  case otp => exact (u.grantEnd_otp d).trans (digests.stores.otp.trans granted.stores.otp)
  case cfg => exact sameCfg_trans whole.cfg (sameCfg_of_regs regs)
  case fields => exact fun g apart => (rd g).trans (whole.fields g apart)

/-! The ledger where its page is not in force -/

theorem State.keyDerive_idle (s : State) (off : s.active pgLEDG = false) : s.keyDerive = s := if_pos (by simp [off])

/-- K_L is cleared and recording stops; there is nothing to scan or to commit. -/
theorem State.ledgerCheck_idle (s : State) (off : s.active pgLEDG = false) : let u := s.setLedger { s.ledger with key := none }
    s.ledgerCheck = if u.recording then u.recordFall else u := by
  have cleared : (if s.active pgLEDG = true then s else s.setLedger { s.ledger with key := none }) = s.setLedger { s.ledger with key := none } :=
    if_neg (by simp [off])
  have idle : (s.setLedger { s.ledger with key := none }).active pgLEDG = false := off
  have keyless : (s.setLedger { s.ledger with key := none }).ledger.key.isSome = false := rfl
  unfold State.ledgerCheck
  dsimp only
  rw [cleared]
  generalize s.setLedger { s.ledger with key := none } = u at idle keyless
  have stops : u.recordOk = false := by simp [State.recordOk, idle]
  rw [State.keyDerive_idle _ idle]
  simp only [keyless, stops, Bool.and_false, Bool.false_and, Bool.false_eq_true, if_false, Bool.not_false, Bool.true_and, List.foldl_nil]

theorem DebugKept.ledgerCheck {s0 s : State} (h : DebugKept s0 s) (off : s.active pgLEDG = false) : DebugKept s0 s.ledgerCheck := by
  rw [s.ledgerCheck_idle off]
  exact ite h.setLedger.recordFall h.setLedger

/-! The opening order (R132) -/

/-- Where the ledger page is not in force, the opening order has run up to its last step: the rights are still to be added. -/
structure Opened (s t : State) : Prop where
  rights : t.rd Reg.DBG.RIGHTS_ACTIVE = s.rd Reg.DBG.RIGHTS_ACTIVE
  isOpen : t.flag Reg.DBG.DBG_STATE_OPEN = true
  rootTest : t.flag Reg.DBG.DBG_STATE_ROOT_TEST = true
  stopped : t.flag Reg.DBG.DBG_STATE_LEDGER_STOPPED = true
  event : t.raised pgDBG 10 = true
  dbg : t.dbg = { s.dbg with opening := none, openRights := 0 }
  otp : t.otp = s.otp

/-- What the switch to the test root writes. -/
def openWrites : List (Fld × Nat) := [(Reg.DBG.DBG_STATE_ROOT_TEST, 1), (Reg.DBG.DBG_STATE_OPEN, 1), (Hdr.EVENT pgDBG 10, 1)]

namespace DebugKept

variable {s t : State} (h : DebugKept s t)
include h

theorem flag (g : Fld) (page : g.page = pgDBG) (placed : g.placed = true) : t.flag g = s.flag g :=
  congrArg (fun n => decide (n = 1)) (h.fields g page placed)

end DebugKept

/-- The opening order leaves the debug state (R132). -/
def State.orderOver (s : State) : State := { s with dbg := { s.dbg with opening := none, openRights := 0 } }

/-- Recording stops (R132). -/
def State.stopped (s : State) : State := s.stopRecording.wr Reg.DBG.DBG_STATE_LEDGER_STOPPED 1

/-- The keys are zeroised, the root is switched (R132). -/
def State.reopened (s : State) : State := (s.zeroiseEpoch.writeAll openWrites).rootLoad.ledgerCheck

/-- Where the ledger page is not in force, the end of recording changes LEDGER_STOPPED of the debug page and no more. -/
structure RecordingOver (s t : State) : Prop where
  stopped : t.flag Reg.DBG.DBG_STATE_LEDGER_STOPPED = true
  rights : t.rd Reg.DBG.RIGHTS_ACTIVE = s.rd Reg.DBG.RIGHTS_ACTIVE
  idle : t.active pgLEDG = false
  dbg : t.dbg = s.dbg
  otp : t.otp = s.otp

theorem State.stopped_over (s : State) (off : s.active pgLEDG = false) : RecordingOver s s.stopped := by
  have idle : (s.wr Reg.DBG.DBG_STATE_LEDGER_STOPPED 1).active pgLEDG = false := (State.flag_wr_apart s _ (Hdr.ACTIVE pgLEDG) 1 rfl).trans off
  have checked : DebugKept (s.wr Reg.DBG.DBG_STATE_LEDGER_STOPPED 1) s.stopRecording := (DebugKept.refl _).ledgerCheck idle
  unfold State.stopped
  generalize s.stopRecording = t at checked
  constructor
  case stopped => exact State.flag_wr_one _ _ rfl
  case rights => exact (State.rd_wr_apart _ _ _ _ rfl).trans ((checked.fields _ rfl rfl).trans (State.rd_wr_apart _ _ _ _ rfl))
  case idle => exact (State.flag_wr_apart t _ (Hdr.ACTIVE pgLEDG) 1 rfl).trans (checked.idle idle)
  case dbg => exact checked.dbg
  case otp => exact checked.otp

theorem State.reopened_opened {s u : State} (quiet : RecordingOver s.orderOver u) :
    Opened s u.reopened := by
  have zeroised := (DebugKept.refl u).zeroiseEpoch
  unfold State.reopened
  generalize u.zeroiseEpoch = z at zeroised
  have shown := z.writeAll_written openWrites
  have dbg := (congrArg State.dbg shown.rest :)
  have otp := (congrArg State.otp shown.rest :)
  have idle := (shown.flag_apart (Hdr.ACTIVE pgLEDG) rfl).trans (zeroised.idle quiet.idle)
  generalize z.writeAll openWrites = w at shown dbg otp idle
  have loaded := (DebugKept.refl w).rootLoad
  have checked := loaded.ledgerCheck (loaded.idle idle)
  constructor
  case rights => exact (checked.fields _ rfl rfl).trans ((shown.rd_apart _ rfl).trans ((zeroised.fields _ rfl rfl).trans quiet.rights))
  case isOpen => exact (checked.flag _ rfl rfl).trans shown.on
  case rootTest => exact (checked.flag _ rfl rfl).trans shown.on
  case stopped => exact (checked.flag _ rfl rfl).trans ((shown.flag_apart _ rfl).trans ((zeroised.flag _ rfl rfl).trans quiet.stopped))
  case event => exact (checked.flag _ rfl rfl).trans shown.on
  case dbg => exact checked.dbg.trans (dbg.trans (zeroised.dbg.trans quiet.dbg))
  case otp => exact checked.otp.trans (otp.trans (zeroised.otp.trans quiet.otp))

/-- The opening order runs to its last step (R132). -/
theorem State.openingFinish_opened (s : State) (d : BitVec 384) (order : s.dbg.opening = some d) (off : s.active pgLEDG = false) :
    ∃ t, s.openingFinish = t.grantAdd s.dbg.openRights d ∧ Opened s t := by
  have ends : s.openingFinish = (s.orderOver.stopped.reopened).grantAdd s.dbg.openRights d := by
    unfold State.openingFinish
    rw [order]
    rfl
  exact ⟨_, ends, State.reopened_opened (s.orderOver.stopped_over off)⟩

end Sys2Proof.Machine
end

section
/-! O30: debug grants (R126-R137). -/

namespace Sys2Proof.Machine

namespace State

variable (s : State) (g : List Byte) (i : Option Instr)

theorem presentGrant_refused (c : Nat) (idle : s.lcs.busy = false) (fault : s.grantFault g = some c) :
    s.presentGrant g i = (s.setChallenge none).grantRefuse c (Config.sha384 g) := by
  unfold presentGrant
  simp only [idle, fault, Bool.false_eq_true, if_false]

theorem applyClearTamper_none (r : Nat) (kept : rightIn r rightCLEAR_TAMPER = false) : s.applyClearTamper r = s := if_neg (by simp [kept])

theorem presentGrant_adds (idle : s.lcs.busy = false) (sound : s.grantFault g = none) (plain : opensRoot (grantRights g) = false)
    (kept : rightIn (grantRights g) rightCLEAR_TAMPER = false) :
    s.presentGrant g i = (s.setChallenge none).grantAdd (grantRights g) (Config.sha384 g) := by
  unfold presentGrant
  simp only [idle, sound, plain, Bool.false_eq_true, if_false, Bool.false_and, applyClearTamper_none _ _ kept]

/-- An opening order for the grant runs. -/
def ordered : State := { s with dbg := { s.dbg with opening := some (Config.sha384 g), openRights := grantRights g } }

/-- The command that presented a grant, if one did, goes on. -/
def presenting : State :=
  match i with
  | some i => s.cmdStart pgDBG 0x48 i
  | none => s

/-- A grant that opens the device is refused, waits for its record, or opens it (R132, R133). -/
theorem presentGrant_opens (idle : s.lcs.busy = false) (sound : s.grantFault g = none) (opens : opensRoot (grantRights g) = true)
    (closed : s.flag Reg.DBG.DBG_STATE_OPEN = false) (legal : s.lc ≠ lcINVALID) (kept : rightIn (grantRights g) rightCLEAR_TAMPER = false) :
    s.presentGrant g i =
      if (decide (s.lc = lcFIELD) && !s.active pgLEDG) || s.rootWithheld then
        (s.setChallenge none).grantRefuse Reason.DEBUG_OPEN_FAILED (Config.sha384 g)
      else if s.active pgLEDG then
        ((((s.setChallenge none).ordered g).wr Reg.DBG.GRANT_STATUS_BUSY 1).ledgerDebugOpen (Config.sha384 g) (grantRights g)).presenting i
      else ((s.setChallenge none).ordered g).openingFinish := by
  have held := s.setChallenge_held none
  have first : (opensRoot (grantRights g) && !(s.setChallenge none).flag Reg.DBG.DBG_STATE_OPEN && decide ((s.setChallenge none).lc ≠ lcINVALID))
      = true := by
    rw [opens, held.flag_apart _ rfl, closed, held.lc]
    simp [legal]
  unfold presentGrant
  simp only [idle, sound, Bool.false_eq_true, if_false]
  rw [if_pos first, applyClearTamper_none _ _ kept, kept, Bool.not_false, Bool.and_true, ← held.lc, ← held.active, ← held.rootWithheld]
  rfl

end State

/-! Challenges -/

/-- A drawn challenge is the one that is held (R126). -/
structure ChallengeDrawn (s t : State) : Prop extends Framed s t where
  challenge : t.dbg.challenge = some (digestOf 128 (s.freeBytes 16))
  valid : t.flag Reg.DBG.GRANT_STATUS_CHALLENGE_VALID = true
  free : t.free = s.free + 16
  rights : t.rd Reg.DBG.RIGHTS_ACTIVE = s.rd Reg.DBG.RIGHTS_ACTIVE
  tap : t.tap = s.tap

theorem State.drawChallenge_drawn (s : State) (works : s.rngFailed = false) (serves : s.rngServes = true) : ChallengeDrawn s s.drawChallenge := by
  have drawn := s.draw_redrawn 16
  have held := (s.draw 16).1.setChallenge_held (some (digestOf 128 (s.freeBytes 16)))
  have challenge : s.drawChallenge = (s.draw 16).1.setChallenge (some (digestOf 128 (s.freeBytes 16))) := by
    unfold State.drawChallenge
    simp only [works, serves, Bool.false_eq_true, if_false, Bool.not_true, State.draw_bytes]
  rw [challenge]
  constructor
  case toFramed => exact drawn.toFramed.trans held.toFramed
  case challenge => exact congrArg DbgSt.challenge held.dbg
  case valid => exact held.valid
  case free => exact Eq.trans (congrArg State.free held.rest :) drawn.free
  case rights => exact (held.rd_apart _ rfl).trans (drawn.rd_apart _ rfl)
  case tap => exact Eq.trans (congrArg State.tap held.rest :) (congrArg State.tap (s.draw_rest 16) :)

theorem State.drawChallenge_waits (s : State) (works : s.rngFailed = false) (starts : s.rngServes = false) :
    s.drawChallenge = s.setCmdSlot pgDBG 0x48 { s.cmdSlot pgDBG 0x48 with queued := some .dbgChallenge } := by
  unfold State.drawChallenge
  simp only [works, starts, Bool.false_eq_true, if_false, Bool.not_false, if_true]

theorem State.drawChallenge_refused (s : State) (failed : s.rngFailed = true) :
    s.drawChallenge = (s.wr (Hdr.REASON_CODE pgDBG) rngUNAVAILABLE).wr (Hdr.REASON_OFFSET pgDBG) 0x48 := if_pos failed

theorem exec_dbgChallenge_ready (s : State) (free : s.ready pgDBG 0x48 = true) : exec .dbgChallenge s = .next s.drawChallenge :=
  exec_cmd_ready s .dbgChallenge pgDBG 0x48 State.drawChallenge rfl free nofun nofun

theorem exec_present_ready (s : State) (a : Nat) (free : s.ready pgDBG 0x48 = true) : exec (.present a) s = .next (State.startPresent a s) :=
  exec_cmd_ready s (.present a) pgDBG 0x48 (State.startPresent a) rfl free nofun nofun

theorem State.tapSelect_framed (s : State) (c : Nat) (ok : Bool) : Framed s (s.tapSelect c ok) :=
  ⟨sameCfg_of_regs rfl, ⟨rfl, rfl, rfl, rfl, rfl, rfl, rfl⟩⟩

theorem exec_tapChallenge (s : State) (up : s.tapUp = true) : exec .tapChallenge s = .next
    (if s.lc ≠ lcSCRAP then (s.tapSelect 0x10 (s.lc ≠ lcSCRAP)).drawChallenge else s.tapSelect 0x10 (s.lc ≠ lcSCRAP)) :=
  congrArg Host.Outcome.next (if_pos up)

/-! Judging a grant -/

/-- A grant without an opening right and without CLEAR_TAMPER adds its rights at once. -/
theorem State.presentGrant_added (s : State) (g : List Byte) (i : Option Instr) (idle : s.lcs.busy = false) (sound : s.grantFault g = none)
    (plain : opensRoot (grantRights g) = false) (kept : rightIn (grantRights g) rightCLEAR_TAMPER = false) :
    grantAdded s (s.presentGrant g i) g := by
  have held := s.setChallenge_held none
  have given := (s.setChallenge none).grantAdd_given (grantRights g) (Config.sha384 g)
  rw [s.presentGrant_adds g i idle sound plain kept]
  generalize s.setChallenge none = u at held given
  constructor
  case challenge => exact (congrArg DbgSt.challenge given.dbg).trans (congrArg DbgSt.challenge held.dbg)
  case rights => rw [given.rights, held.rd_apart _ rfl]
  case event => exact given.event
  case isOpen => exact Eq.trans (congrArg (fun n => decide (n = 1)) (sameFieldsBut_rd_apart given.fields _ rfl)) (held.flag_apart _ rfl)
  case layUp => exact given.layUp.trans (congrArg (fun u : State => u.mode.layUp || rightIn (grantRights g) rightLAY_UP) held.rest :)
  case log =>
    obtain ⟨e, logged, kind, mrt⟩ := given.log
    exact ⟨e, logged, kind, mrt.trans (congrArg (fun u : State => u.time.mrt) held.rest :)⟩
  case ended => exact given.ended
  case otp => exact given.otp.trans held.otp
  case cfg => exact sameCfg_trans held.cfg given.cfg

/-- The first opening right, no ledger page in force, opens the device (R132). -/
theorem State.opensAtOnce (s : State) (g : List Byte) (off : s.active pgLEDG = false) :
    let t := ((s.setChallenge none).ordered g).openingFinish
    t.dbg.challenge = none ∧ t.rd Reg.DBG.RIGHTS_ACTIVE = (s.rd Reg.DBG.RIGHTS_ACTIVE ||| grantRights g) % 2 ^ Reg.DBG.RIGHTS_ACTIVE.width
    ∧ t.flag Reg.DBG.DBG_STATE_OPEN = true ∧ t.flag Reg.DBG.DBG_STATE_ROOT_TEST = true ∧ t.flag Reg.DBG.DBG_STATE_LEDGER_STOPPED = true
    ∧ t.raised pgDBG 10 = true ∧ t.dbg.opening = none ∧ t.otp = s.otp := by
  have held := s.setChallenge_held none
  generalize s.setChallenge none = u at held
  obtain ⟨v, finished, opened⟩ := (u.ordered g).openingFinish_opened (Config.sha384 g) rfl ((held.active pgLEDG).trans off)
  have given := v.grantAdd_given (u.ordered g).dbg.openRights (Config.sha384 g)
  have rights : v.rd Reg.DBG.RIGHTS_ACTIVE = s.rd Reg.DBG.RIGHTS_ACTIVE := opened.rights.trans (held.rd_apart _ rfl)
  dsimp only
  rw [finished]
  generalize v.grantAdd (u.ordered g).dbg.openRights (Config.sha384 g) = t at given
  have dbg := given.dbg.trans opened.dbg
  have kept (f : Fld) (apart : grantFlds.all (fun x => x.apart f) = true) : t.flag f = v.flag f :=
    congrArg (fun n => decide (n = 1)) (sameFieldsBut_rd_apart given.fields f apart)
  exact ⟨(congrArg DbgSt.challenge dbg).trans (congrArg DbgSt.challenge held.dbg), rights ▸ given.rights,
    (kept Reg.DBG.DBG_STATE_OPEN rfl).trans opened.isOpen, (kept Reg.DBG.DBG_STATE_ROOT_TEST rfl).trans opened.rootTest,
    (kept Reg.DBG.DBG_STATE_LEDGER_STOPPED rfl).trans opened.stopped, (kept (Hdr.EVENT pgDBG 10) rfl).trans opened.event,
    congrArg DbgSt.opening dbg, given.otp.trans (opened.otp.trans held.otp)⟩

theorem State.presenting_cmds (s : State) (i : Option Instr) : ∃ c, s.presenting i = { s with cmds := c } := by
  cases i with
  | none => exact ⟨s.cmds, rfl⟩
  | some i => exact ⟨_, rfl⟩

theorem State.presenting_runs (s : State) (i : Instr) : ((s.presenting (some i)).cmdSlot pgDBG 0x48).running = some i :=
  congrArg CmdSlot.running (State.cmdSlot_setCmdSlot_same _ _ _ _)

/-- With a ledger page in force the opening order waits for its record (R132). -/
theorem State.opensLater (s : State) (g : List Byte) (i : Option Instr) (closed : s.flag Reg.DBG.DBG_STATE_OPEN = false) :
    let t := ((((s.setChallenge none).ordered g).wr Reg.DBG.GRANT_STATUS_BUSY 1).ledgerDebugOpen (Config.sha384 g) (grantRights g)).presenting i
    t.dbg.opening = some (Config.sha384 g) ∧ t.dbg.openRights = grantRights g ∧ t.flag Reg.DBG.GRANT_STATUS_BUSY = true
    ∧ t.rd Reg.DBG.RIGHTS_ACTIVE = s.rd Reg.DBG.RIGHTS_ACTIVE ∧ t.flag Reg.DBG.DBG_STATE_OPEN = false ∧ t.otp = s.otp := by
  have held := s.setChallenge_held none
  generalize s.setChallenge none = u at held
  have entered := (DebugKept.refl ((u.ordered g).wr Reg.DBG.GRANT_STATUS_BUSY 1)).ledgerDebugOpen (d := Config.sha384 g) (rights := grantRights g)
  dsimp only
  generalize ((u.ordered g).wr Reg.DBG.GRANT_STATUS_BUSY 1).ledgerDebugOpen (Config.sha384 g) (grantRights g) = v at entered
  obtain ⟨c, presented⟩ := v.presenting_cmds i
  rw [presented]
  refine ⟨congrArg DbgSt.opening entered.dbg, congrArg DbgSt.openRights entered.dbg, ?_, ?_, ?_, entered.otp.trans held.otp⟩
  · exact (entered.flag Reg.DBG.GRANT_STATUS_BUSY rfl rfl).trans (State.flag_wr_one _ _ rfl)
  · exact (entered.fields Reg.DBG.RIGHTS_ACTIVE rfl rfl).trans ((State.rd_wr_apart _ _ _ _ rfl).trans (held.rd_apart _ rfl))
  · exact (entered.flag Reg.DBG.DBG_STATE_OPEN rfl rfl).trans ((State.flag_wr_apart _ _ _ _ rfl).trans ((held.flag_apart _ rfl).trans closed))

/-- The grant lies in the internal buffer (R137). -/
def State.buffered (s : State) (g : List Byte) : State := { s with dbg := { s.dbg with grantBuf := g } }

theorem State.grantTake_free (s : State) (g : List Byte) (i : Option Instr) (free : s.pkeFree 2 = true) :
    s.grantTake g i = (s.buffered g).presentGrant g i := if_pos free

theorem State.grantTake_taken (s : State) (g : List Byte) (i : Option Instr) (taken : s.pkeFree 2 = false) :
    s.grantTake g i = (((s.buffered g).wr Reg.DBG.GRANT_STATUS_BUSY 1).presenting i).awaitPke .grant 2 fwIssuer :=
  if_neg (Bool.eq_false_iff.mp taken)

/-- While the PKE is not free the grant waits. -/
theorem State.grantTake_waits (s : State) (g : List Byte) (i : Option Instr) (taken : s.pkeFree 2 = false) :
    let t := s.grantTake g i
    waitsPke t .grant fwIssuer ∧ t.dbg = { s.dbg with grantBuf := g } ∧ t.flag Reg.DBG.GRANT_STATUS_BUSY = true
    ∧ (∀ c, i = some c → (t.cmdSlot pgDBG 0x48).running = some c) ∧ sameFieldsBut [Reg.DBG.GRANT_STATUS_BUSY] s t ∧ sameCfg s t
    ∧ sameStores s t := by
  have buffered : OnlyFields [Reg.DBG.GRANT_STATUS_BUSY] s (s.buffered g) := (OnlyFields.refl _ s).outside
  have busy : OnlyFields [Reg.DBG.GRANT_STATUS_BUSY] s ((s.buffered g).wr Reg.DBG.GRANT_STATUS_BUSY 1) := buffered.wr
  have waits := ((((s.buffered g).wr Reg.DBG.GRANT_STATUS_BUSY 1).presenting i).awaitPke_waits .grant 2 fwIssuer)
  obtain ⟨q, queued⟩ := (((s.buffered g).wr Reg.DBG.GRANT_STATUS_BUSY 1).presenting i).awaitPke_scheds .grant 2 fwIssuer
  obtain ⟨c, presented⟩ := ((s.buffered g).wr Reg.DBG.GRANT_STATUS_BUSY 1).presenting_cmds i
  have runs : ∀ c, i = some c → ((((s.buffered g).wr Reg.DBG.GRANT_STATUS_BUSY 1).presenting i).cmdSlot pgDBG 0x48).running = some c := by
    rintro c rfl
    exact State.presenting_runs _ c
  rw [queued] at waits
  dsimp only
  rw [s.grantTake_taken g i taken, queued]
  refine ⟨waits, ?_, ?_, runs, ?_⟩
  · rw [presented]
    rfl
  · rw [presented]
    exact State.flag_wr_one _ _ rfl
  · rw [presented]
    have shown := busy.outside (u := { (s.buffered g).wr Reg.DBG.GRANT_STATUS_BUSY 1 with cmds := c, scheds := q })
    exact ⟨shown.fields, shown.cfg, shown.stores⟩

namespace State

variable (s : State) (a : Nat)

theorem startPresent_takes (idle : s.flag Reg.DBG.GRANT_STATUS_BUSY = false) (inside : inSram a grantLen = true) :
    startPresent a s = s.grantTake (s.sramBytes a grantLen) (some (.present a)) :=
  (if_neg (Bool.eq_false_iff.mp idle)).trans (if_neg (by simp [inside]))

theorem startPresent_refused (idle : s.flag Reg.DBG.GRANT_STATUS_BUSY = false) (outside : inSram a grantLen = false) :
    startPresent a s = s.grantRefuse Reason.FIELD_RANGE 0 := (if_neg (Bool.eq_false_iff.mp idle)).trans (if_pos (by simp [outside]))

theorem startPresent_waits (busy : s.flag Reg.DBG.GRANT_STATUS_BUSY = true) :
    startPresent a s = s.setCmdSlot pgDBG 0x48 { s.cmdSlot pgDBG 0x48 with queued := some (.present a) } := if_pos busy

end State

/-- The state of the debug page's buffer and of the TAP before a grant has no part in what an accepted grant adds. -/
theorem grantAdded_of_same {s u t : State} {g : List Byte} (h : grantAdded u t g) (same : u = { s with dbg := u.dbg, tap := u.tap }) :
    grantAdded s t g where
  challenge := h.challenge
  rights := h.rights.trans (congrArg (fun u : State => (u.rd Reg.DBG.RIGHTS_ACTIVE ||| grantRights g) % 2 ^ Reg.DBG.RIGHTS_ACTIVE.width) same :)
  event := h.event
  isOpen := h.isOpen.trans (congrArg (fun u : State => u.flag Reg.DBG.DBG_STATE_OPEN) same :)
  layUp := h.layUp.trans (congrArg (fun u : State => u.mode.layUp || rightIn (grantRights g) rightLAY_UP) same :)
  log := (congrArg (fun u : State => u.time.mrt) same :) ▸ h.log
  ended := h.ended
  otp := h.otp.trans (congrArg State.otp same :)
  cfg := sameCfg_trans (sameCfg_of_regs (congrArg State.regs same :)) h.cfg

/-! GRANT_LOAD (R137, R518) -/

theorem exec_grantLoad_refused (s : State) (g : List Byte) (up : s.tapUp = true) (legal : s.acceptsGrants = false) :
    exec (.grantLoad g) s = .next (s.tapSelect 0x11 false) := by
  refine congrArg Host.Outcome.next ((if_pos up).trans ((if_neg (Bool.eq_false_iff.mp legal)).trans ?_))
  rw [legal]

theorem exec_grantLoad_takes (s : State) (g : List Byte) (up : s.tapUp = true) (legal : s.acceptsGrants = true)
    (free : s.flag Reg.DBG.GRANT_STATUS_BUSY = false) :
    exec (.grantLoad g) s = .next ((s.tapSelect 0x11 true).grantTake (g.take 6144) none) := by
  refine congrArg Host.Outcome.next ((if_pos up).trans ((if_pos legal).trans ?_))
  rw [legal]
  exact if_neg (Bool.eq_false_iff.mp free)

theorem exec_debugOpenFailed_runs (s : State) (d : BitVec 384) (order : s.dbg.opening = some d) (waits : s.debugOnFb = false) :
    exec .debugOpenFailed s = .next (s.orderOver.grantRefuse Reason.DEBUG_OPEN_FAILED d) := by
  refine congrArg Host.Outcome.next ?_
  rw [order]
  exact if_neg (Bool.eq_false_iff.mp waits)

theorem exec_debugOpenFailed_ignored (s : State) (h : s.dbg.opening = none ∨ s.debugOnFb = true) : exec .debugOpenFailed s = .next s := by
  refine congrArg Host.Outcome.next ?_
  cases order : s.dbg.opening with
  | none => rfl
  | some d => exact if_pos (h.resolve_left (by simp [order]))

/-- A refused presentation has used up the challenge and added no right. -/
theorem State.presentation_refused (s : State) (c : Nat) (d : BitVec 384) : let t := (s.setChallenge none).grantRefuse c d
    GrantRefused c (s.setChallenge none) t ∧ t.dbg.challenge = none ∧ t.rd Reg.DBG.RIGHTS_ACTIVE = s.rd Reg.DBG.RIGHTS_ACTIVE
    ∧ (s.setChallenge none).time.mrt = s.time.mrt ∧ t.otp = s.otp ∧ sameCfg s t := by
  have held := s.setChallenge_held none
  generalize s.setChallenge none = u at held
  have refused := u.grantRefuse_refused c d
  exact ⟨refused, (congrArg DbgSt.challenge refused.dbg).trans (congrArg DbgSt.challenge held.dbg),
    (refused.rd_apart _ rfl).trans (held.rd_apart _ rfl),
    (congrArg (fun u : State => u.time.mrt) held.rest :), refused.otp.trans held.otp, sameCfg_trans held.cfg refused.cfg⟩

/-- Settles O30: a challenge by the state of the entropy source, a grant by the cases of its judgement; the opening order through what its steps
leave of the debug page. -/
theorem grants : Obligations.Grants := by
  refine ⟨fun s free works serves => ?_, fun s free works starts => ?_, fun s free failed => ?_, fun s up => ?_, fun s a free inside idle => ?_,
    fun s a free busy => ?_, fun s a free outside idle => ?_, fun s g i => ?_, fun s g up => ?_, fun s g i c idle fault => ?_,
    fun s g i idle sound plain kept => s.presentGrant_added g i idle sound plain kept,
    fun s g i idle sound opens closed legal field rooted off kept => ?_,
    fun s g i idle sound opens closed legal kept => ?_, fun s free => ?_, fun s d order waits => ?_, exec_debugOpenFailed_ignored⟩
  · have drawn := s.drawChallenge_drawn works serves
    exact ⟨_, exec_dbgChallenge_ready s free, drawn.challenge, drawn.valid, drawn.free, drawn.rights, drawn.cfg, drawn.stores⟩
  · rw [exec_dbgChallenge_ready s free, s.drawChallenge_waits works starts, ((s.ready_iff pgDBG 0x48).mp free).2]
  · have reason := s.reasoned pgDBG rngUNAVAILABLE 0x48
    exact ⟨_, (exec_dbgChallenge_ready s free).trans (congrArg Host.Outcome.next (s.drawChallenge_refused failed)), reason.code, rfl, rfl,
      reason.cfg, reason.stores⟩
  · have drawn := (s.tapSelect 0x10 true).drawChallenge_drawn
    have selects : s.lc ≠ lcSCRAP → exec .tapChallenge s = .next (s.tapSelect 0x10 true).drawChallenge := fun alive => by
      rw [exec_tapChallenge s up, if_pos alive, decide_eq_true alive]
    refine ⟨selects, fun alive works serves => ?_, fun scrap => ?_⟩
    · have drawn := drawn works serves
      have whole := (s.tapSelect_framed 0x10 true).trans drawn.toFramed
      exact ⟨_, selects alive, drawn.challenge, drawn.valid, congrArg Tap.ir drawn.tap, congrArg Tap.selected drawn.tap, drawn.rights,
        whole.cfg, whole.stores⟩
    · rw [exec_tapChallenge s up, if_neg (not_not_intro scrap), decide_eq_false (not_not_intro scrap)]
  · have takes : exec (.present a) s = .next (s.grantTake (s.sramBytes a grantLen) (some (.present a))) := by
      rw [exec_present_ready s a free, State.startPresent_takes s a idle inside]
    refine ⟨takes, fun pke lcs sound plain kept => ⟨_, takes, ?_⟩⟩
    rw [s.grantTake_free _ _ pke]
    exact grantAdded_of_same (State.presentGrant_added (s.buffered _) _ _ lcs sound plain kept) rfl
  · rw [exec_present_ready s a free, State.startPresent_waits s a busy, ((s.ready_iff pgDBG 0x48).mp free).2]
  · have refused := s.grantRefuse_refused Reason.FIELD_RANGE 0
    exact ⟨_, (exec_present_ready s a free).trans (congrArg Host.Outcome.next (State.startPresent_refused s a idle outside)), refused.code,
      refused.event, refused.dbg, refused.rd_apart _ rfl, refused.cfg⟩
  · exact ⟨s.grantTake_free g i, fun taken => ⟨_, rfl, s.grantTake_waits g i taken⟩⟩
  · refine ⟨exec_grantLoad_refused s g up, fun legal free => ⟨_, exec_grantLoad_takes s g up legal free, rfl, rfl, rfl, rfl⟩,
      fun legal free quiet pke lcs sound plain kept => ⟨_, exec_grantLoad_takes s g up legal free, ?_⟩⟩
    rw [State.grantTake_free (s.tapSelect 0x11 true) _ _ pke]
    exact grantAdded_of_same (State.presentGrant_added ((s.tapSelect 0x11 true).buffered _) _ _ lcs sound plain kept) rfl
  · obtain ⟨refused, challenge, rights, mrt, otp, cfg⟩ := s.presentation_refused c (Config.sha384 g)
    obtain ⟨e, logged, kind, reason, stamp⟩ := refused.log
    exact ⟨_, s.presentGrant_refused g i c idle fault, challenge, refused.code, refused.event, rights,
      ⟨e, logged, kind, reason, stamp.trans mrt⟩,
      otp, cfg⟩
  · refine ⟨_, (s.presentGrant_opens g i idle sound opens closed legal kept).trans ((if_neg ?_).trans (if_neg ?_)), s.opensAtOnce g off⟩
    · simp [field, rooted]
    · simp [off]
  · have judged := s.presentGrant_opens g i idle sound opens closed legal kept
    refine ⟨fun rooted on => ⟨_, judged.trans ((if_neg ?_).trans (if_pos on)), s.opensLater g i closed⟩,
      fun barred => ?_⟩
    · simp [on, rooted]
    · obtain ⟨refused, -, rights, -, otp, -⟩ := s.presentation_refused Reason.DEBUG_OPEN_FAILED (Config.sha384 g)
      refine ⟨_, judged.trans (if_pos ?_), refused.code, rights, otp⟩
      rcases barred with ⟨field, off⟩ | withheld
      · simp [field, off]
      · simp [withheld]
  · exact exec_cmd_ready s .revoke pgDBG 0x48 State.startRevoke rfl free nofun nofun
  · have refused := s.orderOver.grantRefuse_refused Reason.DEBUG_OPEN_FAILED d
    exact ⟨_, exec_debugOpenFailed_runs s d order waits, congrArg DbgSt.opening refused.dbg, refused.code, refused.rd_apart _ rfl,
      congrArg (fun n => decide (n = 1)) (refused.rd_apart Reg.DBG.DBG_STATE_ROOT_TEST rfl), refused.vault, refused.otp,
      sameCfg_trans (sameCfg_of_regs (t := s.orderOver) rfl) refused.cfg⟩

end Sys2Proof.Machine
end

section
/-! SUPPORT. The record of a port and the work of its channel (R263, R270, R279): what a choice of the next request leaves alone. -/

namespace Sys2Proof.Machine

namespace State

variable (s : State) (n : Nat)

theorem port_setPort_same (x : Port) : (s.setPort n x).port n = x := Tbl.get_put_same _ _ _ _

theorem chan_setChan_same (x : Chan) : (s.setChan n x).chan n = x := Tbl.get_put_same _ _ _ _

theorem setPort_framed (x : Port) : Framed s (s.setPort n x) := ⟨⟨rfl, rfl, rfl, rfl, rfl⟩, ⟨rfl, rfl, rfl, rfl, rfl, rfl, rfl⟩⟩

theorem setChan_framed (x : Chan) : Framed s (s.setChan n x) := ⟨⟨rfl, rfl, rfl, rfl, rfl⟩, ⟨rfl, rfl, rfl, rfl, rfl, rfl, rfl⟩⟩

theorem openTxn_live (l : Live) : ((s.openTxn n l).port n).live = some l := congrArg Port.live (s.port_setPort_same n _)

theorem openTxn_framed (l : Live) : Framed s (s.openTxn n l) := s.setPort_framed n _

end State

/-- Work on channel `c` that shows in its fields alone and changes nothing but registers, queues and channels; the lease stays. -/
structure PinWork (c : Nat) (s t : State) : Prop extends OnlyFields (channelFlds c) s t where
  rest : t = { s with regs := t.regs, scheds := t.scheds, chans := t.chans }
  lease : (t.chan c).lease = (s.chan c).lease
  leaseAt : (t.chan c).leaseAt = (s.chan c).leaseAt

namespace PinWork

variable {c : Nat} {s t : State}

theorem refl (c : Nat) (s : State) : PinWork c s s := ⟨OnlyFields.refl _ s, rfl, rfl, rfl⟩

theorem wr {f : Fld} {v : Nat} (h : PinWork c s t) (hf : f ∈ channelFlds c := by simp [channelFlds]) : PinWork c s (t.wr f v) :=
  ⟨h.toOnlyFields.wr hf, congrArg (fun x : State => x.wr f v) h.rest, h.lease, h.leaseAt⟩

theorem setSched {x : Nat} {d : Sched} (h : PinWork c s t) : PinWork c s (t.setSched x d) :=
  ⟨h.toOnlyFields.outside, congrArg (fun y : State => y.setSched x d) h.rest, h.lease, h.leaseAt⟩

/-- The channel changes apart from its lease. -/
theorem setChan {x : Chan} (h : PinWork c s t) (lease : x.lease = (t.chan c).lease := by rfl)
    (leaseAt : x.leaseAt = (t.chan c).leaseAt := by rfl) :
    PinWork c s (t.setChan c x) :=
  ⟨h.toOnlyFields.outside, congrArg (fun y : State => y.setChan c x) h.rest,
    (congrArg Chan.lease (t.chan_setChan_same c x)).trans (lease.trans h.lease),
    (congrArg Chan.leaseAt (t.chan_setChan_same c x)).trans (leaseAt.trans h.leaseAt)⟩

theorem ite {a b : State} {p : Prop} {_ : Decidable p} (ha : PinWork c s a) (hb : PinWork c s b) : PinWork c s (if p then a else b) := by
  split <;> assumption

theorem takePins (h : PinWork c s t) : PinWork c s (t.takePins c) := ite h.wr.wr h.wr

theorem givePins (h : PinWork c s t) : PinWork c s (t.givePins c) := ite h.wr.wr h.wr

theorem chanRest (h : PinWork c s t) : PinWork c s (t.chanRest c) := ite h.wr h.wr.givePins

theorem pumpCh (h : PinWork c s t) : PinWork c s (t.pumpCh c) := by
  unfold State.pumpCh
  dsimp only
  refine ite h ?_
  split
  · split
    · exact ite h.setSched.chanRest h.setSched.setChan.wr
    · exact h.setSched.chanRest
  · exact ite h (ite h.setSched.wr h.setSched).takePins.wr

theorem port (h : PinWork c s t) (n : Nat) : t.port n = s.port n := by rw [h.rest]; rfl
theorem waits (h : PinWork c s t) : t.waits = s.waits := by rw [h.rest]

end PinWork

namespace State

/-- The port owns the pins once the channel has returned them (R270). -/
theorem portOwns_givePins (s : State) (n : Fin 6) : (s.givePins n).portOwns n = true := by
  rw [givePins, if_pos n.isLt, portOwns, flag_wr_one _ _ rfl, decide_eq_true n.isLt]
  rfl

theorem rd_owner_givePins (s : State) (c : Nat) : (s.givePins c).rd (Reg.FCH.STATUS_OWNER c) = 0 := by
  unfold givePins
  split
  · exact (rd_wr_apart _ _ _ _ rfl).trans (rd_wr_same _ _ _)
  · exact rd_wr_same _ _ _

/-- An idle channel whose mode is not INTERNAL and whose port serves no first touch returns the pins (R270, R558). -/
theorem chanRest_gives (s : State) (n : Fin 6) (shared : s.sharing n ≠ 2) (quiet : (s.port n).live = none) :
    s.chanRest n = (s.wrb (Reg.FCH.STATUS_BUSY n) (s.chan n).suspended.isSome).givePins n := by
  have mode : (s.wrb (Reg.FCH.STATUS_BUSY n) (s.chan n).suspended.isSome).sharing n ≠ 2 :=
    ne_of_eq_of_ne (cfg_of_sameCfg (sameCfg_wr s _ _) _) shared
  have port : ((s.wrb (Reg.FCH.STATUS_BUSY n) (s.chan n).suspended.isSome).port n).live = none := quiet
  unfold chanRest
  dsimp only
  rw [if_neg (by simp only [port, mode, decide_false, Bool.false_and, Bool.and_false, Bool.or_false, Bool.false_eq_true, not_false_eq_true])]

theorem chanRest_chan (s : State) (c : Nat) : (s.chanRest c).chan c = s.chan c := by
  have chans {p : Prop} [Decidable p] {a b : State} (ha : a.chans = s.chans) (hb : b.chans = s.chans) :
      (if p then a else b).chans = s.chans := by
    split <;> assumption
  have same : (s.chanRest c).chans = s.chans := chans rfl (chans rfl rfl)
  rw [chan, same, ← chan]

theorem givePins_shown (s : State) (c : Nat) :
    Shown [Reg.FCH.STATUS_OWNER c, Reg.HFP.PORT_STATUS_OWNS_PINS c] s (s.givePins c) := by
  unfold givePins
  split
  · exact (Shown.refl _ s).wr.wr
  · exact (Shown.refl _ s).wr

end State

end Sys2Proof.Machine
end

section
/-! SUPPORT. How a port opens a transaction, denies it and absorbs it (R267, R268, R298, R299, R311), and what each leaves. -/

namespace Sys2Proof.Machine

namespace Quiet

variable {s0 s : State}

theorem disarmLaneH {u c : Nat} (h : Quiet s0 s) : Quiet s0 (s.disarmLaneH u c) := by
  unfold State.disarmLaneH
  exact ite h.wr.wr.wr.wr.setSnp.wr.wr h

theorem stageFail {n code cause : Nat} (h : Quiet s0 s) : Quiet s0 (s.stageFail n code cause) := h.disarmLaneH.wr.wr.wr.refuse

theorem policyAbort {n : Nat} {t : HostTxn} (h : Quiet s0 s) : Quiet s0 (s.policyAbort n t) := ite h.stageFail.dropIssuer h

end Quiet

/-- The flash, SRAM, OTP and CFG are as they were; an entry of the security log lies in none of them. -/
structure TxnKept (s t : State) : Prop where
  flash : t.flash = s.flash
  sram : t.sram = s.sram
  otp : t.otp = s.otp
  cfg : sameCfg s t

namespace TxnKept

variable {s t u : State}

theorem trans (h : TxnKept s t) (k : TxnKept t u) : TxnKept s u :=
  ⟨k.flash.trans h.flash, k.sram.trans h.sram, k.otp.trans h.otp, sameCfg_trans h.cfg k.cfg⟩

theorem of_framed (h : Framed s t) : TxnKept s t := ⟨h.stores.flash, h.stores.sram, h.stores.otp, h.cfg⟩

end TxnKept

namespace State

variable (s : State) (n : Nat) (t : HostTxn) (w : DenyWhy) (mixed : Bool)

/-- An entry of the security log is in internal NVM alone. -/
theorem secLog_kept (k : SecKind) (reason : Nat) (d : BitVec 384) :
    TxnKept s (s.secLog k reason d) ∧ (s.secLog k reason d).port = s.port := by
  obtain ⟨l, logged⟩ := s.secLog_nvm k reason d
  rw [logged]
  exact ⟨⟨rfl, rfl, rfl, ⟨rfl, rfl, rfl, rfl, rfl⟩⟩, rfl⟩

/-- The log of an absorbed command is an entry or a count, and the transaction in progress stays. -/
theorem logAbsorbed_kept : TxnKept s (s.logAbsorbed n) ∧ ((s.logAbsorbed n).port n).live = (s.port n).live := by
  have logged (fresh : Bool) (x : Port) (same : x.live = (s.port n).live) :
      let u := if fresh then (s.setPort n x).secLog .absorbed 0 0 else s.bump (Reg.POL.LOG_DROPPED n)
      TxnKept s u ∧ (u.port n).live = (s.port n).live := by
    dsimp only
    split
    · exact ⟨(TxnKept.of_framed (s.setPort_framed n x)).trans (secLog_kept _ _ _ _).1,
        by rw [(secLog_kept _ _ _ _).2, s.port_setPort_same, same]⟩
    · exact ⟨.of_framed (Framed.refl s).wr, rfl⟩
  exact logged _ _ rfl

/-- An absorbed command is served as absorbed, and takes no effect (R268). -/
theorem absorbTxn_absorbs :
    TxnKept s (s.absorbTxn n t w mixed) ∧ ((s.absorbTxn n t w mixed).port n).live = some (liveOf t .absorb w mixed) := by
  have aborted : Framed s (s.policyAbort n t) := ⟨(Quiet.refl s).policyAbort.cfg, (Quiet.refl s).policyAbort.stores⟩
  unfold absorbTxn
  dsimp only
  generalize s.policyAbort n t = a at aborted
  have emulated (p : Prop) [Decidable p] (x : Port) : Framed s (if p then a.setPort n x else a) := by
    split
    · exact aborted.trans (a.setPort_framed n x)
    · exact aborted
  exact ⟨(TxnKept.of_framed ((emulated _ _).trans (openTxn_framed _ n _))).trans (logAbsorbed_kept _ n).1,
    (logAbsorbed_kept _ n).2.trans (openTxn_live _ n _)⟩

/-- The transaction of a denied command, served with fill or absorbed. -/
def deniedLive : Live :=
  if s.opClass n t.opcode.toNat = opREAD then { liveOf t .fill w mixed with out := List.replicate t.len (s.fillByte n) }
  else liveOf t .absorb w mixed

theorem denyTxn_read (read : s.opClass n t.opcode.toNat = opREAD) :
    s.denyTxn n t w mixed = s.openTxn n { liveOf t .fill w mixed with out := List.replicate t.len (s.fillByte n) } := by
  rw [denyTxn, refusal, if_pos read]

theorem denyTxn_other (other : s.opClass n t.opcode.toNat ≠ opREAD) : s.denyTxn n t w mixed = s.absorbTxn n t w mixed := by
  rw [denyTxn, refusal, if_neg other]

theorem denyTxn_denies :
    TxnKept s (s.denyTxn n t w mixed) ∧ ((s.denyTxn n t w mixed).port n).live = some (s.deniedLive n t w mixed)
    ∧ (s.opClass n t.opcode.toNat = opREAD → (s.denyTxn n t w mixed).regs = s.regs) := by
  by_cases read : s.opClass n t.opcode.toNat = opREAD
  · rw [s.denyTxn_read n t w mixed read, deniedLive, if_pos read]
    exact ⟨.of_framed (s.openTxn_framed n _), s.openTxn_live n _, fun _ => rfl⟩
  · rw [s.denyTxn_other n t w mixed read, deniedLive, if_neg read]
    exact ⟨(s.absorbTxn_absorbs n t w mixed).1, (s.absorbTxn_absorbs n t w mixed).2, fun h => absurd h read⟩

/-- A broken lease is noted in the transaction that has begun. -/
theorem markBroken_open (l : Live) (broke : Bool) (live : (s.port n).live = some l) :
    s.markBroken n broke = s.openTxn n { l with broke := broke } := by
  rw [markBroken, live]

/-! The falling edge (R265, R267, R280, R288) -/

/-- What the port makes of a transaction whose integrity and emulation leave it as it is. -/
def judgeTxn : State :=
  let mixed := s.mixedTxn n t
  if t.both || t.early then s.denyTxn n t .guardEarly false
  else if s.portDenies n then s.denyTxn n t .port false
  else if s.leaseBroken n then s.denyTxn n t .ownership mixed
  else match s.decideTxn n t with
    | .absorb => s.absorbTxn n t .policy mixed
    | .fill => s.denyTxn n t .policy mixed
    | .pass => if s.opClass n t.opcode.toNat = opREAD then s.passRead n t mixed else s.passWrite n t mixed

theorem beginTxn_judges (sound : s.integrityOk n = true) (plain : (s.port n).emu = none) :
    s.beginTxn n t = (s.judgeTxn n t).markBroken n (s.leaseBroken n) := by
  have registered : s.registerIntegrity n = s := if_pos sound
  have watched : s.emuOpcode n t = s := by rw [emuOpcode, plain]
  rw [beginTxn, registered, watched]
  rfl

end State

end Sys2Proof.Machine
end

section
/-! SUPPORT. What the falling edge of CS# decides, and how a permitted command is served (R265-R280, R288-R295). -/

namespace Sys2Proof.Machine

/-- No memory but the flash, no OTP or NVM, and no CFG value has changed. -/
structure FlashWritten (s t : State) : Prop where
  sram : t.sram = s.sram
  retention : t.retention = s.retention
  otp : t.otp = s.otp
  nvm : t.nvm = s.nvm
  cfg : sameCfg s t

namespace FlashWritten

variable {s t u : State}

theorem of_framed (h : Framed s t) : FlashWritten s t :=
  ⟨h.stores.sram, h.stores.retention, h.stores.otp, h.stores.nvm, h.cfg⟩

theorem trans (h : FlashWritten s t) (k : FlashWritten t u) : FlashWritten s u :=
  ⟨k.sram.trans h.sram, k.retention.trans h.retention, k.otp.trans h.otp, k.nvm.trans h.nvm, sameCfg_trans h.cfg k.cfg⟩

end FlashWritten

namespace State

variable (s : State) (n : Nat) (t : HostTxn) (mixed : Bool)

/-! What the falling edge decides (R267, R268, R280, R288) -/

theorem judgeTxn_guard (h : t.both = true ∨ t.early = true) : s.judgeTxn n t = s.denyTxn n t .guardEarly false :=
  if_pos (Bool.or_eq_true_iff.mpr h)

section

variable (both : t.both = false) (early : t.early = false)
include both early

theorem judgeTxn_port (denies : s.portDenies n = true) : s.judgeTxn n t = s.denyTxn n t .port false :=
  (if_neg (by simp [both, early])).trans (if_pos denies)

theorem judgeTxn_lease (grants : s.portDenies n = false) (broken : s.leaseBroken n = true) :
    s.judgeTxn n t = s.denyTxn n t .ownership (s.mixedTxn n t) :=
  (if_neg (by simp [both, early])).trans ((if_neg (Bool.eq_false_iff.mp grants)).trans (if_pos broken))

variable (grants : s.portDenies n = false) (whole : s.leaseBroken n = false)
include grants whole

theorem judgeTxn_absorb (decided : s.decideTxn n t = .absorb) : s.judgeTxn n t = s.absorbTxn n t .policy (s.mixedTxn n t) := by
  simp only [judgeTxn, both, early, grants, whole, decided, Bool.or_false, Bool.false_eq_true, if_false]

theorem judgeTxn_fill (decided : s.decideTxn n t = .fill) : s.judgeTxn n t = s.denyTxn n t .policy (s.mixedTxn n t) := by
  simp only [judgeTxn, both, early, grants, whole, decided, Bool.or_false, Bool.false_eq_true, if_false]

theorem judgeTxn_read (decided : s.decideTxn n t = .pass) (read : s.opClass n t.opcode.toNat = opREAD) :
    s.judgeTxn n t = s.passRead n t (s.mixedTxn n t) := by
  simp only [judgeTxn, both, early, grants, whole, decided, read, Bool.or_false, Bool.false_eq_true, if_false, if_true]

theorem judgeTxn_write (decided : s.decideTxn n t = .pass) (other : s.opClass n t.opcode.toNat ≠ opREAD) :
    s.judgeTxn n t = s.passWrite n t (s.mixedTxn n t) := by
  simp only [judgeTxn, both, early, grants, whole, decided, other, Bool.or_false, Bool.false_eq_true, if_false]

end

/-! A permitted read (R271, R295) -/

theorem readOut_whole (addressed : s.opAddressed n t.opcode.toNat = true) :
    s.readOut n t none = s.flashBytes n t.cs (s.steered n t.cs (s.hostAddr n t)) t.len := by
  simp [readOut, addressed]

/-- A read that is no first touch, stops and cuts nowhere is served, denied or held by who owns the pins. -/
theorem passRead_plain (addressed : s.opAddressed n t.opcode.toNat = true)
    (verified : s.firstTouch n (s.policyAddr n t.cs (s.hostAddr n t)) = false)
    (goesOn : s.readStops n t.cs (s.hostAddr n t) t.len = none) (uncut : s.readCuts n t.cs (s.hostAddr n t) t.len = none) :
    s.passRead n t mixed =
      if s.portOwns n && (s.port n).wbuf.isEmpty then
        s.openTxn n { liveOf t .pass .none mixed with
          out := s.readOut n t none, held := decide (0 < s.lookupWait n true mixed), holdCycles := s.lookupWait n true mixed }
      else if s.cfg (Reg.HFP.PROFILE_STALL n) = 0 then s.denyTxn n t .port mixed
      else s.openTxn n { liveOf t .waitPins .none mixed with held := true } := by
  simp only [passRead, addressed, verified, goesOn, uncut, Bool.and_false, Bool.false_eq_true, if_false, if_true]
  rfl

/-! A permitted command other than a read (R227, R277) -/

theorem hostWrite_rest : ∃ m, s.hostWrite n t = { s with flash := m } := by
  unfold hostWrite
  dsimp only
  split
  · exact ⟨_, rfl⟩
  · split
    · exact ⟨_, rfl⟩
    · exact ⟨_, rfl⟩

theorem hostWrite_written : FlashWritten s (s.hostWrite n t) := by
  obtain ⟨m, written⟩ := s.hostWrite_rest n t
  rw [written]
  exact ⟨rfl, rfl, rfl, rfl, ⟨rfl, rfl, rfl, rfl, rfl⟩⟩

theorem hostWrite_flash : (s.hostWrite n t).flash =
    if s.opClass n t.opcode.toNat = opPROGRAM then (s.flashProgram n t.cs (s.steered n t.cs (s.hostAddr n t)) t.data).flash
    else if s.opClass n t.opcode.toNat = opERASE then
      (s.flashErase n t.cs (s.steered n t.cs (s.hostAddr n t) / s.opEsize n t.opcode.toNat * s.opEsize n t.opcode.toNat)
        (s.opEsize n t.opcode.toNat)).flash
    else s.flash := by
  rw [hostWrite, apply_ite State.flash, apply_ite State.flash]

/-- What a command does to the flash rests on the CFG in force, the active slot and the flash itself. -/
theorem hostWrite_flash_congr {s u : State} (cfg : sameCfg s u) (flash : u.flash = s.flash) (slot : u.activeSlot n = s.activeSlot n) :
    (u.hostWrite n t).flash = (s.hostWrite n t).flash := by
  have reads : u.cfg = s.cfg := funext (cfg_of_sameCfg cfg)
  have cls : u.opClass = s.opClass := by unfold opClass; rw [reads]
  have size : u.opEsize = s.opEsize := by unfold opEsize; rw [reads]
  have addr : u.hostAddr = s.hostAddr := by unfold hostAddr cfgb; rw [reads]
  have steer (a : Nat) : u.steered n t.cs a = s.steered n t.cs a := by unfold steered slotSize slotCs cfgb; rw [reads, slot]
  rw [hostWrite_flash, hostWrite_flash, cls, size, addr, steer]
  simp only [flashProgram, flashErase, flashBytes, flash]

theorem stageData_unarmed (u a : Nat) (bs : List Byte) (unarmed : s.armed u = false) : s.stageData u a bs = s := by
  induction bs generalizing a with
  | nil => rfl
  | cons b bs ih =>
    have skipped : s.stageByte u a b = s := if_pos (by simp [unarmed])
    rw [stageData, skipped, ih]

theorem stageErase_unarmed (u a k : Nat) (unarmed : s.armed u = false) : s.stageErase u a k = s := if_pos (by simp [unarmed])

theorem laneHBusy_place : ∀ n : Fin 6, (Reg.SNP.LANE_STATUS_H_BUSY n).keyOf ≠ (Reg.POL.STEER_STATUS n).keyOf := by decide

/-- Lane H, where it is not armed, shows that it hashes no block, or nothing. -/
theorem laneHSees_unarmed (unarmed : s.armed n = false) : Shown [Reg.SNP.LANE_STATUS_H_BUSY n] s (s.laneHSees n t) := by
  unfold laneHSees
  dsimp only
  rw [s.stageData_unarmed n _ _ unarmed, s.stageErase_unarmed n _ _ unarmed]
  split
  · exact (Shown.refl _ s).wr
  · split
    · exact (Shown.refl _ s).wr
    · exact Shown.refl _ s

theorem laneHSees_slot (n : Fin 6) (unarmed : s.armed n = false) : (s.laneHSees n t).activeSlot n = s.activeSlot n :=
  (s.laneHSees_unarmed n t unarmed).fields _ fun _ hf => List.mem_singleton.mp hf ▸ laneHBusy_place n

/-- With the pins its own, nothing buffered and no full lookup, the port passes the command to the device. -/
theorem passWrite_live (plain : (s.port n).emu = none) (owns : s.portOwns n = true) (empty : (s.port n).wbuf = []) :
    s.passWrite n t false = ((s.laneHSees n t).hostWrite n t).openTxn n { liveOf t .pass .none false with out := t.device } := by
  have bytes : s.deviceBytes n t = t.device := by rw [deviceBytes, plain]
  simp only [passWrite, plain, owns, empty, bytes, List.isEmpty_nil, Bool.not_false, Bool.and_self, if_true]

end State

/-! The falling edge as a command -/

theorem exec_hostTransaction_ignored (s : State) (n : Fin 6) (t : HostTxn)
    (h : s.up = false ∨ s.csLow n = true ∨ Tbl.get true s.power.ioHost n = false) : exec (.hostTransaction n t) s = .next s := by
  refine congrArg Host.Outcome.next (if_pos ?_)
  rcases h with off | low | unsupplied
  · simp [off]
  · simp [low]
  · simp [unsupplied]

/-- A transaction that the port judges with its tables sound and no emulation running. -/
structure TxnBegins (s : State) (n : Fin 6) : Prop where
  up : s.up = true
  csHigh : s.csLow n = false
  supplied : Tbl.get true s.power.ioHost n = true
  sound : s.integrityOk n = true
  plain : (s.port n).emu = none

namespace TxnBegins

variable {s u : State} {n : Fin 6} {t : HostTxn} {l : Live} (h : TxnBegins s n)
include h

theorem exec : exec (.hostTransaction n t) s = .next ((s.judgeTxn n t).markBroken n (s.leaseBroken n)) := by
  refine congrArg Host.Outcome.next ((if_neg ?_).trans (s.beginTxn_judges n t h.sound h.plain))
  simp [h.up, h.csHigh, h.supplied]

/-- What the transaction is once CS# has fallen. -/
theorem exec_open (judged : s.judgeTxn n t = u) (live : (u.port n).live = some l) :
    Machine.exec (.hostTransaction n t) s = .next (u.openTxn n { l with broke := s.leaseBroken n }) := by
  rw [h.exec, judged, u.markBroken_open n l _ live]

/-- A transaction that is served without a write of registers or memories. -/
theorem exec_served (judged : s.judgeTxn n t = s.openTxn n l) :
    ∃ u, Machine.exec (.hostTransaction n t) s = .next u ∧ (u.port n).live = some { l with broke := s.leaseBroken n } ∧ u.regs = s.regs
    ∧ sameStores s u :=
  ⟨_, h.exec_open judged (s.openTxn_live n l), State.openTxn_live _ n _, rfl,
    ((s.openTxn_framed n l).trans (State.openTxn_framed _ n _)).stores⟩

/-- A permitted command that the device takes at once (R227, R277). -/
theorem exec_passed (judged : s.judgeTxn n t = ((s.laneHSees n t).hostWrite n t).openTxn n l) (unarmed : s.armed n = false) :
    ∃ u, Machine.exec (.hostTransaction n t) s = .next u ∧ (u.port n).live = some { l with broke := s.leaseBroken n }
    ∧ u.flash = (s.hostWrite n t).flash ∧ FlashWritten s u := by
  have seen := s.laneHSees_unarmed n t unarmed
  have opened := (State.openTxn_framed ((s.laneHSees n t).hostWrite n t) n l).trans
    (State.openTxn_framed _ n { l with broke := s.leaseBroken n })
  exact ⟨_, h.exec_open judged (State.openTxn_live _ n l), State.openTxn_live _ n _,
    opened.stores.flash.trans (State.hostWrite_flash_congr n t seen.cfg seen.stores.flash (s.laneHSees_slot t n unarmed)),
    (FlashWritten.of_framed seen.toFramed).trans ((State.hostWrite_written _ n t).trans (.of_framed opened))⟩

/-- A transaction that is judged as absorbed. -/
theorem exec_absorbed {w : DenyWhy} {mixed : Bool} (judged : s.judgeTxn n t = s.absorbTxn n t w mixed) :
    ∃ u, Machine.exec (.hostTransaction n t) s = .next u
    ∧ (u.port n).live = some { State.liveOf t .absorb w mixed with broke := s.leaseBroken n } ∧ TxnKept s u := by
  obtain ⟨kept, live⟩ := s.absorbTxn_absorbs n t w mixed
  exact ⟨_, h.exec_open judged live, State.openTxn_live _ n _, kept.trans (.of_framed (State.openTxn_framed _ n _))⟩

/-- A transaction that is judged as denied is `txnDenied`. -/
theorem denied {w : DenyWhy} {mixed : Bool} (judged : s.judgeTxn n t = s.denyTxn n t w mixed) : txnDenied s n t w := by
  obtain ⟨kept, live, regs⟩ := s.denyTxn_denies n t w mixed
  have whole := kept.trans (.of_framed (State.openTxn_framed _ n { s.deniedLive n t w mixed with broke := s.leaseBroken n }))
  refine ⟨_, h.exec_open judged live, whole.flash, whole.sram, whole.otp, whole.cfg, ?_, regs⟩
  rw [State.openTxn_live, State.deniedLive]
  split <;> rfl

end TxnBegins

end Sys2Proof.Machine
end

section
/-! SUPPORT. The counters of a transaction (R263, R297): what each of them reads after the rising edge that ends it. -/

namespace Sys2Proof.Machine

/-- The four counters of port `n` that a transaction may count in. -/
def txnCounters (n : Nat) : List Fld :=
  [Reg.HFP.TXN_COUNT n, Reg.HFP.DENY_COUNT n, Reg.HFP.GUARD_EARLY_COUNT n, Reg.HFP.OWNERSHIP_DENY_COUNT n]

/-- What else the end of a transaction writes: the records of a refused command, events, the counts of holds, lookups and cuts. -/
def txnRecords (n : Nat) : List Fld :=
  [Reg.POL.READ_DENY_COUNT n, Reg.POL.ABSORB_COUNT n, Reg.POL.LAST_DENY_ADDR n, Reg.POL.LAST_DENY_OP_OPCODE n, Reg.POL.LAST_DENY_OP_CLASS n,
    Reg.POL.LAST_DENY_OP_ACTION n, Hdr.EVENT (pgPOL n) 8, Hdr.EVENT (pgPOL n) 9, Hdr.EVENT (pgHFP n) 10, Hdr.EVENT (pgHFP n) 11,
    Reg.POL.MIXED_COUNT n, Reg.HFP.STALL_COUNT n, Reg.HFP.STALL_MAX_SEEN n, Reg.ESC.STREAM_CUT_COUNT n, Hdr.EVENT pgESC 10]

theorem txnCounters_places : ∀ n : Fin 6, ∀ f ∈ txnCounters n, ∀ g ∈ txnCounters n, g ≠ f → f.keyOf ≠ g.keyOf := by decide

theorem txnRecords_places : ∀ n : Fin 6, ∀ f ∈ txnRecords n, ∀ g ∈ txnCounters n, f.keyOf ≠ g.keyOf := by decide

theorem channelFlds_counters : ∀ n : Fin 6, ∀ f ∈ channelFlds n, ∀ g ∈ txnCounters n, f.keyOf ≠ g.keyOf := by decide

theorem txnFields_pending : ∀ n : Fin 6, ∀ f ∈ txnCounters n ++ txnRecords n,
    f.keyOf ≠ (Hdr.PENDING (pgHFP n)).keyOf ∧ f.keyOf ≠ (Hdr.PENDING (pgPOL n)).keyOf := by decide

/-- The counters of the list have counted once, the other counters of the port have not, and besides only records are written. -/
structure Counted (n : Fin 6) (c : List Fld) (s t : State) : Prop extends Shown (txnCounters n ++ txnRecords n) s t where
  once : ∀ f ∈ txnCounters n, f ∈ c → t.rd f = min (s.rd f + 1) (2 ^ f.width - 1)
  kept : ∀ f ∈ txnCounters n, f ∉ c → t.rd f = s.rd f

namespace Counted

variable {n : Fin 6} {c : List Fld} {s t u : State} {p : Prop} [Decidable p] {f : Fld}

theorem refl (n : Fin 6) (s : State) : Counted n [] s s := ⟨Shown.refl _ s, nofun, fun _ _ _ => rfl⟩

/-- A counter that has not counted does. -/
theorem bump (h : Counted n c s t) (hf : f ∈ txnCounters n) (fresh : f ∉ c) : Counted n (f :: c) s (t.bump f) := by
  have other (g : Fld) (hg : g ∈ txnCounters n) (ne : g ≠ f) : (t.bump f).rd g = t.rd g :=
    t.rd_wr_ne' f g _ (txnCounters_places n f hf g hg ne)
  refine ⟨h.toShown.wr (List.mem_append_left _ hf), fun g hg counts => ?_, fun g hg uncounted => ?_⟩
  · by_cases same : g = f
    · rw [same, State.rd_bump_same, h.kept f hf fresh]
    · exact (other g hg same).trans (h.once g hg ((List.mem_cons.mp counts).resolve_left same))
  · obtain ⟨ne, absent⟩ := not_or.mp (List.mem_cons.not.mp uncounted)
    exact (other g hg ne).trans (h.kept g hg absent)

/-- A record is none of the counters. -/
theorem record {v : Nat} (h : Counted n c s t) (hf : f ∈ txnRecords n := by simp [txnRecords]) : Counted n c s (t.wr f v) :=
  have other (g : Fld) (hg : g ∈ txnCounters n) := t.rd_wr_ne' f g v (txnRecords_places n f hf g hg)
  ⟨h.toShown.wr (List.mem_append_right _ hf), fun g hg counts => (other g hg).trans (h.once g hg counts),
    fun g hg absent => (other g hg).trans (h.kept g hg absent)⟩

/-- Records are written under a condition. -/
theorem ifRecorded (h : Counted n c s t) (k : Counted n c s t → Counted n c s u) : Counted n c s (if p then u else t) := by
  split
  · exact k h
  · exact h

/-- A counter counts under a condition. -/
theorem whenever (h : Counted n c s t) (k : Counted n (f :: c) s u) : Counted n ((if p then [f] else []) ++ c) s (if p then u else t) := by
  split
  · exact k
  · exact h

theorem countRefused {l : Live} (h : Counted n c s t) : Counted n c s (t.countRefused n l) := by
  have choice (p : Prop) [Decidable p] (a b : Fld) (ha : a ∈ txnRecords n) (hb : b ∈ txnRecords n) : (if p then a else b) ∈ txnRecords n := by
    split <;> assumption
  have events (p : Prop) [Decidable p] : Hdr.EVENT (pgPOL n) (if p then 9 else 8) ∈ txnRecords n := by
    split <;> simp [txnRecords]
  exact (h.record (choice _ _ _ (by simp [txnRecords]) (by simp [txnRecords]))).record.record.record.record.record (events _)

end Counted

/-- The counters that a transaction counts in: all in TXN_COUNT, a denied one in DENY_COUNT, one inside the guard and one that broke a
lease in counters of their own. -/
def txnCounts (n : Nat) (l : Live) : List Fld :=
  (if l.broke then [Reg.HFP.OWNERSHIP_DENY_COUNT n] else []) ++ ((if l.why = .guardEarly then [Reg.HFP.GUARD_EARLY_COUNT n] else [])
    ++ ((if l.why ≠ .none then [Reg.HFP.DENY_COUNT n] else []) ++ [Reg.HFP.TXN_COUNT n]))

section

variable {n : Nat} {l : Live}

theorem txnCounts_subset : txnCounts n l ⊆ txnCounters n := by
  intro f hf
  simp only [txnCounts, List.mem_append, List.mem_ite_nil_right, List.mem_singleton] at hf
  rcases hf with ⟨_, rfl⟩ | ⟨_, rfl⟩ | ⟨_, rfl⟩ | rfl <;> simp [txnCounters]

theorem txn_mem_txnCounts : Reg.HFP.TXN_COUNT n ∈ txnCounts n l := by simp [txnCounts]

theorem deny_mem_txnCounts (denied : l.why ≠ .none) : Reg.HFP.DENY_COUNT n ∈ txnCounts n l := by simp [txnCounts, denied]

theorem deny_notMem_txnCounts (passed : l.why = .none) : Reg.HFP.DENY_COUNT n ∉ txnCounts n l := by
  simp [txnCounts, passed, Reg.HFP.DENY_COUNT, Reg.HFP.TXN_COUNT, Reg.HFP.OWNERSHIP_DENY_COUNT]

theorem guard_mem_txnCounts (early : l.why = .guardEarly) : Reg.HFP.GUARD_EARLY_COUNT n ∈ txnCounts n l := by simp [txnCounts, early]

theorem ownership_mem_txnCounts (broke : l.broke = true) : Reg.HFP.OWNERSHIP_DENY_COUNT n ∈ txnCounts n l := by simp [txnCounts, broke]

end

theorem State.countTxn_counted (s : State) (n : Fin 6) (l : Live) : Counted n (txnCounts n l) s (s.countTxn n l) := by
  have counter {f : Fld} {c : List Fld} {u : State} (h : Counted n c s u) (hf : f ∈ txnCounters n := by simp [txnCounters])
      (fresh : f ∉ c := by simp [Reg.HFP.TXN_COUNT, Reg.HFP.DENY_COUNT, Reg.HFP.GUARD_EARLY_COUNT, Reg.HFP.OWNERSHIP_DENY_COUNT]) :
      Counted n (f :: c) s (u.bump f) := h.bump hf fresh
  unfold State.countTxn
  dsimp only
  have all := counter (f := Reg.HFP.TXN_COUNT n) (Counted.refl n s)
  have denied := all.whenever (p := l.why ≠ .none) (counter (f := Reg.HFP.DENY_COUNT n) all)
  have refused := denied.ifRecorded (p := l.why = .policy) (·.countRefused (l := l))
  have guarded := refused.whenever (p := l.why = .guardEarly)
    ((counter (f := Reg.HFP.GUARD_EARLY_COUNT n) refused).record (f := Hdr.EVENT (pgHFP n) 11) (v := 1))
  have broken := guarded.whenever (p := l.broke)
    ((counter (f := Reg.HFP.OWNERSHIP_DENY_COUNT n) guarded).record (f := Hdr.EVENT (pgHFP n) 10) (v := 1))
  exact ((broken.ifRecorded fun h => h.record).ifRecorded fun h => h.record.record).ifRecorded fun h => h.record.record

end Sys2Proof.Machine
end

section
/-! O43: a host's flash transaction, its falling edge and its rising edge (R263-R280, R288-R300). -/

namespace Sys2Proof.Machine

namespace State

variable (s : State) (n : Fin 6) (l : Live)

theorem exec_hostCsRise_high (high : s.csLow n = false) : exec (.hostCsRise n) s = .next s :=
  congrArg Host.Outcome.next (if_neg (by simp [high]))

/-- With no page of the port PENDING its pages stay (R77). -/
theorem swapPort_idle (hfp : s.flag (Hdr.PENDING (pgHFP n)) = false) (pol : s.flag (Hdr.PENDING (pgPOL n)) = false) : s.swapPort n = s := by
  have port : (n : Nat) ≠ 6 := by omega
  have first : s.swapPage (pgHFP n) = s := if_pos (by rw [hfp]; rfl)
  have second : s.swapPage (pgPOL n) = s := if_pos (by rw [pol]; rfl)
  rw [swapPort, if_neg port, first, second]

/-- With no access waiting none completes. -/
theorem waitsDone_none (none : s.waits = []) : s.waitsDone n = s := by
  calc s.waitsDone n = { s with waits := [] } := by simp [waitsDone, none]
    _ = { s with waits := s.waits } := congrArg (fun w => ({ s with waits := w } : State)) none.symm

/-- What the host has received when CS# rises: what was delivered, then fill, but none after an absorbed or a buffered command. -/
def received : List Byte :=
  l.out.take l.txn.len
    ++ (if l.serve = .absorb || l.serve = .buffered then [] else List.replicate (l.txn.len - (l.out.take l.txn.len).length) (s.fillByte n))

/-- The port after the rising edge that ends `l`. -/
def portClosed : Port := { s.port n with live := none, received := s.received n l }

variable (live : (s.port n).live = some l) (touch : l.touch = none) (hfp : s.flag (Hdr.PENDING (pgHFP n)) = false)
  (pol : s.flag (Hdr.PENDING (pgPOL n)) = false)
include live touch hfp pol

/-- The rising edge of a transaction without a first touch, where no page is PENDING, counts it, closes it, and the channel may go on. -/
theorem portEnd_plain : s.portEnd n = ((s.countTxn n l).setPort n (s.portClosed n l)).pumpCh n := by
  have counted := (s.countTxn_counted n l).toShown
  have same : s.countTxn n l = { s with regs := (s.countTxn n l).regs } := counted.rest
  have port : (s.countTxn n l).port n = s.port n := by rw [same]; rfl
  have fill : (s.countTxn n l).fillByte n = s.fillByte n := congrArg (BitVec.ofNat 8) (cfg_of_sameCfg counted.cfg _)
  have pending (g : Fld) (hg : ∀ f ∈ txnCounters n ++ txnRecords n, f.keyOf ≠ g.keyOf) (off : s.flag g = false) :
      ((s.countTxn n l).setPort n (s.portClosed n l)).flag g = false :=
    (congrArg (fun v => decide (v = 1)) (counted.fields g hg)).trans off
  have swapped := swapPort_idle ((s.countTxn n l).setPort n (s.portClosed n l)) n
    (pending _ (fun f hf => (txnFields_pending n f hf).1) hfp) (pending _ (fun f hf => (txnFields_pending n f hf).2) pol)
  rw [portEnd, live]
  dsimp only
  rw [touch, port, fill, Option.isSome_none, if_neg Bool.false_ne_true]
  exact congrArg (State.pumpCh · n) swapped

theorem exec_hostCsRise_plain (waits : s.waits = []) :
    exec (.hostCsRise n) s = .next (((s.countTxn n l).setPort n (s.portClosed n l)).pumpCh n) := by
  have low : s.csLow n = true := by rw [csLow, live]; rfl
  have work := (PinWork.refl n ((s.countTxn n l).setPort n (s.portClosed n l))).pumpCh
  have idle : (((s.countTxn n l).setPort n (s.portClosed n l)).pumpCh n).waits = [] := by
    rw [work.waits, setPort_waits, (s.countTxn_counted n l).rest]
    exact waits
  refine congrArg Host.Outcome.next ((if_pos low).trans ?_)
  rw [s.portEnd_plain n l live touch hfp pol, waitsDone_none _ n idle]

end State

section

variable (s : State) (n : Fin 6) (l : Live)

theorem State.received_filled (absorbed : l.serve ≠ .absorb) (buffered : l.serve ≠ .buffered) :
    s.received n l = l.out.take l.txn.len ++ List.replicate (l.txn.len - (l.out.take l.txn.len).length) (s.fillByte n) := by
  simp [State.received, absorbed, buffered]

theorem State.received_bare (h : l.serve = .absorb ∨ l.serve = .buffered) : s.received n l = l.out.take l.txn.len := by
  rcases h with absorbed | buffered
  · simp [State.received, absorbed]
  · simp [State.received, buffered]

/-- What the rising edge leaves: the port closed, its counters, and neither a memory nor a CFG value changed. -/
structure TxnClosed (s : State) (n : Fin 6) (l : Live) (u : State) : Prop extends Framed s u where
  port : u.port n = s.portClosed n l
  once : ∀ f ∈ txnCounts n l, u.rd f = min (s.rd f + 1) (2 ^ f.width - 1)
  kept : ∀ f ∈ txnCounters n, f ∉ txnCounts n l → u.rd f = s.rd f

theorem State.txnClosed : TxnClosed s n l (((s.countTxn n l).setPort n (s.portClosed n l)).pumpCh n) := by
  have counted := s.countTxn_counted n l
  have work := (PinWork.refl n ((s.countTxn n l).setPort n (s.portClosed n l))).pumpCh
  have counter (f : Fld) (hf : f ∈ txnCounters n) : (((s.countTxn n l).setPort n (s.portClosed n l)).pumpCh n).rd f = (s.countTxn n l).rd f :=
    work.fields f fun g hg => channelFlds_counters n g hg f hf
  exact ⟨counted.toFramed.trans ((State.setPort_framed _ n _).trans work.toFramed), (work.port n).trans (State.port_setPort_same _ n _),
    fun f hf => (counter f (txnCounts_subset hf)).trans (counted.once f (txnCounts_subset hf) hf),
    fun f hf hc => (counter f hf).trans (counted.kept f hf hc)⟩

end

/-- Settles O43: the falling edge by what `judgeTxn` decides, the rising edge by the counters of `countTxn_counted`. -/
theorem hostFlashTransaction : Obligations.HostFlashTransaction := by
  refine ⟨exec_hostTransaction_ignored, fun s n t up high supplied sound plain => ?_, fun s n l live waits touch hfp pol => ?_,
    State.exec_hostCsRise_high⟩
  · have begins : TxnBegins s n := ⟨up, high, supplied, sound, plain⟩
    refine ⟨fun guard => begins.denied (s.judgeTxn_guard n t guard),
      fun both early denies => begins.denied (s.judgeTxn_port n t both early denies),
      fun both early grants broken => begins.denied (s.judgeTxn_lease n t both early grants broken), fun both early grants whole => ?_⟩
    refine ⟨fun pass read addressed verified goesOn uncut => ?_, fun pass other owns empty simple unarmed => ?_, fun absorb => ?_,
      fun fill => begins.denied (s.judgeTxn_fill n t both early grants whole fill)⟩
    · have judged := (s.judgeTxn_read n t both early grants whole pass read).trans
        (s.passRead_plain n t (s.mixedTxn n t) addressed verified goesOn uncut)
      refine ⟨fun owns empty => ?_, fun away stalls => ?_,
        fun away never => begins.denied (judged.trans ((if_neg (by simp [away])).trans (if_pos never)))⟩
      · obtain ⟨u, next, live, regs, stores⟩ := begins.exec_served (judged.trans (if_pos (by simp [owns, empty])))
        exact ⟨u, next, by rw [live, s.readOut_whole n t addressed]; rfl, regs, stores⟩
      · obtain ⟨u, next, live, regs, stores⟩ := begins.exec_served (judged.trans ((if_neg (by simp [away])).trans (if_neg stalls)))
        exact ⟨u, next, by rw [live]; rfl, regs, stores⟩
    · have judged := s.judgeTxn_write n t both early grants whole pass other
      rw [simple, s.passWrite_live n t plain owns empty] at judged
      obtain ⟨u, next, live, flash, written⟩ := begins.exec_passed judged unarmed
      exact ⟨u, next, by rw [live]; rfl, flash.trans (s.hostWrite_flash n t), written.sram, written.retention, written.otp, written.nvm,
        written.cfg⟩
    · obtain ⟨u, next, live, kept⟩ := begins.exec_absorbed (s.judgeTxn_absorb n t both early grants whole absorb)
      exact ⟨u, next, by rw [live]; rfl, kept.flash, kept.sram, kept.otp, kept.cfg⟩
  · have next := s.exec_hostCsRise_plain n l live touch hfp pol waits
    have closed := s.txnClosed n l
    exact ⟨_, next, congrArg Port.live closed.port, closed.stores.flash, closed.stores.sram, closed.stores.otp, closed.stores.nvm, closed.cfg,
      closed.once _ txn_mem_txnCounts, fun passed => closed.kept _ (by simp [txnCounters]) (deny_notMem_txnCounts passed),
      fun denied => closed.once _ (deny_mem_txnCounts denied), fun early => closed.once _ (guard_mem_txnCounts early),
      fun broke => closed.once _ (ownership_mem_txnCounts broke),
      fun absorbed buffered => (congrArg Port.received closed.port).trans (s.received_filled n l absorbed buffered),
      fun bare => (congrArg Port.received closed.port).trans (s.received_bare n l bare)⟩

end Sys2Proof.Machine
end

section
/-! SUPPORT. How a hold ends, and how the channel gives a port its pins and its buffered commands effect (R270-R277). -/

namespace Sys2Proof.Machine

/-- A hold has reached DS_HOLD_MAX: the transaction receives fill, and the happening is counted with its event. -/
structure HoldOver (n : Nat) (l : Live) (s t : State) : Prop
    extends OnlyFields [Reg.HFP.HOLD_EXPIRED_COUNT n, Hdr.EVENT (pgHFP n) 9] s t where
  live : (t.port n).live = some { l with serve := .fill, holdCycles := s.cfg (Reg.HFP.DS_HOLD n) }
  count : t.rd (Reg.HFP.HOLD_EXPIRED_COUNT n) = min (s.rd (Reg.HFP.HOLD_EXPIRED_COUNT n) + 1) (2 ^ (Reg.HFP.HOLD_EXPIRED_COUNT n).width - 1)
  event : t.raised (pgHFP n) 9 = true

namespace State

variable (s : State) (n : Nat) (l : Live) (live : (s.port n).live = some l)
include live

theorem holdExpired_over (holds : l.serve = .waitPins ∨ l.serve = .touch) (nothing : l.out = []) : HoldOver n l s (s.holdExpired n) := by
  have ends : ((decide (l.serve = .waitPins) || decide (l.serve = .touch)) && l.out.isEmpty) = true := by simpa [nothing] using holds
  rw [holdExpired, live]
  dsimp only
  rw [if_pos ends]
  have opened : OnlyFields [Reg.HFP.HOLD_EXPIRED_COUNT n, Hdr.EVENT (pgHFP n) 9] s
      (s.openTxn n { l with serve := .fill, holdCycles := s.cfg (Reg.HFP.DS_HOLD n) }) := (OnlyFields.refl _ s).outside
  exact ⟨opened.wr.wr, s.openTxn_live n _, (rd_wr_apart _ _ _ _ rfl).trans (rd_bump_same _ _), flag_wr_one _ _ rfl⟩

/-- The pins go to a port whose read waits for them; its hold is over, or the read is replayed (R270, R271, R275). -/
theorem pinGrant_waiting (c : Nat) (waits : l.serve = .waitPins) (untouched : l.touch = none) (empty : (s.port n).wbuf = [])
    (idle : (s.sched (chanRes n)).running = none) :
    s.pinGrant n c =
      if s.cfg (Reg.HFP.DS_HOLD n) < c then (s.givePins n).holdExpired n
      else (s.givePins n).openTxn n { l with
        serve := .pass, held := decide (0 < c + s.lookupWait n (s.opAddressed n l.txn.opcode.toNat) l.mixed),
        holdCycles := c + s.lookupWait n (s.opAddressed n l.txn.opcode.toNat) l.mixed,
        out := (s.givePins n).readOut n l.txn l.fillAt } := by
  have reads : (s.givePins n).cfg = s.cfg := funext (cfg_of_sameCfg (s.givePins_shown n).cfg)
  have addressed : (s.givePins n).opAddressed = s.opAddressed := by unfold opAddressed cfgb; rw [reads]
  have lookup : (s.givePins n).lookupWait = s.lookupWait := by unfold lookupWait; rw [reads]
  rw [pinGrant, live]
  dsimp only
  rw [if_neg (by simp [waits, untouched, empty, idle]), if_neg (not_not_intro waits), reads, addressed, lookup]

end State

/-- The oldest buffered command takes effect and leaves the buffer; the pins go back after the last (R277). -/
theorem State.wbufReplay_oldest (s : State) (n : Nat) (t : HostTxn) (rest : List HostTxn) (oldest : (s.port n).wbuf = t :: rest)
    (idle : (s.sched (State.chanRes n)).running = none) :
    PinWork n ((s.hostWrite n t).setPort n { s.port n with wbuf := rest }) (s.wbufReplay n) := by
  rw [State.wbufReplay, oldest]
  dsimp only
  rw [if_neg (by simp [idle])]
  exact .ite (PinWork.refl n _).givePins.pumpCh (PinWork.refl n _)

end Sys2Proof.Machine
end

section
/-! SUPPORT. The lease of a LEASED port (R279) and the message that asks for it (R402). -/

namespace Sys2Proof.Machine

/-- A lease of `d` units runs on channel `n` from now, or with 0 the current one has ended. -/
structure Leased (n d : Nat) (s t : State) : Prop extends Framed s t where
  rest : t = { s with regs := t.regs, scheds := t.scheds, chans := t.chans }
  lease : (t.chan n).lease = d
  leaseAt : (t.chan n).leaseAt = s.time.mrt
  active : t.flag (Reg.FCH.STATUS_LEASE_ACTIVE n) = decide (d ≠ 0)

theorem State.leaseOp_leased (s : State) (n d : Nat) (leased : s.sharing n = 1) : Leased n d s (s.leaseOp n d) := by
  rw [State.leaseOp, if_neg (not_not_intro leased)]
  have opened := s.chan_setChan_same n { s.chan n with lease := d, leaseAt := s.time.mrt, closing := false }
  have work := (PinWork.refl n ((s.setChan n { s.chan n with lease := d, leaseAt := s.time.mrt, closing := false }).wrb
    (Reg.FCH.STATUS_LEASE_ACTIVE n) (decide (d ≠ 0)))).pumpCh
  exact ⟨((s.setChan_framed n _).wr).trans work.toFramed, work.rest, work.lease.trans (congrArg Chan.lease opened),
    work.leaseAt.trans (congrArg Chan.leaseAt opened), (work.flag_apart _ rfl).trans (State.flag_wr_bit _ _ _ rfl)⟩

theorem Mailed.chan {s t : State} (h : Mailed s t) (n : Nat) : t.chan n = s.chan n := by rw [h.rest]; rfl
theorem Mailed.time {s t : State} (h : Mailed s t) : t.time = s.time := by rw [h.rest]

/-- A lease that is granted and answered (R279, R402): it runs and shows, and neither a memory but the mailbox nor CFG has changed. -/
structure LeaseAnswered (n d : Nat) (s t : State) : Prop extends TxnKept s t where
  lease : (t.chan n).lease = d
  leaseAt : (t.chan n).leaseAt = s.time.mrt
  back : t.mgpOwns = false
  active : t.flag (Reg.FCH.STATUS_LEASE_ACTIVE n) = decide (d ≠ 0)

theorem State.leaseOp_answered (s : State) (n d : Nat) (leased : s.sharing n = 1) : LeaseAnswered n d s ((s.leaseOp n d).mgpRespond 0 []) := by
  have begun := s.leaseOp_leased n d leased
  obtain ⟨answered, back⟩ := (s.leaseOp n d).mgpRespond_mailed 0 []
  have shown : ((s.leaseOp n d).mgpRespond 0 []).rd (Reg.FCH.STATUS_LEASE_ACTIVE n) = (s.leaseOp n d).rd (Reg.FCH.STATUS_LEASE_ACTIVE n) :=
    answered.fields _ fun f hf => Fld.keyOf_ne_of_apart
      (List.all_eq_true.mp (id rfl : mailFields.all (fun f => f.apart (Reg.FCH.STATUS_LEASE_ACTIVE n)) = true) f hf)
  exact ⟨(TxnKept.of_framed begun.toFramed).trans ⟨answered.flash, answered.sram, answered.otp, answered.cfg⟩,
    (congrArg Chan.lease (answered.chan n)).trans begun.lease, (congrArg Chan.leaseAt (answered.chan n)).trans begun.leaseAt, back,
    (congrArg (fun v => decide (v = 1)) shown).trans begun.active⟩

namespace State

variable (s : State)

/-- LEASE_EXPIRY ends the lease, and the channel goes on (R279). -/
theorem leaseEnd_pumped (n : Nat) : let u := (s.leaseEnd n).pumpCh n
    Framed s u ∧ (u.chan n).lease = 0 ∧ u.flag (Reg.FCH.STATUS_LEASE_ACTIVE n) = false := by
  have work := (PinWork.refl n (s.leaseEnd n)).pumpCh
  exact ⟨((s.setChan_framed n _).wr).trans work.toFramed, work.lease.trans (congrArg Chan.lease (s.chan_setChan_same n _)),
    (work.flag_apart _ rfl).trans (flag_wr_zero _ _ rfl)⟩

/-- The payload of LEASE. -/
def leasePayload (n d : Nat) : List Byte := leBytes 1 n ++ [0] ++ leBytes 2 d

theorem leasePayload_fields (n d : Nat) (port : n ≤ 5) (units : d ≤ 1000) :
    (leasePayload n d).length = 4 ∧ fieldLe (leasePayload n d) 0 1 = n ∧ fieldLe (leasePayload n d) 1 1 = 0
    ∧ fieldLe (leasePayload n d) 2 2 = d := by
  have number : fieldLe (leasePayload n d) 0 1 = leNat (leBytes 1 n) := rfl
  have length : fieldLe (leasePayload n d) 2 2 = leNat (leBytes 2 d) := rfl
  rw [number, length, leNat_leBytes, leNat_leBytes]
  exact ⟨rfl, Nat.mod_eq_of_lt (by omega), rfl, Nat.mod_eq_of_lt (by omega)⟩

/-- LEASE of a port and a length in range is judged by the port's sharing mode (R402). -/
theorem mgpLease_judged (n d : Nat) (port : n ≤ 5) (units : d ≤ 1000) (payload : s.mbPayload = leasePayload n d)
    (attached : s.beforeAttach = false) :
    s.mgpLease = if s.sharing n = 1 then (s.leaseOp n d).mgpRespond 0 [] else s.mgpReject mgNOT_LEASED := by
  obtain ⟨long, number, zero, length⟩ := leasePayload_fields n d port units
  have inRange : ¬ (decide (5 < n) || decide (0 ≠ 0) || decide (1000 < d)) = true := by simp; omega
  rw [mgpLease, attached, if_neg Bool.false_ne_true, payload, if_neg (not_not_intro long), number, zero, length, if_neg inRange, ite_not]

end State

/-- The count of the message that asks for a lease changes neither the sharing mode nor a memory. -/
theorem Mailed.counted {s u : State} (h : Mailed s u) (n : Nat) : (u.bump Reg.MGP.HW_MSG_COUNT).sharing n = s.sharing n
    ∧ (u.bump Reg.MGP.HW_MSG_COUNT).time = s.time ∧ TxnKept s (u.bump Reg.MGP.HW_MSG_COUNT) :=
  ⟨(State.cfg_of_sameCfg (sameCfg_wr u _ _) _).trans (State.cfg_of_sameCfg h.cfg _), h.time,
    TxnKept.trans ⟨h.flash, h.sram, h.otp, h.cfg⟩ (.of_framed (Framed.refl u).wr)⟩

/-- A LEASE that the host sends is taken, counted and judged (R399-R402). -/
theorem exec_lease_judged (s : State) (n d : Nat) (up : s.mgpUp = true) (own : s.mgpOwns = false) (alive : s.boot.phase ≠ BootPhase.scrap)
    (sound : s.boot.phase ≠ BootPhase.fatal) (port : n ≤ 5) (units : d ≤ 1000) (attached : s.beforeAttach = false) :
    ∃ u, submitted s u 0x80 0 0 (State.leasePayload n d) ∧ exec (.lease n d) s = .next
      (if s.sharing n = 1 then ((u.bump Reg.MGP.HW_MSG_COUNT).leaseOp n d).mgpRespond 0 []
        else (u.bump Reg.MGP.HW_MSG_COUNT).mgpReject mgNOT_LEASED) := by
  obtain ⟨u, taken, next⟩ := s.hostMessage_submitted 0x80 0 0 (State.leasePayload n d) up own (by decide) (by decide) (by decide)
    ((State.leasePayload_fields n d port units).1 ▸ by decide)
  refine ⟨u, taken, congrArg Host.Outcome.next (next.trans ?_)⟩
  have mailed := Mailed.of_submitted taken
  have phase : ¬ (decide (u.boot.phase = BootPhase.scrap) || decide (u.boot.phase = BootPhase.fatal)) = true := by
    rw [mailed.boot]; simp [alive, sound]
  have mode : u.mode = s.mode := by rw [mailed.rest]
  have attached' : (u.bump Reg.MGP.HW_MSG_COUNT).beforeAttach = false := by
    rw [← attached]; exact congrArg (fun m : ModeSt => m.afterWarm && !m.attached) mode
  have whole : ¬ (bit 0 0 || decide ((u.bump Reg.MGP.HW_MSG_COUNT).mbOff ≠ 0)) = true := by
    have start : (u.bump Reg.MGP.HW_MSG_COUNT).mbOff = 0 := taken.offIs
    rw [start]
    decide
  rw [State.routeMessage, if_neg phase, taken.codeIs, taken.flagsAre, if_neg (by decide), if_pos (by decide), State.hwMessage,
    if_neg whole, if_pos rfl, (u.bump Reg.MGP.HW_MSG_COUNT).mgpLease_judged n d port units taken.payloadIs attached', (mailed.counted n).1]

end Sys2Proof.Machine
end

section
/-! SUPPORT. An access to a word of a port's domain (R85, R86): what its completion leaves. -/

namespace Sys2Proof.Machine

/-- Nothing but registers and the free source has changed. -/
def WordDone (s t : State) : Prop := t = { s with regs := t.regs, free := t.free }

namespace WordDone

variable {s t : State}

theorem refl (s : State) : WordDone s s := rfl

theorem wr {f : Fld} {v : Nat} (h : WordDone s t) : WordDone s (t.wr f v) := congrArg (fun x : State => x.wr f v) h

theorem spend {k : Nat} (h : WordDone s t) : WordDone s (t.spend k) := congrArg (fun x : State => x.spend k) h

theorem ite {a b : State} {p : Prop} {_ : Decidable p} (ha : WordDone s a) (hb : WordDone s b) : WordDone s (if p then a else b) := by
  split <;> assumption

theorem foldl {α : Type} {f : State → α → State} {l : List α} (h : WordDone s t)
    (hf : ∀ {u : State} {x : α}, WordDone s u → WordDone s (f u x)) : WordDone s (l.foldl f t) :=
  List.foldlRecOn l f h fun _ k _ _ => hf k

theorem writeLost {p off : Nat} (h : WordDone s t) : WordDone s (t.writeLost p off) := h.wr.wr.wr

theorem writeLostWith {p off c : Nat} (h : WordDone s t) : WordDone s (t.writeLostWith p off c) := h.writeLost.wr.wr

theorem putField {v : Nat} {f : Fld} (h : WordDone s t) : WordDone s (t.putField v f) := by
  unfold State.putField
  split
  · exact ite h h.wr
  · exact h.wr
  · exact ite h.spend.writeLost h.spend.wr
  · exact h.wr
  · exact h

theorem cfdWord {p off v : Nat} (h : WordDone s t) : WordDone s (t.cfdWord p off v) := by
  unfold State.cfdWord
  refine ite h.writeLostWith ?_
  split
  · exact h.writeLostWith
  · exact ite h.writeLostWith (h.foldl wr).wr

theorem stores (h : WordDone s t) : sameStores s t := by
  rw [h]
  exact ⟨rfl, rfl, rfl, rfl, rfl, rfl, rfl⟩

theorem waits (h : WordDone s t) : t.waits = s.waits := by rw [h]

end WordDone

namespace State

variable (s : State) (p off d : Nat) (cross : s.crossDom p off = some d)
include cross

/-- A word of a port's domain lies in the active view past the header, on a page of its own. -/
theorem crossDom_place : 0x40 ≤ off ∧ off < 0x800 ∧ p < 0x1A := by
  unfold crossDom at cross
  split at cross
  · cases cross
  · next inside =>
    simp only [Bool.or_eq_true, decide_eq_true_eq, not_or, Nat.not_lt, Nat.not_le] at inside
    obtain ⟨⟨low, high⟩, -⟩ := inside
    refine ⟨low, high, ?_⟩
    split at cross
    · next port =>
      simp only [sckPage, Bool.and_eq_true, decide_eq_true_eq] at port
      omega
    · split at cross
      · next channel =>
        simp only [Bool.and_eq_true, decide_eq_true_eq] at channel
        omega
      · cases cross

theorem plainWrite_crossing (v : Nat) : WordDone s (s.plainWrite p off v) := by
  obtain ⟨low, high, page⟩ := s.crossDom_place p off d cross
  have notMsec : ¬ (decide (p = pgMSEC) && (s.wordAt p off).any fun f => decide (f.kind = .live)) = true := by
    have other : p ≠ pgMSEC := by rw [pgMSEC]; omega
    simp [other]
  unfold plainWrite
  dsimp only
  rw [if_neg (by omega), if_neg (by omega), if_neg notMsec]
  exact .ite (WordDone.refl s).cfdWord (WordDone.foldl (.ite (WordDone.refl s).writeLost (WordDone.refl s)) fun h => h.putField)

theorem readWord_crossing : s.readWord p off = (s, s.pageWord p off) := by
  obtain ⟨-, -, page⟩ := s.crossDom_place p off d cross
  have other : p ≠ pgTIME := by rw [pgTIME]; omega
  rw [readWord, if_neg (by simp [other])]

end State

/-- A granted access to a word of a port's domain. -/
structure Crossing (s : State) (x : CoreAccess) (d : Nat) : Prop extends GrantedWord s x where
  up : s.up = true
  cross : s.crossDom (pageOf x.addr) (offOf x.addr) = some d

namespace Crossing

variable {s : State} {x : CoreAccess} {d : Nat} (h : Crossing s x d) (w : Option Nat)
include h

/-- While CS# of the port is low the access waits, and with it high it completes at once (R85). -/
theorem exec : exec (.crossDomainAccess x w) s = .next
    (if decide (d < 6) && s.csLow d then { s with waits := s.waits ++ [⟨d, x, w⟩] } else s.crossDone ⟨d, x, w⟩) := by
  rw [exec_crossDomainAccess s x w h.up, h.access]
  unfold State.regAccess
  dsimp only
  rw [if_neg h.good, h.cross]

theorem done : (s.crossDone ⟨d, x, w⟩).waits = s.waits ∧ (s.crossDone ⟨d, x, w⟩).bus.error = false
    ∧ (w = none → (s.crossDone ⟨d, x, w⟩).bus.data = (s.readWord (pageOf x.addr) (offOf x.addr)).2)
    ∧ sameStores s (s.crossDone ⟨d, x, w⟩) := by
  cases w with
  | some v =>
    have written := s.plainWrite_crossing _ _ d h.cross v
    exact ⟨written.waits, rfl, nofun, sameStores_trans written.stores ⟨rfl, rfl, rfl, rfl, rfl, rfl, rfl⟩⟩
  | none =>
    have read := s.readWord_crossing _ _ d h.cross
    unfold State.crossDone
    dsimp only
    rw [read]
    exact ⟨rfl, rfl, fun _ => rfl, ⟨rfl, rfl, rfl, rfl, rfl, rfl, rfl⟩⟩

end Crossing

end Sys2Proof.Machine
end

section
/-! O44: pins, holds, the write buffer, leases and crossing accesses of a port (R85, R86, R270-R279, R298, R402). -/

namespace Sys2Proof.Machine

/-- The lease window of port `n` is closing: the channel has to return the pins (R279). -/
def State.leaseClosing (s : State) (n : Nat) : State := s.setChan n { s.chan n with closing := true }

theorem State.leaseClosing_chan (s : State) (n : Nat) : (s.leaseClosing n).chan n = { s.chan n with closing := true } := s.chan_setChan_same n _

/-- LEASE_RETURN_DUE gives the pins back where nothing runs on the channel and no transaction on the port (R279). -/
theorem exec_leaseReturnDue_running (s : State) (n : Fin 6) (running : 0 < (s.chan n).lease) : ∃ u, exec (.leaseReturnDue n) s = .next u
    ∧ u.chan n = { s.chan n with closing := true } ∧ Framed s u
    ∧ ((s.sched (State.chanRes n)).running = none → s.released n = true → s.sharing n = 1 → (s.port n).live = none
      → u.portOwns n = true) := by
  have framed : Framed s (s.leaseClosing n) := s.setChan_framed n _
  have next : exec (.leaseReturnDue n) s = .next (if (s.sched (State.chanRes n)).running.isNone && s.released n then
      (s.leaseClosing n).chanRest n else s.leaseClosing n) := congrArg Host.Outcome.next (if_pos running)
  by_cases idle : ((s.sched (State.chanRes n)).running.isNone && s.released n) = true
  · rw [if_pos idle] at next
    refine ⟨_, next, ((s.leaseClosing n).chanRest_chan n).trans (s.leaseClosing_chan n),
      framed.trans (PinWork.refl n (s.leaseClosing n)).chanRest.toFramed, fun _ _ leased quiet => ?_⟩
    have shared : (s.leaseClosing n).sharing n ≠ 2 := ne_of_eq_of_ne leased (by decide)
    rw [State.chanRest_gives _ n shared quiet]
    exact State.portOwns_givePins _ n
  · rw [if_neg idle] at next
    exact ⟨_, next, s.leaseClosing_chan n, framed, fun free released => absurd (by simp [free, released]) idle⟩

/-- Settles O44: the pins and holds by `pinGrant_waiting` and `HoldOver`, a replay by `hostWrite`, the leases by `Leased`, and the accesses
that cross by what `crossDone` leaves. -/
theorem portEvents : Obligations.PortEvents := by
  refine ⟨fun s n c l live waits untouched empty idle => ⟨fun within => ?_, fun late nothing => ?_⟩,
    fun s n l live holds nothing => ?_, fun s n t rest oldest idle => ?_, fun s n e emulates => ⟨fun low => ?_, fun high => ?_⟩,
    fun s n d up own alive sound port units attached => ?_, fun s n d leased => ?_,
    fun s n ended => ⟨congrArg Host.Outcome.next (if_neg (by omega)), congrArg Host.Outcome.next (if_neg (by omega))⟩,
    fun s n running => ⟨?_, ?_⟩, fun s x w d up low high page size aligned user pmp cross => ?_⟩
  · have next := (s.pinGrant_waiting n l live c waits untouched empty idle).trans (if_neg (Nat.not_lt.mpr within))
    have given := s.givePins_shown n
    have opened := State.openTxn_framed (s.givePins n) n
    exact ⟨_, congrArg Host.Outcome.next next, s.portOwns_givePins n, s.rd_owner_givePins n, State.openTxn_live _ n _, given.fields,
      (given.toFramed.trans (opened _)).cfg, (given.toFramed.trans (opened _)).stores⟩
  · have next := (s.pinGrant_waiting n l live c waits untouched empty idle).trans (if_pos late)
    have given := s.givePins_shown n
    have live' : ((s.givePins n).port n).live = some l := by rw [given.rest]; exact live
    have ended := State.holdExpired_over (s.givePins n) n l live' (.inl waits) nothing
    have whole := given.toFramed.trans ended.toFramed
    have limit := State.cfg_of_sameCfg given.cfg (Reg.HFP.DS_HOLD n)
    have owns : ((s.givePins n).holdExpired n).portOwns n = (s.givePins n).portOwns n :=
      congrArg (decide ((n : Nat) < 6) && ·) (ended.flag_apart (Reg.HFP.PORT_STATUS_OWNS_PINS n) rfl)
    refine ⟨_, congrArg Host.Outcome.next next, owns.trans (s.portOwns_givePins n), ?_, ended.event, ?_, whole.cfg, whole.stores⟩
    · rw [ended.live, limit]
    · rw [ended.count, given.rd_apart _ rfl]
  · have ended := s.holdExpired_over n l live holds nothing
    exact ⟨_, rfl, ended.live, ended.count, ended.event, ended.fields, ended.cfg, ended.stores⟩
  · have work := s.wbufReplay_oldest n t rest oldest idle
    have written := (s.hostWrite_written n t).trans (.of_framed ((State.setPort_framed _ n _).trans work.toFramed))
    have flash : (s.wbufReplay n).flash = _ := work.stores.flash.trans (s.hostWrite_flash n t)
    refine ⟨_, rfl, (congrArg Port.wbuf ((work.port n).trans (State.port_setPort_same _ n _)) :), fun program => flash.trans (if_pos program),
      fun erase => flash.trans ?_, fun register => flash.trans ?_, written.sram, written.otp, written.nvm, written.cfg⟩
    · rw [if_neg (ne_of_eq_of_ne erase (by decide)), if_pos erase]
    · rw [if_neg (ne_of_eq_of_ne register (by decide)), if_neg (ne_of_eq_of_ne register (by decide))]
  · have next : exec (.emuBusyEnd n) s = .next (s.setPort n { s.port n with emu := some { e with wip := false } }) := by
      refine congrArg Host.Outcome.next ?_
      rw [emulates]
      exact if_pos low
    exact ⟨_, next, congrArg Port.emu (s.port_setPort_same n _), rfl, (s.setPort_framed n _).stores⟩
  · refine congrArg Host.Outcome.next ?_
    rw [emulates]
    exact if_neg (Bool.eq_false_iff.mp high)
  · obtain ⟨u, taken, next⟩ := exec_lease_judged s n d up own alive sound port units attached
    refine ⟨fun leased => ⟨u, taken, next.trans (congrArg Host.Outcome.next (if_pos leased))⟩, fun leased => ?_,
      fun other => ⟨u, taken, next.trans (congrArg Host.Outcome.next (if_neg other))⟩⟩
    obtain ⟨sharing, time, counted⟩ := (Mailed.of_submitted taken).counted n
    have answered := State.leaseOp_answered _ n d (sharing.trans leased)
    have whole := counted.trans answered.toTxnKept
    exact ⟨_, next.trans (congrArg Host.Outcome.next (if_pos leased)), answered.lease, answered.leaseAt.trans (congrArg TimeSt.mrt time),
      answered.back, answered.active, whole.flash, whole.sram, whole.otp, whole.cfg⟩
  · have begun := s.leaseOp_leased n d leased
    exact ⟨begun.lease, begun.leaseAt, begun.active, begun.cfg, begun.stores⟩
  · obtain ⟨u, next, chan, framed, gives⟩ := exec_leaseReturnDue_running s n running
    exact ⟨u, next, congrArg Chan.closing chan, (congrArg Chan.lease chan :), framed.cfg, framed.stores, gives⟩
  · obtain ⟨framed, lease, inactive⟩ := s.leaseEnd_pumped n
    exact ⟨_, congrArg Host.Outcome.next (if_pos running), lease, inactive, framed.cfg, framed.stores⟩
  · have crossing : Crossing s x d := ⟨⟨low, high, size, aligned, page, by simp [user], pmp⟩, up, cross⟩
    refine ⟨fun host csLow => (crossing.exec w).trans (congrArg Host.Outcome.next (if_pos (by simp [host, csLow]))), fun free => ?_⟩
    have now : ¬ (decide (d < 6) && s.csLow d) = true := by
      rcases free with management | csHigh
      · simp [Nat.not_lt.mpr management]
      · simp [csHigh]
    exact ⟨_, (crossing.exec w).trans (congrArg Host.Outcome.next (if_neg now)), crossing.done w⟩

end Sys2Proof.Machine
end
